-- ==== Sys2Proof/Word.lean ====
section
/-!
DEFINITION. The word types of the TQ-96: 32-bit registers (R16) and bytes.
-/
namespace Sys2Proof

/-- A register word (spec/01, "Address map": 32-bit registers). -/
abbrev Word := BitVec 32

/-- A byte of a frame, an image or a record. -/
abbrev Byte := BitVec 8

end Sys2Proof
end

