-- ==== Sys2Proof/Syntax.lean ====
section
/-!
DEFINITION. The commands of the block: one constructor per row of spec/opcode_table.json, with the row's operands.
-/
namespace Sys2Proof

/-- A word written to a register through a port (Table 17.1). -/
structure PortWrite where
  port : Nat
  data : Word
  deriving DecidableEq, Repr

/-- A guarded command written to its command register through a port, with the GUARD it carries. -/
structure PortCmd where
  port  : Nat
  guard : BitVec 16
  deriving DecidableEq, Repr

/-- A downlink management frame as the dielet receives it (Table 4.9): its number, payload, and whether its CRC is
right. -/
structure MgmtRx where
  seq   : BitVec 4
  data  : Word
  crcOk : Bool
  deriving DecidableEq, Repr

/-- An uplink frame as the controller receives it (Table 4.11), with whether its CRC is right. FLAGS[7] is BSTREQ,
then OTWARN, CLAMP, TOPUP, BLEED, HIZ, RETIRED and 0. -/
structure UplinkFrame where
  seq     : BitVec 4
  state   : BitVec 4
  vcell   : BitVec 12
  flags   : BitVec 8
  ack     : BitVec 4
  auxsel  : BitVec 4
  aux     : BitVec 12
  edgesel : BitVec 2
  str     : BitVec 6
  etime   : BitVec 8
  crcOk   : Bool
  deriving DecidableEq, Repr

/-- The conditions of Table 4.8 that a dielet detector raises after its filter or blanking; the other causes of the
table have commands of their own. -/
inductive DieletCause where
  | dsatHs | dsatLs | bothOn | cov | gdvUv | vnegUv | bstUv | ot
  deriving DecidableEq, Repr

/-- The cause code (Table 4.8). -/
def DieletCause.toCode : DieletCause → Nat
  | .dsatHs => 0x01 | .dsatLs => 0x02 | .bothOn => 0x03 | .cov => 0x04
  | .gdvUv => 0x05 | .vnegUv => 0x06 | .bstUv => 0x0A | .ot => 0x0C

/-- What a symbol launched at an edge instant belongs to: an edge of the modulated pulse (`eff`: the instant lies at
or after the effective instant of the last update, R108), a join pulse (R113) or a refresh pulse (R114). -/
inductive EdgeKind where
  | edge (eff : Bool)
  | joinLow | joinEnd
  | refreshLow | refreshEnd
  deriving DecidableEq, Repr

/-- A two-phase mirror write in MRAM (R58, R95, R214, R218, R263): a ledger entry, the seal record, a meter snapshot,
the record counter, the fault-log high-water mark. -/
inductive Mirror where
  | ledger (n : Nat)
  | seal
  | meter
  | recordCount
  | logMark
  deriving DecidableEq, Repr

/-- The clocks of R292. -/
inductive Clock where
  | xref | pllSys | pllEdge
  deriving DecidableEq, Repr

/-- A CAN frame (R331): its format (extended or not), identifier, FDF, BRS and ESI bits, whether it is a remote frame, its
length code and bytes; of a received one, whether it came without error, and the receive error counter after it. -/
structure CanFrame where
  xid    : Bool
  id     : BitVec 29
  fdf    : Bool
  brs    : Bool
  esi    : Bool
  remote : Bool
  dlc    : BitVec 4
  bytes  : List Byte
  good   : Bool
  errs   : BitVec 8
  deriving DecidableEq, Repr

/-- A fabric frame (Table 18.1) without its TYPE and CRC; `chunk` is FLAGS[4:0]. -/
structure FabFrame where
  src     : Nat
  dst     : Nat
  lseq    : Nat
  ttl     : Nat
  chunk   : Nat
  sepoch  : Nat
  depoch  : Nat
  seq     : Nat
  payload : List Byte
  deriving DecidableEq, Repr

/-- The timestamps of one exchange of ordered sets with a neighbour (R351), in 0.1 ns: sent and received here by the own
fabric time, received and sent there by the neighbour's. -/
structure TimeStamps where
  sent  : Int
  there : Int
  back  : Int
  got   : Int
  deriving DecidableEq, Repr

/-- An alert on the uplink (R82): its code, and the step of the timebase at which it arrives. -/
structure Alert where
  code : BitVec 8
  at_  : Nat
  deriving DecidableEq, Repr

/-- A LINKREF that arrives: the frame, and the fabric time, in 1/32 ns, at which its source sent it (R119), which the frame
does not carry (log entry 37). -/
structure Linkref where
  frame : FabFrame
  sent  : Int
  deriving DecidableEq, Repr

/-- A carrier whose update instant falls at an instant (R108): the seam, and the slot where it is the carrier of a slot
(R101). -/
structure Update where
  seam : Fin 64
  slot : Option (Fin 16)
  deriving DecidableEq, Repr

/-- What meets the end of a conversion in its cycle (R166): the end of another converter's conversion, with its input and peak
in nV, URGENT_GO through a port, with the EN it carries, or the SAMPLE_INSTANT of a seam at instant `t`. -/
inductive ConvMeet where
  | done (v : Fin 4) (x peak : Int)
  | go (k : Fin 8) (port : Nat) (en : Bool)
  | sample (n : Fin 64) (t : Nat)
  deriving DecidableEq, Repr

/-- A frame as the host port sees it (Table 17.2): the opcode, the bytes the host sent after it, whether it ended on one more
nibble, and the bytes the host clocked out after the dummy clocks. -/
structure HostFrame where
  op   : Byte
  sent : List Byte
  half : Bool
  out  : Nat
  deriving DecidableEq, Repr

/-- What happens at a window comparator in the cycle of another command (R178): its input becomes `x` nV, its blanking ends, or
t_dset after a change of one of its codes ends. -/
inductive WinMeet where
  | input (x : Int)
  | blankEnd
  | dsetEnd (high : Bool)
  deriving DecidableEq, Repr

/-- The commands of the block (spec/95, spec/opcode_table.json). -/
inductive Instr where
  /-- READ (R325): QSPI READ frame reads n words from a start address, sampling each word in one cycle. -/
  | read (sent : List Byte) (out : Nat)
  /-- READ_CRC (R323): QSPI READ_CRC frame checks the request CRC, then reads n words and sends a trailing CRC. -/
  | readCrc (sent : List Byte) (out : Nat)
  /-- WRITE (R326): QSPI WRITE frame queues n words to incrementing addresses. -/
  | write (sent : List Byte) (half : Bool)
  /-- WRITE_CRC (R323): QSPI WRITE_CRC frame holds its words, checks the CRC at the CS_N rise and then queues all words or discards them all. -/
  | writeCrc (sent : List Byte) (half : Bool)
  /-- WRITE_FIXED (R321): QSPI WRITE_FIXED frame queues n words, all to one address. -/
  | writeFixed (sent : List Byte) (half : Bool)
  /-- WRITE_FIXED_CRC (R323): QSPI WRITE_FIXED_CRC frame queues n words to one address after its CRC is checked. -/
  | writeFixedCrc (sent : List Byte) (half : Bool)
  /-- STATUS (R321): QSPI STATUS frame returns HST_STAT; the frame is given by its opcode, which picks what it is. -/
  | status (op : Option HostFrame)
  /-- STATUS_CRC (R323): QSPI STATUS_CRC frame returns HST_STAT followed by a CRC. -/
  | statusCrc
  /-- HOST_REGISTER_WRITE (R326): A queued write word to a register with no row of its own takes effect in issue order. -/
  | hostRegisterWrite (addr : BitVec 24) (w : PortWrite) (hw : Word)
  /-- SEAM_REF_WRITE (R24): A host write to SEAM_REF.REF is accepted only for an unrouted, non-REMOTE root. -/
  | seamRefWrite (n : Fin 64) (w : PortWrite)
  /-- SEAM_OFS_WRITE (R24): A host write to SEAM_OFS.OFS is accepted only when no context is routed to it. -/
  | seamOfsWrite (n : Fin 64) (w : PortWrite)
  /-- SEAM_EN_WRITE (R25): A write of SEAM_CTL.EN changes the enable, with root enables of 1 accepted only in the modes that allow them. -/
  | seamEnWrite (n : Fin 64) (w : PortWrite)
  /-- SEAM_STATE_READ (R32): A read of SEAM_STATE latches SEAM_CAP into the port's shadow. -/
  | seamStateRead (n : Fin 64) (port : Nat)
  /-- STREAM_BEGIN (R56): PAT_CTL STREAM_BEGIN empties staging and opens a stream of PAT_LEN bytes. -/
  | streamBegin (c : PortCmd)
  /-- PAT_STREAM_WRITE (R56): A PAT_STREAM word is packed into staging, and the last word starts verification. -/
  | patStreamWrite (w : PortWrite)
  /-- VERIFY_A (R49): PAT_CTL VERIFY_A verifies slot A without applying it. -/
  | verifyA (c : PortCmd)
  /-- VERIFY_B (R49): PAT_CTL VERIFY_B verifies slot B without applying it. -/
  | verifyB (c : PortCmd)
  /-- LOAD_STAGED (R51): PAT_CTL LOAD_STAGED applies the verified staged image. -/
  | loadStaged (c : PortCmd)
  /-- LOAD_A (R51): PAT_CTL LOAD_A verifies and applies slot A. -/
  | loadA (c : PortCmd)
  /-- LOAD_B (R51): PAT_CTL LOAD_B verifies and applies slot B. -/
  | loadB (c : PortCmd)
  /-- COMMIT_A (R57): PAT_CTL COMMIT_A starts copying the verified staged image into slot A. -/
  | commitA (c : PortCmd)
  /-- COMMIT_B (R57): PAT_CTL COMMIT_B starts copying the verified staged image into slot B. -/
  | commitB (c : PortCmd)
  /-- SELECT_A (R55): PAT_CTL SELECT_A makes slot A the active slot for the next start. -/
  | selectA (c : PortCmd)
  /-- SELECT_B (R55): PAT_CTL SELECT_B makes slot B the active slot for the next start. -/
  | selectB (c : PortCmd)
  /-- CONFIRM (R61): PAT_CTL CONFIRM confirms the present start or load. -/
  | confirm (c : PortCmd)
  /-- SEAL_MTR (R58): PAT_CTL SEAL_MTR seals the applied MTR section and increments the seal counter. -/
  | sealMtr (c : PortCmd)
  /-- ABORT (R55): PAT_CTL ABORT stops a stream or a verify-only run and empties staging. -/
  | abort (c : PortCmd)
  /-- PAT_VERIFY_DONE (R49): Verification of an image ends, either passing or failing at the first failed step. -/
  | patVerifyDone
  /-- PAT_APPLY_DONE (R51): An apply completes: sections and INIT written, derived fields computed and LOADED set. -/
  | patApplyDone
  /-- PAT_COMMIT_DONE (R57): A commit completes by writing the slot's VALID mark. -/
  | patCommitDone
  /-- CONFIRM_WIN_EXPIRE (R62): The confirm window of a load or start expires before CONFIRM, which undoes the load and starts again. -/
  | confirmWinExpire
  /-- START_BEGIN (R60): A start begins at CHECK and tries the active slot, then the other slot. -/
  | startBegin
  /-- CELL_WAKE (R89): A cell rising through V_WAKE moves its dielet from ASLEEP to WAKING. -/
  | cellWake (n : Fin 96)
  /-- DIELET_IDLE_WAKE (R89): 20 µs of downlink IDLE traffic with a charged cell moves an ASLEEP dielet to WAKING. -/
  | dieletIdleWake (n : Fin 96)
  /-- STITCH_WAKE_DONE (R89): A waking dielet finishes link training and self-test, and goes to IDLE, its retirement state or FAULT. -/
  | stitchWakeDone (n : Fin 96) (pass : Bool)
  /-- CELL_UVLO (R81): A cell falls below V_UVLO, and the dielet sends its last alert and goes ASLEEP. -/
  | cellUvlo (n : Fin 96)
  /-- SYMBOL_OFF (R68): An OFF command symbol turns both gates off. -/
  | symbolOff (n : Fin 96)
  /-- SYMBOL_LOW (R68): A LOW command symbol turns GH off and starts GL turn-on under the handshake. -/
  | symbolLow (n : Fin 96)
  /-- SYMBOL_HIGH (R68): A HIGH command symbol turns GL off and starts GH turn-on under the handshake, checking the bootstrap. -/
  | symbolHigh (n : Fin 96) (bst : BitVec 7)
  /-- SYMBOL_INVALID (R68): An invalid code 0b11 sends a stitch in RUN or IDLE to Hi-Z with XCMD. -/
  | symbolInvalid (n : Fin 96)
  /-- GATE_TURN_ON (R70): The incoming gate starts turning on once the handshake and the dead-time floor both hold. -/
  | gateTurnOn (n : Fin 96) (bst : BitVec 7)
  /-- HANDSHAKE_TIMEOUT (R70): The outgoing gate's sense does not read off within t_hsto, and the stitch goes to Hi-Z with HS_TIMEOUT. -/
  | handshakeTimeout (n : Fin 96)
  /-- EDGE_COMPLETE (R74): A switch-node transition completes and the strength law adjusts the attributed setting. -/
  | edgeComplete (n : Fin 96) (early : Bool) (t : BitVec 8)
  /-- EDGE_INCOMPLETE (R73): A transition does not pass 90 % within 100 ns and is counted as incomplete. -/
  | edgeIncomplete (n : Fin 96)
  /-- STI_STR_WRITE (R75): A host write to STI_STR is clamped and sent to the dielet. -/
  | stiStrWrite (n : Fin 96) (w : PortWrite)
  /-- BST_WARN_CROSS (R77): BST − SW falls below BST_WARN while GH is on, which sets BSTREQ and sends an alert. -/
  | bstWarnCross (n : Fin 96)
  /-- BSTREQ_CLEAR (R77): BSTREQ clears after GL has read on for 80 ns. -/
  | bstreqClear (n : Fin 96) (low : Bool)
  /-- STITCH_DETECTOR (R80): A dielet detector condition outlasts its filter and sends the stitch to Hi-Z with its cause. -/
  | stitchDetector (n : Fin 96) (c : DieletCause)
  /-- COV_CLAMP (R83): A Hi-Z stitch whose cell exceeds COV_TH clamps by turning GL on. -/
  | covClamp (n : Fin 96)
  /-- WRITE_FRAME (R85): A downlink WRITE frame loads a setting into the dielet. -/
  | writeFrame (n : Fin 96) (reg : BitVec 8) (f : MgmtRx)
  /-- TICK_FRAME (R86): A downlink TICK frame sets the telemetry tick count. -/
  | tickFrame (n : Fin 96) (f : MgmtRx)
  /-- HOLD_FRAME (R80): A downlink HOLD frame sends the stitch to HIZ with cause HOLD. -/
  | holdFrame (n : Fin 96) (f : MgmtRx)
  /-- RELEASE_FRAME (R82): A downlink RELEASE frame takes the stitch out of HIZ to IDLE if its cause is absent. -/
  | releaseFrame (n : Fin 96) (f : MgmtRx) (present : Bool)
  /-- RETIRE_FRAME (R91): A downlink RETIRE frame puts the dielet into BYPASS or OPEN. -/
  | retireFrame (n : Fin 96) (f : MgmtRx)
  /-- UNRETIRE_FRAME (R95): A downlink UNRETIRE frame takes the dielet from BYPASS or OPEN to IDLE. -/
  | unretireFrame (n : Fin 96) (f : MgmtRx)
  /-- BLEED_FRAME (R96): A downlink BLEED frame starts or stops the cell bleed latch. -/
  | bleedFrame (n : Fin 96) (f : MgmtRx)
  /-- SLEEP_FRAME (R89): A downlink SLEEP frame turns both gates off and sends the dielet ASLEEP. -/
  | sleepFrame (n : Fin 96) (f : MgmtRx)
  /-- MGMT_FRAME_LAUNCH (R382): A due management frame starts on the downlink once any frame in progress has ended. -/
  | mgmtFrameLaunch (n : Fin 96)
  /-- MGMT_FRAME_RESEND (R382): An unacknowledged management frame is resent after 3.0 µs, up to three times. -/
  | mgmtFrameResend (n : Fin 96)
  /-- TELEMETRY_TICK (R86): At the common telemetry tick every awake dielet samples its cell. -/
  | telemetryTick (cells : List (Fin 96 × BitVec 12 × BitVec 12))
  /-- UPLINK_FRAME (R86): An uplink telemetry frame arrives and updates telemetry, acknowledgements and SETOK. -/
  | uplinkFrame (n : Fin 96) (u : UplinkFrame)
  /-- UPLINK_ALERT (R85): An uplink alert arrives carrying a cause, BSTREQ or ASLEEP_UV, and updates the stitch state. -/
  | uplinkAlert (n : Fin 96) (c : Alert)
  /-- DOWNLINK_LOSS (R87): The dielet sees no valid downlink for 64 ns and goes to HIZ with LINK_DN. -/
  | downlinkLoss (n : Fin 96)
  /-- DOWNLINK_ABSENT_SLEEP (R87): A downlink absent for 10 ms sends the dielet ASLEEP. -/
  | downlinkAbsentSleep (n : Fin 96)
  /-- UPLINK_LOSS (R87): No valid uplink frame for 3.0 µs sets the stitch to FAULT with LINK_UP, unless silence is expected. -/
  | uplinkLoss (n : Fin 96) (tenMs : Bool)
  /-- STI_TEL0_READ (R88): A read of STI_TEL0 latches STI_TEL1 into the port's shadow. -/
  | stiTel0Read (n : Fin 96) (port : Nat)
  /-- STI_RETIRE (R91): STI_CMD RETIRE retires the stitch in its RMODE and records it in the ledger. -/
  | stiRetire (n : Fin 96) (c : PortCmd)
  /-- STI_CLEAR (R95): STI_CMD CLEAR clears the stitch's ledger entry, in FITTING only. -/
  | stiClear (n : Fin 96) (c : PortCmd)
  /-- CLEAR_ALL (R95): STI_UCMD CLEAR_ALL clears every ledger entry, in FITTING only. -/
  | clearAll (c : PortCmd)
  /-- LEDGER_MIRROR_DONE (R95): The two-phase MRAM mirror write of a ledger entry completes. -/
  | ledgerMirrorDone (n : Fin 96)
  /-- BYPASS_VERIFY (R92): BYPASS is verified, or fails into FAULT, within 500 ns of GL turning on. -/
  | bypassVerify (n : Fin 96) (ok : Bool)
  /-- BYP_TOPUP_START (R93): A bypassed cell falls below BYP_LOW, and GL turns off for a top-up. -/
  | bypTopupStart (n : Fin 96)
  /-- BYP_TOPUP_END (R93): A top-up ends after a 10 V rise or 200 µs, and GL turns on again. -/
  | bypTopupEnd (n : Fin 96)
  /-- BLEED_RELEASE (R96): The bleed latch releases when the cell falls below 2 V or rises through V_WAKE. -/
  | bleedRelease (n : Fin 96)
  /-- CARRIER_PERIOD_START (R101): A seam's carrier starts a period, applying phase moves and period changes. -/
  | carrierPeriodStart (n : Fin 64) (slot : Option (Fin 16)) (t : Nat) (met : List (Fin 64 × WinMeet))
  /-- SAMPLE_INSTANT (R106): At a seam's sample instant, its acquisition sequences, urgent slots and contexts are triggered. -/
  | sampleInstant (n : Fin 64) (t : Nat)
  /-- UPDATE_INSTANT (R108): At an update instant, context outputs are applied, references composed, STACKs sorted and LINKs sent. -/
  | updateInstant (due : Bool) (us : List Update)
  /-- EDGE_INSTANT (R102): The modulator launches a command symbol for an edge, refresh or join pulse at its assigned instant. -/
  | edgeInstant (n : Fin 96) (k : EdgeKind) (step : Nat)
  /-- MOD_CAR_PER_WRITE (R105): A host write to a root's PER takes effect at the next period or is refused with PERERR. -/
  | modCarPerWrite (n : Fin 64) (w : PortWrite)
  /-- MOD_PH_WRITE (R105): A host write to PHASE is accepted when unrouted and is applied under the slew limits. -/
  | modPhWrite (n : Fin 64) (w : PortWrite)
  /-- MOD_SYNC_IN_EDGE (R116): A MOD_SYNC_IN rising edge is measured, and the root corrects towards it. -/
  | modSyncInEdge (step : Nat)
  /-- SYNC_IN_TIMEOUT (R116): No MOD_SYNC_IN edge within the timeout clears SYNCOK, frees the root and raises CLK. -/
  | syncInTimeout
  /-- CTX_ELIGIBLE (R129): An execution becomes eligible t_trg after its sample instant. -/
  | ctxEligible (c : Fin 64)
  /-- CTX_EXEC_START (R130): A ready execution takes a free lane and captures its inputs. -/
  | ctxExecStart (c : Fin 64) (due : Bool)
  /-- CTX_EXEC_DONE (R123): An execution completes its law chain after COST cycles and writes YC, flags and checks. -/
  | ctxExecDone (c : Fin 64)
  /-- CTX_LATEST_START (R131): At LS, a waiting execution is forced ready, or it is skipped and raises CTX-LATE. -/
  | ctxLatestStart (c : Fin 64) (due : Bool)
  /-- CTX_PARK_WRITE (R135): A write of CTX_CTL.PARK parks or releases a context. -/
  | ctxParkWrite (c : Fin 64) (port : Nat) (park : Bool)
  /-- CTX_RESET (R136): CTX_CTL.RESET clears the state of a parked context. -/
  | ctxReset (c : Fin 64) (port : Nat) (park : Bool)
  /-- CTX_SP_WRITE (R138): A host write to CTX_SP is accepted only when SPSRC is C00. -/
  | ctxSpWrite (c : Fin 64) (w : PortWrite)
  /-- PLT_QF_WRITE (R151): A host write to PLT_QF is accepted only if the Q-filter rule holds. -/
  | pltQfWrite (c : Fin 64) (w : PortWrite)
  /-- PLT_WINDOW_WRITE (R153): A host write to the pleat memory window is applied only while the owner is parked and not clearing. -/
  | pltWindowWrite (k : Fin 131072) (w : PortWrite)
  /-- PLT_CLEAR_DONE (R154): A pleat memory clear completes and CLEARING falls. -/
  | pltClearDone (c : Fin 64)
  /-- ACQ_TRIG (R160): A host write of ACQ_SQCTL.TRIG starts a round or is handled as an overrun. -/
  | acqTrig (q : Fin 16) (port : Nat) (en : Bool)
  /-- ACQ_EN_WRITE (R163): A write that changes ACQ_SQCTL.EN turns a sequence on or off. -/
  | acqEnWrite (q : Fin 16) (port : Nat) (en : Bool)
  /-- CONVERSION_DONE (R157): A conversion completes, the result is written and the converter grants its next conversion. -/
  | conversionDone (v : Fin 4) (x peak : Int) (met : List ConvMeet)
  /-- URGENT_GO (R164): An urgent slot requests a conversion, preempting a sequenced conversion. -/
  | urgentGo (k : Fin 8) (port : Nat) (en : Bool)
  /-- WIN_COMPARATOR_CHANGE (R172): A window comparator turns active or inactive, settling it and possibly tripping the window. -/
  | winComparatorChange (w : Fin 64) (x : Int)
  /-- WIN_BLANK_END (R175): Blanking ends, and an output still active trips the window. -/
  | winBlankEnd (w : Fin 64)
  /-- WIN_DSET_END (R173): The t_dset blanking after a threshold change ends. -/
  | winDsetEnd (w : Fin 64) (high : Bool)
  /-- WIN_THR_WRITE (R173): A write to WIN_THR takes effect as a whole or is refused with WERR. -/
  | winThrWrite (w : Fin 64) (d : PortWrite)
  /-- WIN_LATCH_CLEAR (R177): A host write of 1 to LATCHED clears the latch only while the condition is absent. -/
  | winLatchClear (w : Fin 64) (d : PortWrite) (met : List WinMeet)
  /-- WIN_EN_WRITE (R178): A write of WIN_CTL.EN starts a window or turns it off, and is refused while it is latched. -/
  | winEnWrite (w : Fin 64) (port : Nat) (en : Bool)
  /-- GRID_UPDATE (R182): The grid unit makes an update t_gp after its round completes. -/
  | gridUpdate
  /-- CURVE_POINT_ACT (R190): A curve point's timer reaches TIME, and the point acts as TRIP or CEASE. -/
  | curvePointAct (freq : Bool) (p : Fin 16)
  /-- CEASE_RETURN (R192): CEASE clears after RETDLY with no CEASE point acting. -/
  | ceaseReturn
  /-- INJ_POST_END (R195): Reactive injection ends POST after the dead band was re-entered. -/
  | injPostEnd
  /-- ENTOK_SET (R198): ENTOK sets when the entry conditions have held for DLY. -/
  | entokSet
  /-- GRD_TRIPPED_CLEAR (R194): A host write of 1 to GRD_STAT.TRIPPED clears it only if no TRIP timer runs. -/
  | grdTrippedClear (d : PortWrite)
  /-- GRD_ISL_CLEAR (R194): A host write of 1 to GRD_STAT.ISL clears it only if no islanding condition is present. -/
  | grdIslClear (d : PortWrite)
  /-- MTR_SAMPLE (R204): A metering sample is taken, and zero crossings may close or open windows. -/
  | mtrSample (xs : List (BitVec 24 × BitVec 24))
  /-- MTR_ZC_TIMEOUT (R206): No accepted crossing for t_zto closes the window and enters fallback. -/
  | mtrZcTimeout (ch : Fin 4)
  /-- MTR_WINDOW_UPDATE (R210): t_mc after a window close, the corrected energies are added to the channel's accumulators. -/
  | mtrWindowUpdate (ch : Fin 4) (differ : Bool)
  /-- METER_INTERVAL_BOUNDARY (R217): An RTC interval boundary asks for a snapshot at the next window close. -/
  | meterIntervalBoundary
  /-- MTR_LONG_LO_READ (R211): A read of MTR_LONG_LO latches MTR_LONG_HI into the port's shadow. -/
  | mtrLongLoRead (ch : Fin 4) (q : Fin 7) (port : Nat)
  /-- MTR_INT_READ (R212): A read of MTR_INT latches its WCNT into the port's shadow. -/
  | mtrIntRead (ch : Fin 4) (q : Fin 7) (port : Nat)
  /-- MTR_ICLR (R212): MTR_CTL.ICLR clears the interval registers of a channel. -/
  | mtrIclr (chs : BitVec 4) (port : Nat) (en : Bool)
  /-- MTR_NOW (R217): MTR_CTL.NOW asks for an EARLY snapshot at the next window close. -/
  | mtrNow (port : Nat) (en : Bool)
  /-- MTR_EN_WRITE (R217): A write of MTR_CTL.EN starts or stops metering, and a fall gives a CLOSE snapshot. -/
  | mtrEnWrite (port : Nat) (en : Bool)
  /-- MTR_SEAL_FIELD_WRITE (R216): A host write to a SEAL field is accepted while unsealed and sets CALDIRTY. -/
  | mtrSealFieldWrite (a : BitVec 16) (d : PortWrite)
  /-- SAFETY_TICK (R234): The hem tick updates inputs, pairs, HVIL, contactors, frames, demands, SRST and the latch. -/
  | safetyTick (wires : BitVec 8) (srst : Bool) (fb : BitVec 4)
  /-- SPO_N_CHANGE (R230): SPO_N changes level and restarts its filter, and a low that ends early is counted as ignored. -/
  | spoNChange (high : Bool)
  /-- SPO_FILTER_EXPIRE (R230): SPO_N holds a level for the filter time, so a low is accepted or the demand ends. -/
  | spoFilterExpire
  /-- DISCREPANCY_LIMIT (R232): A pair's discrepancy count reaches N, which sets DISCF and raises SAF-DISC. -/
  | discrepancyLimit (p : Fin 4)
  /-- SRST_STUCK (R233): SRST held high for 20,001 ticks sets STUCK and raises SAF-RST. -/
  | srstStuck
  /-- HVIL_BIT (R236): An HVIL bit return is measured, and two misses set the HVIL fault. -/
  | hvilBit (iret : BitVec 12)
  /-- CTR_FB_CHECK (R238): TFB after an enable change, contactor read-back is checked, setting FBERR on a difference. -/
  | ctrFbCheck (k : Fin 4) (level : Bool)
  /-- HEM_COPY_RX (R241): A hem frame copy is judged, opening or closing a window or counting an error. -/
  | hemCopyRx (busB xid : Bool) (id : BitVec 29) (bytes : List Byte)
  /-- HEM_WINDOW_EXPIRE (R241): A hem window passes WIN without its partner copy, which is a MISSING. -/
  | hemWindowExpire (k : Fin 4)
  /-- HEM_STREAM_LOST (R241): PER + WIN passes with no window opened, which is a LOST. -/
  | hemStreamLost (k : Fin 4)
  /-- HEM_TX_DUE (R242): Every PER ms, the hem sends one frame pair on both buses. -/
  | hemTxDue
  /-- STEST (R243): SAF_CTL.STEST starts the hem self-test. -/
  | stest (c : PortCmd)
  /-- STEST_DONE (R243): The self-test ends with a pass setting STOK, or a failure latching the hem. -/
  | stestDone (pass : Bool)
  /-- SAF_DISREQ (R239): SAF_CTL.DISREQ asks for DISCHARGE, and is refused while a root is enabled. -/
  | safDisreq (c : PortCmd)
  /-- SAF_CTR_REQ_WRITE (R237): A host write of SAF_CTR.REQ requests contactors, and writes of 1 are discarded while latched. -/
  | safCtrReqWrite (w : PortWrite)
  /-- FAULT_OCCURRENCE (R247): A detector reports an occurrence, which is tiered, reacted to, recorded and logged. -/
  | faultOccurrence (cls : Fin 24) (scope : BitVec 16) (detail : BitVec 8)
  /-- DUE_LIFT (R254): The quiet period of a reaction ends, which lifts it or makes the fault permanent. -/
  | dueLift (scope : BitVec 16)
  /-- FLT_RELEASE (R256): FLT_CMD RELEASE acts as a due lift on the named detector. -/
  | fltRelease (c : PortCmd)
  /-- UNLATCH (R256): FLT_CMD UNLATCH ends a latched reaction. -/
  | unlatch (c : PortCmd)
  /-- CAUSE_RECORD_CLEAR (R259): A write of 1 to FLT_CRSTAT.UNCL clears a cause record unless refused. -/
  | causeRecordClear (cls : Fin 24) (w : PortWrite) (met : Bool)
  /-- SHADOW_CLOSE (R261): A shadow window closes at its closing tick. -/
  | shadowClose
  /-- PAT_CHECK (R248): Every 10 ms the structure CRC is recomputed, and a mismatch raises PAT-CHK. -/
  | patCheck (differs : Bool)
  /-- FLT_LOG_READ (R265): A read of word 0 of a log slot latches words 1–3 into the port's shadow. -/
  | fltLogRead (k : Fin 256) (port : Nat)
  /-- OVL_START (R273): OVL_CMD START opens a host stream on a NONE unit. -/
  | ovlStart (u : Fin 16) (port : Nat)
  /-- OVL_END (R273): OVL_CMD END closes the host stream. -/
  | ovlEnd (u : Fin 16) (port : Nat)
  /-- OVL_DIN4 (R273): A write to OVL_DIN4 feeds four bytes to the open stream. -/
  | ovlDin4 (u : Fin 16) (w : PortWrite)
  /-- OVL_DIN1 (R273): A write to OVL_DIN1 feeds one byte to the open stream. -/
  | ovlDin1 (u : Fin 16) (w : PortWrite)
  /-- OVL_RES_LO_READ (R273): A read of OVL_RES_LO returns the result and latches OVL_RES_HI. -/
  | ovlResLoRead (u : Fin 16) (port : Nat)
  /-- OVL_PARAM_WRITE (R272): A parameter write is accepted only if it leaves a valid set and no stream is open. -/
  | ovlParamWrite (u : Fin 16) (k : Fin 7) (w : PortWrite)
  /-- OVL_ACFG_WRITE (R278): A write to OVL_ACFG configures and arms the alive-counter checker. -/
  | ovlAcfgWrite (u : Fin 16) (w : PortWrite)
  /-- OVL_AFEED (R278): A counter value fed to OVL_AFEED is judged against the last accepted value. -/
  | ovlAfeed (u : Fin 16) (w : PortWrite)
  /-- ATTEST (R285): IDN_CMD ATTEST captures the report fields and queues its signature. -/
  | attest (c : PortCmd)
  /-- FUSE_KEY (R282): IDN_CMD FUSE_KEY starts programming the customer key hash fuses. -/
  | fuseKey (c : PortCmd)
  /-- FUSE_KEY_DONE (R282): Fuse programming ends with KEYSET or KFAIL. -/
  | fuseKeyDone (fused : BitVec 256)
  /-- SIGN_COMPLETE (R283): The signing engine completes a signature or verify and starts the next queued request. -/
  | signComplete
  /-- KEY_CHECK_DONE (R280): The key and random-generator checks after PD3 power-up complete, setting KEYERR or RNGERR on failure. -/
  | keyCheckDone (keyOk rngOk : Bool)
  /-- RNG_HEALTH_FAIL (R280): A random-generator health test fails during operation and sets RNGERR. -/
  | rngHealthFail
  /-- WAKE_TAKEN (R295): A wake source's condition is taken in DORMANT or WATCH. -/
  | wakeTaken (src : Fin 8)
  /-- RAILTO_EXPIRE (R296): RAILTO passes without the rails, and the module returns to DORMANT or WATCH with NORAILS. -/
  | railtoExpire
  /-- CP_PP_MEASURE (R295): Every 10 ms the CP, PP and HV monitors sample. -/
  | cpPpMeasure (pilot : Fin 6) (pwm : Option (BitVec 10)) (r hv : BitVec 12)
  /-- RAIL_MONITOR (R286): A rail passes its UV or OV threshold and raises PWR-SUP. -/
  | railMonitor (rail : Fin 5) (low high : Bool)
  /-- BROWNOUT (R287): A main rail below its reset level switches off PD1–PD7 at once and sets WATCH. -/
  | brownout
  /-- VAON_RESET (R287): VAON below its reset level resets PD0. -/
  | vaonReset
  /-- SELVEDGE_POWER_UP (R293): PD0 leaves reset in WATCH with Reset values and RTC 0. -/
  | selvedgePowerUp
  /-- RESTORE_DONE (R293): The MRAM restores at PD3 power-up complete, clearing RESTPEND. -/
  | restoreDone
  /-- DOMAIN_OUT_OF_RESET (R288): A domain leaves reset t_dom after its switch closes and clocks are valid. -/
  | domainOutOfReset (n : Fin 8)
  /-- POWER_DOWN_DONE (R289): The orderly power-down completes after the SLEEP acknowledgements or the 100 µs wait. -/
  | powerDownDone
  /-- XAON_OK (R291): XAON has run 1 s within tolerance, and PD0 changes to it. -/
  | xaonOk
  /-- XAON_LOSS (R291): XAON gives no edge for 4 RC periods, and PD0 returns to the RC. -/
  | xaonLoss
  /-- CLOCK_FAIL (R292): XREF stops or a PLL loses lock, which raises CLK. -/
  | clockFail (clk : Clock)
  /-- PLL_RELOCK (R292): A PLL relocks, and PLL_EDGE relock restarts every root at phase 0. -/
  | pllRelock (edge : Bool)
  /-- MODE_REQ_PRECHARGE (R299): A PWR_MODECTL request for PRECHARGE. -/
  | modeReqPrecharge (c : PortCmd)
  /-- MODE_REQ_CHARGE (R299): A PWR_MODECTL request for CHARGE. -/
  | modeReqCharge (c : PortCmd)
  /-- MODE_REQ_FEED (R299): A PWR_MODECTL request for FEED. -/
  | modeReqFeed (c : PortCmd)
  /-- MODE_REQ_ISLAND (R299): A PWR_MODECTL request for ISLAND, which starts grid forming. -/
  | modeReqIsland (c : PortCmd)
  /-- MODE_REQ_AUXILIARY (R299): A PWR_MODECTL request for AUXILIARY. -/
  | modeReqAuxiliary (c : PortCmd)
  /-- MODE_REQ_READY (R299): A PWR_MODECTL request for READY. -/
  | modeReqReady (c : PortCmd)
  /-- MODE_REQ_FITTING (R299): A PWR_MODECTL request for FITTING. -/
  | modeReqFitting (c : PortCmd)
  /-- MODE_REQ_WATCH (R299): A PWR_MODECTL request for WATCH, which powers down under R289. -/
  | modeReqWatch (c : PortCmd)
  /-- MODE_REQ_DORMANT (R299): A PWR_MODECTL request for DORMANT, which powers down under R289. -/
  | modeReqDormant (c : PortCmd)
  /-- PRECHARGE_TIMEOUT (R302): PTMAX passes without PCDONE, and the module returns to READY. -/
  | prechargeTimeout
  /-- DISCHARGE_COMPLETE (R304): The discharge conditions have held for TAIL, which completes the discharge. -/
  | dischargeComplete
  /-- DISCHARGE_TIMEOUT (R305): TMAX passes before completion, setting TOUT and raising a latched T4 PWR-SUP. -/
  | dischargeTimeout
  /-- RTC_SET (R294): A write of PWR_RTCW_LO loads the 64-bit RTC and sets RTCVAL. -/
  | rtcSet (w : PortWrite)
  /-- RTC_READ (R294): A read of PWR_RTC_LO latches PWR_RTC_HI into the port's shadow. -/
  | rtcRead (port : Nat)
  /-- ALARM_ARM (R294): A write of PWR_ALARM_LO arms the RTC alarm. -/
  | alarmArm (w : PortWrite)
  /-- CPERM_WRITE (R300): A write of PWR_CPERM is accepted only while every contactor enable is low. -/
  | cpermWrite (w : PortWrite)
  /-- TRACK_CYCLE (R309): A harvest tracking cycle disconnects HIN to sample Voc. -/
  | trackCycle
  /-- VOC_SAMPLE_END (R309): At the end of t_voc, Voc is sampled and VREG set. -/
  | vocSampleEnd (voc : BitVec 13)
  /-- STORE_FULL (R310): The store reaches VSTMAX, which stops the boost and sets FULL. -/
  | storeFull
  /-- HIN_OV (R310): HIN above 5.00 V stops the boost and sets HINOV. -/
  | hinOv
  /-- COLD_START (R312): The cold-started store rises through V_AONUP and the VAON regulator starts. -/
  | coldStart
  /-- EXTSUP_CHANGE (R313): An external source starts or stops holding VAON, and EXTSUP follows. -/
  | extsupChange (ext : Bool)
  /-- GAUGE_MEASURE (R314): The store is measured, E and the grant are updated, and modes and bursts follow. -/
  | gaugeMeasure (vst : BitVec 13)
  /-- BURST_CHECKPOINT (R316): A burst reaches a checkpoint and continues, defers, finishes or hands over. -/
  | burstCheckpoint
  /-- BURST_STOP (R317): The store falls to V_STOP during a burst, which switches PD3 off with STOPPED. -/
  | burstStop
  /-- BURST_TIMEOUT (R317): A burst runs beyond 50 ms and ends with TIMEOUT. -/
  | burstTimeout
  /-- HRV_WRITE (R319): A host write to an HRV register outside its allowed range is ignored and sets WERR. -/
  | hrvWrite (k : Fin 9) (w : PortWrite)
  /-- CAN_FRAME_RX (R333): A received CAN frame is offered to the hem, the service or the mailboxes. -/
  | canFrameRx (b : Fin 2) (f : CanFrame)
  /-- CAN_SVC_REQUEST (R338): A CAN service READ request is performed as port 3, and its response is queued. -/
  | canSvcRequest (b : Fin 2) (fdf : Bool) (bytes : List Byte)
  /-- MB_STAT_READ (R335): A read of MB_STAT locks the mailbox for the reading port. -/
  | mbStatRead (b : Fin 2) (m : Fin 32) (port : Nat)
  /-- MB_FULL_CLEAR (R335): A write of 1 to MB_STAT.FULL clears FULL and OVR and ends the lock. -/
  | mbFullClear (b : Fin 2) (m : Fin 32) (w : PortWrite)
  /-- MB_TXREQ (R336): MB_CTL.TXREQ sets TXPEND on an enabled TX mailbox. -/
  | mbTxreq (b : Fin 2) (m : Fin 32) (w : PortWrite)
  /-- MB_ABORT (R336): MB_CTL.ABORT cancels a pending transmission. -/
  | mbAbort (b : Fin 2) (m : Fin 32) (w : PortWrite)
  /-- CAN_ARBITRATION (R336): The controller enters arbitration with a hem frame, a service response or a mailbox. -/
  | canArbitration (b : Fin 2)
  /-- CAN_TX_DONE (R336): A transmission ends with success or failure, updating TXRES or retrying. -/
  | canTxDone (b : Fin 2) (ok : Bool) (tec : BitVec 8)
  /-- CAN_BUS_OFF (R337): The controller reaches bus-off and stops transmitting. -/
  | canBusOff (b : Fin 2)
  /-- CAN_RECOVER (R337): CAN_CTL.RECOVER starts bus-off recovery. -/
  | canRecover (b : Fin 2) (port : Nat)
  /-- CAN_RECOVERY_DONE (R337): Recovery completes after 128 occurrences of 11 recessive bits. -/
  | canRecoveryDone (b : Fin 2)
  /-- FAB_TRAIN_START (R340): An enabled port in DOWN sees receive symbols and enters TRAIN. -/
  | fabTrainStart (p : Fin 4)
  /-- FAB_ALIGNED (R343): 64 valid aligned symbols take the port to HELLO and send the hello set. -/
  | fabAligned (p : Fin 4)
  /-- FAB_HELLO_TIMEOUT (R343): HELLO lasts 50 ms without completion, and the port enters FAILED. -/
  | fabHelloTimeout (p : Fin 4)
  /-- FAB_FAILED_END (R344): 100 ms in FAILED return the port to DOWN. -/
  | fabFailedEnd (p : Fin 4)
  /-- FAB_SYMBOL_LOSS (R344): No valid symbol for 1 µs takes an UP port DOWN and raises FAB-LINK. -/
  | fabSymbolLoss (p : Fin 4)
  /-- FAB_ACK (R342): An ACK ordered set acknowledges frames up to its LSEQ. -/
  | fabAck (p : Fin 4) (lseq : BitVec 8)
  /-- FAB_RESEND_TIMEOUT (R342): 4 µs without acknowledgement resends from the oldest frame, and exhaustion takes the port DOWN. -/
  | fabResendTimeout (p : Fin 4)
  /-- HELLO (R343): A HELLO frame delivers the peer's fingerprint. -/
  | hello (p : Fin 4) (f : FabFrame)
  /-- HDIG (R343): An HDIG frame delivers the peer's Pattern digest. -/
  | hdig (p : Fin 4) (f : FabFrame)
  /-- CERT (R343): A CERT chunk delivers part of the peer's certificate, and the last one is checked. -/
  | cert (p : Fin 4) (f : FabFrame)
  /-- CHAL (R343): A CHAL frame delivers the peer's nonce and queues the signed REPORT. -/
  | chal (p : Fin 4) (f : FabFrame)
  /-- REPORT (R343): REPORT chunks deliver the peer's signed report, which is checked to reach UP. -/
  | report (p : Fin 4) (f : FabFrame)
  /-- BIND (R345): A BIND frame claims a role, which the neighbour accepts or refuses. -/
  | bind (p : Fin 4) (f : FabFrame)
  /-- BACK (R346): A BACK frame accepts or refuses a binding and grants its epoch. -/
  | back (p : Fin 4) (f : FabFrame)
  /-- ROUTE (R348): A ROUTE frame updates the metrics to every role. -/
  | route (p : Fin 4) (f : FabFrame)
  /-- DIGEST (R353): A DIGEST frame updates the sender's epoch and its agreement bit. -/
  | digest (p : Fin 4) (f : FabFrame)
  /-- LINKREF (R356): A LINKREF delivers a reference to a REMOTE root, or is refused. -/
  | linkref (p : Fin 4) (f : Linkref)
  /-- LINKST (R356): A LINKST delivers the remote seam's state and capacity to the LINK. -/
  | linkst (p : Fin 4) (f : FabFrame)
  /-- RREQ (R358): A remote access request is performed as port 2 and answered. -/
  | rreq (p : Fin 4) (f : FabFrame)
  /-- RRSP (R359): A remote access response ends the pending host fabric request. -/
  | rrsp (p : Fin 4) (f : FabFrame)
  /-- ATTREQ (R359): A remote attestation request queues a report with FLAGS bit 5 set. -/
  | attreq (p : Fin 4) (f : FabFrame)
  /-- ATTRSP (R359): ATTRSP chunks store the remote report in the window, which changes when the last arrives. -/
  | attrsp (p : Fin 4) (f : FabFrame)
  /-- NACK (R347): A NACK refuses a frame, marking STALE or failing the pending request. -/
  | nack (p : Fin 4) (f : FabFrame)
  /-- ROUTE_SEND (R348): Every 1 ms, ROUTE is sent on every UP port. -/
  | routeSend
  /-- ROLE_FREE (R346): A role whose holder has been unreachable for 30 ms becomes free. -/
  | roleFree (r : Fin 32)
  /-- TIME_EXCHANGE (R351): Every 125 µs, a time exchange measures delay and offset and slews or steps fabric time. -/
  | timeExchange (p : Fin 4) (t : TimeStamps) (source : Fin 33)
  /-- TVALID_LOSS (R352): No exchange for 10 ms clears TVALID. -/
  | tvalidLoss
  /-- DIGEST_SEND (R353): Every 10 ms, DIGEST is sent to every member role. -/
  | digestSend
  /-- AGREE_TIMEOUT (R353): No DIGEST from a role within 30 ms clears its agreement bit. -/
  | agreeTimeout (r : Fin 32)
  /-- FAB_AGREE_READ (R354): A read of FAB_AGREE latches FAB_AGREE_EPOCH into the port's shadow. -/
  | fabAgreeRead (port : Nat)
  /-- FAB_REQ_READ (R359): FAB_RCTL GO with OP READ sends an RREQ read. -/
  | fabReqRead (port : Nat) (dst : BitVec 6) (n : BitVec 3) (tag : BitVec 8)
  /-- FAB_REQ_WRITE (R359): FAB_RCTL GO with OP WRITE sends an RREQ write. -/
  | fabReqWrite (port : Nat) (dst : BitVec 6) (n : BitVec 3) (tag : BitVec 8)
  /-- FAB_ATTEST (R359): FAB_RCTL GO with OP ATTEST sends an ATTREQ with the IDN nonce. -/
  | fabAttest (port : Nat) (dst : BitVec 6) (n : BitVec 3) (tag : BitVec 8)
  /-- FAB_REQ_TIMEOUT (R359): 200 µs without a reply ends the fabric request with TIMEOUT. -/
  | fabReqTimeout
  /-- LINK_RETRAINED (R87): A dielet that went to HIZ with LINK_DN finds a valid downlink again, retrains, and a retired dielet resumes BYPASS or OPEN. -/
  | linkRetrained (n : Fin 96)
  /-- XREF_VALID (R292): The XREF oscillator becomes valid t_xref after it is enabled, or returns after a loss, so XREFOK sets and PLL lock can begin. -/
  | xrefValid
  /-- BLEED_WAIT_END (R303): In DISCHARGE, once 10 s have passed since a stitch's last bleed ended, BLEED with DATA[0] = 1 is sent to it. -/
  | bleedWaitEnd (n : Fin 96)
  /-- STORE_BELOW_VSTMAX (R310): The store falls 50 mV below VSTMAX, so FULL clears and the boost starts again. -/
  | storeBelowVstmax
  /-- HINOV_CLEAR (R310): HIN falls below 4.90 V, so HINOV clears and the boost may run again. -/
  | hinovClear
  /-- MRAM_MIRROR_DONE (R214): A two-phase MRAM mirror write completes: the seal record, a meter snapshot, the record counter or the fault-log high-water mark. -/
  | mramMirrorDone (m : Mirror)
  /-- FAB_OTHER_TYPE (R341): A fabric frame with a bad CRC, a wrong length or an unlisted TYPE arrives; it is discarded and counted, or answered with NACK NOT_SUPPORTED. -/
  | fabOtherType (p : Fin 4) (bs : List Byte)
  deriving DecidableEq, Repr

end Sys2Proof
end

