-- ==== Sys2Proof/WellFormed.lean ====
section
/-!
DEFINITION. What a command must satisfy beyond its types: a port of Table 17.1, and frames of the lengths and field
widths of their formats. A command that does not is no command of the block; its meaning is defined all the same.
-/
namespace Sys2Proof

/-- Is a number a port of Table 17.1? -/
def portOk (p : Nat) : Bool := decide (p ≤ 3) || p == 7

/-- Does a fabric frame fit the layout of Table 18.1? -/
def FabFrame.wf (f : FabFrame) : Bool :=
  decide (f.src ≤ 32) && decide (f.dst < 256) && decide (f.lseq < 256) && decide (f.ttl < 256) && decide (f.chunk < 32)
    && decide (f.sepoch < 65536) && decide (f.depoch < 65536) && decide (f.seq < 65536) && f.payload.length == 32

/-- Does a CAN frame carry at most 64 bytes, 8 without FDF, and an 11-bit identifier unless it is extended (R331)? -/
def CanFrame.wf (f : CanFrame) : Bool :=
  decide (f.bytes.length ≤ (if f.fdf then 64 else 8)) && (f.xid || decide (f.id.toNat < 2048))

/-- The well-formed commands. -/
def Instr.wf : Instr → Bool
  | .read _ _ => true
  | .readCrc _ _ => true
  | .write _ _ => true
  | .writeCrc _ _ => true
  | .writeFixed _ _ => true
  | .writeFixedCrc _ _ => true
  | .status _ => true
  | .statusCrc => true
  | .hostRegisterWrite _ w _ => portOk w.port
  | .seamRefWrite _ w => portOk w.port
  | .seamOfsWrite _ w => portOk w.port
  | .seamEnWrite _ w => portOk w.port
  | .seamStateRead _ port => portOk port
  | .streamBegin c => portOk c.port
  | .patStreamWrite w => portOk w.port
  | .verifyA c => portOk c.port
  | .verifyB c => portOk c.port
  | .loadStaged c => portOk c.port
  | .loadA c => portOk c.port
  | .loadB c => portOk c.port
  | .commitA c => portOk c.port
  | .commitB c => portOk c.port
  | .selectA c => portOk c.port
  | .selectB c => portOk c.port
  | .confirm c => portOk c.port
  | .sealMtr c => portOk c.port
  | .abort c => portOk c.port
  | .patVerifyDone => true
  | .patApplyDone => true
  | .patCommitDone => true
  | .confirmWinExpire => true
  | .startBegin => true
  | .cellWake _ => true
  | .dieletIdleWake _ => true
  | .stitchWakeDone _ _ => true
  | .cellUvlo _ => true
  | .symbolOff _ => true
  | .symbolLow _ => true
  | .symbolHigh _ _ => true
  | .symbolInvalid _ => true
  | .gateTurnOn _ _ => true
  | .handshakeTimeout _ => true
  | .edgeComplete _ _ _ => true
  | .edgeIncomplete _ => true
  | .stiStrWrite _ w => portOk w.port
  | .bstWarnCross _ => true
  | .bstreqClear _ _ => true
  | .stitchDetector _ _ => true
  | .covClamp _ => true
  | .writeFrame _ _ _ => true
  | .tickFrame _ _ => true
  | .holdFrame _ _ => true
  | .releaseFrame _ _ _ => true
  | .retireFrame _ _ => true
  | .unretireFrame _ _ => true
  | .bleedFrame _ _ => true
  | .sleepFrame _ _ => true
  | .mgmtFrameLaunch _ => true
  | .mgmtFrameResend _ => true
  | .telemetryTick _ => true
  | .uplinkFrame _ _ => true
  | .uplinkAlert _ _ => true
  | .downlinkLoss _ => true
  | .downlinkAbsentSleep _ => true
  | .uplinkLoss _ _ => true
  | .stiTel0Read _ port => portOk port
  | .stiRetire _ c => portOk c.port
  | .stiClear _ c => portOk c.port
  | .clearAll c => portOk c.port
  | .ledgerMirrorDone _ => true
  | .bypassVerify _ _ => true
  | .bypTopupStart _ => true
  | .bypTopupEnd _ => true
  | .bleedRelease _ => true
  | .carrierPeriodStart _ _ _ _ => true
  | .sampleInstant _ _ => true
  | .updateInstant _ _ => true
  | .edgeInstant _ _ _ => true
  | .modCarPerWrite _ w => portOk w.port
  | .modPhWrite _ w => portOk w.port
  | .modSyncInEdge _ => true
  | .syncInTimeout => true
  | .ctxEligible _ => true
  | .ctxExecStart _ _ => true
  | .ctxExecDone _ => true
  | .ctxLatestStart _ _ => true
  | .ctxParkWrite _ port _ => portOk port
  | .ctxReset _ port _ => portOk port
  | .ctxSpWrite _ w => portOk w.port
  | .pltQfWrite _ w => portOk w.port
  | .pltWindowWrite _ w => portOk w.port
  | .pltClearDone _ => true
  | .acqTrig _ port _ => portOk port
  | .acqEnWrite _ port _ => portOk port
  | .conversionDone _ _ _ met => met.all (fun m => match m with
      | .go _ port _ => portOk port
      | _ => true)
  | .urgentGo _ port _ => portOk port
  | .winComparatorChange _ _ => true
  | .winBlankEnd _ => true
  | .winDsetEnd _ _ => true
  | .winThrWrite _ d => portOk d.port
  | .winLatchClear _ d _ => portOk d.port
  | .winEnWrite _ port _ => portOk port
  | .gridUpdate => true
  | .curvePointAct _ _ => true
  | .ceaseReturn => true
  | .injPostEnd => true
  | .entokSet => true
  | .grdTrippedClear d => portOk d.port
  | .grdIslClear d => portOk d.port
  | .mtrSample _ => true
  | .mtrZcTimeout _ => true
  | .mtrWindowUpdate _ _ => true
  | .meterIntervalBoundary => true
  | .mtrLongLoRead _ _ port => portOk port
  | .mtrIntRead _ _ port => portOk port
  | .mtrIclr _ port _ => portOk port
  | .mtrNow port _ => portOk port
  | .mtrEnWrite port _ => portOk port
  | .mtrSealFieldWrite _ d => portOk d.port
  | .safetyTick _ _ _ => true
  | .spoNChange _ => true
  | .spoFilterExpire => true
  | .discrepancyLimit _ => true
  | .srstStuck => true
  | .hvilBit _ => true
  | .ctrFbCheck _ _ => true
  | .hemCopyRx _ _ _ _ => true
  | .hemWindowExpire _ => true
  | .hemStreamLost _ => true
  | .hemTxDue => true
  | .stest c => portOk c.port
  | .stestDone _ => true
  | .safDisreq c => portOk c.port
  | .safCtrReqWrite w => portOk w.port
  | .faultOccurrence _ _ _ => true
  | .dueLift _ => true
  | .fltRelease c => portOk c.port
  | .unlatch c => portOk c.port
  | .causeRecordClear _ w _ => portOk w.port
  | .shadowClose => true
  | .patCheck _ => true
  | .fltLogRead _ port => portOk port
  | .ovlStart _ port => portOk port
  | .ovlEnd _ port => portOk port
  | .ovlDin4 _ w => portOk w.port
  | .ovlDin1 _ w => portOk w.port
  | .ovlResLoRead _ port => portOk port
  | .ovlParamWrite _ _ w => portOk w.port
  | .ovlAcfgWrite _ w => portOk w.port
  | .ovlAfeed _ w => portOk w.port
  | .attest c => portOk c.port
  | .fuseKey c => portOk c.port
  | .fuseKeyDone _ => true
  | .signComplete => true
  | .keyCheckDone _ _ => true
  | .rngHealthFail => true
  | .wakeTaken _ => true
  | .railtoExpire => true
  | .cpPpMeasure _ _ _ _ => true
  | .railMonitor _ _ _ => true
  | .brownout => true
  | .vaonReset => true
  | .selvedgePowerUp => true
  | .restoreDone => true
  | .domainOutOfReset _ => true
  | .powerDownDone => true
  | .xaonOk => true
  | .xaonLoss => true
  | .clockFail _ => true
  | .pllRelock _ => true
  | .modeReqPrecharge c => portOk c.port
  | .modeReqCharge c => portOk c.port
  | .modeReqFeed c => portOk c.port
  | .modeReqIsland c => portOk c.port
  | .modeReqAuxiliary c => portOk c.port
  | .modeReqReady c => portOk c.port
  | .modeReqFitting c => portOk c.port
  | .modeReqWatch c => portOk c.port
  | .modeReqDormant c => portOk c.port
  | .prechargeTimeout => true
  | .dischargeComplete => true
  | .dischargeTimeout => true
  | .rtcSet w => portOk w.port
  | .rtcRead port => portOk port
  | .alarmArm w => portOk w.port
  | .cpermWrite w => portOk w.port
  | .trackCycle => true
  | .vocSampleEnd _ => true
  | .storeFull => true
  | .hinOv => true
  | .coldStart => true
  | .extsupChange _ => true
  | .gaugeMeasure _ => true
  | .burstCheckpoint => true
  | .burstStop => true
  | .burstTimeout => true
  | .hrvWrite _ w => portOk w.port
  | .canFrameRx _ f => f.wf
  | .canSvcRequest _ _ _ => true
  | .mbStatRead _ _ port => portOk port
  | .mbFullClear _ _ w => portOk w.port
  | .mbTxreq _ _ w => portOk w.port
  | .mbAbort _ _ w => portOk w.port
  | .canArbitration _ => true
  | .canTxDone _ _ _ => true
  | .canBusOff _ => true
  | .canRecover _ port => portOk port
  | .canRecoveryDone _ => true
  | .fabTrainStart _ => true
  | .fabAligned _ => true
  | .fabHelloTimeout _ => true
  | .fabFailedEnd _ => true
  | .fabSymbolLoss _ => true
  | .fabAck _ _ => true
  | .fabResendTimeout _ => true
  | .hello _ f => f.wf
  | .hdig _ f => f.wf
  | .cert _ f => f.wf
  | .chal _ f => f.wf
  | .report _ f => f.wf
  | .bind _ f => f.wf
  | .back _ f => f.wf
  | .route _ f => f.wf
  | .digest _ f => f.wf
  | .linkref _ f => f.frame.wf
  | .linkst _ f => f.wf
  | .rreq _ f => f.wf
  | .rrsp _ f => f.wf
  | .attreq _ f => f.wf
  | .attrsp _ f => f.wf
  | .nack _ f => f.wf
  | .routeSend => true
  | .roleFree _ => true
  | .timeExchange _ _ _ => true
  | .tvalidLoss => true
  | .digestSend => true
  | .agreeTimeout _ => true
  | .fabAgreeRead port => portOk port
  | .fabReqRead port _ _ _ => portOk port
  | .fabReqWrite port _ _ _ => portOk port
  | .fabAttest port _ _ _ => portOk port
  | .fabReqTimeout => true
  | .linkRetrained _ => true
  | .xrefValid => true
  | .bleedWaitEnd _ => true
  | .storeBelowVstmax => true
  | .hinovClear => true
  | .mramMirrorDone _ => true
  | .fabOtherType _ _ => true

end Sys2Proof
end

