-- ==== Sys2Proof/Machine/Table.lean ====
section
/-!
DEFINITION. Helpers with no machine in them: bit fields of a word, two's-complement codes, Q15 saturation, byte
orders, and the canonical sparse table (strictly rising keys, no entry equal to what an unlisted key reads as).
-/
namespace Sys2Proof.Machine

/-- The `wd` bits of `w` from bit `lo` upwards, as a number. -/
def bitsOf (w : Word) (lo wd : Nat) : Nat := w.toNat / 2 ^ lo % 2 ^ wd

/-- `w` with its `wd` bits from bit `lo` upwards replaced by `v` (taken modulo its width). -/
def setBits (w : Word) (lo wd v : Nat) : Word :=
  BitVec.ofNat 32 (w.toNat % 2 ^ lo + v % 2 ^ wd * 2 ^ lo + w.toNat / 2 ^ (lo + wd) * 2 ^ (lo + wd))

/-- The value of a `wd`-bit two's-complement code. -/
def signed (wd n : Nat) : Int :=
  let m := n % 2 ^ wd
  if m < 2 ^ (wd - 1) then (m : Int) else (m : Int) - (2 ^ wd : Nat)

/-- The `wd`-bit two's-complement code of a number, by wrapping. -/
def code (wd : Nat) (i : Int) : Nat := (i % (2 ^ wd : Nat)).toNat

/-- `i` held between `lo` and `hi`. -/
def clampInt (lo hi i : Int) : Int := if i < lo then lo else if hi < i then hi else i

/-- `n` held between `lo` and `hi`. -/
def clampNat (lo hi n : Nat) : Nat := if n < lo then lo else if hi < n then hi else n

/-- The value of a Q15 code (spec/00, "Numbers"), in units of 1/32,768. -/
def q15 (n : Nat) : Int := signed 16 n

/-- Saturation to Q15. -/
def sat16 (i : Int) : Int := clampInt (-32768) 32767 i

/-- The Q15 code of a number, saturated. -/
def satCode (i : Int) : Nat := code 16 (sat16 i)

/-- `true` as 1, `false` as 0. -/
def bit (b : Bool) : Nat := if b then 1 else 0

/-- Bit `k` of a number. -/
def tb (n k : Nat) : Bool := n / 2 ^ k % 2 == 1

/-- Floor division of integers (towards minus infinity). -/
def fdiv (a : Int) (b : Nat) : Int := a.fdiv b

/-! ### Canonical sparse tables -/

/-- What key `k` reads as: its entry, or the default `d k`. -/
def tget {α : Type} (d : Nat → α) : List (Nat × α) → Nat → α
  | [], k => d k
  | (i, v) :: t, k => if i = k then v else tget d t k

/-- Put the entry `(k, v)` in its place in a rising table. -/
def tins {α : Type} (k : Nat) (v : α) : List (Nat × α) → List (Nat × α)
  | [] => [(k, v)]
  | (i, w) :: t =>
    if i = k then (k, v) :: t
    else if k < i then (k, v) :: (i, w) :: t
    else (i, w) :: tins k v t

/-- Write `v` at key `k`; the default value removes the entry, so the form stays canonical. -/
def tset {α : Type} [DecidableEq α] (d : Nat → α) (l : List (Nat × α)) (k : Nat) (v : α) : List (Nat × α) :=
  if v = d k then l.filter (fun e => e.1 != k) else tins k v l

/-- Every key of the table from `lo` (inclusive) to `hi` (exclusive) back to its default. -/
def tdrop {α : Type} (l : List (Nat × α)) (lo hi : Nat) : List (Nat × α) :=
  l.filter (fun e => e.1 < lo || hi ≤ e.1)

/-- Change every entry of a table, dropping those that become the default. -/
def tmap {α : Type} [DecidableEq α] (d : Nat → α) (f : Nat → α → α) (l : List (Nat × α)) : List (Nat × α) :=
  (l.map (fun e => (e.1, f e.1 e.2))).filter (fun e => decide (e.2 ≠ d e.1))

/-- Keys strictly rise. -/
def rising {α : Type} : List (Nat × α) → Bool
  | [] => true
  | [_] => true
  | (i, _) :: (j, w) :: t => decide (i < j) && rising ((j, w) :: t)

/-- The canonical form: rising keys, and no entry equal to the default of its key. -/
def canonical {α : Type} [DecidableEq α] (d : Nat → α) (l : List (Nat × α)) : Bool :=
  rising l && l.all (fun e => decide (e.2 ≠ d e.1))

/-! ### Bytes -/

/-- The number whose bytes, least significant first, are `bs`. -/
def leNat : List Byte → Nat
  | [] => 0
  | b :: t => b.toNat + 256 * leNat t

/-- The number whose bytes, most significant first, are `bs`. -/
def beNat (bs : List Byte) : Nat := bs.foldl (fun a b => a * 256 + b.toNat) 0

/-- `k` bytes of `n`, least significant first. -/
def leBytes : Nat → Nat → List Byte
  | 0, _ => []
  | k + 1, n => BitVec.ofNat 8 n :: leBytes k (n / 256)

/-- `k` bytes of `n`, most significant first. -/
def beBytes (k n : Nat) : List Byte := (leBytes k n).reverse

/-- `n` bytes of `bs` from offset `o`. -/
def slice (bs : List Byte) (o n : Nat) : List Byte := (bs.drop o).take n

/-- The little-endian word at byte offset `o`. -/
def leAt (bs : List Byte) (o : Nat) : Nat := leNat (slice bs o 4)

/-- The words of a byte string, byte 4i in bits [7:0] of word i. -/
def leWords : Nat → List Byte → List Word
  | 0, _ => []
  | k + 1, bs => BitVec.ofNat 32 (leNat (bs.take 4)) :: leWords k (bs.drop 4)

/-- `f 0, f 1, …, f (n - 1)` applied in order to a state. -/
def forN {σ : Type} (n : Nat) (f : Nat → σ → σ) (s : σ) : σ :=
  (List.range n).foldl (fun a k => f k a) s

/-- `f` applied for each element of a list in order. -/
def forL {σ α : Type} (l : List α) (f : α → σ → σ) (s : σ) : σ := l.foldl (fun a x => f x a) s

end Sys2Proof.Machine
end

