-- ==== Sys2Proof/Machine/Crypto.lean ====
section
/-!
DEFINITION. The check values and the signature of the spec: CRCs (Table 14.3 in the Rocksoft form), SHA-256
(FIPS 180-4) and ECDSA P-256 verification (FIPS 186-5), over byte strings and numbers.
-/
namespace Sys2Proof.Machine

/-! ### CRC -/

/-- The `w`-bit number with its bits reversed. -/
def reflect : Nat → Nat → Nat
  | 0, _ => 0
  | w + 1, n => n % 2 * 2 ^ w + reflect w (n / 2)

/-- One bit into a CRC register of width `w` (most significant bit first). -/
def crcBit (w poly reg b : Nat) : Nat :=
  let top := reg / 2 ^ (w - 1) % 2
  let sh := reg * 2 % 2 ^ w
  if (top + b) % 2 = 1 then sh ^^^ poly else sh

/-- The eight bits of a byte, in order of processing. -/
def crcBits (refin : Bool) (b : Nat) : List Nat :=
  let l := (List.range 8).map (fun k => b / 2 ^ k % 2)
  if refin then l else l.reverse

/-- One byte into a CRC register. -/
def crcByte (w poly : Nat) (refin : Bool) (reg : Nat) (b : Byte) : Nat :=
  (crcBits refin b.toNat).foldl (crcBit w poly) reg

/-- The result of a CRC register. -/
def crcOut (w : Nat) (refout : Bool) (xor reg : Nat) : Nat := (if refout then reflect w reg else reg) ^^^ xor

/-- A whole CRC. -/
def crcOf (w poly init : Nat) (refin refout : Bool) (xor : Nat) (bs : List Byte) : Nat :=
  crcOut w refout xor (bs.foldl (crcByte w poly refin) init)

/-- CRC-8/SAE-J1850 (OL14, R323). -/
def crc8 (bs : List Byte) : Nat := crcOf 8 0x1D 0xFF false false 0xFF bs

/-- CRC-32/ISO-HDLC (OL15, R46). -/
def crc32 (bs : List Byte) : Nat := crcOf 32 0x04C11DB7 0xFFFFFFFF true true 0xFFFFFFFF bs

/-! ### SHA-256 -/

/-- The words of a 256-bit number, most significant first. -/
def eightWords (n : Nat) : List (BitVec 32) := (List.range 8).map (fun k => BitVec.ofNat 32 (n >>> (224 - 32 * k)))

/-- The 64 round constants, eight to a number. -/
def shaRoundConst : List (BitVec 32) :=
  ([0x428a2f9871374491b5c0fbcfe9b5dba53956c25b59f111f1923f82a4ab1c5ed5,
    0xd807aa9812835b01243185be550c7dc372be5d7480deb1fe9bdc06a7c19bf174,
    0xe49b69c1efbe47860fc19dc6240ca1cc2de92c6f4a7484aa5cb0a9dc76f988da,
    0x983e5152a831c66db00327c8bf597fc7c6e00bf3d5a7914706ca635114292967] ++
   [0x27b70a852e1b21384d2c6dfc53380d13650a7354766a0abb81c2c92e92722c85,
    0xa2bfe8a1a81a664bc24b8b70c76c51a3d192e819d6990624f40e3585106aa070,
    0x19a4c1161e376c082748774c34b0bcb5391c0cb34ed8aa4a5b9cca4f682e6ff3,
    0x748f82ee78a5636f84c878148cc7020890befffaa4506cebbef9a3f7c67178f2]).flatMap eightWords

/-- The initial hash value. -/
def shaStart : Nat := 0x6a09e667bb67ae853c6ef372a54ff53a510e527f9b05688c1f83d9ab5be0cd19

/-- The exclusive or of rotations to the right. -/
def rots (x : BitVec 32) (ks : List Nat) : BitVec 32 := ks.foldl (fun y k => y ^^^ x.rotateRight k) 0

/-- The schedule grows at its head by `n` words; the words 2, 7, 15 and 16 places back make the next one. -/
def growSchedule (n : Nat) (w : List (BitVec 32)) : List (BitVec 32) :=
  forN n (fun _ l =>
    let back (i : Nat) : BitVec 32 := l.getD (i - 1) 0
    (back 16 + back 7 + (rots (back 15) [7, 18] ^^^ (back 15 >>> 3)) + (rots (back 2) [17, 19] ^^^ (back 2 >>> 10))) :: l) w

/-- The compression keeps two sequences, newest first: a round adds one value to each of them. -/
structure Compress where
  top : List (BitVec 32)
  bot : List (BitVec 32)

/-- A round with the sum `kw` of its constant and its word. -/
def Compress.round (c : Compress) (kw : BitVec 32) : Compress :=
  let a (i : Nat) : BitVec 32 := c.top.getD i 0
  let e (i : Nat) : BitVec 32 := c.bot.getD i 0
  let pick := e 2 ^^^ (e 0 &&& (e 1 ^^^ e 2))
  let most := (a 0 &&& (a 1 ||| a 2)) ||| (a 1 &&& a 2)
  let sum := kw + e 3 + pick + rots (e 0) [6, 11, 25]
  ⟨(sum + most + rots (a 0) [2, 13, 22]) :: c.top.take 3, (sum + a 3) :: c.bot.take 3⟩

/-- The hash value `h` after one 64-byte block. -/
def shaFold (h : List (BitVec 32)) (blk : List Byte) : List (BitVec 32) :=
  let first := (List.range 16).map (fun i => BitVec.ofNat 32 (beNat (slice blk (60 - 4 * i) 4)))
  let kws := List.zipWith (· + ·) shaRoundConst (growSchedule 48 first).reverse
  let c := kws.foldl Compress.round ⟨h.take 4, h.drop 4⟩
  List.zipWith (· + ·) h (c.top ++ c.bot)

/-- A message padded to whole blocks: a one bit, zeros, and its length in bits. -/
def shaPad (bs : List Byte) : List Byte :=
  bs ++ 0x80 :: List.replicate ((119 - bs.length % 64) % 64) 0 ++ beBytes 8 (8 * bs.length)

/-- SHA-256 of a byte string, as its eight words. -/
def shaDigest (bs : List Byte) : List (BitVec 32) :=
  let m := shaPad bs
  forN (m.length / 64) (fun k h => shaFold h (slice m (64 * k) 64)) (eightWords shaStart)

/-- SHA-256 of a byte string, as a number. -/
def sha256 (bs : List Byte) : Nat := (shaDigest bs).foldl (fun n w => n <<< 32 + w.toNat) 0

/-! ### P-256 -/

def pP : Nat := 0xffffffff00000001000000000000000000000000ffffffffffffffffffffffff
def pN : Nat := 0xffffffff00000000ffffffffffffffffbce6faada7179e84f3b9cac2fc632551
def pB : Nat := 0x5ac635d8aa3a93e7b3ebbd55769886bc651d06b0cc53b0f63bce3c3e27d2604b
def pGx : Nat := 0x6b17d1f2e12c4247f8bce6e563a440f277037d812deb33a0f4a13945d898c296
def pGy : Nat := 0x4fe342e2fe1a7f9b8ee7eb4a7c0f9e162bce33576b315ececbb6406837bf51f5

/-- `a ^ e` modulo `m`, over `n` bits of the exponent. -/
def powMod : Nat → Nat → Nat → Nat → Nat
  | 0, _, _, m => 1 % m
  | n + 1, a, e, m =>
    let r := powMod n (a * a % m) (e / 2) m
    if e % 2 = 1 then r * a % m else r

/-- The inverse modulo a prime. -/
def invMod (a m : Nat) : Nat := powMod 256 (a % m) (m - 2) m

/-- Addition of points; `none` is the point at infinity. -/
def ecAdd (a b : Option (Nat × Nat)) : Option (Nat × Nat) :=
  match a, b with
  | none, q => q
  | q, none => q
  | some (x1, y1), some (x2, y2) =>
    if x1 = x2 ∧ (y1 + y2) % pP = 0 then none
    else
      let l := if x1 = x2 then (3 * x1 * x1 + pP - 3) * invMod (2 * y1) pP % pP
        else (y2 + pP - y1) * invMod (x2 + pP - x1) pP % pP
      let x := (l * l + 2 * pP - x1 - x2) % pP
      some (x, (l * (x1 + pP - x) + pP - y1) % pP)

/-- A multiple of a point, over `n` bits. -/
def ecMul : Nat → Nat → Option (Nat × Nat) → Option (Nat × Nat)
  | 0, _, _ => none
  | n + 1, k, q =>
    let r := ecMul n (k / 2) (ecAdd q q)
    if k % 2 = 1 then ecAdd q r else r

/-- Is (x, y) a point of the curve? -/
def onCurve (x y : Nat) : Bool :=
  decide (x < pP) && decide (y < pP) && y * y % pP == (x * x % pP * x + pB + (pP - 3) * x) % pP

/-- Does (r, s) sign the hash `h` under the public key (x, y)? -/
def ecdsaVerify (x y h r s : Nat) : Bool :=
  onCurve x y && decide (0 < r) && decide (r < pN) && decide (0 < s) && decide (s < pN) &&
    (let w := invMod s pN
     match ecAdd (ecMul 256 (h * w % pN) (some (pGx, pGy))) (ecMul 256 (r * w % pN) (some (x, y))) with
     | none => false
     | some (u, _) => u % pN == r)

end Sys2Proof.Machine
end

