-- ==== Sys2Proof/Config.lean ====
section
/-!
DEFINITION. What one implementation fixes and the spec leaves open: constants with no body. Nothing in Lean can
evaluate one, so a statement holds whatever they are. Log entry 1 lists them.
-/
namespace Sys2Proof.Config

/-- The k-th value the spec leaves open (a nonce, a signature secret, a value of a lost register): drawn one after
another by `State.freeCtr`. -/
opaque freeValue : Nat → BitVec 256

/-- The value of a quantity for which the spec gives a formula over real numbers and no rounding: the integer taken
for `num / den` at the place `site` of the model (log entry 1). -/
opaque quantise : (site : Nat) → (num den : Int) → Int

/-- A real-valued function of the spec without a stated arithmetic (sine, cosine, arctangent, root, filter step):
the integer result at the place `site`, as a function of its integer arguments. -/
opaque realFn : (site : Nat) → List Int → Int

/-- The number that wafer test drew for the device's private key (R280). -/
opaque deviceSecret : Nat

/-- The serial number of the device (R281). -/
opaque deviceSerial : BitVec 64

/-- What the spec does not state of the device certificate (R281): the attributes of the issuer's name before its CN, the
contents of notBefore, the extensions beside keyUsage, and the CA's key and its secret for a part that it signs. -/
opaque issuerRest : List Byte
opaque notBefore : List Byte
opaque otherExtensions : List Byte
opaque caSecret : Nat
opaque caNonce : (tbs : List Byte) → Nat

/-- What the spec does not state of the CA certificate (R281): its serial number, the root's signature algorithm, the
attributes of the root's name before its CN, the validity, the extensions, and the root's signature. -/
opaque caSerial : Nat
opaque rootAlgorithm : List Byte
opaque rootRest : List Byte
opaque caValidity : List Byte
opaque caExtensions : List Byte
opaque rootSignature : (tbs : List Byte) → List Byte

/-- The neighbour's port at the other end of the lane of a fabric port: the board's wiring (R345). -/
opaque farPort : (port : Nat) → Fin 4

end Sys2Proof.Config
end

