-- ==== Sys2Proof/Machine/Regs.lean ====
section
/-!
DEFINITION. The register map: every register of the spec's address tables with its address, its named fields
(Table n.m of each unit chapter), its reset word and the bits a host may write (RW, LIVE and SEAL) or clear (W1C).
Registers that read 0 (WO, W1S) hold nothing; their writes have effects of their own.
-/
namespace Sys2Proof.Machine

/-- A named field: its register's address, its lowest bit and its width. -/
structure Field where
  addr : Nat
  lo   : Nat
  wd   : Nat
  deriving DecidableEq, Repr

/-- One row of the register map: the address of the first register of the family, the counts and strides of its
indices (outermost first), the least first index, the reset word, the masks of host-writable, W1C, defined and
write-only bits (the rest is reserved), and whether it holds configuration that an apply sets to reset (R51 step 1). -/
structure RegRow where
  base  : Nat
  dims  : List (Nat × Nat)
  least : Nat
  reset : Nat
  rw    : Nat
  w1c   : Nat
  defd  : Nat
  wo    : Nat
  cfg   : Bool
  deriving DecidableEq, Repr

/-- Does offset `a` fall on a register of the dimensions? -/
def inDims : List (Nat × Nat) → Nat → Bool
  | [], a => a == 0
  | (c, st) :: t, a => decide (a / st < c) && inDims t (a % st)

/-- Does address `a` hold a register of this row? -/
def RegRow.hit (r : RegRow) (a : Nat) : Bool :=
  decide (r.base + r.least * ((r.dims.head?).map (·.2)).getD 0 ≤ a) && inDims r.dims (a - r.base)

namespace R
/-- Address of SYS_CAPS0. -/
def SYS_CAPS0 : Nat := 0x000010
def SYS_CAPS0_FAB_PORTS : Field := ⟨SYS_CAPS0, 16, 4⟩
def SYS_CAPS0_HRV : Field := ⟨SYS_CAPS0, 9, 1⟩
def SYS_CAPS0_MTR : Field := ⟨SYS_CAPS0, 8, 1⟩
def SYS_CAPS0_STITCHES : Field := ⟨SYS_CAPS0, 0, 8⟩
/-- Address of SYS_CAPS1. -/
def SYS_CAPS1 : Nat := 0x000014
def SYS_CAPS1_GRADE : Field := ⟨SYS_CAPS1, 30, 2⟩
def SYS_CAPS1_LANES : Field := ⟨SYS_CAPS1, 12, 12⟩
def SYS_CAPS1_PLT_POOL : Field := ⟨SYS_CAPS1, 0, 9⟩
/-- Address of PAT_CTL. -/
def PAT_CTL : Nat := 0x010000
def PAT_CTL_GUARD : Field := ⟨PAT_CTL, 16, 16⟩
def PAT_CTL_CMD : Field := ⟨PAT_CTL, 0, 4⟩
/-- Address of PAT_STAT. -/
def PAT_STAT : Nat := 0x010004
def PAT_STAT_BUSY : Field := ⟨PAT_STAT, 31, 1⟩
def PAT_STAT_APPLYING : Field := ⟨PAT_STAT, 30, 1⟩
def PAT_STAT_LOADED : Field := ⟨PAT_STAT, 29, 1⟩
def PAT_STAT_STAGED : Field := ⟨PAT_STAT, 28, 1⟩
def PAT_STAT_FALLBACK : Field := ⟨PAT_STAT, 27, 1⟩
def PAT_STAT_SOURCE : Field := ⟨PAT_STAT, 25, 2⟩
def PAT_STAT_CONFIRMED : Field := ⟨PAT_STAT, 24, 1⟩
def PAT_STAT_SEAL : Field := ⟨PAT_STAT, 22, 2⟩
def PAT_STAT_ACTIVE : Field := ⟨PAT_STAT, 21, 1⟩
def PAT_STAT_DONE : Field := ⟨PAT_STAT, 20, 1⟩
def PAT_STAT_CMD_ERR : Field := ⟨PAT_STAT, 8, 8⟩
/-- Address of PAT_ERR. -/
def PAT_ERR : Nat := 0x010008
def PAT_ERR_OFFSET : Field := ⟨PAT_ERR, 8, 20⟩
def PAT_ERR_CODE : Field := ⟨PAT_ERR, 0, 8⟩
/-- Address of PAT_STREAM. -/
def PAT_STREAM : Nat := 0x01000C
def PAT_STREAM_DATA : Field := ⟨PAT_STREAM, 0, 32⟩
/-- Address of PAT_LEN. -/
def PAT_LEN : Nat := 0x010010
def PAT_LEN_LENGTH : Field := ⟨PAT_LEN, 0, 21⟩
/-- Address of PAT_SLOT. -/
def PAT_SLOT (n : Nat) : Nat := 0x010014 + n * 0x4
def PAT_SLOT_VALID (n : Nat) : Field := ⟨PAT_SLOT n, 31, 1⟩
def PAT_SLOT_LEN (n : Nat) : Field := ⟨PAT_SLOT n, 0, 21⟩
/-- Address of PAT_DIGEST. -/
def PAT_DIGEST (n : Nat) : Nat := 0x010020 + n * 0x4
def PAT_DIGEST_D (n : Nat) : Field := ⟨PAT_DIGEST n, 0, 32⟩
/-- Address of PAT_SEAL. -/
def PAT_SEAL : Nat := 0x010040
def PAT_SEAL_MTR_VER : Field := ⟨PAT_SEAL, 0, 16⟩
/-- Address of PAT_SEALCRC. -/
def PAT_SEALCRC : Nat := 0x010044
def PAT_SEALCRC_CRC : Field := ⟨PAT_SEALCRC, 0, 32⟩
/-- Address of PAT_SEALCNT. -/
def PAT_SEALCNT : Nat := 0x010048
def PAT_SEALCNT_CNT : Field := ⟨PAT_SEALCNT, 0, 32⟩
/-- Address of PAT_IMGID. -/
def PAT_IMGID : Nat := 0x01004C
def PAT_IMGID_ID : Field := ⟨PAT_IMGID, 0, 32⟩
/-- Address of PAT_IMGVER. -/
def PAT_IMGVER : Nat := 0x010050
def PAT_IMGVER_VER : Field := ⟨PAT_IMGVER, 0, 32⟩
/-- Address of SEAM_CHK. -/
def SEAM_CHK : Nat := 0x020000
def SEAM_CHK_CODE : Field := ⟨SEAM_CHK, 24, 8⟩
def SEAM_CHK_SEAM : Field := ⟨SEAM_CHK, 16, 6⟩
def SEAM_CHK_SLOT : Field := ⟨SEAM_CHK, 12, 4⟩
def SEAM_CHK_STITCH : Field := ⟨SEAM_CHK, 0, 7⟩
/-- Address of SEAM_ROOTS. -/
def SEAM_ROOTS (n : Nat) : Nat := 0x020004 + n * 0x4
def SEAM_ROOTS_MAP (n : Nat) : Field := ⟨SEAM_ROOTS n, 0, 32⟩
/-- Address of SEAM_COUNT. -/
def SEAM_COUNT : Nat := 0x02000C
def SEAM_COUNT_SEAMS : Field := ⟨SEAM_COUNT, 16, 6⟩
def SEAM_COUNT_CLAIMED : Field := ⟨SEAM_COUNT, 0, 7⟩
/-- Address of SEAM_DESC. -/
def SEAM_DESC (n : Nat) : Nat := 0x020000 + n * 0x40
def SEAM_DESC_TYPE (n : Nat) : Field := ⟨SEAM_DESC n, 29, 3⟩
def SEAM_DESC_REMOTE (n : Nat) : Field := ⟨SEAM_DESC n, 28, 1⟩
def SEAM_DESC_PARENT (n : Nat) : Field := ⟨SEAM_DESC n, 22, 6⟩
def SEAM_DESC_NCHILD (n : Nat) : Field := ⟨SEAM_DESC n, 17, 5⟩
def SEAM_DESC_HOLDPT (n : Nat) : Field := ⟨SEAM_DESC n, 16, 1⟩
def SEAM_DESC_DEPTH (n : Nat) : Field := ⟨SEAM_DESC n, 8, 8⟩
def SEAM_DESC_NSTITCH (n : Nat) : Field := ⟨SEAM_DESC n, 0, 7⟩
/-- Address of SEAM_LINK. -/
def SEAM_LINK (n : Nat) : Nat := 0x020004 + n * 0x40
def SEAM_LINK_ROLE (n : Nat) : Field := ⟨SEAM_LINK n, 24, 6⟩
def SEAM_LINK_RSEAM (n : Nat) : Field := ⟨SEAM_LINK n, 16, 6⟩
/-- Address of SEAM_ANG. -/
def SEAM_ANG (n : Nat) (k : Nat) : Nat := 0x020008 + n * 0x40 + k * 0x4
def SEAM_ANG_ANG_HI (n : Nat) (k : Nat) : Field := ⟨SEAM_ANG n k, 16, 16⟩
def SEAM_ANG_ANG_LO (n : Nat) (k : Nat) : Field := ⟨SEAM_ANG n k, 0, 16⟩
/-- Address of SEAM_CHILD. -/
def SEAM_CHILD (n : Nat) (k : Nat) : Nat := 0x020010 + n * 0x40 + k * 0x4
def SEAM_CHILD_SLOT3 (n : Nat) (k : Nat) : Field := ⟨SEAM_CHILD n k, 24, 8⟩
def SEAM_CHILD_SLOT2 (n : Nat) (k : Nat) : Field := ⟨SEAM_CHILD n k, 16, 8⟩
def SEAM_CHILD_SLOT1 (n : Nat) (k : Nat) : Field := ⟨SEAM_CHILD n k, 8, 8⟩
def SEAM_CHILD_SLOT0 (n : Nat) (k : Nat) : Field := ⟨SEAM_CHILD n k, 0, 8⟩
/-- Address of SEAM_CTL. -/
def SEAM_CTL (n : Nat) : Nat := 0x020020 + n * 0x40
def SEAM_CTL_EN (n : Nat) : Field := ⟨SEAM_CTL n, 0, 1⟩
/-- Address of SEAM_REF. -/
def SEAM_REF (n : Nat) : Nat := 0x020024 + n * 0x40
def SEAM_REF_ROOT (n : Nat) : Field := ⟨SEAM_REF n, 24, 1⟩
def SEAM_REF_SRC_CTX (n : Nat) : Field := ⟨SEAM_REF n, 16, 6⟩
def SEAM_REF_REF (n : Nat) : Field := ⟨SEAM_REF n, 0, 16⟩
/-- Address of SEAM_OFS. -/
def SEAM_OFS (n : Nat) : Nat := 0x020028 + n * 0x40
def SEAM_OFS_SRC_CTX (n : Nat) : Field := ⟨SEAM_OFS n, 16, 6⟩
def SEAM_OFS_OFS (n : Nat) : Field := ⟨SEAM_OFS n, 0, 16⟩
/-- Address of SEAM_STATE. -/
def SEAM_STATE (n : Nat) : Nat := 0x02002C + n * 0x40
def SEAM_STATE_EN_EFF (n : Nat) : Field := ⟨SEAM_STATE n, 31, 1⟩
def SEAM_STATE_HELD (n : Nat) : Field := ⟨SEAM_STATE n, 30, 1⟩
def SEAM_STATE_REWOVE (n : Nat) : Field := ⟨SEAM_STATE n, 29, 1⟩
def SEAM_STATE_SAT (n : Nat) : Field := ⟨SEAM_STATE n, 28, 1⟩
def SEAM_STATE_HEALTH (n : Nat) : Field := ⟨SEAM_STATE n, 26, 2⟩
def SEAM_STATE_LINKSTALE (n : Nat) : Field := ⟨SEAM_STATE n, 25, 1⟩
def SEAM_STATE_PERIOD (n : Nat) : Field := ⟨SEAM_STATE n, 16, 8⟩
def SEAM_STATE_OUT (n : Nat) : Field := ⟨SEAM_STATE n, 0, 16⟩
/-- Address of SEAM_CAP. -/
def SEAM_CAP (n : Nat) : Nat := 0x020030 + n * 0x40
def SEAM_CAP_LEVELS_NOM (n : Nat) : Field := ⟨SEAM_CAP n, 27, 5⟩
def SEAM_CAP_LEVELS_AVL (n : Nat) : Field := ⟨SEAM_CAP n, 22, 5⟩
def SEAM_CAP_INS (n : Nat) : Field := ⟨SEAM_CAP n, 17, 5⟩
def SEAM_CAP_FRAC (n : Nat) : Field := ⟨SEAM_CAP n, 16, 1⟩
def SEAM_CAP_CAP (n : Nat) : Field := ⟨SEAM_CAP n, 0, 16⟩
/-- Address of STI_CFG. -/
def STI_CFG (n : Nat) : Nat := 0x030000 + n * 0x80
def STI_CFG_RMODE (n : Nat) : Field := ⟨STI_CFG n, 30, 2⟩
def STI_CFG_COVCLAMP (n : Nat) : Field := ⟨STI_CFG n, 29, 1⟩
def STI_CFG_BYPTOP (n : Nat) : Field := ⟨STI_CFG n, 28, 1⟩
def STI_CFG_BYP_LOW (n : Nat) : Field := ⟨STI_CFG n, 16, 8⟩
/-- Address of STI_GATE. -/
def STI_GATE (n : Nat) : Nat := 0x030004 + n * 0x80
def STI_GATE_GSTH (n : Nat) : Field := ⟨STI_GATE n, 24, 4⟩
def STI_GATE_VNEG (n : Nat) : Field := ⟨STI_GATE n, 16, 6⟩
def STI_GATE_GDV (n : Nat) : Field := ⟨STI_GATE n, 0, 7⟩
/-- Address of STI_DT. -/
def STI_DT (n : Nat) : Nat := 0x030008 + n * 0x80
def STI_DT_DT (n : Nat) : Field := ⟨STI_DT n, 0, 8⟩
/-- Address of STI_BST. -/
def STI_BST (n : Nat) : Nat := 0x03000C + n * 0x80
def STI_BST_UV (n : Nat) : Field := ⟨STI_BST n, 16, 7⟩
def STI_BST_WARN (n : Nat) : Field := ⟨STI_BST n, 0, 7⟩
/-- Address of STI_DSAT. -/
def STI_DSAT (n : Nat) : Nat := 0x030010 + n * 0x80
def STI_DSAT_BLK (n : Nat) : Field := ⟨STI_DSAT n, 24, 6⟩
def STI_DSAT_LS_TH (n : Nat) : Field := ⟨STI_DSAT n, 16, 6⟩
def STI_DSAT_HS_TH (n : Nat) : Field := ⟨STI_DSAT n, 0, 6⟩
/-- Address of STI_LIMIT. -/
def STI_LIMIT (n : Nat) : Nat := 0x030014 + n * 0x80
def STI_LIMIT_COV_TH (n : Nat) : Field := ⟨STI_LIMIT n, 16, 9⟩
def STI_LIMIT_OT_TH (n : Nat) : Field := ⟨STI_LIMIT n, 0, 4⟩
/-- Address of STI_TGT. -/
def STI_TGT (n : Nat) : Nat := 0x030018 + n * 0x80
def STI_TGT_LS_OFF (n : Nat) : Field := ⟨STI_TGT n, 24, 8⟩
def STI_TGT_LS_ON (n : Nat) : Field := ⟨STI_TGT n, 16, 8⟩
def STI_TGT_HS_OFF (n : Nat) : Field := ⟨STI_TGT n, 8, 8⟩
def STI_TGT_HS_ON (n : Nat) : Field := ⟨STI_TGT n, 0, 8⟩
/-- Address of STI_SLIM. -/
def STI_SLIM (n : Nat) (k : Nat) : Nat := 0x03001C + n * 0x80 + k * 0x4
def STI_SLIM_OFF_MAX (n : Nat) (k : Nat) : Field := ⟨STI_SLIM n k, 24, 6⟩
def STI_SLIM_OFF_MIN (n : Nat) (k : Nat) : Field := ⟨STI_SLIM n k, 16, 6⟩
def STI_SLIM_ON_MAX (n : Nat) (k : Nat) : Field := ⟨STI_SLIM n k, 8, 6⟩
def STI_SLIM_ON_MIN (n : Nat) (k : Nat) : Field := ⟨STI_SLIM n k, 0, 6⟩
/-- Address of STI_ADCTL. -/
def STI_ADCTL (n : Nat) : Nat := 0x030024 + n * 0x80
def STI_ADCTL_DB (n : Nat) : Field := ⟨STI_ADCTL n, 8, 2⟩
def STI_ADCTL_FRZ (n : Nat) : Field := ⟨STI_ADCTL n, 0, 4⟩
/-- Address of STI_STR. -/
def STI_STR (n : Nat) : Nat := 0x030028 + n * 0x80
def STI_STR_LS_OFF (n : Nat) : Field := ⟨STI_STR n, 24, 6⟩
def STI_STR_LS_ON (n : Nat) : Field := ⟨STI_STR n, 16, 6⟩
def STI_STR_HS_OFF (n : Nat) : Field := ⟨STI_STR n, 8, 6⟩
def STI_STR_HS_ON (n : Nat) : Field := ⟨STI_STR n, 0, 6⟩
/-- Address of STI_TRIM. -/
def STI_TRIM (n : Nat) : Nat := 0x03002C + n * 0x80
def STI_TRIM_ADV (n : Nat) : Field := ⟨STI_TRIM n, 0, 6⟩
/-- Address of STI_CMD. -/
def STI_CMD (n : Nat) : Nat := 0x030030 + n * 0x80
def STI_CMD_GUARD (n : Nat) : Field := ⟨STI_CMD n, 16, 16⟩
def STI_CMD_CMD (n : Nat) : Field := ⟨STI_CMD n, 0, 4⟩
/-- Address of STI_STATE. -/
def STI_STATE (n : Nat) : Nat := 0x030034 + n * 0x80
def STI_STATE_STATE (n : Nat) : Field := ⟨STI_STATE n, 28, 4⟩
def STI_STATE_RETIRED (n : Nat) : Field := ⟨STI_STATE n, 27, 1⟩
def STI_STATE_HEMOFF (n : Nat) : Field := ⟨STI_STATE n, 26, 1⟩
def STI_STATE_CLAMP (n : Nat) : Field := ⟨STI_STATE n, 25, 1⟩
def STI_STATE_TOPUP (n : Nat) : Field := ⟨STI_STATE n, 24, 1⟩
def STI_STATE_BSTREQ (n : Nat) : Field := ⟨STI_STATE n, 23, 1⟩
def STI_STATE_CLAIMED (n : Nat) : Field := ⟨STI_STATE n, 22, 1⟩
def STI_STATE_OTWARN (n : Nat) : Field := ⟨STI_STATE n, 21, 1⟩
def STI_STATE_BLEED (n : Nat) : Field := ⟨STI_STATE n, 20, 1⟩
def STI_STATE_CMDERR (n : Nat) : Field := ⟨STI_STATE n, 19, 1⟩
def STI_STATE_SETOK (n : Nat) : Field := ⟨STI_STATE n, 18, 1⟩
def STI_STATE_HIZCAUSE (n : Nat) : Field := ⟨STI_STATE n, 8, 8⟩
/-- Address of STI_TEL0. -/
def STI_TEL0 (n : Nat) : Nat := 0x030038 + n * 0x80
def STI_TEL0_SEQ (n : Nat) : Field := ⟨STI_TEL0 n, 28, 4⟩
def STI_TEL0_VCELL (n : Nat) : Field := ⟨STI_TEL0 n, 16, 12⟩
def STI_TEL0_TEMP (n : Nat) : Field := ⟨STI_TEL0 n, 0, 12⟩
/-- Address of STI_TEL1. -/
def STI_TEL1 (n : Nat) : Nat := 0x03003C + n * 0x80
def STI_TEL1_VBST (n : Nat) : Field := ⟨STI_TEL1 n, 24, 7⟩
def STI_TEL1_VGD (n : Nat) : Field := ⟨STI_TEL1 n, 16, 7⟩
def STI_TEL1_VNEGM (n : Nat) : Field := ⟨STI_TEL1 n, 8, 6⟩
/-- Address of STI_EDGE. -/
def STI_EDGE (n : Nat) : Nat := 0x030040 + n * 0x80
def STI_EDGE_LS_OFF (n : Nat) : Field := ⟨STI_EDGE n, 24, 8⟩
def STI_EDGE_LS_ON (n : Nat) : Field := ⟨STI_EDGE n, 16, 8⟩
def STI_EDGE_HS_OFF (n : Nat) : Field := ⟨STI_EDGE n, 8, 8⟩
def STI_EDGE_HS_ON (n : Nat) : Field := ⟨STI_EDGE n, 0, 8⟩
/-- Address of STI_EDGECNT. -/
def STI_EDGECNT (n : Nat) : Nat := 0x030044 + n * 0x80
def STI_EDGECNT_INCOMP (n : Nat) : Field := ⟨STI_EDGECNT n, 16, 16⟩
def STI_EDGECNT_ADAPT (n : Nat) : Field := ⟨STI_EDGECNT n, 0, 16⟩
/-- Address of STI_FCAUSE. -/
def STI_FCAUSE (n : Nat) : Nat := 0x030048 + n * 0x80
def STI_FCAUSE_MAP (n : Nat) : Field := ⟨STI_FCAUSE n, 0, 17⟩
/-- Address of STI_LNK. -/
def STI_LNK (n : Nat) : Nat := 0x03004C + n * 0x80
def STI_LNK_DN_ERR (n : Nat) : Field := ⟨STI_LNK n, 24, 8⟩
def STI_LNK_UP_ERR (n : Nat) : Field := ⟨STI_LNK n, 16, 8⟩
def STI_LNK_RESEND (n : Nat) : Field := ⟨STI_LNK n, 8, 8⟩
def STI_LNK_TRAIN (n : Nat) : Field := ⟨STI_LNK n, 0, 8⟩
/-- Address of STI_RET. -/
def STI_RET (n : Nat) : Nat := 0x030050 + n * 0x80
def STI_RET_RETIRED (n : Nat) : Field := ⟨STI_RET n, 31, 1⟩
def STI_RET_MODE (n : Nat) : Field := ⟨STI_RET n, 30, 1⟩
def STI_RET_CAUSE (n : Nat) : Field := ⟨STI_RET n, 16, 8⟩
def STI_RET_LSEQ (n : Nat) : Field := ⟨STI_RET n, 0, 16⟩
/-- Address of STI_RETTIME. -/
def STI_RETTIME (n : Nat) : Nat := 0x030054 + n * 0x80
def STI_RETTIME_SEC (n : Nat) : Field := ⟨STI_RETTIME n, 0, 32⟩
/-- Address of STI_RETMAP. -/
def STI_RETMAP (n : Nat) : Nat := 0x03F000 + n * 0x4
def STI_RETMAP_MAP (n : Nat) : Field := ⟨STI_RETMAP n, 0, 32⟩
/-- Address of STI_LEDGER. -/
def STI_LEDGER : Nat := 0x03F00C
def STI_LEDGER_MIRROR : Field := ⟨STI_LEDGER, 31, 1⟩
def STI_LEDGER_CMDERR : Field := ⟨STI_LEDGER, 30, 1⟩
def STI_LEDGER_COUNT : Field := ⟨STI_LEDGER, 16, 7⟩
def STI_LEDGER_WSEQ : Field := ⟨STI_LEDGER, 0, 16⟩
/-- Address of STI_HIZMAP. -/
def STI_HIZMAP (n : Nat) : Nat := 0x03F010 + n * 0x4
def STI_HIZMAP_MAP (n : Nat) : Field := ⟨STI_HIZMAP n, 0, 32⟩
/-- Address of STI_UCMD. -/
def STI_UCMD : Nat := 0x03F020
def STI_UCMD_GUARD : Field := ⟨STI_UCMD, 16, 16⟩
def STI_UCMD_CMD : Field := ⟨STI_UCMD, 0, 4⟩
/-- Address of MOD_SYNCO. -/
def MOD_SYNCO : Nat := 0x040000
def MOD_SYNCO_SEAM : Field := ⟨MOD_SYNCO, 16, 6⟩
/-- Address of MOD_STAT. -/
def MOD_STAT : Nat := 0x040004
def MOD_STAT_EDGE_LOCK : Field := ⟨MOD_STAT, 31, 1⟩
def MOD_STAT_SYNCIN_SEEN : Field := ⟨MOD_STAT, 30, 1⟩
def MOD_STAT_PERERR : Field := ⟨MOD_STAT, 29, 1⟩
def MOD_STAT_PHERR : Field := ⟨MOD_STAT, 28, 1⟩
/-- Address of MOD_RWV. -/
def MOD_RWV : Nat := 0x040008
def MOD_RWV_LAST : Field := ⟨MOD_RWV, 16, 6⟩
def MOD_RWV_COUNT : Field := ⟨MOD_RWV, 0, 16⟩
/-- Address of MOD_CAR. -/
def MOD_CAR (n : Nat) : Nat := 0x041000 + n * 0x20
def MOD_CAR_SHAPE (n : Nat) : Field := ⟨MOD_CAR n, 31, 1⟩
def MOD_CAR_SYNC (n : Nat) : Field := ⟨MOD_CAR n, 29, 2⟩
def MOD_CAR_PER (n : Nat) : Field := ⟨MOD_CAR n, 0, 23⟩
/-- Address of MOD_PH. -/
def MOD_PH (n : Nat) : Nat := 0x041004 + n * 0x20
def MOD_PH_SRC_CTX (n : Nat) : Field := ⟨MOD_PH n, 16, 6⟩
def MOD_PH_PHASE (n : Nat) : Field := ⟨MOD_PH n, 0, 16⟩
/-- Address of MOD_INST. -/
def MOD_INST (n : Nat) : Nat := 0x041008 + n * 0x20
def MOD_INST_UPD (n : Nat) : Field := ⟨MOD_INST n, 16, 16⟩
def MOD_INST_SMP (n : Nat) : Field := ⟨MOD_INST n, 0, 16⟩
/-- Address of MOD_STK. -/
def MOD_STK (n : Nat) : Nat := 0x04100C + n * 0x20
def MOD_STK_SWAPMAX (n : Nat) : Field := ⟨MOD_STK n, 28, 4⟩
def MOD_STK_SWAPHYS (n : Nat) : Field := ⟨MOD_STK n, 20, 8⟩
def MOD_STK_IPOL (n : Nat) : Field := ⟨MOD_STK n, 17, 1⟩
def MOD_STK_ISRC (n : Nat) : Field := ⟨MOD_STK n, 8, 9⟩
def MOD_STK_BALTH (n : Nat) : Field := ⟨MOD_STK n, 0, 8⟩
/-- Address of MOD_OPT. -/
def MOD_OPT (n : Nat) : Nat := 0x041010 + n * 0x20
def MOD_OPT_MINPW (n : Nat) : Field := ⟨MOD_OPT n, 24, 8⟩
def MOD_OPT_SMPDIV (n : Nat) : Field := ⟨MOD_OPT n, 20, 4⟩
def MOD_OPT_SLEW (n : Nat) : Field := ⟨MOD_OPT n, 12, 8⟩
def MOD_OPT_BALN (n : Nat) : Field := ⟨MOD_OPT n, 0, 8⟩
/-- Address of MOD_REF. -/
def MOD_REF (n : Nat) : Nat := 0x041014 + n * 0x20
def MOD_REF_REFPH (n : Nat) : Field := ⟨MOD_REF n, 16, 16⟩
def MOD_REF_IDB (n : Nat) : Field := ⟨MOD_REF n, 0, 16⟩
/-- Address of MOD_SST. -/
def MOD_SST (n : Nat) : Nat := 0x041018 + n * 0x20
def MOD_SST_SWAPS (n : Nat) : Field := ⟨MOD_SST n, 28, 4⟩
def MOD_SST_DIR (n : Nat) : Field := ⟨MOD_SST n, 27, 1⟩
def MOD_SST_DEAD (n : Nat) : Field := ⟨MOD_SST n, 26, 1⟩
def MOD_SST_SHORT (n : Nat) : Field := ⟨MOD_SST n, 25, 1⟩
def MOD_SST_STALE (n : Nat) : Field := ⟨MOD_SST n, 24, 1⟩
def MOD_SST_SYNCOK (n : Nat) : Field := ⟨MOD_SST n, 23, 1⟩
def MOD_SST_SLEWING (n : Nat) : Field := ⟨MOD_SST n, 22, 1⟩
def MOD_SST_BAL (n : Nat) : Field := ⟨MOD_SST n, 21, 1⟩
def MOD_SST_SPREAD (n : Nat) : Field := ⟨MOD_SST n, 0, 12⟩
/-- Address of MOD_CNT. -/
def MOD_CNT (n : Nat) : Nat := 0x04101C + n * 0x20
def MOD_CNT_SUPPR (n : Nat) : Field := ⟨MOD_CNT n, 24, 8⟩
def MOD_CNT_REFRESH (n : Nat) : Field := ⟨MOD_CNT n, 16, 8⟩
def MOD_CNT_STALECNT (n : Nat) : Field := ⟨MOD_CNT n, 8, 8⟩
def MOD_CNT_LATEVAL (n : Nat) : Field := ⟨MOD_CNT n, 0, 8⟩
/-- Address of CTX_LOAD. -/
def CTX_LOAD : Nat := 0x050000
def CTX_LOAD_UTIL : Field := ⟨CTX_LOAD, 16, 10⟩
def CTX_LOAD_LOAD : Field := ⟨CTX_LOAD, 0, 10⟩
/-- Address of CTX_LATEMAP. -/
def CTX_LATEMAP (n : Nat) : Nat := 0x050004 + n * 0x4
def CTX_LATEMAP_MAP (n : Nat) : Field := ⟨CTX_LATEMAP n, 0, 32⟩
/-- Address of CTX_PARKMAP. -/
def CTX_PARKMAP (n : Nat) : Nat := 0x05000C + n * 0x4
def CTX_PARKMAP_MAP (n : Nat) : Field := ⟨CTX_PARKMAP n, 0, 32⟩
/-- Address of CTX_FBMAP. -/
def CTX_FBMAP (n : Nat) : Nat := 0x050014 + n * 0x4
def CTX_FBMAP_MAP (n : Nat) : Field := ⟨CTX_FBMAP n, 0, 32⟩
/-- Address of CTX_UST. -/
def CTX_UST : Nat := 0x05001C
def CTX_UST_CMDERR : Field := ⟨CTX_UST, 0, 1⟩
/-- Address of CTX_CFG. -/
def CTX_CFG (n : Nat) : Nat := 0x050000 + n * 0x100
def CTX_CFG_TRIG (n : Nat) : Field := ⟨CTX_CFG n, 26, 6⟩
def CTX_CFG_ALWAYS (n : Nat) : Field := ⟨CTX_CFG n, 25, 1⟩
def CTX_CFG_STG (n : Nat) : Field := ⟨CTX_CFG n, 16, 8⟩
def CTX_CFG_SPSRC (n : Nat) : Field := ⟨CTX_CFG n, 6, 6⟩
def CTX_CFG_COST (n : Nat) : Field := ⟨CTX_CFG n, 0, 6⟩
/-- Address of CTX_SRC. -/
def CTX_SRC (n : Nat) (k : Nat) : Nat := 0x050004 + n * 0x100 + k * 0x4
def CTX_SRC_KIND (n : Nat) (k : Nat) : Field := ⟨CTX_SRC n k, 28, 4⟩
def CTX_SRC_ASH (n : Nat) (k : Nat) : Field := ⟨CTX_SRC n k, 24, 4⟩
def CTX_SRC_STALEEN (n : Nat) (k : Nat) : Field := ⟨CTX_SRC n k, 23, 1⟩
def CTX_SRC_ORNGEN (n : Nat) (k : Nat) : Field := ⟨CTX_SRC n k, 22, 1⟩
def CTX_SRC_INDEX (n : Nat) (k : Nat) : Field := ⟨CTX_SRC n k, 0, 9⟩
/-- Address of CTX_ROUTE. -/
def CTX_ROUTE (n : Nat) : Nat := 0x05001C + n * 0x100
def CTX_ROUTE_DEST (n : Nat) : Field := ⟨CTX_ROUTE n, 28, 4⟩
def CTX_ROUTE_NUM (n : Nat) : Field := ⟨CTX_ROUTE n, 16, 6⟩
/-- Address of CTX_FRZ. -/
def CTX_FRZ (n : Nat) : Nat := 0x050020 + n * 0x100
def CTX_FRZ_FSRC (n : Nat) : Field := ⟨CTX_FRZ n, 30, 2⟩
def CTX_FRZ_FRZEN (n : Nat) : Field := ⟨CTX_FRZ n, 29, 1⟩
def CTX_FRZ_PARKONFB (n : Nat) : Field := ⟨CTX_FRZ n, 28, 1⟩
def CTX_FRZ_FRZN (n : Nat) : Field := ⟨CTX_FRZ n, 16, 12⟩
def CTX_FRZ_TOL (n : Nat) : Field := ⟨CTX_FRZ n, 8, 8⟩
def CTX_FRZ_ACT (n : Nat) : Field := ⟨CTX_FRZ n, 0, 8⟩
/-- Address of CTX_LIM0. -/
def CTX_LIM0 (n : Nat) : Nat := 0x050024 + n * 0x100
def CTX_LIM0_HI (n : Nat) : Field := ⟨CTX_LIM0 n, 16, 16⟩
def CTX_LIM0_LO (n : Nat) : Field := ⟨CTX_LIM0 n, 0, 16⟩
/-- Address of CTX_LIM1. -/
def CTX_LIM1 (n : Nat) : Nat := 0x050028 + n * 0x100
def CTX_LIM1_SATN (n : Nat) : Field := ⟨CTX_LIM1 n, 24, 8⟩
def CTX_LIM1_RL (n : Nat) : Field := ⟨CTX_LIM1 n, 0, 16⟩
/-- Address of CTX_ILIM. -/
def CTX_ILIM (n : Nat) : Nat := 0x05002C + n * 0x100
def CTX_ILIM_IHI (n : Nat) : Field := ⟨CTX_ILIM n, 16, 16⟩
def CTX_ILIM_ILO (n : Nat) : Field := ⟨CTX_ILIM n, 0, 16⟩
/-- Address of CTX_RAMP. -/
def CTX_RAMP (n : Nat) : Nat := 0x050030 + n * 0x100
def CTX_RAMP_RATE (n : Nat) : Field := ⟨CTX_RAMP n, 0, 16⟩
/-- Address of CTX_SP. -/
def CTX_SP (n : Nat) : Nat := 0x050034 + n * 0x100
def CTX_SP_SP (n : Nat) : Field := ⟨CTX_SP n, 0, 16⟩
/-- Address of CTX_AUX. -/
def CTX_AUX (n : Nat) : Nat := 0x050038 + n * 0x100
def CTX_AUX_AUX (n : Nat) : Field := ⟨CTX_AUX n, 0, 16⟩
/-- Address of CTX_CTL. -/
def CTX_CTL (n : Nat) : Nat := 0x05003C + n * 0x100
def CTX_CTL_RESET (n : Nat) : Field := ⟨CTX_CTL n, 1, 1⟩
def CTX_CTL_PARK (n : Nat) : Field := ⟨CTX_CTL n, 0, 1⟩
/-- Address of CTX_COEF. -/
def CTX_COEF (n : Nat) (k : Nat) : Nat := 0x050040 + n * 0x100 + k * 0x4
def CTX_COEF_SH (n : Nat) (k : Nat) : Field := ⟨CTX_COEF n k, 16, 4⟩
def CTX_COEF_C (n : Nat) (k : Nat) : Field := ⟨CTX_COEF n k, 0, 16⟩
/-- Address of CTX_STAT. -/
def CTX_STAT (n : Nat) : Nat := 0x050090 + n * 0x100
def CTX_STAT_PARKED (n : Nat) : Field := ⟨CTX_STAT n, 31, 1⟩
def CTX_STAT_HPARK (n : Nat) : Field := ⟨CTX_STAT n, 30, 1⟩
def CTX_STAT_RAMPING (n : Nat) : Field := ⟨CTX_STAT n, 29, 1⟩
def CTX_STAT_LATE (n : Nat) : Field := ⟨CTX_STAT n, 28, 1⟩
def CTX_STAT_FB (n : Nat) : Field := ⟨CTX_STAT n, 27, 1⟩
def CTX_STAT_FBCAUSE (n : Nat) : Field := ⟨CTX_STAT n, 24, 3⟩
def CTX_STAT_STALE1 (n : Nat) : Field := ⟨CTX_STAT n, 23, 1⟩
def CTX_STAT_PARTRND (n : Nat) : Field := ⟨CTX_STAT n, 22, 1⟩
def CTX_STAT_IWU (n : Nat) : Field := ⟨CTX_STAT n, 21, 1⟩
def CTX_STAT_ACC (n : Nat) : Field := ⟨CTX_STAT n, 20, 1⟩
def CTX_STAT_BQ (n : Nat) : Field := ⟨CTX_STAT n, 19, 1⟩
def CTX_STAT_PI (n : Nat) : Field := ⟨CTX_STAT n, 18, 1⟩
def CTX_STAT_LIM (n : Nat) : Field := ⟨CTX_STAT n, 17, 1⟩
def CTX_STAT_OUT (n : Nat) : Field := ⟨CTX_STAT n, 16, 1⟩
def CTX_STAT_SUM (n : Nat) : Field := ⟨CTX_STAT n, 15, 1⟩
def CTX_STAT_FRZCNT (n : Nat) : Field := ⟨CTX_STAT n, 0, 12⟩
/-- Address of CTX_CNT. -/
def CTX_CNT (n : Nat) : Nat := 0x050094 + n * 0x100
def CTX_CNT_LATECNT (n : Nat) : Field := ⟨CTX_CNT n, 24, 8⟩
def CTX_CNT_STALECNT (n : Nat) : Field := ⟨CTX_CNT n, 16, 8⟩
def CTX_CNT_FBCNT (n : Nat) : Field := ⟨CTX_CNT n, 8, 8⟩
def CTX_CNT_SATCNT (n : Nat) : Field := ⟨CTX_CNT n, 0, 8⟩
/-- Address of CTX_Y. -/
def CTX_Y (n : Nat) : Nat := 0x050098 + n * 0x100
def CTX_Y_YA (n : Nat) : Field := ⟨CTX_Y n, 16, 16⟩
def CTX_Y_YC (n : Nat) : Field := ⟨CTX_Y n, 0, 16⟩
/-- Address of CTX_SIG. -/
def CTX_SIG (n : Nat) : Nat := 0x05009C + n * 0x100
def CTX_SIG_E (n : Nat) : Field := ⟨CTX_SIG n, 16, 16⟩
def CTX_SIG_R (n : Nat) : Field := ⟨CTX_SIG n, 0, 16⟩
/-- Address of CTX_INT. -/
def CTX_INT (n : Nat) : Nat := 0x0500A0 + n * 0x100
def CTX_INT_I (n : Nat) : Field := ⟨CTX_INT n, 0, 32⟩
/-- Address of CTX_LAT. -/
def CTX_LAT (n : Nat) : Nat := 0x0500A4 + n * 0x100
def CTX_LAT_LAT (n : Nat) : Field := ⟨CTX_LAT n, 0, 23⟩
/-- Address of CTX_EXC. -/
def CTX_EXC (n : Nat) : Nat := 0x0500A8 + n * 0x100
def CTX_EXC_EXC (n : Nat) : Field := ⟨CTX_EXC n, 0, 32⟩
/-- Address of PLT_USED. -/
def PLT_USED : Nat := 0x060000
def PLT_USED_CELLS : Field := ⟨PLT_USED, 0, 18⟩
/-- Address of PLT_MEM. -/
def PLT_MEM (n : Nat) : Nat := 0x060000 + n * 0x20
def PLT_MEM_LEN (n : Nat) : Field := ⟨PLT_MEM n, 19, 13⟩
def PLT_MEM_BASE (n : Nat) : Field := ⟨PLT_MEM n, 0, 18⟩
/-- Address of PLT_CFG. -/
def PLT_CFG (n : Nat) : Nat := 0x060004 + n * 0x20
def PLT_CFG_PSRC (n : Nat) : Field := ⟨PLT_CFG n, 31, 1⟩
def PLT_CFG_UNLK (n : Nat) : Field := ⟨PLT_CFG n, 30, 1⟩
def PLT_CFG_PIDX (n : Nat) : Field := ⟨PLT_CFG n, 24, 6⟩
def PLT_CFG_MULT (n : Nat) : Field := ⟨PLT_CFG n, 20, 4⟩
def PLT_CFG_RELK (n : Nat) : Field := ⟨PLT_CFG n, 16, 4⟩
def PLT_CFG_DIV (n : Nat) : Field := ⟨PLT_CFG n, 0, 12⟩
/-- Address of PLT_GAIN. -/
def PLT_GAIN (n : Nat) : Nat := 0x060008 + n * 0x20
def PLT_GAIN_KR (n : Nat) : Field := ⟨PLT_GAIN n, 16, 16⟩
def PLT_GAIN_LEAK (n : Nat) : Field := ⟨PLT_GAIN n, 0, 8⟩
/-- Address of PLT_QF. -/
def PLT_QF (n : Nat) : Nat := 0x06000C + n * 0x20
def PLT_QF_QC (n : Nat) : Field := ⟨PLT_QF n, 16, 16⟩
def PLT_QF_QS (n : Nat) : Field := ⟨PLT_QF n, 0, 16⟩
/-- Address of PLT_CTL. -/
def PLT_CTL (n : Nat) : Nat := 0x060010 + n * 0x20
def PLT_CTL_LEAD (n : Nat) : Field := ⟨PLT_CTL n, 8, 6⟩
def PLT_CTL_RSTMEM (n : Nat) : Field := ⟨PLT_CTL n, 2, 1⟩
def PLT_CTL_OUTEN (n : Nat) : Field := ⟨PLT_CTL n, 1, 1⟩
def PLT_CTL_LEARN (n : Nat) : Field := ⟨PLT_CTL n, 0, 1⟩
/-- Address of PLT_STAT. -/
def PLT_STAT (n : Nat) : Nat := 0x060014 + n * 0x20
def PLT_STAT_LEARNING (n : Nat) : Field := ⟨PLT_STAT n, 31, 1⟩
def PLT_STAT_ULK (n : Nat) : Field := ⟨PLT_STAT n, 30, 1⟩
def PLT_STAT_CLEARING (n : Nat) : Field := ⟨PLT_STAT n, 29, 1⟩
def PLT_STAT_WERR (n : Nat) : Field := ⟨PLT_STAT n, 28, 1⟩
def PLT_STAT_SAT (n : Nat) : Field := ⟨PLT_STAT n, 27, 1⟩
def PLT_STAT_RELKW (n : Nat) : Field := ⟨PLT_STAT n, 26, 1⟩
def PLT_STAT_NPER (n : Nat) : Field := ⟨PLT_STAT n, 0, 17⟩
/-- Address of PLT_POS. -/
def PLT_POS (n : Nat) : Nat := 0x060018 + n * 0x20
def PLT_POS_TH (n : Nat) : Field := ⟨PLT_POS n, 16, 16⟩
def PLT_POS_CELL (n : Nat) : Field := ⟨PLT_POS n, 0, 13⟩
/-- Address of PLT_CNT. -/
def PLT_CNT (n : Nat) : Nat := 0x06001C + n * 0x20
def PLT_CNT_PCNT (n : Nat) : Field := ⟨PLT_CNT n, 16, 16⟩
def PLT_CNT_ULKCNT (n : Nat) : Field := ⟨PLT_CNT n, 8, 8⟩
def PLT_CNT_SKIPCNT (n : Nat) : Field := ⟨PLT_CNT n, 0, 8⟩
/-- Address of ACQ_STAT. -/
def ACQ_STAT : Nat := 0x070000
def ACQ_STAT_CVBUSY : Field := ⟨ACQ_STAT, 16, 4⟩
def ACQ_STAT_SQRUN : Field := ⟨ACQ_STAT, 0, 16⟩
/-- Address of ACQ_IRQ. -/
def ACQ_IRQ : Nat := 0x070004
def ACQ_IRQ_UGDONE : Field := ⟨ACQ_IRQ, 16, 8⟩
def ACQ_IRQ_DONE : Field := ⟨ACQ_IRQ, 0, 16⟩
/-- Address of ACQ_IEN. -/
def ACQ_IEN : Nat := 0x070008
def ACQ_IEN_UGDONE : Field := ⟨ACQ_IEN, 16, 8⟩
def ACQ_IEN_DONE : Field := ⟨ACQ_IEN, 0, 16⟩
/-- Address of ACQ_OVRMAP. -/
def ACQ_OVRMAP : Nat := 0x07000C
def ACQ_OVRMAP_MAP : Field := ⟨ACQ_OVRMAP, 0, 16⟩
/-- Address of ACQ_CVSTAT. -/
def ACQ_CVSTAT (n : Nat) : Nat := 0x070010 + n * 0x4
def ACQ_CVSTAT_UTIL (n : Nat) : Field := ⟨ACQ_CVSTAT n, 22, 10⟩
def ACQ_CVSTAT_PRECNT (n : Nat) : Field := ⟨ACQ_CVSTAT n, 8, 8⟩
def ACQ_CVSTAT_GUARDCNT (n : Nat) : Field := ⟨ACQ_CVSTAT n, 0, 8⟩
/-- Address of ACQ_SQCFG. -/
def ACQ_SQCFG (n : Nat) : Nat := 0x070100 + n * 0x10
def ACQ_SQCFG_TSRC (n : Nat) : Field := ⟨ACQ_SQCFG n, 30, 2⟩
def ACQ_SQCFG_TNUM (n : Nat) : Field := ⟨ACQ_SQCFG n, 24, 6⟩
def ACQ_SQCFG_POLICY (n : Nat) : Field := ⟨ACQ_SQCFG n, 22, 2⟩
def ACQ_SQCFG_STALN (n : Nat) : Field := ⟨ACQ_SQCFG n, 16, 4⟩
def ACQ_SQCFG_NENT (n : Nat) : Field := ⟨ACQ_SQCFG n, 0, 6⟩
/-- Address of ACQ_SQCTL. -/
def ACQ_SQCTL (n : Nat) : Nat := 0x070104 + n * 0x10
def ACQ_SQCTL_TRIG (n : Nat) : Field := ⟨ACQ_SQCTL n, 1, 1⟩
def ACQ_SQCTL_EN (n : Nat) : Field := ⟨ACQ_SQCTL n, 0, 1⟩
/-- Address of ACQ_SQSTAT. -/
def ACQ_SQSTAT (n : Nat) : Nat := 0x070108 + n * 0x10
def ACQ_SQSTAT_RUN (n : Nat) : Field := ⟨ACQ_SQSTAT n, 31, 1⟩
def ACQ_SQSTAT_PEND (n : Nat) : Field := ⟨ACQ_SQSTAT n, 30, 1⟩
def ACQ_SQSTAT_CMPL (n : Nat) : Field := ⟨ACQ_SQSTAT n, 29, 1⟩
def ACQ_SQSTAT_CTAG (n : Nat) : Field := ⟨ACQ_SQSTAT n, 24, 5⟩
def ACQ_SQSTAT_NTAG (n : Nat) : Field := ⟨ACQ_SQSTAT n, 16, 5⟩
def ACQ_SQSTAT_STALE (n : Nat) : Field := ⟨ACQ_SQSTAT n, 15, 1⟩
def ACQ_SQSTAT_LEFT (n : Nat) : Field := ⟨ACQ_SQSTAT n, 0, 6⟩
/-- Address of ACQ_SQCNT. -/
def ACQ_SQCNT (n : Nat) : Nat := 0x07010C + n * 0x10
def ACQ_SQCNT_OVR (n : Nat) : Field := ⟨ACQ_SQCNT n, 24, 8⟩
def ACQ_SQCNT_RST (n : Nat) : Field := ⟨ACQ_SQCNT n, 16, 8⟩
def ACQ_SQCNT_PRE (n : Nat) : Field := ⟨ACQ_SQCNT n, 8, 8⟩
def ACQ_SQCNT_ORNGCNT (n : Nat) : Field := ⟨ACQ_SQCNT n, 0, 8⟩
/-- Address of ACQ_UGCFG. -/
def ACQ_UGCFG (n : Nat) : Nat := 0x070200 + n * 0x10
def ACQ_UGCFG_TSRC (n : Nat) : Field := ⟨ACQ_UGCFG n, 30, 2⟩
def ACQ_UGCFG_TNUM (n : Nat) : Field := ⟨ACQ_UGCFG n, 24, 6⟩
def ACQ_UGCFG_CONV (n : Nat) : Field := ⟨ACQ_UGCFG n, 16, 2⟩
def ACQ_UGCFG_AIN (n : Nat) : Field := ⟨ACQ_UGCFG n, 8, 6⟩
/-- Address of ACQ_UGCTL. -/
def ACQ_UGCTL (n : Nat) : Nat := 0x070204 + n * 0x10
def ACQ_UGCTL_GO (n : Nat) : Field := ⟨ACQ_UGCTL n, 1, 1⟩
def ACQ_UGCTL_EN (n : Nat) : Field := ⟨ACQ_UGCTL n, 0, 1⟩
/-- Address of ACQ_URES. -/
def ACQ_URES (n : Nat) : Nat := 0x070208 + n * 0x10
def ACQ_URES_NEW (n : Nat) : Field := ⟨ACQ_URES n, 31, 1⟩
def ACQ_URES_ORNG (n : Nat) : Field := ⟨ACQ_URES n, 30, 1⟩
def ACQ_URES_PART (n : Nat) : Field := ⟨ACQ_URES n, 29, 1⟩
def ACQ_URES_TAG (n : Nat) : Field := ⟨ACQ_URES n, 24, 5⟩
def ACQ_URES_VALUE (n : Nat) : Field := ⟨ACQ_URES n, 0, 24⟩
/-- Address of ACQ_UGCNT. -/
def ACQ_UGCNT (n : Nat) : Nat := 0x07020C + n * 0x10
def ACQ_UGCNT_OVR (n : Nat) : Field := ⟨ACQ_UGCNT n, 8, 8⟩
def ACQ_UGCNT_CNT (n : Nat) : Field := ⟨ACQ_UGCNT n, 0, 8⟩
/-- Address of ACQ_ENT. -/
def ACQ_ENT (n : Nat) : Nat := 0x071000 + n * 0x4
def ACQ_ENT_CONV (n : Nat) : Field := ⟨ACQ_ENT n, 30, 2⟩
def ACQ_ENT_AIN (n : Nat) : Field := ⟨ACQ_ENT n, 24, 6⟩
def ACQ_ENT_AVG (n : Nat) : Field := ⟨ACQ_ENT n, 20, 4⟩
def ACQ_ENT_SHIFT (n : Nat) : Field := ⟨ACQ_ENT n, 16, 4⟩
def ACQ_ENT_ORNGF (n : Nat) : Field := ⟨ACQ_ENT n, 15, 1⟩
/-- Address of ACQ_RES. -/
def ACQ_RES (n : Nat) : Nat := 0x072000 + n * 0x4
def ACQ_RES_NEW (n : Nat) : Field := ⟨ACQ_RES n, 31, 1⟩
def ACQ_RES_ORNG (n : Nat) : Field := ⟨ACQ_RES n, 30, 1⟩
def ACQ_RES_PART (n : Nat) : Field := ⟨ACQ_RES n, 29, 1⟩
def ACQ_RES_TAG (n : Nat) : Field := ⟨ACQ_RES n, 24, 5⟩
def ACQ_RES_VALUE (n : Nat) : Field := ⟨ACQ_RES n, 0, 24⟩
/-- Address of WIN_LAT. -/
def WIN_LAT (n : Nat) : Nat := 0x080000 + n * 0x4
def WIN_LAT_MAP (n : Nat) : Field := ⟨WIN_LAT n, 0, 32⟩
/-- Address of WIN_UNS. -/
def WIN_UNS (n : Nat) : Nat := 0x080008 + n * 0x4
def WIN_UNS_MAP (n : Nat) : Field := ⟨WIN_UNS n, 0, 32⟩
/-- Address of WIN_CFG. -/
def WIN_CFG (n : Nat) : Nat := 0x081000 + n * 0x20
def WIN_CFG_MODE (n : Nat) : Field := ⟨WIN_CFG n, 30, 2⟩
def WIN_CFG_HYS (n : Nat) : Field := ⟨WIN_CFG n, 28, 2⟩
def WIN_CFG_PUHI (n : Nat) : Field := ⟨WIN_CFG n, 27, 1⟩
def WIN_CFG_PULO (n : Nat) : Field := ⟨WIN_CFG n, 26, 1⟩
def WIN_CFG_LATCH (n : Nat) : Field := ⟨WIN_CFG n, 25, 1⟩
def WIN_CFG_CLRSEAM (n : Nat) : Field := ⟨WIN_CFG n, 18, 6⟩
def WIN_CFG_TGT (n : Nat) : Field := ⟨WIN_CFG n, 8, 8⟩
def WIN_CFG_AIN (n : Nat) : Field := ⟨WIN_CFG n, 0, 6⟩
/-- Address of WIN_BLK. -/
def WIN_BLK (n : Nat) : Nat := 0x081004 + n * 0x20
def WIN_BLK_BLKSEAM (n : Nat) : Field := ⟨WIN_BLK n, 24, 6⟩
def WIN_BLK_BLKLEN (n : Nat) : Field := ⟨WIN_BLK n, 0, 8⟩
/-- Address of WIN_THR. -/
def WIN_THR (n : Nat) : Nat := 0x081008 + n * 0x20
def WIN_THR_HI (n : Nat) : Field := ⟨WIN_THR n, 16, 10⟩
def WIN_THR_LO (n : Nat) : Field := ⟨WIN_THR n, 0, 10⟩
/-- Address of WIN_CTL. -/
def WIN_CTL (n : Nat) : Nat := 0x08100C + n * 0x20
def WIN_CTL_EN (n : Nat) : Field := ⟨WIN_CTL n, 0, 1⟩
/-- Address of WIN_STAT. -/
def WIN_STAT (n : Nat) : Nat := 0x081010 + n * 0x20
def WIN_STAT_LATCHED (n : Nat) : Field := ⟨WIN_STAT n, 31, 1⟩
def WIN_STAT_UNSETTLED (n : Nat) : Field := ⟨WIN_STAT n, 30, 1⟩
def WIN_STAT_OUTHI (n : Nat) : Field := ⟨WIN_STAT n, 29, 1⟩
def WIN_STAT_OUTLO (n : Nat) : Field := ⟨WIN_STAT n, 28, 1⟩
def WIN_STAT_BLANKED (n : Nat) : Field := ⟨WIN_STAT n, 27, 1⟩
def WIN_STAT_CLRERR (n : Nat) : Field := ⟨WIN_STAT n, 26, 1⟩
def WIN_STAT_WERR (n : Nat) : Field := ⟨WIN_STAT n, 25, 1⟩
/-- Address of WIN_CNT. -/
def WIN_CNT (n : Nat) : Nat := 0x081014 + n * 0x20
def WIN_CNT_TRIPS (n : Nat) : Field := ⟨WIN_CNT n, 16, 16⟩
def WIN_CNT_BLKHIT (n : Nat) : Field := ⟨WIN_CNT n, 8, 8⟩
def WIN_CNT_PUSUP (n : Nat) : Field := ⟨WIN_CNT n, 0, 8⟩
/-- Address of GRD_CFG. -/
def GRD_CFG : Nat := 0x090000
def GRD_CFG_TOPO : Field := ⟨GRD_CFG, 30, 2⟩
def GRD_CFG_ROOT : Field := ⟨GRD_CFG, 24, 6⟩
def GRD_CFG_SQ : Field := ⟨GRD_CFG, 20, 4⟩
def GRD_CFG_ASH : Field := ⟨GRD_CFG, 16, 4⟩
def GRD_CFG_IEN : Field := ⟨GRD_CFG, 15, 1⟩
/-- Address of GRD_SRC0. -/
def GRD_SRC0 : Nat := 0x090004
def GRD_SRC0_VB : Field := ⟨GRD_SRC0, 16, 9⟩
def GRD_SRC0_VA : Field := ⟨GRD_SRC0, 0, 9⟩
/-- Address of GRD_SRC1. -/
def GRD_SRC1 : Nat := 0x090008
def GRD_SRC1_IA : Field := ⟨GRD_SRC1, 16, 9⟩
def GRD_SRC1_VC : Field := ⟨GRD_SRC1, 0, 9⟩
/-- Address of GRD_SRC2. -/
def GRD_SRC2 : Nat := 0x09000C
def GRD_SRC2_IC : Field := ⟨GRD_SRC2, 16, 9⟩
def GRD_SRC2_IB : Field := ⟨GRD_SRC2, 0, 9⟩
/-- Address of GRD_NOM. -/
def GRD_NOM : Nat := 0x090010
def GRD_NOM_F60 : Field := ⟨GRD_NOM, 31, 1⟩
def GRD_NOM_VNOM : Field := ⟨GRD_NOM, 0, 16⟩
/-- Address of GRD_PLL. -/
def GRD_PLL : Nat := 0x090014
def GRD_PLL_KP : Field := ⟨GRD_PLL, 24, 8⟩
def GRD_PLL_KI : Field := ⟨GRD_PLL, 16, 8⟩
def GRD_PLL_KS : Field := ⟨GRD_PLL, 0, 12⟩
/-- Address of GRD_LOCK. -/
def GRD_LOCK : Nat := 0x090018
def GRD_LOCK_LOCKTH : Field := ⟨GRD_LOCK, 24, 8⟩
def GRD_LOCK_LOCKT : Field := ⟨GRD_LOCK, 16, 8⟩
def GRD_LOCK_VMIN : Field := ⟨GRD_LOCK, 0, 10⟩
/-- Address of GRD_FMEAS. -/
def GRD_FMEAS : Nat := 0x09001C
def GRD_FMEAS_FTAU : Field := ⟨GRD_FMEAS, 24, 8⟩
def GRD_FMEAS_ROCWIN : Field := ⟨GRD_FMEAS, 16, 8⟩
/-- Address of GRD_CRVCTL. -/
def GRD_CRVCTL : Nat := 0x090020
def GRD_CRVCTL_RETDLY : Field := ⟨GRD_CRVCTL, 16, 10⟩
def GRD_CRVCTL_VHYS : Field := ⟨GRD_CRVCTL, 8, 8⟩
def GRD_CRVCTL_FHYS : Field := ⟨GRD_CRVCTL, 0, 8⟩
/-- Address of GRD_RT. -/
def GRD_RT : Nat := 0x090024
def GRD_RT_INJEN : Field := ⟨GRD_RT, 31, 1⟩
def GRD_RT_INJCHG : Field := ⟨GRD_RT, 30, 1⟩
def GRD_RT_AVGREF : Field := ⟨GRD_RT, 29, 1⟩
def GRD_RT_K : Field := ⟨GRD_RT, 16, 7⟩
def GRD_RT_DB : Field := ⟨GRD_RT, 8, 8⟩
def GRD_RT_POST : Field := ⟨GRD_RT, 0, 8⟩
/-- Address of GRD_RTREF. -/
def GRD_RTREF : Nat := 0x090028
def GRD_RTREF_VREF : Field := ⟨GRD_RTREF, 0, 13⟩
/-- Address of GRD_RTSC. -/
def GRD_RTSC : Nat := 0x09002C
def GRD_RTSC_ISC : Field := ⟨GRD_RTSC, 16, 16⟩
def GRD_RTSC_IQMAX : Field := ⟨GRD_RTSC, 0, 16⟩
/-- Address of GRD_ISL. -/
def GRD_ISL : Nat := 0x090030
def GRD_ISL_ROCEN : Field := ⟨GRD_ISL, 31, 1⟩
def GRD_ISL_VSEN : Field := ⟨GRD_ISL, 30, 1⟩
def GRD_ISL_AISEN : Field := ⟨GRD_ISL, 29, 1⟩
def GRD_ISL_FSYNC : Field := ⟨GRD_ISL, 28, 1⟩
def GRD_ISL_ROCTH : Field := ⟨GRD_ISL, 16, 8⟩
def GRD_ISL_ROCT : Field := ⟨GRD_ISL, 8, 8⟩
def GRD_ISL_VSTH : Field := ⟨GRD_ISL, 0, 8⟩
/-- Address of GRD_AIS. -/
def GRD_AIS : Nat := 0x090034
def GRD_AIS_PAMP : Field := ⟨GRD_AIS, 16, 16⟩
def GRD_AIS_PHALF : Field := ⟨GRD_AIS, 10, 6⟩
def GRD_AIS_ADN : Field := ⟨GRD_AIS, 6, 4⟩
def GRD_AIS_ADTH : Field := ⟨GRD_AIS, 0, 6⟩
/-- Address of GRD_ENTV. -/
def GRD_ENTV : Nat := 0x090038
def GRD_ENTV_VHI : Field := ⟨GRD_ENTV, 16, 13⟩
def GRD_ENTV_VLO : Field := ⟨GRD_ENTV, 0, 13⟩
/-- Address of GRD_ENTF. -/
def GRD_ENTF : Nat := 0x09003C
def GRD_ENTF_FHI : Field := ⟨GRD_ENTF, 16, 13⟩
def GRD_ENTF_FLO : Field := ⟨GRD_ENTF, 0, 13⟩
/-- Address of GRD_ENTD. -/
def GRD_ENTD : Nat := 0x090040
def GRD_ENTD_DLY : Field := ⟨GRD_ENTD, 0, 10⟩
/-- Address of GRD_FORM. -/
def GRD_FORM : Nat := 0x090044
def GRD_FORM_F0 : Field := ⟨GRD_FORM, 16, 13⟩
def GRD_FORM_V0 : Field := ⟨GRD_FORM, 0, 13⟩
/-- Address of GRD_DROOP. -/
def GRD_DROOP : Nat := 0x090048
def GRD_DROOP_KPF : Field := ⟨GRD_DROOP, 24, 8⟩
def GRD_DROOP_KQV : Field := ⟨GRD_DROOP, 16, 8⟩
def GRD_DROOP_PQTAU : Field := ⟨GRD_DROOP, 0, 8⟩
/-- Address of GRD_PQ0. -/
def GRD_PQ0 : Nat := 0x09004C
def GRD_PQ0_P0 : Field := ⟨GRD_PQ0, 16, 16⟩
def GRD_PQ0_Q0 : Field := ⟨GRD_PQ0, 0, 16⟩
/-- Address of GRD_STAT. -/
def GRD_STAT : Nat := 0x090080
def GRD_STAT_TRIPPED : Field := ⟨GRD_STAT, 31, 1⟩
def GRD_STAT_ISL : Field := ⟨GRD_STAT, 30, 1⟩
def GRD_STAT_CEASE : Field := ⟨GRD_STAT, 29, 1⟩
def GRD_STAT_HOLD : Field := ⟨GRD_STAT, 28, 1⟩
def GRD_STAT_INJ : Field := ⟨GRD_STAT, 27, 1⟩
def GRD_STAT_LOCK : Field := ⟨GRD_STAT, 26, 1⟩
def GRD_STAT_COAST : Field := ⟨GRD_STAT, 25, 1⟩
def GRD_STAT_FCLAMP : Field := ⟨GRD_STAT, 24, 1⟩
def GRD_STAT_ENTOK : Field := ⟨GRD_STAT, 23, 1⟩
def GRD_STAT_FORMING : Field := ⟨GRD_STAT, 22, 1⟩
def GRD_STAT_CLRERR : Field := ⟨GRD_STAT, 21, 1⟩
/-- Address of GRD_CAUSE. -/
def GRD_CAUSE : Nat := 0x090084
def GRD_CAUSE_TCRV : Field := ⟨GRD_CAUSE, 30, 2⟩
def GRD_CAUSE_TPOINT : Field := ⟨GRD_CAUSE, 24, 4⟩
def GRD_CAUSE_ICAUSE : Field := ⟨GRD_CAUSE, 22, 2⟩
/-- Address of GRD_F. -/
def GRD_F : Nat := 0x090088
def GRD_F_F : Field := ⟨GRD_F, 0, 17⟩
/-- Address of GRD_ROCOF. -/
def GRD_ROCOF : Nat := 0x09008C
def GRD_ROCOF_ROCOF : Field := ⟨GRD_ROCOF, 0, 16⟩
/-- Address of GRD_VS. -/
def GRD_VS : Nat := 0x090090
def GRD_VS_VSMAX : Field := ⟨GRD_VS, 16, 16⟩
def GRD_VS_VS : Field := ⟨GRD_VS, 0, 16⟩
/-- Address of GRD_VSEQ. -/
def GRD_VSEQ : Nat := 0x090094
def GRD_VSEQ_VNEG : Field := ⟨GRD_VSEQ, 16, 13⟩
def GRD_VSEQ_VPOS : Field := ⟨GRD_VSEQ, 0, 13⟩
/-- Address of GRD_VPH. -/
def GRD_VPH : Nat := 0x090098
def GRD_VPH_VHIGH : Field := ⟨GRD_VPH, 16, 13⟩
def GRD_VPH_VLOW : Field := ⟨GRD_VPH, 0, 13⟩
/-- Address of GRD_CNT. -/
def GRD_CNT : Nat := 0x09009C
def GRD_CNT_MISS : Field := ⟨GRD_CNT, 24, 8⟩
def GRD_CNT_TRIPS : Field := ⟨GRD_CNT, 16, 8⟩
def GRD_CNT_ISLS : Field := ⟨GRD_CNT, 8, 8⟩
def GRD_CNT_CEASES : Field := ⟨GRD_CNT, 0, 8⟩
/-- Address of GRD_ENTT. -/
def GRD_ENTT : Nat := 0x0900A0
def GRD_ENTT_T : Field := ⟨GRD_ENTT, 0, 10⟩
/-- Address of GRD_OUT. -/
def GRD_OUT (n : Nat) : Nat := 0x090100 + n * 0x4
def GRD_OUT_OUT (n : Nat) : Field := ⟨GRD_OUT n, 0, 16⟩
/-- Address of GRD_VCRV. -/
def GRD_VCRV (n : Nat) : Nat := 0x090200 + n * 0x4
def GRD_VCRV_W (n : Nat) : Field := ⟨GRD_VCRV n, 0, 32⟩
/-- Address of GRD_FCRV. -/
def GRD_FCRV (n : Nat) : Nat := 0x090240 + n * 0x4
def GRD_FCRV_W (n : Nat) : Field := ⟨GRD_FCRV n, 0, 32⟩
/-- Address of MTR_CTL. -/
def MTR_CTL : Nat := 0x0A0000
def MTR_CTL_ICLR : Field := ⟨MTR_CTL, 8, 4⟩
def MTR_CTL_NOW : Field := ⟨MTR_CTL, 1, 1⟩
def MTR_CTL_EN : Field := ⟨MTR_CTL, 0, 1⟩
/-- Address of MTR_STAT. -/
def MTR_STAT : Nat := 0x0A0004
def MTR_STAT_CALDIRTY : Field := ⟨MTR_STAT, 31, 1⟩
def MTR_STAT_TIMEINV : Field := ⟨MTR_STAT, 30, 1⟩
def MTR_STAT_RESTORED : Field := ⟨MTR_STAT, 29, 1⟩
def MTR_STAT_LOST : Field := ⟨MTR_STAT, 28, 1⟩
def MTR_STAT_RUN : Field := ⟨MTR_STAT, 27, 1⟩
/-- Address of MTR_RCFG. -/
def MTR_RCFG : Nat := 0x0A0008
def MTR_RCFG_INT : Field := ⟨MTR_RCFG, 0, 6⟩
/-- Address of MTR_RSTAT. -/
def MTR_RSTAT : Nat := 0x0A000C
def MTR_RSTAT_PENDING : Field := ⟨MTR_RSTAT, 24, 5⟩
def MTR_RSTAT_SKIPCNT : Field := ⟨MTR_RSTAT, 16, 8⟩
def MTR_RSTAT_NEWEST : Field := ⟨MTR_RSTAT, 0, 4⟩
/-- Address of MTR_RCNT. -/
def MTR_RCNT : Nat := 0x0A0010
def MTR_RCNT_RCNT : Field := ⟨MTR_RCNT, 0, 32⟩
/-- Address of MTR_INTC. -/
def MTR_INTC : Nat := 0x0A0014
def MTR_INTC_COUNT : Field := ⟨MTR_INTC, 8, 8⟩
def MTR_INTC_CAUSE : Field := ⟨MTR_INTC, 0, 8⟩
/-- Address of MTR_CHCFG. -/
def MTR_CHCFG (n : Nat) : Nat := 0x0A1000 + n * 0x100
def MTR_CHCFG_CHEN (n : Nat) : Field := ⟨MTR_CHCFG n, 31, 1⟩
def MTR_CHCFG_DC (n : Nat) : Field := ⟨MTR_CHCFG n, 30, 1⟩
def MTR_CHCFG_IPOL (n : Nat) : Field := ⟨MTR_CHCFG n, 29, 1⟩
def MTR_CHCFG_AINI (n : Nat) : Field := ⟨MTR_CHCFG n, 16, 6⟩
def MTR_CHCFG_AINV (n : Nat) : Field := ⟨MTR_CHCFG n, 8, 6⟩
def MTR_CHCFG_ZHYS (n : Nat) : Field := ⟨MTR_CHCFG n, 0, 8⟩
/-- Address of MTR_KV. -/
def MTR_KV (n : Nat) : Nat := 0x0A1004 + n * 0x100
def MTR_KV_K (n : Nat) : Field := ⟨MTR_KV n, 0, 32⟩
/-- Address of MTR_KI. -/
def MTR_KI (n : Nat) : Nat := 0x0A1008 + n * 0x100
def MTR_KI_K (n : Nat) : Field := ⟨MTR_KI n, 0, 32⟩
/-- Address of MTR_NL. -/
def MTR_NL (n : Nat) : Nat := 0x0A100C + n * 0x100
def MTR_NL_NLTH (n : Nat) : Field := ⟨MTR_NL n, 0, 16⟩
/-- Address of MTR_SEGB. -/
def MTR_SEGB (n : Nat) (k : Nat) : Nat := 0x0A1010 + n * 0x100 + k * 0x4
def MTR_SEGB_B (n : Nat) (k : Nat) : Field := ⟨MTR_SEGB n k, 0, 16⟩
/-- Address of MTR_SEGC. -/
def MTR_SEGC (n : Nat) (k : Nat) : Nat := 0x0A1030 + n * 0x100 + k * 0x4
def MTR_SEGC_G (n : Nat) (k : Nat) : Field := ⟨MTR_SEGC n k, 16, 16⟩
def MTR_SEGC_PH (n : Nat) (k : Nat) : Field := ⟨MTR_SEGC n k, 0, 16⟩
/-- Address of MTR_CHSTAT. -/
def MTR_CHSTAT (n : Nat) : Nat := 0x0A1050 + n * 0x100
def MTR_CHSTAT_ZCTO (n : Nat) : Field := ⟨MTR_CHSTAT n, 31, 1⟩
def MTR_CHSTAT_NOLOAD (n : Nat) : Field := ⟨MTR_CHSTAT n, 30, 1⟩
def MTR_CHSTAT_SEG (n : Nat) : Field := ⟨MTR_CHSTAT n, 27, 3⟩
def MTR_CHSTAT_QUAD (n : Nat) : Field := ⟨MTR_CHSTAT n, 25, 2⟩
/-- Address of MTR_VRMS. -/
def MTR_VRMS (n : Nat) : Nat := 0x0A1054 + n * 0x100
def MTR_VRMS_V (n : Nat) : Field := ⟨MTR_VRMS n, 0, 24⟩
/-- Address of MTR_IRMS. -/
def MTR_IRMS (n : Nat) : Nat := 0x0A1058 + n * 0x100
def MTR_IRMS_I0 (n : Nat) : Field := ⟨MTR_IRMS n, 0, 24⟩
/-- Address of MTR_PAVG. -/
def MTR_PAVG (n : Nat) : Nat := 0x0A105C + n * 0x100
def MTR_PAVG_P (n : Nat) : Field := ⟨MTR_PAVG n, 0, 32⟩
/-- Address of MTR_QAVG. -/
def MTR_QAVG (n : Nat) : Nat := 0x0A1060 + n * 0x100
def MTR_QAVG_Q (n : Nat) : Field := ⟨MTR_QAVG n, 0, 32⟩
/-- Address of MTR_WLEN. -/
def MTR_WLEN (n : Nat) : Nat := 0x0A1064 + n * 0x100
def MTR_WLEN_N (n : Nat) : Field := ⟨MTR_WLEN n, 0, 16⟩
/-- Address of MTR_CNT. -/
def MTR_CNT (n : Nat) : Nat := 0x0A1068 + n * 0x100
def MTR_CNT_ZCTOCNT (n : Nat) : Field := ⟨MTR_CNT n, 24, 8⟩
def MTR_CNT_NOLOAD (n : Nat) : Field := ⟨MTR_CNT n, 16, 8⟩
def MTR_CNT_WINDOWS (n : Nat) : Field := ⟨MTR_CNT n, 0, 16⟩
/-- Address of MTR_LONG_LO. -/
def MTR_LONG_LO (n : Nat) (k : Nat) : Nat := 0x0A1080 + n * 0x100 + k * 0x8
def MTR_LONG_LO_W (n : Nat) (k : Nat) : Field := ⟨MTR_LONG_LO n k, 0, 32⟩
/-- Address of MTR_LONG_HI. -/
def MTR_LONG_HI (n : Nat) (k : Nat) : Nat := 0x0A1084 + n * 0x100 + k * 0x8
def MTR_LONG_HI_W (n : Nat) (k : Nat) : Field := ⟨MTR_LONG_HI n k, 0, 32⟩
/-- Address of MTR_INT. -/
def MTR_INT (n : Nat) (k : Nat) : Nat := 0x0A10C0 + n * 0x100 + k * 0x8
def MTR_INT_W (n : Nat) (k : Nat) : Field := ⟨MTR_INT n k, 0, 32⟩
/-- Address of MTR_IWRAP. -/
def MTR_IWRAP (n : Nat) (k : Nat) : Nat := 0x0A10C4 + n * 0x100 + k * 0x8
def MTR_IWRAP_WRAP (n : Nat) (k : Nat) : Field := ⟨MTR_IWRAP n k, 8, 1⟩
def MTR_IWRAP_WCNT (n : Nat) (k : Nat) : Field := ⟨MTR_IWRAP n k, 0, 8⟩
/-- Address of SAF_CFG. -/
def SAF_CFG : Nat := 0x0B0000
def SAF_CFG_SPOFILT : Field := ⟨SAF_CFG, 26, 6⟩
def SAF_CFG_AUTOPU : Field := ⟨SAF_CFG, 25, 1⟩
def SAF_CFG_DISEN : Field := ⟨SAF_CFG, 16, 7⟩
def SAF_CFG_OLA : Field := ⟨SAF_CFG, 4, 4⟩
def SAF_CFG_OLB : Field := ⟨SAF_CFG, 0, 4⟩
/-- Address of SAF_CTL. -/
def SAF_CTL : Nat := 0x0B0004
def SAF_CTL_GUARD : Field := ⟨SAF_CTL, 16, 16⟩
def SAF_CTL_DISREQ : Field := ⟨SAF_CTL, 1, 1⟩
def SAF_CTL_STEST : Field := ⟨SAF_CTL, 0, 1⟩
/-- Address of SAF_STAT. -/
def SAF_STAT : Nat := 0x0B0008
def SAF_STAT_LATCH : Field := ⟨SAF_STAT, 31, 1⟩
def SAF_STAT_DEMAND : Field := ⟨SAF_STAT, 30, 1⟩
def SAF_STAT_SPO : Field := ⟨SAF_STAT, 29, 1⟩
def SAF_STAT_STOK : Field := ⟨SAF_STAT, 28, 1⟩
def SAF_STAT_STRUN : Field := ⟨SAF_STAT, 27, 1⟩
def SAF_STAT_STFAIL : Field := ⟨SAF_STAT, 26, 1⟩
def SAF_STAT_CMDERR : Field := ⟨SAF_STAT, 25, 1⟩
def SAF_STAT_DISREQ : Field := ⟨SAF_STAT, 24, 1⟩
def SAF_STAT_PDEM : Field := ⟨SAF_STAT, 20, 4⟩
def SAF_STAT_HVDEM : Field := ⟨SAF_STAT, 19, 1⟩
def SAF_STAT_HRXDEM : Field := ⟨SAF_STAT, 18, 1⟩
def SAF_STAT_T4 : Field := ⟨SAF_STAT, 17, 1⟩
/-- Address of SAF_LCAUSE. -/
def SAF_LCAUSE : Nat := 0x0B000C
def SAF_LCAUSE_FIRST : Field := ⟨SAF_LCAUSE, 16, 5⟩
def SAF_LCAUSE_CAUSE : Field := ⟨SAF_LCAUSE, 0, 11⟩
/-- Address of SAF_RSTS. -/
def SAF_RSTS : Nat := 0x0B0010
def SAF_RSTS_LEVEL : Field := ⟨SAF_RSTS, 31, 1⟩
def SAF_RSTS_STUCK : Field := ⟨SAF_RSTS, 30, 1⟩
def SAF_RSTS_REFUSED : Field := ⟨SAF_RSTS, 29, 1⟩
def SAF_RSTS_VALID : Field := ⟨SAF_RSTS, 16, 8⟩
def SAF_RSTS_SHORT : Field := ⟨SAF_RSTS, 8, 8⟩
def SAF_RSTS_REFCNT : Field := ⟨SAF_RSTS, 0, 8⟩
/-- Address of SAF_HVIL. -/
def SAF_HVIL : Nat := 0x0B0014
def SAF_HVIL_HVEN : Field := ⟨SAF_HVIL, 31, 1⟩
def SAF_HVIL_HVDEM : Field := ⟨SAF_HVIL, 30, 1⟩
def SAF_HVIL_CODE : Field := ⟨SAF_HVIL, 0, 16⟩
/-- Address of SAF_HVST. -/
def SAF_HVST : Nat := 0x0B0018
def SAF_HVST_FAULT : Field := ⟨SAF_HVST, 31, 1⟩
def SAF_HVST_OK : Field := ⟨SAF_HVST, 30, 1⟩
def SAF_HVST_KIND : Field := ⟨SAF_HVST, 28, 2⟩
def SAF_HVST_MISCNT : Field := ⟨SAF_HVST, 16, 8⟩
def SAF_HVST_IRET : Field := ⟨SAF_HVST, 0, 12⟩
/-- Address of SAF_SPOCNT. -/
def SAF_SPOCNT : Nat := 0x0B001C
def SAF_SPOCNT_ACC : Field := ⟨SAF_SPOCNT, 16, 16⟩
def SAF_SPOCNT_IGN : Field := ⟨SAF_SPOCNT, 0, 16⟩
/-- Address of SAF_PCFG. -/
def SAF_PCFG (n : Nat) : Nat := 0x0B0020 + n * 0x4
def SAF_PCFG_EN (n : Nat) : Field := ⟨SAF_PCFG n, 31, 1⟩
def SAF_PCFG_INVB (n : Nat) : Field := ⟨SAF_PCFG n, 30, 1⟩
def SAF_PCFG_MODE (n : Nat) : Field := ⟨SAF_PCFG n, 29, 1⟩
def SAF_PCFG_FLT (n : Nat) : Field := ⟨SAF_PCFG n, 24, 4⟩
def SAF_PCFG_DISC (n : Nat) : Field := ⟨SAF_PCFG n, 0, 9⟩
/-- Address of SAF_PSTAT. -/
def SAF_PSTAT (n : Nat) : Nat := 0x0B0030 + n * 0x4
def SAF_PSTAT_PA (n : Nat) : Field := ⟨SAF_PSTAT n, 31, 1⟩
def SAF_PSTAT_PB (n : Nat) : Field := ⟨SAF_PSTAT n, 30, 1⟩
def SAF_PSTAT_DEM (n : Nat) : Field := ⟨SAF_PSTAT n, 29, 1⟩
def SAF_PSTAT_DISCF (n : Nat) : Field := ⟨SAF_PSTAT n, 28, 1⟩
def SAF_PSTAT_NFAULT (n : Nat) : Field := ⟨SAF_PSTAT n, 20, 8⟩
def SAF_PSTAT_DCNT (n : Nat) : Field := ⟨SAF_PSTAT n, 0, 13⟩
/-- Address of SAF_CCFG. -/
def SAF_CCFG (n : Nat) : Nat := 0x0B0040 + n * 0x4
def SAF_CCFG_EN (n : Nat) : Field := ⟨SAF_CCFG n, 31, 1⟩
def SAF_CCFG_FBPOL (n : Nat) : Field := ⟨SAF_CCFG n, 30, 1⟩
def SAF_CCFG_FBDEM (n : Nat) : Field := ⟨SAF_CCFG n, 29, 1⟩
def SAF_CCFG_TFB (n : Nat) : Field := ⟨SAF_CCFG n, 0, 8⟩
/-- Address of SAF_CTR. -/
def SAF_CTR : Nat := 0x0B0050
def SAF_CTR_FBERR : Field := ⟨SAF_CTR, 16, 4⟩
def SAF_CTR_FB : Field := ⟨SAF_CTR, 12, 4⟩
def SAF_CTR_EN : Field := ⟨SAF_CTR, 8, 4⟩
def SAF_CTR_REQ : Field := ⟨SAF_CTR, 0, 4⟩
/-- Address of SAF_HRXCFG. -/
def SAF_HRXCFG (n : Nat) : Nat := 0x0B0080 + n * 0x20
def SAF_HRXCFG_EN (n : Nat) : Field := ⟨SAF_HRXCFG n, 31, 1⟩
def SAF_HRXCFG_PERM (n : Nat) : Field := ⟨SAF_HRXCFG n, 30, 1⟩
def SAF_HRXCFG_DEM (n : Nat) : Field := ⟨SAF_HRXCFG n, 29, 1⟩
def SAF_HRXCFG_XID (n : Nat) : Field := ⟨SAF_HRXCFG n, 28, 1⟩
def SAF_HRXCFG_FID (n : Nat) : Field := ⟨SAF_HRXCFG n, 0, 8⟩
/-- Address of SAF_HRXID. -/
def SAF_HRXID (n : Nat) : Nat := 0x0B0084 + n * 0x20
def SAF_HRXID_ID (n : Nat) : Field := ⟨SAF_HRXID n, 0, 29⟩
/-- Address of SAF_HRXTIM. -/
def SAF_HRXTIM (n : Nat) : Nat := 0x0B0088 + n * 0x20
def SAF_HRXTIM_PER (n : Nat) : Field := ⟨SAF_HRXTIM n, 24, 8⟩
def SAF_HRXTIM_WIN (n : Nat) : Field := ⟨SAF_HRXTIM n, 16, 8⟩
def SAF_HRXTIM_SKTOL (n : Nat) : Field := ⟨SAF_HRXTIM n, 0, 2⟩
/-- Address of SAF_HRXSTAT. -/
def SAF_HRXSTAT (n : Nat) : Nat := 0x0B008C + n * 0x20
def SAF_HRXSTAT_WOPEN (n : Nat) : Field := ⟨SAF_HRXSTAT n, 31, 1⟩
def SAF_HRXSTAT_ERR (n : Nat) : Field := ⟨SAF_HRXSTAT n, 30, 1⟩
def SAF_HRXSTAT_LASTERR (n : Nat) : Field := ⟨SAF_HRXSTAT n, 27, 3⟩
def SAF_HRXSTAT_ALIVE (n : Nat) : Field := ⟨SAF_HRXSTAT n, 16, 8⟩
def SAF_HRXSTAT_ERRCNT (n : Nat) : Field := ⟨SAF_HRXSTAT n, 8, 8⟩
/-- Address of SAF_HRXD0. -/
def SAF_HRXD0 (n : Nat) : Nat := 0x0B0090 + n * 0x20
def SAF_HRXD0_D (n : Nat) : Field := ⟨SAF_HRXD0 n, 0, 32⟩
/-- Address of SAF_HRXD1. -/
def SAF_HRXD1 (n : Nat) : Nat := 0x0B0094 + n * 0x20
def SAF_HRXD1_D (n : Nat) : Field := ⟨SAF_HRXD1 n, 0, 32⟩
/-- Address of SAF_HRXCNT. -/
def SAF_HRXCNT (n : Nat) : Nat := 0x0B0098 + n * 0x20
def SAF_HRXCNT_ACC (n : Nat) : Field := ⟨SAF_HRXCNT n, 16, 16⟩
def SAF_HRXCNT_BAD (n : Nat) : Field := ⟨SAF_HRXCNT n, 8, 8⟩
def SAF_HRXCNT_SKIPS (n : Nat) : Field := ⟨SAF_HRXCNT n, 0, 8⟩
/-- Address of SAF_HTXCFG. -/
def SAF_HTXCFG : Nat := 0x0B0100
def SAF_HTXCFG_EN : Field := ⟨SAF_HTXCFG, 31, 1⟩
def SAF_HTXCFG_XID : Field := ⟨SAF_HTXCFG, 30, 1⟩
def SAF_HTXCFG_ID : Field := ⟨SAF_HTXCFG, 0, 29⟩
/-- Address of SAF_HTXTIM. -/
def SAF_HTXTIM : Nat := 0x0B0104
def SAF_HTXTIM_PER : Field := ⟨SAF_HTXTIM, 24, 8⟩
def SAF_HTXTIM_ALIVE : Field := ⟨SAF_HTXTIM, 0, 8⟩
/-- Address of FLT_STAT. -/
def FLT_STAT : Nat := 0x0C0000
def FLT_STAT_FAULTN : Field := ⟨FLT_STAT, 31, 1⟩
def FLT_STAT_TOP : Field := ⟨FLT_STAT, 28, 3⟩
def FLT_STAT_SHOPEN : Field := ⟨FLT_STAT, 27, 1⟩
def FLT_STAT_CLRERR : Field := ⟨FLT_STAT, 26, 1⟩
def FLT_STAT_CMDERR : Field := ⟨FLT_STAT, 25, 1⟩
def FLT_STAT_UNCL : Field := ⟨FLT_STAT, 0, 24⟩
/-- Address of FLT_CFG. -/
def FLT_CFG : Nat := 0x0C0004
def FLT_CFG_QPOL : Field := ⟨FLT_CFG, 0, 1⟩
/-- Address of FLT_CMD. -/
def FLT_CMD : Nat := 0x0C0008
def FLT_CMD_GUARD : Field := ⟨FLT_CMD, 16, 16⟩
def FLT_CMD_CMD : Field := ⟨FLT_CMD, 0, 4⟩
/-- Address of FLT_CMDARG. -/
def FLT_CMDARG : Nat := 0x0C000C
def FLT_CMDARG_SCOPE : Field := ⟨FLT_CMDARG, 0, 16⟩
/-- Address of FLT_DSTAT. -/
def FLT_DSTAT : Nat := 0x0C0010
def FLT_DSTAT_ACT : Field := ⟨FLT_DSTAT, 31, 1⟩
def FLT_DSTAT_TIER : Field := ⟨FLT_DSTAT, 28, 3⟩
def FLT_DSTAT_LATCH : Field := ⟨FLT_DSTAT, 27, 1⟩
def FLT_DSTAT_GCLS : Field := ⟨FLT_DSTAT, 20, 5⟩
def FLT_DSTAT_RCNT : Field := ⟨FLT_DSTAT, 16, 4⟩
def FLT_DSTAT_ESCN : Field := ⟨FLT_DSTAT, 12, 4⟩
def FLT_DSTAT_QLEFT : Field := ⟨FLT_DSTAT, 0, 12⟩
/-- Address of FLT_NEXTSEQ. -/
def FLT_NEXTSEQ : Nat := 0x0C0014
def FLT_NEXTSEQ_SEQ : Field := ⟨FLT_NEXTSEQ, 0, 32⟩
/-- Address of FLT_LOGACK. -/
def FLT_LOGACK : Nat := 0x0C0018
def FLT_LOGACK_SEQ : Field := ⟨FLT_LOGACK, 0, 32⟩
/-- Address of FLT_LOGINFO. -/
def FLT_LOGINFO : Nat := 0x0C001C
def FLT_LOGINFO_OVF : Field := ⟨FLT_LOGINFO, 16, 16⟩
def FLT_LOGINFO_EPOCH : Field := ⟨FLT_LOGINFO, 0, 8⟩
/-- Address of FLT_SHSTAT. -/
def FLT_SHSTAT : Nat := 0x0C0020
def FLT_SHSTAT_CLS : Field := ⟨FLT_SHSTAT, 16, 5⟩
def FLT_SHSTAT_LEFT : Field := ⟨FLT_SHSTAT, 0, 8⟩
/-- Address of FLT_CNT. -/
def FLT_CNT : Nat := 0x0C0024
def FLT_CNT_OCC : Field := ⟨FLT_CNT, 16, 16⟩
def FLT_CNT_LIFT : Field := ⟨FLT_CNT, 8, 8⟩
def FLT_CNT_PERM : Field := ⟨FLT_CNT, 0, 8⟩
/-- Address of FLT_MAP. -/
def FLT_MAP (n : Nat) : Nat := 0x0C0100 + n * 0x10
def FLT_MAP_TIER (n : Nat) : Field := ⟨FLT_MAP n, 29, 3⟩
def FLT_MAP_ESCMAX (n : Nat) : Field := ⟨FLT_MAP n, 26, 3⟩
def FLT_MAP_ESC (n : Nat) : Field := ⟨FLT_MAP n, 24, 2⟩
def FLT_MAP_RLIM (n : Nat) : Field := ⟨FLT_MAP n, 20, 4⟩
def FLT_MAP_SHALL (n : Nat) : Field := ⟨FLT_MAP n, 19, 1⟩
def FLT_MAP_SHLEN (n : Nat) : Field := ⟨FLT_MAP n, 8, 8⟩
/-- Address of FLT_TIME. -/
def FLT_TIME (n : Nat) : Nat := 0x0C0104 + n * 0x10
def FLT_TIME_CWIN (n : Nat) : Field := ⟨FLT_TIME n, 16, 16⟩
def FLT_TIME_QPER (n : Nat) : Field := ⟨FLT_TIME n, 0, 16⟩
/-- Address of FLT_SHM. -/
def FLT_SHM (n : Nat) : Nat := 0x0C0108 + n * 0x10
def FLT_SHM_SHMASK (n : Nat) : Field := ⟨FLT_SHM n, 0, 24⟩
/-- Address of FLT_CRSTAT. -/
def FLT_CRSTAT (n : Nat) : Nat := 0x0C0400 + n * 0x20
def FLT_CRSTAT_UNCL (n : Nat) : Field := ⟨FLT_CRSTAT n, 31, 1⟩
def FLT_CRSTAT_ACT (n : Nat) : Field := ⟨FLT_CRSTAT n, 30, 1⟩
def FLT_CRSTAT_LATCH (n : Nat) : Field := ⟨FLT_CRSTAT n, 29, 1⟩
def FLT_CRSTAT_COUNT (n : Nat) : Field := ⟨FLT_CRSTAT n, 0, 16⟩
/-- Address of FLT_CRFIRST. -/
def FLT_CRFIRST (n : Nat) : Nat := 0x0C0404 + n * 0x20
def FLT_CRFIRST_DETAIL (n : Nat) : Field := ⟨FLT_CRFIRST n, 24, 8⟩
def FLT_CRFIRST_TIER (n : Nat) : Field := ⟨FLT_CRFIRST n, 21, 3⟩
def FLT_CRFIRST_SCOPE (n : Nat) : Field := ⟨FLT_CRFIRST n, 0, 16⟩
/-- Address of FLT_CRFSEQ. -/
def FLT_CRFSEQ (n : Nat) : Nat := 0x0C0408 + n * 0x20
def FLT_CRFSEQ_SEQ (n : Nat) : Field := ⟨FLT_CRFSEQ n, 0, 32⟩
/-- Address of FLT_CRFTIME. -/
def FLT_CRFTIME (n : Nat) : Nat := 0x0C040C + n * 0x20
def FLT_CRFTIME_MS (n : Nat) : Field := ⟨FLT_CRFTIME n, 0, 32⟩
/-- Address of FLT_CRLAST. -/
def FLT_CRLAST (n : Nat) : Nat := 0x0C0410 + n * 0x20
def FLT_CRLAST_DETAIL (n : Nat) : Field := ⟨FLT_CRLAST n, 24, 8⟩
def FLT_CRLAST_TIER (n : Nat) : Field := ⟨FLT_CRLAST n, 21, 3⟩
def FLT_CRLAST_SCOPE (n : Nat) : Field := ⟨FLT_CRLAST n, 0, 16⟩
/-- Address of FLT_CRLSEQ. -/
def FLT_CRLSEQ (n : Nat) : Nat := 0x0C0414 + n * 0x20
def FLT_CRLSEQ_SEQ (n : Nat) : Field := ⟨FLT_CRLSEQ n, 0, 32⟩
/-- Address of FLT_CRLTIME. -/
def FLT_CRLTIME (n : Nat) : Nat := 0x0C0418 + n * 0x20
def FLT_CRLTIME_MS (n : Nat) : Field := ⟨FLT_CRLTIME n, 0, 32⟩
/-- Address of FLT_CRSH. -/
def FLT_CRSH (n : Nat) : Nat := 0x0C041C + n * 0x20
def FLT_CRSH_SHCNT (n : Nat) : Field := ⟨FLT_CRSH n, 0, 16⟩
/-- Address of FLT_LOG. -/
def FLT_LOG (n : Nat) (k : Nat) : Nat := 0x0C1000 + n * 0x10 + k * 0x4
def FLT_LOG_W (n : Nat) (k : Nat) : Field := ⟨FLT_LOG n k, 0, 32⟩
/-- Address of OVL_CFG. -/
def OVL_CFG (n : Nat) : Nat := 0x0D0000 + n * 0x40
def OVL_CFG_ROLE (n : Nat) : Field := ⟨OVL_CFG n, 29, 3⟩
def OVL_CFG_REFIN (n : Nat) : Field := ⟨OVL_CFG n, 28, 1⟩
def OVL_CFG_REFOUT (n : Nat) : Field := ⟨OVL_CFG n, 27, 1⟩
def OVL_CFG_WIDTH (n : Nat) : Field := ⟨OVL_CFG n, 16, 7⟩
/-- Address of OVL_POLY_LO. -/
def OVL_POLY_LO (n : Nat) : Nat := 0x0D0004 + n * 0x40
def OVL_POLY_LO_P (n : Nat) : Field := ⟨OVL_POLY_LO n, 0, 32⟩
/-- Address of OVL_POLY_HI. -/
def OVL_POLY_HI (n : Nat) : Nat := 0x0D0008 + n * 0x40
def OVL_POLY_HI_P (n : Nat) : Field := ⟨OVL_POLY_HI n, 0, 32⟩
/-- Address of OVL_INIT_LO. -/
def OVL_INIT_LO (n : Nat) : Nat := 0x0D000C + n * 0x40
def OVL_INIT_LO_I (n : Nat) : Field := ⟨OVL_INIT_LO n, 0, 32⟩
/-- Address of OVL_INIT_HI. -/
def OVL_INIT_HI (n : Nat) : Nat := 0x0D0010 + n * 0x40
def OVL_INIT_HI_I (n : Nat) : Field := ⟨OVL_INIT_HI n, 0, 32⟩
/-- Address of OVL_XOR_LO. -/
def OVL_XOR_LO (n : Nat) : Nat := 0x0D0014 + n * 0x40
def OVL_XOR_LO_X (n : Nat) : Field := ⟨OVL_XOR_LO n, 0, 32⟩
/-- Address of OVL_XOR_HI. -/
def OVL_XOR_HI (n : Nat) : Nat := 0x0D0018 + n * 0x40
def OVL_XOR_HI_X (n : Nat) : Field := ⟨OVL_XOR_HI n, 0, 32⟩
/-- Address of OVL_CMD. -/
def OVL_CMD (n : Nat) : Nat := 0x0D001C + n * 0x40
def OVL_CMD_CMD (n : Nat) : Field := ⟨OVL_CMD n, 0, 2⟩
/-- Address of OVL_DIN4. -/
def OVL_DIN4 (n : Nat) : Nat := 0x0D0020 + n * 0x40
def OVL_DIN4_D (n : Nat) : Field := ⟨OVL_DIN4 n, 0, 32⟩
/-- Address of OVL_DIN1. -/
def OVL_DIN1 (n : Nat) : Nat := 0x0D0024 + n * 0x40
def OVL_DIN1_D (n : Nat) : Field := ⟨OVL_DIN1 n, 0, 8⟩
/-- Address of OVL_RES_LO. -/
def OVL_RES_LO (n : Nat) : Nat := 0x0D0028 + n * 0x40
def OVL_RES_LO_RES (n : Nat) : Field := ⟨OVL_RES_LO n, 0, 32⟩
/-- Address of OVL_RES_HI. -/
def OVL_RES_HI (n : Nat) : Nat := 0x0D002C + n * 0x40
def OVL_RES_HI_RES (n : Nat) : Field := ⟨OVL_RES_HI n, 0, 32⟩
/-- Address of OVL_STAT. -/
def OVL_STAT (n : Nat) : Nat := 0x0D0030 + n * 0x40
def OVL_STAT_OPEN (n : Nat) : Field := ⟨OVL_STAT n, 31, 1⟩
def OVL_STAT_OWNER (n : Nat) : Field := ⟨OVL_STAT n, 28, 3⟩
def OVL_STAT_CFGERR (n : Nat) : Field := ⟨OVL_STAT n, 27, 1⟩
def OVL_STAT_PORTERR (n : Nat) : Field := ⟨OVL_STAT n, 26, 1⟩
def OVL_STAT_NBYTES (n : Nat) : Field := ⟨OVL_STAT n, 0, 24⟩
/-- Address of OVL_ACFG. -/
def OVL_ACFG (n : Nat) : Nat := 0x0D0034 + n * 0x40
def OVL_ACFG_AW (n : Nat) : Field := ⟨OVL_ACFG n, 30, 2⟩
def OVL_ACFG_AEN (n : Nat) : Field := ⟨OVL_ACFG n, 29, 1⟩
def OVL_ACFG_TOL (n : Nat) : Field := ⟨OVL_ACFG n, 24, 4⟩
def OVL_ACFG_INC (n : Nat) : Field := ⟨OVL_ACFG n, 0, 16⟩
/-- Address of OVL_AFEED. -/
def OVL_AFEED (n : Nat) : Nat := 0x0D0038 + n * 0x40
def OVL_AFEED_V (n : Nat) : Field := ⟨OVL_AFEED n, 0, 16⟩
/-- Address of OVL_ASTAT. -/
def OVL_ASTAT (n : Nat) : Nat := 0x0D003C + n * 0x40
def OVL_ASTAT_RES (n : Nat) : Field := ⟨OVL_ASTAT n, 29, 3⟩
def OVL_ASTAT_ERR (n : Nat) : Field := ⟨OVL_ASTAT n, 28, 1⟩
def OVL_ASTAT_ERRCNT (n : Nat) : Field := ⟨OVL_ASTAT n, 16, 8⟩
def OVL_ASTAT_LAST (n : Nat) : Field := ⟨OVL_ASTAT n, 0, 16⟩
/-- Address of OVL_ASKIP. -/
def OVL_ASKIP (n : Nat) : Nat := 0x0D1000 + n * 0x4
def OVL_ASKIP_CNT (n : Nat) : Field := ⟨OVL_ASKIP n, 0, 8⟩
/-- Address of IDN_STAT. -/
def IDN_STAT : Nat := 0x0E0000
def IDN_STAT_BUSY : Field := ⟨IDN_STAT, 31, 1⟩
def IDN_STAT_DONE : Field := ⟨IDN_STAT, 30, 1⟩
def IDN_STAT_KEYSET : Field := ⟨IDN_STAT, 29, 1⟩
def IDN_STAT_KFAIL : Field := ⟨IDN_STAT, 28, 1⟩
def IDN_STAT_KEYERR : Field := ⟨IDN_STAT, 27, 1⟩
def IDN_STAT_RNGERR : Field := ⟨IDN_STAT, 26, 1⟩
def IDN_STAT_CMDERR : Field := ⟨IDN_STAT, 25, 1⟩
def IDN_STAT_QUEUE : Field := ⟨IDN_STAT, 16, 4⟩
def IDN_STAT_ERR : Field := ⟨IDN_STAT, 0, 8⟩
/-- Address of IDN_CMD. -/
def IDN_CMD : Nat := 0x0E0004
def IDN_CMD_GUARD : Field := ⟨IDN_CMD, 16, 16⟩
def IDN_CMD_CMD : Field := ⟨IDN_CMD, 0, 4⟩
/-- Address of IDN_SERIAL_LO. -/
def IDN_SERIAL_LO : Nat := 0x0E0008
def IDN_SERIAL_LO_W : Field := ⟨IDN_SERIAL_LO, 0, 32⟩
/-- Address of IDN_SERIAL_HI. -/
def IDN_SERIAL_HI : Nat := 0x0E000C
def IDN_SERIAL_HI_W : Field := ⟨IDN_SERIAL_HI, 0, 32⟩
/-- Address of IDN_KHASH. -/
def IDN_KHASH (n : Nat) : Nat := 0x0E0010 + n * 0x4
def IDN_KHASH_W (n : Nat) : Field := ⟨IDN_KHASH n, 0, 32⟩
/-- Address of IDN_KSTAGE. -/
def IDN_KSTAGE (n : Nat) : Nat := 0x0E0030 + n * 0x4
def IDN_KSTAGE_W (n : Nat) : Field := ⟨IDN_KSTAGE n, 0, 32⟩
/-- Address of IDN_NONCE. -/
def IDN_NONCE (n : Nat) : Nat := 0x0E0050 + n * 0x4
def IDN_NONCE_W (n : Nat) : Field := ⟨IDN_NONCE n, 0, 32⟩
/-- Address of IDN_FPR. -/
def IDN_FPR (n : Nat) : Nat := 0x0E0070 + n * 0x4
def IDN_FPR_W (n : Nat) : Field := ⟨IDN_FPR n, 0, 32⟩
/-- Address of IDN_CERTLEN. -/
def IDN_CERTLEN : Nat := 0x0E0090
def IDN_CERTLEN_CA : Field := ⟨IDN_CERTLEN, 16, 11⟩
def IDN_CERTLEN_DEV : Field := ⟨IDN_CERTLEN, 0, 11⟩
/-- Address of IDN_SIGCNT. -/
def IDN_SIGCNT : Nat := 0x0E0094
def IDN_SIGCNT_CNT : Field := ⟨IDN_SIGCNT, 0, 32⟩
/-- Address of IDN_PUBX. -/
def IDN_PUBX (n : Nat) : Nat := 0x0E00A0 + n * 0x4
def IDN_PUBX_W (n : Nat) : Field := ⟨IDN_PUBX n, 0, 32⟩
/-- Address of IDN_PUBY. -/
def IDN_PUBY (n : Nat) : Nat := 0x0E00C0 + n * 0x4
def IDN_PUBY_W (n : Nat) : Field := ⟨IDN_PUBY n, 0, 32⟩
/-- Address of IDN_DEVCERT. -/
def IDN_DEVCERT (n : Nat) : Nat := 0x0E1000 + n * 0x4
def IDN_DEVCERT_W (n : Nat) : Field := ⟨IDN_DEVCERT n, 0, 32⟩
/-- Address of IDN_CACERT. -/
def IDN_CACERT (n : Nat) : Nat := 0x0E1400 + n * 0x4
def IDN_CACERT_W (n : Nat) : Field := ⟨IDN_CACERT n, 0, 32⟩
/-- Address of IDN_REPORT. -/
def IDN_REPORT (n : Nat) : Nat := 0x0E1800 + n * 0x4
def IDN_REPORT_W (n : Nat) : Field := ⟨IDN_REPORT n, 0, 32⟩
/-- Address of PWR_MODE. -/
def PWR_MODE : Nat := 0x0F0000
def PWR_MODE_BUSY : Field := ⟨PWR_MODE, 31, 1⟩
def PWR_MODE_BASE : Field := ⟨PWR_MODE, 16, 4⟩
def PWR_MODE_PREV : Field := ⟨PWR_MODE, 8, 4⟩
def PWR_MODE_MODE : Field := ⟨PWR_MODE, 0, 4⟩
/-- Address of PWR_MODECTL. -/
def PWR_MODECTL : Nat := 0x0F0004
def PWR_MODECTL_GUARD : Field := ⟨PWR_MODECTL, 16, 16⟩
def PWR_MODECTL_REQ : Field := ⟨PWR_MODECTL, 0, 4⟩
/-- Address of PWR_STAT. -/
def PWR_STAT : Nat := 0x0F0008
def PWR_STAT_MDONE : Field := ⟨PWR_STAT, 31, 1⟩
def PWR_STAT_SFAIL : Field := ⟨PWR_STAT, 30, 1⟩
def PWR_STAT_PCDONE : Field := ⟨PWR_STAT, 29, 1⟩
def PWR_STAT_STARTING : Field := ⟨PWR_STAT, 28, 1⟩
def PWR_STAT_RESTPEND : Field := ⟨PWR_STAT, 27, 1⟩
def PWR_STAT_RTCVAL : Field := ⟨PWR_STAT, 26, 1⟩
def PWR_STAT_BROWN : Field := ⟨PWR_STAT, 25, 1⟩
def PWR_STAT_WERR : Field := ⟨PWR_STAT, 24, 1⟩
def PWR_STAT_RAILOK : Field := ⟨PWR_STAT, 16, 4⟩
def PWR_STAT_MERR : Field := ⟨PWR_STAT, 0, 8⟩
/-- Address of PWR_DOM. -/
def PWR_DOM : Nat := 0x0F000C
def PWR_DOM_ON : Field := ⟨PWR_DOM, 0, 8⟩
/-- Address of PWR_CLK. -/
def PWR_CLK : Nat := 0x0F0010
def PWR_CLK_XAONOK : Field := ⟨PWR_CLK, 31, 1⟩
def PWR_CLK_SRC : Field := ⟨PWR_CLK, 30, 1⟩
def PWR_CLK_XREFOK : Field := ⟨PWR_CLK, 29, 1⟩
def PWR_CLK_SYSLOCK : Field := ⟨PWR_CLK, 28, 1⟩
def PWR_CLK_EDGELOCK : Field := ⟨PWR_CLK, 27, 1⟩
/-- Address of PWR_WCFG. -/
def PWR_WCFG : Nat := 0x0F0014
def PWR_WCFG_HVAIN : Field := ⟨PWR_WCFG, 26, 6⟩
def PWR_WCFG_RAILTO : Field := ⟨PWR_WCFG, 16, 8⟩
def PWR_WCFG_EN : Field := ⟨PWR_WCFG, 0, 8⟩
/-- Address of PWR_WTHR. -/
def PWR_WTHR : Nat := 0x0F0018
def PWR_WTHR_HVTH : Field := ⟨PWR_WTHR, 0, 12⟩
/-- Address of PWR_WCAUSE. -/
def PWR_WCAUSE : Nat := 0x0F001C
def PWR_WCAUSE_WCNT : Field := ⟨PWR_WCAUSE, 16, 16⟩
def PWR_WCAUSE_NORAILS : Field := ⟨PWR_WCAUSE, 8, 1⟩
def PWR_WCAUSE_SRC : Field := ⟨PWR_WCAUSE, 0, 8⟩
/-- Address of PWR_CPERM. -/
def PWR_CPERM : Nat := 0x0F0020
def PWR_CPERM_PERM : Field := ⟨PWR_CPERM, 0, 28⟩
/-- Address of PWR_PCFG. -/
def PWR_PCFG : Nat := 0x0F0024
def PWR_PCFG_SRC : Field := ⟨PWR_PCFG, 16, 9⟩
def PWR_PCFG_PVTH : Field := ⟨PWR_PCFG, 0, 16⟩
/-- Address of PWR_PTIM. -/
def PWR_PTIM : Nat := 0x0F0028
def PWR_PTIM_PTMAX : Field := ⟨PWR_PTIM, 16, 16⟩
def PWR_PTIM_PLO : Field := ⟨PWR_PTIM, 0, 16⟩
/-- Address of PWR_DISCFG. -/
def PWR_DISCFG : Nat := 0x0F002C
def PWR_DISCFG_VCLIM : Field := ⟨PWR_DISCFG, 25, 7⟩
def PWR_DISCFG_SRC : Field := ⟨PWR_DISCFG, 16, 9⟩
def PWR_DISCFG_VLIM : Field := ⟨PWR_DISCFG, 0, 16⟩
/-- Address of PWR_DISTIM. -/
def PWR_DISTIM : Nat := 0x0F0030
def PWR_DISTIM_TMAX : Field := ⟨PWR_DISTIM, 16, 16⟩
def PWR_DISTIM_TAIL : Field := ⟨PWR_DISTIM, 0, 8⟩
/-- Address of PWR_DISSTAT. -/
def PWR_DISSTAT : Nat := 0x0F0034
def PWR_DISSTAT_RUN : Field := ⟨PWR_DISSTAT, 31, 1⟩
def PWR_DISSTAT_DONE : Field := ⟨PWR_DISSTAT, 30, 1⟩
def PWR_DISSTAT_TOUT : Field := ⟨PWR_DISSTAT, 29, 1⟩
def PWR_DISSTAT_TIME : Field := ⟨PWR_DISSTAT, 0, 16⟩
/-- Address of PWR_CP. -/
def PWR_CP : Nat := 0x0F0038
def PWR_CP_STATE : Field := ⟨PWR_CP, 29, 3⟩
def PWR_CP_PWM : Field := ⟨PWR_CP, 28, 1⟩
def PWR_CP_DIGITAL : Field := ⟨PWR_CP, 27, 1⟩
def PWR_CP_DUTY : Field := ⟨PWR_CP, 16, 10⟩
def PWR_CP_ILIM : Field := ⟨PWR_CP, 0, 16⟩
/-- Address of PWR_PP. -/
def PWR_PP : Nat := 0x0F003C
def PWR_PP_R : Field := ⟨PWR_PP, 16, 12⟩
def PWR_PP_ILIM : Field := ⟨PWR_PP, 0, 16⟩
/-- Address of PWR_BOOT_CAUSE. -/
def PWR_BOOT_CAUSE : Nat := 0x0F0040
def PWR_BOOT_CAUSE_BASTING : Field := ⟨PWR_BOOT_CAUSE, 31, 1⟩
def PWR_BOOT_CAUSE_FALLBACK : Field := ⟨PWR_BOOT_CAUSE, 30, 1⟩
def PWR_BOOT_CAUSE_SLOT : Field := ⟨PWR_BOOT_CAUSE, 28, 2⟩
def PWR_BOOT_CAUSE_FAILS : Field := ⟨PWR_BOOT_CAUSE, 24, 2⟩
def PWR_BOOT_CAUSE_ERR_B : Field := ⟨PWR_BOOT_CAUSE, 16, 8⟩
def PWR_BOOT_CAUSE_ERR_A : Field := ⟨PWR_BOOT_CAUSE, 8, 8⟩
def PWR_BOOT_CAUSE_CODE : Field := ⟨PWR_BOOT_CAUSE, 0, 8⟩
/-- Address of PWR_RTC_LO. -/
def PWR_RTC_LO : Nat := 0x0F0044
def PWR_RTC_LO_MS : Field := ⟨PWR_RTC_LO, 0, 32⟩
/-- Address of PWR_RTC_HI. -/
def PWR_RTC_HI : Nat := 0x0F0048
def PWR_RTC_HI_MS : Field := ⟨PWR_RTC_HI, 0, 32⟩
/-- Address of PWR_RTCW_LO. -/
def PWR_RTCW_LO : Nat := 0x0F004C
def PWR_RTCW_LO_W : Field := ⟨PWR_RTCW_LO, 0, 32⟩
/-- Address of PWR_RTCW_HI. -/
def PWR_RTCW_HI : Nat := 0x0F0050
def PWR_RTCW_HI_W : Field := ⟨PWR_RTCW_HI, 0, 32⟩
/-- Address of PWR_ALARM_LO. -/
def PWR_ALARM_LO : Nat := 0x0F0054
def PWR_ALARM_LO_MS : Field := ⟨PWR_ALARM_LO, 0, 32⟩
/-- Address of PWR_ALARM_HI. -/
def PWR_ALARM_HI : Nat := 0x0F0058
def PWR_ALARM_HI_MS : Field := ⟨PWR_ALARM_HI, 0, 32⟩
/-- Address of HRV_CFG. -/
def HRV_CFG : Nat := 0x0F8000
def HRV_CFG_EN : Field := ⟨HRV_CFG, 31, 1⟩
def HRV_CFG_TRKEN : Field := ⟨HRV_CFG, 30, 1⟩
def HRV_CFG_K : Field := ⟨HRV_CFG, 24, 6⟩
def HRV_CFG_TPER : Field := ⟨HRV_CFG, 16, 8⟩
def HRV_CFG_VSTMAX : Field := ⟨HRV_CFG, 0, 5⟩
/-- Address of HRV_CAP. -/
def HRV_CAP : Nat := 0x0F8004
def HRV_CAP_CAP : Field := ⟨HRV_CAP, 0, 13⟩
/-- Address of HRV_GTH. -/
def HRV_GTH : Nat := 0x0F8008
def HRV_GTH_GTH : Field := ⟨HRV_GTH, 16, 16⟩
def HRV_GTH_ATH : Field := ⟨HRV_GTH, 0, 16⟩
/-- Address of HRV_RSV. -/
def HRV_RSV : Nat := 0x0F800C
def HRV_RSV_RSV : Field := ⟨HRV_RSV, 0, 16⟩
/-- Address of HRV_GAUGE. -/
def HRV_GAUGE : Nat := 0x0F8010
def HRV_GAUGE_GRANT : Field := ⟨HRV_GAUGE, 30, 2⟩
def HRV_GAUGE_VST : Field := ⟨HRV_GAUGE, 16, 13⟩
def HRV_GAUGE_E : Field := ⟨HRV_GAUGE, 0, 16⟩
/-- Address of HRV_STAT. -/
def HRV_STAT : Nat := 0x0F8014
def HRV_STAT_EXTSUP : Field := ⟨HRV_STAT, 31, 1⟩
def HRV_STAT_CHG : Field := ⟨HRV_STAT, 30, 1⟩
def HRV_STAT_FULL : Field := ⟨HRV_STAT, 29, 1⟩
def HRV_STAT_HINLOW : Field := ⟨HRV_STAT, 28, 1⟩
def HRV_STAT_HINOV : Field := ⟨HRV_STAT, 27, 1⟩
def HRV_STAT_SAMPLING : Field := ⟨HRV_STAT, 26, 1⟩
def HRV_STAT_REDDORM : Field := ⟨HRV_STAT, 25, 1⟩
def HRV_STAT_COLD : Field := ⟨HRV_STAT, 24, 1⟩
def HRV_STAT_WERR : Field := ⟨HRV_STAT, 23, 1⟩
def HRV_STAT_BSTATE : Field := ⟨HRV_STAT, 0, 2⟩
/-- Address of HRV_VOC. -/
def HRV_VOC : Nat := 0x0F8018
def HRV_VOC_VOC : Field := ⟨HRV_VOC, 16, 13⟩
def HRV_VOC_VREG : Field := ⟨HRV_VOC, 0, 13⟩
/-- Address of HRV_BURST. -/
def HRV_BURST : Nat := 0x0F801C
def HRV_BURST_RESULT : Field := ⟨HRV_BURST, 28, 4⟩
def HRV_BURST_CLASS : Field := ⟨HRV_BURST, 24, 4⟩
def HRV_BURST_SLOTS : Field := ⟨HRV_BURST, 8, 8⟩
def HRV_BURST_MIRRORS : Field := ⟨HRV_BURST, 0, 8⟩
/-- Address of HRV_CNT. -/
def HRV_CNT : Nat := 0x0F8020
def HRV_CNT_ADMIT : Field := ⟨HRV_CNT, 24, 8⟩
def HRV_CNT_DEFER : Field := ⟨HRV_CNT, 16, 8⟩
def HRV_CNT_STOP : Field := ⟨HRV_CNT, 8, 8⟩
def HRV_CNT_HAND : Field := ⟨HRV_CNT, 0, 8⟩
/-- Address of HST_CFG. -/
def HST_CFG : Nat := 0x180000
def HST_CFG_CRCREQ : Field := ⟨HST_CFG, 0, 1⟩
/-- Address of HST_STAT. -/
def HST_STAT : Nat := 0x180004
def HST_STAT_ABSENT : Field := ⟨HST_STAT, 31, 1⟩
def HST_STAT_DISCARDED : Field := ⟨HST_STAT, 30, 1⟩
def HST_STAT_LATE : Field := ⟨HST_STAT, 29, 1⟩
def HST_STAT_DOMOFF : Field := ⟨HST_STAT, 28, 1⟩
def HST_STAT_ERESP : Field := ⟨HST_STAT, 27, 1⟩
def HST_STAT_CRCERR : Field := ⟨HST_STAT, 26, 1⟩
def HST_STAT_QEMPTY : Field := ⟨HST_STAT, 25, 1⟩
def HST_STAT_FCODE : Field := ⟨HST_STAT, 16, 8⟩
def HST_STAT_LPORT : Field := ⟨HST_STAT, 12, 3⟩
def HST_STAT_ECNT : Field := ⟨HST_STAT, 0, 8⟩
/-- Address of HST_ISRC. -/
def HST_ISRC : Nat := 0x180008
def HST_ISRC_SRC : Field := ⟨HST_ISRC, 0, 15⟩
/-- Address of HST_IEN. -/
def HST_IEN : Nat := 0x18000C
def HST_IEN_EN : Field := ⟨HST_IEN, 0, 15⟩
/-- Address of HST_EVT. -/
def HST_EVT : Nat := 0x180010
def HST_EVT_RET : Field := ⟨HST_EVT, 1, 1⟩
def HST_EVT_MREC : Field := ⟨HST_EVT, 0, 1⟩
/-- Address of HST_ERRADDR. -/
def HST_ERRADDR : Nat := 0x180014
def HST_ERRADDR_ADDR : Field := ⟨HST_ERRADDR, 0, 24⟩
/-- Address of HST_WLAT. -/
def HST_WLAT : Nat := 0x180018
def HST_WLAT_NS : Field := ⟨HST_WLAT, 0, 16⟩
/-- Address of CAN_CFG. -/
def CAN_CFG (n : Nat) : Nat := 0x184000 + n * 0x4000
def CAN_CFG_EN (n : Nat) : Field := ⟨CAN_CFG n, 31, 1⟩
def CAN_CFG_MODE (n : Nat) : Field := ⟨CAN_CFG n, 30, 1⟩
def CAN_CFG_FDEN (n : Nat) : Field := ⟨CAN_CFG n, 29, 1⟩
def CAN_CFG_AUTOREC (n : Nat) : Field := ⟨CAN_CFG n, 28, 1⟩
def CAN_CFG_HBRS (n : Nat) : Field := ⟨CAN_CFG n, 27, 1⟩
/-- Address of CAN_NBT. -/
def CAN_NBT (n : Nat) : Nat := 0x184004 + n * 0x4000
def CAN_NBT_BRP (n : Nat) : Field := ⟨CAN_NBT n, 27, 5⟩
def CAN_NBT_TSEG1 (n : Nat) : Field := ⟨CAN_NBT n, 16, 9⟩
def CAN_NBT_TSEG2 (n : Nat) : Field := ⟨CAN_NBT n, 8, 7⟩
def CAN_NBT_SJW (n : Nat) : Field := ⟨CAN_NBT n, 0, 7⟩
/-- Address of CAN_DBT. -/
def CAN_DBT (n : Nat) : Nat := 0x184008 + n * 0x4000
def CAN_DBT_BRP (n : Nat) : Field := ⟨CAN_DBT n, 27, 5⟩
def CAN_DBT_TSEG1 (n : Nat) : Field := ⟨CAN_DBT n, 16, 5⟩
def CAN_DBT_TSEG2 (n : Nat) : Field := ⟨CAN_DBT n, 8, 5⟩
def CAN_DBT_SJW (n : Nat) : Field := ⟨CAN_DBT n, 0, 4⟩
/-- Address of CAN_TDC. -/
def CAN_TDC (n : Nat) : Nat := 0x18400C + n * 0x4000
def CAN_TDC_TDCEN (n : Nat) : Field := ⟨CAN_TDC n, 31, 1⟩
def CAN_TDC_TDCO (n : Nat) : Field := ⟨CAN_TDC n, 0, 7⟩
/-- Address of CAN_SVC. -/
def CAN_SVC (n : Nat) : Nat := 0x184010 + n * 0x4000
def CAN_SVC_EN (n : Nat) : Field := ⟨CAN_SVC n, 31, 1⟩
def CAN_SVC_XID (n : Nat) : Field := ⟨CAN_SVC n, 30, 1⟩
def CAN_SVC_ID (n : Nat) : Field := ⟨CAN_SVC n, 0, 29⟩
/-- Address of CAN_SVCR. -/
def CAN_SVCR (n : Nat) : Nat := 0x184014 + n * 0x4000
def CAN_SVCR_XID (n : Nat) : Field := ⟨CAN_SVCR n, 30, 1⟩
def CAN_SVCR_ID (n : Nat) : Field := ⟨CAN_SVCR n, 0, 29⟩
/-- Address of CAN_STAT. -/
def CAN_STAT (n : Nat) : Nat := 0x184020 + n * 0x4000
def CAN_STAT_STATE (n : Nat) : Field := ⟨CAN_STAT n, 30, 2⟩
def CAN_STAT_RUN (n : Nat) : Field := ⟨CAN_STAT n, 29, 1⟩
def CAN_STAT_REC (n : Nat) : Field := ⟨CAN_STAT n, 8, 8⟩
def CAN_STAT_TEC (n : Nat) : Field := ⟨CAN_STAT n, 0, 8⟩
/-- Address of CAN_CTL. -/
def CAN_CTL (n : Nat) : Nat := 0x184024 + n * 0x4000
def CAN_CTL_RECOVER (n : Nat) : Field := ⟨CAN_CTL n, 0, 1⟩
/-- Address of CAN_IRQ. -/
def CAN_IRQ (n : Nat) : Nat := 0x184028 + n * 0x4000
def CAN_IRQ_LOST (n : Nat) : Field := ⟨CAN_IRQ n, 4, 1⟩
def CAN_IRQ_BUSOFF (n : Nat) : Field := ⟨CAN_IRQ n, 3, 1⟩
def CAN_IRQ_PASSIVE (n : Nat) : Field := ⟨CAN_IRQ n, 2, 1⟩
def CAN_IRQ_TXDONE (n : Nat) : Field := ⟨CAN_IRQ n, 1, 1⟩
def CAN_IRQ_RXDONE (n : Nat) : Field := ⟨CAN_IRQ n, 0, 1⟩
/-- Address of CAN_IEN. -/
def CAN_IEN (n : Nat) : Nat := 0x18402C + n * 0x4000
def CAN_IEN_EN (n : Nat) : Field := ⟨CAN_IEN n, 0, 5⟩
/-- Address of CAN_RXMAP. -/
def CAN_RXMAP (n : Nat) : Nat := 0x184030 + n * 0x4000
def CAN_RXMAP_MAP (n : Nat) : Field := ⟨CAN_RXMAP n, 0, 32⟩
/-- Address of CAN_TXMAP. -/
def CAN_TXMAP (n : Nat) : Nat := 0x184034 + n * 0x4000
def CAN_TXMAP_MAP (n : Nat) : Field := ⟨CAN_TXMAP n, 0, 32⟩
/-- Address of CAN_CNT. -/
def CAN_CNT (n : Nat) : Nat := 0x184038 + n * 0x4000
def CAN_CNT_LOST (n : Nat) : Field := ⟨CAN_CNT n, 24, 8⟩
def CAN_CNT_HEMRX (n : Nat) : Field := ⟨CAN_CNT n, 16, 8⟩
def CAN_CNT_HEMTX (n : Nat) : Field := ⟨CAN_CNT n, 8, 8⟩
def CAN_CNT_SVC (n : Nat) : Field := ⟨CAN_CNT n, 0, 8⟩
/-- Address of CAN_TS. -/
def CAN_TS (n : Nat) : Nat := 0x18403C + n * 0x4000
def CAN_TS_US (n : Nat) : Field := ⟨CAN_TS n, 0, 32⟩
/-- Address of MB_CTL. -/
def MB_CTL (n : Nat) (k : Nat) : Nat := 0x185000 + n * 0x4000 + k * 0x80
def MB_CTL_EN (n : Nat) (k : Nat) : Field := ⟨MB_CTL n k, 31, 1⟩
def MB_CTL_DIR (n : Nat) (k : Nat) : Field := ⟨MB_CTL n k, 30, 1⟩
def MB_CTL_XID (n : Nat) (k : Nat) : Field := ⟨MB_CTL n k, 29, 1⟩
def MB_CTL_FDF (n : Nat) (k : Nat) : Field := ⟨MB_CTL n k, 28, 1⟩
def MB_CTL_BRS (n : Nat) (k : Nat) : Field := ⟨MB_CTL n k, 27, 1⟩
def MB_CTL_ABORT (n : Nat) (k : Nat) : Field := ⟨MB_CTL n k, 9, 1⟩
def MB_CTL_TXREQ (n : Nat) (k : Nat) : Field := ⟨MB_CTL n k, 8, 1⟩
def MB_CTL_DLC (n : Nat) (k : Nat) : Field := ⟨MB_CTL n k, 0, 4⟩
/-- Address of MB_ID. -/
def MB_ID (n : Nat) (k : Nat) : Nat := 0x185004 + n * 0x4000 + k * 0x80
def MB_ID_ID (n : Nat) (k : Nat) : Field := ⟨MB_ID n k, 0, 29⟩
/-- Address of MB_MASK. -/
def MB_MASK (n : Nat) (k : Nat) : Nat := 0x185008 + n * 0x4000 + k * 0x80
def MB_MASK_M (n : Nat) (k : Nat) : Field := ⟨MB_MASK n k, 0, 29⟩
/-- Address of MB_STAT. -/
def MB_STAT (n : Nat) (k : Nat) : Nat := 0x18500C + n * 0x4000 + k * 0x80
def MB_STAT_FULL (n : Nat) (k : Nat) : Field := ⟨MB_STAT n k, 31, 1⟩
def MB_STAT_OVR (n : Nat) (k : Nat) : Field := ⟨MB_STAT n k, 30, 1⟩
def MB_STAT_LOCK (n : Nat) (k : Nat) : Field := ⟨MB_STAT n k, 29, 1⟩
def MB_STAT_TXPEND (n : Nat) (k : Nat) : Field := ⟨MB_STAT n k, 28, 1⟩
def MB_STAT_TXRES (n : Nat) (k : Nat) : Field := ⟨MB_STAT n k, 26, 2⟩
def MB_STAT_TS (n : Nat) (k : Nat) : Field := ⟨MB_STAT n k, 0, 16⟩
/-- Address of MB_DATA. -/
def MB_DATA (n : Nat) (k : Nat) (j : Nat) : Nat := 0x185010 + n * 0x4000 + k * 0x80 + j * 0x4
def MB_DATA_D (n : Nat) (k : Nat) (j : Nat) : Field := ⟨MB_DATA n k j, 0, 32⟩
/-- Address of FAB_CFG. -/
def FAB_CFG : Nat := 0x190000
def FAB_CFG_EN : Field := ⟨FAB_CFG, 31, 1⟩
def FAB_CFG_TIMEEN : Field := ⟨FAB_CFG, 30, 1⟩
/-- Address of FAB_STAT. -/
def FAB_STAT : Nat := 0x190004
def FAB_STAT_BOUND : Field := ⟨FAB_STAT, 31, 1⟩
def FAB_STAT_ALL : Field := ⟨FAB_STAT, 30, 1⟩
def FAB_STAT_ROLE : Field := ⟨FAB_STAT, 24, 6⟩
def FAB_STAT_EPOCH : Field := ⟨FAB_STAT, 8, 16⟩
def FAB_STAT_CMDERR : Field := ⟨FAB_STAT, 7, 1⟩
/-- Address of FAB_MEMBERS. -/
def FAB_MEMBERS : Nat := 0x190008
def FAB_MEMBERS_MAP : Field := ⟨FAB_MEMBERS, 0, 32⟩
/-- Address of FAB_AGREE. -/
def FAB_AGREE : Nat := 0x19000C
def FAB_AGREE_MAP : Field := ⟨FAB_AGREE, 0, 32⟩
/-- Address of FAB_AGREE_EPOCH. -/
def FAB_AGREE_EPOCH : Nat := 0x190010
def FAB_AGREE_EPOCH_N : Field := ⟨FAB_AGREE_EPOCH, 0, 32⟩
/-- Address of FAB_AGREE_T_LO. -/
def FAB_AGREE_T_LO : Nat := 0x190014
def FAB_AGREE_T_LO_T : Field := ⟨FAB_AGREE_T_LO, 0, 32⟩
/-- Address of FAB_AGREE_T_HI. -/
def FAB_AGREE_T_HI : Nat := 0x190018
def FAB_AGREE_T_HI_T : Field := ⟨FAB_AGREE_T_HI, 0, 32⟩
/-- Address of FAB_EXPECT. -/
def FAB_EXPECT : Nat := 0x19001C
def FAB_EXPECT_MAP : Field := ⟨FAB_EXPECT, 0, 32⟩
/-- Address of FAB_TIME_LO. -/
def FAB_TIME_LO : Nat := 0x190020
def FAB_TIME_LO_T : Field := ⟨FAB_TIME_LO, 0, 32⟩
/-- Address of FAB_TIME_HI. -/
def FAB_TIME_HI : Nat := 0x190024
def FAB_TIME_HI_T : Field := ⟨FAB_TIME_HI, 0, 32⟩
/-- Address of FAB_TSTAT. -/
def FAB_TSTAT : Nat := 0x190028
def FAB_TSTAT_TVALID : Field := ⟨FAB_TSTAT, 31, 1⟩
def FAB_TSTAT_SOURCE : Field := ⟨FAB_TSTAT, 30, 1⟩
def FAB_TSTAT_SRCROLE : Field := ⟨FAB_TSTAT, 24, 6⟩
def FAB_TSTAT_PORT : Field := ⟨FAB_TSTAT, 20, 2⟩
def FAB_TSTAT_TSTEP : Field := ⟨FAB_TSTAT, 8, 8⟩
def FAB_TSTAT_OFFS : Field := ⟨FAB_TSTAT, 0, 8⟩
/-- Address of FAB_IRQ. -/
def FAB_IRQ : Nat := 0x19002C
def FAB_IRQ_AGREE : Field := ⟨FAB_IRQ, 4, 1⟩
def FAB_IRQ_MEMBERS : Field := ⟨FAB_IRQ, 3, 1⟩
def FAB_IRQ_PORT : Field := ⟨FAB_IRQ, 2, 1⟩
def FAB_IRQ_RDONE : Field := ⟨FAB_IRQ, 1, 1⟩
def FAB_IRQ_STALE : Field := ⟨FAB_IRQ, 0, 1⟩
/-- Address of FAB_IEN. -/
def FAB_IEN : Nat := 0x190030
def FAB_IEN_EN : Field := ⟨FAB_IEN, 0, 5⟩
/-- Address of FAB_CNT. -/
def FAB_CNT : Nat := 0x190034
def FAB_CNT_STALECNT : Field := ⟨FAB_CNT, 24, 8⟩
def FAB_CNT_GAPCNT : Field := ⟨FAB_CNT, 16, 8⟩
def FAB_CNT_LATEDROP : Field := ⟨FAB_CNT, 8, 8⟩
def FAB_CNT_NOROUTE : Field := ⟨FAB_CNT, 0, 8⟩
/-- Address of FAB_RCTL. -/
def FAB_RCTL : Nat := 0x190040
def FAB_RCTL_GO : Field := ⟨FAB_RCTL, 31, 1⟩
def FAB_RCTL_DST : Field := ⟨FAB_RCTL, 24, 6⟩
def FAB_RCTL_OP : Field := ⟨FAB_RCTL, 22, 2⟩
def FAB_RCTL_N : Field := ⟨FAB_RCTL, 16, 3⟩
def FAB_RCTL_TAG : Field := ⟨FAB_RCTL, 8, 8⟩
/-- Address of FAB_RADDR. -/
def FAB_RADDR : Nat := 0x190044
def FAB_RADDR_ADDR : Field := ⟨FAB_RADDR, 0, 24⟩
/-- Address of FAB_RSTAT. -/
def FAB_RSTAT : Nat := 0x190048
def FAB_RSTAT_BUSY : Field := ⟨FAB_RSTAT, 31, 1⟩
def FAB_RSTAT_DONE : Field := ⟨FAB_RSTAT, 30, 1⟩
def FAB_RSTAT_STATUS : Field := ⟨FAB_RSTAT, 16, 8⟩
def FAB_RSTAT_TAG : Field := ⟨FAB_RSTAT, 8, 8⟩
/-- Address of FAB_RDATA. -/
def FAB_RDATA (n : Nat) : Nat := 0x190060 + n * 0x4
def FAB_RDATA_W (n : Nat) : Field := ⟨FAB_RDATA n, 0, 32⟩
/-- Address of FAB_ROLE. -/
def FAB_ROLE (n : Nat) : Nat := 0x19007C + n * 0x4
def FAB_ROLE_BIND (n : Nat) : Field := ⟨FAB_ROLE n, 30, 2⟩
def FAB_ROLE_RD (n : Nat) : Field := ⟨FAB_ROLE n, 29, 1⟩
def FAB_ROLE_WR (n : Nat) : Field := ⟨FAB_ROLE n, 28, 1⟩
def FAB_ROLE_ANCHOR (n : Nat) : Field := ⟨FAB_ROLE n, 16, 6⟩
def FAB_ROLE_PORT (n : Nat) : Field := ⟨FAB_ROLE n, 12, 2⟩
/-- Address of FAB_PCFG. -/
def FAB_PCFG (n : Nat) : Nat := 0x190100 + n * 0x40
def FAB_PCFG_EN (n : Nat) : Field := ⟨FAB_PCFG n, 31, 1⟩
/-- Address of FAB_PSTAT. -/
def FAB_PSTAT (n : Nat) : Nat := 0x190104 + n * 0x40
def FAB_PSTAT_STATE (n : Nat) : Field := ⟨FAB_PSTAT n, 29, 3⟩
def FAB_PSTAT_AERR (n : Nat) : Field := ⟨FAB_PSTAT n, 24, 4⟩
def FAB_PSTAT_PEER (n : Nat) : Field := ⟨FAB_PSTAT n, 16, 6⟩
def FAB_PSTAT_PEPOCH (n : Nat) : Field := ⟨FAB_PSTAT n, 0, 16⟩
/-- Address of FAB_PDLY. -/
def FAB_PDLY (n : Nat) : Nat := 0x190108 + n * 0x40
def FAB_PDLY_DLY (n : Nat) : Field := ⟨FAB_PDLY n, 0, 16⟩
/-- Address of FAB_PCNT. -/
def FAB_PCNT (n : Nat) : Nat := 0x19010C + n * 0x40
def FAB_PCNT_RESEND (n : Nat) : Field := ⟨FAB_PCNT n, 24, 8⟩
def FAB_PCNT_CRCERR (n : Nat) : Field := ⟨FAB_PCNT n, 16, 8⟩
def FAB_PCNT_DROP (n : Nat) : Field := ⟨FAB_PCNT n, 8, 8⟩
def FAB_PCNT_UPCNT (n : Nat) : Field := ⟨FAB_PCNT n, 0, 8⟩
/-- Address of FAB_PEER. -/
def FAB_PEER (n : Nat) : Nat := 0x1901FC + n * 0x4
def FAB_PEER_REACH (n : Nat) : Field := ⟨FAB_PEER n, 31, 1⟩
def FAB_PEER_AGREE (n : Nat) : Field := ⟨FAB_PEER n, 30, 1⟩
def FAB_PEER_STALE (n : Nat) : Field := ⟨FAB_PEER n, 29, 1⟩
def FAB_PEER_PORT (n : Nat) : Field := ⟨FAB_PEER n, 26, 2⟩
def FAB_PEER_METRIC (n : Nat) : Field := ⟨FAB_PEER n, 16, 8⟩
def FAB_PEER_EPOCH (n : Nat) : Field := ⟨FAB_PEER n, 0, 16⟩
/-- Address of FAB_FPR. -/
def FAB_FPR (n : Nat) (k : Nat) : Nat := 0x1907E0 + n * 0x20 + k * 0x4
def FAB_FPR_W (n : Nat) (k : Nat) : Field := ⟨FAB_FPR n k, 0, 32⟩
/-- Address of FAB_REPORT. -/
def FAB_REPORT (n : Nat) : Nat := 0x191800 + n * 0x4
def FAB_REPORT_W (n : Nat) : Field := ⟨FAB_REPORT n, 0, 32⟩
end R

/-- Registers of SYS. -/
def mapSYS : List RegRow := [
  ⟨0x000010, [], 0, 0x0, 0x0, 0x0, 0xF03FF, 0x0, false⟩,
  ⟨0x000014, [], 0, 0x0, 0x0, 0x0, 0xC0FFF1FF, 0x0, false⟩]
/-- Registers of PAT. -/
def mapPAT : List RegRow := [
  ⟨0x010000, [], 0, 0x0, 0x0, 0x0, 0xFFFF000F, 0xFFFF000F, false⟩,
  ⟨0x010004, [], 0, 0x6000000, 0x0, 0x100000, 0xFFF0FF00, 0x0, false⟩,
  ⟨0x010008, [], 0, 0x0, 0x0, 0x0, 0xFFFFFFF, 0x0, false⟩,
  ⟨0x01000C, [], 0, 0x0, 0x0, 0x0, 0xFFFFFFFF, 0xFFFFFFFF, false⟩,
  ⟨0x010010, [], 0, 0x0, 0x1FFFFF, 0x0, 0x1FFFFF, 0x0, false⟩,
  ⟨0x010014, [(2, 0x4)], 0, 0x0, 0x0, 0x0, 0x801FFFFF, 0x0, false⟩,
  ⟨0x010020, [(8, 0x4)], 0, 0x0, 0x0, 0x0, 0xFFFFFFFF, 0x0, false⟩,
  ⟨0x010040, [], 0, 0x0, 0x0, 0x0, 0xFFFF, 0x0, false⟩,
  ⟨0x010044, [], 0, 0x0, 0x0, 0x0, 0xFFFFFFFF, 0x0, false⟩,
  ⟨0x010048, [], 0, 0x0, 0x0, 0x0, 0xFFFFFFFF, 0x0, false⟩,
  ⟨0x01004C, [], 0, 0x0, 0x0, 0x0, 0xFFFFFFFF, 0x0, false⟩,
  ⟨0x010050, [], 0, 0x0, 0x0, 0x0, 0xFFFFFFFF, 0x0, false⟩]
/-- Registers of SEAM. -/
def mapSEAM : List RegRow := [
  ⟨0x020000, [], 0, 0x7F, 0x0, 0x0, 0xFF3FF07F, 0x0, false⟩,
  ⟨0x020004, [(2, 0x4)], 0, 0x0, 0x0, 0x0, 0xFFFFFFFF, 0x0, true⟩,
  ⟨0x02000C, [], 0, 0x0, 0x0, 0x0, 0x3F007F, 0x0, true⟩,
  ⟨0x020000, [(64, 0x40)], 1, 0x0, 0x0, 0x0, 0xFFFFFF7F, 0x0, true⟩,
  ⟨0x020004, [(64, 0x40)], 1, 0x0, 0x0, 0x0, 0x3F3F0000, 0x0, true⟩,
  ⟨0x020008, [(64, 0x40), (2, 0x4)], 1, 0x0, 0x0, 0x0, 0xFFFFFFFF, 0x0, true⟩,
  ⟨0x020010, [(64, 0x40), (4, 0x4)], 1, 0x80808080, 0x0, 0x0, 0xFFFFFFFF, 0x0, true⟩,
  ⟨0x020020, [(64, 0x40)], 1, 0x0, 0x1, 0x0, 0x1, 0x0, true⟩,
  ⟨0x020024, [(64, 0x40)], 1, 0x0, 0xFFFF, 0x0, 0x13FFFFF, 0x0, true⟩,
  ⟨0x020028, [(64, 0x40)], 1, 0x0, 0xFFFF, 0x0, 0x3FFFFF, 0x0, true⟩,
  ⟨0x02002C, [(64, 0x40)], 1, 0x0, 0x0, 0x20000000, 0xFEFFFFFF, 0x0, false⟩,
  ⟨0x020030, [(64, 0x40)], 1, 0x0, 0x0, 0x0, 0xFFFFFFFF, 0x0, false⟩]
/-- Registers of STI, part 1. -/
def mapSTI0 : List RegRow := [
  ⟨0x030000, [(96, 0x80)], 0, 0x303C0000, 0x0, 0x0, 0xF0FF0000, 0x0, true⟩,
  ⟨0x030004, [(96, 0x80)], 0, 0x300000A, 0x0, 0x0, 0xF3F007F, 0x0, true⟩,
  ⟨0x030008, [(96, 0x80)], 0, 0x18, 0x0, 0x0, 0xFF, 0x0, true⟩,
  ⟨0x03000C, [(96, 0x80)], 0, 0xF000F, 0x0, 0x0, 0x7F007F, 0x0, true⟩,
  ⟨0x030010, [(96, 0x80)], 0, 0x2140014, 0x0, 0x0, 0x3F3F003F, 0x0, true⟩,
  ⟨0x030014, [(96, 0x80)], 0, 0x14A000B, 0x0, 0x0, 0x1FF000F, 0x0, true⟩,
  ⟨0x030018, [(96, 0x80)], 0, 0x28282828, 0x0, 0x0, 0xFFFFFFFF, 0x0, true⟩,
  ⟨0x03001C, [(96, 0x80), (2, 0x4)], 0, 0x3F003F00, 0x0, 0x0, 0x3F3F3F3F, 0x0, true⟩,
  ⟨0x030024, [(96, 0x80)], 0, 0x100, 0x30F, 0x0, 0x30F, 0x0, true⟩,
  ⟨0x030028, [(96, 0x80)], 0, 0x20202020, 0x3F3F3F3F, 0x0, 0x3F3F3F3F, 0x0, true⟩,
  ⟨0x03002C, [(96, 0x80)], 0, 0x0, 0x0, 0x0, 0x3F, 0x0, false⟩,
  ⟨0x030030, [(96, 0x80)], 0, 0x0, 0x0, 0x0, 0xFFFF000F, 0xFFFF000F, false⟩,
  ⟨0x030034, [(96, 0x80)], 0, 0x0, 0x0, 0x80000, 0xFFFCFF00, 0x0, false⟩,
  ⟨0x030038, [(96, 0x80)], 0, 0x0, 0x0, 0x0, 0xFFFF0FFF, 0x0, false⟩,
  ⟨0x03003C, [(96, 0x80)], 0, 0x0, 0x0, 0x0, 0x7F7F3F00, 0x0, false⟩,
  ⟨0x030040, [(96, 0x80)], 0, 0x0, 0x0, 0x0, 0xFFFFFFFF, 0x0, false⟩,
  ⟨0x030044, [(96, 0x80)], 0, 0x0, 0x0, 0x0, 0xFFFFFFFF, 0x0, false⟩,
  ⟨0x030048, [(96, 0x80)], 0, 0x0, 0x0, 0x1FFFF, 0x1FFFF, 0x0, false⟩,
  ⟨0x03004C, [(96, 0x80)], 0, 0x0, 0x0, 0x0, 0xFFFFFFFF, 0x0, false⟩,
  ⟨0x030050, [(96, 0x80)], 0, 0x0, 0x0, 0x0, 0xC0FFFFFF, 0x0, false⟩]
/-- Registers of STI, part 2. -/
def mapSTI1 : List RegRow := [
  ⟨0x030054, [(96, 0x80)], 0, 0x0, 0x0, 0x0, 0xFFFFFFFF, 0x0, false⟩,
  ⟨0x03F000, [(3, 0x4)], 0, 0x0, 0x0, 0x0, 0xFFFFFFFF, 0x0, false⟩,
  ⟨0x03F00C, [], 0, 0x0, 0x0, 0x40000000, 0xC07FFFFF, 0x0, false⟩,
  ⟨0x03F010, [(3, 0x4)], 0, 0x0, 0x0, 0x0, 0xFFFFFFFF, 0x0, false⟩,
  ⟨0x03F020, [], 0, 0x0, 0x0, 0x0, 0xFFFF000F, 0xFFFF000F, false⟩]
/-- Registers of STI. -/
def mapSTI : List RegRow := mapSTI0 ++ mapSTI1
/-- Registers of MOD. -/
def mapMOD : List RegRow := [
  ⟨0x040000, [], 0, 0x0, 0x0, 0x0, 0x3F0000, 0x0, true⟩,
  ⟨0x040004, [], 0, 0x0, 0x0, 0x30000000, 0xF0000000, 0x0, false⟩,
  ⟨0x040008, [], 0, 0x0, 0x0, 0x0, 0x3FFFFF, 0x0, false⟩,
  ⟨0x041000, [(64, 0x20)], 1, 0x0, 0x7FFFFF, 0x0, 0xE07FFFFF, 0x0, true⟩,
  ⟨0x041004, [(64, 0x20)], 1, 0x0, 0xFFFF, 0x0, 0x3FFFFF, 0x0, true⟩,
  ⟨0x041008, [(64, 0x20)], 1, 0x0, 0x0, 0x0, 0xFFFFFFFF, 0x0, true⟩,
  ⟨0x04100C, [(64, 0x20)], 1, 0x0, 0x0, 0x0, 0xFFF3FFFF, 0x0, true⟩,
  ⟨0x041010, [(64, 0x20)], 1, 0x8000010, 0x0, 0x0, 0xFFFFF0FF, 0x0, true⟩,
  ⟨0x041014, [(64, 0x20)], 1, 0x80000000, 0x0, 0x0, 0xFFFFFFFF, 0x0, true⟩,
  ⟨0x041018, [(64, 0x20)], 1, 0x0, 0x0, 0x0, 0xFFE00FFF, 0x0, false⟩,
  ⟨0x04101C, [(64, 0x20)], 1, 0x0, 0x0, 0x0, 0xFFFFFFFF, 0x0, false⟩]
/-- Registers of CTX, part 1. -/
def mapCTX0 : List RegRow := [
  ⟨0x050000, [], 0, 0x0, 0x0, 0x0, 0x3FF03FF, 0x0, false⟩,
  ⟨0x050004, [(2, 0x4)], 0, 0x0, 0x0, 0x0, 0xFFFFFFFF, 0x0, false⟩,
  ⟨0x05000C, [(2, 0x4)], 0, 0x0, 0x0, 0x0, 0xFFFFFFFF, 0x0, false⟩,
  ⟨0x050014, [(2, 0x4)], 0, 0x0, 0x0, 0x0, 0xFFFFFFFF, 0x0, false⟩,
  ⟨0x05001C, [], 0, 0x0, 0x0, 0x1, 0x1, 0x0, false⟩,
  ⟨0x050000, [(64, 0x100)], 1, 0x0, 0x0, 0x0, 0xFEFF0FFF, 0x0, true⟩,
  ⟨0x050004, [(64, 0x100), (6, 0x4)], 1, 0x0, 0x0, 0x0, 0xFFC001FF, 0x0, true⟩,
  ⟨0x05001C, [(64, 0x100)], 1, 0x0, 0x0, 0x0, 0xF03F0000, 0x0, true⟩,
  ⟨0x050020, [(64, 0x100)], 1, 0x0, 0x0, 0x0, 0xFFFFFFFF, 0x0, true⟩,
  ⟨0x050024, [(64, 0x100)], 1, 0x7FFF8000, 0xFFFFFFFF, 0x0, 0xFFFFFFFF, 0x0, true⟩,
  ⟨0x050028, [(64, 0x100)], 1, 0x0, 0xFFFF, 0x0, 0xFF00FFFF, 0x0, true⟩,
  ⟨0x05002C, [(64, 0x100)], 1, 0x7FFF8000, 0xFFFFFFFF, 0x0, 0xFFFFFFFF, 0x0, true⟩,
  ⟨0x050030, [(64, 0x100)], 1, 0x0, 0xFFFF, 0x0, 0xFFFF, 0x0, true⟩,
  ⟨0x050034, [(64, 0x100)], 1, 0x0, 0xFFFF, 0x0, 0xFFFF, 0x0, true⟩,
  ⟨0x050038, [(64, 0x100)], 1, 0x0, 0xFFFF, 0x0, 0xFFFF, 0x0, true⟩,
  ⟨0x05003C, [(64, 0x100)], 1, 0x0, 0x1, 0x0, 0x3, 0x2, true⟩,
  ⟨0x050040, [(64, 0x100), (20, 0x4)], 1, 0x0, 0xFFFFF, 0x0, 0xFFFFF, 0x0, true⟩,
  ⟨0x050090, [(64, 0x100)], 1, 0x0, 0x0, 0x18000000, 0xFFFF8FFF, 0x0, false⟩,
  ⟨0x050094, [(64, 0x100)], 1, 0x0, 0x0, 0x0, 0xFFFFFFFF, 0x0, false⟩,
  ⟨0x050098, [(64, 0x100)], 1, 0x0, 0x0, 0x0, 0xFFFFFFFF, 0x0, false⟩]
/-- Registers of CTX, part 2. -/
def mapCTX1 : List RegRow := [
  ⟨0x05009C, [(64, 0x100)], 1, 0x0, 0x0, 0x0, 0xFFFFFFFF, 0x0, false⟩,
  ⟨0x0500A0, [(64, 0x100)], 1, 0x0, 0x0, 0x0, 0xFFFFFFFF, 0x0, false⟩,
  ⟨0x0500A4, [(64, 0x100)], 1, 0x0, 0x0, 0x0, 0x7FFFFF, 0x0, true⟩,
  ⟨0x0500A8, [(64, 0x100)], 1, 0x0, 0x0, 0x0, 0xFFFFFFFF, 0x0, false⟩]
/-- Registers of CTX. -/
def mapCTX : List RegRow := mapCTX0 ++ mapCTX1
/-- Registers of PLT. -/
def mapPLT : List RegRow := [
  ⟨0x060000, [], 0, 0x0, 0x0, 0x0, 0x3FFFF, 0x0, true⟩,
  ⟨0x060000, [(64, 0x20)], 1, 0x0, 0x0, 0x0, 0xFFFBFFFF, 0x0, true⟩,
  ⟨0x060004, [(64, 0x20)], 1, 0x0, 0x0, 0x0, 0xFFFF0FFF, 0x0, true⟩,
  ⟨0x060008, [(64, 0x20)], 1, 0x0, 0xFFFF00FF, 0x0, 0xFFFF00FF, 0x0, true⟩,
  ⟨0x06000C, [(64, 0x20)], 1, 0x7FFF0000, 0xFFFFFFFF, 0x0, 0xFFFFFFFF, 0x0, true⟩,
  ⟨0x060010, [(64, 0x20)], 1, 0x0, 0x3F07, 0x0, 0x3F07, 0x0, true⟩,
  ⟨0x060014, [(64, 0x20)], 1, 0x0, 0x0, 0x10000000, 0xFC01FFFF, 0x0, false⟩,
  ⟨0x060018, [(64, 0x20)], 1, 0x0, 0x0, 0x0, 0xFFFF1FFF, 0x0, false⟩,
  ⟨0x06001C, [(64, 0x20)], 1, 0x0, 0x0, 0x0, 0xFFFFFFFF, 0x0, false⟩]
/-- Registers of ACQ. -/
def mapACQ : List RegRow := [
  ⟨0x070000, [], 0, 0x0, 0x0, 0x0, 0xFFFFF, 0x0, false⟩,
  ⟨0x070004, [], 0, 0x0, 0x0, 0xFFFFFF, 0xFFFFFF, 0x0, false⟩,
  ⟨0x070008, [], 0, 0x0, 0xFFFFFF, 0x0, 0xFFFFFF, 0x0, true⟩,
  ⟨0x07000C, [], 0, 0x0, 0x0, 0xFFFF, 0xFFFF, 0x0, false⟩,
  ⟨0x070010, [(4, 0x4)], 0, 0x0, 0x0, 0x0, 0xFFC0FFFF, 0x0, false⟩,
  ⟨0x070100, [(16, 0x10)], 0, 0x0, 0x0, 0x0, 0xFFCF003F, 0x0, true⟩,
  ⟨0x070104, [(16, 0x10)], 0, 0x0, 0x1, 0x0, 0x3, 0x2, true⟩,
  ⟨0x070108, [(16, 0x10)], 0, 0x0, 0x0, 0x0, 0xFF1F803F, 0x0, false⟩,
  ⟨0x07010C, [(16, 0x10)], 0, 0x0, 0x0, 0x0, 0xFFFFFFFF, 0x0, false⟩,
  ⟨0x070200, [(8, 0x10)], 0, 0x0, 0x0, 0x0, 0xFF033F00, 0x0, true⟩,
  ⟨0x070204, [(8, 0x10)], 0, 0x0, 0x1, 0x0, 0x3, 0x2, true⟩,
  ⟨0x070208, [(8, 0x10)], 0, 0x0, 0x0, 0x0, 0xFFFFFFFF, 0x0, false⟩,
  ⟨0x07020C, [(8, 0x10)], 0, 0x0, 0x0, 0x0, 0xFFFF, 0x0, false⟩,
  ⟨0x071000, [(512, 0x4)], 0, 0x0, 0x0, 0x0, 0xFFFF8000, 0x0, true⟩,
  ⟨0x072000, [(512, 0x4)], 0, 0x0, 0x0, 0x0, 0xFFFFFFFF, 0x0, false⟩]
/-- Registers of WIN. -/
def mapWIN : List RegRow := [
  ⟨0x080000, [(2, 0x4)], 0, 0x0, 0x0, 0x0, 0xFFFFFFFF, 0x0, false⟩,
  ⟨0x080008, [(2, 0x4)], 0, 0x0, 0x0, 0x0, 0xFFFFFFFF, 0x0, false⟩,
  ⟨0x081000, [(64, 0x20)], 0, 0x8000, 0x0, 0x0, 0xFEFCFF3F, 0x0, true⟩,
  ⟨0x081004, [(64, 0x20)], 0, 0x0, 0x0, 0x0, 0x3F0000FF, 0x0, true⟩,
  ⟨0x081008, [(64, 0x20)], 0, 0x3FF0000, 0x3FF03FF, 0x0, 0x3FF03FF, 0x0, true⟩,
  ⟨0x08100C, [(64, 0x20)], 0, 0x0, 0x1, 0x0, 0x1, 0x0, true⟩,
  ⟨0x081010, [(64, 0x20)], 0, 0x0, 0x0, 0x86000000, 0xFE000000, 0x0, false⟩,
  ⟨0x081014, [(64, 0x20)], 0, 0x0, 0x0, 0x0, 0xFFFFFFFF, 0x0, false⟩]
/-- Registers of GRD, part 1. -/
def mapGRD0 : List RegRow := [
  ⟨0x090000, [], 0, 0x0, 0x0, 0x0, 0xFFFF8000, 0x0, true⟩,
  ⟨0x090004, [], 0, 0x0, 0x0, 0x0, 0x1FF01FF, 0x0, true⟩,
  ⟨0x090008, [], 0, 0x0, 0x0, 0x0, 0x1FF01FF, 0x0, true⟩,
  ⟨0x09000C, [], 0, 0x0, 0x0, 0x0, 0x1FF01FF, 0x0, true⟩,
  ⟨0x090010, [], 0, 0x0, 0x0, 0x0, 0x8000FFFF, 0x0, true⟩,
  ⟨0x090014, [], 0, 0x0, 0x0, 0x0, 0xFFFF0FFF, 0x0, true⟩,
  ⟨0x090018, [], 0, 0x0, 0x0, 0x0, 0xFFFF03FF, 0x0, true⟩,
  ⟨0x09001C, [], 0, 0x0, 0x0, 0x0, 0xFFFF0000, 0x0, true⟩,
  ⟨0x090020, [], 0, 0x0, 0x0, 0x0, 0x3FFFFFF, 0x0, true⟩,
  ⟨0x090024, [], 0, 0x0, 0x0, 0x0, 0xE07FFFFF, 0x0, true⟩,
  ⟨0x090028, [], 0, 0x0, 0x0, 0x0, 0x1FFF, 0x0, true⟩,
  ⟨0x09002C, [], 0, 0x0, 0x0, 0x0, 0xFFFFFFFF, 0x0, true⟩,
  ⟨0x090030, [], 0, 0x0, 0x0, 0x0, 0xF0FFFFFF, 0x0, true⟩,
  ⟨0x090034, [], 0, 0x0, 0x0, 0x0, 0xFFFFFFFF, 0x0, true⟩,
  ⟨0x090038, [], 0, 0x0, 0x0, 0x0, 0x1FFF1FFF, 0x0, true⟩,
  ⟨0x09003C, [], 0, 0x0, 0x0, 0x0, 0x1FFF1FFF, 0x0, true⟩,
  ⟨0x090040, [], 0, 0x0, 0x3FF, 0x0, 0x3FF, 0x0, true⟩,
  ⟨0x090044, [], 0, 0x0, 0x1FFF1FFF, 0x0, 0x1FFF1FFF, 0x0, true⟩,
  ⟨0x090048, [], 0, 0x0, 0x0, 0x0, 0xFFFF00FF, 0x0, true⟩,
  ⟨0x09004C, [], 0, 0x0, 0xFFFFFFFF, 0x0, 0xFFFFFFFF, 0x0, true⟩]
/-- Registers of GRD, part 2. -/
def mapGRD1 : List RegRow := [
  ⟨0x090080, [], 0, 0x0, 0x0, 0xC0200000, 0xFFE00000, 0x0, false⟩,
  ⟨0x090084, [], 0, 0x0, 0x0, 0x0, 0xCFC00000, 0x0, false⟩,
  ⟨0x090088, [], 0, 0x0, 0x0, 0x0, 0x1FFFF, 0x0, false⟩,
  ⟨0x09008C, [], 0, 0x0, 0x0, 0x0, 0xFFFF, 0x0, false⟩,
  ⟨0x090090, [], 0, 0x0, 0x0, 0x0, 0xFFFFFFFF, 0x0, false⟩,
  ⟨0x090094, [], 0, 0x0, 0x0, 0x0, 0x1FFF1FFF, 0x0, false⟩,
  ⟨0x090098, [], 0, 0x0, 0x0, 0x0, 0x1FFF1FFF, 0x0, false⟩,
  ⟨0x09009C, [], 0, 0x0, 0x0, 0x0, 0xFFFFFFFF, 0x0, false⟩,
  ⟨0x0900A0, [], 0, 0x0, 0x0, 0x0, 0x3FF, 0x0, false⟩,
  ⟨0x090100, [(32, 0x4)], 0, 0x0, 0x0, 0x0, 0xFFFF, 0x0, false⟩,
  ⟨0x090200, [(16, 0x4)], 0, 0x0, 0x0, 0x0, 0xFFFFFFFF, 0x0, true⟩,
  ⟨0x090240, [(16, 0x4)], 0, 0x0, 0x0, 0x0, 0xFFFFFFFF, 0x0, true⟩]
/-- Registers of GRD. -/
def mapGRD : List RegRow := mapGRD0 ++ mapGRD1
/-- Registers of MTR, part 1. -/
def mapMTR0 : List RegRow := [
  ⟨0x0A0000, [], 0, 0x0, 0x1, 0x0, 0xF03, 0xF02, true⟩,
  ⟨0x0A0004, [], 0, 0x0, 0x0, 0x30000000, 0xF8000000, 0x0, false⟩,
  ⟨0x0A0008, [], 0, 0xF, 0x3F, 0x0, 0x3F, 0x0, true⟩,
  ⟨0x0A000C, [], 0, 0x0, 0x0, 0x0, 0x1FFF000F, 0x0, false⟩,
  ⟨0x0A0010, [], 0, 0x0, 0x0, 0x0, 0xFFFFFFFF, 0x0, false⟩,
  ⟨0x0A0014, [], 0, 0x0, 0x0, 0x0, 0xFFFF, 0x0, false⟩,
  ⟨0x0A1000, [(4, 0x100)], 0, 0x0, 0xE03F3FFF, 0x0, 0xE03F3FFF, 0x0, true⟩,
  ⟨0x0A1004, [(4, 0x100)], 0, 0x0, 0xFFFFFFFF, 0x0, 0xFFFFFFFF, 0x0, true⟩,
  ⟨0x0A1008, [(4, 0x100)], 0, 0x0, 0xFFFFFFFF, 0x0, 0xFFFFFFFF, 0x0, true⟩,
  ⟨0x0A100C, [(4, 0x100)], 0, 0x0, 0xFFFF, 0x0, 0xFFFF, 0x0, true⟩,
  ⟨0x0A1010, [(4, 0x100), (8, 0x4)], 0, 0x0, 0xFFFF, 0x0, 0xFFFF, 0x0, true⟩,
  ⟨0x0A1030, [(4, 0x100), (8, 0x4)], 0, 0x0, 0xFFFFFFFF, 0x0, 0xFFFFFFFF, 0x0, true⟩,
  ⟨0x0A1050, [(4, 0x100)], 0, 0x0, 0x0, 0x0, 0xFE000000, 0x0, false⟩,
  ⟨0x0A1054, [(4, 0x100)], 0, 0x0, 0x0, 0x0, 0xFFFFFF, 0x0, false⟩,
  ⟨0x0A1058, [(4, 0x100)], 0, 0x0, 0x0, 0x0, 0xFFFFFF, 0x0, false⟩,
  ⟨0x0A105C, [(4, 0x100)], 0, 0x0, 0x0, 0x0, 0xFFFFFFFF, 0x0, false⟩,
  ⟨0x0A1060, [(4, 0x100)], 0, 0x0, 0x0, 0x0, 0xFFFFFFFF, 0x0, false⟩,
  ⟨0x0A1064, [(4, 0x100)], 0, 0x0, 0x0, 0x0, 0xFFFF, 0x0, false⟩,
  ⟨0x0A1068, [(4, 0x100)], 0, 0x0, 0x0, 0x0, 0xFFFFFFFF, 0x0, false⟩,
  ⟨0x0A1080, [(4, 0x100), (8, 0x8)], 0, 0x0, 0x0, 0x0, 0xFFFFFFFF, 0x0, false⟩]
/-- Registers of MTR, part 2. -/
def mapMTR1 : List RegRow := [
  ⟨0x0A1084, [(4, 0x100), (8, 0x8)], 0, 0x0, 0x0, 0x0, 0xFFFFFFFF, 0x0, false⟩,
  ⟨0x0A10C0, [(4, 0x100), (8, 0x8)], 0, 0x0, 0x0, 0x0, 0xFFFFFFFF, 0x0, false⟩,
  ⟨0x0A10C4, [(4, 0x100), (8, 0x8)], 0, 0x0, 0x0, 0x100, 0x1FF, 0x0, false⟩]
/-- Registers of MTR. -/
def mapMTR : List RegRow := mapMTR0 ++ mapMTR1
/-- Registers of SAF, part 1. -/
def mapSAF0 : List RegRow := [
  ⟨0x0B0000, [], 0, 0x0, 0x0, 0x0, 0xFE7F00FF, 0x0, true⟩,
  ⟨0x0B0004, [], 0, 0x0, 0x0, 0x0, 0xFFFF0003, 0xFFFF0003, false⟩,
  ⟨0x0B0008, [], 0, 0x80000000, 0x0, 0x2000000, 0xFFFE0000, 0x0, false⟩,
  ⟨0x0B000C, [], 0, 0x1, 0x0, 0x0, 0x1F07FF, 0x0, false⟩,
  ⟨0x0B0010, [], 0, 0x0, 0x0, 0x20000000, 0xE0FFFFFF, 0x0, false⟩,
  ⟨0x0B0014, [], 0, 0x0, 0x0, 0x0, 0xC000FFFF, 0x0, true⟩,
  ⟨0x0B0018, [], 0, 0x0, 0x0, 0x0, 0xF0FF0FFF, 0x0, false⟩,
  ⟨0x0B001C, [], 0, 0x0, 0x0, 0x0, 0xFFFFFFFF, 0x0, false⟩,
  ⟨0x0B0020, [(4, 0x4)], 0, 0x0, 0x0, 0x0, 0xEF0001FF, 0x0, true⟩,
  ⟨0x0B0030, [(4, 0x4)], 0, 0x0, 0x0, 0x0, 0xFFF01FFF, 0x0, false⟩,
  ⟨0x0B0040, [(4, 0x4)], 0, 0x0, 0x0, 0x0, 0xE00000FF, 0x0, true⟩,
  ⟨0x0B0050, [], 0, 0x0, 0xF, 0x0, 0xFFF0F, 0x0, false⟩,
  ⟨0x0B0080, [(4, 0x20)], 0, 0x0, 0x0, 0x0, 0xF00000FF, 0x0, true⟩,
  ⟨0x0B0084, [(4, 0x20)], 0, 0x0, 0x0, 0x0, 0x1FFFFFFF, 0x0, true⟩,
  ⟨0x0B0088, [(4, 0x20)], 0, 0x50000, 0x0, 0x0, 0xFFFF0003, 0x0, true⟩,
  ⟨0x0B008C, [(4, 0x20)], 0, 0x0, 0x0, 0x0, 0xF8FFFF00, 0x0, false⟩,
  ⟨0x0B0090, [(4, 0x20)], 0, 0x0, 0x0, 0x0, 0xFFFFFFFF, 0x0, false⟩,
  ⟨0x0B0094, [(4, 0x20)], 0, 0x0, 0x0, 0x0, 0xFFFFFFFF, 0x0, false⟩,
  ⟨0x0B0098, [(4, 0x20)], 0, 0x0, 0x0, 0x0, 0xFFFFFFFF, 0x0, false⟩,
  ⟨0x0B0100, [], 0, 0x0, 0x0, 0x0, 0xDFFFFFFF, 0x0, true⟩]
/-- Registers of SAF, part 2. -/
def mapSAF1 : List RegRow := [
  ⟨0x0B0104, [], 0, 0x0, 0x0, 0x0, 0xFF0000FF, 0x0, true⟩]
/-- Registers of SAF. -/
def mapSAF : List RegRow := mapSAF0 ++ mapSAF1
/-- Registers of FLT, part 1. -/
def mapFLT0 : List RegRow := [
  ⟨0x0C0000, [], 0, 0x0, 0x0, 0x6000000, 0xFEFFFFFF, 0x0, false⟩,
  ⟨0x0C0004, [], 0, 0x0, 0x0, 0x0, 0x1, 0x0, true⟩,
  ⟨0x0C0008, [], 0, 0x0, 0x0, 0x0, 0xFFFF000F, 0xFFFF000F, false⟩,
  ⟨0x0C000C, [], 0, 0x0, 0xFFFF, 0x0, 0xFFFF, 0x0, false⟩,
  ⟨0x0C0010, [], 0, 0x0, 0x0, 0x0, 0xF9FFFFFF, 0x0, false⟩,
  ⟨0x0C0014, [], 0, 0x1, 0x0, 0x0, 0xFFFFFFFF, 0x0, false⟩,
  ⟨0x0C0018, [], 0, 0x0, 0xFFFFFFFF, 0x0, 0xFFFFFFFF, 0x0, false⟩,
  ⟨0x0C001C, [], 0, 0x0, 0x0, 0x0, 0xFFFF00FF, 0x0, false⟩,
  ⟨0x0C0020, [], 0, 0x0, 0x0, 0x0, 0x1F00FF, 0x0, false⟩,
  ⟨0x0C0024, [], 0, 0x0, 0x0, 0x0, 0xFFFFFFFF, 0x0, false⟩,
  ⟨0x0C0100, [(25, 0x10)], 1, 0x0, 0x0, 0x0, 0xFFF8FF00, 0x0, true⟩,
  ⟨0x0C0104, [(25, 0x10)], 1, 0x0, 0x0, 0x0, 0xFFFFFFFF, 0x0, true⟩,
  ⟨0x0C0108, [(25, 0x10)], 1, 0x0, 0x0, 0x0, 0xFFFFFF, 0x0, true⟩,
  ⟨0x0C0400, [(25, 0x20)], 1, 0x0, 0x0, 0x80000000, 0xE000FFFF, 0x0, false⟩,
  ⟨0x0C0404, [(25, 0x20)], 1, 0x0, 0x0, 0x0, 0xFFE0FFFF, 0x0, false⟩,
  ⟨0x0C0408, [(25, 0x20)], 1, 0x0, 0x0, 0x0, 0xFFFFFFFF, 0x0, false⟩,
  ⟨0x0C040C, [(25, 0x20)], 1, 0x0, 0x0, 0x0, 0xFFFFFFFF, 0x0, false⟩,
  ⟨0x0C0410, [(25, 0x20)], 1, 0x0, 0x0, 0x0, 0xFFE0FFFF, 0x0, false⟩,
  ⟨0x0C0414, [(25, 0x20)], 1, 0x0, 0x0, 0x0, 0xFFFFFFFF, 0x0, false⟩,
  ⟨0x0C0418, [(25, 0x20)], 1, 0x0, 0x0, 0x0, 0xFFFFFFFF, 0x0, false⟩]
/-- Registers of FLT, part 2. -/
def mapFLT1 : List RegRow := [
  ⟨0x0C041C, [(25, 0x20)], 1, 0x0, 0x0, 0x0, 0xFFFF, 0x0, false⟩,
  ⟨0x0C1000, [(256, 0x10), (4, 0x4)], 0, 0x0, 0x0, 0x0, 0xFFFFFFFF, 0x0, false⟩]
/-- Registers of FLT. -/
def mapFLT : List RegRow := mapFLT0 ++ mapFLT1
/-- Registers of OVL. -/
def mapOVL : List RegRow := [
  ⟨0x0D0000, [(16, 0x40)], 0, 0x18200000, 0x187F0000, 0x0, 0xF87F0000, 0x0, true⟩,
  ⟨0x0D0004, [(16, 0x40)], 0, 0x4C11DB7, 0xFFFFFFFF, 0x0, 0xFFFFFFFF, 0x0, true⟩,
  ⟨0x0D0008, [(16, 0x40)], 0, 0x0, 0xFFFFFFFF, 0x0, 0xFFFFFFFF, 0x0, true⟩,
  ⟨0x0D000C, [(16, 0x40)], 0, 0xFFFFFFFF, 0xFFFFFFFF, 0x0, 0xFFFFFFFF, 0x0, true⟩,
  ⟨0x0D0010, [(16, 0x40)], 0, 0x0, 0xFFFFFFFF, 0x0, 0xFFFFFFFF, 0x0, true⟩,
  ⟨0x0D0014, [(16, 0x40)], 0, 0xFFFFFFFF, 0xFFFFFFFF, 0x0, 0xFFFFFFFF, 0x0, true⟩,
  ⟨0x0D0018, [(16, 0x40)], 0, 0x0, 0xFFFFFFFF, 0x0, 0xFFFFFFFF, 0x0, true⟩,
  ⟨0x0D001C, [(16, 0x40)], 0, 0x0, 0x0, 0x0, 0x3, 0x3, false⟩,
  ⟨0x0D0020, [(16, 0x40)], 0, 0x0, 0x0, 0x0, 0xFFFFFFFF, 0xFFFFFFFF, false⟩,
  ⟨0x0D0024, [(16, 0x40)], 0, 0x0, 0x0, 0x0, 0xFF, 0xFF, false⟩,
  ⟨0x0D0028, [(16, 0x40)], 0, 0x0, 0x0, 0x0, 0xFFFFFFFF, 0x0, false⟩,
  ⟨0x0D002C, [(16, 0x40)], 0, 0x0, 0x0, 0x0, 0xFFFFFFFF, 0x0, false⟩,
  ⟨0x0D0030, [(16, 0x40)], 0, 0x0, 0x0, 0xC000000, 0xFCFFFFFF, 0x0, false⟩,
  ⟨0x0D0034, [(16, 0x40)], 0, 0x40000001, 0xEF00FFFF, 0x0, 0xEF00FFFF, 0x0, true⟩,
  ⟨0x0D0038, [(16, 0x40)], 0, 0x0, 0x0, 0x0, 0xFFFF, 0xFFFF, false⟩,
  ⟨0x0D003C, [(16, 0x40)], 0, 0x0, 0x0, 0x10000000, 0xF0FFFFFF, 0x0, false⟩,
  ⟨0x0D1000, [(16, 0x4)], 0, 0x0, 0x0, 0x0, 0xFF, 0x0, false⟩]
/-- Registers of IDN. -/
def mapIDN : List RegRow := [
  ⟨0x0E0000, [], 0, 0x0, 0x0, 0x42000000, 0xFE0F00FF, 0x0, false⟩,
  ⟨0x0E0004, [], 0, 0x0, 0x0, 0x0, 0xFFFF000F, 0xFFFF000F, false⟩,
  ⟨0x0E0008, [], 0, 0x0, 0x0, 0x0, 0xFFFFFFFF, 0x0, false⟩,
  ⟨0x0E000C, [], 0, 0x0, 0x0, 0x0, 0xFFFFFFFF, 0x0, false⟩,
  ⟨0x0E0010, [(8, 0x4)], 0, 0x0, 0x0, 0x0, 0xFFFFFFFF, 0x0, false⟩,
  ⟨0x0E0030, [(8, 0x4)], 0, 0x0, 0xFFFFFFFF, 0x0, 0xFFFFFFFF, 0x0, false⟩,
  ⟨0x0E0050, [(8, 0x4)], 0, 0x0, 0xFFFFFFFF, 0x0, 0xFFFFFFFF, 0x0, false⟩,
  ⟨0x0E0070, [(8, 0x4)], 0, 0x0, 0x0, 0x0, 0xFFFFFFFF, 0x0, false⟩,
  ⟨0x0E0090, [], 0, 0x0, 0x0, 0x0, 0x7FF07FF, 0x0, false⟩,
  ⟨0x0E0094, [], 0, 0x0, 0x0, 0x0, 0xFFFFFFFF, 0x0, false⟩,
  ⟨0x0E00A0, [(8, 0x4)], 0, 0x0, 0x0, 0x0, 0xFFFFFFFF, 0x0, false⟩,
  ⟨0x0E00C0, [(8, 0x4)], 0, 0x0, 0x0, 0x0, 0xFFFFFFFF, 0x0, false⟩,
  ⟨0x0E1000, [(256, 0x4)], 0, 0x0, 0x0, 0x0, 0xFFFFFFFF, 0x0, false⟩,
  ⟨0x0E1400, [(256, 0x4)], 0, 0x0, 0x0, 0x0, 0xFFFFFFFF, 0x0, false⟩,
  ⟨0x0E1800, [(48, 0x4)], 0, 0x0, 0x0, 0x0, 0xFFFFFFFF, 0x0, false⟩]
/-- Registers of PWR, part 1. -/
def mapPWR0 : List RegRow := [
  ⟨0x0F0000, [], 0, 0x40101, 0x0, 0x0, 0x800F0F0F, 0x0, false⟩,
  ⟨0x0F0004, [], 0, 0x0, 0x0, 0x0, 0xFFFF000F, 0xFFFF000F, false⟩,
  ⟨0x0F0008, [], 0, 0x8000000, 0x0, 0x83000000, 0xFF0F00FF, 0x0, false⟩,
  ⟨0x0F000C, [], 0, 0x1, 0x0, 0x0, 0xFF, 0x0, false⟩,
  ⟨0x0F0010, [], 0, 0x0, 0x0, 0x0, 0xF8000000, 0x0, false⟩,
  ⟨0x0F0014, [], 0, 0x320081, 0xFCFF00FF, 0x0, 0xFCFF00FF, 0x0, false⟩,
  ⟨0x0F0018, [], 0, 0x0, 0xFFF, 0x0, 0xFFF, 0x0, false⟩,
  ⟨0x0F001C, [], 0, 0x0, 0x0, 0x0, 0xFFFF01FF, 0x0, false⟩,
  ⟨0x0F0020, [], 0, 0x0, 0xFFFFFFF, 0x0, 0xFFFFFFF, 0x0, false⟩,
  ⟨0x0F0024, [], 0, 0x0, 0x1FFFFFF, 0x0, 0x1FFFFFF, 0x0, false⟩,
  ⟨0x0F0028, [], 0, 0x0, 0xFFFFFFFF, 0x0, 0xFFFFFFFF, 0x0, false⟩,
  ⟨0x0F002C, [], 0, 0x0, 0xFFFFFFFF, 0x0, 0xFFFFFFFF, 0x0, false⟩,
  ⟨0x0F0030, [], 0, 0x0, 0xFFFF00FF, 0x0, 0xFFFF00FF, 0x0, false⟩,
  ⟨0x0F0034, [], 0, 0x0, 0x0, 0x60000000, 0xE000FFFF, 0x0, false⟩,
  ⟨0x0F0038, [], 0, 0x0, 0x0, 0x0, 0xFBFFFFFF, 0x0, false⟩,
  ⟨0x0F003C, [], 0, 0x0, 0x0, 0x0, 0xFFFFFFF, 0x0, false⟩,
  ⟨0x0F0040, [], 0, 0x30000000, 0x0, 0x0, 0xF3FFFFFF, 0x0, false⟩,
  ⟨0x0F0044, [], 0, 0x0, 0x0, 0x0, 0xFFFFFFFF, 0x0, false⟩,
  ⟨0x0F0048, [], 0, 0x0, 0x0, 0x0, 0xFFFFFFFF, 0x0, false⟩,
  ⟨0x0F004C, [], 0, 0x0, 0x0, 0x0, 0xFFFFFFFF, 0xFFFFFFFF, false⟩]
/-- Registers of PWR, part 2. -/
def mapPWR1 : List RegRow := [
  ⟨0x0F0050, [], 0, 0x0, 0x0, 0x0, 0xFFFFFFFF, 0xFFFFFFFF, false⟩,
  ⟨0x0F0054, [], 0, 0x0, 0xFFFFFFFF, 0x0, 0xFFFFFFFF, 0x0, false⟩,
  ⟨0x0F0058, [], 0, 0x0, 0xFFFFFFFF, 0x0, 0xFFFFFFFF, 0x0, false⟩,
  ⟨0x0F8000, [], 0, 0xF13C000F, 0xFFFF001F, 0x0, 0xFFFF001F, 0x0, false⟩,
  ⟨0x0F8004, [], 0, 0x3E8, 0x1FFF, 0x0, 0x1FFF, 0x0, false⟩,
  ⟨0x0F8008, [], 0, 0x7D0012C, 0xFFFFFFFF, 0x0, 0xFFFFFFFF, 0x0, false⟩,
  ⟨0x0F800C, [], 0, 0x190, 0xFFFF, 0x0, 0xFFFF, 0x0, false⟩,
  ⟨0x0F8010, [], 0, 0x0, 0x0, 0x0, 0xDFFFFFFF, 0x0, false⟩,
  ⟨0x0F8014, [], 0, 0x0, 0x0, 0x1800000, 0xFF800003, 0x0, false⟩,
  ⟨0x0F8018, [], 0, 0x3E8, 0x0, 0x0, 0x1FFF1FFF, 0x0, false⟩,
  ⟨0x0F801C, [], 0, 0x0, 0x0, 0x0, 0xFF00FFFF, 0x0, false⟩,
  ⟨0x0F8020, [], 0, 0x0, 0x0, 0x0, 0xFFFFFFFF, 0x0, false⟩]
/-- Registers of PWR. -/
def mapPWR : List RegRow := mapPWR0 ++ mapPWR1
/-- Registers of HST, part 1. -/
def mapHST0 : List RegRow := [
  ⟨0x180000, [], 0, 0x0, 0x1, 0x0, 0x1, 0x0, true⟩,
  ⟨0x180004, [], 0, 0x2000000, 0x0, 0xFC000000, 0xFEFF70FF, 0x0, false⟩,
  ⟨0x180008, [], 0, 0x0, 0x0, 0x0, 0x7FFF, 0x0, false⟩,
  ⟨0x18000C, [], 0, 0x0, 0x7FFF, 0x0, 0x7FFF, 0x0, true⟩,
  ⟨0x180010, [], 0, 0x0, 0x0, 0x3, 0x3, 0x0, false⟩,
  ⟨0x180014, [], 0, 0x0, 0x0, 0x0, 0xFFFFFF, 0x0, false⟩,
  ⟨0x180018, [], 0, 0x0, 0x0, 0x0, 0xFFFF, 0x0, false⟩,
  ⟨0x184000, [(2, 0x4000)], 0, 0x0, 0x0, 0x0, 0xF8000000, 0x0, true⟩,
  ⟨0x184004, [(2, 0x4000)], 0, 0x0, 0x0, 0x0, 0xF9FF7F7F, 0x0, true⟩,
  ⟨0x184008, [(2, 0x4000)], 0, 0x0, 0x0, 0x0, 0xF81F1F0F, 0x0, true⟩,
  ⟨0x18400C, [(2, 0x4000)], 0, 0x0, 0x0, 0x0, 0x8000007F, 0x0, true⟩,
  ⟨0x184010, [(2, 0x4000)], 0, 0x0, 0x0, 0x0, 0xDFFFFFFF, 0x0, true⟩,
  ⟨0x184014, [(2, 0x4000)], 0, 0x0, 0x0, 0x0, 0x5FFFFFFF, 0x0, true⟩,
  ⟨0x184020, [(2, 0x4000)], 0, 0x0, 0x0, 0x0, 0xE000FFFF, 0x0, false⟩,
  ⟨0x184024, [(2, 0x4000)], 0, 0x0, 0x0, 0x0, 0x1, 0x1, false⟩,
  ⟨0x184028, [(2, 0x4000)], 0, 0x0, 0x0, 0x1F, 0x1F, 0x0, false⟩,
  ⟨0x18402C, [(2, 0x4000)], 0, 0x0, 0x1F, 0x0, 0x1F, 0x0, true⟩,
  ⟨0x184030, [(2, 0x4000)], 0, 0x0, 0x0, 0x0, 0xFFFFFFFF, 0x0, false⟩,
  ⟨0x184034, [(2, 0x4000)], 0, 0x0, 0x0, 0x0, 0xFFFFFFFF, 0x0, false⟩,
  ⟨0x184038, [(2, 0x4000)], 0, 0x0, 0x0, 0x0, 0xFFFFFFFF, 0x0, false⟩]
/-- Registers of HST, part 2. -/
def mapHST1 : List RegRow := [
  ⟨0x18403C, [(2, 0x4000)], 0, 0x0, 0x0, 0x0, 0xFFFFFFFF, 0x0, false⟩,
  ⟨0x185000, [(2, 0x4000), (32, 0x80)], 0, 0x0, 0xF800000F, 0x0, 0xF800030F, 0x300, false⟩,
  ⟨0x185004, [(2, 0x4000), (32, 0x80)], 0, 0x0, 0x1FFFFFFF, 0x0, 0x1FFFFFFF, 0x0, false⟩,
  ⟨0x185008, [(2, 0x4000), (32, 0x80)], 0, 0x0, 0x1FFFFFFF, 0x0, 0x1FFFFFFF, 0x0, false⟩,
  ⟨0x18500C, [(2, 0x4000), (32, 0x80)], 0, 0x0, 0x0, 0x80000000, 0xFC00FFFF, 0x0, false⟩,
  ⟨0x185010, [(2, 0x4000), (32, 0x80), (16, 0x4)], 0, 0x0, 0xFFFFFFFF, 0x0, 0xFFFFFFFF, 0x0, false⟩]
/-- Registers of HST. -/
def mapHST : List RegRow := mapHST0 ++ mapHST1
/-- Registers of FAB, part 1. -/
def mapFAB0 : List RegRow := [
  ⟨0x190000, [], 0, 0x0, 0x0, 0x0, 0xC0000000, 0x0, true⟩,
  ⟨0x190004, [], 0, 0x0, 0x0, 0x80, 0xFFFFFF80, 0x0, false⟩,
  ⟨0x190008, [], 0, 0x0, 0x0, 0x0, 0xFFFFFFFF, 0x0, false⟩,
  ⟨0x19000C, [], 0, 0x0, 0x0, 0x0, 0xFFFFFFFF, 0x0, false⟩,
  ⟨0x190010, [], 0, 0x0, 0x0, 0x0, 0xFFFFFFFF, 0x0, false⟩,
  ⟨0x190014, [], 0, 0x0, 0x0, 0x0, 0xFFFFFFFF, 0x0, false⟩,
  ⟨0x190018, [], 0, 0x0, 0x0, 0x0, 0xFFFFFFFF, 0x0, false⟩,
  ⟨0x19001C, [], 0, 0x0, 0x0, 0x0, 0xFFFFFFFF, 0x0, true⟩,
  ⟨0x190020, [], 0, 0x0, 0x0, 0x0, 0xFFFFFFFF, 0x0, false⟩,
  ⟨0x190024, [], 0, 0x0, 0x0, 0x0, 0xFFFFFFFF, 0x0, false⟩,
  ⟨0x190028, [], 0, 0x0, 0x0, 0x0, 0xFF30FFFF, 0x0, false⟩,
  ⟨0x19002C, [], 0, 0x0, 0x0, 0x1F, 0x1F, 0x0, false⟩,
  ⟨0x190030, [], 0, 0x0, 0x1F, 0x0, 0x1F, 0x0, true⟩,
  ⟨0x190034, [], 0, 0x0, 0x0, 0x0, 0xFFFFFFFF, 0x0, false⟩,
  ⟨0x190040, [], 0, 0x10000, 0x3FC7FF00, 0x0, 0xBFC7FF00, 0x80000000, false⟩,
  ⟨0x190044, [], 0, 0x0, 0xFFFFFF, 0x0, 0xFFFFFF, 0x0, false⟩,
  ⟨0x190048, [], 0, 0x0, 0x0, 0x40000000, 0xC0FFFF00, 0x0, false⟩,
  ⟨0x190060, [(6, 0x4)], 0, 0x0, 0xFFFFFFFF, 0x0, 0xFFFFFFFF, 0x0, false⟩,
  ⟨0x19007C, [(33, 0x4)], 1, 0x0, 0x0, 0x0, 0xF03F3000, 0x0, true⟩,
  ⟨0x190100, [(4, 0x40)], 0, 0x0, 0x0, 0x0, 0x80000000, 0x0, true⟩]
/-- Registers of FAB, part 2. -/
def mapFAB1 : List RegRow := [
  ⟨0x190104, [(4, 0x40)], 0, 0x0, 0x0, 0x0, 0xEF3FFFFF, 0x0, false⟩,
  ⟨0x190108, [(4, 0x40)], 0, 0x0, 0x0, 0x0, 0xFFFF, 0x0, false⟩,
  ⟨0x19010C, [(4, 0x40)], 0, 0x0, 0x0, 0x0, 0xFFFFFFFF, 0x0, false⟩,
  ⟨0x1901FC, [(33, 0x4)], 1, 0xFF0000, 0x0, 0x20000000, 0xECFFFFFF, 0x0, false⟩,
  ⟨0x1907E0, [(33, 0x20), (8, 0x4)], 1, 0x0, 0x0, 0x0, 0xFFFFFFFF, 0x0, true⟩,
  ⟨0x191800, [(48, 0x4)], 0, 0x0, 0x0, 0x0, 0xFFFFFFFF, 0x0, false⟩]
/-- Registers of FAB. -/
def mapFAB : List RegRow := mapFAB0 ++ mapFAB1

/-- The rows of the unit that owns address `a` (Table 1.5). -/
def unitRows (a : Nat) : List RegRow :=
  match a / 0x10000 with
  | 0 => mapSYS
  | 1 => mapPAT
  | 2 => mapSEAM
  | 3 => mapSTI
  | 4 => mapMOD
  | 5 => mapCTX
  | 6 => mapPLT
  | 7 => mapACQ
  | 8 => mapWIN
  | 9 => mapGRD
  | 10 => mapMTR
  | 11 => mapSAF
  | 12 => mapFLT
  | 13 => mapOVL
  | 14 => mapIDN
  | 15 => mapPWR
  | 24 => mapHST
  | 25 => mapFAB
  | _ => []

/-- The register at address `a`, if one is there (R18: other addresses hold none). -/
def regAt (a : Nat) : Option RegRow := (unitRows a).find? (fun r => r.hit a)

/-- The fixed words of the two role units OL14 and OL15 (Table 14.1, Table 14.3): OL14 is CRC-8/SAE-J1850 for the
host port, OL15 is CRC-32/ISO-HDLC for the Pattern manager. -/
def fixedOvl (a : Nat) : Option Nat :=
  if a = R.OVL_CFG 14 then some 0x80080000
  else if a = R.OVL_POLY_LO 14 then some 0x1D
  else if a = R.OVL_INIT_LO 14 then some 0xFF
  else if a = R.OVL_XOR_LO 14 then some 0xFF
  else if a = R.OVL_CFG 15 then some 0xB8200000
  else none

/-- The word a register holds when its domain leaves reset (R11). -/
def resetWord (a : Nat) : Word :=
  BitVec.ofNat 32 (match fixedOvl a with
    | some w => w
    | none => match regAt a with
      | some r => r.reset
      | none => 0)

end Sys2Proof.Machine
end

