-- ==== Sys2Proof/Machine/State.lean ====
section
/-!
DEFINITION. The state of the block: every register (in the register file `regs`), and every piece of state the
spec's rules give without a register, unit by unit. Plain data throughout.
-/
namespace Sys2Proof.Machine

/-- No command of the table ends in a fault: what the spec calls a fault is an effect on the state. -/
inductive Fault where
  /-- Raised by no command (safe). -/
  | unreachable
  deriving DecidableEq, Repr

/-- Why a command is turned away by the model. -/
inductive Refusal where
  /-- The dispatch, for a command that has no meaning yet (safe: the run stops). -/
  | notModelled (mnemonic : String)
  deriving DecidableEq, Repr

/-- The variants of Table 0.1. -/
inductive Part where
  | tq96M | tq96B | tq64M | tq64B
  deriving DecidableEq, Repr

/-! ### Host port -/

/-- A write word waiting in a port's queue (R326). -/
structure HostWord where
  port : Nat
  addr : Nat
  data : Word
  deriving DecidableEq, Repr

/-- A port's run of shadowed reads (R32): the group latched, the words latched, the address of the last access. -/
structure SnapRun where
  words : List (Nat × Word)
  last  : Nat
  deriving DecidableEq, Repr

/-- The host port: queued words, SNAP runs by port, what the module last sent on the data lines (words, trailing byte,
number of 0x00 bytes behind it), the queued words that a hold, by its seam (64: every root), waits for before it shows (R267),
and whether TRST_N is low and holds the TAP, port 1, in reset (Table 19.4). -/
structure HostSt where
  queue    : List HostWord
  snaps    : List (Nat × Option SnapRun)
  sent     : List Word
  trailer  : Option Nat
  after    : Nat
  holdWait : List (Nat × HostWord)
  tapHeld  : Bool
  deriving DecidableEq, Repr

/-! ### Stitch links and dielets -/

/-- A management frame (Table 4.9) at the controller end: its type, register, payload, number and times sent. -/
structure MgmtFrame where
  ty   : Nat
  reg  : Nat
  data : Nat
  seq  : Nat
  sent : Nat
  deriving DecidableEq, Repr

/-- The controller end of one stitch link: frames due and not started, frames started and not acknowledged (in
order), the number of the next frame, whether the settings were sent since the last wake or apply (R85), whether a
HOLD is out that awaits its RELEASE (R250), whether silence is expected (R87), the STI_STR word written by the host
and not yet acknowledged (R75), the telemetry tick
of the last cell sample received (R86), the command symbol last launched (Table 4.3), and whether a retirement or its
end lets the view leave FAULT (Table 4.13). -/
structure LinkEnd where
  due      : List MgmtFrame
  out      : List MgmtFrame
  nextSeq  : Nat
  settings : Bool
  held     : Bool
  silent   : Bool
  str      : Option Word
  telTick  : Nat
  cmd      : Nat
  leave    : Bool
  deriving DecidableEq, Repr

/-- The states of Table 4.13. -/
inductive StitchState where
  | asleep | waking | idle | run | hiz | bypass | opened | fault
  deriving DecidableEq, Repr

/-- A gate of the half-bridge. -/
inductive Gate where
  | high | low
  deriving DecidableEq, Repr

/-- One stitch dielet: its state, its gates, the gate that waits to turn on (R70), the cause of its Hi-Z, its
retirement mode, the latches and flags of R77, R80, R83, R93, R96, whether its uplink is live, the settings it has
loaded (by register offset), the strength steps and edge times, the number of bad frames in a row, the last frame
accepted, the telemetry tick count and the last sample, the alerts it has sent that have not arrived, whether
its bypass awaits verification, the gates of the transition last begun (the one that turned off, and the one that comes
in: none for OFF, R73), and whether it has lost its downlink and not retrained (R87). -/
structure Dielet where
  st       : StitchState
  gh       : Bool
  gl       : Bool
  incoming : Option Gate
  cause    : Nat
  mode     : Option Bool
  clamp    : Bool
  topup    : Bool
  bstreq   : Bool
  otwarn   : Bool
  bleed    : Bool
  verify   : Bool
  hemoff   : Bool
  settings : List (Nat × Word)
  steps    : List (Nat × Nat)
  edges    : List (Nat × Nat)
  bad      : Nat
  ack      : Nat
  tick     : Nat
  cell     : Nat
  alerts   : List Nat
  outG     : Option Gate
  inG      : Option Gate
  lost     : Bool
  deriving DecidableEq, Repr

/-- One ledger entry (R95). -/
structure LedgerEntry where
  retired : Bool
  mode    : Bool
  cause   : Nat
  lseq    : Nat
  time    : Nat
  deriving DecidableEq, Repr

/-- What the model keeps per stitch for DISCHARGE (R303): when its last bleed ended, and whether it waits for one. -/
structure BleedSt where
  ended   : Option Nat
  waiting : Bool
  deriving DecidableEq, Repr

/-! ### Modulator -/

/-- The carrier and the selection of one seam (R101–R115): the period latched at the last period start, the difference
still to apply (the carrier stands that far before its place), the part applied in this period, the instant at which it
counts from 0 and the steps from there to the end of the period, periods since the apply, the level count latched, whether a re-weave awaits its
update instant, the stitches waiting for their join LOW, those whose join LOW has ended, those that have joined, the
children fully inserted and the one with the remainder, the direction of the last update instant, the run of
unbalanced instants and whether its episode is open, the stitches counted as suppressed in this period, and the run
of aligned edges. -/
structure Carrier where
  per     : Nat
  rem     : Int
  shift   : Int
  start   : Nat
  len     : Int
  periods : Nat
  levels  : Nat
  reweave : Bool
  joining : List Nat
  lowDone : List Nat
  joined  : List Nat
  full    : List Nat
  frac    : Option Nat
  dir     : Option Bool
  balRun  : Nat
  balOpen : Bool
  suppr   : List Nat
  aligned : Nat
  deriving DecidableEq, Repr

/-- What the modulator holds per stitch: the insertion fraction in 1/65,536 before the effective instant of this period, in
force, taken at the last update instant of the carrier that times it, and as last composed (R381); that carrier's period
and the instant at which it counts from 0; the steps for which the stitch had been scheduled LOW when this period began;
then, in steps of the present period, the last instant known, its last edge (R103), its join slot (R113), the start of its
last join or refresh LOW, and when a refresh was requested that no pulse has answered (R114). -/
structure Fraction where
  was   : Nat
  cur   : Nat
  due   : Nat
  next  : Nat
  per   : Nat
  start : Nat
  tail  : Nat
  now   : Nat
  edge  : Option Int
  join  : Option Nat
  low   : Option Int
  asked : Option Int
  deriving DecidableEq, Repr

/-! ### Fault manager -/

/-- A detector (R247, R252–R255): its tier in force (0 for none), governing class, latch, the tick at or after its
last occurrence, recovery count and the first counted recovery with its CWIN, escalation count and class, the
seam its hold covers (0 none, 64 every root), and the DETAIL of its last unshadowed occurrence. -/
structure Detector where
  tier     : Nat
  gcls     : Nat
  latched  : Bool
  occ      : Nat
  rcnt     : Nat
  first    : Nat
  firstWin : Nat
  escn     : Nat
  escCls   : Nat
  reach    : Nat
  detail   : Nat
  deriving DecidableEq, Repr

/-- An open shadow (R261): arming class and detector, closing tick, covered classes, and its reach: every scope, a
seam's subtree (64: the whole module), or one scope. -/
structure Shadow where
  cls   : Nat
  scope : Nat
  close : Nat
  mask  : Nat
  all   : Bool
  seam  : Nat
  deriving DecidableEq, Repr

/-- A report of a detector (R247): whether it stands at a safety tick, its class, its scope and its DETAIL. -/
structure Report where
  atTick : Bool
  cls    : Nat
  scope  : Nat
  detail : Nat
  deriving DecidableEq, Repr

/-- The fault manager's own state: detectors by scope code, open shadows, the shadows that open in the next cycle while
several occurrences of one cycle are taken (R261), the reports that came in that cycle (R247), and the latched reactions kept
in Selvedge retention while PD1 is off (R268). -/
structure FltSt where
  dets    : List (Nat × Detector)
  shadows : List Shadow
  opening : Option (List Shadow)
  reports : List Report
  kept    : List (Nat × Detector)
  deriving DecidableEq, Repr

/-! ### Hem -/

/-- One wire of a pair, or SRST: the sample taken at the last tick, the last used value, the run of equal used values
(to 16), and the accepted value. -/
structure WireSt where
  sample : Bool
  last   : Bool
  run    : Nat
  acc    : Bool
  deriving DecidableEq, Repr

/-- A hem receive stream (R241): its open window (counter, bus, bytes 0–9, opening tick), whether a pair was ever
accepted and the last accepted counter, the tick the last window opened (or EN rose), the tick of the newest pair if
it was accepted without error, whether a fault of the present episode was raised, or is owed at the next tick, whether
LOST was judged since the last window opened, and permit of the last delivered pair. -/
structure StreamSt where
  window   : Option (Nat × Nat × List Byte × Nat)
  seen     : Bool
  counter  : Nat
  openedAt : Nat
  goodAt   : Option Nat
  raised   : Bool
  owed     : Bool
  lost     : Bool
  permit   : Bool
  deriving DecidableEq, Repr

/-- A contactor: the tick of the last change of its enable since PD1 powered up. -/
structure CtrSt where
  changedAt : Option Nat
  deriving DecidableEq, Repr

/-- The hem's own state: wires of the pairs (2p, 2p + 1), SRST and its high count, the SPO_N level and whether its
present level is still filtered, HVIL runs of misses and hits, the bit of CODE that is driven and whether a fault is
due at the next tick, receive streams, contactors, the pair waiting to be
sent on each bus, whether a self-test passed since STFAIL set, and the engine cycle of the tick numbered 0. -/
structure SafSt where
  wires    : List (Nat × WireSt)
  srst     : WireSt
  high     : Nat
  spoLow   : Bool
  spoSet   : Bool
  misses   : Nat
  hits     : Nat
  hvPos    : Nat
  hvPend   : Bool
  streams  : List (Nat × StreamSt)
  ctrs     : List (Nat × CtrSt)
  tx       : List (Nat × Option (List Byte))
  passed   : Bool
  tickBase : Nat
  deriving DecidableEq, Repr

/-! ### Pattern manager -/

/-- An MRAM slot or the staging memory: its committed mark and its bytes (R57). -/
structure ImageMem where
  valid : Bool
  bytes : List Byte
  deriving DecidableEq, Repr

/-- Where an image comes from (PAT_STAT.SOURCE). -/
inductive Source where
  | slotA | slotB | staging
  deriving DecidableEq, Repr

/-- The work the Pattern manager has in progress: a stream, a verify (with what follows it), an apply, a commit. -/
inductive PatWork where
  | idle
  | stream (len : Nat)
  | verifyOnly (src : Source)
  | verifyLoad (src : Source)
  | verifyStart (src : Source)
  | apply (src : Source)
  | commit (src : Source)
  deriving DecidableEq, Repr

/-- The state of a start (Table 3.9). -/
inductive StartPhase where
  | none | tryActive | tryOther | await
  deriving DecidableEq, Repr

/-- The Pattern manager's memories and progress: slots, staging, work, start phase, whether the start's open mark is
set (Selvedge), whether a host load awaits its CONFIRM, whether the start of R62 waits for the work in progress to end,
whether the present start undid an unconfirmed load (R62), the MTR section applied with its VER and CRC, the VER of the
SAFE section applied (R46), and whether PAT-CHK was raised since the last apply. -/
structure PatSt where
  slotA     : ImageMem
  slotB     : ImageMem
  staging   : ImageMem
  work      : PatWork
  start     : StartPhase
  openMark  : Bool
  loadWait  : Bool
  late      : Bool
  undone    : Bool
  mtr       : Option (Nat × Nat)
  safeVer   : Option Nat
  checked   : Bool
  deriving DecidableEq, Repr

/-! ### MRAM -/

/-- A copy of the metering accumulators (R214), by 8·ch + q in 2^−40 Wh, with its CRC-32. -/
structure MtrCopy where
  vals : List (Nat × Nat)
  crc  : Nat
  deriving DecidableEq, Repr

/-- The copy whose accumulators are all 0. -/
def MtrCopy.zero : MtrCopy := ⟨[], 0⟩

/-- What MRAM holds beside the image slots. -/
structure Mram where
  ledger  : List (Nat × LedgerEntry)
  wseq    : Nat
  sealSt  : Nat
  sealVer : Nat
  sealCrc : Nat
  sealCnt : Nat
  meter   : MtrCopy
  rcnt    : Nat
  logMark : Nat
  epoch   : Nat
  deriving DecidableEq, Repr

/-! ### Power -/

/-- The mode controller's own state: a power-down in progress and its target, whether the group is being switched on
and the mode entered when it is on, the wake that waits for RAILS, a wake that came during a power-down, the wake
conditions measured in WATCH, the alarm armed and its value in ms, the RTC value at cycle `rtcAt` and the word written to PWR_RTCW_HI, what
the monitors saw last, the run of results at or above PVTH, and the discharge: what mode it began in, the BASE it leaves
to, its entry, whether its Vlink condition holds, whether a start reached BASTING or failed while it ran, whether the
host asked for it, bleeds and monitor episodes, and whether a start waits for PD3. -/
structure PwrSt where
  downTo    : Option Nat
  groupOn   : Bool
  upTo      : Option Nat
  railWait  : Bool
  wakeLate  : Option Nat
  conds     : Nat
  alarmArmed : Bool
  alarm     : Nat
  rtcBase   : Nat
  rtcAt     : Nat
  rtcwHi    : Nat
  cpPwm     : Bool
  ppBand    : Nat
  hvAbove   : Bool
  preHits   : Nat
  disFrom   : Nat
  disBase   : Nat
  disAt     : Nat
  disVlink  : Bool
  disHost   : Bool
  disBasting : Bool
  disFail   : Bool
  bleeds    : List (Nat × BleedSt)
  episodes  : List (Nat × Bool)
  startDue  : Bool
  deriving DecidableEq, Repr

/-! ### What an object without an entry of its own holds -/

def LinkEnd.zero : LinkEnd := ⟨[], [], 0, false, false, false, none, 0, 0, false⟩
def Dielet.zero : Dielet :=
  ⟨.asleep, false, false, none, 0, none, false, false, false, false, false, false, false, [], [], [], 0, 0, 0, 0, [], none,
   none, false⟩
def LedgerEntry.zero : LedgerEntry := ⟨false, false, 0, 0, 0⟩
def BleedSt.zero : BleedSt := ⟨none, false⟩
def Carrier.zero : Carrier := ⟨0, 0, 0, 0, 0, 0, 0, false, [], [], [], [], none, none, 0, false, [], 0⟩
def Fraction.zero : Fraction := ⟨0, 0, 0, 0, 0, 0, 0, 0, none, none, none, none⟩
def Detector.zero : Detector := ⟨0, 0, false, 0, 0, 0, 0, 0, 0, 0, 0⟩
def WireSt.zero : WireSt := ⟨false, false, 0, false⟩
def StreamSt.zero : StreamSt := ⟨none, false, 0, 0, none, false, false, false, false⟩
def CtrSt.zero : CtrSt := ⟨none⟩

/-! ### Control engine -/

/-- Execution states of a context (Table 6.5). -/
inductive ExecState where
  | idle | waiting | running | done | parked
  deriving DecidableEq, Repr

/-- A source as an execution captured it (R122): its word, its Q15 value, and the round tag and ORNG of an
acquisition result. -/
structure SrcRead where
  word : Nat
  val  : Int
  tag  : Option Nat
  orng : Bool
  deriving DecidableEq, Repr

/-- What an execution captures at its first cycle (R130, R146, R151). -/
structure Capture where
  srcs    : List SrcRead
  acc     : Bool
  coefs   : List Nat
  lim0    : Nat
  rl      : Nat
  ilim    : Nat
  rate    : Nat
  sp      : Int
  part    : Bool
  th      : Nat
  locked  : Bool
  gain    : Nat
  qf      : Nat
  pctl    : Nat
  deriving DecidableEq, Repr

/-- The history of a biquad (R124). -/
structure Biquad where
  x1 : Int
  x2 : Int
  y1 : Int
  y2 : Int
  deriving DecidableEq, Repr

/-- The checks kept per source (R140, R141): the last tag, the run of equal tags, and the two episodes. -/
structure SrcCheck where
  tag   : Option Nat
  run   : Nat
  stale : Bool
  orng  : Bool
  deriving DecidableEq, Repr

/-- A context's own state (R124–R126, R129, R135, R139–R143): its execution, its latest start in steps of the timebase,
what it waits for (sequences with the tag of the round, contexts), what it captured, whether its output is withheld, whether its next execution is the
first after an apply, RESET or release, biquads, integrator, ramp value, limiter value, the clamps of the last
execution, the freeze check, the source checks and the saturation run and episode, and the cycles in which the executions
that the busy fraction still counts started. -/
structure CtxSt where
  ex       : ExecState
  ls       : Int
  eligible : Bool
  rounds   : List (Nat × Option Nat)
  deps     : List Nat
  cap      : Option Capture
  noOut    : Bool
  used     : Bool
  bq1      : Biquad
  bq2      : Biquad
  i        : Int
  r        : Int
  yl       : Int
  hi       : Bool
  lo       : Bool
  frzA     : Int
  frzY     : Int
  frzN     : Nat
  frzEp    : Bool
  checks   : List SrcCheck
  satRun   : Nat
  satEp    : Bool
  runs     : List Nat
  deriving DecidableEq, Repr

/-- A pleat's own state (R147–R150): whether an execution has run since apply, RESET or release, the last cell and
phase, the step of the last locked execution, the lock of the phase source as last seen since the apply (none: not yet),
whether the last execution was locked, whether lock has returned since the last locked execution, whether any was locked,
and the zero passages still to wait for. -/
structure PltSt where
  run  : Bool
  last : Nat
  th   : Nat
  step : Nat
  lock : Option Bool
  was  : Bool
  back : Bool
  seen : Bool
  relk : Nat
  deriving DecidableEq, Repr

def Biquad.zero : Biquad := ⟨0, 0, 0, 0⟩
def SrcCheck.zero : SrcCheck := ⟨none, 0, false, false⟩
def CtxSt.zero : CtxSt :=
  ⟨.idle, 0, false, [], [], none, false, false, Biquad.zero, Biquad.zero, 0, 0, 0, false, false, 0, 0, 0, false, [], 0, false, []⟩
def PltSt.zero : PltSt := ⟨false, 0, 0, 0, none, false, false, false, 0⟩

/-! ### Acquisition -/

/-- What a converter converts: a sample of an entry of a sequence, or an urgent slot. -/
inductive ConvJob where
  | seq (s e : Nat)
  | urgent (k : Nat)
  deriving DecidableEq, Repr

/-- A converter: its conversion in progress, and the entry whose sample an urgent conversion displaced (R164). -/
structure ConvSt where
  job    : Option ConvJob
  resume : Option (Nat × Nat)
  deriving DecidableEq, Repr

/-- The samples of an entry in progress: how many, their sum, and whether one was over range. -/
structure Progress where
  cnt  : Nat
  sum  : Int
  orng : Bool
  deriving DecidableEq, Repr

/-- A sequence's own state (R157–R167): the entries of the running round not yet written, samples by entry, overruns
in a row, entries in an over-range episode, and refusals by converter. -/
structure SeqSt where
  left   : List Nat
  prog   : List (Nat × Progress)
  ovr    : Nat
  orngEp : List Nat
  refuse : List (Nat × Nat)
  deriving DecidableEq, Repr

/-- The acquisition unit's own state: sequences, converters, urgent slots that wait, and the cycle at which the busy
fractions were cleared (R169). -/
structure AcqSt where
  seqs   : List (Nat × SeqSt)
  convs  : List (Nat × ConvSt)
  urgent : List Nat
  utilAt : Nat
  deriving DecidableEq, Repr

def SeqSt.zero : SeqSt := ⟨[], [], 0, [], []⟩
def ConvSt.zero : ConvSt := ⟨none, none⟩
def Progress.zero : Progress := ⟨0, 0, false⟩
def AcqSt.zero : AcqSt := ⟨[], [], [], 0⟩

/-! ### Windows -/

/-- A window's own state (R172–R175): for each comparator its state under R172, whether it has settled and whether it
is blanked after a threshold change; and whether the open blanking interval was counted as a hit. -/
structure WinSt where
  hi     : Bool
  lo     : Bool
  setHi  : Bool
  setLo  : Bool
  dsetHi : Bool
  dsetLo : Bool
  hit    : Bool
  deriving DecidableEq, Repr

def WinSt.zero : WinSt := ⟨false, false, false, false, false, false, false⟩

/-! ### Grid unit -/

/-- A second-order generalised integrator (R183): its in-phase and quadrature outputs and its last input, in 2^−16 of a Q15
step. -/
structure Sogi where
  x : Int
  q : Int
  u : Int
  deriving DecidableEq, Repr

/-- The grid unit's own state (spec/10). Frequencies are in µHz, angles in 2^−32 cycle, the phase error in 2^−30 rad,
signals in 2^−16 of a Q15 step, amplitudes in 10^−6 pu, ROCOF in mHz/s, times in steps of 156.25 ps. `ready`: a round has
completed, with the inputs `ins`, and its update is due; `owed`: the last sample instant's round has not completed: its tag, or
none where the instant started no round.
The SOGIs (α, β, z, a, b and the currents' α, β); ap, bp, an, bn and vd, vq (R184); f, fi, th, pe; the amplitudes; f_meas
and its history with times, newest first; ROCOF; the lock time and the run of errors beyond 4 × LOCKTH; the time of the
last rise of LOCK; curve timers (voltage 0–15, frequency 16–31), points that act, and the time without a CEASE point; the
time since |Δ| > DB, the 60 s of VPOS samples and the time to the next; the ROCOF time; the active method's time in FEED,
half (true: +), sums and counts of the halves and period count; the entering-service time; the formed angle and
frequency; the powers before and after their filter. -/
structure GrdSt where
  ready   : Bool
  ins     : List Int
  owed    : Option (Option Nat)
  time    : Nat
  filt    : List Sogi
  seq     : List Int
  dq      : Int × Int
  f       : Int
  fi      : Int
  th      : Nat
  pe      : Int
  vpos    : Int
  vneg    : Int
  vlow    : Int
  vhigh   : Int
  fmeas   : Int
  hist    : List (Nat × Int)
  roc     : Int
  lockT   : Nat
  lockBad : Nat
  lockAt  : Nat
  timers  : List (Nat × Nat)
  acting  : List Nat
  ceaseT  : Nat
  injT    : Nat
  mean    : List Int
  meanT   : Nat
  rocT    : Nat
  aisT    : Nat
  aisPlus : Bool
  aisSum  : Int × Nat × Int × Nat
  aisCnt  : Nat
  entT    : Nat
  thF     : Nat
  fF      : Int
  pIn     : Int
  qIn     : Int
  p       : Int
  q       : Int
  deriving DecidableEq, Repr

def Sogi.zero : Sogi := ⟨0, 0, 0⟩
def GrdSt.zero : GrdSt :=
  ⟨false, [], none, 0, [], [], (0, 0), 0, 0, 0, 0, 0, 0, 0, 0, 0, [], 0, 0, 0, 0, [], [], 0, 0, [], 0, 0, 0, true,
   (0, 0, 0, 0), 0, 0, 0, 0, 0, 0, 0, 0⟩

/-! ### CAN -/

/-- What a controller has on its bus (R336): a hem frame, the service's response, or a mailbox. -/
inductive CanJob where
  | hem (bytes : List Byte)
  | service
  | mailbox (m : Nat)
  deriving DecidableEq, Repr

/-- A CAN controller's own state: what it has on the bus, as the frame there, and whether its mailbox is to end with
ABORT; whether it leaves at the next bus idle and then joins again (R332); the service response that waits, whether
bus-off recovery runs, the port that locks each locked mailbox (R335), the remote frames ignored (R331), and whether another
node's frame is on the bus, none of its own having been offered at the last arbitration. -/
structure CanBus where
  job     : Option CanJob
  frame   : Option CanFrame
  leaving : Bool
  rejoin  : Bool
  abort   : Bool
  service : Option (List Byte)
  recover : Bool
  locks   : List (Nat × Option Nat)
  ignored : Nat
  foreign : Bool
  deriving DecidableEq, Repr

/-- Both controllers: 0 CAN A, 1 CAN B. -/
structure CanSt where
  buses : List (Nat × CanBus)
  deriving DecidableEq, Repr

def CanBus.zero : CanBus := ⟨none, none, false, false, false, none, false, [], 0, false⟩
def CanSt.zero : CanSt := ⟨[]⟩
def HostSt.zero : HostSt := ⟨[], [], [], none, 0, [], false⟩

/-! ### Fabric -/

/-- A frame with its type (Table 18.2), the CRC that it carries on the lane, 0 until it is sent, and for a received LINKREF
the fabric time, in 1/32 ns, at which its source sent it (R119), 0 elsewhere; and of a sent one, how often it was resent and
whether it has been acknowledged (R342). -/
structure FabMsg where
  ty    : Nat
  f     : FabFrame
  crc   : Nat
  sent  : Int
  tries : Nat
  acked : Bool
  deriving DecidableEq, Repr

/-- A port's own state (R342, R343, R350): the LSEQ expected, the one last acknowledged, and the next to send; frames sent, from
the oldest not acknowledged on; the queue with the input that fed each frame, frames held back behind it, the frames that
wait at this input; the input last served; what the hello set brought (fingerprint, digest, certificate and its check,
nonce), the nonce sent, whether the REPORT was asked for and sent, the report received and its check; the FAB-LINK
episode; the last ROUTE with its cycle; and the time source the neighbour reports. -/
structure PortSt where
  rxNext   : Nat
  ack      : Option Nat
  txNext   : Nat
  out      : List FabMsg
  queue    : List (Nat × FabMsg)
  wait     : List (Nat × FabMsg)
  inbox    : List FabMsg
  last     : Nat
  fpr      : Option (List Byte)
  dig      : Option (List Byte)
  cert     : List Byte
  certOk   : Bool
  nonce    : List Byte
  far      : Option (List Byte)
  asked    : Bool
  reported : Bool
  report   : List Byte
  repOk    : Bool
  ep       : Bool
  route    : Option (Nat × List Nat)
  heard    : Nat
  deriving DecidableEq, Repr

/-- The pending request of the host (R359): its type, target, SEQ, tag and the words a read returns. -/
structure FabReq where
  ty  : Nat
  dst : Nat
  seq : Nat
  tag : Nat
  n   : Nat
  deriving DecidableEq, Repr

/-- A remote write whose words are queued (R358): requester, its epoch, bytes 1–5 of the request, the words not yet in
effect, and the STATUS of its reply. -/
structure RemoteWrite where
  src    : Nat
  sepoch : Nat
  head   : List Byte
  left   : Nat
  status : Nat
  deriving DecidableEq, Repr

/-- A LINK's own state (R356, R357): the next exchange, those sent and not answered, and the episode. -/
structure LinkX where
  next : Nat
  sent : List Nat
  ep   : Bool
  deriving DecidableEq, Repr

/-- A reference that waits at a REMOTE root (R119): its value, its exchange, and the fabric time, in 1/32 ns, from which
an update instant applies it. -/
structure WaitRef where
  value : Nat
  xcnt  : Nat
  due   : Int
  deriving DecidableEq, Repr

/-- A REMOTE root's own state (R356, R357): its sender (role, LSEAM) since its enable rose, the references that wait, the
start of the LINK's slot carrier that came last and was not aligned to yet, the exchanges to answer after the update
instant, whether one was applied in this period, the episode, and the fabric time of the last update instant in 1/32 ns. -/
structure RemoteX where
  owner : Option (Nat × Nat)
  wait  : List WaitRef
  start : Option Nat
  reply : List Nat
  fresh : Bool
  ep    : Bool
  last  : Option Int
  deriving DecidableEq, Repr

/-- The fabric's own state: fabric time and the cycle it counts from; ports, and those that are UP in the order in which they
came; the claim that awaits its BACK (port,
role); numbers sent, for each role and pair of epochs (own epoch, its epoch, SEQ), and delivered, by role (SEPOCH, SEQ); digests held, by role;
the pending request and the report chunks so far; remote writes; LINKs and REMOTE roots by seam; and good exchanges in a
row. -/
structure FabSt where
  timeBase : Nat
  timeAt   : Nat
  ports    : List (Nat × PortSt)
  ups      : List Nat
  claim    : Option (Nat × Nat)
  sent     : List (Nat × Nat × Nat × Nat)
  got      : List (Nat × Nat × Nat)
  digests  : List (Nat × Option (List Byte))
  req      : Option FabReq
  chunks   : List Byte
  writes   : List RemoteWrite
  links    : List (Nat × LinkX)
  remotes  : List (Nat × RemoteX)
  good     : Nat
  deriving DecidableEq, Repr

/-- A frame of a type, not on the lane yet. -/
def message (ty : Nat) (f : FabFrame) : FabMsg := ⟨ty, f, 0, 0, 0, false⟩
def PortSt.zero : PortSt :=
  ⟨0, none, 0, [], [], [], [], 4, none, none, [], false, [], none, false, false, [], false, false, none, 0⟩
def LinkX.zero : LinkX := ⟨0, [], false⟩
def RemoteX.zero : RemoteX := ⟨none, [], none, [], false, false, none⟩
def FabSt.zero : FabSt := ⟨0, 0, [], [], none, [], [], [], none, [], [], [], [], 0⟩

/-! ### Metering -/

/-- The sums of a window (R204, R207): samples, Σv², Σi², Σv·i, Σvq·i, in products of the scaled codes. -/
structure MtrWin where
  n  : Nat
  vv : Int
  ii : Int
  vi : Int
  qi : Int
  deriving DecidableEq, Repr

/-- A closed window that is not added yet: the working copy it was metered with (R215), and the number of the event
that closed it. -/
structure MtrShut where
  win  : MtrWin
  work : List Nat
  at_  : Nat
  deriving DecidableEq, Repr

/-- A snapshot that waits for the windows closed up to event `at_` to be added (R213, R217), with its EARLY and CLOSE. -/
structure MtrDue where
  at_   : Nat
  early : Bool
  close : Bool
  deriving DecidableEq, Repr

/-- A channel's own state in PD7 (R205, R206, R212, R215): whether it meters, its working copy of the SEAL words, the
open window, windows closed and not yet added, arming, samples since the last accepted crossing (none before the
first) or the window's opening, the quadrature filter, and A_clr by quantity. -/
structure MtrCh where
  run    : Bool
  work   : List Nat
  win    : MtrWin
  closed : List MtrShut
  armed  : Bool
  crossed : Bool
  since  : Nat
  filt   : Int
  aclr   : List (Nat × Nat)
  deriving DecidableEq, Repr

/-- A ring slot (R220): 0 EMPTY, 1 PENDING, 2 SIGNED; the record's body and its signature. -/
structure RingSlot where
  st   : Nat
  body : List Byte
  sig  : List Byte
  deriving DecidableEq, Repr

/-- The metering unit's own state. `chans` and the running copy `acc` lie in PD7; the rest in the Selvedge domain: the
retained copy; the values of the last snapshot, for the mirror; the record counter; bodies whose RCNT mirror is being
written; the ring; T_END of the last record and the instant metering started; what a snapshot is asked for by (boundary,
NOW, CLOSE); the closing events counted, and the snapshots a close has met; the flags of the span (fallback mask, INTEG,
RESTART, RESTORED, GAP). -/
structure MtrSt where
  chans    : List (Nat × MtrCh)
  acc      : MtrCopy
  kept     : MtrCopy
  shot     : List (Nat × Nat)
  rcnt     : Nat
  drafts   : List (Nat × List Byte)
  ring     : List (Nat × RingSlot)
  tEnd     : Option Nat
  started  : Nat
  askBound : Bool
  askNow   : Bool
  askClose : Bool
  event    : Nat
  dues     : List MtrDue
  spanZc   : Nat
  integ    : Bool
  restart  : Bool
  restored : Bool
  gap      : Bool
  deriving DecidableEq, Repr

def MtrWin.zero : MtrWin := ⟨0, 0, 0, 0, 0⟩
def MtrCh.zero : MtrCh := ⟨false, [], MtrWin.zero, [], false, false, 0, 0, []⟩
def RingSlot.zero : RingSlot := ⟨0, [], []⟩
def MtrSt.zero : MtrSt :=
  ⟨[], MtrCopy.zero, MtrCopy.zero, [], 0, [], [], none, 0, false, false, false, 0, [], 0, false, false, false, false⟩

/-! ### Overlock units and identity -/

/-- A parameter set of R271. -/
structure OvlPar where
  width  : Nat
  poly   : Nat
  init   : Nat
  xor    : Nat
  refin  : Bool
  refout : Bool
  deriving DecidableEq, Repr

/-- An overlock unit's own state: the parameters that the last START loaded, the register of R271, and whether the
checker awaits its first value since it was armed (R278). -/
structure OvlSt where
  par   : OvlPar
  reg   : Nat
  fresh : Bool
  deriving DecidableEq, Repr

def OvlSt.zero : OvlSt := ⟨⟨0, 0, 0, 0, false, false⟩, 0, false⟩

/-- A request to the signing engine (R283): a Pattern verify, a meter record, the report for a fabric port (R343) or
for a remote role (R359), and the host's report (R285), each report with its bytes 0x00–0x7F. -/
inductive SignReq where
  | verify
  | meter
  | port (p : Nat) (body : List Byte)
  | remote (role epoch : Nat) (body : List Byte)
  | host (body : List Byte)
  deriving DecidableEq, Repr

/-- The identity unit's own state: the requests in order, the first in progress unless the checks after PD3 power-up
run, and the staged hash while its fuses are programmed (R282). -/
structure IdnSt where
  queue    : List SignReq
  checking : Bool
  fusing   : Option Nat
  deriving DecidableEq, Repr

def IdnSt.zero : IdnSt := ⟨[], false, none⟩

def SafSt.zero : SafSt := ⟨[], WireSt.zero, 0, true, false, 0, 0, 0, false, [], [], [], false, 0⟩
def PwrSt.zero : PwrSt :=
  ⟨none, false, none, false, none, 0, false, 0, 0, 0, 0, false, 0, false, 0, 0, 0, 0, false, false, false, false, [], [],
   false⟩

/-! ### Harvest -/

/-- The harvest's own state (spec/16): K and VSTMAX in force since the last tracking cycle, the class of the burst that
runs (0 none), whether a wake was taken or the grant fell to RED during it, and whether the store cold-started. -/
structure HrvSt where
  k     : Nat
  vmax  : Nat
  burst : Nat
  hand  : Bool
  red   : Bool
  cold  : Bool
  deriving DecidableEq, Repr

def HrvSt.zero : HrvSt := ⟨49, 15, 0, false, false, false⟩

/-! ### The block -/

/-- The state of the block. `pending`: the commands that wait, first in, first out. `part`, `aq`: the part and grade.
`regs`: the register file, in canonical form over the reset words. `cyc`, `tick`, `telTick`: engine cycles, safety
ticks and telemetry ticks counted. `waits`: the stitches that take no
modulator command before the next period of their carrier (R15). `freeCtr` counts the free values drawn (the model's own
field, log entry 1). `syncOut`: the phase 0, in steps of 156.25 ps, of the last pulse on MOD_SYNC_OUT (R117). -/
structure State where
  pending   : List Instr
  part      : Part
  aq        : Bool
  regs      : List (Nat × Word)
  cyc       : Nat
  tick      : Nat
  telTick   : Nat
  freeCtr   : Nat
  host      : HostSt
  links     : List (Nat × LinkEnd)
  dielets   : List (Nat × Dielet)
  ledger    : List (Nat × LedgerEntry)
  ledgerSeq : Nat
  carriers  : List (Nat × Carrier)
  fractions : List (Nat × Fraction)
  loadedPer : List (Nat × Nat)
  linkCaps  : List (Nat × Word)
  enabled   : List Nat
  waits     : List Nat
  ctxs      : List (Nat × CtxSt)
  plts      : List (Nat × PltSt)
  pool      : List (Nat × Nat)
  flt       : FltSt
  saf       : SafSt
  pat       : PatSt
  mirrors   : List Mirror
  mram      : Mram
  pwr       : PwrSt
  acq       : AcqSt
  grd       : GrdSt
  wins      : List (Nat × WinSt)
  fab       : FabSt
  mtr       : MtrSt
  ovl       : List (Nat × OvlSt)
  idn       : IdnSt
  hrv       : HrvSt
  can       : CanSt
  syncOut   : Option Nat
  deriving DecidableEq, Repr

/-- The machine right after reset: the Selvedge power-up of R293 of a TQ-96M in the standard grade (log entry 2), with
MRAM blank (log entry 3) and the fuse and factory registers 0 (log entry 4). The register file lists nothing: every
register reads its reset word. -/
def State.reset : State :=
  { pending := [], part := .tq96M, aq := false, regs := [], cyc := 0, tick := 0, telTick := 0, freeCtr := 0,
    host := HostSt.zero, links := [], dielets := [], ledger := [], ledgerSeq := 0, carriers := [], fractions := [],
    loadedPer := [], linkCaps := [], enabled := [], waits := [], ctxs := [], plts := [], pool := [],
    flt := ⟨[], [], none, [], []⟩, saf := SafSt.zero,
    pat := ⟨⟨false, []⟩, ⟨false, []⟩, ⟨false, []⟩, .idle, .none, false, false, false, false, none, none, false⟩,
    mirrors := [], mram := ⟨[], 0, 0, 0, 0, 0, MtrCopy.zero, 0, 0, 0⟩, pwr := PwrSt.zero, acq := AcqSt.zero,
    grd := GrdSt.zero, wins := [], fab := FabSt.zero, mtr := MtrSt.zero, ovl := [], idn := IdnSt.zero,
    hrv := HrvSt.zero, can := CanSt.zero, syncOut := none }

end Sys2Proof.Machine
end

