-- ==== Sys2Proof/Machine/Ops.lean ====
section
/-!
DEFINITION. The named operations over the register file, the counters and the part: every other file reads and
writes registers through these.
-/
namespace Sys2Proof.Machine

/-! ### Registers -/

/-- The word at register address `a`. -/
def State.word (s : State) (a : Nat) : Word := tget resetWord s.regs a

/-- Write the whole word at register address `a`. -/
def State.setWord (s : State) (a : Nat) (w : Word) : State := { s with regs := tset resetWord s.regs a w }

/-- The value of a field. -/
def State.get (s : State) (f : Field) : Nat := bitsOf (s.word f.addr) f.lo f.wd

/-- Write a field, leaving the rest of its register. -/
def State.put (s : State) (f : Field) (v : Nat) : State := s.setWord f.addr (setBits (s.word f.addr) f.lo f.wd v)

/-- Is a one-bit field 1? -/
def State.on (s : State) (f : Field) : Bool := s.get f == 1

/-- Write a one-bit field. -/
def State.flag (s : State) (f : Field) (b : Bool) : State := s.put f (bit b)

/-- Count up by one, wrapping at the field's width. -/
def State.inc (s : State) (f : Field) : State := s.put f (s.get f + 1)

/-- Count up by one, saturating at the field's width. -/
def State.incSat (s : State) (f : Field) : State := s.put f (min (2 ^ f.wd - 1) (s.get f + 1))

/-- The signed value of a two's-complement field. -/
def State.sget (s : State) (f : Field) : Int := signed f.wd (s.get f)

/-- Write the low bits of a signed number into a field. -/
def State.sput (s : State) (f : Field) (i : Int) : State := s.put f (code f.wd i)

/-- Only the registers whose address `p` picks keep their words; the others go back to their reset words. -/
def State.keepRegs (s : State) (p : Nat → Bool) : State := { s with regs := s.regs.filter (fun e => p e.1) }

/-- Every register from `lo` to `hi` (exclusive) back to its reset word: a domain's registers as it leaves reset
(R11), or a unit's at step 1 of an apply. -/
def State.dropRegs (s : State) (lo hi : Nat) : State := { s with regs := tdrop s.regs lo hi }

/-! ### The part (Table 0.1, Table 0.4) -/

/-- Stitches of the part. -/
def Part.stitches : Part → Nat
  | .tq96M => 96 | .tq96B => 96 | .tq64M => 64 | .tq64B => 64

/-- Does the part have metering and harvest? -/
def Part.isM : Part → Bool
  | .tq96M => true | .tq96B => false | .tq64M => true | .tq64B => false

/-- Fabric ports of the part. -/
def Part.ports : Part → Nat
  | .tq96M => 4 | .tq96B => 2 | .tq64M => 4 | .tq64B => 2

/-- Pleat memory of the part, in samples. -/
def Part.pool : Part → Nat
  | .tq96M => 262144 | .tq96B => 131072 | .tq64M => 262144 | .tq64B => 131072

/-- SYS_CAPS0 (Table 0.4). -/
def Part.caps0 : Part → Nat
  | .tq96M => 0x00040360 | .tq96B => 0x00020060 | .tq64M => 0x00040340 | .tq64B => 0x00020040

/-- SYS_CAPS1 of the standard grade (Table 0.4). -/
def Part.caps1 : Part → Nat
  | .tq96M => 0x00FFF100 | .tq96B => 0x00FFF080 | .tq64M => 0x000FF100 | .tq64B => 0x000FF080

/-- SYS_CAPS1 with the grade (R2: an -AQ part reads the tabled value plus 0x4000_0000). -/
def caps1 (s : State) : Nat := s.part.caps1 + (if s.aq then 0x40000000 else 0)

/-! ### Domains, modes -/

/-- Is domain PDn out of reset (PWR_DOM.ON)? -/
def domOn (s : State) (n : Nat) : Bool := tb (s.get R.PWR_DOM_ON) n

/-- The present mode (Table 15.7). -/
def mode (s : State) : Nat := s.get R.PWR_MODE_MODE

def mDORMANT := 0
def mWATCH := 1
def mFITTING := 2
def mBASTING := 3
def mREADY := 4
def mPRECHARGE := 5
def mCHARGE := 6
def mFEED := 7
def mISLAND := 8
def mAUXILIARY := 9
def mDISCHARGE := 0xA
def mSAFEOFF := 0xB

/-- The GUARD of every guarded command register. -/
def guardWord : Nat := 0x5A7E

/-! ### Time -/

/-- Engine cycles of 2.5 ns in a millisecond. -/
def cyclesPerMs : Nat := 400000

/-- The RTC in milliseconds (R294). -/
def rtcMs (s : State) : Nat := (s.pwr.rtcBase + (s.cyc - s.pwr.rtcAt) / cyclesPerMs) % 2 ^ 64

/-- Fabric time in nanoseconds (R351): a count that runs from the last time it was set. -/
def fabTime (s : State) : Nat := (s.fab.timeBase + (s.cyc - s.fab.timeAt) * 5 / 2) % 2 ^ 64

/-- A number of engine cycles pass. Log entry 8. -/
def pass (s : State) (n : Nat) : State := { s with cyc := s.cyc + n }

/-! ### Free values -/

/-- The next value the spec leaves open (log entry 1). -/
def freeNow (s : State) : BitVec 256 := Config.freeValue s.freeCtr

/-- A free value has been drawn. -/
def freeNext (s : State) : State := { s with freeCtr := s.freeCtr + 1 }

/-- `num / den` where the spec states no rounding: exact where it divides, else one of the two whole numbers around it,
which one being open at `site` (log entry 1). -/
def quant (site : Nat) (num den : Int) : Int :=
  if num % den = 0 then num / den else num / den + Config.quantise site num den % 2

/-- `num / den` to the nearest whole number, as the spec's round(); halves go up (log entry 67). -/
def roundDiv (num : Int) (den : Nat) : Int := fdiv (2 * num + den) (2 * den)

/-! ### Per-object tables -/

/-- The controller end of the link of S`n`. -/
def link (s : State) (n : Nat) : LinkEnd := tget (fun _ => LinkEnd.zero) s.links n
def setLink (s : State) (n : Nat) (l : LinkEnd) : State := { s with links := tset (fun _ => LinkEnd.zero) s.links n l }

/-- The dielet of S`n`. -/
def dielet (s : State) (n : Nat) : Dielet := tget (fun _ => Dielet.zero) s.dielets n
def setDielet (s : State) (n : Nat) (d : Dielet) : State :=
  { s with dielets := tset (fun _ => Dielet.zero) s.dielets n d }

/-- The detector of a scope code. -/
def detector (s : State) (scope : Nat) : Detector := tget (fun _ => Detector.zero) s.flt.dets scope
def setDetector (s : State) (scope : Nat) (d : Detector) : State :=
  { s with flt := { s.flt with dets := tset (fun _ => Detector.zero) s.flt.dets scope d } }

/-- Bleed bookkeeping of S`n`. -/
def bleedSt (s : State) (n : Nat) : BleedSt := tget (fun _ => BleedSt.zero) s.pwr.bleeds n
def setBleedSt (s : State) (n : Nat) (b : BleedSt) : State :=
  { s with pwr := { s.pwr with bleeds := tset (fun _ => BleedSt.zero) s.pwr.bleeds n b } }

/-- Is the episode of a once-per-episode monitor open (R286, R291, R292)? -/
def episode (s : State) (k : Nat) : Bool := tget (fun _ => false) s.pwr.episodes k
def setEpisode (s : State) (k : Nat) (b : Bool) : State :=
  { s with pwr := { s.pwr with episodes := tset (fun _ => false) s.pwr.episodes k b } }

/-- The own state of context `c`, and of its pleat. -/
def ctxSt (s : State) (c : Nat) : CtxSt := tget (fun _ => CtxSt.zero) s.ctxs c
def setCtxSt (s : State) (c : Nat) (x : CtxSt) : State := { s with ctxs := tset (fun _ => CtxSt.zero) s.ctxs c x }
def pltSt (s : State) (c : Nat) : PltSt := tget (fun _ => PltSt.zero) s.plts c
def setPltSt (s : State) (c : Nat) (x : PltSt) : State := { s with plts := tset (fun _ => PltSt.zero) s.plts c x }

/-! ### Pending mirror writes -/

/-- A two-phase mirror write of this content becomes pending. -/
def addMirror (s : State) (m : Mirror) : State :=
  if s.mirrors.contains m then s else { s with mirrors := s.mirrors ++ [m] }

end Sys2Proof.Machine
end

