-- ==== Sys2Proof/Machine/Identity.lean ====
section
/-!
DEFINITION. The device's identity (R280, R281): its key pair, its certificate in DER, the fingerprint, and what a verifier
reads in a certificate (R343). Log entry 71 says what the spec leaves open in the certificate.
-/
namespace Sys2Proof.Machine

/-! ### The key pair (R280) -/

/-- The private key: fused, readable by nothing. -/
def deviceKey : Nat := Config.deviceSecret % (pN - 1) + 1

/-- The public key (X, Y). -/
def publicKey : Nat × Nat := (ecMul 256 deviceKey (some (pGx, pGy))).getD (0, 0)

/-- The ECDSA signature (r, s) of the hash `h` with the private key `d` and the per-message secret `k` (FIPS 186-5). -/
def ecdsaSign (d h k : Nat) : Nat × Nat :=
  let r := ((ecMul 256 k (some (pGx, pGy))).getD (0, 0)).1 % pN
  (r, invMod k pN * (h + r * d) % pN)

/-! ### DER -/

/-- A tag, the length and the contents. -/
def derItem (tag : Byte) (bs : List Byte) : List Byte :=
  let n := bs.length
  tag :: (if n < 0x80 then beBytes 1 n else if n < 0x100 then 0x81 :: beBytes 1 n else 0x82 :: beBytes 2 n) ++ bs

/-- SEQUENCE, SET, OBJECT IDENTIFIER, BIT STRING of whole bytes, and a non-negative INTEGER. -/
def derSeq (l : List (List Byte)) : List Byte := derItem 0x30 l.flatten
def derSet (bs : List Byte) : List Byte := derItem 0x31 bs
def derOid (bs : List Byte) : List Byte := derItem 0x06 bs
def derBits (bs : List Byte) : List Byte := derItem 0x03 (0 :: bs)
def derNat (n : Nat) : List Byte := derItem 0x02 (beBytes ((n.log2 + 1) / 8 + 1) n)

/-- The bytes of a text. -/
def ascii (t : String) : List Byte := t.toList.map (fun c => BitVec.ofNat 8 c.toNat)

/-- The total length of the item at the head of the bytes. -/
def derLen (bs : List Byte) : Nat :=
  let b (k : Nat) : Nat := (bs.getD k 0).toNat
  if b 1 < 0x80 then 2 + b 1 else if b 1 = 0x81 then 3 + b 2 else 4 + b 2 * 256 + b 3

/-- The contents of the item at the head. -/
def derIn (bs : List Byte) : List Byte :=
  let b := (bs.getD 1 0).toNat
  (bs.take (derLen bs)).drop (if b < 0x80 then 2 else if b = 0x81 then 3 else 4)

/-- What follows the first `n` items. -/
def derSkip : Nat → List Byte → List Byte
  | 0, bs => bs
  | n + 1, bs => derSkip n (bs.drop (derLen bs))

/-! ### Certificates (R281, R343) -/

/-- AlgorithmIdentifier ecdsa-with-SHA256. -/
def ecdsaSha256 : List Byte := derSeq [derOid [0x2A, 0x86, 0x48, 0xCE, 0x3D, 0x04, 0x03, 0x02]]

/-- An attribute of the subject: its object identifier 2.5.4.`k` and its string. -/
def nameAttr (k tag : Byte) (t : List Byte) : List Byte := derSet (derSeq [derOid [0x55, 0x04, k], derItem tag t])

/-- A serial number as 16 upper-case hexadecimal digits. -/
def hexDigits (n : Nat) : List Byte :=
  (List.range 16).map (fun k => let d := n >>> (60 - 4 * k) % 16; BitVec.ofNat 8 (if d < 10 then 48 + d else 55 + d))

/-- The subjectPublicKeyInfo of a P-256 key. -/
def keyInfo (q : Nat × Nat) : List Byte :=
  derSeq [derSeq [derOid [0x2A, 0x86, 0x48, 0xCE, 0x3D, 0x02, 0x01], derOid [0x2A, 0x86, 0x48, 0xCE, 0x3D, 0x03, 0x01, 0x07]],
    derBits (0x04 :: beBytes 32 q.1 ++ beBytes 32 q.2)]

/-- keyUsage: digitalSignature, critical. -/
def keyUsage : List Byte :=
  derSeq [derOid [0x55, 0x1D, 0x0F], [0x01, 0x01, 0xFF], derItem 0x04 [0x03, 0x02, 0x07, 0x80]]

/-- Version 3. -/
def certV3 : List Byte := [0xA0, 0x03, 0x02, 0x01, 0x02]

/-- The names of the device CA and of the root, each as a CN. -/
def deviceCaName : List Byte := derSeq [Config.issuerRest, nameAttr 3 0x0C (ascii "Benvaver Thrumrel Device CA")]
def rootName : List Byte := derSeq [Config.rootRest, nameAttr 3 0x0C (ascii "Benvaver root")]

/-- The part of the device certificate that the CA signs. -/
def deviceTbs (serial : Nat) (q : Nat × Nat) : List Byte :=
  derSeq [certV3, derNat serial, ecdsaSha256, deviceCaName,
    derSeq [derItem 0x18 Config.notBefore, derItem 0x18 (ascii "99991231235959Z")],
    derSeq [nameAttr 5 0x13 (hexDigits serial), nameAttr 3 0x0C (ascii "Thrumrel TQ-96")],
    keyInfo q, derItem 0xA3 (derSeq [keyUsage, Config.otherExtensions])]

/-- The device CA's private key, its public key, and its signature over the part of a certificate that it signs. -/
def caKey : Nat := Config.caSecret % (pN - 1) + 1
def caPublic : Nat × Nat := (ecMul 256 caKey (some (pGx, pGy))).getD (0, 0)
def caSign (tbs : List Byte) : Nat × Nat := ecdsaSign caKey (sha256 tbs) (Config.caNonce tbs % (pN - 1) + 1)

/-- The module's own certificates in DER (R281): the device's, issued by the device CA, and the CA's, issued by the root. -/
def devCert : List Byte :=
  let tbs := deviceTbs Config.deviceSerial.toNat publicKey
  let sig := caSign tbs
  derSeq [tbs, ecdsaSha256, derBits (derSeq [derNat sig.1, derNat sig.2])]
def caCert : List Byte :=
  let alg := derSeq [Config.rootAlgorithm]
  let tbs := derSeq [certV3, derNat Config.caSerial, alg, rootName, derSeq [Config.caValidity], deviceCaName, keyInfo caPublic,
    derItem 0xA3 (derSeq [Config.caExtensions])]
  derSeq [tbs, alg, derBits (Config.rootSignature tbs)]

/-- IDN_FPR as bytes: the fingerprint of the device certificate. -/
def ownFpr : List Byte := beBytes 32 (sha256 devCert)

/-- The signed part, the serialNumber and the P-256 key (X, Y) of a version 3 certificate. -/
def certTbs (cert : List Byte) : List Byte := (derIn cert).take (derLen (derIn cert))
def certSerial (cert : List Byte) : Nat := beNat (derIn (derSkip 1 (derIn (certTbs cert))))
def certKey (cert : List Byte) : Nat × Nat :=
  let k := derIn (derSkip 1 (derIn (derSkip 6 (derIn (certTbs cert)))))
  (beNat (slice k 2 32), beNat (slice k 34 32))

/-- Does a certificate verify under the key of a CA certificate? -/
def certChain (cert ca : List Byte) : Bool :=
  let sig := derIn ((derIn (derSkip 2 (derIn cert))).drop 1)
  let key := certKey ca
  ecdsaVerify key.1 key.2 (sha256 (certTbs cert)) (beNat (derIn sig)) (beNat (derIn (derSkip 1 sig)))

/-! ### Registers (Table 14.15) -/

/-- Word `i` of a byte string whose first byte stands in bits [31:24] of word 0 (R48), and of a window. -/
def hashWord (bs : List Byte) (i : Nat) : Word := BitVec.ofNat 32 (beNat (slice bs (4 * i) 4))
def windowByteWord (bs : List Byte) (i : Nat) : Word := BitVec.ofNat 32 (leAt bs (4 * i))

/-- The word of the identity block at `a`: the factory registers show the device's constants. -/
def idnWord (a : Nat) (s : State) : Word :=
  if a = R.IDN_SERIAL_LO then BitVec.ofNat 32 Config.deviceSerial.toNat
  else if a = R.IDN_SERIAL_HI then BitVec.ofNat 32 (Config.deviceSerial.toNat / 2 ^ 32)
  else if R.IDN_FPR 0 ≤ a ∧ a < R.IDN_CERTLEN then hashWord ownFpr ((a - R.IDN_FPR 0) / 4)
  else if a = R.IDN_CERTLEN then BitVec.ofNat 32 (caCert.length % 2048 * 65536 + devCert.length % 2048)
  else if R.IDN_PUBX 0 ≤ a ∧ a < R.IDN_PUBY 0 then hashWord (beBytes 32 publicKey.1) ((a - R.IDN_PUBX 0) / 4)
  else if R.IDN_PUBY 0 ≤ a ∧ a < R.IDN_PUBY 8 then hashWord (beBytes 32 publicKey.2) ((a - R.IDN_PUBY 0) / 4)
  else if R.IDN_DEVCERT 0 ≤ a ∧ a < R.IDN_CACERT 0 then windowByteWord devCert ((a - R.IDN_DEVCERT 0) / 4)
  else if R.IDN_CACERT 0 ≤ a ∧ a < R.IDN_REPORT 0 then windowByteWord caCert ((a - R.IDN_CACERT 0) / 4)
  else s.word a

/-- Bytes of a register word, its first byte in bits [31:24] (R48). -/
def wordsBe (s : State) (f : Nat → Nat) (n : Nat) : List Byte :=
  (List.range n).flatMap (fun k => beBytes 4 (s.word (f k)).toNat)

/-- FAB_FPR[r] as bytes. -/
def roleFpr (s : State) (r : Nat) : List Byte := wordsBe s (R.FAB_FPR r) 8

end Sys2Proof.Machine
end

