-- ==== Sys2Proof/Machine/Flags.lean ====
section
/-!
DEFINITION. The flags of the host port: the W1C flags of HST_STAT with their port and address, the error response
(R327), the interrupt sources of Table 17.5 and the level of HIRQ_N.
-/
namespace Sys2Proof.Machine

/-- Set a flag of HST_STAT for port `p` and address `a`: LPORT and HST_ERRADDR take them (Table 17.7, Table 17.8). -/
def hostFlag (f : Field) (p a : Nat) (s : State) : State :=
  ((s.flag f true).put R.HST_STAT_LPORT p).put R.HST_ERRADDR_ADDR a

/-- A write was discarded: DISCARDED sets. -/
def discarded (p a : Nat) (s : State) : State := hostFlag R.HST_STAT_DISCARDED p a s

/-- The codes of Table 17.4. -/
def fNONE := 0
def fABSENT := 1
def fDOMOFF := 2
def fORDER := 3
def fCRC := 4
def fFRAME := 5
def fCRCREQ := 6
def fOPCODE := 7
def fQFULL := 8

/-- The error response of a frame (R327): ERESP, a flag of port 0 (Table 17.8), FCODE, ECNT and the first failing address. -/
def errorResponse (c a : Nat) (s : State) : State :=
  ((((s.flag R.HST_STAT_ERESP true).put R.HST_STAT_LPORT 0).put R.HST_STAT_FCODE c).inc R.HST_STAT_ECNT).put R.HST_ERRADDR_ADDR a

/-- Is the queue of port 0 empty (HST_STAT.QEMPTY)? -/
def portQueueEmpty (s : State) (p : Nat) : Bool := s.host.queue.all (fun w => w.port != p)

/-- HST_STAT.QEMPTY follows the queue of port 0. -/
def syncQueue (s : State) : State := s.flag R.HST_STAT_QEMPTY (portQueueEmpty s 0)

/-- Bit `k` of the map is `p (lo + k)`. -/
def mapBits (n lo : Nat) (p : Nat → Bool) : Nat :=
  (List.range n).foldl (fun a k => a + (if p (lo + k) then 2 ^ k else 0)) 0

/-- The CTX map views (Table 6.21). -/
def ctxMap (f : Nat → Field) (s : State) (k : Nat) : Nat :=
  mapBits 32 (32 * k) (fun n => n != 0 && s.on (f n))

/-- WIN_LATk (Table 9.7). -/
def winLat (s : State) (k : Nat) : Nat := mapBits 32 (32 * k) (fun n => s.on (R.WIN_STAT_LATCHED n))

/-- WIN_UNSk (Table 9.7). -/
def winUns (s : State) (k : Nat) : Nat := mapBits 32 (32 * k) (fun n => s.on (R.WIN_STAT_UNSETTLED n))

/-- STI_RETMAPm (Table 4.29). -/
def retMap (s : State) (m : Nat) : Nat :=
  mapBits 32 (32 * m) (fun n => decide (n < s.part.stitches) && (tget (fun _ => LedgerEntry.zero) s.ledger n).retired)

/-- STI_HIZMAPm (Table 4.29). -/
def hizMap (s : State) (m : Nat) : Nat :=
  mapBits 32 (32 * m) (fun n => decide (n < s.part.stitches) && s.get (R.STI_STATE_STATE n) == 4)

/-- The fabric interrupt cause: any FAB_IRQ flag enabled in FAB_IEN (spec/18, Table 18.8). -/
def fabCause (s : State) : Bool :=
  (s.word R.FAB_IRQ &&& s.word R.FAB_IEN) != 0

/-- Any FAB_IRQ-style flag of a CAN controller enabled. -/
def canCause (s : State) (b : Nat) : Bool := (s.word (R.CAN_IRQ b) &&& s.word (R.CAN_IEN b)) != 0

/-- HST_ISRC (Table 17.5). Bits of units absent on the part read 0 (R329). -/
def isrc (s : State) : Nat :=
  let b (k : Nat) (c : Bool) : Nat := if c then 2 ^ k else 0
  b 0 (s.on R.HST_STAT_ABSENT || s.on R.HST_STAT_DISCARDED || s.on R.HST_STAT_LATE || s.on R.HST_STAT_DOMOFF
        || s.on R.HST_STAT_ERESP || s.on R.HST_STAT_CRCERR)
  + b 1 (s.on R.PAT_STAT_DONE)
  + b 2 ((s.word R.ACQ_IRQ &&& s.word R.ACQ_IEN) != 0)
  + b 3 (winLat s 0 != 0 || winLat s 1 != 0)
  + b 4 (s.on R.GRD_STAT_TRIPPED || s.on R.GRD_STAT_ISL || s.on R.GRD_STAT_CEASE)
  + b 5 (s.part.isM && s.on R.HST_EVT_MREC)
  + b 6 (domOn s 1 && s.on R.SAF_STAT_LATCH)
  + b 7 (decide (s.get R.FLT_NEXTSEQ_SEQ > s.get R.FLT_LOGACK_SEQ + 1))
  + b 8 (s.on R.IDN_STAT_DONE)
  + b 9 (s.on R.PWR_STAT_MDONE || s.on R.PWR_STAT_BROWN)
  + b 10 (canCause s 0) + b 11 (canCause s 1)
  + b 12 (fabCause s)
  + b 13 (ctxMap R.CTX_STAT_LATE s 0 != 0 || ctxMap R.CTX_STAT_LATE s 1 != 0
        || ctxMap R.CTX_STAT_FB s 0 != 0 || ctxMap R.CTX_STAT_FB s 1 != 0)
  + b 14 (s.on R.HST_EVT_RET || hizMap s 0 != 0 || hizMap s 1 != 0 || hizMap s 2 != 0)

/-- Is HIRQ_N driven low (R329, R290: released while PD2 is off)? Log entry 25. -/
def hirqLow (s : State) : Bool := domOn s 2 && (isrc s &&& s.get R.HST_IEN_EN) != 0

end Sys2Proof.Machine
end

