-- ==== Sys2Proof/Machine/Tree.lean ====
section
/-!
DEFINITION. Reading the seam tree (spec/02): paths, owners, subtrees, enables, weights, capacity and health.
-/
namespace Sys2Proof.Machine

/-- The seam numbers 1–63. -/
def seams : List Nat := (List.range 63).map (· + 1)

/-- The type of a seam (Table 2.1). -/
def seamType (s : State) (n : Nat) : Nat := s.get (R.SEAM_DESC_TYPE n)

def tSINGLE := 1
def tSTACK := 2
def tSHIFT := 3
def tBRIDGE := 4
def tTRIAD := 5
def tLINK := 6

/-- Is the descriptor in use? -/
def seamUsed (s : State) (n : Nat) : Bool := n != 0 && seamType s n != 0

/-- The child code in slot `k` (R31). -/
def childCode (s : State) (n k : Nat) : Nat := bitsOf (s.word (R.SEAM_CHILD n (k / 4))) (8 * (k % 4)) 8

/-- The child codes of a seam, in slot order. -/
def children (s : State) (n : Nat) : List Nat :=
  (List.range (s.get (R.SEAM_DESC_NCHILD n))).map (childCode s n)

/-- The child code of a stitch is its number; of a seam, 0x80 plus its number (R31). -/
def seamCode (n : Nat) : Nat := 0x80 + n
def isSeamCode (c : Nat) : Bool := decide (0x81 ≤ c) && decide (c ≤ 0xBF)
def isStitchCode (c : Nat) : Bool := decide (c ≤ 0x5F)

/-- The path from a seam to its root, the seam first. -/
def pathUp (s : State) : Nat → Nat → List Nat
  | 0, _ => []
  | f + 1, n => if seamUsed s n then n :: pathUp s f (s.get (R.SEAM_DESC_PARENT n)) else []

/-- The path from seam `n` to its root. -/
def path (s : State) (n : Nat) : List Nat := pathUp s 63 n

/-- The root of seam `n` (0 if the descriptor is unused). -/
def rootOf (s : State) (n : Nat) : Nat := (path s n).getLast?.getD 0

/-- The seam that names stitch `n`, 0 if none does (R27). -/
def ownerOf (s : State) (n : Nat) : Nat :=
  (seams.find? (fun m => seamUsed s m && (children s m).contains n)).getD 0

/-- The slot of seam `p` that names child code `c`. -/
def slotOf (s : State) (p c : Nat) : Nat := ((children s p).findIdx? (· == c)).getD 0

/-- Does a hold of seam `h` cover seam `n` (`h` = 64: every root)? -/
def covers (s : State) (h n : Nat) : Bool := h == 64 || (h != 0 && (path s n).contains h)

/-- The seam held for a fault at seam `n` (R26). -/
def holdPoint (s : State) (n : Nat) : Nat :=
  match (path s n).find? (fun m => s.on (R.SEAM_DESC_HOLDPT m)) with
  | some m => m
  | none => rootOf s n

/-- The roots in use. -/
def roots (s : State) : List Nat := seams.filter (fun n => seamUsed s n && s.get (R.SEAM_DESC_PARENT n) == 0)

/-- The stitches of the subtree of a seam, depth first in slot order (R33). -/
def stitchesUnder (s : State) : Nat → Nat → List Nat
  | 0, _ => []
  | f + 1, n => (children s n).flatMap (fun c =>
      if isStitchCode c then [c] else if isSeamCode c then stitchesUnder s f (c - 0x80) else [])

/-- The stitches of the part. -/
def stitches (s : State) : List Nat := List.range s.part.stitches

/-- The ledger entry of stitch `n` (R95), in Selvedge retention. -/
def ledgerOf (s : State) (n : Nat) : LedgerEntry := tget (fun _ => LedgerEntry.zero) s.ledger n

/-- Is a stitch retired? -/
def retired (s : State) (n : Nat) : Bool := (ledgerOf s n).retired

/-- Is a stitch claimed by a seam? -/
def claimed (s : State) (n : Nat) : Bool := ownerOf s n != 0

/-- The enable of a seam in effect: set at a period start since it was written 1, and still 1 (R25). -/
def enLatched (s : State) (n : Nat) : Bool := s.enabled.contains n && s.on (R.SEAM_CTL_EN n)

/-- The effective enable of a seam (R25). -/
def effEnabled (s : State) (n : Nat) : Bool := seamUsed s n && (path s n).all (enLatched s)

/-- Is a stitch capable (R36)? -/
def capable (s : State) (n : Nat) : Bool :=
  claimed s n && !retired s n && (s.get (R.STI_STATE_STATE n) == 2 || s.get (R.STI_STATE_STATE n) == 3)

/-- The weight of a child (R28), none for BRIDGE, TRIAD, LINK and a SHIFT whose children differ. -/
def weight (s : State) : Nat → Nat → Option Nat
  | 0, _ => none
  | f + 1, c =>
    if isStitchCode c then some 1
    else
      let n := c - 0x80
      let ws := (children s n).map (weight s f)
      match seamType s n with
      | 1 => some 1
      | 2 => ws.foldl (fun a w => match a, w with | some x, some y => some (x + y) | _, _ => none) (some 0)
      | 3 => match ws with
        | some w :: t => if t.all (· == some w) then some w else none
        | _ => none
      | _ => none

/-- Capacity on the 32,768 scale, nominal levels and available levels of a child (Table 2.13). -/
structure Capacity where
  cap : Nat
  nom : Nat
  avl : Nat
  deriving DecidableEq, Repr

/-- The floor of the mean of a list. -/
def meanFloor (l : List Nat) : Nat := if l.length = 0 then 0 else l.sum / l.length

/-- A capacity as SEAM_CAP.CAP shows it, back on the 32,768 scale. -/
def capScale (c : Nat) : Nat := if c ≥ 0x7FFF then 32768 else c

/-- Capacity and levels of a LINK as last received from the remote seam (Table 2.13). -/
def linkCapacity (s : State) (n : Nat) : Capacity :=
  let w := tget (fun _ => (0 : Word)) s.linkCaps n
  ⟨capScale (bitsOf w 0 16), bitsOf w 27 5, bitsOf w 22 5⟩

/-- Table 2.13 for child code `c`; `held` says that a hold covers it. -/
def capOf (s : State) : Nat → Nat → Capacity
  | 0, _ => ⟨0, 0, 0⟩
  | f + 1, c =>
    if isStitchCode c then ⟨if capable s c then 32768 else 0, 1, if retired s c then 0 else 1⟩
    else
      let n := c - 0x80
      let held := s.on (R.SEAM_STATE_HELD n)
      let cs := (children s n).map (capOf s f)
      let sum := cs.map (·.nom) |>.sum
      let avs := cs.map (·.avl)
      let raw : Capacity := match seamType s n with
        | 1 => ⟨(cs.map (·.cap)).headD 0, 1, (cs.map (·.avl)).headD 0⟩
        | 2 => ⟨meanFloor (cs.map (·.cap)), sum, avs.sum⟩
        | 3 => ⟨meanFloor (cs.map (·.cap)), (weight s f c).getD 0, ((avs.filter (· > 0)).min?).getD 0⟩
        | 6 => linkCapacity s n
        | 0 => ⟨0, 0, 0⟩
        | _ => ⟨((cs.map (·.cap)).min?).getD 0, 0, 0⟩
      if held then { raw with cap := 0 } else raw

/-- Does the remote seam of LINK `n` report HELD (R356)? `linkCaps` holds the received SEAM_STATE at 64 + n. -/
def linkHeld (s : State) (n : Nat) : Bool :=
  seamType s n == tLINK && bitsOf (tget (fun _ => (0 : Word)) s.linkCaps (64 + n)) 30 1 == 1

/-- Has LINK `n` received a LINKST (R356)? `linkCaps` holds 1 at 128 + n from then on. -/
def linkKnown (s : State) (n : Nat) : Bool :=
  seamType s n == tLINK && tget (fun _ => (0 : Word)) s.linkCaps (128 + n) == 1

/-- HEALTH of a seam (Table 2.14). -/
def healthOf (s : State) (n : Nat) (c : Capacity) : Nat :=
  if s.on (R.SEAM_STATE_HELD n) then 2
  else if c.cap = 0 then 3
  else if c.cap ≥ 32767 ∧ c.avl = c.nom then 0
  else 1

/-- SEAM_CAP and HEALTH of one seam recomputed (R36). A LINK keeps what it last received. -/
def refreshCap (n : Nat) (s : State) : State :=
  if seamUsed s n then
    let c := capOf s 64 (seamCode n)
    let s1 := ((s.put (R.SEAM_CAP_CAP n) (min c.cap 0x7FFF)).put (R.SEAM_CAP_LEVELS_NOM n) c.nom).put
        (R.SEAM_CAP_LEVELS_AVL n) c.avl
    s1.put (R.SEAM_STATE_HEALTH n) (healthOf s1 n c)
  else s

/-- SEAM_CAP and HEALTH of every seam recomputed, leaves before their parents is not needed: each is computed from
its own subtree (R36). -/
def refreshCaps (s : State) : State := forL seams refreshCap s

end Sys2Proof.Machine
end

