-- ==== Sys2Proof/Machine/Links.lean ====
section
/-!
DEFINITION. The controller end of the stitch links: management frames due and out (R382), the settings (R85), the
view of a stitch (R89), what a dielet does with its gates, and the sources of R14.
-/
namespace Sys2Proof.Machine

/-! ### Frame types (Table 4.10) and stitch codes (after Table 4.15) -/

def frWRITE := 1
/-- TICK: the spec gives no occasion on which the controller sends one, and this controller queues none (log entry 73). -/
def frTICK := 2
def frHOLD := 3
def frRELEASE := 4
def frRETIRE := 5
def frUNRETIRE := 6
def frBLEED := 7
def frSLEEP := 8

def stASLEEP := 0
def stWAKING := 1
def stIDLE := 2
def stRUN := 3
def stHIZ := 4
def stBYPASS := 5
def stOPEN := 6
def stFAULT := 7

/-- The code of a stitch state. -/
def StitchState.toCode : StitchState → Nat
  | .asleep => 0 | .waking => 1 | .idle => 2 | .run => 3 | .hiz => 4 | .bypass => 5 | .opened => 6 | .fault => 7

/-- The stitch state of a code. -/
def stateOfCode : Nat → StitchState
  | 0 => .asleep | 1 => .waking | 2 => .idle | 3 => .run | 4 => .hiz | 5 => .bypass | 6 => .opened | _ => .fault

/-- Is the dielet awake? -/
def Dielet.awake (d : Dielet) : Bool :=
  match d.st with
  | .asleep => false
  | .waking => false
  | _ => true

/-- Does the controller see the stitch awake? -/
def seenAwake (s : State) (n : Nat) : Bool := decide (2 ≤ s.get (R.STI_STATE_STATE n))

/-- Does the controller see the stitch awake or waking? -/
def seenLinked (s : State) (n : Nat) : Bool := decide (1 ≤ s.get (R.STI_STATE_STATE n))

/-- Is stitch `n` on this part? Log entry 24. -/
def stitchThere (s : State) (n : Nat) : Bool := decide (n < s.part.stitches)

/-! ### Management frames -/

/-- A frame becomes due on link `n`: it takes its place behind the frames due before it (R382). The downlink runs
only while PD5 is on (R288). -/
def queueFrame (n ty reg data : Nat) (s : State) : State :=
  if domOn s 5 then
    let l := link s n
    setLink s n { l with due := l.due ++ [⟨ty, reg, data, l.nextSeq, 0⟩], nextSeq := (l.nextSeq + 1) % 16 }
  else s

/-- The register offsets of the settings, in register order (R85): STI_CFG to STI_SLIM1, STI_ADCTL, STI_STR. -/
def settingOffsets : List Nat := [0x00, 0x04, 0x08, 0x0C, 0x10, 0x14, 0x18, 0x1C, 0x20, 0x24, 0x28]

/-- A WRITE frame for every setting of stitch `n`, in register order; SETOK clears until all are acknowledged (R85). Log entry 23. -/
def sendSettings (n : Nat) (s : State) : State :=
  let s1 := forL settingOffsets (fun o a =>
    let w := if o = 0x28 then (link a n).str.getD (a.word (R.STI_STR n)) else a.word (R.STI_CFG n + o)
    queueFrame n frWRITE (o / 4) w.toNat a) s
  let s2 := setLink s1 n { link s1 n with settings := true }
  s2.flag (R.STI_STATE_SETOK n) false

/-- SETOK sets once the settings were sent and no WRITE frame of link `n` is due or out (R85). -/
def checkSetok (n : Nat) (s : State) : State :=
  let l := link s n
  let left := (l.due ++ l.out).any (fun f => f.ty == frWRITE)
  if l.settings && !left && !s.on (R.STI_STATE_SETOK n) then s.flag (R.STI_STATE_SETOK n) true else s

/-! ### PCDONE -/

/-- Have the claimed stitches all come to IDLE with SETOK (R302)? -/
def stitchesReady (s : State) : Bool :=
  (stitches s).all (fun n => !claimed s n || retired s n ||
    (s.get (R.STI_STATE_STATE n) == stIDLE && s.on (R.STI_STATE_SETOK n)))

/-- PCDONE sets in PRECHARGE once both conditions hold (R302). Log entry 20. -/
def checkPcdone (s : State) : State :=
  if mode s = mPRECHARGE ∧ 2 ≤ s.pwr.preHits ∧ stitchesReady s = true then s.flag R.PWR_STAT_PCDONE true else s

/-! ### The sources of R14 -/

/-- Rank 1: the hem latch is set (R226), or a self-test drives the path (R243), PD1 being on. -/
def hemActive (s : State) : Bool := domOn s 1 && (s.on R.SAF_STAT_LATCH || s.on R.SAF_STAT_STRUN)

/-- A fault-manager hold of tier T2 or above, or the grid hold of R193, covers seam `m`. -/
def holdCovers (s : State) (m : Nat) : Bool :=
  m != 0 && (s.flt.dets.any (fun e => decide (2 ≤ e.2.tier) && covers s e.2.reach m)
    || (s.on R.GRD_STAT_HOLD && covers s (s.get R.GRD_CFG_ROOT) m))

/-- Does a hold that covers seam `m` show: one of which no queued write is left to be performed first (R267)? -/
def holdShows (s : State) (m : Nat) : Bool :=
  let shows (h : Nat) : Bool := covers s h m && !s.host.holdWait.any (fun x => x.1 == h)
  linkHeld s m || s.flt.dets.any (fun e => decide (2 ≤ e.2.tier) && shows e.2.reach)
    || (s.on R.GRD_STAT_HOLD && shows (s.get R.GRD_CFG_ROOT))

/-- A latched window routes to stitch `n` (R179). -/
def winCovers (s : State) (n : Nat) : Bool :=
  (List.range 64).any (fun w => s.on (R.WIN_STAT_LATCHED w) &&
    (let t := s.get (R.WIN_CFG_TGT w)
     t == n || (isSeamCode t && (path s (ownerOf s n)).contains (t - 0x80))))

/-- The scope codes of the two detectors of stitch `n` (Table 13.2). -/
def stitchScope (n : Nat) : Nat := 0x1000 + n
def linkScope (n : Nat) : Nat := 0x1100 + n

/-- A reaction of the stitch's own detectors is in force. -/
def ownCovers (s : State) (n : Nat) : Bool :=
  decide (1 ≤ (detector s (stitchScope n)).tier) || decide (1 ≤ (detector s (linkScope n)).tier)

/-- Rank 2 for stitch `n`, its own detectors apart: a hold or a routed window (R14 reaches no retired stitch). -/
def rank2 (s : State) (n : Nat) : Bool := !retired s n && (holdCovers s (ownerOf s n) || winCovers s n)

/-- The command that the multiplexer of link `n` selects when the modulator commands `m` (R14, Table 1.2): the code
of Table 4.3, and whether the modulator was obeyed. A stitch that no seam claims receives OFF even where it is retired
to BYPASS (R27 over rank 3, log entry 61). -/
def linkCommand (s : State) (n m : Nat) : Nat × Bool :=
  if hemActive s || ownerOf s n == 0 then (0, false)
  else if rank2 s n || (ownCovers s n && !retired s n) then (0, false)
  else if retired s n then ((if (ledgerOf s n).mode then 0 else 1), false)
  else if s.get (R.STI_STATE_STATE n) = stRUN ∧ effEnabled s (ownerOf s n) = true ∧ s.waits.contains n = false then
    (m, true)
  else (0, false)

/-! ### Dielets -/

/-- Both gates off and nothing waiting to turn on: a transition to OFF (R73). -/
def Dielet.off (d : Dielet) : Dielet :=
  { d with gh := false, gl := false, incoming := none, inG := none
           outG := if d.gh then some .high else if d.gl then some .low else d.outG }

/-- Both gates of dielet `n` off (an OFF symbol, or Hi-Z). -/
def gatesOff (n : Nat) (s : State) : State := setDielet s n (dielet s n).off

/-- A dielet that hears OFF in RUN or IDLE turns both gates off (R68); under retirement it ignores the symbol. -/
def hearOff (n : Nat) (s : State) : State :=
  if (dielet s n).mode.isSome then s
  else match (dielet s n).st with
  | .run => gatesOff n s
  | .idle => gatesOff n s
  | _ => s

/-- Does dielet `n` obey gate symbols (Table 4.3, R90)? -/
def drives (d : Dielet) : Bool := d.st == .run && d.mode == none && !d.hemoff

/-- GL begins to turn on, the incoming gate of the transition (R73); into a bypass that awaits it, verification begins
(R92). -/
def Dielet.glOn (d : Dielet) : Dielet :=
  { d with gl := true, incoming := none, inG := some .low
           verify := d.verify || (d.mode == some false && d.st != .bypass) }

/-- A stitch retires to OPEN: both gates off (R91, R83). -/
def Dielet.toOpen (d : Dielet) : Dielet :=
  { d.off with mode := some true, st := .opened, clamp := false, cause := 0, topup := false, verify := false }

/-- GL holds a stitch that retires to BYPASS, both gates being off or a clamp in force, which becomes the bypass (R83,
R92). -/
def Dielet.toBypass (d : Dielet) : Dielet :=
  if d.clamp ∧ d.gl then { d with mode := some false, clamp := false, st := .bypass, cause := 0 }
  else { d with mode := some false, clamp := false }.glOn

/-- A LOW symbol at a dielet (R68, R70, R71). -/
def Dielet.low (d : Dielet) : Dielet :=
  if !drives d || d.gl || d.incoming == some .low then d
  else if d.gh then { d with gh := false, incoming := some .low, outG := some .high, inG := some .low }
  else if d.incoming == some .high then d.glOn
  else { d with incoming := some .low, inG := some .low }

/-- The symbol on link `n` becomes `c`, from the next downlink slot: the dielet hears OFF or LOW of ranks 1 to 3 (R14). -/
def putSymbol (n c : Nat) (s : State) : State :=
  let s1 := setLink s n { link s n with cmd := c }
  if c = 0 then hearOff n s1 else if c = 1 then setDielet s1 n (dielet s1 n).low else s1

/-- The link of stitch `n` obeys the highest-ranked source (R14, R25, R27): where the symbol last launched is no longer
the selected one, the selected one takes its place. -/
def syncCmd (n : Nat) (s : State) : State :=
  let c := (linkCommand s n (link s n).cmd).1
  if c = (link s n).cmd then s else putSymbol n c s

/-- The controller sends OFF on link `n` (R14, R25): a dielet in RUN or IDLE turns both gates off. -/
def driveOff (n : Nat) (s : State) : State := hearOff n (setLink s n { link s n with cmd := 0 })

/-- The controller's view of a stitch becomes `st` with `cause` (0 unless HIZ or FAULT). -/
def setView (n st cause : Nat) (s : State) : State :=
  (s.put (R.STI_STATE_STATE n) st).put (R.STI_STATE_HIZCAUSE n) (if st = stHIZ ∨ st = stFAULT then cause else 0)

/-- The view of a stitch becomes `st`; what let it leave an earlier FAULT counts no more once FAULT is left or entered
again (Table 4.13). -/
def noteView (n st cause : Nat) (s : State) : State :=
  let s1 := setView n st cause s
  if st = stFAULT ∧ s.get (R.STI_STATE_STATE n) = stFAULT then s1 else setLink s1 n { link s1 n with leave := false }

/-- EN_EFF of seam `n` as SEAM_STATE shows it: the effective enable, and at a LINK the remote seam's, once it has reported
(R25, R356). Log entry 36. -/
def shownEnable (s : State) (n : Nat) : Bool :=
  if linkKnown s n then tb (tget (fun _ => (0 : Word)) s.linkCaps (64 + n)).toNat 31 else effEnabled s n

/-- SEAM_STATE.EN_EFF of every seam follows (R25). -/
def syncEnables (s : State) : State :=
  forL seams (fun n a =>
    if a.on (R.SEAM_STATE_EN_EFF n) == shownEnable a n then a else a.flag (R.SEAM_STATE_EN_EFF n) (shownEnable a n)) s

/-- After an enable fell: EN_EFF follows, and every stitch whose seam is no longer effectively enabled, retired ones
apart, is sent OFF from the next downlink slot and leaves RUN for IDLE (R25, Table 4.13). -/
def afterEnableFall (s : State) : State :=
  let s1 := syncEnables s
  forL (stitches s1) (fun n a =>
    if effEnabled s (ownerOf s n) || retired a n then a
    else
      let b := driveOff n a
      let d := dielet b n
      let c := if d.st = .run then setDielet b n { d with st := .idle } else b
      if c.get (R.STI_STATE_STATE n) = stRUN then setView n stIDLE 0 c else c) s1

/-- A seam's enable is written 0: it leaves effect at once (R25). A REMOTE root takes a new sender when its enable
rises again (R356). -/
def dropEnable (n : Nat) (s : State) : State :=
  let x := tget (fun _ => RemoteX.zero) s.fab.remotes n
  let rs := tset (fun _ => RemoteX.zero) s.fab.remotes n { RemoteX.zero with ep := x.ep, last := x.last }
  afterEnableFall { s.flag (R.SEAM_CTL_EN n) false with
    enabled := s.enabled.filter (· != n)
    fab := { s.fab with remotes := rs } }

/-- The dielet sends an alert: it is on its way on the uplink. -/
def sendAlert (n c : Nat) (s : State) : State :=
  let d := dielet s n
  setDielet s n { d with alerts := d.alerts ++ [c] }

/-- The dielet goes to Hi-Z with a cause (R82): gates at VNEG, alert sent. A retired dielet keeps its mode. -/
def toHiz (n cause : Nat) (s : State) : State :=
  let d := dielet s n
  sendAlert n cause (setDielet s n
    { d.off with st := .hiz, cause := cause, clamp := false, topup := false, verify := false })

/-- The controller wakes the link of a stitch again (Table 4.13, FAULT: retry): the stitch is WAKING, and so is its
dielet if it is awake and hears the link. The settings are sent afresh once it is heard, and a hold again (R85, R250). -/
def wakeLink (n : Nat) (s : State) : State :=
  let d := dielet s n
  let s1 := if d.awake && !d.lost then setDielet s n { d.off with st := .waking, cause := 0 } else s
  let s2 := setLink s1 n { link s1 n with due := [], out := [], settings := false, held := false, leave := false }
  ((s2.flag (R.STI_STATE_SETOK n) false).put (R.STI_STATE_STATE n) stWAKING).put (R.STI_STATE_HIZCAUSE n) 0

/-! ### Holds and releases -/

/-- Stitch `n` takes no modulator command before the next period of the carrier that times it, and its link carries
OFF until then (R15). -/
def mustWait (n : Nat) (s : State) : State :=
  syncCmd n (if s.get (R.STI_STATE_STATE n) = stRUN ∧ s.waits.contains n = false then { s with waits := n :: s.waits }
    else s)

/-- Does the view show Hi-Z on a cause of the stitch's own? -/
def ownHiz (s : State) (n : Nat) : Bool :=
  s.get (R.STI_STATE_STATE n) == stHIZ && s.get (R.STI_STATE_HIZCAUSE n) != 0x10

/-- HOLD and RELEASE frames of stitch `n` follow the sources of rank 1 and 2 (R250, R179, R180, R90). A stitch in HIZ on
a cause of its own gets no RELEASE as a hold ends. -/
def syncHold (n : Nat) (s : State) : State :=
  let l := link s n
  let want := rank2 s n
  if want && !l.held && seenAwake s n then
    driveOff n (queueFrame n frHOLD 0 0 (setLink s n { l with held := true }))
  else if !want && l.held && !hemActive s && !ownCovers s n && !retired s n then
    let s1 := setLink s n { l with held := false }
    mustWait n (if ownHiz s n then s1 else queueFrame n frRELEASE 0 0 s1)
  else if !want && l.held && retired s n then setLink s n { l with held := false }
  else s

/-- Frames and symbol of stitch `n` in line with the sources of R14. -/
def syncStitch (n : Nat) (s : State) : State := syncCmd n (syncHold n s)

/-- The scope code of context `c` (Table 13.2). -/
def contextScope (c : Nat) : Nat := 0x3000 + c

/-- Is the phase source of the pleat of context `c` locked now (Table 7.1)? -/
def phaseLocked (s : State) (c : Nat) : Bool :=
  s.on (R.PLT_CFG_PSRC c) || (if s.get (R.PLT_CFG_PIDX c) = 19 then s.on R.GRD_STAT_FORMING else s.on R.GRD_STAT_LOCK)

/-- The pleat of context `c` sees the lock of its phase source (R150): a loss is counted, a return clears ULK and starts the
relock wait. -/
def pleatSees (c : Nat) (s : State) : State :=
  let p := pltSt s c
  let lk := phaseLocked s c
  if !tb (s.get (R.CTX_CFG_STG c)) 5 || p.lock == some lk then s
  else
    let s1 := s.flag (R.PLT_STAT_ULK c) (!lk)
    match p.lock with
    | none => setPltSt s1 c { p with lock := some lk }
    | some true => setPltSt ((s1.inc (R.PLT_CNT_ULKCNT c)).flag (R.PLT_STAT_RELKW c) false) c { p with lock := some false, relk := 0 }
    | some false =>
      let w := s.get (R.PLT_CFG_RELK c)
      setPltSt (s1.flag (R.PLT_STAT_RELKW c) (decide (0 < w))) c { p with lock := some true, relk := w, back := true }

/-- Every pleat sees a lock that has changed. -/
def pleatsSee (s : State) : State := forL seams pleatSees s

/-- The contexts that depend on context `c` need not wait for it any more (R129). -/
def settleDep (c : Nat) (s : State) : State :=
  { s with ctxs := tmap (fun _ => CtxSt.zero) (fun _ x => { x with deps := x.deps.filter (· != c) }) s.ctxs }

/-- The context's execution state follows PARK and HPARK (Table 6.5, R154): IDLE and WAITING park at once, RUNNING and
DONE after their update instant; a release waits for a clear of the pleat memory to end, and makes the next execution
the first. -/
def parkSync (c : Nat) (s : State) : State :=
  let x := ctxSt s c
  let park := s.on (R.CTX_CTL_PARK c) || s.on (R.CTX_STAT_HPARK c)
  let s1 := match x.ex with
    | .idle => if park then setCtxSt s c { x with ex := .parked } else s
    | .waiting => if park then settleDep c (setCtxSt s c { x with ex := .parked, eligible := false, rounds := [],
                                                                  deps := [] }) else s
    | .parked => if park || s.on (R.PLT_STAT_CLEARING c) then s else setCtxSt s c { x with ex := .idle, used := false }
    | .running => s
    | .done => s
  let s2 := if (ctxSt s1 c).ex = .idle ∧ x.ex = .parked then setPltSt s1 c { pltSt s1 c with run := false } else s1
  s2.flag (R.CTX_STAT_PARKED c) ((ctxSt s2 c).ex == .parked)

/-- Does seam `n` show HELD for a hold of this part, and not for its remote seam alone? Log entry 36. -/
def heldHere (s : State) (n : Nat) : Bool := s.on (R.SEAM_STATE_HELD n) && (holdCovers s n || !linkHeld s n)

/-- HPARK of a context: its trigger seam is held (R250), or its own T1 reaction is in force (Table 13.4). A hold of its own
detector shows with HELD, which queued writes may delay (R267). -/
def syncContext (c : Nat) (s : State) : State :=
  let trig := s.get (R.CTX_CFG_TRIG c)
  let own := (detector s (contextScope c)).tier
  let want := trig != 0 && (heldHere s trig || own == 1 || (decide (2 ≤ own) && s.on (R.CTX_STAT_HPARK c)))
  if s.on (R.CTX_STAT_HPARK c) == want then s else parkSync c (s.flag (R.CTX_STAT_HPARK c) want)

/-- HELD of every seam, of a LINK for its remote seam too (R356), then HPARK of every context, recomputed; a rise waits while
queued writes of R267 are still to be performed for each hold in force (`holdWait`). -/
def syncHeld (s : State) : State :=
  let s1 := forL seams (fun n a =>
    let want := seamUsed a n && (holdCovers a n || linkHeld a n)
    let now := a.on (R.SEAM_STATE_HELD n)
    if want == now then a
    else if want && !holdShows a n then a
    else a.flag (R.SEAM_STATE_HELD n) want) s
  refreshCaps (forL seams syncContext s1)

/-- Every hold brought in line: frames to the stitches, HELD, HPARK, capacities. -/
def syncHolds (s : State) : State := syncHeld (forL (stitches s) syncStitch s)

/-- The lift of a reaction of a stitch's own detector (Table 13.4): a stitch in FAULT is retried through a wake of
the link; any other gets RELEASE at every lift, and a HOLD behind it while another source still holds it (R250). Log entry 15. -/
def liftOwn (n : Nat) (s : State) : State :=
  if retired s n then s
  else if s.get (R.STI_STATE_STATE n) = stFAULT then wakeLink n s
  else
    let s1 := queueFrame n frRELEASE 0 0 (setLink s n { link s n with held := rank2 s n })
    if rank2 s n then queueFrame n frHOLD 0 0 s1 else mustWait n s1

end Sys2Proof.Machine
end

