-- ==== Sys2Proof/Machine/Lane.lean ====
section
/-!
DEFINITION. What the fabric sends (spec/18): ports and their queues, frames and their order on the lane, and the replies of
remote writes. It stands before every register write, because a write that was the last of a remote request answers it
(R358).
-/
namespace Sys2Proof.Machine

/-! ### The CRC of a frame (R271, R341) -/

/-- A 64-bit parameter from its two words. -/
def longPar (s : State) (lo hi : Nat) : Nat := (s.word hi).toNat * 2 ^ 32 + (s.word lo).toNat

/-- The parameters in the registers of unit `u`. -/
def ovlParOf (s : State) (u : Nat) : OvlPar :=
  { width := s.get (R.OVL_CFG_WIDTH u), poly := longPar s (R.OVL_POLY_LO u) (R.OVL_POLY_HI u),
    init := longPar s (R.OVL_INIT_LO u) (R.OVL_INIT_HI u), xor := longPar s (R.OVL_XOR_LO u) (R.OVL_XOR_HI u),
    refin := s.on (R.OVL_CFG_REFIN u), refout := s.on (R.OVL_CFG_REFOUT u) }

/-- The check value of a byte string under a parameter set (R271). -/
def OvlPar.check (p : OvlPar) (bs : List Byte) : Nat :=
  crcOf p.width p.poly p.init p.refin p.refout p.xor bs

/-! ### Ports (R340, R344) -/

/-- The own state of port `p`. -/
def fabPort (s : State) (p : Nat) : PortSt := tget (fun _ => PortSt.zero) s.fab.ports p
def setFabPort (s : State) (p : Nat) (x : PortSt) : State :=
  { s with fab := { s.fab with ports := tset (fun _ => PortSt.zero) s.fab.ports p x } }

def pDOWN := 0
def pTRAIN := 1
def pHELLO := 2
def pUP := 3
def pFAILED := 4

/-- FAB_PSTAT.STATE of a port. -/
def portState (s : State) (p : Nat) : Nat := s.get (R.FAB_PSTAT_STATE p)

/-- The ports of the part. -/
def fabPorts (s : State) : List Nat := List.range s.part.ports

/-- May a port run: enabled, with a Pattern in force, PD2 on (R340)? -/
def portRuns (s : State) (p : Nat) : Bool :=
  domOn s 2 && decide (p < s.part.ports) && s.on R.FAB_CFG_EN && s.on (R.FAB_PCFG_EN p) && s.on R.PAT_STAT_LOADED

/-- Is a port UP? Without a Pattern in force no port is (Table 18.3). -/
def portUp (s : State) (p : Nat) : Bool := domOn s 2 && s.on R.PAT_STAT_LOADED && portState s p == pUP

/-- Does a port carry frames (HELLO or UP)? -/
def portTalks (s : State) (p : Nat) : Bool := domOn s 2 && s.on R.PAT_STAT_LOADED &&
  (portState s p == pHELLO || portState s p == pUP)

/-! ### Roles -/

/-- The role the module holds; 0 while unbound. -/
def ownRole (s : State) : Nat := if s.on R.FAB_STAT_BOUND then s.get R.FAB_STAT_ROLE else 0

/-- The roles. -/
def roles : List Nat := (List.range 32).map (· + 1)

/-! ### Frames on the lane (R341) -/

/-- Bytes 0–43 of a frame (Table 18.1). -/
def FabMsg.bytes (m : FabMsg) : List Byte :=
  [m.ty, m.f.src, m.f.dst, m.f.lseq, m.f.ttl, m.f.chunk % 32].map (BitVec.ofNat 8) ++ leBytes 2 m.f.sepoch ++ leBytes 2 m.f.depoch
    ++ leBytes 2 m.f.seq ++ (m.f.payload ++ List.replicate 32 0).take 32

/-- The frame that 48 bytes of a lane hold. -/
def frameOf (bs : List Byte) : FabMsg :=
  let b (k n : Nat) : Nat := leNat (slice bs k n)
  { message (b 0 1) ⟨b 1 1, b 2 1, b 3 1, b 4 1, b 5 1 % 32, b 6 2, b 8 2, b 10 2, slice bs 12 32⟩ with crc := b 44 4 }

/-- The parameters of the FABRIC overlock unit (R270), which computes the CRC of every frame. -/
def fabricUnit (s : State) : OvlPar :=
  ovlParOf s (((List.range 14).find? (fun u => s.get (R.OVL_CFG_ROLE u) == 3)).getD 0)

/-- Is a frame of a lane discarded and counted: of another length than 48 bytes, or with a bad CRC? -/
def badFrame (s : State) (bs : List Byte) : Bool :=
  bs.length != 48 || (fabricUnit s).check (bs.take 44) != (frameOf bs).crc

/-! ### Sending (R342, R350) -/

/-- The queue of a frame: its pair of source and destination. -/
def FabMsg.pair (m : FabMsg) : Nat × Nat := (m.f.src, m.f.dst)

/-- The class of a frame: LINK exchanges, link-local frames, the rest. -/
def FabMsg.cls (m : FabMsg) : Nat :=
  if m.ty = 0x11 ∨ m.ty = 0x12 then 0 else if m.ty < 0x10 then 1 else 2

/-- The frames at the head of their queues. -/
def heads (q : List (Nat × FabMsg)) : List (Nat × FabMsg) :=
  q.foldl (fun a e => if a.any (fun x => x.2.pair == e.2.pair) then a else a ++ [e]) []

/-- The class of a queue: the best of the frames it holds. -/
def queueClass (q : List (Nat × FabMsg)) (pr : Nat × Nat) : Nat :=
  (q.filter (fun e => e.2.pair == pr)).foldl (fun a e => min a e.2.cls) 2

/-- The frame served next: the best class, then the inputs in order after the last one served. -/
def nextFrame (q : List (Nat × FabMsg)) (last : Nat) : Option (Nat × FabMsg) :=
  let rank (e : Nat × FabMsg) : Nat := 8 * queueClass q e.2.pair + (e.1 + 4 - last) % 5
  (heads q).foldl (fun a e => match a with
    | none => some e
    | some b => if rank e < rank b then some e else some b) (none : Option (Nat × FabMsg))

/-- May a frame join its queue, which holds at most 2 frames? -/
def queueRoom (q : List (Nat × FabMsg)) (m : FabMsg) : Bool :=
  decide ((q.filter (fun e => e.2.pair == m.pair)).length < 2)

/-- Frames held back move into queues with room, in order. -/
def release (x : PortSt) : PortSt :=
  x.wait.foldl (fun y e =>
    if queueRoom y.queue e.2 then { y with queue := y.queue ++ [e], wait := y.wait.erase e } else y) x

/-- Up to `n` frames leave the queues for the lane, each with its LSEQ and the CRC of unit `u` over its bytes, while fewer
than 8 are unacknowledged. Log entry 57. -/
def pump (u : OvlPar) : Nat → PortSt → PortSt
  | 0, x => x
  | n + 1, x =>
    if 8 ≤ (x.out.filter (fun m => !m.acked)).length then x
    else match nextFrame x.queue x.last with
      | none => x
      | some e =>
        let m : FabMsg := { e.2 with f := { e.2.f with lseq := x.txNext } }
        let m1 : FabMsg := { m with crc := u.check m.bytes }
        pump u n (release { x with queue := x.queue.erase e, out := x.out ++ [m1], txNext := (x.txNext + 1) % 256, last := e.1 })

/-- A frame from input `inp` (0–3, or 4 for the module itself) goes to output port `p`. -/
def enqueue (p inp : Nat) (m : FabMsg) (s : State) : State :=
  if portTalks s p then
    let x := fabPort s p
    let y := if x.wait = [] && queueRoom x.queue m then { x with queue := x.queue ++ [(inp, m)] }
      else { x with wait := x.wait ++ [(inp, m)] }
    setFabPort s p (pump (fabricUnit s) 8 (release y))
  else s

/-- Is an input held back by a full queue (R350)? -/
def inputHeld (s : State) (inp : Nat) : Bool := (fabPorts s).any (fun p => (fabPort s p).wait.any (fun e => e.1 == inp))

/-- 32 bytes of payload. -/
def padPayload (bs : List Byte) : List Byte := (bs ++ List.replicate 32 0).take 32

/-- A link-local frame is sent on port `p`. -/
def sendLocal (p ty chunk : Nat) (bs : List Byte) (s : State) : State :=
  enqueue p 4 (message ty ⟨ownRole s, 0, 0, 31, chunk, s.get R.FAB_STAT_EPOCH, 0, 0, padPayload bs⟩) s

/-- The metric to role `r` (R348). -/
def metricTo (s : State) (r : Nat) : Nat := s.get (R.FAB_PEER_METRIC r)

/-- Has role `r` a route? -/
def reachable (s : State) (r : Nat) : Bool :=
  decide (1 ≤ r) && decide (r ≤ 32) && metricTo s r != 0xFF && r != ownRole s

/-- A frame for an unreachable role is not sent. -/
def noRoute (s : State) : State := s.inc R.FAB_CNT_NOROUTE

/-- The last SEQ to role `r` at its epoch `e` and the own one (R349); 0 before the first. -/
def lastSeq (s : State) (r e : Nat) : Nat :=
  match s.fab.sent.find? (fun x => x.1 == r && x.2.1 == s.get R.FAB_STAT_EPOCH && x.2.2.1 == e) with
  | some x => x.2.2.2
  | none => 0

/-- The next SEQ for role `r` at epoch `e` (R349). -/
def nextSeq (s : State) (r e : Nat) : Nat := (lastSeq s r e + 1) % 65536

/-- SEQ `n` to role `r` at epoch `e` is used. -/
def noteSent (r e n : Nat) (s : State) : State :=
  let me := s.get R.FAB_STAT_EPOCH
  { s with fab := { s.fab with
    sent := s.fab.sent.filter (fun x => !(x.1 == r && x.2.1 == me && x.2.2.1 == e)) ++ [(r, me, e, n)] } }

/-- A routed frame is sent to role `r` at epoch `e`, if there is a route. -/
def sendRouted (ty r e chunk : Nat) (bs : List Byte) (s : State) : State :=
  if reachable s r then
    let n := nextSeq s r e
    let me := s.get R.FAB_STAT_EPOCH
    let s1 := noteSent r e n s
    enqueue (s.get (R.FAB_PEER_PORT r)) 4 (message ty ⟨ownRole s, r, 0, 31, chunk, me, e, n, padPayload bs⟩) s1
  else noRoute s

/-- The epoch of role `r` as the module knows it (R346). -/
def knownEpoch (s : State) (r : Nat) : Nat := s.get (R.FAB_PEER_EPOCH r)

/-! ### Remote writes (R358) -/

/-- The replies of remote writes whose last word has taken effect (R358): port 2's queue holds the words of the
requests in order. -/
def remoteWritesDone (s : State) : List RemoteWrite × List RemoteWrite :=
  let k := (s.host.queue.filter (fun w => w.port == 2)).length
  let cut := (List.range (s.fab.writes.length + 1)).find? (fun i => decide (((s.fab.writes.drop i).map (·.left)).sum ≤ k))
  let i := cut.getD 0
  (s.fab.writes.take i, s.fab.writes.drop i)

/-- RRSP with a status, the request's bytes 1–5 (TAG, address, n) and words (Table 18.6). -/
def sendRrsp (dst epoch status : Nat) (head : List Byte) (ws : List Word) (s : State) : State :=
  sendRouted 0x14 dst epoch 0 (leBytes 1 status ++ head ++ [0, 0] ++ ws.flatMap (fun w => leBytes 4 w.toNat)) s

/-- Remote writes whose words have all taken effect are answered (R358). -/
def settleWrites (s : State) : State :=
  let r := remoteWritesDone s
  forL r.1 (fun w a => sendRrsp w.src w.sepoch w.status w.head [] a) { s with fab := { s.fab with writes := r.2 } }

end Sys2Proof.Machine
end

