-- ==== Sys2Proof/Machine/Energy.lean ====
section
/-!
DEFINITION. Energies (spec/11): the accumulators and their copies, windows and what they add, snapshots, and the end of
metering at a power-down (R289). The rounding of the registers of the last window is `Config.realFn` (log entry 1);
energies and the no-load judgement are exact.
-/
namespace Sys2Proof.Machine

/-- A channel's own state. -/
def mtrCh (s : State) (c : Nat) : MtrCh := tget (fun _ => MtrCh.zero) s.mtr.chans c
def setMtrCh (s : State) (c : Nat) (x : MtrCh) : State :=
  { s with mtr := { s.mtr with chans := tset (fun _ => MtrCh.zero) s.mtr.chans c x } }

/-- A ring slot. -/
def ringSlot (s : State) (k : Nat) : RingSlot := tget (fun _ => RingSlot.zero) s.mtr.ring k
def setRingSlot (s : State) (k : Nat) (x : RingSlot) : State :=
  { s with mtr := { s.mtr with ring := tset (fun _ => RingSlot.zero) s.mtr.ring k x } }

/-- Does metering take samples? A power-down has closed it (R289). -/
def mtrRuns (s : State) : Bool := s.part.isM && domOn s 7 && s.on R.MTR_CTL_EN && s.pwr.downTo.isNone

/-! ### Registers of the accumulators (R211, R212) -/

/-- Accumulator A of quantity `q` of channel `c`, in 2^−40 Wh. -/
def accOf (s : State) (c q : Nat) : Nat := tget (fun _ => 0) s.mtr.acc.vals (8 * c + q)

/-- A copy of accumulators with its CRC-32 (R214), over the listed accumulators, each as its number and its value. Log
entry 70. -/
def MtrCopy.of (v : List (Nat × Nat)) : MtrCopy := ⟨v, crc32 (v.flatMap (fun e => leBytes 1 e.1 ++ leBytes 16 e.2))⟩

/-- Does a copy pass its check? -/
def MtrCopy.ok (c : MtrCopy) : Bool := decide (MtrCopy.of c.vals = c)

/-- The 64-bit long register. -/
def longReg (s : State) (c q : Nat) : Nat := accOf s c q / 65536 % 2 ^ 64

/-- floor((A − A_clr) ÷ 2^24), before the register's wrap. -/
def intCount (s : State) (c q : Nat) : Nat := (accOf s c q - tget (fun _ => 0) (mtrCh s c).aclr q) / 2 ^ 24

/-- MTR_INT. -/
def intReg (s : State) (c q : Nat) : Nat := intCount s c q % 2 ^ 32

/-- Energy `e` is added to a quantity; MTR_IWRAP counts the wraps of MTR_INT (R210, R212). -/
def addEnergy (c q e : Nat) (s : State) : State :=
  let k0 := intCount s c q / 2 ^ 32
  let s1 := { s with mtr := { s.mtr with acc := MtrCopy.of (tset (fun _ => 0) s.mtr.acc.vals (8 * c + q) (accOf s c q + e)) } }
  let k1 := intCount s1 c q / 2 ^ 32
  if k1 = k0 then s1
  else (s1.flag (R.MTR_IWRAP_WRAP c q) true).put (R.MTR_IWRAP_WCNT c q) (s.get (R.MTR_IWRAP_WCNT c q) + (k1 - k0))

/-! ### The working copy (R215) -/

/-- The words that a channel works from: MTR_CHCFG to MTR_SEGC[7]. -/
def sealWords (s : State) (c : Nat) : List Nat := (List.range 20).map (fun k => (s.word (R.MTR_CHCFG c + 4 * k)).toNat)

def MtrCh.cfg (x : MtrCh) : Nat := x.work.getD 0 0
def MtrCh.isDc (x : MtrCh) : Bool := tb x.cfg 30
/-- B, G and PH of point `k`, and DC, in a working copy. -/
def segB (work : List Nat) (k : Nat) : Nat := work.getD (4 + k) 0 % 65536
def segG (work : List Nat) (k : Nat) : Int := q15 (work.getD (12 + k) 0 / 65536)
def segPH (work : List Nat) (k : Nat) : Int := q15 (work.getD (12 + k) 0)

/-- A window is asked to give a snapshot when it closes. -/
def asked (s : State) : Bool := s.mtr.askBound || s.mtr.askNow || s.mtr.askClose

/-- A new closing event: the windows that one cycle closes share it. -/
def newEvent (s : State) : State := { s with mtr := { s.mtr with event := s.mtr.event + 1 } }

/-- A close meets the snapshot asked for: it is due once the windows closed up to this event are added (R213, R217). -/
def meetAsk (s : State) : State :=
  if asked s then
    let m := s.mtr
    let d : MtrDue := ⟨m.event, m.askNow || m.askClose, m.askClose⟩
    let dues := match m.dues.getLast? with
      | some e => if e.at_ = m.event then m.dues.dropLast ++ [⟨m.event, e.early || d.early, e.close || d.close⟩] else m.dues ++ [d]
      | none => [d]
    { s with mtr := { m with askBound := false, askNow := false, askClose := false, dues := dues } }
  else s

/-- The open window of a channel closes (R205, R210, R215): it keeps the working copy it was metered with, and the working
copy follows the registers; `stop` ends it. -/
def closeWindow (c : Nat) (stop : Bool) (s : State) : State :=
  let x := mtrCh s c
  let work := if s.on R.PAT_STAT_APPLYING then x.work else sealWords s c
  let live := !stop && tb (work.getD 0 0) 31
  let x1 := { x with work := work, closed := x.closed ++ [⟨x.win, x.work, s.mtr.event⟩], win := MtrWin.zero, run := live }
  let s1 := setMtrCh s c x1
  meetAsk (if live || stop then s1 else { s1 with mtr := { s1.mtr with askClose := true } })

/-- Metering stops: every open window closes, and a closing snapshot is asked for (R214, R217). Log entry 12. -/
def stopMetering (s : State) : State :=
  let s0 := newEvent s
  let s1 := { s0 with mtr := { s0.mtr with askClose := true } }
  forL [0, 1, 2, 3] (fun c a => if (mtrCh a c).run then closeWindow c true a else a) s1

/-! ### What a window adds (R208–R210) -/

/-- The segment of I0 (in mA), and the interpolated gain and phase codes (R208), in a working copy. -/
def segment (x : List Nat) (i0 : Nat) : Nat × Int × Int :=
  let k := (((List.range 8).filter (fun k => decide (10 * segB x k ≤ i0))).getLast?).getD 0
  if k = 7 then (7, segG x 7, segPH x 7)
  else
    let d := 10 * (segB x (k + 1) - segB x k)
    let o : Int := (i0 : Int) - 10 * segB x k
    (k, segG x k + fdiv ((segG x (k + 1) - segG x k) * o) d, segPH x k + fdiv ((segPH x (k + 1) - segPH x k) * o) d)

/-- One bit of a square root after another, from bit `k − 1` down. -/
def rootBits (n : Nat) : Nat → Nat → Nat
  | 0, r => r
  | k + 1, r => rootBits n k (if (r + 2 ^ k) * (r + 2 ^ k) ≤ n then r + 2 ^ k else r)

/-- The floor of the square root of `n`. -/
def rootFloor (n : Nat) : Nat := rootBits n (n.log2 / 2 + 1) 0

/-- The root of `num / den` for a register: exact where it is whole, else one of the two whole numbers around it, as the
spec states no rounding (log entry 1). -/
def rootReg (site : Nat) (num den : Nat) : Nat :=
  let r := rootFloor (num / den)
  if r * r * den = num then r else r + (Config.realFn site [num, den]).toNat % 2

/-- `num / den` for a register, in the same way. -/
def ratioReg (site : Nat) (num den : Int) : Int :=
  if num % den = 0 then num / den else num / den + Config.realFn site [num, den] % 2

/-- The j-th term of the series of cos and sin at φ = ph × 2^−18, times `trigDen` (R208). -/
def trigTerm (ph : Int) (j : Nat) : Int :=
  let c : Int := ph ^ j * (2 ^ (18 * (40 - j)) * ((List.range (40 - j)).map (fun i => i + j + 1)).foldl (· * ·) 1 : Nat)
  if j / 2 % 2 = 0 then c else -c

/-- The denominator of `cosNum` and `sinNum`. -/
def trigDen : Nat := 2 ^ 720 * ((List.range 40).map (· + 1)).foldl (· * ·) 1

/-- cos φ and sin φ, times `trigDen`: the series to the 40th power, which is within 10^−80 at the largest φ of R208
(log entry 40). -/
def cosNum (ph : Int) : Int := ((List.range 21).map (fun k => trigTerm ph (2 * k))).sum
def sinNum (ph : Int) : Int := ((List.range 20).map (fun k => trigTerm ph (2 * k + 1))).sum

/-- Energy in 2^−40 Wh for one unit of (2^19 + G) × product sum (R204, R208, R210): 1.44 / (32,000 × 3,600 × 2^57). -/
def energyDen : Nat := 2 ^ 67 * 78125

/-- Is a window no-load (R209): S below NLTH × 10 mVA? Both sides are squared. -/
def noLoad (w : MtrWin) (g : Int) (nlth : Nat) : Bool :=
  decide (((524288 + g) * (524288 + g) * (w.vv * w.ii)) * 12960000 < ((nlth * 25 * 2 ^ 97 * w.n : Nat) : Int) ^ 2)

/-- P and Q times N (as numerators over `energyDen * trigDen` of energy) and the apparent energy of a window with gain
and phase codes `g` and `ph` (R208, R210). Log entry 40. -/
def energyOf (g ph : Int) (w : MtrWin) : Int × Int × Nat :=
  let k := 524288 + g
  (k * (w.vi * cosNum ph - w.qi * sinNum ph), k * (w.qi * cosNum ph + w.vi * sinNum ph),
    rootFloor ((k * k * (w.vv * w.ii)).toNat) / energyDen)

/-- A window closed on channel `c` is added to its registers with the working copy `x` it was metered with (R208–R210,
R215); a window without a sample adds nothing. -/
def addWindow (c : Nat) (x : List Nat) (w : MtrWin) (s : State) : State :=
  if w.n = 0 then s else
  let v := rootReg 41 (14400 * w.vv.toNat) (2 ^ 78 * w.n)
  let i0 := rootReg 42 (1440000 * w.ii.toNat) (2 ^ 78 * w.n) % 2 ^ 24
  let sg := segment x i0
  let en := energyOf sg.2.1 sg.2.2 w
  let np := en.1
  let nq := en.2.1
  let den : Int := (energyDen * trigDen : Nat)
  let avg : Int := (5 * 2 ^ 97 * w.n * trigDen : Nat)
  let s1 := ((s.put (R.MTR_VRMS_V c) v).put (R.MTR_IRMS_I0 c) i0).put (R.MTR_WLEN_N c) w.n
  let s2 := (s1.sput (R.MTR_PAVG_P c) (ratioReg 47 (72 * np) avg)).sput (R.MTR_QAVG_Q c) (ratioReg 48 (72 * nq) avg)
  let eq := if tb (x.getD 0 0) 30 then 0 else nq
  let quad := if 0 ≤ np then (if 0 ≤ eq then 0 else 3) else (if 0 ≤ eq then 1 else 2)
  let s3 := (((s2.put (R.MTR_CHSTAT_SEG c) sg.1).put (R.MTR_CHSTAT_QUAD c) quad).inc (R.MTR_CNT_WINDOWS c))
  if noLoad w sg.2.1 (x.getD 3 0 % 65536) then (s3.flag (R.MTR_CHSTAT_NOLOAD c) true).inc (R.MTR_CNT_NOLOAD c)
  else
    let s4 := s3.flag (R.MTR_CHSTAT_NOLOAD c) false
    let s5 := if 0 < np then addEnergy c 0 (np / den).toNat s4 else addEnergy c 1 (-np / den).toNat s4
    addEnergy c 6 en.2.2 (addEnergy c (2 + quad) (eq.natAbs / (energyDen * trigDen)) s5)

/-- A closed window is added, and the retained copy follows the running one (R214). -/
def takeWindow (c : Nat) (w : MtrShut) (s : State) : State :=
  let s1 := addWindow c w.work w.win s
  { s1 with mtr := { s1.mtr with kept := s1.mtr.acc } }

/-! ### Snapshots (R217–R220) -/

/-- FLAGS of a record (Table 11.4). -/
def recordFlags (d : MtrDue) (s : State) : Nat :=
  let m := s.mtr
  m.spanZc * 1024 + bit m.integ * 512 + bit m.restart * 256 + bit m.restored * 128 + bit m.gap * 64 + bit d.close * 32
    + bit d.early * 16 + bit (!s.on R.PWR_STAT_RTCVAL) * 8 + bit (s.on R.MTR_STAT_CALDIRTY) * 4
    + s.get R.PAT_STAT_SEAL

/-- Is a channel enabled? While it meters, its working copy says so; else its register (R215). -/
def chanEnabled (s : State) (c : Nat) : Bool :=
  let x := mtrCh s c
  if x.run then tb x.cfg 31 else s.on (R.MTR_CHCFG_CHEN c)

/-- The 296 bytes of a record's body (Table 11.3). -/
def recordBody (d : MtrDue) (s : State) (n : Nat) : List Byte :=
  let m := s.mtr
  let mask := mapBits 4 0 (chanEnabled s)
  [0x54, 0x51, 0x4D, 0x52] ++ leBytes 2 1 ++ leBytes 2 (recordFlags d s) ++ leBytes 4 n ++ leBytes 4 (s.get R.PAT_SEALCNT_CNT)
    ++ leBytes 8 (m.tEnd.getD m.started) ++ leBytes 8 (rtcMs s)
    ++ (List.range 8).flatMap (fun k => beBytes 4 (s.word (R.PAT_DIGEST k)).toNat)
    ++ leBytes 2 ((s.pat.mtr.map (·.1)).getD 0) ++ leBytes 1 mask ++ leBytes 1 (s.get R.MTR_RCFG_INT) ++ leBytes 4 0
    ++ [0, 1, 2, 3].flatMap (fun c => (List.range 7).flatMap (fun q => leBytes 8 (longReg s c q)))

/-- A snapshot is taken, or skipped where its slot is PENDING (R217, R218, R220); its accumulators go to the mirror
(R214). -/
def snapshot (d : MtrDue) (s : State) : State :=
  let m := s.mtr
  let n := m.rcnt + 1
  if (ringSlot s (n % 16)).st = 1 ∨ m.drafts.any (fun e => e.1 % 16 == n % 16) then
    { s.inc R.MTR_RSTAT_SKIPCNT with mtr := { m with gap := true } }
  else
    let zc := mapBits 4 0 (fun c => s.on (R.MTR_CHSTAT_ZCTO c))
    let m1 := { m with rcnt := n, drafts := m.drafts ++ [(n, recordBody d s n)], tEnd := some (rtcMs s), spanZc := zc }
    let s1 := { s with mtr := { m1 with integ := false, restart := false, restored := false, gap := false, shot := m.acc.vals } }
    addMirror (addMirror s1 .recordCount) .meter

/-- Has every window closed up to a snapshot's event been added? -/
def dueReady (s : State) (d : MtrDue) : Bool :=
  [0, 1, 2, 3].all (fun c => (mtrCh s c).closed.all (fun w => decide (d.at_ < w.at_)))

/-- The snapshots whose windows are all added are taken. -/
def takeDues (s : State) : State :=
  let now := s.mtr.dues.filter (dueReady s)
  forL now snapshot { s with mtr := { s.mtr with dues := s.mtr.dues.filter (fun d => !dueReady s d) } }

/-! ### The end of metering at a power-down (R289) -/

/-- Step 1 of R289: metering closes its windows and takes its closing snapshot, also where no window was open. -/
def closeMetering (s : State) : State :=
  if domOn s 7 && s.part.isM then
    let s1 := if s.on R.MTR_CTL_EN then meetAsk (stopMetering s) else s
    takeDues (forL [0, 1, 2, 3] (fun c a =>
      let x := mtrCh a c
      forL x.closed (takeWindow c) (setMtrCh a c { x with closed := [] })) s1)
  else s

end Sys2Proof.Machine
end

