-- ==== Sys2Proof/Machine/Mode.lean ====
section
/-!
DEFINITION. The ledger (R91, R95), the hem latch (R226, R227, R237, R239), the modes and DISCHARGE (R298–R305), the
end of a start (R60, R61), and the event log (R262–R264): the operations that several units share.
-/
namespace Sys2Proof.Machine

/-! ### Retirement -/

/-- The ledger registers of stitch `n` show its entry (R98: loaded before PD5 accepts its first access). -/
def showLedger (n : Nat) (s : State) : State :=
  let e := ledgerOf s n
  (((((s.flag (R.STI_RET_RETIRED n) e.retired).flag (R.STI_RET_MODE n) e.mode).put (R.STI_RET_CAUSE n) e.cause).put
    (R.STI_RET_LSEQ n) e.lseq).put (R.STI_RETTIME_SEC n) e.time).flag (R.STI_STATE_RETIRED n) e.retired

/-- Count of retired stitches. -/
def retiredCount (s : State) : Nat := ((List.range 96).filter (retired s)).length

/-- Write ledger entry `n` to Selvedge retention; its mirror write to MRAM becomes pending (R95). -/
def putLedger (n : Nat) (e : LedgerEntry) (s : State) : State :=
  let s1 := addMirror { s with ledger := tset (fun _ => LedgerEntry.zero) s.ledger n e } (.ledger n)
  let s2 := (s1.flag R.STI_LEDGER_MIRROR true).put R.STI_LEDGER_COUNT (retiredCount s1)
  showLedger n s2

/-- A stitch seen in FAULT leaves it once the dielet shows the retirement, or its end (Table 4.13). -/
def leaveFault (n : Nat) (s : State) : State :=
  if s.get (R.STI_STATE_STATE n) = stFAULT then setLink s n { link s n with leave := true } else s

/-- Retire stitch `n` with a cause (R91, R95, R330): ledger entry with the next ledger sequence, RETIRE frame to an
awake or waking stitch, the command of rank 3 from the next downlink slot, HST_EVT.RET, capacities. A retired stitch is left as it
is. -/
def retire (n cause : Nat) (s : State) : State :=
  if retired s n then s
  else
    let w := s.ledgerSeq + 1
    let m := s.get (R.STI_CFG_RMODE n) == 1
    let s1 := { s with ledgerSeq := w }.put R.STI_LEDGER_WSEQ w
    let s2 := putLedger n ⟨true, m, cause, w % 65536, rtcMs s / 1000⟩ s1
    let s3 := setLink s2 n { link s2 n with held := false }
    let s4 := leaveFault n (if seenLinked s3 n then queueFrame n frRETIRE 0 (bit m) s3 else s3)
    syncCmd n (checkPcdone (refreshCaps (s4.flag R.HST_EVT_RET true)))

/-- Clear the ledger entry of stitch `n`; an awake or waking stitch is sent UNRETIRE (R95), and HOLD behind it where a hold or a
latched window covers it (R179, R250). -/
def unretire (n : Nat) (s : State) : State :=
  if retired s n then
    let s1 := putLedger n LedgerEntry.zero s
    let s2 := leaveFault n (if seenLinked s1 n then queueFrame n frUNRETIRE 0 0 s1 else s1)
    refreshCaps (syncStitch n s2)
  else s

/-! ### The event log -/

/-- Write one log entry with the next sequence number (R262–R264, Table 13.7). -/
def logEvent (ty cls tier : Nat) (shadow esc : Bool) (scope detail rcnt escn : Nat) (s : State) : State :=
  let q := s.get R.FLT_NEXTSEQ_SEQ
  let i := q % 256
  let s0 := if s.get (R.FLT_LOG_W i 0) > s.get R.FLT_LOGACK_SEQ then s.incSat R.FLT_LOGINFO_OVF else s
  let w2 := cls * 2 ^ 27 + tier * 2 ^ 24 + ty * 2 ^ 21 + bit shadow * 2 ^ 20 + bit esc * 2 ^ 19 + scope
  let w3 := detail % 256 * 2 ^ 24 + rcnt * 2 ^ 16 + escn * 2 ^ 8 + s.get R.FLT_LOGINFO_EPOCH
  let s1 := (((s0.put (R.FLT_LOG_W i 0) q).put (R.FLT_LOG_W i 1) (rtcMs s)).put (R.FLT_LOG_W i 2) w2).put
    (R.FLT_LOG_W i 3) w3
  let s2 := s1.put R.FLT_NEXTSEQ_SEQ (q + 1)
  if (q + 1) % 4096 = 0 then addMirror s2 .logMark else s2

/-! ### Contactors -/

/-- Does CPERM permit contactor `k` in the present mode (R298, R300)? -/
def permitted (s : State) (k : Nat) : Bool :=
  let n := match mode s with
    | 2 => some 0 | 4 => some 1 | 5 => some 2 | 6 => some 3 | 7 => some 4 | 8 => some 5 | 9 => some 6
    | _ => none
  match n with
  | some i => tb (s.get R.PWR_CPERM_PERM) (4 * i + k)
  | none => false

/-- CTR_EN`k` as R237 drives it. -/
def ctrWanted (s : State) (k : Nat) : Bool :=
  s.on (R.SAF_CCFG_EN k) && tb (s.get R.SAF_CTR_REQ) k && !hemActive s && permitted s k

/-- CTR_EN0–3 follow REQ, the latch and the mode; a change of an enable restarts its read-back time (R237, R238). -/
def syncContactors (s : State) : State :=
  let en := mapBits 4 0 (ctrWanted s)
  let old := s.get R.SAF_CTR_EN
  let ctrs := (List.range 4).foldl (fun l k =>
    if tb en k == tb old k then l else tset (fun _ => CtrSt.zero) l k ⟨some s.tick⟩) s.saf.ctrs
  { s.put R.SAF_CTR_EN en with saf := { s.saf with ctrs := ctrs } }

/-! ### Modes -/

/-- The mode becomes `m`: PREV takes the mode left, contactors follow, and what R302 and R199 tie to the mode does. -/
def setMode (m : Nat) (s : State) : State :=
  let s1 := (s.put R.PWR_MODE_PREV (mode s)).put R.PWR_MODE_MODE m
  let s2 := if m = mWATCH ∨ m = mDORMANT ∨ m = mBASTING ∨ m = mDISCHARGE then s1.flag R.PWR_STAT_PCDONE false else s1
  let s3 := if m = mISLAND || !s2.on R.GRD_STAT_FORMING then s2 else pleatsSee (s2.flag R.GRD_STAT_FORMING false)
  syncContactors s3

/-- Every root's enable is cleared (R62). -/
def clearRoots (s : State) : State := forL (roots s) dropEnable s

/-- Is any root's SEAM_CTL.EN 1? -/
def anyRootEn (s : State) : Bool := (roots s).any (fun n => s.on (R.SEAM_CTL_EN n))

/-- Is the group PD4–PD7 on? -/
def groupOn (s : State) : Bool := domOn s 5

/-- PWR_MODE.BUSY: a wake waits for the rails, the group is being switched on, or a power-down runs (Table 15.12). -/
def syncBusy (s : State) : State :=
  s.flag R.PWR_MODE_BUSY (s.pwr.downTo.isSome || s.pwr.groupOn || s.pwr.railWait)

/-- The group is to be switched on (R288). -/
def switchGroupOn (s : State) : State := syncBusy { s with pwr := { s.pwr with groupOn := true } }

/-- An orderly power-down towards mode `m` begins (R289 steps 1 and 2): metering closes, then SLEEP goes to every awake
stitch. -/
def beginPowerDown (m : Nat) (s : State) : State :=
  let s1 := forL (stitches s) (fun n a => if seenAwake a n then queueFrame n frSLEEP 0 0 a else a) (closeMetering s)
  syncBusy { s1 with pwr := { s1.pwr with downTo := some m, groupOn := false, upTo := none } }

/-! ### DISCHARGE -/

/-- Engine cycles in 10 s (R97, R303). -/
def tenSeconds : Nat := 10000 * cyclesPerMs

/-- BLEED with DATA[0] = 1 to stitch `n`, or its name on the waiting list until 10 s after its last bleed (R303). -/
def askBleed (n : Nat) (s : State) : State :=
  let b := bleedSt s n
  let ready := match b.ended with
    | none => true
    | some t => decide (t + tenSeconds ≤ s.cyc)
  if seenAwake s n then
    if ready then queueFrame n frBLEED 0 1 (setBleedSt s n { b with waiting := false })
    else setBleedSt s n { b with waiting := true }
  else s

/-- DISCHARGE is entered (R303): the mode it began in, the BASE it leaves to (Table 15.8), the group on if it is off,
and the bleeds. A mode that a power-up or power-down under way was to reach is not reached (R303); a power-down towards
BASTING leaves that for the end of the discharge. -/
def enterDischarge (s : State) : State :=
  let m := mode s
  let b := if m = mFITTING ∨ (m = mSAFEOFF ∧ s.get R.PWR_MODE_BASE = mFITTING) then mFITTING else mREADY
  let s1 := { setMode mDISCHARGE s with
    pwr := { s.pwr with disFrom := m, disBase := b, disAt := s.cyc, disBasting := s.pwr.downTo == some mBASTING,
                        disFail := false, upTo := none, downTo := none, wakeLate := none } }
  let s2 := (s1.flag R.PWR_DISSTAT_RUN true).put R.PWR_DISSTAT_TIME 0
  let s3 := if groupOn s then syncBusy s2 else switchGroupOn s2
  forL (stitches s) askBleed s3

/-- SAF_STAT.DISREQ as R239 gives it: a latch cause enabled in DISEN, T4, or a host request. -/
def disreqWanted (s : State) : Bool :=
  s.pwr.disHost || (s.on R.SAF_STAT_LATCH &&
    (let c := s.get R.SAF_LCAUSE_CAUSE
     tb c 8 || (List.range 7).any (fun i => tb (s.get R.SAF_CFG_DISEN) i && tb c (i + 1))))

/-- DISREQ follows; its rise enters DISCHARGE (Table 15.8). -/
def syncDisreq (s : State) : State :=
  let want := disreqWanted s
  let had := s.on R.SAF_STAT_DISREQ
  let s1 := s.flag R.SAF_STAT_DISREQ want
  if want && !had && mode s != mDISCHARGE && domOn s 1 then enterDischarge s1 else s1

/-- A host request for DISCHARGE (R239): it starts one also where a latch cause holds DISREQ, its own discharge done. Log entry
19. -/
def hostDischarge (s : State) : State :=
  let s1 := syncDisreq { s with pwr := { s.pwr with disHost := true } }
  if mode s1 != mDISCHARGE && domOn s1 1 then enterDischarge s1 else s1

/-! ### The hem latch -/

/-- Rank 1 begins (R90, R226): every awake dielet that hears its link holds both gates off, HEMOFF shows, clamp and
top-up suspended. -/
def hemOn (n : Nat) (s : State) : State :=
  let d := dielet s n
  let s1 := if d.awake && !d.lost then setDielet s n { d.off with hemoff := true } else s
  let s2 := setLink s1 n { link s1 n with cmd := 0 }
  if seenAwake s2 n then s2.flag (R.STI_STATE_HEMOFF n) true else s2

/-- A dielet hears that rank 1 has ended (R90): retired to BYPASS, or clamped, it turns GL on again; one retired to BYPASS does
so also where BOTH_ON or HS_TIMEOUT holds it in HIZ (DESIGN CHOICE, log entry 74). -/
def Dielet.hemEnds (d : Dielet) : Dielet :=
  let byp := d.mode == some false && !d.topup && d.st != .fault
  let d1 := { d with hemoff := false }
  if d.hemoff && !d.gl && (byp || (d.st == .hiz && d.clamp)) then d1.glOn else d1

/-- Rank 1 ends (R90). A dielet that has lost its downlink hears it when it has retrained (R87). -/
def hemOff (n : Nat) (s : State) : State :=
  let d := dielet s n
  let s1 := if d.lost then s else setDielet s n d.hemEnds
  mustWait n (s1.flag (R.STI_STATE_HEMOFF n) false)

/-- A demand of cause bit `b` sets the latch, or adds its cause to one already set (R227, R226, R237, Table 15.8). -/
def hemDemand (b : Nat) (s : State) : State :=
  if s.on R.SAF_STAT_LATCH then
    let c := s.get R.SAF_LCAUSE_CAUSE
    syncDisreq (if tb c b then s else s.put R.SAF_LCAUSE_CAUSE (c + 2 ^ b))
  else
    let s1 := ((s.flag R.SAF_STAT_LATCH true).put R.SAF_LCAUSE_CAUSE (2 ^ b)).put R.SAF_LCAUSE_FIRST b
    let s2 := syncContactors (s1.put R.SAF_CTR_REQ 0)
    let s3 := syncDisreq (forL (stitches s) hemOn s2)
    let m := mode s3
    if m ≠ mDISCHARGE ∧ m ≠ mBASTING ∧ m ≠ mSAFEOFF ∧ m ≠ mDORMANT ∧ m ≠ mWATCH then
      setMode mSAFEOFF (s3.put R.PWR_MODE_BASE m)
    else s3

/-- The latch clears (R228, R235, Table 15.8): stitches rejoin under R15 and R90, SAFE_OFF returns to BASE. While a
self-test runs, its injected demand keeps every gate off (R243). -/
def hemClear (s : State) : State :=
  let s0 := s.flag R.SAF_STAT_LATCH false
  let s1 := if s.on R.SAF_STAT_STRUN then s0 else forL (stitches s) hemOff s0
  let s2 := syncHolds (syncDisreq s1)
  if mode s2 = mSAFEOFF then setMode (s2.get R.PWR_MODE_BASE) s2 else s2

/-! ### Ends of a start -/

/-- No Pattern is in force any more: every root's enable clears, LOADED and CONFIRMED fall, PAT_DIGEST reads 0
(R62 step 1, Table 3.14). -/
def unload (s : State) : State :=
  let s1 := (((clearRoots s).flag R.PAT_STAT_LOADED false).flag R.PAT_STAT_CONFIRMED false).flag R.PAT_STAT_FALLBACK false
  (s1.put R.PAT_STAT_SOURCE 3).dropRegs (R.PAT_DIGEST 0) (R.PAT_DIGEST 8)

/-- CODE values (Table 3.11). -/
def cNONE := 0x00
def cFALLBACK := 0x01
def cNO_IMAGE := 0x11
def cVERIFY_FAILED := 0x12
def cCONFIRM_TIMEOUT := 0x13
def cT4 := 0x14
def cSUPPLY_LOSS := 0x15
def cKEY_UNSET := 0x16

/-- The module goes to BASTING because of a start (Table 15.8): a discharge first completes. Log entry 27. -/
def goBasting (s : State) : State :=
  let s1 := s.flag R.PWR_BOOT_CAUSE_BASTING true
  if mode s1 = mDISCHARGE then { s1 with pwr := { s1.pwr with disBasting := true } }
  else if groupOn s1 then beginPowerDown mBASTING s1
  else syncBusy (setMode mBASTING { s1 with pwr := { s1.pwr with groupOn := false, upTo := none } })

/-- A start ends: the open mark clears, STARTING falls (R61). -/
def endStart (s : State) : State :=
  { s.flag R.PWR_STAT_STARTING false with
    pat := { s.pat with start := .none, openMark := false } }

/-- A start FAILED with a code (Table 3.9, Table 15.8). -/
def startFailed (c : Nat) (s : State) : State :=
  let f := s.get R.PWR_BOOT_CAUSE_FAILS + 1
  let s0 := endStart s
  let s1 := (s0.put R.PWR_BOOT_CAUSE_FAILS f).put R.PWR_BOOT_CAUSE_CODE c
  let s2 := if s1.on R.PAT_STAT_LOADED then unload s1 else s1
  if f < 3 then
    if mode s2 = mSAFEOFF then s2.flag R.PWR_STAT_SFAIL true
    else if mode s2 = mDISCHARGE then { s2 with pwr := { s2.pwr with disFail := true } }
    else s2
  else goBasting s2

/-- A start SUCCEEDED (Table 3.9, R61): FAILS 0, CODE, CONFIRMED; CODE stays CONFIRM_TIMEOUT where the start undid
an unconfirmed load (R62). -/
def startSucceeded (s : State) : State :=
  let s1 := (endStart s).put R.PWR_BOOT_CAUSE_FAILS 0
  let s2 := if s.pat.undone then s1 else s1.put R.PWR_BOOT_CAUSE_CODE
    (if s.on R.PWR_BOOT_CAUSE_FALLBACK then cFALLBACK else cNONE)
  { s2.flag R.PAT_STAT_CONFIRMED true with pat := { s2.pat with undone := false } }

/-- A host load is confirmed and counts as a SUCCEEDED start (R61); in BASTING the module leaves for READY, or for
SAFE_OFF with BASE READY while the latch is set (Table 15.8). Log entry 47. -/
def loadSucceeded (s : State) : State :=
  let s1 := ((s.flag R.PWR_BOOT_CAUSE_BASTING false).flag R.PWR_BOOT_CAUSE_FALLBACK (s.on R.PAT_STAT_FALLBACK)).put
    R.PWR_BOOT_CAUSE_SLOT (s.get R.PAT_STAT_SOURCE)
  let s2 := startSucceeded { s1 with pat := { s1.pat with loadWait := false, late := false, undone := false } }
  if mode s2 = mBASTING then
    if s2.on R.SAF_STAT_LATCH then setMode mSAFEOFF (s2.put R.PWR_MODE_BASE mREADY) else setMode mREADY s2
  else s2

end Sys2Proof.Machine
end

