-- ==== Sys2Proof/Machine/Gate.lean ====
section
/-!
DEFINITION. What every write of a register goes through before its own effect: the port (Table 17.1), absence (R4),
the domain (R290), an apply in progress (R53), the SNAP run it ends (R32), and its place in the port's queue (R326).
-/
namespace Sys2Proof.Machine

/-- The absent addresses of the part (Table 0.5, R19). -/
def absent (s : State) (a : Nat) : Bool :=
  decide (0x1A0000 ≤ a)
  || (!s.part.isM && (a / 0x10000 == 0x0A || (decide (0x0F8000 ≤ a) && decide (a < 0x100000))
        || (decide (0x140000 ≤ a) && decide (a < 0x180000))
        || (decide (0x190180 ≤ a) && decide (a < 0x190200))))
  || (s.part.stitches == 64 && decide (0x032000 ≤ a) && decide (a < 0x033000))

/-- The power domain of an address (Table 1.5); the meter's ring window lies in the Selvedge domain (R222). -/
def domainOf (a : Nat) : Nat :=
  if 0x0A8000 ≤ a ∧ a < 0x0AA000 then 0
  else match a / 0x10000 with
  | 0x00 => 2 | 0x01 => 3 | 0x02 => 5 | 0x03 => 5 | 0x04 => 5 | 0x05 => 6 | 0x06 => 6 | 0x07 => 4 | 0x08 => 4
  | 0x09 => 7 | 0x0A => 7 | 0x0B => 1 | 0x0C => 1 | 0x0D => 3 | 0x0E => 3 | 0x0F => 0
  | 0x18 => 2 | 0x19 => 2
  | _ => 6

/-- Is an address in the ranges that an apply closes to writes (R53)? -/
def applyRange (a : Nat) : Bool :=
  (decide (0x020000 ≤ a) && decide (a < 0x0E0000)) || (decide (0x180000 ≤ a) && decide (a < 0x1A0000))

/-- May a port write now (Table 17.1)? TRST_N low holds the TAP, port 1, in reset (Table 19.4, log entry 83). Port 3 only reads;
port 7 is the loader. -/
def portWrites (s : State) (p : Nat) : Bool :=
  match p with
  | 0 => domOn s 2
  | 1 => !s.host.tapHeld && domOn s 2 && mode s == mFITTING && s.get R.PAT_STAT_SEAL != 2
  | 2 => domOn s 2
  | 7 => s.on R.PAT_STAT_APPLYING
  | _ => false

/-- May a port read now (Table 17.1)? -/
def portReads (s : State) (p : Nat) : Bool :=
  match p with
  | 3 => domOn s 2 && (s.on (R.CAN_SVC_EN 0) || s.on (R.CAN_SVC_EN 1))
  | 7 => false
  | _ => portWrites s p

/-- The SNAP run of a port ends (R32). -/
def endRun (p : Nat) (s : State) : State :=
  { s with host := { s.host with snaps := tset (fun _ => none) s.host.snaps p none } }

/-- One turn of a queued word is over for every hold that waits for it (R267). -/
def dropHeld (w : HostWord) (l : List (Nat × HostWord)) : List (Nat × HostWord) :=
  (l.map (·.1)).eraseDups.foldl (fun a h => a.erase (h, w)) l

/-- The word that takes effect leaves the front of its port's queue, if it is there (R326). -/
def takeWord (p a : Nat) (d : Word) (s : State) : State :=
  match s.host.queue.find? (fun w => w.port == p) with
  | some w =>
    if w.addr = a ∧ w.data = d then
      syncQueue { s with host := { s.host with queue := s.host.queue.erase w,
                                               holdWait := dropHeld w s.host.holdWait } }
    else s
  | none => s

/-- A write of word `d` at `a` through port `p` takes effect, with the effect `eff` of its register; a remote request whose
last word it was is answered (R358). -/
def guarded (p a : Nat) (d : Word) (eff : State → State) (s : State) : State :=
  if portWrites s p then
    let s1 := takeWord p a d (endRun p s)
    let s2 :=
      if absent s1 a then hostFlag R.HST_STAT_ABSENT p a s1
      else if !domOn s1 (domainOf a) then hostFlag R.HST_STAT_DOMOFF p a s1
      else if s1.on R.PAT_STAT_APPLYING && p != 7 && applyRange a then discarded p a s1
      else eff s1
    let s3 := if s.host.holdWait = [] then s2 else syncHeld s2
    if s1.host.queue.length = s.host.queue.length then s3 else settleWrites s3
  else s

/-- The plain effect of a register write: RW, LIVE bits take the written value and W1C bits written 1 clear (R9). -/
def plainWrite (a : Nat) (d : Word) (s : State) : State :=
  match regAt a with
  | some r =>
    let rw := BitVec.ofNat 32 r.rw
    let w1c := BitVec.ofNat 32 r.w1c
    s.setWord a (((s.word a &&& ~~~rw) ||| (d &&& rw)) &&& ~~~(d &&& w1c))
  | none => s

/-- Does a command register's word carry the guard? -/
def guardOk (d : Word) : Bool := bitsOf d 16 16 == guardWord

/-- The word of a guarded command register. -/
def ctlWord (c : PortCmd) (code : Nat) : Word := BitVec.ofNat 32 (c.guard.toNat * 65536 + code)

end Sys2Proof.Machine
end

