-- ==== Sys2Proof/Machine/Carrier.lean ====
section
/-!
DEFINITION. The carriers of the seams and the cell voltages of the sort, as the engine and the modulator share them
(R100, R101, R104, R109).
-/
namespace Sys2Proof.Machine

/-! ### Carriers -/

/-- The carrier of seam `n`. -/
def carrier (s : State) (n : Nat) : Carrier := tget (fun _ => Carrier.zero) s.carriers n
def setCarrier (s : State) (n : Nat) (c : Carrier) : State :=
  { s with carriers := tset (fun _ => Carrier.zero) s.carriers n c }

/-- The insertion fraction of stitch `n`. -/
def fraction (s : State) (n : Nat) : Fraction := tget (fun _ => Fraction.zero) s.fractions n
def setFraction (s : State) (n : Nat) (f : Fraction) : State :=
  { s with fractions := tset (fun _ => Fraction.zero) s.fractions n f }

/-- A composition reaches stitch `n`. -/
def setNext (n f : Nat) (s : State) : State := setFraction s n { fraction s n with next := f }

/-- What stitch `n` took at the update instant of its carrier is in force (R381). -/
def commitFraction (n : Nat) (s : State) : State := setFraction s n { fraction s n with cur := (fraction s n).due }

/-- STI_STATE.BSTREQ as the controller hears it, in an alert at instant `at_` or in a frame; a request that arrives waits for
its refresh (R114). One that a frame alone brings arrives at the last instant known of the carrier (log entry 75). -/
def hearBst (n : Nat) (b : Bool) (at_ : Option Nat) (s : State) : State :=
  let f := fraction s n
  let f1 := match b, at_ with
    | true, some t => { f with asked := some (max (f.now : Int) ((t : Int) - f.start)) }
    | true, none => if s.on (R.STI_STATE_BSTREQ n) then f else { f with asked := some f.now }
    | false, _ => { f with asked := none }
  setFraction (s.flag (R.STI_STATE_BSTREQ n) b) n f1

/-- Do carriers run (R100)? They stand still while PLL_EDGE is not locked (R292). -/
def carriersRun (s : State) : Bool :=
  s.on R.PAT_STAT_LOADED && !s.on R.PAT_STAT_APPLYING && domOn s 5 && s.on R.MOD_STAT_EDGE_LOCK

/-- The nominal period of a seam: that of its own carrier, which it takes at its starts (R101). -/
def nominal (s : State) (n : Nat) : Nat := (carrier s n).per

/-- The slot delay A of a seam, in 1/65,536 of a period (R101). Log entry 59. -/
def slotDelay (s : State) (n : Nat) : Nat :=
  let p := s.get (R.SEAM_DESC_PARENT n)
  let k := slotOf s p (seamCode n)
  match seamType s p with
  | 3 => 65536 * k / (s.get (R.SEAM_DESC_NCHILD p))
  | 5 => if k % 2 = 0 then s.get (R.SEAM_ANG_ANG_LO p (k / 2)) else s.get (R.SEAM_ANG_ANG_HI p (k / 2))
  | _ => 0

/-- The steps by which PHASE and the slot delay put a seam's carrier behind its parent's, or a root's behind its start
(R101, R104). -/
def wantedPos (s : State) (n : Nat) : Int :=
  let a := if s.get (R.SEAM_DESC_PARENT n) = 0 then 0 else slotDelay s n
  (((a + s.get (R.MOD_PH_PHASE n)) % 65536 * nominal s n / 65536 : Nat) : Int)

/-- A phase difference in the range (−P/2, +P/2] (R104). -/
def wrapPhase (p : Nat) (d : Int) : Int :=
  let m := d % p
  if p < 2 * m then m - p else m

/-- The place that PHASE gives a seam's carrier is no longer `was`: Δ is recomputed from the carrier's present position,
which stands `rem` before its place (R104). A root on MOD_SYNC_IN stands at PHASE at the edge (R116), so that there a
greater PHASE puts the carrier forward (log entry 64). -/
def rephase (n : Nat) (was : Int) (s : State) : State :=
  let c := carrier s n
  let d := wantedPos s n - was
  let r := wrapPhase (nominal s n) (c.rem + (if s.get (R.MOD_CAR_SYNC n) = 1 then -d else d))
  (setCarrier s n { c with rem := r }).flag (R.MOD_SST_SLEWING n) (r != 0)

/-! ### Cell voltages (R109) -/

/-- The cell voltage of a stitch for the sort, and whether it is a late value; none where it is not fresh. `due` says
that the newest tick's value is due (R109). -/
def freshV (s : State) (n : Nat) (due : Bool) : Option (Nat × Bool) :=
  let want := if due then s.telTick else s.telTick - 1
  let t := (link s n).telTick
  if want ≤ t then some (s.get (R.STI_TEL0_VCELL n), false)
  else if want = t + 1 then some (s.get (R.STI_TEL0_VCELL n), true)
  else none

/-- The stitches of a child code. -/
def stitchesOf (s : State) (c : Nat) : List Nat :=
  if isStitchCode c then [c] else stitchesUnder s 64 (c - 0x80)

/-- The voltage of a child for the sort and the count of late values in it. -/
def childV (s : State) (c : Nat) (due : Bool) : Option (Nat × Nat) :=
  let vs := ((stitchesOf s c).filter (capable s)).filterMap (fun n => freshV s n due)
  if vs = [] then none else some (meanFloor (vs.map (·.1)), (vs.filter (·.2)).length)

end Sys2Proof.Machine
end

