-- ==== Sys2Proof/Machine/Ports.lean ====
section
/-!
DEFINITION. The fabric's tables (spec/18): agreement, fabric time and its source, routes, and a port that goes DOWN. They
stand before the fault manager, because a T4 that ends a start takes the Pattern out of force and the ports DOWN with it.
-/
namespace Sys2Proof.Machine

/-! ### Class codes (Table 13.1) -/

def kDSAT := 0x01
def kCOV := 0x02
def kBST := 0x03
def kGUV := 0x04
def kOT := 0x05
def kXCMD := 0x06
def kLINK := 0x07
def kBAL := 0x08
def kLATE := 0x09
def kFB := 0x0A
def kSAT := 0x0B
def kORNG := 0x0C
def kSTALE := 0x0D
def kTRIP := 0x0E
def kGTRIP := 0x0F
def kGISL := 0x10
def kMTR := 0x11
def kDISC := 0x12
def kRST := 0x13
def kHEM := 0x14
def kPAT := 0x15
def kSUP := 0x16
def kCLK := 0x17
def kFLINK := 0x18

/-- Scope codes (Table 13.2). -/
def seamScope (n : Nat) : Nat := 0x2000 + n
def seqScope (n : Nat) : Nat := 0x4000 + n
def winScope (n : Nat) : Nat := 0x5000 + n
def gridScope : Nat := 0x6000
def meterScope : Nat := 0x7000
def pairScope (n : Nat) : Nat := 0x8000 + n
def resetScope : Nat := 0x9000
def hemScope (n : Nat) : Nat := 0xA000 + n
def patScope : Nat := 0xB000
def supplyScope (n : Nat) : Nat := 0xC000 + n
def clockScope (n : Nat) : Nat := 0xD000 + n
def portScope (n : Nat) : Nat := 0xE000 + n

/-- Kind and index of a scope code. -/
def scopeKind (sc : Nat) : Nat := sc / 4096 % 16
def scopeIx (sc : Nat) : Nat := sc % 4096

/-- The stitch of a stitch scope (dielet detector or link monitor). -/
def scopeStitch (sc : Nat) : Nat := scopeIx sc % 256

/-- How a cause raises an occurrence: its class and its scope. -/
abbrev Raise := Nat → Nat → State → State

/-! ### Agreement (R353) -/

/-- PAT_DIGEST as bytes. -/
def patDigest (s : State) : List Byte := wordsBe s R.PAT_DIGEST 8

/-- Is role `r` a member? -/
def member (s : State) (r : Nat) : Bool := tb (s.get R.FAB_MEMBERS_MAP) (r - 1)

/-- FAB_AGREE as it should stand. -/
def agreeMap (s : State) : Nat :=
  mapBits 32 1 (fun r => (r == ownRole s) || (member s r && tget (fun _ => none) s.fab.digests r == some (patDigest s)))

/-- Do FAB_AGREE and ALL stand as they should? -/
def agreed (s : State) : Bool :=
  agreeMap s == s.get R.FAB_AGREE_MAP && s.on R.FAB_STAT_ALL == (s.get R.FAB_AGREE_MAP == s.get R.FAB_EXPECT_MAP)

/-- FAB_AGREE follows; a change counts, takes the time and raises AGREE. -/
def syncAgree (s : State) : State :=
  let m := agreeMap s
  if agreed s then s
  else
  let s1 :=
    if m = s.get R.FAB_AGREE_MAP then s
    else
      let t := fabTime s
      let a := (((s.put R.FAB_AGREE_MAP m).inc R.FAB_AGREE_EPOCH_N).put R.FAB_AGREE_T_LO_T t).put R.FAB_AGREE_T_HI_T (t / 2 ^ 32)
      forL roles (fun r b => b.flag (R.FAB_PEER_AGREE r) (tb m (r - 1))) (a.flag R.FAB_IRQ_AGREE true)
  s1.flag R.FAB_STAT_ALL (s1.get R.FAB_AGREE_MAP == s1.get R.FAB_EXPECT_MAP)

/-! ### Fabric time (R351, R352) -/

/-- CLK of an aligned root, once until SYNCOK sets again; it runs free (R118, R119, R352). -/
def runFree (raise : Raise) (n : Nat) (s : State) : State :=
  if (s.get (R.MOD_CAR_SYNC n) == 2 || s.get (R.MOD_CAR_SYNC n) == 3) && domOn s 5 then
    let s1 := (setCarrier s n { carrier s n with rem := 0, aligned := 0 }).flag (R.MOD_SST_SYNCOK n) false
    let s2 := s1.flag (R.MOD_SST_SLEWING n) false
    if episode s (256 + n) then s2 else raise kCLK (seamScope n) (setEpisode s2 (256 + n) true)
  else s

/-- TVALID clears. -/
def clearTvalid (raise : Raise) (s : State) : State :=
  if s.on R.FAB_TSTAT_TVALID then
    let s1 := s.flag R.FAB_TSTAT_TVALID false
    forL (roots s1) (runFree raise) { s1 with fab := { s1.fab with good := 0 } }
  else { s with fab := { s.fab with good := 0 } }

/-- The source of fabric time: the lowest role among the module itself, with TIMEEN, and the members that its UP ports
report; 0 with none. -/
def timeSource (s : State) : Nat :=
  let own := if s.on R.FAB_STAT_BOUND && s.on R.FAB_CFG_TIMEEN then [ownRole s] else []
  let far := ((fabPorts s).filter (portUp s)).map (fun p => (fabPort s p).heard)
  ((own ++ far.filter (fun r => r != 0 && r != ownRole s && member s r)).min?).getD 0

/-- Fabric time takes a value. -/
def setFabTime (t : Nat) (s : State) : State := { s with fab := { s.fab with timeBase := t % 2 ^ 64, timeAt := s.cyc } }

/-- The source and the followed port are judged again. -/
def syncSource (raise : Raise) (s : State) : State :=
  let r := timeSource s
  let me := r != 0 && r == ownRole s
  let s1 := (((s.put R.FAB_TSTAT_SRCROLE r).flag R.FAB_TSTAT_SOURCE me).put R.FAB_TSTAT_PORT
    (if me ∨ r = 0 then 0 else s.get (R.FAB_PEER_PORT r)))
  if r = s.get R.FAB_TSTAT_SRCROLE ∧ me = s.on R.FAB_TSTAT_SOURCE then s1
  else
    let s2 := clearTvalid raise s1
    if me then
      let s3 := s2.flag R.FAB_TSTAT_TVALID true
      if s.on R.PWR_STAT_RTCVAL then setFabTime (rtcMs s * 1000000) s3 else s3
    else s2

/-! ### Routes (R346, R348) -/

/-- Engine cycles in 3 ms. -/
def routeAge : Nat := 3 * cyclesPerMs

/-- The metric to role `r` through port `p`; 0xFF where it is unreachable there. -/
def metricVia (s : State) (r p : Nat) : Nat :=
  if portUp s p then
    match (fabPort s p).route with
    | some (t, ms) => if s.cyc ≤ t + routeAge ∧ ms.getD (r - 1) 255 < 31 then 1 + ms.getD (r - 1) 255 else 255
    | none => 255
  else 255

/-- The best port and metric to role `r`; the lower port on a tie. -/
def bestRoute (s : State) (r : Nat) : Nat × Nat :=
  (fabPorts s).foldl (fun a p => if metricVia s r p < a.2 then (p, metricVia s r p) else a) (0, 255)

/-- The ROUTE payload for port `p`. -/
def routePayload (s : State) (p : Nat) : List Byte :=
  roles.map (fun r => BitVec.ofNat 8 (
    if r = ownRole s then 0 else if s.get (R.FAB_PEER_PORT r) = p then 255 else metricTo s r))

/-- One role's entry of the table. -/
def putRoute (r : Nat) (s : State) : State :=
  let b := bestRoute s r
  let m := if r = ownRole s then 0 else b.2
  let s1 := (s.put (R.FAB_PEER_METRIC r) m).put (R.FAB_PEER_PORT r) (if r = ownRole s then 0 else b.1)
  if m ≠ 255 ∧ member s r = false then
    (((s1.put R.FAB_MEMBERS_MAP (s1.get R.FAB_MEMBERS_MAP + 2 ^ (r - 1))).flag (R.FAB_PEER_REACH r) true).flag
      R.FAB_IRQ_MEMBERS true)
  else s1

/-- ROUTE is sent on every UP port. -/
def sendRoutes (s : State) : State := forL ((fabPorts s).filter (portUp s)) (fun p a => sendLocal p 0x08 0 (routePayload a p) a) s

/-- The route table: metric and port of each role. -/
def routeView (s : State) : List (Nat × Nat) := roles.map (fun r => (metricTo s r, s.get (R.FAB_PEER_PORT r)))

/-! ### A port goes DOWN (R344) -/

/-- FAB-LINK of port `p`, once per episode (R344). -/
def raisePort (raise : Raise) (p : Nat) (s : State) : State :=
  let x := fabPort s p
  let s1 := s.flag R.FAB_IRQ_PORT true
  if x.ep then s1 else raise kFLINK (portScope p) (setFabPort s1 p { x with ep := true })

/-- A port goes DOWN: its queued frames are discarded and counted. -/
def dropPort (p : Nat) (s : State) : State :=
  let x := fabPort s p
  let n := x.queue.length + x.wait.length
  let s1 := (((s.put (R.FAB_PSTAT_STATE p) pDOWN).put (R.FAB_PSTAT_PEER p) 0).put (R.FAB_PSTAT_PEPOCH p) 0).put
    (R.FAB_PCNT_DROP p) (s.get (R.FAB_PCNT_DROP p) + n)
  let claim := s.fab.claim.filter (fun c => c.1 != p)
  setFabPort { s1 with fab := { s1.fab with ups := s1.fab.ups.filter (· != p), claim := claim } } p { PortSt.zero with ep := x.ep }

/-- The tables follow the ports: routes, agreement, and the source of fabric time. -/
def judgeFabric (raise : Raise) (s : State) : State := syncSource raise (syncAgree (forL roles putRoute s))

/-- Ports go DOWN in one cycle from whatever state they are in: those that were UP raise FAB-LINK, behind the CLK of a source
of fabric time that is lost with them (R247). -/
def portsGoDown (raise : Raise) (ps : List Nat) (s : State) : State :=
  let ups := ps.filter (fun p => domOn s 2 && portState s p == pUP)
  forL ups (raisePort raise) (judgeFabric raise (forL ps dropPort s))

/-- The ports that may not run any more and are not DOWN (Table 18.3). -/
def stoppedPorts (s : State) : List Nat :=
  (fabPorts s).filter (fun p => domOn s 2 && portState s p != pDOWN && !portRuns s p)

end Sys2Proof.Machine
end

