-- ==== Sys2Proof/Machine/Occur.lean ====
section
/-!
DEFINITION. The shared operation of the fault manager: one occurrence taken from its report to its reaction, record,
log entry and shadow (R247–R261, R267), and the end of a reaction.
-/
namespace Sys2Proof.Machine

/-! ### Reach (Table 13.5) -/

/-- The seam that triggers a sequence, following chains; none for a host-triggered one (Table 13.5, R160). -/
def seqSeam (s : State) : Nat → Nat → Option Nat
  | 0, _ => none
  | f + 1, q =>
    match s.get (R.ACQ_SQCFG_TSRC q) with
    | 1 => some (s.get (R.ACQ_SQCFG_TNUM q))
    | 2 => seqSeam s f (s.get (R.ACQ_SQCFG_TNUM q))
    | _ => none

/-- The seam held by a T2 reaction in a scope (Table 13.5); none where the occurrence takes T3. -/
def heldSeam (s : State) (sc : Nat) : Option Nat :=
  match scopeKind sc with
  | 1 => some (holdPoint s (ownerOf s (scopeStitch sc)))
  | 2 => some (holdPoint s (scopeIx sc))
  | 3 => some (holdPoint s (s.get (R.CTX_CFG_TRIG (scopeIx sc))))
  | 4 => (seqSeam s 16 (scopeIx sc)).map (holdPoint s)
  | 5 =>
    let t := s.get (R.WIN_CFG_TGT (scopeIx sc))
    if t = 0x80 then none
    else if isSeamCode t then some (holdPoint s (t - 0x80)) else some (holdPoint s (ownerOf s t))
  | 6 => some (s.get R.GRD_CFG_ROOT)
  | _ => none

/-- Does a T1 reaction of a scope do anything (Table 13.4)? -/
def t1Acts (sc : Nat) : Bool := scopeKind sc == 1 || scopeKind sc == 3

/-- The seam that ties a scope to a subtree, for the reach of a shadow (R261). -/
def scopeSeam (s : State) (sc : Nat) : Nat :=
  match scopeKind sc with
  | 1 => ownerOf s (scopeStitch sc)
  | 2 => scopeIx sc
  | 3 => s.get (R.CTX_CFG_TRIG (scopeIx sc))
  | 4 => (seqSeam s 16 (scopeIx sc)).getD 0
  | 5 =>
    let t := s.get (R.WIN_CFG_TGT (scopeIx sc))
    if isSeamCode t then t - 0x80 else if isStitchCode t then ownerOf s t else 0
  | _ => 0

/-- Is an occurrence of class `c` in scope `sc` covered by shadow `w` (R261)? -/
def shadowCovers (s : State) (w : Shadow) (c sc : Nat) : Bool :=
  tb w.mask (c - 1) && sc != w.scope && decide (s.tick < w.close) &&
    (w.all || w.seam == 64 || (w.seam != 0 && covers s w.seam (scopeSeam s sc)) || (w.seam == 0 && sc == w.scope))

/-! ### The queued writes of R267 -/

/-- The seam that a register address belongs to, for the reach of a hold (SEAM, MOD, STI, CTX and PLT blocks). -/
def addrSeam (s : State) (a : Nat) : Nat :=
  match a / 0x10000 with
  | 2 => a % 0x10000 / 0x40
  | 3 => if a % 0x10000 < 0x3000 then ownerOf s (a % 0x10000 / 0x80) else 0
  | 4 => if a % 0x10000 < 0x1000 then 0 else (a % 0x10000 - 0x1000) / 0x20
  | 5 => s.get (R.CTX_CFG_TRIG (a % 0x10000 / 0x100))
  | 6 => s.get (R.CTX_CFG_TRIG (a % 0x10000 / 0x20))
  | _ => 0

/-- Is a queued word addressed to the reach of a hold of seam `h`? -/
def inReach (s : State) (h : Nat) (w : HostWord) : Bool :=
  let m := addrSeam s w.addr
  m != 0 && covers s h m

/-- R267 at the decision of a hold of seam `h`: with QPOL = 0 the words in the reach are performed before HELD and
HPARK show for this hold (`holdWait`); with QPOL = 1 they are discarded with DISCARDED set, and a remote write that was to
end with one of them is answered (R358). -/
def holdQueue (h : Nat) (s : State) : State :=
  if s.on R.FLT_CFG_QPOL then
    match s.host.queue.find? (inReach s h) with
    | none => s
    | some w => settleWrites (syncQueue (discarded w.port w.addr
        { s with host := { s.host with queue := s.host.queue.filter (fun x => !inReach s h x),
                                       holdWait := s.host.holdWait.filter (fun x => !inReach s h x.2) } }))
  else
    { s with host := { s.host with
      holdWait := s.host.holdWait.filter (fun x => x.1 != h) ++ (s.host.queue.filter (inReach s h)).map (fun w => (h, w)) } }

/-! ### The occurrence -/

/-- The tick from which the quiet period and shadows of an occurrence count: the first tick at or after it. An
occurrence at a tick itself (`atTick`) counts from that tick (R247, R254, R261). Log entry 48. -/
def occTick (s : State) (atTick : Bool) : Nat := if atTick then s.tick else s.tick + 1

/-- The detector before its tier is read: RCNT restarts after CWIN × 100 ms (R254), and ESCCLS follows (R253). -/
def readyDetector (s : State) (c : Nat) (t : Nat) (d : Detector) : Detector :=
  let d1 := if 0 < d.rcnt ∧ d.first + d.firstWin * 1000 < t then { d with rcnt := 0, first := 0 } else d
  if s.get (R.FLT_MAP_ESC c) = 1 ∧ d1.escCls ≠ c then { d1 with escCls := c, escn := 0 } else d1

/-- The tier that map and escalation give (R249, R253). -/
def mappedTier (s : State) (c : Nat) (d : Detector) : Nat :=
  let t := s.get (R.FLT_MAP_TIER c)
  let m := s.get (R.FLT_MAP_ESCMAX c)
  match s.get (R.FLT_MAP_ESC c) with
  | 1 => min m (t + d.escn)
  | 2 => min m (t + s.get (R.FLT_CRSTAT_COUNT c))
  | _ => t

/-- The tier an occurrence takes (R251, Tables 13.4 and 13.5). -/
def takenTier (s : State) (sc mapped : Nat) (shadowed : Bool) : Nat :=
  let stitch := scopeKind sc == 1
  if stitch && (retired s (scopeStitch sc) || !claimed s (scopeStitch sc)) then 0
  else if shadowed then 0
  else
    let t := if stitch && decide (scopeIx sc < 0x100) then max 1 mapped else mapped
    if t = 2 ∧ (heldSeam s sc).isNone then 3 else t

/-- The cause record of class `c` takes an occurrence (R258). -/
def recordCause (c sc detail tier : Nat) (shadowed : Bool) (s : State) : State :=
  if shadowed then s.incSat (R.FLT_CRSH_SHCNT c)
  else
    let q := s.get R.FLT_NEXTSEQ_SEQ
    let s1 := if s.on (R.FLT_CRSTAT_UNCL c) then s else
      ((((s.flag (R.FLT_CRSTAT_UNCL c) true).put (R.FLT_CRFIRST_DETAIL c) detail).put (R.FLT_CRFIRST_TIER c) tier).put
        (R.FLT_CRFIRST_SCOPE c) sc |>.put (R.FLT_CRFSEQ_SEQ c) q).put (R.FLT_CRFTIME_MS c) (rtcMs s)
    (((((s1.put (R.FLT_CRLAST_DETAIL c) detail).put (R.FLT_CRLAST_TIER c) tier).put (R.FLT_CRLAST_SCOPE c) sc).put
      (R.FLT_CRLSEQ_SEQ c) q).put (R.FLT_CRLTIME_MS c) (rtcMs s)).incSat (R.FLT_CRSTAT_COUNT c)

/-- A shadow opens if the class has one and the occurrence took T1 or above (R261): at once, or after the other
occurrences of the cycle. -/
def openShadow (c sc tier t : Nat) (s : State) : State :=
  let len := s.get (R.FLT_MAP_SHLEN c)
  if tier = 0 ∨ len = 0 then s
  else
    let seam := if 3 ≤ tier then 64 else if scopeKind sc ≤ 5 then (heldSeam s sc).getD 0 else 0
    let w : Shadow := ⟨c, sc, t + len, s.get (R.FLT_SHM_SHMASK c), s.on (R.FLT_MAP_SHALL c), seam⟩
    match s.flt.opening with
    | none => { s with flt := { s.flt with shadows := s.flt.shadows ++ [w] } }
    | some ws => { s with flt := { s.flt with opening := some (ws ++ [w]) } }

/-- A detector's report of a cycle whose occurrences are taken together at its end. -/
def report (r : Report) (s : State) : State := { s with flt := { s.flt with reports := s.flt.reports ++ [r] } }

/-- Reports in the order in which they are taken: by class code, and within a class by scope code (R247). -/
def insertReport (r : Report) : List Report → List Report
  | [] => [r]
  | x :: l => if r.cls * 65536 + r.scope ≤ x.cls * 65536 + x.scope then r :: x :: l else x :: insertReport r l

def sortReports (l : List Report) : List Report := l.foldr insertReport []

/-- The reports of a cycle become occurrences (R247). -/
def takeReports (take : Report → State → State) (s : State) : State :=
  forL (sortReports s.flt.reports) take { s with flt := { s.flt with reports := [] } }

/-- Whatever `f` does, in one cycle: its reports are taken at the end, and the shadows they open cover from the next cycle on
(R247, R261). -/
def inCycle (take f : State → State) (s : State) : State :=
  if s.flt.opening.isSome then f s
  else
    let s1 := take (f { s with flt := { s.flt with opening := some [], reports := [] } })
    { s1 with flt := { s1.flt with
      shadows := s1.flt.shadows ++ s1.flt.opening.getD [], opening := none, reports := s.flt.reports } }

/-- A detector takes the class that governs it; LATCH of a latched reaction goes with its class (R252, R255). Log
entry 72. -/
def govern (sc : Nat) (d : Detector) (s : State) : State :=
  let old := detector s sc
  let s1 := setDetector s sc d
  if d.latched then
    let s2 := s1.flag (R.FLT_CRSTAT_LATCH d.gcls) true
    if old.latched && old.gcls != d.gcls && !s2.flt.dets.any (fun e => e.2.latched && e.2.gcls == old.gcls) then
      s2.flag (R.FLT_CRSTAT_LATCH old.gcls) false
    else s2
  else s1

/-- The reaction of a tier is applied to its detector (R249, R252, Table 13.6): the higher tier stays in force, also
where the reaction is latched. A hold that the detector did not have yet is decided here (R267). -/
def applyReaction (c sc tier t : Nat) (latch : Bool) (s : State) : State :=
  let d := detector s sc
  let acts := decide (2 ≤ tier) || (tier == 1 && t1Acts sc)
  if acts then
    let reach := if 3 ≤ tier then 64 else if tier = 2 then (heldSeam s sc).getD 0 else 0
    let d1 := if d.tier ≤ tier then { d with tier := tier, reach := reach } else d
    let s1 := govern sc { d1 with gcls := c, occ := t, latched := d.latched || latch } s
    let s2 := if d1.reach ≠ d.reach then holdQueue d1.reach s1 else s1
    let s4 := syncHolds s2
    if tier = 4 then
      let s5 := hemDemand 8 (s4.flag R.SAF_STAT_T4 true)
      if s5.pat.start = .await then startFailed cT4 s5 else s5
    else s4
  else if 1 ≤ d.tier then govern sc { d with gcls := c, occ := t } s
  else s

/-- One occurrence of class `c` in scope `sc` up to its own reaction (R247). `force` is the tier of R305, whose reaction latches
at once. -/
def occurOnce (atTick : Bool) (force : Option Nat) (c sc detail : Nat) (s : State) : State :=
  let t := occTick s atTick
  let d := readyDetector s c t (detector s sc)
  let shadowed := force.isNone && s.flt.shadows.any (fun w => shadowCovers s w c sc)
  let mapped := mappedTier s c d
  let tier := match force with
    | some f => f
    | none => takenTier s sc mapped shadowed
  let esc := !shadowed && decide (s.get (R.FLT_MAP_TIER c) < mapped) && decide (mapped ≤ tier)
  let d1 := if s.get (R.FLT_MAP_ESC c) = 1 ∧ shadowed = false then { d with escn := min 15 (d.escn + 1) } else d
  let s1 := setDetector s sc { d1 with detail := if shadowed then d1.detail else detail }
  let s2 := recordCause c sc detail tier shadowed s1
  let s3 := logEvent 0 c tier shadowed esc sc detail d1.rcnt d1.escn s2
  let s4 := s3.inc R.FLT_CNT_OCC
  if shadowed then s4
  else openShadow c sc tier t (applyReaction c sc tier t force.isSome s4)

/-- A report becomes an occurrence. -/
def takeOnce (r : Report) : State → State := occurOnce r.atTick none r.cls r.scope r.detail

/-- One occurrence of class `c` in scope `sc` (R247). A T4 that ends a start takes the Pattern out of force, and the fabric's
ports go DOWN with it (Table 18.3). -/
def occurWith (atTick : Bool) (force : Option Nat) (c sc detail : Nat) (s : State) : State :=
  let s1 := occurOnce atTick force c sc detail s
  if s.on R.PAT_STAT_LOADED && !s1.on R.PAT_STAT_LOADED && domOn s1 2 then
    inCycle (takeReports takeOnce) (portsGoDown (fun k p => report ⟨atTick, k, p, 0⟩) (stoppedPorts s1)) s1
  else s1

/-- Whatever `f` does, in one cycle, with every report it makes (R247, R261); the second turn takes those of ports that a T4
of the first brought DOWN. -/
def oneCycle (f : State → State) (s : State) : State :=
  inCycle (fun a => takeReports takeOnce
    (takeReports (fun r => occurWith r.atTick none r.cls r.scope r.detail) a)) f s

/-- One report: an occurrence at once, or at the end of the cycle it belongs to. While PD1 is off the fault manager takes
none. -/
def raiseReport (r : Report) (s : State) : State :=
  if domOn s 1 then
    (if s.flt.opening.isSome then report r s else occurWith r.atTick none r.cls r.scope r.detail s)
  else s

/-- A report between two safety ticks. -/
def occur (c sc detail : Nat) (s : State) : State := raiseReport ⟨false, c, sc, detail⟩ s

/-- A report at a safety tick. -/
def occurAtTick (c sc detail : Nat) (s : State) : State := raiseReport ⟨true, c, sc, detail⟩ s

/-- An occurrence between two safety ticks, of a class that has no DETAIL. -/
def raiseNow : Raise := fun c sc => occur c sc 0

/-- Whatever `f` does to the table, in one cycle; a change is announced at once. -/
def routesAfter (f : State → State) (s : State) : State :=
  let s1 := oneCycle f s
  if routeView s1 = routeView s then s1 else sendRoutes s1

/-- The fabric's tables follow: the module's role, or the ports that may not run any more, have changed. -/
def refreshFabric (s : State) : State :=
  if domOn s 2 then routesAfter (portsGoDown raiseNow (stoppedPorts s)) s else s

/-! ### The end of a reaction -/

/-- The reaction of a detector ends (R254, R255, R256, R268): holds follow, T4 leaves the latch set. -/
def endReaction (sc : Nat) (s : State) : State :=
  let d := detector s sc
  let s1 := setDetector s sc { d with tier := 0, latched := false, reach := 0 }
  let s2 := if s1.flt.dets.any (fun e => e.2.tier == 4) then s1 else s1.flag R.SAF_STAT_T4 false
  let s3 := if s2.flt.dets.any (fun e => e.2.latched && e.2.gcls == d.gcls) then s2
    else s2.flag (R.FLT_CRSTAT_LATCH d.gcls) false
  syncHolds s3

/-- The reaction of a detector ends and what it held is let go (Table 13.4): a stitch in FAULT is retried, and a
dielet detector's stitch gets RELEASE, unless the end of its own hold has just sent it. -/
def liftDetector (sc : Nat) (s : State) : State :=
  let n := scopeStitch sc
  let had := (link s n).held && !ownHiz s n
  let s1 := endReaction sc s
  if scopeKind sc = 1 ∧ retired s1 n = false then
    if s1.get (R.STI_STATE_STATE n) = stFAULT then wakeLink n s1
    else if scopeIx sc < 0x100 ∧ ¬(had = true ∧ (link s1 n).held = false) then liftOwn n s1
    else s1
  else s1

/-- A due lift of detector `sc` (R254, R255, Table 13.6): it lifts, or the fault becomes permanent. -/
def dueLift (sc : Nat) (s : State) : State :=
  let d := detector s sc
  let lim := s.get (R.FLT_MAP_RLIM d.gcls)
  let det := d.detail
  if d.rcnt < lim then
    let d1 := { d with rcnt := d.rcnt + 1, first := (if d.rcnt = 0 then s.tick else d.first),
                       firstWin := (if d.rcnt = 0 then s.get (R.FLT_TIME_CWIN d.gcls) else d.firstWin) }
    let s2 := liftDetector sc (setDetector s sc d1)
    logEvent 1 d.gcls d.tier false false sc det d1.rcnt d1.escn (s2.inc R.FLT_CNT_LIFT)
  else if scopeKind sc = 1 then
    let n := scopeStitch sc
    let s1 := endReaction sc (retire n det s)
    logEvent 2 d.gcls d.tier false false sc det d.rcnt d.escn (s1.inc R.FLT_CNT_PERM)
  else
    let s1 := (setDetector s sc { d with latched := true }).flag (R.FLT_CRSTAT_LATCH d.gcls) true
    logEvent 2 d.gcls d.tier false false sc det d.rcnt d.escn (s1.inc R.FLT_CNT_PERM)

end Sys2Proof.Machine
end

