-- ==== Sys2Proof/Machine/Pleat.lean ====
section
/-!
DEFINITION. The arithmetic of the engine (R121) and the pleat: repetitive control (spec/07).
-/
namespace Sys2Proof.Machine

/-! ### Arithmetic (R121) -/

/-- `mul(x, c, sh)`. -/
def emul (x c sh : Int) : Int :=
  let p := x * c
  if 0 ≤ sh then p * 2 ^ sh.toNat
  else fdiv (p + 2 ^ (-sh - 1).toNat) (2 ^ (-sh).toNat)

/-- `add(a, p)`: the saturated sum, and whether it saturated. -/
def eadd (a p : Int) : Int × Bool :=
  let t := a + p
  if 2 ^ 39 - 1 < t then (2 ^ 39 - 1, true)
  else if t < -(2 ^ 39) then (-(2 ^ 39), true)
  else (t, false)

/-- `q15(a)`: the rounded, saturated value, and whether it saturated. -/
def eq15 (a : Int) : Int × Bool :=
  let y := fdiv (a + 2 ^ 14) 32768
  if 32767 < y then (32767, true)
  else if y < -32768 then (-32768, true)
  else (y, false)

/-- A sum of products from 0, the terms in order; the flag is sticky. -/
def esum (l : List Int) : Int × Bool :=
  l.foldl (fun a p => let r := eadd a.1 p; (r.1, a.2 || r.2)) (0, false)

/-! ### The memory (R145, R152) -/

/-- Pool cell `k`. -/
def poolCell (s : State) (k : Nat) : Nat := tget (fun _ => 0) s.pool k

/-- Write pool cell `k`. -/
def setPoolCell (k v : Nat) (s : State) : State := { s with pool := tset (fun _ => 0) s.pool k (v % 65536) }

/-- Cells of context `c`'s pleat. -/
def plen (s : State) (c : Nat) : Nat := s.get (R.PLT_MEM_LEN c)

/-- m[i] of context `c`: index modulo LEN, on the Q15 scale. -/
def memCell (s : State) (c i : Nat) : Int := q15 (poolCell s (s.get (R.PLT_MEM_BASE c) + i % plen s c))

/-- Write m[i] of context `c`. -/
def setMemCell (c i : Nat) (v : Int) (s : State) : State :=
  setPoolCell (s.get (R.PLT_MEM_BASE c) + i % plen s c) (code 16 v) s

/-- The context that owns a pool cell, 0 if it is unallocated. -/
def cellOwner (s : State) (k : Nat) : Nat :=
  (seams.find? (fun c => decide (s.get (R.PLT_MEM_BASE c) ≤ k) && decide (k < s.get (R.PLT_MEM_BASE c) + plen s c))).getD 0

/-- Every cell of context `c` becomes 0. -/
def clearCells (c : Nat) (s : State) : State :=
  { s with pool := tdrop s.pool (s.get (R.PLT_MEM_BASE c)) (s.get (R.PLT_MEM_BASE c) + plen s c) }

/-! ### Phase (R146, R150) -/

/-- The phase that the source gives, and whether it is locked (Table 7.1). -/
def phaseSource (s : State) (c : Nat) : Nat × Bool :=
  let ix := s.get (R.PLT_CFG_PIDX c)
  if s.on (R.PLT_CFG_PSRC c) then
    let dv := s.get (R.PLT_CFG_DIV c)
    ((if dv = 0 then 0 else 65536 * ((carrier s ix).periods % dv) / dv), phaseLocked s c)
  else (s.get (R.PLT_CFG_MULT c) * s.get (R.GRD_OUT_OUT ix) % 65536, phaseLocked s c)

/-- NPER (R146): executions in one pleat period, in 1/16; its low 17 bits show. It reads 0 where f reads 0, for which R146
states no value (log entry 80). -/
def nperOf (s : State) (c : Nat) : Nat :=
  let t := s.get (R.CTX_CFG_TRIG c)
  let den := nominal s t * (s.get (R.MOD_OPT_SMPDIV t) + 1) * s.get R.GRD_F_F * s.get (R.PLT_CFG_MULT c)
  if s.on (R.PLT_CFG_PSRC c) ∨ den = 0 then 0 else 16 * 6400000000 * 1000 / den

/-! ### The update (R147–R149) -/

/-- The phase that an unlocked source leaves to a pleat with UNLK 1 that no execution found locked since the apply: the spec
gives it no last locked value (log entry 1). -/
def freePhase (c th : Nat) : Nat := (Config.realFn 72 [c, th]).toNat % 65536

/-- The pleat of context `c` for one execution with input `ef` and what it captured: the state after it, and q. A free run takes
the step of the last locked execution that had a locked one just before it, and the phase passes zero where it lies below
that of the execution before, not at the first after a park or a relock (R150, log entry 79). -/
def pleatRun (c : Nat) (k : Capture) (ef : Int) (s : State) : State × Int :=
  let p := pltSt s c
  let len := plen s c
  let unlk := s.on (R.PLT_CFG_UNLK c)
  let th := if k.locked || !unlk then k.th else if p.seen then (p.th + p.step) % 65536 else freePhase c k.th
  let passed := p.run && !(k.locked && p.back) && decide (th < p.th)
  let wait := if passed then p.relk - 1 else p.relk
  let lead := k.pctl / 256 % 64
  let outen := tb k.pctl 1
  let learn := tb k.pctl 0
  let pf := th * len
  let j := pf / 65536 + lead
  let f : Int := pf % 65536
  let q : Int := if !outen || (!k.locked && !unlk) || len == 0 then 0
    else memCell s c j + fdiv ((memCell s c (j + 1) - memCell s c j) * f + 32768) 65536
  let cn := if len = 0 then 0 else (pf + 32768) / 65536 % len
  let last := if p.run then p.last else (cn + len - 1) % max 1 len
  let learning := learn && outen && k.locked && wait == 0 && !s.on (R.PLT_STAT_CLEARING c) && len != 0
  let qc := q15 (k.qf / 65536)
  let qs := q15 k.qf
  let kr := q15 (k.gain / 65536)
  let leak : Int := k.gain % 256
  let sm := esum [emul (memCell s c cn) qc 0, emul (memCell s c (cn + len - 1)) qs 0, emul (memCell s c (cn + 1)) qs 0]
  let sq := eq15 sm.1
  let a := if leak = 0 then sq.1 * 32768 else emul sq.1 (32768 - leak) 0
  let w := eq15 (eadd a (emul ef kr 0)).1
  let d := (cn + len - last) % max 1 len
  let fill := if 2 ≤ d ∧ d ≤ 8 then (List.range d).map (fun i => last + 1 + i) else [cn]
  let s1 := if learning then forL fill (fun i a => setMemCell c i w.1 a) s else s
  let s2 := if learning ∧ 8 < d then s1.inc (R.PLT_CNT_SKIPCNT c) else s1
  let s4 := if passed then s2.inc (R.PLT_CNT_PCNT c) else s2
  let s5 := ((((s4.flag (R.PLT_STAT_LEARNING c) learning).flag (R.PLT_STAT_SAT c)
    (learning && (sq.2 || w.2))).flag (R.PLT_STAT_RELKW c) (decide (0 < wait))).put (R.PLT_STAT_NPER c) (nperOf s c))
  let s6 := (s5.put (R.PLT_POS_TH c) th).put (R.PLT_POS_CELL c) cn
  let step := if k.locked && p.run && p.was && !p.back then (th + 65536 - p.th) % 65536 else p.step
  (setPltSt s6 c { p with run := true, last := cn, th := th, step := step, was := k.locked, back := p.back && !k.locked
                          seen := p.seen || k.locked, relk := wait }, q)

/-! ### Writes and the clear (R151, R153, R154) -/

/-- PLT_QF takes a word that keeps the Q-filter rule; any other sets WERR (R151). -/
def writePltQf (c : Nat) (d : Word) (s : State) : State :=
  let qc := q15 (bitsOf d 16 16)
  let qs := q15 (bitsOf d 0 16)
  if c = 0 then s
  else if 0 ≤ qc ∧ 0 ≤ qs ∧ qc + 2 * qs ≤ 32768 then s.setWord (R.PLT_QF c) d
  else s.flag (R.PLT_STAT_WERR c) true

/-- Word `i` of the memory window (R152, R153). -/
def windowWord (s : State) (i : Nat) : Word :=
  if cellOwner s (2 * i) = 0 then 0 else BitVec.ofNat 32 (poolCell s (2 * i) + 65536 * poolCell s (2 * i + 1))

/-- A write of word `i` of the window: applied only while the owner is parked and not clearing (R153). -/
def writeWindow (p i : Nat) (d : Word) (s : State) : State :=
  let c := cellOwner s (2 * i)
  if c = 0 then s
  else if s.on (R.CTX_STAT_PARKED c) && !s.on (R.PLT_STAT_CLEARING c) then
    setPoolCell (2 * i + 1) (bitsOf d 16 16) (setPoolCell (2 * i) (bitsOf d 0 16) s)
  else discarded p (0x100000 + 4 * i) s

/-- PLT_QF_WRITE (R151). -/
def execPltQfWrite (c : Fin 64) (w : PortWrite) (s : State) : Host.Outcome State Fault Refusal :=
  .next (guarded w.port (R.PLT_QF c.val) w.data (writePltQf c.val w.data) s)

/-- PLT_WINDOW_WRITE (R152, R153): word `i` of the window. -/
def execPltWindowWrite (i : Fin 131072) (w : PortWrite) (s : State) : Host.Outcome State Fault Refusal :=
  .next (guarded w.port (0x100000 + 4 * i.val) w.data (writeWindow w.port i.val w.data) s)

/-- PLT_CLEAR_DONE (R154): the cells are 0, CLEARING falls, and a release that waited takes effect. -/
def execPltClearDone (c : Fin 64) (s : State) : Host.Outcome State Fault Refusal :=
  .next (if s.on (R.PLT_STAT_CLEARING c) then parkSync c ((clearCells c s).flag (R.PLT_STAT_CLEARING c) false) else s)

end Sys2Proof.Machine
end

