-- ==== Sys2Proof/Machine/Control.lean ====
section
/-!
DEFINITION. The control engine (spec/06): sources, the law chain, executions, routing, parking and lost feedback.
-/
namespace Sys2Proof.Machine

/-! ### Sources (R122) -/

/-- A value shifted right by `ash` with rounding (Table 6.1). -/
def shiftRound (v : Int) (ash : Nat) : Int := if ash = 0 then v else fdiv (v + 2 ^ (ash - 1)) (2 ^ ash)

/-- A source word as an execution of context `c` reads it, and whether it saturated. `due` is that of R109. -/
def readSource (s : State) (c w : Nat) (due : Bool) : SrcRead × Bool :=
  let ix := w % 512
  let plain (v : Int) : SrcRead × Bool := (⟨w, v, none, false⟩, false)
  match w / 2 ^ 28 with
  | 1 =>
    let v := shiftRound (s.sget (R.ACQ_RES_VALUE ix)) (w / 2 ^ 24 % 16)
    (⟨w, sat16 v, some (s.get (R.ACQ_RES_TAG ix)), s.on (R.ACQ_RES_ORNG ix)⟩, v != sat16 v)
  | 2 => plain (8 * s.get (R.STI_TEL0_VCELL ix))
  | 3 => plain (8 * ((childV s (seamCode ix) due).map (·.1)).getD 0)
  | 4 => plain (q15 (s.get (R.GRD_OUT_OUT ix)))
  | 5 => plain (s.sget (R.CTX_AUX_AUX c))
  | 6 => plain (s.sget (R.CTX_Y_YC ix))
  | _ => plain 0

/-- What an execution captures at its first cycle (R130, R133). FF sources are read, and count in the checks of R139 to R141,
where the stage FF is bypassed too, as INPUT sources always are (R123 speaks of what a bypassed stage computes alone: log entry 77). -/
def captureOf (s : State) (c : Nat) (due part : Bool) : Capture :=
  let rs := ((List.range 6).map (fun k => readSource s c (s.word (R.CTX_SRC c k)).toNat due))
  let ph := phaseSource s c
  { srcs := rs.map (·.1), acc := rs.any (·.2),
    coefs := (List.range 20).map (fun k => (s.word (R.CTX_COEF c k)).toNat),
    lim0 := (s.word (R.CTX_LIM0 c)).toNat, rl := s.get (R.CTX_LIM1_RL c), ilim := (s.word (R.CTX_ILIM c)).toNat,
    rate := s.get (R.CTX_RAMP_RATE c), sp := s.sget (R.CTX_SP_SP c), part := part, th := ph.1, locked := ph.2,
    gain := (s.word (R.PLT_GAIN c)).toNat, qf := (s.word (R.PLT_QF c)).toNat, pctl := (s.word (R.PLT_CTL c)).toNat }

/-! ### The law chain (R123–R126, R137) -/

/-- A captured coefficient: value and shift. -/
def Capture.coef (k : Capture) (i : Nat) : Int × Int :=
  let w := k.coefs.getD i 0
  (q15 w, signed 4 (w / 65536))

/-- `mul` of a signal with coefficient `i`. -/
def Capture.mulc (k : Capture) (x : Int) (i : Nat) : Int := emul x (k.coef i).1 (k.coef i).2

/-- A biquad with coefficients from index `b` (R124): its output, its history after it, ACC and BQ. -/
def biquadRun (k : Capture) (b : Nat) (x : Int) (h : Biquad) : Int × Biquad × Bool × Bool :=
  let a := esum [k.mulc x b, k.mulc h.x1 (b + 1), k.mulc h.x2 (b + 2), k.mulc h.y1 (b + 3), k.mulc h.y2 (b + 4)]
  let y := eq15 a.1
  (y.1, ⟨x, h.x1, y.1, h.y1⟩, a.2, y.2)

/-- The products of the enabled sources from `j` on with the coefficients from `i` on. -/
def Capture.products (k : Capture) (j i n : Nat) : List Int :=
  (List.range n).filterMap (fun m => match k.srcs[j + m]? with
    | some r => if r.word / 2 ^ 28 = 0 then none else some (k.mulc r.val (i + m))
    | none => none)

/-- The result of a law chain: the context after it, YC, the error, RAMPING, and the flags of CTX_STAT. -/
structure LawOut where
  x    : CtxSt
  y    : Int
  e    : Int
  ramp : Bool
  iwu  : Bool
  acc  : Bool
  bq   : Bool
  pi   : Bool
  lim  : Bool
  out  : Bool
  sum  : Bool
  deriving DecidableEq, Repr

/-- The stages of Table 6.2 up to BQ2: u, r, e and ef with their flags. -/
structure FrontOut where
  r   : Int
  e   : Int
  ef  : Int
  h1  : Biquad
  h2  : Biquad
  acc : Bool
  bq  : Bool
  sum : Bool
  deriving DecidableEq, Repr

/-- The ramp of R137. -/
def rampStep (sp r : Int) (rate : Nat) : Int :=
  if (sp - r).natAbs ≤ rate ∨ rate = 0 then sp else if r < sp then r + rate else r - rate

/-- INPUT, REF, ERR, BQ1 and BQ2 (R123, R124). -/
def lawFront (stg : Nat) (k : Capture) (x : CtxSt) : FrontOut :=
  let a0 := esum (k.products 0 0 4)
  let u := eq15 a0.1
  let r := if tb stg 0 then rampStep k.sp x.r k.rate else k.sp
  let e := if tb stg 1 then eq15 (k.mulc (r - u.1) 4) else (u.1, false)
  let b1 := if tb stg 2 then biquadRun k 5 e.1 x.bq1 else (e.1, x.bq1, false, false)
  let b2 := if tb stg 3 then biquadRun k 10 b1.1 x.bq2 else (b1.1, x.bq2, false, false)
  ⟨r, e.1, b2.1, b1.2.1, b2.2.1, k.acc || a0.2 || b1.2.2.1 || b2.2.2.1, b1.2.2.2 || b2.2.2.2, u.2 || e.2⟩

/-- PI (R125): the accumulator, the integrator, IWU, ACC and PI. -/
def lawPi (on : Bool) (k : Capture) (x : CtxSt) (ef : Int) : Int × Int × Bool × Bool × Bool :=
  if on then
    let m := k.mulc ef 16
    let skip := (x.hi && decide (0 < m)) || (x.lo && decide (m < 0))
    let i1 := if skip then (x.i, false) else eadd x.i m
    let ihi := q15 (k.ilim / 65536) * 32768
    let ilo := q15 k.ilim * 32768
    let i2 := max (min i1.1 ihi) ilo
    let a := esum [k.mulc ef 15, i2]
    (a.1, i2, skip, i1.2 || a.2, i2 != i1.1)
  else (ef * 32768, x.i, false, false, false)

/-- FF, LIM and OUT (R123, R126), after the accumulator `a` with the pleat's part in it. -/
def lawBack (stg : Nat) (k : Capture) (x : CtxSt) (f : FrontOut) (p : Int × Int × Bool × Bool × Bool) (q : Int) : LawOut :=
  let terms := (if tb stg 5 then [q * 32768] else []) ++ (if tb stg 6 then k.products 4 17 2 else [])
  let a := terms.foldl (fun a t => let r := eadd a.1 t; (r.1, a.2 || r.2)) (p.1, false)
  let v0 := eq15 a.1
  let hi := q15 (k.lim0 / 65536)
  let lo := q15 k.lim0
  let v1 := if tb stg 7 then max (min v0.1 hi) lo else v0.1
  let hiCl := tb stg 7 && decide (hi < v0.1)
  let loCl := tb stg 7 && decide (min v0.1 hi < lo)
  let v2 := if tb stg 7 ∧ k.rl ≠ 0 then min (max v1 (x.yl - k.rl)) (x.yl + k.rl) else v1
  let y := eq15 (k.mulc v2 19)
  { x := { x with bq1 := f.h1, bq2 := f.h2, i := p.2.1, r := f.r, yl := (if tb stg 7 then v2 else x.yl),
                  hi := hiCl || (v0.2 && v0.1 == 32767), lo := loCl || (v0.2 && v0.1 == -32768) },
    y := y.1, e := f.e, ramp := f.r != k.sp, iwu := p.2.2.1, acc := f.acc || p.2.2.2.1 || a.2, bq := f.bq,
    pi := p.2.2.2.2, lim := hiCl || loCl || v2 != v1, out := y.2, sum := f.sum || v0.2 }

/-! ### Lost feedback (R139–R141, R143) -/

/-- CTX-FB causes (Table 6.20). -/
def fbFREEZE := 1
def fbSTALE := 2
def fbORNG := 3

/-- The freeze check (R139): the context after it, and whether it raises. Log entry 66. -/
def freezeCheck (frz : Nat) (v y : Int) (x : CtxSt) : CtxSt × Bool :=
  let n := frz / 65536 % 4096
  let tol := frz / 256 % 256
  let act := frz % 256
  if !tb frz 29 then ({ x with frzN := 0 }, false)
  else if !x.used then ({ x with frzA := v, frzY := y, frzN := 0 }, false)
  else
    let x1 := if tol < (v - x.frzA).natAbs then { x with frzA := v, frzY := y, frzN := 0, frzEp := false }
      else if act = 0 ∨ act * 128 ≤ (y - x.frzY).natAbs then { x with frzN := min (x.frzN + 1) n }
      else x
    if x1.frzN = n ∧ x1.frzEp = false then ({ x1 with frzEp := true }, true) else (x1, false)

/-- The stale and over-range checks of one source (R140, R141): the check after it, and whether the tag repeated, STALE
and ORNG are raised. -/
def sourceCheck (used : Bool) (r : SrcRead) (h : SrcCheck) : SrcCheck × Bool × Bool × Bool :=
  if r.word / 2 ^ 28 ≠ 1 then (h, false, false, false)
  else
    let staleOn := tb r.word 23
    let orngOn := tb r.word 22
    let same := staleOn && used && h.tag.isSome && decide (h.tag = r.tag)
    let run := if same then min (h.run + 1) 2 else 0
    let raise := same && decide (2 ≤ run) && !h.stale
    let ep := if same then h.stale || raise else if used then false else h.stale
    let ro := orngOn && r.orng && !h.orng
    (⟨if staleOn then r.tag else h.tag, run, ep, orngOn && r.orng⟩, same, raise, ro)

/-- The checks of all sources in order: the checks, repeated tags, and the causes raised. -/
def sourceChecks (used : Bool) : List SrcRead → List SrcCheck → List SrcCheck × Nat × List Nat
  | [], _ => ([], 0, [])
  | r :: rs, hs =>
    let o := sourceCheck used r (hs.headD SrcCheck.zero)
    let t := sourceChecks used rs hs.tail
    (o.1 :: t.1, bit o.2.1 + t.2.1, (if o.2.2.1 then [fbSTALE] else []) ++ (if o.2.2.2 then [fbORNG] else []) ++ t.2.2)

/-- CTX-SAT (R143): the context after it, and whether it raises. -/
def satCheck (satn : Nat) (any : Bool) (x : CtxSt) : CtxSt × Bool :=
  if any then
    let n := min (x.satRun + 1) 255
    let r := satn != 0 && decide (satn ≤ n) && !x.satEp
    ({ x with satRun := n, satEp := x.satEp || r }, r)
  else ({ x with satRun := 0, satEp := false }, false)

/-! ### Executions (R128–R131, Table 6.5) -/

/-- The contexts of a trigger seam. -/
def contextsOf (s : State) (n : Nat) : List Nat := seams.filter (fun c => n != 0 && s.get (R.CTX_CFG_TRIG c) == n)

/-- The sequence of an acquisition source triggered by the context's own sample instant (R129). -/
def waitedSeqs (s : State) (c : Nat) : List Nat :=
  ((List.range 6).filterMap (fun k =>
    let w := (s.word (R.CTX_SRC c k)).toNat
    let q := w % 512 / 32
    if w / 2 ^ 28 = 1 ∧ s.get (R.ACQ_SQCFG_TSRC q) = 1 ∧ s.get (R.ACQ_SQCFG_TNUM q) = s.get (R.CTX_CFG_TRIG c)
      then some q else none)).dedup

/-- The contexts of KIND 0x6 sources with the same trigger seam (R129). -/
def waitedCtxs (s : State) (c : Nat) : List Nat :=
  ((List.range 6).filterMap (fun k =>
    let w := (s.word (R.CTX_SRC c k)).toNat
    let d := w % 64
    if w / 2 ^ 28 = 6 ∧ s.get (R.CTX_CFG_TRIG d) = s.get (R.CTX_CFG_TRIG c) then some d else none)).dedup

/-- Does context `c` take an execution at this sample instant (R128)? -/
def takes (s : State) (c : Nat) : Bool :=
  domOn s 6 && (effEnabled s (s.get (R.CTX_CFG_TRIG c)) || s.on (R.CTX_CFG_ALWAYS c))
    && !s.on (R.CTX_CTL_PARK c) && !s.on (R.CTX_STAT_HPARK c) && (ctxSt s c).ex == .idle

/-- A sample instant of seam `n` triggers its contexts: `started` gives the tag of the round that each sequence owes
to this instant (none: no round was started for it, and the context waits for it to its LS, log entry 66); `ls` is the
latest start of each. -/
def triggerWith (started : List (Nat × Option Nat)) (ls : Nat → Int) (n : Nat) (s : State) : State :=
  let cs := (contextsOf s n).filter (takes s)
  forL cs (fun c a =>
    let rs := (waitedSeqs a c).map (fun q => (q, ((started.find? (·.1 == q)).map (·.2)).getD none))
    setCtxSt a c { ctxSt a c with ex := .waiting, ls := ls c, eligible := false, rounds := rs, noOut := false, cap := none,
                                  deps := (waitedCtxs a c).filter (fun d => cs.contains d) }) s

/-- A round of sequence `q` with tag `t` has completed: executions that wait for it wait no more (R129). -/
def roundDone (q t : Nat) (s : State) : State :=
  { s with ctxs := s.ctxs.map (fun e =>
      (e.1, { e.2 with rounds := e.2.rounds.filter (fun r => !(r.1 == q && decide (r.2 = some t))) })) }

/-- Lanes that run executions. -/
def lanesBusy (s : State) : Nat := (s.ctxs.filter (fun e => e.2.ex == .running)).length

/-- The executions of context `c` that CTX_LOAD.UTIL still counts: those that end within the last 1 ms. -/
def recentRuns (s : State) (c : Nat) : List Nat :=
  (ctxSt s c).runs.filter (fun t => decide (s.cyc < t + s.get (R.CTX_CFG_COST c) + cyclesPerMs))

/-- An execution starts: everything is captured (R130). -/
def startExec (c : Nat) (due part : Bool) (s : State) : State :=
  let a := pleatSees c s
  setCtxSt a c { ctxSt a c with ex := .running, eligible := false, rounds := [], cap := some (captureOf a c due part)
                                runs := recentRuns a c ++ [a.cyc] }

/-- The cycles of the last 1 ms in which lanes ran executions (R123, R132). -/
def busyCycles (s : State) : Nat :=
  (s.ctxs.map (fun e => (e.2.runs.map (fun t =>
    min s.cyc (t + s.get (R.CTX_CFG_COST e.1)) - max t (s.cyc - cyclesPerMs))).sum)).sum

/-- CTX_LOAD.UTIL: the busy fraction of the eight lanes over the last 1 ms in 0.1 %; the spec states no rounding (log entry
1). -/
def laneUtil (s : State) : Nat := (quant 61 (1000 * busyCycles s : Nat) (8 * cyclesPerMs : Nat)).toNat

/-- CTX-FB is raised with a cause (R139–R141). -/
def raiseFb (c : Nat) (cause : Nat) (s : State) : State :=
  occur kFB (contextScope c) cause
    (((s.flag (R.CTX_STAT_FB c) true).put (R.CTX_STAT_FBCAUSE c) cause).inc (R.CTX_CNT_FBCNT c))

/-- The flags of CTX_STAT after an execution. -/
def putLawFlags (c : Nat) (o : LawOut) (k : Capture) (x : CtxSt) (stale : Nat) (s : State) : State :=
  let s1 := ((((s.flag (R.CTX_STAT_RAMPING c) o.ramp).flag (R.CTX_STAT_STALE1 c) (decide (0 < stale))).flag
    (R.CTX_STAT_PARTRND c) k.part).flag (R.CTX_STAT_IWU c) o.iwu).flag (R.CTX_STAT_ACC c) o.acc
  let s2 := ((((s1.flag (R.CTX_STAT_BQ c) o.bq).flag (R.CTX_STAT_PI c) o.pi).flag (R.CTX_STAT_LIM c) o.lim).flag
    (R.CTX_STAT_OUT c) o.out).flag (R.CTX_STAT_SUM c) o.sum
  let s3 := (((s2.put (R.CTX_STAT_FRZCNT c) x.frzN).sput (R.CTX_Y_YC c) o.y).sput (R.CTX_SIG_E c) o.e).sput (R.CTX_SIG_R c) x.r
  ((s3.put (R.CTX_INT_I c) (code 32 (fdiv x.i 256))).inc (R.CTX_EXC_EXC c)).put (R.CTX_CNT_STALECNT c)
    (s3.get (R.CTX_CNT_STALECNT c) + stale)

/-- An execution completes: the law chain, YC, flags, counters and checks (R123, R139–R143). Log entry 66. -/
def finishExec (c : Nat) (k : Capture) (s : State) : State :=
  let x := ctxSt s c
  let stg := s.get (R.CTX_CFG_STG c)
  let f := lawFront stg k x
  let p := lawPi (tb stg 4) k x f.ef
  let pr := if tb stg 5 then pleatRun c k f.ef s else (s, 0)
  let o := lawBack stg k x f p pr.2
  let frz := (pr.1.word (R.CTX_FRZ c)).toNat
  let fz := freezeCheck frz ((k.srcs.getD (frz / 2 ^ 30) ⟨0, 0, none, false⟩).val) o.y o.x
  let sc := sourceChecks x.used k.srcs x.checks
  let any := o.sum || o.lim || o.out
  let st := satCheck (pr.1.get (R.CTX_LIM1_SATN c)) any { fz.1 with checks := sc.1, used := true }
  let causes := (if fz.2 then [fbFREEZE] else []) ++ sc.2.2
  let s1 := putLawFlags c o k st.1 sc.2.1 pr.1
  let s2 := if any then s1.inc (R.CTX_CNT_SATCNT c) else s1
  let hold := decide (causes ≠ []) && s2.on (R.CTX_FRZ_PARKONFB c)
  let s3 := setCtxSt s2 c { st.1 with ex := .done, cap := none, noOut := hold }
  let s4 := settleDep c (if hold then s3.flag (R.CTX_CTL_PARK c) true else s3)
  oneCycle (fun a =>
    let b := forL causes (raiseFb c) a
    if st.2 then occur kSAT (contextScope c) 0 b else b) s4

/-- The output of context `c` goes to its destination (Table 6.3). Log entry 66. -/
def routeOutput (c : Nat) (s : State) : State :=
  let y := s.get (R.CTX_Y_YC c)
  let n := s.get (R.CTX_ROUTE_NUM c)
  match s.get (R.CTX_ROUTE_DEST c) with
  | 1 => s.put (R.SEAM_REF_REF n) y
  | 2 => s.put (R.SEAM_OFS_OFS n) y
  | 3 => rephase n (wantedPos s n) (s.put (R.MOD_PH_PHASE n) y)
  | 4 => if s.get (R.CTX_CFG_SPSRC n) = c then s.put (R.CTX_SP_SP n) y else s
  | _ => s

/-- Step 1 of R108 at an update instant of seam `n`: outputs are written, YA = YC, and contexts that were to park
park (R127, R142, Table 6.5). -/
def applyOutputs (n : Nat) (s : State) : State :=
  forL (contextsOf s n) (fun c a =>
    let x := ctxSt a c
    if x.ex = .done then
      let b := if x.noOut then a else (routeOutput c a).put (R.CTX_Y_YA c) (a.get (R.CTX_Y_YC c))
      parkSync c (setCtxSt b c { ctxSt b c with ex := .idle, noOut := false })
    else a) s

/-- The execution of context `c` is skipped (R131). -/
def skipExec (c : Nat) (s : State) : State :=
  let s1 := settleDep c (setCtxSt s c { ctxSt s c with ex := .idle, eligible := false, rounds := [], deps := [] })
  parkSync c (occur kLATE (contextScope c) 0 ((s1.flag (R.CTX_STAT_LATE c) true).inc (R.CTX_CNT_LATECNT c)))

/-! ### Writes (R135, R136, R138) -/

/-- RESET of a parked context (R136, R154). -/
def resetContext (c : Nat) (s : State) : State :=
  let x := ctxSt s c
  let sp := s.sget (R.CTX_SP_SP c)
  let s1 := setCtxSt s c { x with
    bq1 := Biquad.zero, bq2 := Biquad.zero, i := 0, r := sp, yl := s.sget (R.CTX_Y_YA c), used := false,
    frzEp := false, checks := [] }
  let s2 := setPltSt s1 c { pltSt s1 c with run := false }
  let s3 := (s2.put (R.CTX_INT_I c) 0).sput (R.CTX_SIG_R c) sp
  if s3.on (R.PLT_CTL_RSTMEM c) ∧ plen s3 c ≠ 0 then s3.flag (R.PLT_STAT_CLEARING c) true else s3

/-- A write of CTX_CTL: RESET, then PARK (R135, R136). The PARK bit of a word whose RESET is refused is taken (log entry 78). -/
def writeCtxCtl (c : Nat) (d : Word) (s : State) : State :=
  if c = 0 then s
  else
    let s1 := if tb d.toNat 1 then
        (if s.on (R.CTX_STAT_PARKED c) then resetContext c s else s.flag R.CTX_UST_CMDERR true)
      else s
    parkSync c (s1.put (R.CTX_CTL_PARK c) (bitsOf d 0 1))

/-- CTX_SP takes a host write only where SPSRC is C00 (R138). -/
def writeCtxSp (c : Nat) (d : Word) (s : State) : State :=
  if c ≠ 0 ∧ s.get (R.CTX_CFG_SPSRC c) = 0 then s.put (R.CTX_SP_SP c) (bitsOf d 0 16) else s

/-! ### Commands -/

/-- CTX_ELIGIBLE (R129): t_trg after its sample instant. -/
def execCtxEligible (c : Fin 64) (s : State) : Host.Outcome State Fault Refusal :=
  .next (if (ctxSt s c).ex = .waiting then setCtxSt s c { ctxSt s c with eligible := true } else s)

/-- Is the execution of context `c` ready, its acquisition rounds apart (R129)? -/
def settled (s : State) (c : Nat) : Bool :=
  let x := ctxSt s c
  x.ex == .waiting && x.eligible && x.deps == []

/-- Is the execution of context `c` ready (R129)? -/
def execReady (s : State) (c : Nat) : Bool := settled s c && (ctxSt s c).rounds == []

/-- Does context `c` come first among the ready executions: earliest LS, then lower number (R130)? -/
def comesFirst (s : State) (c : Nat) : Bool :=
  seams.all (fun d => d == c || !execReady s d || decide ((ctxSt s c).ls < (ctxSt s d).ls)
    || ((ctxSt s c).ls == (ctxSt s d).ls && decide (c < d)))

/-- CTX_EXEC_START (R129, R130): the first of the ready executions takes a free lane; `due` is that of R109. -/
def execCtxExecStart (c : Fin 64) (due : Bool) (s : State) : Host.Outcome State Fault Refusal :=
  .next (if execReady s c && comesFirst s c && decide (lanesBusy s < 8) then startExec c due false s else s)

/-- CTX_EXEC_DONE (R123): COST cycles have passed. -/
def execCtxExecDone (c : Fin 64) (s : State) : Host.Outcome State Fault Refusal :=
  .next (match (ctxSt s c).ex, (ctxSt s c).cap with
    | .running, some k => finishExec c k s
    | _, _ => s)

/-- The executions that take a lane before that of context `c` at its latest start: ready ones, and those that become ready at
the same latest start or had it already (R129, R130). -/
def readyBefore (s : State) (c : Nat) : Nat :=
  let x := ctxSt s c
  (seams.filter (fun d => d != c && (execReady s d || (settled s d && decide ((ctxSt s d).ls ≤ x.ls)))
    && (decide ((ctxSt s d).ls < x.ls) || ((ctxSt s d).ls == x.ls && decide (d < c))))).length

/-- CTX_LATEST_START (R129–R131): the execution starts on what there is, where a lane is left for it, or is skipped. -/
def execCtxLatestStart (c : Fin 64) (due : Bool) (s : State) : Host.Outcome State Fault Refusal :=
  .next (if (ctxSt s c).ex = .waiting then
      (if settled s c && decide (lanesBusy s + readyBefore s c < 8) then startExec c due ((ctxSt s c).rounds != []) s else skipExec c s)
    else s)

/-- CTX_PARK_WRITE (R135): CTX_CTL with RESET 0. -/
def execCtxParkWrite (c : Fin 64) (port : Nat) (park : Bool) (s : State) : Host.Outcome State Fault Refusal :=
  let d : Word := if park then 1 else 0
  .next (guarded port (R.CTX_CTL c.val) d (writeCtxCtl c.val d) s)

/-- CTX_RESET (R136): CTX_CTL with RESET 1 and the PARK bit it carries. -/
def execCtxReset (c : Fin 64) (port : Nat) (park : Bool) (s : State) : Host.Outcome State Fault Refusal :=
  let d : Word := if park then 3 else 2
  .next (guarded port (R.CTX_CTL c.val) d (writeCtxCtl c.val d) s)

/-- CTX_SP_WRITE (R138). -/
def execCtxSpWrite (c : Fin 64) (w : PortWrite) (s : State) : Host.Outcome State Fault Refusal :=
  .next (guarded w.port (R.CTX_SP c.val) w.data (writeCtxSp c.val w.data) s)

end Sys2Proof.Machine
end

