-- ==== Sys2Proof/Machine/Acquisition.lean ====
section
/-!
DEFINITION. Acquisition (spec/08): sequences, rounds, overruns, urgent slots, arbitration, and what other units take
from a result as it is written.
-/
namespace Sys2Proof.Machine

/-- A sequence's own state. -/
def seqSt (s : State) (q : Nat) : SeqSt := tget (fun _ => SeqSt.zero) s.acq.seqs q
def setSeqSt (s : State) (q : Nat) (x : SeqSt) : State :=
  { s with acq := { s.acq with seqs := tset (fun _ => SeqSt.zero) s.acq.seqs q x } }

/-- A converter. -/
def conv (s : State) (v : Nat) : ConvSt := tget (fun _ => ConvSt.zero) s.acq.convs v
def setConv (s : State) (v : Nat) (x : ConvSt) : State :=
  { s with acq := { s.acq with convs := tset (fun _ => ConvSt.zero) s.acq.convs v x } }

/-- Set bit `k` of a field. -/
def setBit (f : Field) (k : Nat) (s : State) : State := if tb (s.get f) k then s else s.put f (s.get f + 2 ^ k)

/-- The converter, the number of samples and the shift of an entry (Table 8.11). -/
def entConv (s : State) (q e : Nat) : Nat := s.get (R.ACQ_ENT_CONV (32 * q + e))
def entAvg (s : State) (q e : Nat) : Nat := 2 ^ s.get (R.ACQ_ENT_AVG (32 * q + e))

/-- Is a sequence on (R160)? -/
def seqOn (s : State) (q : Nat) : Bool := domOn s 4 && s.on (R.ACQ_SQCTL_EN q) && s.get (R.ACQ_SQCFG_NENT q) != 0

/-- Does a round of a sequence run? -/
def seqRuns (s : State) (q : Nat) : Bool := s.on (R.ACQ_SQSTAT_RUN q)

/-- The entry that a running round is at on a converter (R157). -/
def nextEntry (s : State) (q v : Nat) : Option Nat :=
  if seqRuns s q then (seqSt s q).left.find? (fun e => entConv s q e == v) else none

/-- R158: the value of a sum. -/
def entryValue (sum : Int) (sh : Nat) : Int := shiftRound sum sh

/-! ### What the mode controller takes from a result (R302, R304) -/

/-- A result of value `v` is written at index `ix`. -/
def noteResult (ix : Nat) (v : Int) (s : State) : State :=
  let s1 :=
    if ix = s.get R.PWR_PCFG_SRC then
      let hit := decide (s.sget R.PWR_PCFG_PVTH ≤ v)
      let a := { s with pwr := { s.pwr with preHits := if hit then min (s.pwr.preHits + 1) 2 else 0 } }
      checkPcdone (if v < s.sget R.PWR_PTIM_PLO then a.flag R.PWR_STAT_PCDONE false else a)
    else s
  if ix = s.get R.PWR_DISCFG_SRC then
    { s1 with pwr := { s1.pwr with disVlink := decide (v ≤ s.sget R.PWR_DISCFG_VLIM) } }
  else s1

/-! ### Results -/

/-- Entry `e` of sequence `q` is written (R158, R159, R167). -/
def writeEntry (q e : Nat) (sum : Int) (orng part : Bool) (s : State) : State :=
  let ix := 32 * q + e
  let v := entryValue sum (s.get (R.ACQ_ENT_SHIFT ix))
  let s1 := ((((s.flag (R.ACQ_RES_NEW ix) true).flag (R.ACQ_RES_ORNG ix) orng).flag (R.ACQ_RES_PART ix) part).put
    (R.ACQ_RES_TAG ix) (s.get (R.ACQ_SQSTAT_NTAG q))).sput (R.ACQ_RES_VALUE ix) v
  let s2 := if orng then s1.inc (R.ACQ_SQCNT_ORNGCNT q) else s1
  let x := seqSt s2 q
  let ep := x.orngEp.contains e
  let s3 := if orng && s.on (R.ACQ_ENT_ORNGF ix) then
      (if ep then s2 else occur kORNG (seqScope q) e (setSeqSt s2 q { x with orngEp := e :: x.orngEp }))
    else if !orng && ep then setSeqSt s2 q { x with orngEp := x.orngEp.filter (· != e) }
    else s2
  noteResult ix v s3

/-! ### Arbitration (R165) -/

/-- Converter `v` grants its next conversion, if it is free. -/
def grant (v : Nat) (s : State) : State :=
  let c := conv s v
  if c.job.isSome then s
  else
    match (List.range 8).find? (fun k => s.acq.urgent.contains k && s.get (R.ACQ_UGCFG_CONV k) == v) with
    | some k =>
      let s1 := setConv s v { c with job := some (.urgent k) }
      { s1 with acq := { s1.acq with urgent := s1.acq.urgent.filter (· != k) } }
    | none =>
      match c.resume with
      | some (q, e) => setConv s v ⟨some (.seq q e), none⟩
      | none =>
        let cand := (List.range 16).filter (fun q => (nextEntry s q v).isSome)
        let due := cand.filter (fun q => decide (15 ≤ tget (fun _ => 0) (seqSt s q).refuse v))
        let s0 := forL (List.range 16) (fun q a =>
          let x := seqSt a q
          if cand.contains q || tget (fun _ => 0) x.refuse v == 0 then a
          else setSeqSt a q { x with refuse := tset (fun _ => 0) x.refuse v 0 }) s
        match (if due = [] then cand.head? else due.head?) with
        | none => s0
        | some g =>
          let s1 := forL cand (fun q a =>
            let x := seqSt a q
            let n := if q = g then 0 else tget (fun _ => 0) x.refuse v + 1
            setSeqSt a q { x with refuse := tset (fun _ => 0) x.refuse v n }) s0
          let s2 := if due = [] then s1 else s1.inc (R.ACQ_CVSTAT_GUARDCNT v)
          setConv s2 v ⟨some (.seq g ((nextEntry s2 g v).getD 0)), none⟩

/-- Every free converter grants. -/
def grantAll (s : State) : State := forL [0, 1, 2, 3] grant s

/-! ### Rounds (R159–R163) -/

/-- A round of sequence `q` starts: the next tag, NEW cleared in every result. -/
def startRound (q : Nat) (s : State) : State :=
  let tag := (s.get (R.ACQ_SQSTAT_NTAG q) + 1) % 32
  let n := s.get (R.ACQ_SQCFG_NENT q)
  let s1 := forL (List.range 32) (fun e a => a.flag (R.ACQ_RES_NEW (32 * q + e)) false) s
  let s2 := (((s1.put (R.ACQ_SQSTAT_NTAG q) tag).flag (R.ACQ_SQSTAT_CMPL q) false).flag (R.ACQ_SQSTAT_RUN q) true).put
    (R.ACQ_SQSTAT_LEFT q) n
  setSeqSt s2 q { seqSt s2 q with left := List.range n, prog := [] }

/-- The running round of sequence `q` is abandoned (R162): entries in progress are written in part. -/
def abandon (q : Nat) (s : State) : State :=
  if seqRuns s q then
    let s1 := forL [0, 1, 2, 3] (fun v a =>
      let c := conv a v
      let mine := match c.job with
        | some (.seq q' _) => q' == q
        | _ => false
      let back := match c.resume with
        | some (q', _) => q' == q
        | none => false
      let b := if mine then setConv a v { c with job := none } else a
      let d := if back then setConv b v { conv b v with resume := none } else b
      match nextEntry d q v with
      | some e =>
        let p := tget (fun _ => Progress.zero) (seqSt d q).prog e
        if p.cnt = 0 then d
        else writeEntry q e (fdiv (p.sum * (entAvg d q e : Int) + (p.cnt / 2 : Nat)) p.cnt) p.orng true d
      | none => d) s
    let s2 := (s1.flag (R.ACQ_SQSTAT_RUN q) false).put (R.ACQ_SQSTAT_LEFT q) 0
    setSeqSt s2 q { seqSt s2 q with left := [], prog := [] }
  else s

/-- An overrun (R161, R167): counted; the result says whether ACQ-STALE is to be raised, at STALN in a row. -/
def overrun (q : Nat) (s : State) : State × Bool :=
  let x := seqSt s q
  let n := min (x.ovr + 1) 15
  let s1 := setBit R.ACQ_OVRMAP_MAP q ((setSeqSt s q { x with ovr := n }).inc (R.ACQ_SQCNT_OVR q))
  let lim := s.get (R.ACQ_SQCFG_STALN q)
  if lim ≠ 0 ∧ lim ≤ n ∧ s.on (R.ACQ_SQSTAT_STALE q) = false then (s1.flag (R.ACQ_SQSTAT_STALE q) true, true)
  else (s1, false)

/-- What a trigger leaves: the state, the tag of the round that belongs to it, and whether ACQ-STALE is to be raised. -/
structure Triggered where
  st    : State
  tag   : Option Nat
  stale : Bool
  deriving DecidableEq, Repr

/-- A trigger of sequence `q` (R160, R161, Table 8.2). -/
def trigger (q : Nat) (s : State) : Triggered :=
  if !seqOn s q then ⟨s, none, false⟩
  else
    let next := (s.get (R.ACQ_SQSTAT_NTAG q) + 1) % 32
    if !seqRuns s q then ⟨startRound q (setSeqSt s q { seqSt s q with ovr := 0 }), some next, false⟩
    else
      let o := overrun q s
      match s.get (R.ACQ_SQCFG_POLICY q) with
      | 1 => if s.on (R.ACQ_SQSTAT_PEND q) then ⟨o.1, none, o.2⟩ else ⟨o.1.flag (R.ACQ_SQSTAT_PEND q) true, some next, o.2⟩
      | 2 => ⟨startRound q ((abandon q o.1).inc (R.ACQ_SQCNT_RST q)), some next, o.2⟩
      | _ => ⟨o.1, none, o.2⟩

/-- The sequences `qs` are triggered in one cycle, and the tag of the round each owes to it. ACQ-STALE comes after every
ACQ-ORNG of the cycle (R247). -/
def triggerAll (qs : List Nat) (s : State) : State × List (Nat × Option Nat) :=
  let r := qs.foldl (fun (a : State × List (Nat × Option Nat) × List Nat) q =>
    let t := trigger q a.1
    (t.st, a.2.1 ++ [(q, t.tag)], if t.stale then a.2.2 ++ [q] else a.2.2)) (s, [], [])
  (forL r.2.2 (fun q a => occur kSTALE (seqScope q) 0 a) r.1, r.2.1)

/-- An input entry of the grid unit as Q15 (R182). -/
def gridInput (s : State) (ix : Nat) : Int := sat16 (shiftRound (s.sget (R.ACQ_RES_VALUE ix)) (s.get R.GRD_CFG_ASH))

/-- The grid unit's inputs: VA, VB, VC, IA, IB, IC. -/
def gridInputs (s : State) : List Int :=
  [s.get R.GRD_SRC0_VA, s.get R.GRD_SRC0_VB, s.get R.GRD_SRC1_VC, s.get R.GRD_SRC1_IA, s.get R.GRD_SRC2_IB,
   s.get R.GRD_SRC2_IC].map (gridInput s)

/-- The grid unit takes the results of the round `tag` of its sequence as it completes (R182). -/
def gridRound (q tag : Nat) (s : State) : State :=
  if s.get R.GRD_CFG_SQ = q then
    { s with grd := { s.grd with
      ready := true, ins := gridInputs s, owed := if s.grd.owed = some (some tag) then none else s.grd.owed } }
  else s

/-- A round completes: CMPL, CTAG, DONE, its waiters, a pending round, and the chain (R157, R160, R161). A pending round has
started when a trigger of the same cycle comes (DESIGN CHOICE, log entry 81). -/
def completeRound (q : Nat) (s : State) : State :=
    let tag := s.get (R.ACQ_SQSTAT_NTAG q)
    let s1 := ((s.flag (R.ACQ_SQSTAT_CMPL q) true).put (R.ACQ_SQSTAT_CTAG q) tag).flag (R.ACQ_SQSTAT_RUN q) false
    let s2 := (setBit R.ACQ_IRQ_DONE q s1).flag (R.ACQ_SQSTAT_STALE q) false
    let s3 := gridRound q tag (roundDone q tag (setSeqSt s2 q { seqSt s2 q with left := [], prog := [], ovr := 0 }))
    let s4 := if s3.on (R.ACQ_SQSTAT_PEND q) then startRound q (s3.flag (R.ACQ_SQSTAT_PEND q) false) else s3
    (triggerAll ((List.range 16).filter (fun c => s4.get (R.ACQ_SQCFG_TSRC c) == 2 && s4.get (R.ACQ_SQCFG_TNUM c) == q))
      s4).1

/-! ### Urgent slots (R164) -/

/-- Is slot `k` converting? -/
def ugBusy (s : State) (k : Nat) : Bool :=
  s.acq.urgent.contains k || (List.range 4).any (fun v => decide ((conv s v).job = some (.urgent k)))

/-- Slot `k` requests its conversion; a sequenced conversion in progress on its converter is displaced. -/
def urgentRequest (k : Nat) (s : State) : State :=
  if !(domOn s 4 && s.on (R.ACQ_UGCTL_EN k)) then s
  else if ugBusy s k then s.inc (R.ACQ_UGCNT_OVR k)
  else
    let v := s.get (R.ACQ_UGCFG_CONV k)
    let s1 := { s with acq := { s.acq with urgent := s.acq.urgent ++ [k] } }
    match (conv s v).job with
    | some (.seq q e) => ((setConv s1 v ⟨none, some (q, e)⟩).inc (R.ACQ_SQCNT_PRE q)).inc (R.ACQ_CVSTAT_PRECNT v)
    | _ => s1

/-- Slot `k` writes its result. -/
def writeUrgent (k : Nat) (code : Int) (orng : Bool) (s : State) : State :=
  let s1 := s.inc (R.ACQ_UGCNT_CNT k)
  let s2 := (((s1.flag (R.ACQ_URES_NEW k) true).flag (R.ACQ_URES_ORNG k) orng).flag (R.ACQ_URES_PART k) false).put
    (R.ACQ_URES_TAG k) (s1.get (R.ACQ_UGCNT_CNT k))
  setBit R.ACQ_IRQ_UGDONE k (s2.sput (R.ACQ_URES_VALUE k) code)

/-! ### A seam's sample instant (R160, R164) -/

/-- The sequences and slots of seam `n` are triggered; the tag of the round each sequence owes to this instant. -/
def acqSeamTrigger (n : Nat) (s : State) : State × List (Nat × Option Nat) :=
  let qs := (List.range 16).filter (fun q => s.get (R.ACQ_SQCFG_TSRC q) == 1 && s.get (R.ACQ_SQCFG_TNUM q) == n)
  let r := triggerAll qs s
  let ks := (List.range 8).filter (fun k => s.get (R.ACQ_UGCFG_TSRC k) == 1 && s.get (R.ACQ_UGCFG_TNUM k) == n)
  (grantAll (forL ks urgentRequest r.1), r.2)

/-! ### Writes (R160, R163) -/

/-- A write of ACQ_SQCTL. A sequence that goes OFF has no request waiting anywhere (R165). -/
def writeSqctl (q : Nat) (d : Word) (s : State) : State :=
  let en := tb d.toNat 0
  if en != s.on (R.ACQ_SQCTL_EN q) then
    let s1 := s.flag (R.ACQ_SQCTL_EN q) en
    if en then s1
    else
      let s2 := (oneCycle (abandon q) s1).flag (R.ACQ_SQSTAT_PEND q) false
      grantAll (setSeqSt s2 q { seqSt s2 q with refuse := [] })
  else if tb d.toNat 1 then grantAll (oneCycle (fun a => (triggerAll [q] a).1) s)
  else s

/-- A write of ACQ_UGCTL: EN, then GO, so that a write that raises EN requests too (DESIGN CHOICE, log entry 82). -/
def writeUgctl (k : Nat) (d : Word) (s : State) : State :=
  let s1 := s.flag (R.ACQ_UGCTL_EN k) (tb d.toNat 0)
  if tb d.toNat 1 then grantAll (urgentRequest k s1) else s1

/-! ### Commands -/

/-- ACQ_TRIG (R160–R163): ACQ_SQCTL with TRIG 1 and the EN it carries. -/
def execAcqTrig (q : Fin 16) (port : Nat) (en : Bool) (s : State) : Host.Outcome State Fault Refusal :=
  let d : Word := if en then 3 else 2
  .next (guarded port (R.ACQ_SQCTL q.val) d (writeSqctl q.val d) s)

/-- ACQ_EN_WRITE (R163): ACQ_SQCTL with TRIG 0. -/
def execAcqEnWrite (q : Fin 16) (port : Nat) (en : Bool) (s : State) : Host.Outcome State Fault Refusal :=
  let d : Word := if en then 1 else 0
  .next (guarded port (R.ACQ_SQCTL q.val) d (writeSqctl q.val d) s)

/-- The code of an input difference of `x` nV (R156): full scale is ±1.200 V. -/
def convCode (x : Int) : Int := sat16 (roundDiv (x * 32768) 1200000000)

/-- Does an input whose greatest magnitude during the aperture is `peak` nV set ORNG (R156): beyond ±102 % of full scale? -/
def overRange (peak : Int) : Bool := decide (1224000000 < peak.natAbs)

/-- The conversion on converter `v` ends with a code and its over-range flag (R157, R158, R164); nothing is granted yet. -/
def endConversion (v : Nat) (code : Int) (orng : Bool) (s : State) : State :=
  let c := conv s v
  match c.job with
  | none => s
  | some (.urgent k) => writeUrgent k code orng (setConv s v { c with job := none })
  | some (.seq q e) =>
    let s1 := setConv s v { c with job := none }
    let x := seqSt s1 q
    let p := tget (fun _ => Progress.zero) x.prog e
    let p1 : Progress := ⟨p.cnt + 1, p.sum + code, p.orng || orng⟩
    if p1.cnt < entAvg s1 q e then setSeqSt s1 q { x with prog := tset (fun _ => Progress.zero) x.prog e p1 }
    else
      let left := x.left.filter (· != e)
      let s2 := setSeqSt s1 q { x with left := left, prog := tset (fun _ => Progress.zero) x.prog e Progress.zero }
      let s3 := (writeEntry q e p1.sum p1.orng false s2).put (R.ACQ_SQSTAT_LEFT q) left.length
      if left = [] then completeRound q s3 else s3

/-- A write of ACQ_UGCTL with GO 1 and EN `en` through a port. -/
def urgentGo (k port : Nat) (en : Bool) (s : State) : State :=
  let d : Word := if en then 3 else 2
  guarded port (R.ACQ_UGCTL k) d (writeUgctl k d) s

/-- URGENT_GO (R164): ACQ_UGCTL with GO 1 and the EN it carries. -/
def execUrgentGo (k : Fin 8) (port : Nat) (en : Bool) (s : State) : Host.Outcome State Fault Refusal :=
  .next (urgentGo k port en s)

end Sys2Proof.Machine
end

