-- ==== Sys2Proof/Machine/FaultManager.lean ====
section
/-!
DEFINITION. The fault manager's commands (spec/13): an occurrence from any detector, due lifts, FLT_CMD, cause-record
clears, shadows, the structure check, and what apply and a power-down do to reactions (R268).
-/
namespace Sys2Proof.Machine

/-! ### Detectors (Tables 13.1 and 13.2) -/

/-- Is there a detector with this scope code on the part? -/
def detectorThere (s : State) (sc : Nat) : Bool :=
  let i := scopeIx sc
  match scopeKind sc with
  | 1 => decide (i % 256 < s.part.stitches) && decide (i < 0x200)
  | 2 => decide (1 ≤ i) && decide (i ≤ 63)
  | 3 => decide (1 ≤ i) && decide (i ≤ 63)
  | 4 => decide (i < 16)
  | 5 => decide (i < 64)
  | 6 => i == 0
  | 7 => i == 0 && s.part.isM
  | 8 => decide (i < 4)
  | 9 => i == 0
  | 10 => decide (i < 10)
  | 11 => i == 0
  | 12 => decide (i < 5)
  | 13 => decide (i < 4)
  | 14 => decide (i < s.part.ports)
  | _ => false

/-- The scope kinds of a class. -/
def classKinds (c : Nat) : List Nat :=
  if c ≤ 7 then [1]
  else match c with
    | 0x08 => [2] | 0x09 => [3] | 0x0A => [3] | 0x0B => [3] | 0x0C => [4] | 0x0D => [4] | 0x0E => [5] | 0x0F => [6]
    | 0x10 => [6] | 0x11 => [7] | 0x12 => [8] | 0x13 => [9] | 0x14 => [10] | 0x15 => [11] | 0x16 => [12]
    | 0x17 => [13, 2] | 0x18 => [14, 2] | _ => []

/-- FAULT_OCCURRENCE (R247): class code `cls + 1`, from a detector of the part. -/
def execFaultOccurrence (cls : Fin 24) (scope : BitVec 16) (detail : BitVec 8) (s : State) :
    Host.Outcome State Fault Refusal :=
  let c := cls.val + 1
  .next (if detectorThere s scope.toNat && (classKinds c).contains (scopeKind scope.toNat) then
      occur c scope.toNat detail.toNat s
    else s)

/-- Is the reaction of a detector due to lift at the present tick (R254)? -/
def liftDue (s : State) (sc : Nat) : Bool :=
  let d := detector s sc
  let q := s.get (R.FLT_TIME_QPER d.gcls)
  decide (1 ≤ d.tier) && !d.latched && q != 0 && decide (d.occ + 10 * q ≤ s.tick)

/-- DUE_LIFT (R254, R255). -/
def execDueLift (scope : BitVec 16) (s : State) : Host.Outcome State Fault Refusal :=
  .next (if domOn s 1 && liftDue s scope.toNat then dueLift scope.toNat s else s)

/-! ### FLT_CMD (R256) -/

/-- UNLATCH of detector `sc`: its reaction ends, RCNT and ESCN are 0, and the entry is logged. -/
def unlatchDetector (sc : Nat) (s : State) : State :=
  let d := detector s sc
  let s1 := liftDetector sc s
  let s2 := setDetector s1 sc { detector s1 sc with rcnt := 0, first := 0, escn := 0 }
  logEvent 3 d.gcls d.tier false false sc d.detail 0 0 s2

/-- A write of FLT_CMD. -/
def writeFltCmd (d : Word) (s : State) : State :=
  let sc := s.get R.FLT_CMDARG_SCOPE
  let x := detector s sc
  let m := mode s
  let c := bitsOf d 0 4
  if guardOk d = true ∧ c = 1 ∧ 1 ≤ x.tier ∧ x.latched = false then dueLift sc s
  else if guardOk d = true ∧ c = 2 ∧ x.latched = true ∧ (m = mREADY ∨ m = mFITTING ∨ m = mBASTING ∨ m = mSAFEOFF) then
    unlatchDetector sc s
  else s.flag R.FLT_STAT_CMDERR true

/-- FLT_RELEASE (R256). -/
def execFltRelease (c : PortCmd) (s : State) : Host.Outcome State Fault Refusal :=
  .next (guarded c.port R.FLT_CMD (ctlWord c 1) (writeFltCmd (ctlWord c 1)) s)

/-- UNLATCH (R256). -/
def execUnlatch (c : PortCmd) (s : State) : Host.Outcome State Fault Refusal :=
  .next (guarded c.port R.FLT_CMD (ctlWord c 2) (writeFltCmd (ctlWord c 2)) s)

/-! ### Cause records (R259, R260) -/

/-- ACT of class `c`: a detector has a reaction in force that it governs. -/
def classActs (s : State) (c : Nat) : Bool := s.flt.dets.any (fun e => decide (1 ≤ e.2.tier) && e.2.gcls == c)

/-- The cause record of class `c` is cleared, and ESCN of the detectors that count the class restarts (R253, R259). -/
def clearRecord (c : Nat) (s : State) : State :=
  let s1 := s.dropRegs (R.FLT_CRSTAT c) (R.FLT_CRSTAT c + 0x20)
  let dets := tmap (fun _ => Detector.zero) (fun _ d => if d.escCls = c then { d with escn := 0 } else d) s1.flt.dets
  { s1 with flt := { s1.flt with dets := dets } }

/-- A write of FLT_CRSTAT[c]; `met` says that an occurrence or a due lift of the class falls in its cycle. -/
def writeCrstat (c : Nat) (d : Word) (met : Bool) (s : State) : State :=
  if tb d.toNat 31 then
    if classActs s c || s.on (R.FLT_CRSTAT_LATCH c) || met then s.flag R.FLT_STAT_CLRERR true else clearRecord c s
  else s

/-- CAUSE_RECORD_CLEAR (R259): class code `cls + 1`. -/
def execCauseRecordClear (cls : Fin 24) (w : PortWrite) (met : Bool) (s : State) : Host.Outcome State Fault Refusal :=
  .next (guarded w.port (R.FLT_CRSTAT (cls.val + 1)) w.data (writeCrstat (cls.val + 1) w.data met) s)

/-- FLT_STAT.UNCL: a bit for each class whose record is uncleared. -/
def unclMap (s : State) : Nat := mapBits 24 1 (fun c => s.on (R.FLT_CRSTAT_UNCL c))

/-- FAULT_N is driven low while any record is uncleared (R260). Log entry 25. -/
def faultnLow (s : State) : Bool := unclMap s != 0

/-- FLT_STAT.TOP: the highest tier in force. -/
def topTier (s : State) : Nat := s.flt.dets.foldl (fun a e => max a e.2.tier) 0

/-! ### Shadows and the structure check -/

/-- SHADOW_CLOSE (R261): the shadows whose closing tick has come are over. -/
def execShadowClose (s : State) : Host.Outcome State Fault Refusal :=
  .next (if domOn s 1 then
      { s with flt := { s.flt with shadows := s.flt.shadows.filter (fun w => decide (s.tick < w.close)) } }
    else s)

/-- The open shadow with the longest time left (FLT_SHSTAT). -/
def longestShadow (s : State) : Option Shadow :=
  (s.flt.shadows.filter (fun w => decide (s.tick < w.close))).foldl (fun a w => match a with
    | none => some w
    | some x => if x.close < w.close then some w else some x) none

/-- PAT_CHECK (R248): `differs` says that the CRC of the structure fields is not the one of the last apply. -/
def execPatCheck (differs : Bool) (s : State) : Host.Outcome State Fault Refusal :=
  .next (if domOn s 3 && s.on R.PAT_STAT_LOADED && differs && !s.pat.checked then
      occur kPAT patScope 1 { s with pat := { s.pat with checked := true } }
    else s)

/-! ### Apply and power-down (R268) -/

/-- Step 1 of an apply: every T1–T3 reaction ends with an END entry, every hold is released, RCNT, ESCN and the shadows
clear; T4 stays. Log entry 49. -/
def faultsAtApply (s : State) : State :=
  let s1 := forL (s.flt.dets.filter (fun e => decide (1 ≤ e.2.tier) && decide (e.2.tier ≤ 3))) (fun e a =>
    logEvent 4 e.2.gcls e.2.tier false false e.1 e.2.detail 0 0 (liftDetector e.1 a)) s
  let clean (d : Detector) : Detector := { d with rcnt := 0, first := 0, escn := 0, reach := 0 }
  let dets := tmap (fun _ => Detector.zero) (fun _ d => clean d) s1.flt.dets
  syncHolds { s1 with flt := { s1.flt with shadows := [], dets := dets } }

/-- PD1 powers down: every reaction ends without an entry; the latched ones are kept in Selvedge retention. -/
def faultsAtPowerDown (s : State) : State :=
  { s with flt := { dets := [], shadows := [], opening := none, reports := [], kept := s.flt.dets.filter (fun e => e.2.latched) } }

/-- PD1 powers up: the kept reactions are imposed again with their tiers and latches. -/
def faultsAtPowerUp (s : State) : State :=
  let back (d : Detector) : Detector := { Detector.zero with
    tier := d.tier, gcls := d.gcls, latched := true, reach := (if 3 ≤ d.tier then 64 else d.reach), detail := d.detail }
  let dets := s.flt.kept.map (fun (e : Nat × Detector) => (e.1, back e.2))
  let s1 := { s with flt := { s.flt with dets := dets, kept := [] } }
  let s2 := if s1.flt.dets.any (fun e => e.2.tier == 4) then hemDemand 8 (s1.flag R.SAF_STAT_T4 true) else s1
  syncHolds s2

end Sys2Proof.Machine
end

