-- ==== Sys2Proof/Machine/Signal.lean ====
section
/-!
DEFINITION. Fixed-point functions of real numbers for the grid unit (R183, R184: 32-bit fixed point, angles in 2^−32
cycle, filters by the trapezoidal rule). A quotient that the spec does not round is one of the two whole numbers around it
(`quant`, log entry 1), so the last bits of every result stay open.
-/
namespace Sys2Proof.Machine

/-- 2^30, the scale of the functions below, and π and √3 in it. -/
def one30 : Nat := 1073741824
def pi30 : Nat := 3373259426
def rt30 : Nat := 1859775393

/-- The root of `n`, bit by bit from bit `k` down. -/
def rootFrom (n : Nat) : Nat → Nat → Nat
  | 0, r => r
  | k + 1, r => let c := r + 2 ^ k; rootFrom n k (if c * c ≤ n then c else r)

/-- The whole part of the root of `n` below 2^128. -/
def rootInt (n : Nat) : Nat := rootFrom n 64 0

/-- The amplitude of two components in quadrature: the root of the sum of their squares. -/
def amplitude (site : Nat) (x y : Int) : Int :=
  let n := (x * x + y * y).toNat
  let r := rootInt n
  if r * r = n then r else r + Config.realFn site [n] % 2

/-- 1 − x²/(k(k−1))·(…): one level of the series of cosine and sine, `x2` being x² in 2^−30. -/
def trigLevel (x2 : Nat) (acc : Int) (k : Nat) : Int := one30 - (x2 : Int) * acc / (one30 * (k * (k - 1)) : Nat)

/-- Cosine and sine of the quarter turn's part `r` (in 2^−30 quarter turn), in 2^−30. -/
def quarterTrig (r : Nat) : Int × Int :=
  let x := r * pi30 / (2 * one30)
  let x2 := x * x / one30
  ([16, 14, 12, 10, 8, 6, 4, 2].foldl (trigLevel x2) one30,
    (x : Int) * [17, 15, 13, 11, 9, 7, 5, 3].foldl (trigLevel x2) one30 / one30)

/-- Cosine and sine, in 2^−30, of an angle in 2^−32 cycle. -/
def trig (th : Int) : Int × Int :=
  let t := (th % 4294967296).toNat
  let q := quarterTrig (t % one30)
  match t / one30 with
  | 0 => q
  | 1 => (-q.2, q.1)
  | 2 => (-q.1, -q.2)
  | _ => (q.2, -q.1)

/-- tan(φ/2) from tan φ, both in 2^−30. -/
def halfTan (r : Nat) : Nat := r * one30 / (one30 + rootInt (one30 * one30 + r * r))

/-- The arctangent of a ratio `r` in [0, 1], in 2^−30 rad: the series after halving the angle twice. -/
def arcRatio (r : Nat) : Nat :=
  let h := halfTan (halfTan r)
  let h2 : Int := h * h / one30
  let s := [15, 13, 11, 9, 7, 5, 3, 1].foldl (fun (a : Int) (k : Nat) => (one30 / k : Nat) - h2 * a / one30) 0
  (4 * (h * s / one30)).toNat

/-- atan2(y, x) in 2^−30 rad. -/
def arcTan2 (y x : Int) : Int :=
  let ax := x.natAbs
  let ay := y.natAbs
  let t : Int := if ay ≤ ax then arcRatio (ay * one30 / ax) else (pi30 / 2 : Nat) - (arcRatio (ax * one30 / ay) : Int)
  let u := if x < 0 then (pi30 : Int) - t else t
  if y < 0 then -u else u

/-- One step of a second-order generalised integrator (R183): gain `ks` in 1/1,024, and `a` = π·f·dt in 2^−40, by the
trapezoidal rule from the input before to the present one, `u`. -/
def Sogi.step (ks a : Nat) (u : Int) (g : Sogi) : Sogi :=
  let d : Int := 2 ^ 40
  let ka : Int := ks * a * d
  let aa : Int := 1024 * a * a
  let x := quant 2 (g.x * (1024 * d * d - ka - aa) + ka * (u + g.u) - 2048 * a * d * g.q) (1024 * d * d + ka + aa)
  ⟨x, g.q + quant 3 (a * (x + g.x)) d, u⟩

/-- One step of a first-order low-pass filter with time constant `tau`, by the trapezoidal rule over `dt`, from the input
before `x0` to the present one `x1`. -/
def lowPass (site : Nat) (tau dt x0 x1 y : Int) : Int :=
  if tau = 0 then x1 else y + quant site (dt * (x1 + x0 - 2 * y)) (2 * tau + dt)

end Sys2Proof.Machine
end

