-- ==== Sys2Proof/Machine/Window.lean ====
section
/-!
DEFINITION. Window comparators (spec/09): settling, blanking, the latch, and the routing of a trip.
-/
namespace Sys2Proof.Machine

/-- A window's own state. -/
def winSt (s : State) (w : Nat) : WinSt := tget (fun _ => WinSt.zero) s.wins w
def setWinSt (s : State) (w : Nat) (x : WinSt) : State :=
  { s with wins := tset (fun _ => WinSt.zero) s.wins w x }

/-- Is the high, or the low, comparator used by the mode (Table 9.1)? -/
def winUses (s : State) (w : Nat) (high : Bool) : Bool :=
  match s.get (R.WIN_CFG_MODE w) with
  | 1 => high
  | 2 => !high
  | 3 => true
  | _ => false

/-- V_HI, or V_LO, in nV: (k − 512) × 2.34375 mV (R171). -/
def winVolts (s : State) (w : Nat) (high : Bool) : Int :=
  ((if high then s.get (R.WIN_THR_HI w) else s.get (R.WIN_THR_LO w) : Nat) - 512) * 2343750

/-- The hysteresis in nV (R172). -/
def winHys (s : State) (w : Nat) : Int := 1000000 * [0, 5, 10, 20].getD (s.get (R.WIN_CFG_HYS w)) 0

/-- What R172 makes of an input of `x` nV at a comparator: active, inactive, or, within its band, neither. -/
def winDecides (s : State) (w : Nat) (high : Bool) (x : Int) : Option Bool :=
  let v := winVolts s w high
  let h := winHys s w
  if high then (if v < x then some true else if x < v - h then some false else none)
  else (if x < v then some true else if v + h < x then some false else none)

/-- What R174 makes of it at an unsettled comparator: as R172, but that with no hysteresis the first decision settles it, and at
the single point of its band it settles inactive (log entry 68). -/
def winSettles (s : State) (w : Nat) (high : Bool) (x : Int) : Option Bool :=
  if winDecides s w high x = none ∧ winHys s w = 0 then some false else winDecides s w high x

/-- Is a window running? -/
def winOn (s : State) (w : Nat) : Bool := domOn s 4 && s.on (R.WIN_CTL_EN w) && s.get (R.WIN_CFG_MODE w) != 0

/-- The state that a comparator reports (R172, R174). -/
def winReports (s : State) (w : Nat) (high : Bool) : Bool :=
  let x := winSt s w
  winOn s w && winUses s w high &&
    (if high then (if x.setHi then x.hi else s.on (R.WIN_CFG_PUHI w))
     else (if x.setLo then x.lo else s.on (R.WIN_CFG_PULO w)))

/-- The window's condition (R172). -/
def winCondition (s : State) (w : Nat) : Bool := winReports s w true || winReports s w false

/-- May a comparator trip now, blanking of edges apart (R173, R174)? -/
def winArmed (s : State) (w : Nat) (high : Bool) : Bool :=
  let x := winSt s w
  winReports s w high && (if high then x.setHi && !x.dsetHi else x.setLo && !x.dsetLo)

/-- OUTHI, OUTLO and UNSETTLED follow. -/
def winShow (w : Nat) (s : State) : State :=
  let x := winSt s w
  let uns := winOn s w && ((winUses s w true && !x.setHi) || (winUses s w false && !x.setLo))
  ((s.flag (R.WIN_STAT_OUTHI w) (winReports s w true)).flag (R.WIN_STAT_OUTLO w) (winReports s w false)).flag
    (R.WIN_STAT_UNSETTLED w) uns

/-- Every routed stitch follows its sources (R179, R180). -/
def syncRouted (s : State) : State := forL (stitches s) syncStitch s

/-- The window trips, unless blanked or latched already (R175, R176, R179). -/
def winTrip (w : Nat) (s : State) : State :=
  if (winArmed s w true || winArmed s w false) && !s.on (R.WIN_STAT_BLANKED w) && !s.on (R.WIN_STAT_LATCHED w) then
    occur kTRIP (winScope w) 0 (syncRouted ((s.flag (R.WIN_STAT_LATCHED w) true).inc (R.WIN_CNT_TRIPS w)))
  else s

/-- A trip while LATCHED is 1 that meets a clear (R178). -/
def newTrip (w : Nat) (s : State) : State := occur kTRIP (winScope w) 0 (s.inc (R.WIN_CNT_TRIPS w))

/-- BLKHIT counts an interval in which an output in use was active (R175). -/
def winHit (w : Nat) (s : State) : State :=
  let x := winSt s w
  if s.on (R.WIN_STAT_BLANKED w) && !x.hit && winCondition s w then
    (setWinSt s w { x with hit := true }).inc (R.WIN_CNT_BLKHIT w)
  else s

/-- The latch clears, and the routed stitches are released (R177, R180). -/
def winClear (w : Nat) (s : State) : State := syncRouted (s.flag (R.WIN_STAT_LATCHED w) false)

/-- A window starts: its comparators are unsettled (R174); blanking after a threshold change or an edge runs on. -/
def winStart (w : Nat) (s : State) : State :=
  let pu := (winUses s w true && s.on (R.WIN_CFG_PUHI w)) || (winUses s w false && s.on (R.WIN_CFG_PULO w))
  let s1 := setWinSt s w { winSt s w with hi := false, lo := false, setHi := false, setLo := false }
  winHit w (winShow w (if pu then s1.inc (R.WIN_CNT_PUSUP w) else s1))

/-- An input of `x` nV at a running window: each comparator in use settles outside its band and follows R172. -/
def winInput (w : Nat) (x : Int) (s : State) : State :=
  if winOn s w then
    let y := winSt s w
    let y1 := match winUses s w true, (if y.setHi then winDecides else winSettles) s w true x with
      | true, some b => { y with hi := b, setHi := true }
      | _, _ => y
    let y2 := match winUses s w false, (if y.setLo then winDecides else winSettles) s w false x with
      | true, some b => { y1 with lo := b, setLo := true }
      | _, _ => y1
    winHit w (winShow w (setWinSt s w y2))
  else s

/-- A comparator's blanking ends: that of the window (R175), or that of t_dset (R173). -/
def endBlank (w : Nat) (s : State) : State := s.flag (R.WIN_STAT_BLANKED w) false
def endDset (w : Nat) (high : Bool) (s : State) : State :=
  let x := winSt s w
  setWinSt s w (if high then { x with dsetHi := false } else { x with dsetLo := false })

/-- What happens at a window, up to a trip. -/
def winMeet (w : Nat) (m : WinMeet) (s : State) : State :=
  match m with
  | .input x => winInput w x s
  | .blankEnd => endBlank w s
  | .dsetEnd high => endDset w high s

/-- Does a comparator trip in the cycle that leads from `s` to `t` (R173, R175, R178)? -/
def winTrips (s t : State) (w : Nat) (high : Bool) : Bool :=
  let may (x : State) := winArmed x w high && !x.on (R.WIN_STAT_BLANKED w)
  may t && !may s

/-- A clear of LATCHED by the host or by a period start, in a cycle in which `ms` happens at the window: it takes effect while
the condition is absent (R177). A trip in that cycle leaves LATCHED set and is a new trip (R178). The result says whether the
condition kept the clear out. -/
def tryClear (w : Nat) (ms : List WinMeet) (s : State) : State × Bool :=
  let s1 := forL ms (winMeet w) s
  let trips := winTrips s s1 w true || winTrips s s1 w false
  if trips then (newTrip w s1, winCondition s w)
  else if winCondition s w || winCondition s1 w then (s1, true)
  else (winClear w s1, false)

/-- What happens at a window in a cycle without a clear of its latch. -/
def winMeets (w : Nat) (ms : List WinMeet) (s : State) : State := if ms = [] then s else winTrip w (forL ms (winMeet w) s)

/-- A write of WIN_CTL (R174, R178). -/
def writeWinCtl (w : Nat) (d : Word) (s : State) : State :=
  let en := tb d.toNat 0
  if en == s.on (R.WIN_CTL_EN w) then
    (if !en && s.on (R.WIN_STAT_LATCHED w) then s.flag (R.WIN_STAT_CLRERR w) true else s)
  else if en then winStart w (s.flag (R.WIN_CTL_EN w) true)
  else if s.on (R.WIN_STAT_LATCHED w) then s.flag (R.WIN_STAT_CLRERR w) true
  else
    let y := { winSt s w with hi := false, lo := false, setHi := false, setLo := false }
    winShow w (setWinSt (s.flag (R.WIN_CTL_EN w) false) w y)

/-- A write of WIN_THR (R173): each comparator whose code changes is blanked for t_dset. -/
def writeWinThr (w : Nat) (d : Word) (s : State) : State :=
  let hi := bitsOf d 16 10
  let lo := bitsOf d 0 10
  if s.get (R.WIN_CFG_MODE w) = 3 ∧ hi ≤ lo then s.flag (R.WIN_STAT_WERR w) true
  else
    let x := winSt s w
    let dh := hi != s.get (R.WIN_THR_HI w)
    let dl := lo != s.get (R.WIN_THR_LO w)
    let s1 := (s.put (R.WIN_THR_HI w) hi).put (R.WIN_THR_LO w) lo
    setWinSt s1 w { x with dsetHi := x.dsetHi || dh, dsetLo := x.dsetLo || dl }

/-- A write of WIN_STAT in a cycle in which `ms` happens at the window (R177, R178). -/
def writeWinStat (w : Nat) (d : Word) (ms : List WinMeet) (s : State) : State :=
  let s1 := if tb d.toNat 26 then s.flag (R.WIN_STAT_CLRERR w) false else s
  let s2 := if tb d.toNat 25 then s1.flag (R.WIN_STAT_WERR w) false else s1
  if tb d.toNat 31 && s2.on (R.WIN_STAT_LATCHED w) then
    let r := tryClear w ms s2
    if r.2 then r.1.flag (R.WIN_STAT_CLRERR w) true else r.1
  else winMeets w ms s2

/-- What happens at window `w` in a cycle. -/
def meetsOf (met : List (Fin 64 × WinMeet)) (w : Nat) : List WinMeet := (met.filter (fun e => e.1.val == w)).map (·.2)

/-- A carrier period of seam `n` starts, in a cycle in which `met` happens at the windows: the latches it clears clear, where
their condition is absent (R177, R178). -/
def winPeriodClear (n : Nat) (met : List (Fin 64 × WinMeet)) (s : State) : State :=
  forL (List.range 64) (fun w a =>
    if a.on (R.WIN_STAT_LATCHED w) && a.on (R.WIN_CFG_LATCH w) && a.get (R.WIN_CFG_CLRSEAM w) == n then
      (tryClear w (meetsOf met w) a).1
    else winMeets w (meetsOf met w) a) s

/-- An edge is assigned to stitch `k`: the windows that blank its seams open an interval (R175). -/
def winBlankOpen (k : Nat) (s : State) : State :=
  let p := path s (ownerOf s k)
  forL (List.range 64) (fun w a =>
    let b := a.get (R.WIN_BLK_BLKSEAM w)
    if b != 0 && domOn a 4 && p.contains b && a.get (R.WIN_BLK_BLKLEN w) != 0 && !a.on (R.WIN_STAT_BLANKED w) then
      winHit w (setWinSt (a.flag (R.WIN_STAT_BLANKED w) true) w { winSt a w with hit := false })
    else a) s

/-! ### Commands -/

/-- WIN_COMPARATOR_CHANGE (R171, R172, R174): the input of the window is now `x` nV. -/
def execWinComparatorChange (w : Fin 64) (x : Int) (s : State) : Host.Outcome State Fault Refusal :=
  .next (if winOn s w then winTrip w (winInput w x s) else s)

/-- WIN_BLANK_END (R175): the last of the merged intervals ends; an output still active trips. -/
def execWinBlankEnd (w : Fin 64) (s : State) : Host.Outcome State Fault Refusal :=
  .next (if s.on (R.WIN_STAT_BLANKED w) then winTrip w (endBlank w s) else s)

/-- WIN_DSET_END (R173): t_dset after a change of the comparator's code. -/
def execWinDsetEnd (w : Fin 64) (high : Bool) (s : State) : Host.Outcome State Fault Refusal :=
  .next (winTrip w (endDset w high s))

/-- WIN_THR_WRITE (R173). -/
def execWinThrWrite (w : Fin 64) (d : PortWrite) (s : State) : Host.Outcome State Fault Refusal :=
  .next (guarded d.port (R.WIN_THR w.val) d.data (writeWinThr w.val d.data) s)

/-- WIN_LATCH_CLEAR (R177, R178): a write of WIN_STAT, in a cycle in which `met` happens at the window. -/
def execWinLatchClear (w : Fin 64) (d : PortWrite) (met : List WinMeet) (s : State) : Host.Outcome State Fault Refusal :=
  .next (guarded d.port (R.WIN_STAT w.val) d.data (writeWinStat w.val d.data met) s)

/-- WIN_EN_WRITE (R174, R178). -/
def execWinEnWrite (w : Fin 64) (port : Nat) (en : Bool) (s : State) : Host.Outcome State Fault Refusal :=
  let d : Word := if en then 1 else 0
  .next (guarded port (R.WIN_CTL w.val) d (writeWinCtl w.val d) s)

end Sys2Proof.Machine
end

