-- ==== Sys2Proof/Machine/Grid.lean ====
section
/-!
DEFINITION. Grid tie, ride-through and islanding (spec/10), in the fixed point of `Signal` (log entry 69).
-/
namespace Sys2Proof.Machine

/-- Steps of 156.25 ps in a second. -/
def stepsPerSecond : Nat := 6400000000

/-- Steps in 10 ms, and in 1 ms. -/
def steps10ms : Nat := 64000000
def steps1ms : Nat := 6400000

/-! ### Modes (Table 10.4) -/

def gPLL (s : State) : Bool := decide (4 ≤ mode s) && decide (mode s ≤ 8)
def gENTER (s : State) : Bool := decide (4 ≤ mode s) && decide (mode s ≤ 7)
def gTRIP (s : State) : Bool := decide (6 ≤ mode s) && decide (mode s ≤ 8)
def gCEASE (s : State) : Bool := decide (6 ≤ mode s) && decide (mode s ≤ 7)
def gINJ (s : State) : Bool := s.on R.GRD_RT_INJEN && (mode s == mFEED || (mode s == mCHARGE && s.on R.GRD_RT_INJCHG))
def gISL (s : State) : Bool := mode s == mFEED

/-! ### The hold of R193 -/

/-- HOLD follows TRIPPED, ISL and CEASE; stitches and contexts follow HOLD (R193). -/
def syncGridHold (s : State) : State :=
  let want := s.on R.GRD_STAT_TRIPPED || s.on R.GRD_STAT_ISL || s.on R.GRD_STAT_CEASE
  if want == s.on R.GRD_STAT_HOLD then s
  else
    let s1 := s.flag R.GRD_STAT_HOLD want
    syncHolds (if want then holdQueue (s.get R.GRD_CFG_ROOT) s1 else s1)

/-- ENTOK falls, and its time restarts: it sets again once the conditions have held for DLY from here (log entry 69). -/
def dropEntok (s : State) : State :=
  { (s.flag R.GRD_STAT_ENTOK false).put R.GRD_ENTT_T 0 with grd := { s.grd with entT := 0 } }

/-- Islanding is detected with a cause (R196). -/
def fireIsl (cause : Nat) (s : State) : State :=
  if s.on R.GRD_STAT_ISL then s
  else
    let s1 := (((s.flag R.GRD_STAT_ISL true).put R.GRD_CAUSE_ICAUSE cause).inc R.GRD_CNT_ISLS)
    occur kGISL gridScope cause (syncGridHold (dropEntok s1))

/-! ### Measurement (R182–R187) -/

/-- dt of the unit in steps: the sample interval of the trigger seam of its sequence (R182). -/
def gridDt (s : State) : Nat :=
  let n := s.get (R.ACQ_SQCFG_TNUM (s.get R.GRD_CFG_SQ))
  nominal s n * (s.get (R.MOD_OPT_SMPDIV n) + 1)

/-- fnom in µHz. -/
def fnom (s : State) : Int := if s.on R.GRD_NOM_F60 then 60000000 else 50000000

/-- θ advanced by a frequency (µHz) over a time (steps). -/
def advance (th : Nat) (f : Int) (dt : Nat) : Nat :=
  code 32 (th + quant 1 (f * dt * 4294967296) (stepsPerSecond * 1000000))

/-- α, β and z of three phase values (R183), in 2^−16 of a Q15 step; β and z are 0 but in the three-phase topology. -/
def clarke (topo : Nat) (a b c : Int) : Int × Int × Int :=
  match topo with
  | 0 => (quant 4 (65536 * (2 * a - b - c)) 3, quant 5 (65536 * (b - c) * one30) rt30, quant 6 (65536 * (a + b + c)) 3)
  | 1 => (65536 * a, 0, 0)
  | _ => (32768 * (a - b), 0, 0)

/-- α′, qα′, β′, qβ′ from the SOGIs of α and β (R183): but in the three-phase topology β′ is qα′, and with it qβ′ is −α′
(log entry 69). -/
def inQuadrature (topo : Nat) (al be : Sogi) : Sogi × Sogi :=
  if topo = 0 then (al, be) else (al, ⟨al.q, -al.x, 0⟩)

/-- An amplitude in 10^−6 pu (R185). -/
def inPu (s : State) (v : Int) : Int := quant 29 (v * 1000000) (65536 * s.get R.GRD_NOM_VNOM)

/-- The amplitude of a phase (R185): the sequence phasors, in phase and in quadrature, each turned by its own rotation of
`k` thirds of a cycle back for the positive and forward for the negative sequence, and the zero sequence. -/
def phaseAmplitude (k : Int) (ap bp an bn : Int) (z : Sogi) : Int :=
  let turn (i q m : Int) : Int × Int :=
    (quant 35 (-(i * one30) + m * q * rt30) (2 * one30), quant 35 (-(q * one30) - m * i * rt30) (2 * one30))
  let p := if k = 0 then (ap, bp) else turn ap bp k
  let n := if k = 0 then (an, -bn) else turn an (-bn) (-k)
  amplitude 36 (p.1 + n.1 + z.x) (p.2 + n.2 + z.q)

/-- The phase error of a zero vector, which atan2 does not give (log entry 1). -/
def peOf (th : Nat) (vd vq : Int) : Int := if vd = 0 ∧ vq = 0 then Config.realFn 7 [th] else arcTan2 vq vd

/-- The filters, the sequence components and amplitudes and the phase error of an update (R183, R184, R185). -/
def measure (s : State) (g : GrdSt) (dt : Nat) : GrdSt :=
  let topo := s.get R.GRD_CFG_TOPO
  let i (k : Nat) : Int := g.ins.getD k 0
  let v := clarke topo (i 0) (i 1) (i 2)
  let c := clarke topo (i 3) (i 4) (i 5)
  let a := (pi30 * g.f.toNat * dt * 1024) / (stepsPerSecond * 1000000)
  let us := [v.1, v.2.1, v.2.2, 65536 * i 0, 65536 * i 1, c.1, c.2.1]
  let filt := us.zipIdx.map (fun e => (g.filt.getD e.2 Sogi.zero).step (s.get R.GRD_PLL_KS) a e.1)
  let f (k : Nat) : Sogi := filt.getD k Sogi.zero
  let ab := inQuadrature topo (f 0) (f 1)
  let ap := quant 14 (ab.1.x - ab.2.q) 2
  let bp := quant 15 (ab.1.q + ab.2.x) 2
  let an := quant 16 (ab.1.x + ab.2.q) 2
  let bn := quant 17 (ab.2.x - ab.1.q) 2
  let cs := trig g.th
  let vd := quant 18 (ap * cs.1 + bp * cs.2) one30
  let vq := quant 19 (bp * cs.1 - ap * cs.2) one30
  let vpos := inPu s (amplitude 20 ap bp)
  let amps := match topo with
    | 0 => [0, 1, -1].map (fun k => inPu s (phaseAmplitude k ap bp an bn (f 2)))
    | 1 => [vpos]
    | _ => [3, 4].map (fun k => inPu s (amplitude 21 (f k).x (f k).q))
  { g with filt := filt, seq := [ap, bp, an, bn], dq := (vd, vq), vpos := vpos, vneg := inPu s (amplitude 24 an bn),
           vlow := (amps.min?).getD 0, vhigh := (amps.max?).getD 0, pe := peOf g.th vd vq }

/-- The PLL (R184): coasting below VMIN. -/
def pll (s : State) (g : GrdSt) (dt : Nat) : GrdSt :=
  if g.vpos < 1000 * (s.get R.GRD_LOCK_VMIN : Int) then g
  else
    let n := fnom s
    let dfi := quant 8 ((s.get R.GRD_PLL_KI : Int) * 16000000 * g.pe * dt) (one30 * stepsPerSecond)
    let fi := clampInt (45000000 - n) (65000000 - n) (g.fi + dfi)
    let kp := quant 9 ((s.get R.GRD_PLL_KP : Int) * 250000 * g.pe) one30
    { g with fi := fi, f := clampInt 45000000 65000000 (n + fi + kp) }

/-- f_meas (R187), from f before the update and after it. -/
def measF (s : State) (f0 : Int) (g : GrdSt) (dt : Nat) : Int :=
  lowPass 10 (s.get R.GRD_FMEAS_FTAU * steps1ms : Nat) dt f0 g.f g.fmeas

/-- W of the ROCOF, in steps. -/
def rocW (s : State) : Nat := s.get R.GRD_FMEAS_ROCWIN * steps10ms

/-- f_meas W earlier, from the history. -/
def fBefore (w now : Nat) (h : List (Nat × Int)) : Option Int := (h.find? (fun e => decide (e.1 + w ≤ now))).map (·.2)

/-- ROCOF in mHz/s (R187): 0 in the first W after apply or a rise of LOCK. -/
def rocofOf (s : State) (g : GrdSt) : Int :=
  if g.time < g.lockAt + rocW s then 0
  else match fBefore (rocW s) g.time g.hist with
    | some b => quant 11 (g.fmeas - b) (10 * s.get R.GRD_FMEAS_ROCWIN)
    | none => 0

/-- LOCK (R186). -/
def judgeLock (dt : Nat) (s : State) : State :=
  let g := s.grd
  let th := s.get R.GRD_LOCK_LOCKTH * 1048576
  let coast := s.on R.GRD_STAT_COAST
  let fcl := s.on R.GRD_STAT_FCLAMP
  let good := decide (g.pe.natAbs ≤ th) && !coast && !fcl
  let t := if good then g.lockT + dt else 0
  let bad := if 4 * th < g.pe.natAbs then min (g.lockBad + 1) 8 else 0
  let s1 := { s with grd := { g with lockT := t, lockBad := bad } }
  if s.on R.GRD_STAT_LOCK then
    (if coast || fcl || bad == 8 then pleatsSee (s1.flag R.GRD_STAT_LOCK false) else s1)
  else if good ∧ s.get R.GRD_LOCK_LOCKT * steps1ms ≤ t then
    pleatsSee { s1.flag R.GRD_STAT_LOCK true with grd := { s1.grd with lockAt := g.time } }
  else s1

/-- Vector shift in 0.01° (R187). -/
def vsOf (g : GrdSt) : Nat := (quant 12 (g.pe.natAbs * 18000 : Nat) pi30).toNat

/-- An output takes a value, saturated to Q15 (Table 10.2). -/
def putOutp (k : Nat) (v : Int) (s : State) : State := s.put (R.GRD_OUT_OUT k) (satCode v)

/-- A measurement register from `lo` to `hi`: the spec gives no value to a quantity beyond it (log entry 1). -/
def fits (lo hi v : Int) : Int := if lo ≤ v ∧ v ≤ hi then v else Config.realFn 27 [lo, hi, v]

/-- ANG_P: the angle at the next sample instant, in 1/65,536 (Table 10.2). -/
def angP (g : GrdSt) (dt : Nat) : Nat := code 16 (roundDiv (advance g.th g.f dt) 65536)

/-- Outputs 0–4: ANG_P, its cosine and sine, U2 and U3 (Table 10.2). -/
def publishAngle (dt : Nat) (s : State) : State :=
  let a : Int := angP s.grd dt
  let cosOf (site : Nat) (th : Int) : Int := quant site ((trig th).1 * 32767) one30
  let th := a * 65536
  putOutp 4 (cosOf 40 (th + 1431655765)) (putOutp 3 (cosOf 40 (th - 1431655765)) (putOutp 2
    (quant 41 ((trig th).2 * 32767) one30) (putOutp 1 (cosOf 40 th) (s.put (R.GRD_OUT_OUT 0) (angP s.grd dt)))))

/-- Outputs 5–8: vd and vq, and the negative sequence in the frame of −ANG_P, in the input scale (Table 10.2). -/
def publishSequences (dt : Nat) (s : State) : State :=
  let g := s.grd
  let cs := trig ((angP g dt : Int) * 65536)
  let an := g.seq.getD 2 0
  let bn := g.seq.getD 3 0
  let toQ (site : Nat) (v : Int) : Int := quant site v (65536 * one30)
  putOutp 8 (toQ 45 (bn * cs.1 + an * cs.2)) (putOutp 7 (toQ 44 (an * cs.1 - bn * cs.2))
    (putOutp 6 (quant 43 g.dq.2 65536) (putOutp 5 (quant 42 g.dq.1 65536) s)))

/-- Outputs 0–14 and the measurement registers (Table 10.2, R185, R187). -/
def publish (dt : Nat) (passed : Bool) (s : State) : State :=
  let g := s.grd
  let vs := vsOf g
  let s3 := publishSequences dt (publishAngle dt s)
  let pu (v : Int) : Int := quant 22 (v * 16384) 1000000
  let s4 := putOutp 11 (pu g.vhigh) (putOutp 10 (pu g.vlow) (putOutp 9 (pu g.vpos) s3))
  let s5 := putOutp 12 (quant 23 ((g.fmeas - fnom s) * 32768) 16000000) s4
  let s6 := putOutp 14 (quant 24 (g.pe * 32768) pi30) (putOutp 13 (quant 25 (g.roc * 32768) 16000) s5)
  let s7 := (s6.sput R.GRD_F_F (quant 26 g.fmeas 1000)).sput R.GRD_ROCOF_ROCOF (fits (-32768) 32767 g.roc)
  let s8 := (s7.put R.GRD_VS_VS vs).put R.GRD_VS_VSMAX (if passed then vs else max vs (s.get R.GRD_VS_VSMAX))
  let mpu (v : Int) : Int := fits 0 8191 (quant 46 v 1000)
  ((s8.sput R.GRD_VSEQ_VPOS (mpu g.vpos)).sput R.GRD_VSEQ_VNEG (mpu g.vneg)).sput R.GRD_VPH_VLOW (mpu g.vlow) |>.sput
    R.GRD_VPH_VHIGH (mpu g.vhigh)

/-! ### Curves (R189, R190) -/

/-- The word of point `i` (0–15 voltage, 16–31 frequency). -/
def pointWord (s : State) (i : Nat) : Word := if i < 16 then s.word (R.GRD_VCRV i) else s.word (R.GRD_FCRV (i - 16))

def ptACT (w : Word) : Nat := bitsOf w 30 2
def ptTH (w : Word) : Int := bitsOf w 16 13
def ptTIME (w : Word) : Nat := bitsOf w 0 16 * steps10ms
def ptOver (w : Word) : Bool := tb w.toNat 29

/-- The quantity that a point judges: a voltage in 10^−6 pu, or f_meas in µHz. -/
def ptQuantity (s : State) (i : Nat) (w : Word) : Int :=
  if i < 16 then (if ptOver w then s.grd.vhigh else s.grd.vlow) else s.grd.fmeas

/-- The unit of a threshold of point `i` in that quantity: 1 mpu, or 10 mHz. -/
def ptUnit (i : Nat) : Int := if i < 16 then 1000 else 10000

/-- Is a point's function active in the mode (Table 10.4)? -/
def ptActive (s : State) (w : Word) : Bool := if ptACT w = 1 then gTRIP s else if ptACT w = 2 then gCEASE s else false

/-- One point's timer over dt (R190); a point whose timer returns to 0 acts no more (R192). -/
def stepPoint (dt i : Nat) (s : State) : State :=
  let w := pointWord s i
  let t := tget (fun _ => 0) s.grd.timers i
  let q := ptQuantity s i w
  let th := ptTH w * ptUnit i
  let hys : Int := (if i < 16 then s.get R.GRD_CRVCTL_VHYS else s.get R.GRD_CRVCTL_FHYS) * ptUnit i
  let beyond := if ptOver w then decide (th < q) else decide (q < th)
  let inside := if ptOver w then decide (q < th - hys) else decide (th + hys < q)
  let t1 := if ptActive s w then (if beyond then t + dt else if inside then 0 else t) else 0
  let acting := if t1 = 0 then s.grd.acting.filter (· != i) else s.grd.acting
  { s with grd := { s.grd with timers := tset (fun _ => 0) s.grd.timers i t1, acting := acting } }

/-- Does a CEASE point act? -/
def ceaseActs (s : State) : Bool := s.grd.acting.any (fun i => ptACT (pointWord s i) == 2)

/-- The curve timers over dt; CEASE needs its function (R190, R192, R201). -/
def stepCurves (dt : Nat) (s : State) : State :=
  let s1 := forL (List.range 32) (stepPoint dt) s
  let t := if ceaseActs s1 then 0 else s1.grd.ceaseT + dt
  let s2 := { s1 with grd := { s1.grd with ceaseT := if gCEASE s1 then t else 0 } }
  if gCEASE s2 then s2 else syncGridHold (s2.flag R.GRD_STAT_CEASE false)

/-! ### Injection (R195) -/

/-- VREF in force, in 10^−6 pu: with AVGREF the mean of VPOS, for which GRD_RTREF.VREF stands in during the first 60 s
after apply. -/
def vrefOf (s : State) : Int :=
  if s.on R.GRD_RT_AVGREF ∧ 60 * stepsPerSecond ≤ s.grd.time ∧ s.grd.mean ≠ [] then
    quant 28 s.grd.mean.sum s.grd.mean.length
  else 1000 * (s.get R.GRD_RTREF_VREF : Int)

/-- Reactive injection over dt. -/
def stepInjection (dt : Nat) (s : State) : State :=
  let g := s.grd
  let tick := decide (stepsPerSecond ≤ g.meanT + dt)
  let mt := if tick then g.meanT + dt - stepsPerSecond else g.meanT + dt
  let mean := if tick && !s.on R.GRD_STAT_INJ then (g.vpos :: g.mean).take 60 else g.mean
  let s0 := { s with grd := { g with meanT := mt, mean := mean } }
  if gINJ s0 then
    let dv := g.vpos - vrefOf s0
    let out := decide (1000 * (s.get R.GRD_RT_DB : Int) < dv.natAbs)
    let s1 := { s0 with grd := { s0.grd with injT := if out then 0 else s0.grd.injT + dt } }
    let s2 := if out then s1.flag R.GRD_STAT_INJ true else s1
    let m : Int := s.sget R.GRD_RTSC_IQMAX
    let iq := clampInt (-m) m (fdiv (-(s.get R.GRD_RT_K : Int) * dv * s.sget R.GRD_RTSC_ISC) 16000000)
    putOutp 15 (if s2.on R.GRD_STAT_INJ then iq else 0) s2
  else
    putOutp 15 0 ({ s0 with grd := { s0.grd with injT := 0 } }.flag R.GRD_STAT_INJ false)

/-! ### Islanding (R196) -/

/-- Is the present half of the active method the + half? -/
def aisHalfPlus (s : State) (t : Nat) : Bool :=
  let h := s.get R.GRD_AIS_PHALF
  if h = 0 then true
  else if s.on R.GRD_ISL_FSYNC then fabTime s / (h * 10000000) % 2 == 0
  else t / (h * steps10ms) % 2 == 0

/-- The active method over dt: the sums of f_meas over the halves, and the count at the end of each complete period.
Where the halves follow fabric time, the first period counted starts at the first start of a + half in FEED. Log entry 22. -/
def stepActive (dt : Nat) (s : State) : State :=
  let g := s.grd
  let t := g.aisT + dt
  let plus := aisHalfPlus s t
  let ends := !g.aisPlus && plus
  let sm := g.aisSum
  let full := ends && decide (0 < sm.2.1) && decide (0 < sm.2.2.2)
  let live := !s.on R.GRD_ISL_FSYNC || ends || sm.2.1 != 0
  let cnt := if !full then g.aisCnt
    else if s.get R.GRD_AIS_ADTH * 10000 * (sm.2.1 * sm.2.2.2) ≤ (sm.1 * sm.2.2.2 - sm.2.2.1 * sm.2.1).natAbs then g.aisCnt + 1
    else 0
  let base : Int × Nat × Int × Nat := if ends then (0, 0, 0, 0) else sm
  let sum := if !live then base
    else if plus then (base.1 + g.fmeas, base.2.1 + 1, base.2.2.1, base.2.2.2)
    else (base.1, base.2.1, base.2.2.1 + g.fmeas, base.2.2.2 + 1)
  let s1 := { s with grd := { g with aisT := t, aisPlus := plus, aisSum := sum, aisCnt := min cnt 15 } }
  let a := s.sget R.GRD_AIS_PAMP
  let s2 := putOutp 16 (if plus then a else -a) s1
  if full ∧ s.get R.GRD_AIS_ADN ≤ s1.grd.aisCnt ∧ s.get R.GRD_AIS_ADN ≠ 0 then fireIsl 3 s2 else s2

/-- Is |ROCOF|, or the vector shift, above its threshold (R196)? -/
def rocAbove (s : State) : Bool := decide (s.get R.GRD_ISL_ROCTH * 50 < s.grd.roc.natAbs)
def vsAbove (s : State) : Bool := decide (s.get R.GRD_ISL_VSTH * 25 < s.get R.GRD_VS_VS)

/-- Islanding detection over dt. -/
def stepIslanding (dt : Nat) (s : State) : State :=
  if gISL s then
    let roc := s.on R.GRD_ISL_ROCEN && rocAbove s
    let t := if roc then s.grd.rocT + dt else 0
    let s1 := { s with grd := { s.grd with rocT := t } }
    let s2 := if roc ∧ s.get R.GRD_ISL_ROCT * steps10ms ≤ t then fireIsl 1 s1 else s1
    let s3 := if s2.on R.GRD_ISL_VSEN && s2.on R.GRD_STAT_LOCK && vsAbove s2 then fireIsl 2 s2 else s2
    if s3.on R.GRD_ISL_AISEN then stepActive dt s3 else putOutp 16 0 s3
  else
    putOutp 16 0 { s with grd := { s.grd with rocT := 0, aisT := 0, aisPlus := true, aisSum := (0, 0, 0, 0), aisCnt := 0 } }

/-! ### Entering service (R198) -/

/-- The conditions of R198. -/
def entryHolds (s : State) : Bool :=
  let g := s.grd
  let f := g.fmeas
  s.on R.GRD_STAT_LOCK && decide (1000 * (s.get R.GRD_ENTV_VLO : Int) ≤ g.vlow)
    && decide (g.vhigh ≤ 1000 * (s.get R.GRD_ENTV_VHI : Int))
    && decide ((s.get R.GRD_ENTF_FLO : Int) * 10000 ≤ f) && decide (f ≤ (s.get R.GRD_ENTF_FHI : Int) * 10000)

/-- Entering service over dt. -/
def stepEntry (dt : Nat) (s : State) : State :=
  if gENTER s then
    if entryHolds s then
      let t := s.grd.entT + dt
      { s.put R.GRD_ENTT_T (min 1023 (t / stepsPerSecond)) with grd := { s.grd with entT := t } }
    else dropEntok s
  else { s.put R.GRD_ENTT_T 0 with grd := { s.grd with entT := 0 } }

/-! ### Grid forming and powers (R199, R200) -/

/-- P_MEAS and Q_MEAS (R200): the products of the filtered components over VNOM, through a low-pass filter. -/
def stepPowers (dt : Nat) (s : State) : State :=
  if s.on R.GRD_CFG_IEN then
    let g := s.grd
    let topo := s.get R.GRD_CFG_TOPO
    let f (k : Nat) : Sogi := g.filt.getD k Sogi.zero
    let v := inQuadrature topo (f 0) (f 1)
    let c := inQuadrature topo (f 5) (f 6)
    let vn : Int := 65536 * s.get R.GRD_NOM_VNOM
    let p1 := quant 30 (v.1.x * c.1.x + v.2.x * c.2.x) vn
    let q1 := quant 31 (v.2.x * c.1.x - v.1.x * c.2.x) vn
    let tau : Int := (s.get R.GRD_DROOP_PQTAU * steps1ms : Nat)
    let p := lowPass 47 tau dt g.pIn p1 g.p
    let q := lowPass 48 tau dt g.qIn q1 g.q
    putOutp 18 (quant 49 q 65536) (putOutp 17 (quant 49 p 65536)
      { s with grd := { g with pIn := p1, qIn := q1, p := p, q := q } })
  else putOutp 18 0 (putOutp 17 0 s)

/-- The oscillator starts on entry to ISLAND (R199). -/
def startForming (s : State) : State :=
  if s.on R.GRD_STAT_FORMING then s
  else
    let lk := s.on R.GRD_STAT_LOCK
    pleatsSee { s.flag R.GRD_STAT_FORMING true with
      grd := { s.grd with thF := if lk then s.grd.th else 0,
                          fF := if lk then s.grd.fmeas else (s.get R.GRD_FORM_F0 : Int) * 10000 } }

/-- vref_k of R199 at v_F in 10^−6 pu: round(v_F ÷ 1000 × vnom × cos(th_F − (k − 1) ÷ 3)), `k` thirds of a cycle back. -/
def formRef (s : State) (v : Int) (th k : Nat) : Int :=
  roundDiv (v * s.get R.GRD_NOM_VNOM * (trig ((th : Int) - 1431655765 * k)).1) (1000000 * one30)

/-- The oscillator, the droops and outputs 19–23. -/
def stepForming (dt : Nat) (s : State) : State :=
  if mode s = mISLAND then
    let s0 := startForming s
    let dp := q15 (s.get (R.GRD_OUT_OUT 17)) - s.sget R.GRD_PQ0_P0
    let dq := q15 (s.get (R.GRD_OUT_OUT 18)) - s.sget R.GRD_PQ0_Q0
    let f := clampInt 45000000 65000000 ((s.get R.GRD_FORM_F0 : Int) * 10000
      - quant 32 ((s.get R.GRD_DROOP_KPF : Int) * 1000000 * dp) (64 * 32768))
    let v := clampInt 0 1200000 (1000 * (s.get R.GRD_FORM_V0 : Int)
      - quant 33 ((s.get R.GRD_DROOP_KQV : Int) * 1000000 * dq) (1024 * 32768))
    let th := advance s0.grd.thF f dt
    let r1 := formRef s v th 0
    let topo := s.get R.GRD_CFG_TOPO
    let r2 := if topo = 1 then 0 else if topo = 2 then -r1 else formRef s v th 1
    let r3 := if topo = 0 then formRef s v th 2 else 0
    let s1 := { s0 with grd := { s0.grd with thF := th, fF := f } }.put (R.GRD_OUT_OUT 19) (code 16 (quant 13 th 65536))
    putOutp 23 (quant 23 ((f - fnom s) * 32768) 16000000) (putOutp 22 r3 (putOutp 21 r2 (putOutp 20 r1 s1)))
  else forL [19, 20, 21, 22, 23] (fun k a => a.put (R.GRD_OUT_OUT k) 0) s

/-! ### Updates -/

/-- The functions that follow the measurements of an update. -/
def stepFunctions (dt : Nat) (s : State) : State :=
  stepEntry dt (stepIslanding dt (stepInjection dt (stepCurves dt (stepForming dt s))))

/-- Does the grid unit run? -/
def gridRuns (s : State) : Bool := domOn s 7 && s.on R.PAT_STAT_LOADED && !s.on R.PAT_STAT_APPLYING

/-- The history of f_meas, with the value at the present time. -/
def noteF (s : State) (g : GrdSt) (dt : Nat) : List (Nat × Int) :=
  (g.time, g.fmeas) :: g.hist.takeWhile (fun e => decide (g.time < e.1 + rocW s + dt))

/-- ROCOF from the history as it now is (R187). -/
def judgeRocof (s : State) : State := { s with grd := { s.grd with roc := rocofOf s s.grd } }

/-- One update from a completed round (R182–R187); in the modes where the PLL does not act the outputs are frozen, and its
times and counts are 0 (R201). -/
def gridStep (s : State) : State :=
  let dt := gridDt s
  let g0 := { s.grd with time := s.grd.time + dt }
  if gPLL s then
    let g1 := pll s (measure s g0 dt) dt
    let th := advance g1.th g1.f dt
    let g2 := { g1 with th := th, fmeas := measF s g0.f g1 dt }
    let g3 := { g2 with hist := noteF s g2 dt }
    let coast := decide (g3.vpos < 1000 * (s.get R.GRD_LOCK_VMIN : Int))
    let s1 := ({ s with grd := g3 }.flag R.GRD_STAT_COAST coast).flag R.GRD_STAT_FCLAMP
      (g3.f == 45000000 || g3.f == 65000000)
    stepFunctions dt (stepPowers dt (publish dt (decide (th < g1.th)) (judgeRocof (judgeLock dt s1))))
  else stepFunctions dt { s with grd := { g0 with lockT := 0, lockBad := 0 } }

/-- A predicted update (R182): angles and timers advance, all else stays. A positive passage of th restarts VSMAX (R187). -/
def gridPredict (s : State) : State :=
  let dt := gridDt s
  let g0 := { s.grd with time := s.grd.time + dt }
  let s0 := s.inc R.GRD_CNT_MISS
  if gPLL s then
    let th := advance g0.th g0.f dt
    let g1 := { g0 with th := th }
    let s1 := judgeLock dt { s0 with grd := { g1 with hist := noteF s g1 dt } }
    let s2 := if th < g0.th then s1.put R.GRD_VS_VSMAX 0 else s1
    stepFunctions dt (publishAngle dt s2)
  else stepFunctions dt { s0 with grd := { g0 with lockT := 0, lockBad := 0 } }

/-- A sample instant of seam `n`, which owes the rounds `started`: where the round that the previous instant started has not
completed, or that instant started none, a predicted update (R182). -/
def gridSample (n : Nat) (started : List (Nat × Option Nat)) (s : State) : State :=
  let q := s.get R.GRD_CFG_SQ
  if gridRuns s && s.get (R.ACQ_SQCFG_TSRC q) == 1 && s.get (R.ACQ_SQCFG_TNUM q) == n then
    let s1 := if s.grd.owed.isSome then gridPredict s else s
    let own := (started.find? (fun e => e.1 == q)).bind (·.2)
    { s1 with grd := { s1.grd with owed := if seqOn s q then some own else none } }
  else s

/-! ### Writes (R194) -/

/-- Does R194 refuse a clear of ISL: ROCOF or the vector shift above its threshold, whatever GRD_ISL enables, or the
active method's count at ADN? Log entry 21. -/
def islPresent (s : State) : Bool :=
  rocAbove s || vsAbove s || (s.on R.GRD_ISL_AISEN && s.get R.GRD_AIS_ADN != 0 && decide (s.get R.GRD_AIS_ADN ≤ s.grd.aisCnt))

/-- Is a TRIP point's timer above 0? -/
def tripRuns (s : State) : Bool :=
  (List.range 32).any (fun i => ptACT (pointWord s i) == 1 && decide (0 < tget (fun _ => 0) s.grd.timers i))

/-- A write of GRD_STAT (R194). -/
def writeGrdStat (d : Word) (s : State) : State :=
  let s0 := if tb d.toNat 21 then s.flag R.GRD_STAT_CLRERR false else s
  let s1 := if tb d.toNat 31 && s0.on R.GRD_STAT_TRIPPED then
      (if tripRuns s0 then s0.flag R.GRD_STAT_CLRERR true else s0.flag R.GRD_STAT_TRIPPED false) else s0
  let s2 := if tb d.toNat 30 && s1.on R.GRD_STAT_ISL then
      (if islPresent s1 then s1.flag R.GRD_STAT_CLRERR true else s1.flag R.GRD_STAT_ISL false) else s1
  syncGridHold s2

/-! ### Commands -/

/-- GRID_UPDATE (R182): t_gp after a completed round. -/
def execGridUpdate (s : State) : Host.Outcome State Fault Refusal :=
  .next (if s.grd.ready ∧ gridRuns s = true then gridStep { s with grd := { s.grd with ready := false } } else s)

/-- Has point `i` reached its TIME without acting yet? -/
def pointDue (s : State) (i : Nat) : Bool :=
  let w := pointWord s i
  let t := tget (fun _ => 0) s.grd.timers i
  ptActive s w && decide (0 < t) && decide (ptTIME w ≤ t) && !s.grd.acting.contains i

/-- A point acts (R191, R192). While TRIPPED is 1 a further TRIP is recorded and clears ENTOK, and neither counts nor raises. -/
def actPoint (i : Nat) (s : State) : State :=
  let w := pointWord s i
  let s1 := { s with grd := { s.grd with acting := i :: s.grd.acting, ceaseT := if ptACT w = 2 then 0 else s.grd.ceaseT } }
  if ptACT w = 2 then
    (if s1.on R.GRD_STAT_CEASE then s1
     else syncGridHold ((s1.flag R.GRD_STAT_CEASE true).inc R.GRD_CNT_CEASES))
  else
    let cv := if i < 16 then 1 else 2
    let s2 := dropEntok ((s1.put R.GRD_CAUSE_TCRV cv).put R.GRD_CAUSE_TPOINT (i % 16))
    if s.on R.GRD_STAT_TRIPPED then s2
    else
      occur kGTRIP gridScope (cv * 16 + i % 16)
        (syncGridHold ((s2.flag R.GRD_STAT_TRIPPED true).inc R.GRD_CNT_TRIPS))

/-- CURVE_POINT_ACT (R190–R192): a point whose timer has reached TIME acts. -/
def execCurvePointAct (freq : Bool) (p : Fin 16) (s : State) : Host.Outcome State Fault Refusal :=
  let i := p.val + (if freq then 16 else 0)
  .next (if gridRuns s && pointDue s i then actPoint i s else s)

/-- CEASE_RETURN (R192): no CEASE point has acted for RETDLY. A TRIP of the same update acts first, so that the hold has
no gap (R194). -/
def execCeaseReturn (s : State) : Host.Outcome State Fault Refusal :=
  .next (if s.on R.GRD_STAT_CEASE && !ceaseActs s && decide (s.get R.GRD_CRVCTL_RETDLY * steps1ms ≤ s.grd.ceaseT) then
      let s1 := forL (List.range 32) (fun i a =>
        if gridRuns a && ptACT (pointWord a i) == 1 && pointDue a i then actPoint i a else a) s
      syncGridHold (s1.flag R.GRD_STAT_CEASE false) else s)

/-- INJ_POST_END (R195): POST has passed since the last update with |Δ| > DB. -/
def execInjPostEnd (s : State) : Host.Outcome State Fault Refusal :=
  .next (if s.on R.GRD_STAT_INJ && decide (s.get R.GRD_RT_POST * steps10ms ≤ s.grd.injT) && decide (0 < s.grd.injT) then
      putOutp 15 0 (s.flag R.GRD_STAT_INJ false) else s)

/-- ENTOK_SET (R198): the conditions have held for DLY. -/
def execEntokSet (s : State) : Host.Outcome State Fault Refusal :=
  .next (if gridRuns s && gENTER s && entryHolds s
        && decide (s.get R.GRD_ENTD_DLY * stepsPerSecond ≤ s.grd.entT) then s.flag R.GRD_STAT_ENTOK true else s)

/-- GRD_TRIPPED_CLEAR (R194): a write of GRD_STAT. -/
def execGrdTrippedClear (d : PortWrite) (s : State) : Host.Outcome State Fault Refusal :=
  .next (guarded d.port R.GRD_STAT d.data (writeGrdStat d.data) s)

/-- GRD_ISL_CLEAR (R194): a write of GRD_STAT. -/
def execGrdIslClear (d : PortWrite) (s : State) : Host.Outcome State Fault Refusal :=
  .next (guarded d.port R.GRD_STAT d.data (writeGrdStat d.data) s)

end Sys2Proof.Machine
end

