-- ==== Sys2Proof/Machine/Sign.lean ====
section
/-!
DEFINITION. The queue of the signing engine (R283): one engine serves every signature and every Pattern verify.
-/
namespace Sys2Proof.Machine

/-- Is a request a Pattern verify? -/
def SignReq.isVerify : SignReq → Bool
  | .verify => true
  | .meter => false
  | .port _ _ => false
  | .remote _ _ _ => false
  | .host _ => false

/-- IDN_STAT.QUEUE counts the signing requests that wait: the first of the queue is in progress, unless the checks
after PD3 power-up run (Table 14.16). -/
def syncSign (s : State) : State :=
  let waiting := (s.idn.queue.drop (if s.idn.checking then 0 else 1)).filter (fun r => !r.isVerify)
  s.put R.IDN_STAT_QUEUE (min 15 waiting.length)

/-- A request takes its place: behind all others, but a Pattern verify goes ahead of every request that has not
started (R283). -/
def addSign (r : SignReq) (s : State) : State :=
  let q := s.idn.queue
  let q1 := if r.isVerify then (if s.idn.checking then r :: q else q.take 1 ++ r :: q.drop 1) else q ++ [r]
  syncSign { s with idn := { s.idn with queue := q1 } }

/-- The engine may sign: PD3 is on and neither KEYERR nor RNGERR is set (R280). -/
def signerOk (s : State) : Bool := domOn s 3 && !s.on R.IDN_STAT_KEYERR && !s.on R.IDN_STAT_RNGERR

/-- The signature over `body` by the device key, as its 64 bytes R and S (R283): ECDSA P-256 over SHA-256, whose
per-message secret is random, so free (log entry 1); where R or S would be 0 it is drawn once more, as FIPS 186-5 asks. -/
def freeSignature (body : List Byte) (s : State) : List Byte :=
  let h := sha256 body
  let draw (i : Nat) : Nat × Nat := ecdsaSign deviceKey h ((Config.freeValue (s.freeCtr + i)).toNat % (pN - 1) + 1)
  let sig := if (draw 0).1 = 0 ∨ (draw 0).2 = 0 then draw 1 else draw 0
  beBytes 32 sig.1 ++ beBytes 32 sig.2

/-- One signature has been made: IDN_SIGCNT counts it, and the free values for its secret were drawn. -/
def countSignature (s : State) : State := freeNext (freeNext (s.inc R.IDN_SIGCNT_CNT))

/-- The Pattern manager's verify of the queue begins or ends with its work (R49, R283). -/
def syncVerify (want : Bool) (s : State) : State :=
  let s1 := { s with idn := { s.idn with queue := s.idn.queue.filter (fun r => !r.isVerify) } }
  if want then addSign .verify s1 else syncSign s1

end Sys2Proof.Machine
end

