-- ==== Sys2Proof/Machine/Meter.lean ====
section
/-!
DEFINITION. Energy metering (spec/11): faults of its copies, samples, the ring, its signatures and its commands.
-/
namespace Sys2Proof.Machine

/-! ### Integrity (R223) -/

/-- MTR-INT with a cause of Table 11.5. -/
def mtrInt (cause : Nat) (s : State) : State :=
  occur kMTR meterScope cause ((s.put R.MTR_INTC_CAUSE cause).inc R.MTR_INTC_COUNT)

/-- Every accumulator restarts at 0: LOST, cause LOST, and the next record carries RESTART (R214). -/
def meterLost (s : State) : State :=
  mtrInt 3 ({ s with mtr := { s.mtr with kept := MtrCopy.zero, restart := true } }.flag R.MTR_STAT_LOST true)

/-- The retained copy is judged (R214): one that fails its check is replaced from the mirror, with RESTORED and cause
RESTORE; if the mirror fails too, everything restarts at 0. -/
def judgeKept (s : State) : State :=
  if s.mtr.kept.ok then s
  else if s.mram.meter.ok then
    mtrInt 2 ({ s with mtr := { s.mtr with kept := s.mram.meter, restored := true } }.flag R.MTR_STAT_RESTORED true)
  else meterLost s

/-- PD7 powers up: the running copy is loaded from the retained copy (R214). -/
def loadRunning (s : State) : State :=
  let s1 := judgeKept s
  { s1 with mtr := { s1.mtr with acc := s1.mtr.kept } }

/-- The Selvedge domain has powered up: the retained copy is loaded from the mirror, and the record counter from its own
(R214, R218). -/
def loadKept (s : State) : State :=
  let s1 := { s with mtr := { s.mtr with rcnt := s.mram.rcnt } }
  if s1.mram.meter.ok then { s1 with mtr := { s1.mtr with kept := s1.mram.meter } } else meterLost s1

/-- A channel starts metering: a window opens. -/
def startChannel (c : Nat) (s : State) : State :=
  setMtrCh s c { mtrCh s c with run := true, work := sealWords s c, win := MtrWin.zero, armed := false, crossed := false, since := 0 }

/-! ### Samples (R204–R207) -/

/-- One sample enters the open window. -/
def addSample (c : Nat) (v i : Int) (s : State) : State :=
  let x := mtrCh s c
  let xv := v * (x.work.getD 1 0 : Int)
  let xi := (if tb x.cfg 29 then -i else i) * (x.work.getD 2 0 : Int)
  let f := Config.realFn 40 [x.filt, xv]
  let vq := if x.isDc then 0 else f
  let w := x.win
  let w1 : MtrWin := ⟨w.n + 1, w.vv + xv * xv, w.ii + xi * xi, w.vi + xv * xi, w.qi + vq * xi⟩
  setMtrCh s c { x with win := w1, filt := f, since := x.since + 1, armed := x.armed || decide (v * 1200 < -(x.cfg % 256 : Nat) * 8388608) }

/-- Sample (v, i) of channel `c`: a crossing closes the window before it; a window of 640 samples closes after it. The
spacing of R205 is from the previous accepted crossing: the first one has none before it. Log entry 11. -/
def sampleChannel (c : Nat) (v i : Int) (s : State) : State :=
  let s0 := if (mtrCh s c).run then s
    else if s.on (R.MTR_CHCFG_CHEN c) && !s.on R.PAT_STAT_APPLYING then startChannel c s else s
  let x := mtrCh s0 c
  if !x.run then s0
  else
    let fb := s0.on (R.MTR_CHSTAT_ZCTO c)
    let cross := !x.isDc && x.armed && decide (0 ≤ v) && (fb || !x.crossed || decide (384 ≤ x.since))
    let s1 := if cross then closeWindow c false (s0.flag (R.MTR_CHSTAT_ZCTO c) false) else s0
    let s2 := if cross then setMtrCh s1 c { mtrCh s1 c with armed := false, crossed := true, since := 0 } else s1
    if !(mtrCh s2 c).run then s2
    else
      let s3 := addSample c v i s2
      let fixed := (mtrCh s3 c).isDc || s3.on (R.MTR_CHSTAT_ZCTO c)
      if fixed && decide (640 ≤ (mtrCh s3 c).win.n) then closeWindow c false s3 else s3

/-! ### The ring (R218–R222) -/

/-- MTR_RSTAT.PENDING counts the PENDING slots. -/
def syncRing (s : State) : State :=
  s.put R.MTR_RSTAT_PENDING ((List.range 16).filter (fun k => (ringSlot s k).st == 1)).length

/-- While PD3 is on, every PENDING slot has a request in the signing engine; a request that the identity unit refuses
raises MTR-INT with cause SIGN (R221, R223, R280). -/
def askMeterSign (s : State) : State :=
  let asked := (s.idn.queue.filter (· == .meter)).length
  let n := ((List.range 16).filter (fun k => (ringSlot s k).st == 1)).length
  if domOn s 3 ∧ asked < n then
    if signerOk s then forN (n - asked) (fun _ a => addSign .meter a) s else mtrInt 4 s
  else s

/-- The mirror of RCNT has been written: the slot becomes PENDING (R218). -/
def draftsDone (s : State) : State :=
  let s1 := forL s.mtr.drafts (fun d a =>
    ((setRingSlot a (d.1 % 16) ⟨1, d.2, []⟩).put R.MTR_RCNT_RCNT d.1).put R.MTR_RSTAT_NEWEST (d.1 % 16)) s
  askMeterSign (syncRing { s1 with mtr := { s1.mtr with drafts := [] } })

/-- The oldest PENDING slot, in RCNT order (R221). -/
def oldestPending (s : State) : Option Nat :=
  let k := (List.range 16).filter (fun k => (ringSlot s k).st == 1)
  let cnt (j : Nat) : Nat := leNat (slice (ringSlot s j).body 8 4)
  (k.foldl (fun a j => match a with
    | none => some j
    | some i => if cnt j < cnt i then some j else some i) (none : Option Nat))

/-- A slot is SIGNED with R and S: HST_EVT.MREC sets (R221, R330). -/
def signSlot (k : Nat) (sig : List Byte) (s : State) : State :=
  syncRing ((setRingSlot s k { ringSlot s k with st := 2, sig := sig }).flag R.HST_EVT_MREC true)

/-- Word `i` of ring slot `k` (R222). -/
def ringWord (s : State) (k i : Nat) : Word :=
  let r := ringSlot s k
  if i = 127 then BitVec.ofNat 32 r.st else BitVec.ofNat 32 (leAt (r.body ++ r.sig) (4 * i))

/-! ### Writes (R212, R216, R217) -/

/-- The interval registers of channel `c` are cleared (R212). -/
def clearInterval (c : Nat) (s : State) : State :=
  forL (List.range 7) (fun q a =>
    let x := mtrCh a c
    (setMtrCh a c { x with aclr := tset (fun _ => 0) x.aclr q (accOf a c q) }).setWord (R.MTR_IWRAP c q) 0) s

/-- A write of MTR_CTL: ICLR, NOW, EN. -/
def writeMtrCtl (d : Word) (s : State) : State :=
  let en := tb d.toNat 0
  let s1 := forL [0, 1, 2, 3] (fun c a => if tb d.toNat (8 + c) then clearInterval c a else a) s
  let s2 := if tb d.toNat 1 then { s1 with mtr := { s1.mtr with askNow := true } } else s1
  if en && !s2.on R.MTR_CTL_EN then
    let s3 := s2.flag R.MTR_CTL_EN true
    { s3 with mtr := { s3.mtr with started := rtcMs s3 } }
  else if !en && s2.on R.MTR_CTL_EN then stopMetering (s2.flag R.MTR_CTL_EN false)
  else s2

/-- Is an address a SEAL register? -/
def sealAddr (a : Nat) : Bool :=
  a == R.MTR_RCFG || (decide (0x0A1000 ≤ a) && decide (a < 0x0A1400) && decide (a % 0x100 < 0x50))

/-- A write of a SEAL field: accepted while not SEALED, with CALDIRTY; read only else (R216). -/
def writeSeal (a : Nat) (d : Word) (s : State) : State :=
  if s.get R.PAT_STAT_SEAL = 2 then s else (plainWrite a d s).flag R.MTR_STAT_CALDIRTY true

/-! ### Commands -/

/-- MTR_SAMPLE (R204–R207): one sample (voltage, current) for each channel. -/
def execMtrSample (xs : List (BitVec 24 × BitVec 24)) (s : State) : Host.Outcome State Fault Refusal :=
  .next (if mtrRuns s then
      forL [0, 1, 2, 3] (fun c a => sampleChannel c (xs.getD c (0, 0)).1.toInt (xs.getD c (0, 0)).2.toInt a) (newEvent s)
    else s)

/-- MTR_ZC_TIMEOUT (R206): t_zto, 1,920 samples, without an accepted crossing. -/
def execMtrZcTimeout (ch : Fin 4) (s : State) : Host.Outcome State Fault Refusal :=
  .next (
    let x := mtrCh s ch
    if mtrRuns s && x.run && !x.isDc && !s.on (R.MTR_CHSTAT_ZCTO ch) && decide (1920 ≤ x.since) then
      let s1 := closeWindow ch.val false (((newEvent s).flag (R.MTR_CHSTAT_ZCTO ch) true).inc (R.MTR_CNT_ZCTOCNT ch))
      { s1 with mtr := { s1.mtr with spanZc := s1.mtr.spanZc ||| 2 ^ ch.val } }
    else s)

/-- MTR_WINDOW_UPDATE (R210, R217, R223): t_mc after a close; `differ` says that the two computations differ. Log entry 12. -/
def execMtrWindowUpdate (ch : Fin 4) (differ : Bool) (s : State) : Host.Outcome State Fault Refusal :=
  .next (
    let x := mtrCh s ch
    match x.closed with
    | [] => s
    | w :: t =>
      let s1 := takeWindow ch.val w (setMtrCh s ch { x with closed := t })
      takeDues (askMeterSign (if differ then mtrInt 1 { s1 with mtr := { s1.mtr with integ := true } } else s1)))

/-- METER_INTERVAL_BOUNDARY (R217): the first window close at or after it takes the snapshot, also where EN is 0 at the
boundary. -/
def execMeterIntervalBoundary (s : State) : Host.Outcome State Fault Refusal :=
  .next (if s.part.isM && domOn s 7 then { s with mtr := { s.mtr with askBound := true } } else s)

/-- The word of MTR_CTL from its parts. -/
def mtrCtlWord (chs : BitVec 4) (now en : Bool) : Word := BitVec.ofNat 32 (chs.toNat * 256 + bit now * 2 + bit en)

/-- MTR_ICLR (R212). -/
def execMtrIclr (chs : BitVec 4) (port : Nat) (en : Bool) (s : State) : Host.Outcome State Fault Refusal :=
  .next (guarded port R.MTR_CTL (mtrCtlWord chs false en) (writeMtrCtl (mtrCtlWord chs false en)) s)

/-- MTR_NOW (R217). -/
def execMtrNow (port : Nat) (en : Bool) (s : State) : Host.Outcome State Fault Refusal :=
  .next (guarded port R.MTR_CTL (mtrCtlWord 0 true en) (writeMtrCtl (mtrCtlWord 0 true en)) s)

/-- MTR_EN_WRITE (R217). -/
def execMtrEnWrite (port : Nat) (en : Bool) (s : State) : Host.Outcome State Fault Refusal :=
  .next (guarded port R.MTR_CTL (mtrCtlWord 0 false en) (writeMtrCtl (mtrCtlWord 0 false en)) s)

/-- MTR_SEAL_FIELD_WRITE (R216): `a` is the offset in the MTR range; other addresses hold no SEAL field. -/
def execMtrSealFieldWrite (a : BitVec 16) (d : PortWrite) (s : State) : Host.Outcome State Fault Refusal :=
  let ad := 0x0A0000 + a.toNat
  .next (guarded d.port ad d.data (fun t => if sealAddr ad then writeSeal ad d.data t else t) s)

end Sys2Proof.Machine
end

