-- ==== Sys2Proof/Machine/Overlock.lean ====
section
/-!
DEFINITION. The overlock units (R270–R279) and the identity unit up to the signing engine (R280–R285); the engine's
completions are in Fabric.lean, which sends what it signs for other modules.
-/
namespace Sys2Proof.Machine

/-! ### Overlock units -/

/-- The own state of unit `u`. -/
def ovlSt (s : State) (u : Nat) : OvlSt := tget (fun _ => OvlSt.zero) s.ovl u
def setOvlSt (s : State) (u : Nat) (x : OvlSt) : State := { s with ovl := tset (fun _ => OvlSt.zero) s.ovl u x }

/-- A valid parameter set (R272). -/
def OvlPar.valid (p : OvlPar) : Bool :=
  decide (3 ≤ p.width) && decide (p.width ≤ 64) && p.poly % 2 == 1 && decide (p.poly < 2 ^ p.width)
    && decide (p.init < 2 ^ p.width) && decide (p.xor < 2 ^ p.width)

/-- The result of unit `u`'s stream so far (R271, R273); 0 on a role unit (R274). -/
def ovlResult (s : State) (u : Nat) : Nat :=
  let x := ovlSt s u
  if s.get (R.OVL_CFG_ROLE u) = 0 then crcOut x.par.width x.par.refout x.par.xor x.reg else 0

/-- A discarded data or command write of a unit: PORTERR and HST_STAT.DISCARDED (R273, R274). -/
def ovlDiscard (u p a : Nat) (s : State) : State := discarded p a (s.flag (R.OVL_STAT_PORTERR u) true)

/-- A write of OVL_CMD (R273, R274). -/
def writeOvlCmd (u p : Nat) (d : Word) (s : State) : State :=
  if s.get (R.OVL_CFG_ROLE u) ≠ 0 then ovlDiscard u p (R.OVL_CMD u) s
  else match bitsOf d 0 2 with
    | 1 =>
      let par := ovlParOf s u
      let s1 := setOvlSt s u { ovlSt s u with par := par, reg := par.init }
      ((s1.flag (R.OVL_STAT_OPEN u) true).put (R.OVL_STAT_OWNER u) p).put (R.OVL_STAT_NBYTES u) 0
    | 2 => s.flag (R.OVL_STAT_OPEN u) false
    | _ => s

/-- Bytes fed to the open stream of unit `u` through port `p` (R273). -/
def feedOvl (u p a : Nat) (bs : List Byte) (s : State) : State :=
  if s.get (R.OVL_CFG_ROLE u) ≠ 0 ∨ s.on (R.OVL_STAT_OPEN u) = false ∨ s.get (R.OVL_STAT_OWNER u) ≠ p then
    ovlDiscard u p a s
  else
    let x := ovlSt s u
    (setOvlSt s u { x with reg := bs.foldl (crcByte x.par.width x.par.poly x.par.refin) x.reg }).put
      (R.OVL_STAT_NBYTES u) (s.get (R.OVL_STAT_NBYTES u) + bs.length)

/-- A write of OVL_DIN4 or OVL_DIN1. -/
def writeOvlDin4 (u p : Nat) (d : Word) (s : State) : State := feedOvl u p (R.OVL_DIN4 u) (leBytes 4 d.toNat) s
def writeOvlDin1 (u p : Nat) (d : Word) (s : State) : State := feedOvl u p (R.OVL_DIN1 u) (leBytes 1 d.toNat) s

/-- A write of OVL_CFG or a parameter register (R272, R274): refused with CFGERR while a stream is open or where it
leaves the set invalid; the registers of a role unit are read only (R54). -/
def writeOvlPar (u a : Nat) (d : Word) (s : State) : State :=
  if s.get (R.OVL_CFG_ROLE u) ≠ 0 then s
  else
    let s1 := plainWrite a d s
    if s.on (R.OVL_STAT_OPEN u) || !(ovlParOf s1 u).valid then s.flag (R.OVL_STAT_CFGERR u) true else s1

/-- A write of OVL_ACFG (R278, Table 14.13). -/
def writeOvlAcfg (u : Nat) (d : Word) (s : State) : State :=
  if bitsOf d 30 2 = 3 then s.flag (R.OVL_ASTAT_ERR u) true
  else
    let s1 := plainWrite (R.OVL_ACFG u) d s
    if s.on (R.OVL_ACFG_AEN u) || s1.on (R.OVL_ACFG_AEN u) then setOvlSt s1 u { ovlSt s1 u with fresh := true } else s1

/-- Counter bits of OVL_ACFG.AW. -/
def aliveBits (aw : Nat) : Nat := if aw = 0 then 4 else if aw = 1 then 8 else 16

/-- The result code of Table 14.4 for a difference `d`. Log entry 14. -/
def aliveResult (fresh : Bool) (d inc tol : Nat) : Nat :=
  if fresh then 1
  else if d = inc then 2
  else if (List.range tol).any (fun k => d == (k + 2) * inc) then 3
  else if d = 0 then 4
  else 5

/-- A value fed to the checker of unit `u` (R278, Table 14.4). -/
def writeOvlAfeed (u : Nat) (d : Word) (s : State) : State :=
  if s.on (R.OVL_ACFG_AEN u) then
    let m := 2 ^ aliveBits (s.get (R.OVL_ACFG_AW u))
    let x := bitsOf d 0 16 % m
    let l := s.get (R.OVL_ASTAT_LAST u)
    let r := aliveResult (ovlSt s u).fresh ((x + m - l % m) % m) (max 1 (s.get (R.OVL_ACFG_INC u))) (s.get (R.OVL_ACFG_TOL u))
    let s1 := (setOvlSt s u { ovlSt s u with fresh := false }).put (R.OVL_ASTAT_RES u) r
    let s2 := if r = 4 then s1 else s1.put (R.OVL_ASTAT_LAST u) x
    let s3 := if r = 3 then s2.inc (R.OVL_ASKIP_CNT u) else s2
    if 4 ≤ r then (s3.flag (R.OVL_ASTAT_ERR u) true).inc (R.OVL_ASTAT_ERRCNT u) else s3
  else s.flag (R.OVL_ASTAT_ERR u) true

/-- A write into the block of unit `u` at address `a`. -/
def writeOvl (u p a : Nat) (d : Word) (s : State) : State :=
  match a % 0x40 with
  | 0x1C => writeOvlCmd u p d s
  | 0x20 => writeOvlDin4 u p d s
  | 0x24 => writeOvlDin1 u p d s
  | 0x34 => writeOvlAcfg u d s
  | 0x38 => writeOvlAfeed u d s
  | o => if o < 0x1C then writeOvlPar u a d s else plainWrite a d s

/-! ### Overlock commands -/

/-- OVL_START (R273). -/
def execOvlStart (u : Fin 16) (port : Nat) (s : State) : Host.Outcome State Fault Refusal :=
  .next (guarded port (R.OVL_CMD u) 1 (writeOvlCmd u port 1) s)

/-- OVL_END (R273). -/
def execOvlEnd (u : Fin 16) (port : Nat) (s : State) : Host.Outcome State Fault Refusal :=
  .next (guarded port (R.OVL_CMD u) 2 (writeOvlCmd u port 2) s)

/-- OVL_DIN4 (R273). -/
def execOvlDin4 (u : Fin 16) (w : PortWrite) (s : State) : Host.Outcome State Fault Refusal :=
  .next (guarded w.port (R.OVL_DIN4 u) w.data (writeOvlDin4 u w.port w.data) s)

/-- OVL_DIN1 (R273). -/
def execOvlDin1 (u : Fin 16) (w : PortWrite) (s : State) : Host.Outcome State Fault Refusal :=
  .next (guarded w.port (R.OVL_DIN1 u) w.data (writeOvlDin1 u w.port w.data) s)

/-- The parameter registers of a unit: OVL_CFG, then POLY, INIT and XOR, low words first. -/
def ovlParReg (u k : Nat) : Nat := R.OVL_CFG u + 4 * k

/-- OVL_PARAM_WRITE (R272). -/
def execOvlParamWrite (u : Fin 16) (k : Fin 7) (w : PortWrite) (s : State) : Host.Outcome State Fault Refusal :=
  .next (guarded w.port (ovlParReg u k) w.data (writeOvlPar u (ovlParReg u k) w.data) s)

/-- OVL_ACFG_WRITE (R278). -/
def execOvlAcfgWrite (u : Fin 16) (w : PortWrite) (s : State) : Host.Outcome State Fault Refusal :=
  .next (guarded w.port (R.OVL_ACFG u) w.data (writeOvlAcfg u w.data) s)

/-- OVL_AFEED (R278). -/
def execOvlAfeed (u : Fin 16) (w : PortWrite) (s : State) : Host.Outcome State Fault Refusal :=
  .next (guarded w.port (R.OVL_AFEED u) w.data (writeOvlAfeed u w.data) s)

/-! ### Attestation -/

/-- Bytes 0x00–0x7F of an attestation report over a nonce (Table 14.7); `far` says that it is requested over the
fabric. -/
def reportBody (nonce : List Byte) (far : Bool) (s : State) : List Byte :=
  let loaded := s.on R.PAT_STAT_LOADED
  let timeinv := if s.part.isM then !s.on R.PWR_STAT_RTCVAL else true
  let flags := s.get R.PAT_STAT_SEAL + 4 * bit loaded + 8 * bit (s.on R.PAT_STAT_CONFIRMED) + 16 * bit timeinv + 32 * bit far
  let rcnt := if s.part.isM then (if domOn s 7 then s.get R.MTR_RCNT_RCNT else s.mtr.rcnt) else 0
  [0x54, 0x51, 0x41, 0x54] ++ leBytes 2 1 ++ leBytes 2 flags
    ++ leBytes 8 Config.deviceSerial.toNat ++ nonce
    ++ (if loaded then wordsBe s R.PAT_DIGEST 8 else List.replicate 32 0)
    ++ leBytes 4 s.part.caps0 ++ leBytes 4 (caps1 s) ++ leBytes 4 (s.get R.PAT_SEALCNT_CNT) ++ leBytes 4 rcnt
    ++ leBytes 4 (s.get R.FLT_NEXTSEQ_SEQ) ++ leBytes 4 (s.word R.PWR_BOOT_CAUSE).toNat ++ leBytes 2 s.ledgerSeq
    ++ leBytes 1 (retiredCount s) ++ leBytes 1 (s.get R.FLT_LOGINFO_EPOCH) ++ leBytes 8 (rtcMs s)
    ++ leBytes 4 (s.word R.PAT_IMGVER).toNat ++ List.replicate 8 0

/-- IDN_NONCE0–7 as bytes. -/
def hostNonce (s : State) : List Byte := wordsBe s R.IDN_NONCE 8

/-- Write bytes into a window of words, byte 4i in bits [7:0] of word i. -/
def putWindow (base : Nat) (bs : List Byte) (s : State) : State :=
  forL (List.range (bs.length / 4)) (fun k a => a.setWord (base + 4 * k) (BitVec.ofNat 32 (leAt bs (4 * k)))) s

/-! ### IDN_CMD -/

/-- The staged hash (R282). -/
def stagedHash (s : State) : Nat := beNat (wordsBe s R.IDN_KSTAGE 8)

/-- The reason against a command (R285, Tables 14.8 and 14.9); 0 where it is accepted. -/
def idnJudge (guard : Bool) (c : Nat) (s : State) : Nat :=
  if !guard then 1
  else if c ≠ 1 ∧ c ≠ 2 then 8
  else if s.on R.IDN_STAT_BUSY then 2
  else if c = 1 then (if s.on R.IDN_STAT_KEYERR then 6 else if s.on R.IDN_STAT_RNGERR then 7 else 0)
  else if mode s ≠ mBASTING then 3
  else if s.on R.IDN_STAT_KEYSET || s.on R.IDN_STAT_KFAIL then 4
  else if stagedHash s = 0 ∨ stagedHash s = 2 ^ 256 - 1 then 5
  else 0

/-- A write of IDN_CMD (R282, R285). -/
def writeIdnCmd (d : Word) (s : State) : State :=
  let c := bitsOf d 0 4
  let e := idnJudge (guardOk d) c s
  let s1 := s.put R.IDN_STAT_ERR e
  if e ≠ 0 then s1.flag R.IDN_STAT_CMDERR true
  else
    let s2 := s1.flag R.IDN_STAT_BUSY true
    if c = 1 then addSign (.host (reportBody (hostNonce s) false s)) s2
    else { s2 with idn := { s2.idn with fusing := some (stagedHash s) } }

/-- An identity command ends: BUSY clears, DONE sets. -/
def idnDone (s : State) : State := (s.flag R.IDN_STAT_BUSY false).flag R.IDN_STAT_DONE true

/-- ATTEST (R285). -/
def execAttest (c : PortCmd) (s : State) : Host.Outcome State Fault Refusal :=
  .next (guarded c.port R.IDN_CMD (ctlWord c 1) (writeIdnCmd (ctlWord c 1)) s)

/-- FUSE_KEY (R282). -/
def execFuseKey (c : PortCmd) (s : State) : Host.Outcome State Fault Refusal :=
  .next (guarded c.port R.IDN_CMD (ctlWord c 2) (writeIdnCmd (ctlWord c 2)) s)

/-- FUSE_KEY_DONE (R282): `fused` is the pattern read back after at most eight attempts. -/
def execFuseKeyDone (fused : BitVec 256) (s : State) : Host.Outcome State Fault Refusal :=
  .next (match s.idn.fusing with
    | none => s
    | some h =>
      let bs := beBytes 32 fused.toNat
      let s1 := forL (List.range 8) (fun k a =>
        a.setWord (R.IDN_KHASH k) (BitVec.ofNat 32 (beNat (slice bs (4 * k) 4)))) s
      let s2 := if fused.toNat = h then s1.flag R.IDN_STAT_KEYSET true else s1.flag R.IDN_STAT_KFAIL true
      idnDone { s2 with idn := { s2.idn with fusing := none } })

/-- KEY_CHECK_DONE (R280): the checks after PD3 power-up end, and the requests that waited go on. -/
def execKeyCheckDone (keyOk rngOk : Bool) (s : State) : Host.Outcome State Fault Refusal :=
  .next (if s.idn.checking then
      let s1 := (s.flag R.IDN_STAT_KEYERR (s.on R.IDN_STAT_KEYERR || !keyOk)).flag R.IDN_STAT_RNGERR
        (s.on R.IDN_STAT_RNGERR || !rngOk)
      syncSign { s1 with idn := { s1.idn with checking := false } }
    else s)

/-- RNG_HEALTH_FAIL (R280). -/
def execRngHealthFail (s : State) : Host.Outcome State Fault Refusal :=
  .next (if domOn s 3 then s.flag R.IDN_STAT_RNGERR true else s)

end Sys2Proof.Machine
end

