-- ==== Sys2Proof/Machine/Hem.lean ====
section
/-!
DEFINITION. The hem (spec/12): the safety tick and its order (R234), SPO_N, paired inputs, SRST and the valid reset,
HVIL, contactors, hem frames, the self-test and the discharge request.
-/
namespace Sys2Proof.Machine

/-! ### Wires and pairs (R231, R232) -/

/-- One tick of a sampled wire: the sample of the tick before is used now (R231). Log entry 50. -/
def stepWire (level : Bool) (flt : Nat) (w : WireSt) : WireSt :=
  let u := w.sample
  let r := if u == w.last then min 16 (w.run + 1) else 1
  { sample := level, last := u, run := r, acc := if flt + 1 ≤ r then u else w.acc }

/-- Wire `i` of the pairs: 2p is SINpA, 2p + 1 is SINpB. -/
def wireSt (s : State) (i : Nat) : WireSt := tget (fun _ => WireSt.zero) s.saf.wires i
def setWireSt (s : State) (i : Nat) (w : WireSt) : State :=
  { s with saf := { s.saf with wires := tset (fun _ => WireSt.zero) s.saf.wires i w } }

/-- N of a pair, in ticks (R232). -/
def pairN (s : State) (p : Nat) : Nat := s.get (R.SAF_PCFG_DISC p) * 10

/-- Does pair `p` demand (R231)? -/
def pairDemand (s : State) (p : Nat) : Bool :=
  let a := s.on (R.SAF_PSTAT_PA p)
  let b := s.on (R.SAF_PSTAT_PB p)
  s.on (R.SAF_PCFG_EN p) && (s.on (R.SAF_PSTAT_DISCF p) || (if s.on (R.SAF_PCFG_MODE p) then !a && !b else !a || !b))

/-- The discrepancy count reaches its limit: DISCF sets, NFAULT counts, DCNT holds at N (R232). -/
def markDisc (p : Nat) (s : State) : State :=
  ((s.flag (R.SAF_PSTAT_DISCF p) true).inc (R.SAF_PSTAT_NFAULT p)).put (R.SAF_PSTAT_DCNT p) (pairN s p)

/-- Steps 1 to 3 of R234 for pair `p`. -/
def pairTick (wires : Nat) (p : Nat) (s : State) : State :=
  let f := s.get (R.SAF_PCFG_FLT p)
  let a := stepWire (tb wires (2 * p)) f (wireSt s (2 * p))
  let b := stepWire (tb wires (2 * p + 1)) f (wireSt s (2 * p + 1))
  let pb := b.acc != s.on (R.SAF_PCFG_INVB p)
  let s1 := ((setWireSt (setWireSt s (2 * p) a) (2 * p + 1) b).flag (R.SAF_PSTAT_PA p) a.acc).flag (R.SAF_PSTAT_PB p) pb
  if s.on (R.SAF_PCFG_EN p) = false ∨ s.on (R.SAF_PSTAT_DISCF p) = true then s1
  else if a.acc = pb then s1.put (R.SAF_PSTAT_DCNT p) 0
  else
    let c := s.get (R.SAF_PSTAT_DCNT p) + 1
    if pairN s p ≤ c then markDisc p s1 else s1.put (R.SAF_PSTAT_DCNT p) c

/-! ### HVIL (R236) -/

/-- The current of the bit of CODE that is driven, in 10 µA (most significant bit first). -/
def hvExpected (s : State) : Nat := if tb (s.get R.SAF_HVIL_CODE) (15 - s.saf.hvPos % 16) then 1000 else 400

/-- What HVIL_SRC drives, in 10 µA: nothing with PD1 off or HVEN 0 (Table 19.4). -/
def hvSource (s : State) : Nat := if domOn s 1 && s.on R.SAF_HVIL_HVEN then hvExpected s else 0

/-- One bit of the loop is measured against what is driven. -/
def hvilBit (i : Nat) (s : State) : State :=
  let e := hvSource s
  let miss := decide (i + 150 < e) || decide (e + 150 < i)
  let s1 := s.put R.SAF_HVST_IRET i
  let m := if miss then s.saf.misses + 1 else 0
  let h := if miss then 0 else min 16 (s.saf.hits + 1)
  let s2 := { s1 with saf := { s1.saf with hvPos := (s.saf.hvPos + 1) % 16, misses := min 2 m, hits := h,
                                           hvPend := s.saf.hvPend || decide (2 ≤ m) } }
  let s3 := s2.flag R.SAF_HVST_OK (h == 16)
  if miss then (s3.inc R.SAF_HVST_MISCNT).put R.SAF_HVST_KIND (if i < e then 1 else 2) else s3

/-- Where HVEN rises against the configuration of `was`, CODE begins at its most significant bit, and no bit of the loop
has been measured yet. -/
def hvilStart (was s : State) : State :=
  if !was.on R.SAF_HVIL_HVEN && s.on R.SAF_HVIL_HVEN then
    { s.flag R.SAF_HVST_OK false with saf := { s.saf with hvPos := 0, misses := 0, hits := 0, hvPend := false } }
  else s

/-- Two consecutive misses set FAULT at the next tick. -/
def hvilTick (s : State) : State :=
  if s.saf.hvPend then { s.flag R.SAF_HVST_FAULT true with saf := { s.saf with hvPend := false } } else s

/-! ### Contactors (R238) -/

/-- CTR_FB`k` after FBPOL: is the contactor closed? -/
def fbClosed (s : State) (k : Nat) (level : Bool) : Bool := level == s.on (R.SAF_CCFG_FBPOL k)

/-- SAF_CTR.FB takes one read-back. -/
def putFb (k : Nat) (level : Bool) (s : State) : State :=
  let f := s.get R.SAF_CTR_FB
  let v := fbClosed s k level
  if tb f k == v then s else s.put R.SAF_CTR_FB (if v then f + 2 ^ k else f - 2 ^ k)

/-- Is the read-back of contactor `k` wrong, TFB having passed since the last change of its enable? -/
def fbWrong (s : State) (k : Nat) : Bool :=
  match (tget (fun _ => CtrSt.zero) s.saf.ctrs k).changedAt with
  | none => false
  | some t => s.on (R.SAF_CCFG_EN k) && decide (t + 10 * s.get (R.SAF_CCFG_TFB k) < s.tick)
      && tb (s.get R.SAF_CTR_FB) k != tb (s.get R.SAF_CTR_EN) k

/-- A wrong read-back sets FBERR. -/
def markFb (k : Nat) (s : State) : State :=
  if fbWrong s k && !tb (s.get R.SAF_CTR_FBERR) k then s.put R.SAF_CTR_FBERR (s.get R.SAF_CTR_FBERR + 2 ^ k) else s

/-! ### Receive streams (R241) -/

/-- The own state of stream `k`. -/
def streamSt (s : State) (k : Nat) : StreamSt := tget (fun _ => StreamSt.zero) s.saf.streams k
def setStreamSt (s : State) (k : Nat) (x : StreamSt) : State :=
  { s with saf := { s.saf with streams := tset (fun _ => StreamSt.zero) s.saf.streams k x } }

def eMISMATCH := 1
def eMISSING := 2
def eREPEAT := 3
def eSKIP := 4
def eLOST := 5

/-- An error of stream `k` (Table 12.4): ERR, LASTERR, ERRCNT; one fault per episode is owed at the next tick. -/
def streamError (k e : Nat) (s : State) : State :=
  let x := streamSt s k
  let g := if e = eREPEAT ∨ e = eLOST then x.goodAt else none
  let s1 := setStreamSt s k { x with goodAt := g, owed := x.owed || !x.raised, raised := true }
  ((s1.flag (R.SAF_HRXSTAT_ERR k) true).put (R.SAF_HRXSTAT_LASTERR k) e).inc (R.SAF_HRXSTAT_ERRCNT k)

/-- The window of stream `k` closes. -/
def closeStream (k : Nat) (s : State) : State :=
  (setStreamSt s k { streamSt s k with window := none }).flag (R.SAF_HRXSTAT_WOPEN k) false

/-- A copy with no window open: it opens one, or is a REPEAT. -/
def openStream (k : Nat) (bus : Nat) (bs : List Byte) (s : State) : State :=
  let x := streamSt s k
  let c := leNat (slice bs 8 1)
  if x.seen = true ∧ x.counter = c then streamError k eREPEAT s
  else (setStreamSt s k { x with window := some (c, bus, bs.take 10, s.tick), openedAt := s.tick, lost := false }).flag
    (R.SAF_HRXSTAT_WOPEN k) true

/-- A pair is delivered. -/
def deliverPair (k c : Nat) (bs : List Byte) (s : State) : State :=
  let s1 := setStreamSt s k { streamSt s k with raised := false, goodAt := some s.tick, permit := tb (leNat (bs.take 1)) 0 }
  (((s1.setWord (R.SAF_HRXD0 k) (BitVec.ofNat 32 (leAt bs 0))).setWord (R.SAF_HRXD1 k) (BitVec.ofNat 32 (leAt bs 4))).put
    (R.SAF_HRXSTAT_ALIVE k) c).inc (R.SAF_HRXCNT_ACC k)

/-- A pair with counter `c` is accepted: delivered, delivered with a skip, or a SKIP. -/
def acceptPair (k c : Nat) (bs : List Byte) (s : State) : State :=
  let x := streamSt s k
  let j := (c + 255 - x.counter) % 256
  let s1 := setStreamSt s k { x with seen := true, counter := c }
  if x.seen = false ∨ j = 0 then deliverPair k c bs s1
  else if j ≤ s.get (R.SAF_HRXTIM_SKTOL k) then (deliverPair k c bs s1).inc (R.SAF_HRXCNT_SKIPS k)
  else streamError k eSKIP s1

/-- A valid copy on a bus (0 A, 1 B). -/
def streamCopy (k bus : Nat) (bs : List Byte) (s : State) : State :=
  match (streamSt s k).window with
  | none => openStream k bus bs s
  | some (c, b, bytes, _) =>
    let s1 := closeStream k s
    if bus = b then openStream k bus bs (streamError k eMISSING s1)
    else if bs.take 10 = bytes then acceptPair k c bs s1
    else streamError k eMISMATCH s1

/-- The overlock unit of a bus (SAF_CFG.OLA, OLB). -/
def hemUnit (s : State) (bus : Nat) : Nat := if bus = 0 then s.get R.SAF_CFG_OLA else s.get R.SAF_CFG_OLB

/-- The CRC of bytes 0–11 by a bus's unit (R240, R271). -/
def hemCrc (s : State) (bus : Nat) (bs : List Byte) : Nat := (ovlParOf s (hemUnit s bus)).check (bs.take 12)

/-- The stream that an identifier belongs to (R333). -/
def hemStream (s : State) (xid : Bool) (id : Nat) : Option Nat :=
  [0, 1, 2, 3].find? (fun k => s.on (R.SAF_HRXCFG_EN k) && s.on (R.SAF_HRXCFG_XID k) == xid && s.get (R.SAF_HRXID_ID k) == id)

/-- A frame with the identifier of stream `k` is judged (R241). -/
def hemFrame (k bus : Nat) (bs : List Byte) (s : State) : State :=
  if bs.length = 16 ∧ leNat (slice bs 9 1) = s.get (R.SAF_HRXCFG_FID k) ∧ slice bs 10 2 = [0, 0]
      ∧ leNat (slice bs 12 4) = hemCrc s bus bs
  then streamCopy k bus bs s
  else s.inc (R.SAF_HRXCNT_BAD k)

/-- A tick at or after the opening time + WIN finds the window still open: a MISSING. -/
def streamExpire (k : Nat) (s : State) : State :=
  match (streamSt s k).window with
  | some (_, _, _, t) =>
    if t + 10 * s.get (R.SAF_HRXTIM_WIN k) < s.tick then streamError k eMISSING (closeStream k s) else s
  | none => s

/-- PER + WIN without a window opened: a LOST, once until the next window. -/
def streamLost (k : Nat) (s : State) : State :=
  let x := streamSt s k
  if s.on (R.SAF_HRXCFG_EN k) = true ∧ x.lost = false
      ∧ x.openedAt + 10 * (s.get (R.SAF_HRXTIM_PER k) + s.get (R.SAF_HRXTIM_WIN k)) < s.tick
  then streamError k eLOST (setStreamSt s k { x with lost := true })
  else s

/-- Does stream `k` demand (R241)? -/
def streamDemand (s : State) (k : Nat) : Bool :=
  s.on (R.SAF_HRXCFG_EN k) && ((s.on (R.SAF_HRXSTAT_ERR k) && s.on (R.SAF_HRXCFG_DEM k))
    || (s.on (R.SAF_HRXCFG_PERM k) && !(streamSt s k).permit))

/-! ### Demands (Table 12.2) -/

/-- The demands present, by LCAUSE bit, ascending. -/
def demands (s : State) : List Nat :=
  let f (b : Nat) (c : Bool) : List Nat := if c then [b] else []
  f 1 (s.on R.SAF_STAT_SPO) ++ (List.range 4).flatMap (fun p => f (2 + p) (s.on (R.SAF_PSTAT_DEM p)))
    ++ f 6 (s.on R.SAF_STAT_HVDEM) ++ f 7 (s.on R.SAF_STAT_HRXDEM) ++ f 8 (s.on R.SAF_STAT_T4) ++ f 9 (s.on R.SAF_STAT_STFAIL)
    ++ f 10 ((List.range 4).any (fun k => tb (s.get R.SAF_CTR_FBERR) k && s.on (R.SAF_CCFG_FBDEM k)))

/-- Step 5 of R234: the demands that act at a tick are formed. -/
def formDemands (s : State) : State :=
  let s1 := forL (List.range 4) (fun p a => a.flag (R.SAF_PSTAT_DEM p) (pairDemand a p)) s
  ((s1.put R.SAF_STAT_PDEM (mapBits 4 0 (fun p => s1.on (R.SAF_PSTAT_DEM p)))).flag R.SAF_STAT_HVDEM
    (s1.on R.SAF_HVST_FAULT && s1.on R.SAF_HVIL_HVDEM)).flag R.SAF_STAT_HRXDEM
    ((List.range 4).any (streamDemand s1))

/-- SAF_STAT.DEMAND as it is read (Table 12.11). -/
def demandPresent (s : State) : Bool := !(demands s).isEmpty

/-! ### SRST (R233, R235) -/

/-- A valid reset clears every latched fault whose condition is absent (R235). -/
def resetFaults (s : State) : State :=
  let s1 := forL (List.range 4) (fun p a =>
    if a.on (R.SAF_PSTAT_PA p) && a.on (R.SAF_PSTAT_PB p) && a.on (R.SAF_PSTAT_DISCF p) then
      (a.flag (R.SAF_PSTAT_DISCF p) false).put (R.SAF_PSTAT_DCNT p) 0
    else a) s
  let s2 := if s1.on R.SAF_HVST_OK then s1.flag R.SAF_HVST_FAULT false else s1
  let s3 := forL (List.range 4) (fun k a =>
    match (streamSt a k).goodAt with
    | some t => if a.tick ≤ t + 10 * (a.get (R.SAF_HRXTIM_PER k) + a.get (R.SAF_HRXTIM_WIN k)) then
        a.flag (R.SAF_HRXSTAT_ERR k) false else a
    | none => a) s2
  let e := mapBits 4 0 (fun k => tb (s3.get R.SAF_CTR_FBERR) k && tb (s3.get R.SAF_CTR_FB) k != tb (s3.get R.SAF_CTR_EN) k)
  let s4 := s3.put R.SAF_CTR_FBERR e
  if s4.saf.passed then s4.flag R.SAF_STAT_STFAIL false else s4

/-- A valid reset (R235). -/
def validReset (s : State) : State :=
  let s1 := formDemands (resetFaults (s.inc R.SAF_RSTS_VALID))
  if demandPresent s1 then (s1.flag R.SAF_RSTS_REFUSED true).inc R.SAF_RSTS_REFCNT
  else if s1.on R.SAF_STAT_LATCH then hemClear s1
  else s1

/-- SRST held high for 20,001 ticks is stuck. -/
def markStuck (s : State) : State := if s.saf.high = 20001 then s.flag R.SAF_RSTS_STUCK true else s

/-- Step 6 of R234: SRST is evaluated on its used value. -/
def srstTick (level : Bool) (s : State) : State :=
  let w := stepWire level 0 s.saf.srst
  let h := s.saf.high
  let s1 := { s.flag R.SAF_RSTS_LEVEL w.last with
    saf := { s.saf with srst := w, high := if w.last then min 20002 (h + 1) else 0 } }
  if w.last then markStuck s1
  else if h = 0 then s1
  else if s1.on R.SAF_RSTS_STUCK then s1.flag R.SAF_RSTS_STUCK false
  else if 500 ≤ h then validReset s1
  else s1.inc R.SAF_RSTS_SHORT

/-! ### The tick (R234) -/

/-- Step 7 of R234: the demands set the latch; a latch whose only cause is POWERUP clears by itself (R228). -/
def latchTick (s : State) : State :=
  let ds := demands s
  if ds ≠ [] then forL ds hemDemand s
  else if s.on R.SAF_STAT_LATCH = true ∧ s.get R.SAF_LCAUSE_CAUSE = 1 ∧ s.on R.SAF_CFG_AUTOPU = true then hemClear s
  else s

/-- The faults that a tick raises between two of its states, in the order of R247. -/
def tickFaults (s t : State) : List (Nat × Nat × Nat) :=
  let f (c : Bool) (x : Nat × Nat × Nat) : List (Nat × Nat × Nat) := if c then [x] else []
  (List.range 4).flatMap (fun p => f (s.get (R.SAF_PSTAT_NFAULT p) != t.get (R.SAF_PSTAT_NFAULT p)) (kDISC, pairScope p, 0))
    ++ f (t.on R.SAF_RSTS_STUCK && !s.on R.SAF_RSTS_STUCK) (kRST, resetScope, 0)

/-- The SAF-HEM faults of a tick, judged after step 4: HVIL, contactors, streams. -/
def hemFaults (s t : State) : List (Nat × Nat × Nat) :=
  let f (c : Bool) (x : Nat × Nat × Nat) : List (Nat × Nat × Nat) := if c then [x] else []
  f (t.on R.SAF_HVST_FAULT && !s.on R.SAF_HVST_FAULT) (kHEM, hemScope 0, 1)
    ++ (List.range 4).flatMap (fun k => f (tb (t.get R.SAF_CTR_FBERR) k && !tb (s.get R.SAF_CTR_FBERR) k) (kHEM, hemScope (1 + k), 2))
    ++ (List.range 4).flatMap (fun k => f (streamSt t k).owed (kHEM, hemScope (5 + k), 3))

/-- The owed faults of the streams are raised now. -/
def payStreams (s : State) : State :=
  forL (List.range 4) (fun k a => if (streamSt a k).owed then setStreamSt a k { streamSt a k with owed := false } else a) s

/-- Steps 1 to 4 of R234. -/
def judgeTick (wires fb : Nat) (s : State) : State :=
  let s1 := forL (List.range 4) (pairTick wires) s
  let s2 := hvilTick s1
  let s3 := forL (List.range 4) (fun k a => markFb k (putFb k (tb fb k) a)) s2
  forL (List.range 4) (fun k a => streamLost k (streamExpire k a)) s3

/-- SAFETY_TICK (R225, R234): `wires` bit 2p is the level of SINpA and bit 2p + 1 of SINpB before the tick, `fb` the
levels of CTR_FB0–3. Log entry 8. -/
def execSafetyTick (wires : BitVec 8) (srst : Bool) (fb : BitVec 4) (s : State) : Host.Outcome State Fault Refusal :=
  .next (if domOn s 1 then
      let n := s.tick + 1
      let s0 := { s with tick := n, cyc := max s.cyc (s.saf.tickBase + n * 40000) }
      let s4 := judgeTick wires.toNat fb.toNat s0
      let hem := hemFaults s0 s4
      let s7 := latchTick (srstTick srst (formDemands (payStreams s4)))
      oneCycle (forL (tickFaults s0 s7 ++ hem) (fun e a => occurAtTick e.1 e.2.1 e.2.2 a)) s7
    else s)

/-! ### Events of the tick on their own -/

/-- DISCREPANCY_LIMIT (R232): the count of pair `p` stands at its limit. -/
def execDiscrepancyLimit (p : Fin 4) (s : State) : Host.Outcome State Fault Refusal :=
  .next (if domOn s 1 && s.on (R.SAF_PCFG_EN p) && s.on (R.SAF_PSTAT_PA p) != s.on (R.SAF_PSTAT_PB p)
        && !s.on (R.SAF_PSTAT_DISCF p) && decide (pairN s p ≤ s.get (R.SAF_PSTAT_DCNT p)) then
      occurAtTick kDISC (pairScope p) 0 (markDisc p.val s)
    else s)

/-- SRST_STUCK (R233): H stands at 20,001. -/
def execSrstStuck (s : State) : Host.Outcome State Fault Refusal :=
  .next (if domOn s 1 && decide (20001 ≤ s.saf.high) && !s.on R.SAF_RSTS_STUCK then
      occurAtTick kRST resetScope 0 (s.flag R.SAF_RSTS_STUCK true)
    else s)

/-- HVIL_BIT (R236): the return current in 10 µA at the middle of a bit. -/
def execHvilBit (iret : BitVec 12) (s : State) : Host.Outcome State Fault Refusal :=
  .next (if domOn s 1 && s.on R.SAF_HVIL_HVEN then hvilBit iret.toNat s else s)

/-- CTR_FB_CHECK (R238): the read-back of one contactor is checked. -/
def execCtrFbCheck (k : Fin 4) (level : Bool) (s : State) : Host.Outcome State Fault Refusal :=
  .next (if domOn s 1 then
      let s1 := putFb k.val level s
      if fbWrong s1 k && !tb (s1.get R.SAF_CTR_FBERR) k then occurAtTick kHEM (hemScope (1 + k)) 2 (markFb k.val s1) else s1
    else s)

/-- HEM_COPY_RX (R241): a frame on CAN A or B with the identifier of a stream. -/
def execHemCopyRx (busB xid : Bool) (id : BitVec 29) (bytes : List Byte) (s : State) :
    Host.Outcome State Fault Refusal :=
  .next (match hemStream s xid id.toNat with
    | some k => if domOn s 1 then hemFrame k (bit busB) bytes s else s
    | none => s)

/-- HEM_WINDOW_EXPIRE (R241). -/
def execHemWindowExpire (k : Fin 4) (s : State) : Host.Outcome State Fault Refusal :=
  .next (if domOn s 1 then streamExpire k.val s else s)

/-- HEM_STREAM_LOST (R241). -/
def execHemStreamLost (k : Fin 4) (s : State) : Host.Outcome State Fault Refusal :=
  .next (if domOn s 1 then streamLost k.val s else s)

/-! ### SPO_N (R230) -/

/-- SPO_N_CHANGE (R230): SPO_N takes a level, and its filter restarts. -/
def execSpoNChange (high : Bool) (s : State) : Host.Outcome State Fault Refusal :=
  .next (
    let low := !high
    let s1 := { s with saf := { s.saf with spoLow := low, spoSet := low != s.on R.SAF_STAT_SPO } }
    if low = s.saf.spoLow then s
    else if domOn s 1 = false then { s with saf := { s.saf with spoLow := low } }
    else if high && s.saf.spoSet && !s.on R.SAF_STAT_SPO then s1.inc R.SAF_SPOCNT_IGN
    else s1)

/-- SPO_FILTER_EXPIRE (R230): the level has held for the filter time. -/
def execSpoFilterExpire (s : State) : Host.Outcome State Fault Refusal :=
  .next (if domOn s 1 && s.saf.spoSet then
      let s1 := { s with saf := { s.saf with spoSet := false } }
      if s.saf.spoLow then hemDemand 1 ((s1.flag R.SAF_STAT_SPO true).inc R.SAF_SPOCNT_ACC)
      else s1.flag R.SAF_STAT_SPO false
    else s)

/-! ### The transmitted frame (R242) -/

/-- The eight bytes of Table 12.5. -/
def hemData (s : State) : List Byte :=
  let b (x : Bool) (k : Nat) : Nat := bit x * 2 ^ k
  let b0 := b (s.on R.SAF_STAT_LATCH) 0 + b (demandPresent s) 1 + b (s.on R.SAF_STAT_SPO) 2 + b (s.on R.SAF_STAT_HVDEM) 3
    + b (s.on R.SAF_STAT_HRXDEM) 4 + b (s.on R.SAF_STAT_T4) 5 + b (s.on R.SAF_STAT_STOK) 6 + b (s.on R.SAF_STAT_DISREQ) 7
  let b1 := s.get R.SAF_STAT_PDEM + 16 * mapBits 4 0 (fun p => s.on (R.SAF_PSTAT_DISCF p))
  let b2 := s.get R.SAF_CTR_EN + 16 * s.get R.SAF_CTR_FB
  let b3 := s.get R.SAF_CTR_FBERR + b (s.on R.SAF_HVST_FAULT) 4 + b (s.on R.SAF_RSTS_STUCK) 5
  [b0, b1, b2, b3].map (BitVec.ofNat 8) ++ leBytes 2 (s.get R.SAF_LCAUSE_CAUSE) ++ (beBytes 4 (s.word (R.PAT_DIGEST 0)).toNat).take 2

/-- The 16 bytes of the frame for a bus (Table 12.3). -/
def hemTxFrame (s : State) (bus : Nat) : List Byte :=
  let bs := hemData s ++ leBytes 1 (s.get R.SAF_HTXTIM_ALIVE) ++ [0, 0, 0]
  bs ++ leBytes 4 (hemCrc s bus bs)

/-- HEM_TX_DUE (R242): the next pair is due on both buses, and replaces one that a bus has not sent. -/
def execHemTxDue (s : State) : Host.Outcome State Fault Refusal :=
  .next (if domOn s 1 && s.on R.SAF_HTXCFG_EN then
      let s1 := s.inc R.SAF_HTXTIM_ALIVE
      { s1 with saf := { s1.saf with tx := [(0, some (hemTxFrame s1 0)), (1, some (hemTxFrame s1 1))] } }
    else s)

/-! ### SAF_CTL and SAF_CTR (R237, R239, R243) -/

/-- A write of SAF_CTL: STEST, then DISREQ. -/
def writeSafCtl (d : Word) (s : State) : State :=
  if !guardOk d then s.flag R.SAF_STAT_CMDERR true
  else
    let s1 := if tb d.toNat 0 then
        if seams.any (effEnabled s) then s.flag R.SAF_STAT_CMDERR true
        else syncContactors (forL (stitches s) hemOn (s.flag R.SAF_STAT_STRUN true))
      else s
    if tb d.toNat 1 then
      if anyRootEn s1 then s1.put R.PWR_STAT_MERR 5
      else hostDischarge s1
    else s1

/-- STEST (R243). -/
def execStest (c : PortCmd) (s : State) : Host.Outcome State Fault Refusal :=
  .next (guarded c.port R.SAF_CTL (ctlWord c 1) (writeSafCtl (ctlWord c 1)) s)

/-- SAF_DISREQ (R239). -/
def execSafDisreq (c : PortCmd) (s : State) : Host.Outcome State Fault Refusal :=
  .next (guarded c.port R.SAF_CTL (ctlWord c 2) (writeSafCtl (ctlWord c 2)) s)

/-- The injected demand of a self-test is removed: every path returns, unless the latch holds it. -/
def endSelfTest (s : State) : State :=
  let s1 := s.flag R.SAF_STAT_STRUN false
  if s1.on R.SAF_STAT_LATCH then s1 else syncHolds (syncContactors (forL (stitches s1) hemOff s1))

/-- STEST_DONE (R243). -/
def execStestDone (pass : Bool) (s : State) : Host.Outcome State Fault Refusal :=
  .next (if domOn s 1 && s.on R.SAF_STAT_STRUN then
      let s1 := { s.flag R.SAF_STAT_STOK pass with saf := { s.saf with passed := pass } }
      if pass then endSelfTest s1
      else occur kHEM (hemScope 9) 4 (endSelfTest (hemDemand 9 (s1.flag R.SAF_STAT_STFAIL true)))
    else s)

/-- A write of SAF_CTR: requests of 1 while the latch is set are discarded (R237). -/
def writeSafCtr (p : Nat) (d : Word) (s : State) : State :=
  let q := bitsOf d 0 4
  if s.on R.SAF_STAT_LATCH = true ∧ q ≠ 0 then discarded p R.SAF_CTR s else syncContactors (s.put R.SAF_CTR_REQ q)

/-- SAF_CTR_REQ_WRITE (R237). -/
def execSafCtrReqWrite (w : PortWrite) (s : State) : Host.Outcome State Fault Refusal :=
  .next (guarded w.port R.SAF_CTR w.data (writeSafCtr w.port w.data) s)

end Sys2Proof.Machine
end

