-- ==== Sys2Proof/Machine/Can.lean ====
section
/-!
DEFINITION. The CAN FD controllers (spec/17): mailboxes, arbitration, transmission, bus-off, and what an apply does.
What a received frame does is in Host.lean, beside the service that reads registers.
-/
namespace Sys2Proof.Machine

/-- The own state of controller `b` (0 A, 1 B). -/
def canBus (s : State) (b : Nat) : CanBus := tget (fun _ => CanBus.zero) s.can.buses b
def setCanBus (s : State) (b : Nat) (x : CanBus) : State :=
  { s with can := ⟨tset (fun _ => CanBus.zero) s.can.buses b x⟩ }

/-- Is the controller on its bus, and not about to leave it (R332)? -/
def canRuns (s : State) (b : Nat) : Bool :=
  domOn s 2 && s.on (R.CAN_CFG_EN b) && s.on (R.CAN_STAT_RUN b) && !(canBus s b).leaving

/-- CAN_TS: microseconds (Table 17.9). Log entry 8. -/
def canTs (s : State) : Nat := s.cyc / 400

/-- CAN_STAT.STATE after the error counters took their values (R331, ISO 11898-1: passive from 128, PRESUMED, log entry 30). -/
def errorState (b : Nat) (s : State) : State :=
  let passive := decide (128 ≤ s.get (R.CAN_STAT_TEC b)) || decide (128 ≤ s.get (R.CAN_STAT_REC b))
  match s.get (R.CAN_STAT_STATE b) with
  | 0 => if passive then (s.put (R.CAN_STAT_STATE b) 1).flag (R.CAN_IRQ_PASSIVE b) true else s
  | 1 => if passive then s else s.put (R.CAN_STAT_STATE b) 0
  | _ => s

/-! ### Mailbox registers (R335, R336) -/

/-- The port that locks mailbox `m`. -/
def lockOf (s : State) (b m : Nat) : Option Nat := tget (fun _ => none) (canBus s b).locks m

/-- Mailbox `m` is locked for a port, or let go. -/
def setLock (b m : Nat) (p : Option Nat) (s : State) : State :=
  let x := canBus s b
  (setCanBus s b { x with locks := tset (fun _ => none) x.locks m p }).flag (R.MB_STAT_LOCK b m) p.isSome

/-- A mailbox ends with ABORT or DONE (Table 17.12). -/
def endMailbox (b m res : Nat) (s : State) : State :=
  let s1 := (s.flag (R.MB_STAT_TXPEND b m) false).put (R.MB_STAT_TXRES b m) res
  if res = 1 then s1.put (R.MB_STAT_TS b m) (canTs s) else s1

/-- An abort of mailbox `m`: at once, unless its frame is on the bus. -/
def abortMailbox (b m : Nat) (s : State) : State :=
  let x := canBus s b
  if x.job = some (.mailbox m) then setCanBus s b { x with abort := true } else endMailbox b m 2 s

/-- A write of MB_CTL. -/
def writeMbCtl (b m p : Nat) (d : Word) (s : State) : State :=
  if s.on (R.MB_STAT_TXPEND b m) then
    if tb d.toNat 9 then abortMailbox b m s else discarded p (R.MB_CTL b m) s
  else
    let s1 := plainWrite (R.MB_CTL b m) d s
    if tb d.toNat 8 && s1.on (R.MB_CTL_EN b m) && s1.on (R.MB_CTL_DIR b m) then
      (s1.flag (R.MB_STAT_TXPEND b m) true).put (R.MB_STAT_TXRES b m) 0
    else s1

/-- A write of MB_STAT: clearing FULL clears OVR, and the holder's clear ends the lock. -/
def writeMbStat (b m p : Nat) (d : Word) (s : State) : State :=
  if tb d.toNat 31 then
    let s1 := (s.flag (R.MB_STAT_FULL b m) false).flag (R.MB_STAT_OVR b m) false
    if lockOf s b m = some p then setLock b m none s1 else s1
  else s

/-- A write of MB_ID or MB_DATA. -/
def writeMbWord (b m p a : Nat) (d : Word) (s : State) : State :=
  if s.on (R.MB_STAT_TXPEND b m) then discarded p a s else plainWrite a d s

/-- A write of CAN_CTL: RECOVER starts the recovery (R337). -/
def writeCanCtl (b : Nat) (d : Word) (s : State) : State :=
  if tb d.toNat 0 && s.get (R.CAN_STAT_STATE b) == 2 then setCanBus s b { canBus s b with recover := true } else s

/-- A write at offset `o` of the block of controller `b`, at address `a`. -/
def writeCan (b o p a : Nat) (d : Word) (s : State) : State :=
  if o = 0x24 then writeCanCtl b d s
  else if o < 0x1000 then plainWrite a d s
  else
    let m := (o - 0x1000) / 0x80
    match o % 0x80 with
    | 0x00 => writeMbCtl b m p d s
    | 0x08 => plainWrite a d s
    | 0x0C => writeMbStat b m p d s
    | _ => if o % 0x80 < 0x50 then writeMbWord b m p a d s else s

/-- MB_FULL_CLEAR (R335). -/
def execMbFullClear (b : Fin 2) (m : Fin 32) (w : PortWrite) (s : State) : Host.Outcome State Fault Refusal :=
  .next (guarded w.port (R.MB_STAT b m) w.data (writeMbStat b m w.port w.data) s)

/-- MB_TXREQ (R336). -/
def execMbTxreq (b : Fin 2) (m : Fin 32) (w : PortWrite) (s : State) : Host.Outcome State Fault Refusal :=
  .next (guarded w.port (R.MB_CTL b m) (w.data ||| 0x100) (writeMbCtl b m w.port (w.data ||| 0x100)) s)

/-- MB_ABORT (R336). -/
def execMbAbort (b : Fin 2) (m : Fin 32) (w : PortWrite) (s : State) : Host.Outcome State Fault Refusal :=
  .next (guarded w.port (R.MB_CTL b m) (w.data ||| 0x200) (writeMbCtl b m w.port (w.data ||| 0x200)) s)

/-! ### Apply (R332) -/

/-- Every pending mailbox of a controller that leaves its bus ends with ABORT, and what it had in progress is dropped. -/
def canLeave (b : Nat) (s : State) : State :=
  let s1 := forL (List.range 32) (fun m a => if a.on (R.MB_STAT_TXPEND b m) then endMailbox b m 2 a else a) s
  (setCanBus s1 b { canBus s1 b with job := none, frame := none, leaving := false, rejoin := false, abort := false,
                                     service := none, recover := false, foreign := false }).flag (R.CAN_STAT_RUN b) false

/-- A controller joins its bus with its new settings: error-active, counters 0. -/
def canJoin (b : Nat) (s : State) : State :=
  let en := s.on (R.CAN_CFG_EN b)
  (((s.flag (R.CAN_STAT_RUN b) en).put (R.CAN_STAT_STATE b) 0).put (R.CAN_STAT_TEC b) 0).put (R.CAN_STAT_REC b) 0

/-- A controller whose settings change leaves its bus at the next bus idle (R332): at once, or, with a frame on the bus, when
that ends (log entry 30). -/
def canGo (b : Nat) (s : State) : State :=
  if (canBus s b).job.isSome || (canBus s b).foreign then setCanBus s b { canBus s b with leaving := true } else canLeave b s

/-- A controller comes back to a bus with its new settings, as soon as it has left it. -/
def canCome (b : Nat) (s : State) : State :=
  if (canBus s b).leaving then setCanBus s b { canBus s b with rejoin := true } else canJoin b s

/-- The bus is idle: a controller that was to leave does, and joins again where its new settings are in force. -/
def canIdle (b : Nat) (s : State) : State :=
  if (canBus s b).leaving then (if (canBus s b).rejoin then canJoin b (canLeave b s) else canLeave b s) else s

/-! ### Transmitting (R336, R337) -/

/-- The rank of a mailbox's identifier in arbitration: its upper 11 bits, standard before extended, the rest, and the
mailbox number. -/
def mbRank (s : State) (b m : Nat) : Nat :=
  let id := s.get (R.MB_ID_ID b m)
  let x := s.on (R.MB_CTL_XID b m)
  let top := if x then id / 2 ^ 18 else id % 2 ^ 11
  ((top * 2 + bit x) * 2 ^ 18 + (if x then id % 2 ^ 18 else 0)) * 32 + m

/-- The pending mailbox that goes first. -/
def firstMailbox (s : State) (b : Nat) : Option Nat :=
  ((List.range 32).filter (fun m => s.on (R.MB_STAT_TXPEND b m))).foldl (fun a m => match a with
    | none => some m
    | some k => if mbRank s b m < mbRank s b k then some m else some k) (none : Option Nat)

/-- The hem frame that waits on a bus. -/
def hemWaits (s : State) (b : Nat) : Option (List Byte) := tget (fun _ => none) s.saf.tx b

/-- What the controller offers at an arbitration: hem, service, mailboxes. The frames of the first two are FD frames (R336, R338)
and need FDEN (Table 17.10). -/
def nextJob (s : State) (b : Nat) : Option CanJob :=
  let fd := s.on (R.CAN_CFG_FDEN b)
  match (if fd && s.on R.SAF_HTXCFG_EN then hemWaits s b else none) with
  | some bs => some (.hem bs)
  | none => if fd && (canBus s b).service.isSome then some .service else (firstMailbox s b).map .mailbox

/-- The byte lengths of the length codes. -/
def dlcBytes (fdf : Bool) (dlc : Nat) : Nat :=
  if dlc ≤ 8 then dlc
  else if fdf then [12, 16, 20, 24, 32, 48, 64].getD (dlc - 9) 64
  else 8

/-- The frame that a job puts on the bus (R336, R338): ESI shows an error-passive sender; FD frames need FDEN. Log entry 30. -/
def txFrame (s : State) (b : Nat) (j : CanJob) : CanFrame :=
  let esi := s.get (R.CAN_STAT_STATE b) == 1
  let fd := s.on (R.CAN_CFG_FDEN b)
  match j with
  | .hem bs => ⟨s.on R.SAF_HTXCFG_XID, BitVec.ofNat 29 (s.get R.SAF_HTXCFG_ID), true, s.on (R.CAN_CFG_HBRS b), esi, false, 10, bs,
      true, 0⟩
  | .service =>
    let bs := (canBus s b).service.getD []
    let dlc := ((List.range 16).find? (fun d => dlcBytes true d == bs.length)).getD 15
    ⟨s.on (R.CAN_SVCR_XID b), BitVec.ofNat 29 (s.get (R.CAN_SVCR_ID b)), true, false, esi, false, BitVec.ofNat 4 dlc, bs, true, 0⟩
  | .mailbox m =>
    let fdf := s.on (R.MB_CTL_FDF b m) && fd
    let dlc := s.get (R.MB_CTL_DLC b m)
    let bs := (List.range 16).flatMap (fun k => leBytes 4 (s.word (R.MB_DATA b m k)).toNat)
    ⟨s.on (R.MB_CTL_XID b m), BitVec.ofNat 29 (s.get (R.MB_ID_ID b m)), fdf, fdf && s.on (R.MB_CTL_BRS b m), fdf && esi, false,
      BitVec.ofNat 4 dlc, bs.take (dlcBytes fdf dlc), true, 0⟩

/-- CAN_ARBITRATION (R336): the bus was idle. Where the controller has nothing to offer, the frame that takes the bus is another
node's. -/
def execCanArbitration (b : Fin 2) (s : State) : Host.Outcome State Fault Refusal :=
  .next (
    let x := canBus s b
    if x.job.isSome then s
    else if x.leaving then canIdle b s
    else if canRuns s b && s.get (R.CAN_STAT_STATE b) != 2 then
      let j := if s.on (R.CAN_CFG_MODE b) then none else nextJob s b
      setCanBus s b { x with job := j, frame := j.map (txFrame s b), abort := false, foreign := j.isNone }
    else s)

/-- The end of a transmission of `j`. Log entry 56. -/
def endJob (b : Nat) (j : CanJob) (ok abort : Bool) (s : State) : State :=
  match j with
  | .hem bs =>
    if ok then
      let tx := if hemWaits s b = some bs then tset (fun _ => none) s.saf.tx b none else s.saf.tx
      { s.inc (R.CAN_CNT_HEMTX b) with saf := { s.saf with tx := tx } }
    else s
  | .service => if ok then setCanBus s b { canBus s b with service := none } else s
  | .mailbox m =>
    let s1 := if ok then s.flag (R.CAN_IRQ_TXDONE b) true else s
    if abort then endMailbox b m 2 s1 else if ok then endMailbox b m 1 s1 else s1

/-- CAN_TX_DONE (R336): success or failure, and the transmit error counter after it. -/
def execCanTxDone (b : Fin 2) (ok : Bool) (tec : BitVec 8) (s : State) : Host.Outcome State Fault Refusal :=
  .next (match (canBus s b).job with
    | some j =>
      let x := canBus s b
      let s1 := endJob b j ok x.abort (setCanBus s b { x with job := none, frame := none, abort := false })
      canIdle b (errorState b (s1.put (R.CAN_STAT_TEC b) tec.toNat))
    | none => s)

/-- CAN_BUS_OFF (R337): transmission stops; pending mailboxes keep TXPEND. -/
def execCanBusOff (b : Fin 2) (s : State) : Host.Outcome State Fault Refusal :=
  .next (if (canRuns s b || (canBus s b).leaving) && s.get (R.CAN_STAT_STATE b) != 2 then
      let s1 := (s.put (R.CAN_STAT_STATE b) 2).flag (R.CAN_IRQ_BUSOFF b) true
      let x := canBus s b
      let s2 := setCanBus s1 b { x with job := none, frame := none, abort := false, recover := s.on (R.CAN_CFG_AUTOREC b) }
      canIdle b (match x.job with
        | some (.mailbox m) => if x.abort then endMailbox b m 2 s2 else s2
        | _ => s2)
    else s)

/-- CAN_RECOVER (R337). -/
def execCanRecover (b : Fin 2) (port : Nat) (s : State) : Host.Outcome State Fault Refusal :=
  .next (guarded port (R.CAN_CTL b) 1 (writeCanCtl b 1) s)

/-- CAN_RECOVERY_DONE (R337): error-active again with both counters 0 (ISO 11898-1). -/
def execCanRecoveryDone (b : Fin 2) (s : State) : Host.Outcome State Fault Refusal :=
  .next (if canRuns s b && s.get (R.CAN_STAT_STATE b) == 2 && (canBus s b).recover then
      let s1 := ((s.put (R.CAN_STAT_STATE b) 0).put (R.CAN_STAT_TEC b) 0).put (R.CAN_STAT_REC b) 0
      setCanBus s1 b { canBus s1 b with recover := false }
    else s)

/-! ### Receiving (R333, R334) -/

/-- Does mailbox `m` match a frame? -/
def mbMatches (s : State) (b : Nat) (f : CanFrame) (m : Nat) : Bool :=
  s.on (R.MB_CTL_EN b m) && !s.on (R.MB_CTL_DIR b m) && s.on (R.MB_CTL_XID b m) == f.xid
    && ((f.id.toNat ^^^ s.get (R.MB_ID_ID b m)) &&& s.get (R.MB_MASK_M b m)) == 0

/-- A frame is stored in mailbox `m`. -/
def storeFrame (b m : Nat) (f : CanFrame) (s : State) : State :=
  let ov := s.on (R.MB_STAT_FULL b m)
  let bs := f.bytes.take (dlcBytes f.fdf f.dlc.toNat)
  let old := (List.range 16).flatMap (fun k => leBytes 4 (s.word (R.MB_DATA b m k)).toNat)
  let all := bs ++ old.drop bs.length
  let s1 := forL (List.range 16) (fun k a => a.setWord (R.MB_DATA b m k) (BitVec.ofNat 32 (leAt all (4 * k)))) s
  let s2 := (((s1.put (R.MB_ID_ID b m) f.id.toNat).flag (R.MB_CTL_FDF b m) f.fdf).flag (R.MB_CTL_BRS b m) f.brs).put
    (R.MB_CTL_DLC b m) f.dlc.toNat
  ((((s2.put (R.MB_STAT_TS b m) (canTs s)).flag (R.MB_STAT_FULL b m) true).flag (R.MB_STAT_OVR b m)
    (ov || s.on (R.MB_STAT_OVR b m)))).flag (R.CAN_IRQ_RXDONE b) true

/-- A frame is offered to the mailboxes. -/
def offerMailboxes (b : Nat) (f : CanFrame) (s : State) : State :=
  let ms := (List.range 32).filter (mbMatches s b f)
  let free := ms.filter (fun m => (lockOf s b m).isNone)
  match free.find? (fun m => !s.on (R.MB_STAT_FULL b m)) with
  | some m => storeFrame b m f s
  | none => match free.getLast? with
    | some m => storeFrame b m f s
    | none => if ms = [] then s else (s.inc (R.CAN_CNT_LOST b)).flag (R.CAN_IRQ_LOST b) true

end Sys2Proof.Machine
end

