-- ==== Sys2Proof/Machine/Image.lean ====
section
/-!
DEFINITION. The image format (R39–R46): fields of the header and the directory, the records of the sections, and the
words that they write.
-/
namespace Sys2Proof.Machine

/-! ### Header and directory (R39–R41) -/

/-- The little-endian number of `n` bytes at offset `o`. -/
def leField (bs : List Byte) (o n : Nat) : Nat := leNat (slice bs o n)

/-- Are the `n` bytes from offset `o` all 0x00? -/
def zeroBytes (bs : List Byte) (o n : Nat) : Bool := (slice bs o n).all (· == 0)

/-- A directory entry (Table 3.2), with its own offset in the image. -/
structure DirEntry where
  at_    : Nat
  id     : Nat
  pad    : Nat
  ver    : Nat
  offset : Nat
  length : Nat
  crc    : Nat
  deriving DecidableEq, Repr

/-- The directory of an image, NSECT entries from 0x40. -/
def directory (bs : List Byte) : List DirEntry :=
  (List.range (leField bs 0x0C 2)).map (fun i =>
    let o := 0x40 + 16 * i
    ⟨o, leField bs o 1, leField bs (o + 1) 1, leField bs (o + 2) 2, leField bs (o + 4) 4, leField bs (o + 8) 4,
      leField bs (o + 12) 4⟩)

/-- The directory entry of an ID. -/
def dirEntry (bs : List Byte) (id : Nat) : Option DirEntry := (directory bs).find? (fun e => e.id == id)

/-- VER and CRC of an image's MTR section. -/
def mtrOf (bs : List Byte) : Option (Nat × Nat) := (dirEntry bs 8).map (fun e => (e.ver, e.crc))

/-- VER of an image's SAFE section (R46). -/
def safeVerOf (bs : List Byte) : Option Nat := (dirEntry bs 9).map (·.ver)

def idSTRUCT := 0x01
def idLAW := 0x04
def idGRID := 0x07
def idMTR := 0x08
def idSAFE := 0x09
def idINIT := 0x0C
def idSIG := 0x0F

/-! ### Records (R42–R45) -/

/-- A record: its section, its offset in the image, and the words it writes, in order. -/
structure Record where
  sect  : Nat
  at_   : Nat
  words : List (Nat × Word)
  deriving DecidableEq, Repr

/-- The words `ws` from address `a` on. -/
def wordsFrom (a : Nat) : List Word → List (Nat × Word)
  | [] => []
  | w :: t => (a, w) :: wordsFrom (a + 4) t

/-- The records of a STRUCT body that starts at offset `p` (R43); and the offset of the first that breaks the form.
`prev` is the seam of the record before. -/
def seamRecords : Nat → Nat → Nat → List Byte → List Record × Option Nat
  | 0, _, _, _ => ([], none)
  | f + 1, p, prev, bs =>
    if bs = [] then ([], none)
    else
      let n := leField bs 1 1
      if bs.length < 36 ∨ leField bs 0 1 ≠ 1 ∨ n = 0 ∨ 63 < n ∨ leField bs 2 2 ≠ 0 ∨ n ≤ prev then ([], some p)
      else
        let r := seamRecords f (p + 36) n (bs.drop 36)
        (⟨idSTRUCT, p, wordsFrom (R.SEAM_DESC n) (leWords 8 (bs.drop 4))⟩ :: r.1, r.2)

/-- The block or preload records of a body of section `id` that starts at offset `p` (R44, R45). -/
def blockRecords (id : Nat) : Nat → Nat → List Byte → List Record × Option Nat
  | 0, _, _ => ([], none)
  | f + 1, p, bs =>
    if bs = [] then ([], none)
    else
      let a := leField bs 0 4
      let c := leField bs 4 2
      if bs.length < 8 ∨ a % 4 ≠ 0 ∨ 2 ^ 24 ≤ a ∨ c = 0 ∨ 256 < c ∨ leField bs 6 2 ≠ 0 ∨ bs.length < 8 + 4 * c then
        ([], some p)
      else
        let r := blockRecords id f (p + 8 + 4 * c) (bs.drop (8 + 4 * c))
        (⟨id, p, wordsFrom a (leWords c (bs.drop 8))⟩ :: r.1, r.2)

/-- The records of a section, and the offset of the first that breaks R43 or R44. -/
def sectionRecords (bs : List Byte) (e : DirEntry) : List Record × Option Nat :=
  let body := slice bs e.offset e.length
  if e.id = idSTRUCT then seamRecords (body.length + 1) e.offset 0 body
  else blockRecords e.id (body.length + 1) e.offset body

/-- The sections that hold records, in directory order. -/
def recordSections (bs : List Byte) : List DirEntry := (directory bs).filter (fun e => e.id != idSIG)

/-- All records of an image, in image order. -/
def records (bs : List Byte) : List Record := (recordSections bs).flatMap (fun e => (sectionRecords bs e).1)

/-- The records that hold configuration: every section's but INIT. -/
def configRecords (bs : List Byte) : List Record := (records bs).filter (fun r => r.sect != idINIT)

/-- The words of INIT, in record order (R45). -/
def initWords (bs : List Byte) : List (Nat × Word) :=
  ((records bs).filter (fun r => r.sect == idINIT)).flatMap (·.words)

/-- The words that the sections write, in order: a later record overwrites (R44). -/
def configWords (bs : List Byte) : List (Nat × Word) := (configRecords bs).flatMap (·.words)

/-! ### Writing configuration (R51 step 2) -/

/-- The bits of a register that a record of a section sets (R44, whatever the host access code): every defined bit of a
register that holds configuration, command bits apart, and every field of another register that holds a written value.
A field that shows the state of its unit follows the unit. Log entry 44. -/
def loadMask (a : Nat) : Word :=
  match regAt a with
  | some r => if r.cfg then BitVec.ofNat 32 r.defd &&& ~~~(BitVec.ofNat 32 r.wo) else BitVec.ofNat 32 r.rw
  | none => 0

/-- The loader writes a word of a section. -/
def loadWord (e : Nat × Word) (s : State) : State :=
  let m := loadMask e.1
  if m = 0 then s else s.setWord e.1 ((s.word e.1 &&& ~~~m) ||| (e.2 &&& m))

/-- The registers that the sections of an image leave, over reset values (R380): a scratch state of the part. -/
def scratch (s : State) (bs : List Byte) : State :=
  forL (configWords bs) loadWord { State.reset with part := s.part }

end Sys2Proof.Machine
end

