-- ==== Sys2Proof/Machine/StepOne.lean ====
section
/-!
DEFINITION. Step 1 of an apply (R51, R53, R154, R169, R202, R268, R277, R332): structure fields return to their reset
values and the units that they shape stop. The hem configuration stays in force until step 2.
-/
namespace Sys2Proof.Machine

/-- The registers of a CAN controller that decide whether it stays on its bus (R332). -/
def canKeys (b : Nat) : List Nat := [R.CAN_CFG b, R.CAN_NBT b, R.CAN_DBT b, R.CAN_TDC b, R.CAN_SVC b, R.CAN_SVCR b]

/-- Do the registers at `as` hold in `s` what an image leaves in `t`? -/
def sameWords (as : List Nat) (s t : State) : Bool := as.all (fun a => s.word a == t.word a)

/-- Does the register at `a` hold configuration of a unit that step 1 resets at once? The hem's and the overlock
units' stay until the changeover, CAN's and the fabric's follow rules of their own (`leaveBuses`, `fabricStops`),
MTR_CTL is not the Pattern's. -/
def resetAtOnce (a : Nat) : Bool :=
  let b := a / 0x10000
  let cfg := match regAt a with
    | some r => r.cfg
    | none => false
  cfg && (decide (2 ≤ b) && decide (b ≤ 0x0A) && a != R.MTR_CTL || b == 0x0C || (b == 0x18 && decide (a < 0x184000))
    || a == R.CAN_IEN 0 || a == R.CAN_IEN 1)

/-- A context becomes IDLE with its state cleared as by RESET, and r = 0 (Table 6.5). -/
def clearContext (c : Nat) (s : State) : State :=
  let s1 := setPltSt (setCtxSt s c { CtxSt.zero with yl := s.sget (R.CTX_Y_YA c) }) c PltSt.zero
  let s2 := ((s1.put (R.CTX_INT_I c) 0).put (R.CTX_SIG_R c) 0).flag (R.CTX_STAT_PARKED c) false
  (s2.flag (R.CTX_STAT_HPARK c) false).flag (R.PLT_STAT_CLEARING c) false

/-- The registers of ACQ, WIN and GRD return to reset, status and counters with them, and those units are off. -/
def stopSampling (s : State) : State :=
  { s.dropRegs 0x070000 0x0A0000 with acq := { AcqSt.zero with utilAt := s.cyc }, wins := [],
                                       grd := GrdSt.zero }

/-- What shows the old seams' carriers and state. -/
def seamStatus (a : Nat) : Bool :=
  (decide (0x020040 ≤ a) && decide (a < 0x021000) && (a % 0x40 == 0x2C || a % 0x40 == 0x30))
    || (decide (0x041000 ≤ a) && decide (a < 0x041800) && a % 0x20 == 0x18)

/-- The carriers of the old Pattern stop (R100). -/
def stopCarriers (s : State) : State :=
  let s1 := s.keepRegs (fun a => !seamStatus a)
  let fab := { s1.fab with links := [], remotes := [] }
  { s1 with carriers := [], fractions := [], loadedPer := [], linkCaps := [], enabled := [], waits := [], fab := fab,
            syncOut := none }

/-- Every NONE unit returns to reset, checker included; open streams are closed (R277). -/
def resetNoneUnits (s : State) : State :=
  forL (List.range 14) (fun u a =>
    if a.get (R.OVL_CFG_ROLE u) = 0 then
      setOvlSt ((a.dropRegs (R.OVL_CFG u) (R.OVL_CFG u + 0x40)).dropRegs (R.OVL_ASKIP u) (R.OVL_ASKIP u + 4)) u OvlSt.zero
    else a) s

/-- A controller whose settings change leaves its bus at the next bus idle (R332). -/
def leaveBuses (t : State) (s : State) : State :=
  forL [0, 1] (fun b a => if sameWords (canKeys b) a t then a else
    canGo b (a.keepRegs (fun x => !(canKeys b).contains x))) s

/-! ### The fabric at step 1 (R51, R345) -/

/-- The module unbinds. -/
def unbind (s : State) : State :=
  let r := ownRole s
  let s1 := (((s.flag R.FAB_STAT_BOUND false).put R.FAB_STAT_ROLE 0).put R.FAB_STAT_EPOCH 0)
  let s2 := if r = 0 then s1 else
    (s1.put R.FAB_MEMBERS_MAP (s1.get R.FAB_MEMBERS_MAP - 2 ^ (r - 1))).flag (R.FAB_PEER_REACH r) false
  { s2 with fab := { s2.fab with got := [], sent := [] } }

/-- The registers that decide whether the fabric's ports stay UP. -/
def fabKeys : List Nat := R.FAB_CFG :: roles.map R.FAB_ROLE ++ roles.flatMap (fun r => (List.range 8).map (R.FAB_FPR r))

/-- The fabric's registers that an image which leaves `t` keeps through steps 1 and 2: where FAB_CFG, FAB_ROLE and FAB_FPR
are unchanged, these and every unchanged FAB_PCFG. -/
def fabKept (t s : State) (a : Nat) : Bool :=
  sameWords fabKeys s t && (fabKeys.contains a || ((List.range 4).any (fun p => a == R.FAB_PCFG p) && s.word a == t.word a))

/-- Does the table of `t` still give the module the role it holds under `s` (R345)? -/
def roleStays (t s : State) : Bool :=
  let r := ownRole s
  match t.get (R.FAB_ROLE_BIND r) with
  | 1 => roleFpr t r == ownFpr
  | 2 => s.get (R.FAB_ROLE_BIND r) == 2 && s.get (R.FAB_ROLE_ANCHOR r) == t.get (R.FAB_ROLE_ANCHOR r)
      && s.get (R.FAB_ROLE_PORT r) == t.get (R.FAB_ROLE_PORT r)
  | _ => false

/-- Every fabric field that does not stay returns to its reset value, so that its port is no longer enabled and goes DOWN
(Table 18.3); a role that the new table no longer gives is given up. -/
def fabricStops (t s : State) : State :=
  let s1 := if s.on R.FAB_STAT_BOUND && !roleStays t s then unbind s else s
  s1.keepRegs (fun a =>
    let cfg := match regAt a with
      | some r => r.cfg
      | none => false
    !(cfg && a / 0x10000 == 0x19 && !fabKept t s a))

/-- Step 1 of the apply of the image `bs`: from its start APPLYING is 1, CONFIRMED is 0 and every seam's enable is 0
(R53); PCDONE clears (R302). Log entry 43. -/
def stepOne (bs : List Byte) (s : State) : State :=
  let s1 := ((s.flag R.PAT_STAT_APPLYING true).flag R.PAT_STAT_CONFIRMED false).flag R.PWR_STAT_PCDONE false
  let s2 := forL seams (fun n a => a.flag (R.SEAM_CTL_EN n) false) s1
  let s3 := faultsAtApply (afterEnableFall { s2 with enabled := [] })
  let s4 := stopCarriers (stopSampling (forL seams clearContext s3))
  let t := scratch s bs
  let s5 := fabricStops t (leaveBuses t (resetNoneUnits { s4 with pool := [] }))
  let s6 := s5.keepRegs (fun a => !resetAtOnce a)
  let s7 := forL (stitches s6) (fun n a =>
    (setLink ((a.flag (R.STI_STATE_SETOK n) false).flag (R.STI_STATE_CLAIMED n) false) n
      { link a n with settings := false })) s6
  syncHolds (refreshFabric s7)

end Sys2Proof.Machine
end

