-- ==== Sys2Proof/Machine/LoadSeam.lean ====
section
/-!
DEFINITION. The loader's checks, part one: the shape of a check, the structure checks (Table 2.15), and the rules of
the STI and MOD units (Tables 4.15–4.21, R79, Table 5.2). They are judged on the registers an image leaves, held in a
scratch state.
-/
namespace Sys2Proof.Machine

/-! ### The shape of a check -/

/-- The allowed range of one field of every register of a family (R44). -/
structure FieldRule where
  base : Nat
  dims : List (Nat × Nat)
  lo   : Nat
  wd   : Nat
  min  : Nat
  max  : Nat
  deriving DecidableEq, Repr

/-- Does word `w` at address `a` keep a field rule? -/
def FieldRule.keeps (r : FieldRule) (a : Nat) (w : Word) : Bool :=
  if decide (r.base ≤ a) && inDims r.dims (a - r.base) then
    decide (r.min ≤ bitsOf w r.lo r.wd) && decide (bitsOf w r.lo r.wd ≤ r.max)
  else true

/-- A rule that relates fields (R380, pass 3): the section that owns it, the registers involved, the seam concerned,
and whether it is kept. -/
structure Relation where
  sect  : Nat
  addrs : List Nat
  seam  : Nat
  ok    : Bool
  deriving DecidableEq, Repr

/-- A structure failure (SEAM_CHK). -/
structure ChkFail where
  code   : Nat
  seam   : Nat
  slot   : Nat
  stitch : Nat
  deriving DecidableEq, Repr

/-! ### Structure checks (Table 2.15) -/

/-- The seams in use, ascending. -/
def used (s : State) : List Nat := seams.filter (seamUsed s)

/-- The slots of a seam that hold children, with their codes. -/
def slotsOf (s : State) (n : Nat) : List (Nat × Nat) :=
  (List.range (s.get (R.SEAM_DESC_NCHILD n))).map (fun k => (k, childCode s n k))

/-- All named slots of the tree: seam, slot, code. -/
def allSlots (s : State) : List (Nat × Nat × Nat) :=
  (used s).flatMap (fun n => (slotsOf s n).map (fun e => (n, e.1, e.2)))

/-- The range of NCHILD of a type (Table 2.1). -/
def nchildRange (ty : Nat) : Nat × Nat :=
  match ty with
  | 1 => (1, 1) | 2 => (2, 16) | 3 => (2, 12) | 4 => (2, 2) | 5 => (3, 4) | _ => (0, 0)

/-- The first slot that repeats a code named before it, among codes that `p` holds of. -/
def firstRepeat (p : Nat → Bool) : List (Nat × Nat × Nat) → List Nat → Option (Nat × Nat × Nat)
  | [], _ => none
  | (n, k, c) :: t, seen =>
    if p c && seen.contains c then some (n, k, c)
    else firstRepeat p t (if p c then c :: seen else seen)

/-- Steps up by PARENT. -/
def parentAfter (s : State) : Nat → Nat → Nat
  | 0, n => n
  | f + 1, n => if n = 0 then 0 else parentAfter s f (s.get (R.SEAM_DESC_PARENT n))

/-- The least seam of the cycle that following PARENT from `n` leads into: after 63 steps the walk is on it. -/
def cycleLeast (s : State) (n : Nat) : Nat :=
  let m := parentAfter s 63 n
  (List.range 63).foldl (fun a k => min a (parentAfter s k m)) m

/-- May parent type `ty` hold child `c` (Table 2.2)? -/
def placed (s : State) (ty c : Nat) : Bool :=
  let ct := if isStitchCode c then 0 else seamType s (c - 0x80)
  match ty with
  | 1 => isStitchCode c
  | 2 => isStitchCode c || ct == 1 || ct == 2 || (ct == 3 && (weight s 64 c).isSome)
  | 4 => ct != 6
  | _ => true

/-- The first out-of-order stitch of a STACK (R33): the slot it lies under, and the stitch. Log entry 28. -/
def stackDisorder (s : State) (n : Nat) : Option (Nat × Nat) :=
  let l := (slotsOf s n).flatMap (fun e => (if isStitchCode e.2 then [e.2]
    else stitchesUnder s 64 (e.2 - 0x80)).map (fun q => (e.1, q)))
  (List.zip l (l.drop 1)).findSome? (fun e => if e.2.2 = e.1.2 + 1 then none else some e.2)

/-- A LINK in the subtree of a seam, the seam itself included (R29). -/
def hasLink (s : State) : Nat → Nat → Bool
  | 0, _ => false
  | f + 1, n => seamType s n == tLINK || (children s n).any (fun c => isSeamCode c && hasLink s f (c - 0x80))

/-- Is a seam the target of a context output of destination `d`? -/
def routedTo (s : State) (d n : Nat) : Bool :=
  seams.any (fun c => s.get (R.CTX_CFG_TRIG c) != 0 && s.get (R.CTX_ROUTE_DEST c) == d && s.get (R.CTX_ROUTE_NUM c) == n)

/-- The structure checks, in the order of Table 2.15: the first failure (R35). A seam that slots of two seams name passes
PARENT_MISMATCH where its PARENT is the first namer, and fails SEAM_TWICE; SEAM_CHK.STITCH is given by STITCH_TWICE and
STACK_ORDER alone. Log entry 28. -/
def structureFail (s : State) : Option ChkFail :=
  let us := used s
  let slots := allSlots s
  let all16 := us.flatMap (fun n => (List.range 16).map (fun k => (n, k, childCode s n k)))
  let seam (c : Nat) (p : Nat → Bool) : Option ChkFail := (us.find? p).map (fun n => ⟨c, n, 0, 0x7F⟩)
  let slot (c : Nat) (l : List (Nat × Nat × Nat)) (p : Nat → Nat → Nat → Bool) : Option ChkFail :=
    (l.find? (fun e => p e.1 e.2.1 e.2.2)).map (fun e => ⟨c, e.1, e.2.1, 0x7F⟩)
  let namer (m : Nat) : Nat := ((slots.find? (fun e => e.2.2 == seamCode m)).map (·.1)).getD 0
  seam 0x20 (fun n => seamType s n == 7)
  <|> seam 0x21 (fun n => seamType s n != tLINK && s.get (R.SEAM_DESC_NCHILD n) == 0)
  <|> seam 0x22 (fun n =>
    let r := nchildRange (seamType s n)
    let k := s.get (R.SEAM_DESC_NCHILD n)
    decide (k < r.1) || decide (r.2 < k))
  <|> slot 0x23 all16 (fun _ _ c =>
    !(isStitchCode c || c == 0x80 || isSeamCode c) || (isSeamCode c && !seamUsed s (c - 0x80)))
  <|> slot 0x24 all16 (fun n k c => (decide (k < s.get (R.SEAM_DESC_NCHILD n))) == (c == 0x80))
  <|> seam 0x25 (fun n => s.get (R.SEAM_DESC_PARENT n) != namer n)
  <|> (firstRepeat isSeamCode slots []).map (fun e => ⟨0x26, e.1, e.2.1, 0x7F⟩)
  <|> (firstRepeat isStitchCode slots []).map (fun e => ⟨0x27, e.1, e.2.1, e.2.2⟩)
  <|> (us.find? (fun n => parentAfter s 63 n != 0)).map (fun n => ⟨0x28, cycleLeast s n, 0, 0x7F⟩)
  <|> slot 0x29 slots (fun n _ c => !placed s (seamType s n) c)
  <|> seam 0x2A (fun n =>
    (seamType s n == tLINK && !(decide (1 ≤ s.get (R.SEAM_LINK_ROLE n)) && decide (s.get (R.SEAM_LINK_ROLE n) ≤ 32)
      && decide (1 ≤ s.get (R.SEAM_LINK_RSEAM n))))
    || (s.on (R.SEAM_DESC_REMOTE n) && (s.get (R.SEAM_DESC_PARENT n) != 0 || hasLink s 64 n)))
  <|> slot 0x2B slots (fun n k c => seamType s n == tSTACK &&
    (weight s 64 c != weight s 64 (childCode s n 0) || decide (16 < (k + 1) * (weight s 64 c).getD 0)))
  <|> us.findSome? (fun n => if seamType s n = tSTACK then
      (stackDisorder s n).map (fun e => ⟨0x2C, n, e.1, e.2⟩) else none)
  <|> seam 0x2D (fun n =>
    (routedTo s 1 n && (s.get (R.SEAM_DESC_PARENT n) != 0 || s.on (R.SEAM_DESC_REMOTE n)))
    || (routedTo s 2 n && seamType s (s.get (R.SEAM_DESC_PARENT n)) == tSTACK
        && s.get (R.SEAM_DESC_PARENT n) != 0))

/-! ### STI (Tables 4.15–4.21, R79) -/

/-- The allowed ranges of the STITCH section. -/
def stiFields : List FieldRule :=
  let d := [(96, 0x80)]
  let b := 0x030000
  [⟨b, d, 30, 2, 0, 1⟩, ⟨b, d, 16, 8, 0x28, 0x78⟩, ⟨b + 4, d, 16, 6, 0, 40⟩, ⟨b + 4, d, 0, 7, 0, 70⟩,
   ⟨b + 8, d, 0, 8, 0, 232⟩, ⟨b + 0xC, d, 16, 7, 0, 70⟩, ⟨b + 0xC, d, 0, 7, 0, 75⟩, ⟨b + 0x10, d, 24, 6, 0, 48⟩,
   ⟨b + 0x10, d, 16, 6, 5, 63⟩, ⟨b + 0x10, d, 0, 6, 5, 63⟩, ⟨b + 0x14, d, 16, 9, 0x78, 0x14A⟩,
   ⟨b + 0x14, d, 0, 4, 0, 11⟩, ⟨b + 0x18, d, 24, 8, 8, 160⟩, ⟨b + 0x18, d, 16, 8, 8, 160⟩,
   ⟨b + 0x18, d, 8, 8, 8, 160⟩, ⟨b + 0x18, d, 0, 8, 8, 160⟩]

/-- R79, and MIN ≤ MAX of STI_SLIM0 and STI_SLIM1. -/
def stiRelations (s : State) : List Relation :=
  (List.range 96).flatMap (fun n =>
    [⟨2, [R.STI_BST n, R.STI_GATE n], 0, decide (s.get (R.STI_BST_UV n) ≤ s.get (R.STI_BST_WARN n)) &&
       decide (s.get (R.STI_BST_WARN n) ≤ s.get (R.STI_GATE_GDV n) + 12)⟩,
     ⟨2, [R.STI_SLIM n 0], 0, decide (s.get (R.STI_SLIM_OFF_MIN n 0) ≤ s.get (R.STI_SLIM_OFF_MAX n 0)) &&
       decide (s.get (R.STI_SLIM_ON_MIN n 0) ≤ s.get (R.STI_SLIM_ON_MAX n 0))⟩,
     ⟨2, [R.STI_SLIM n 1], 0, decide (s.get (R.STI_SLIM_OFF_MIN n 1) ≤ s.get (R.STI_SLIM_OFF_MAX n 1)) &&
       decide (s.get (R.STI_SLIM_ON_MIN n 1) ≤ s.get (R.STI_SLIM_ON_MAX n 1))⟩])

/-! ### MOD (Table 5.2) -/

/-- Does the Pattern define context `c`? -/
def ctxDefined (s : State) (c : Nat) : Bool := c != 0 && s.get (R.CTX_CFG_TRIG c) != 0

/-- Does a seam trigger a context? -/
def triggersCtx (s : State) (n : Nat) : Bool := seams.any (fun c => s.get (R.CTX_CFG_TRIG c) == n && n != 0)

/-- Is an acquisition result an entry of a defined sequence? -/
def resultDefined (s : State) (i : Nat) : Bool := decide (i % 32 < s.get (R.ACQ_SQCFG_NENT (i / 32)))

/-- The registers by which a seam triggers contexts. -/
def triggerRegs (s : State) (n : Nat) : List Nat :=
  (seams.filter (fun c => s.get (R.CTX_CFG_TRIG c) == n)).map R.CTX_CFG

/-- Do the parents of a seam lead to a root? A seam below none has no period, and fails with CYCLE (R35). -/
def hasRoot (s : State) (n : Nat) : Bool := parentAfter s 63 n == 0

/-- The nominal period of a seam in a scratch state. -/
def perOf (s : State) (n : Nat) : Nat := s.get (R.MOD_CAR_PER (rootOf s n))

/-- Table 5.2, in its order. -/
def modRelations (s : State) : List Relation :=
  let us := used s
  let isRoot (n : Nat) : Bool := s.get (R.SEAM_DESC_PARENT n) == 0
  let fab := s.on R.FAB_CFG_EN && (List.range 4).any (fun p => s.on (R.FAB_PCFG_EN p))
  us.map (fun n =>
    let p := s.get (R.MOD_CAR_PER n)
    let y := s.get (R.MOD_CAR_SYNC n)
    ⟨3, [R.MOD_CAR n], n, if isRoot n then decide (3200 ≤ p) && decide (p ≤ 6400000) && (decide (y < 2) || p % 32 == 0)
      else p == 0⟩)
  ++ us.flatMap (fun n =>
    let y := s.get (R.MOD_CAR_SYNC n)
    let sync1 := us.filter (fun m => s.get (R.MOD_CAR_SYNC m) == 1)
    [⟨3, [R.MOD_CAR n], n, (isRoot n || y == 0) && ((y == 3) == s.on (R.SEAM_DESC_REMOTE n))⟩,
     ⟨3, sync1.map R.MOD_CAR, n, y != 1 || sync1.length == 1⟩,
     ⟨3, [R.MOD_CAR n, R.FAB_CFG, R.FAB_PCFG 0, R.FAB_PCFG 1, R.FAB_PCFG 2, R.FAB_PCFG 3], n, y != 2 || fab⟩])
  ++ us.flatMap (fun n =>
    let a := s.get (R.MOD_INST_SMP n)
    let b := s.get (R.MOD_INST_UPD n)
    [⟨3, [R.MOD_INST n], n, decide (a < 0x8000) && decide (b < 0x8000) && decide (a ≤ b)⟩,
     ⟨3, R.MOD_INST n :: triggerRegs s n, n, a != b || !triggersCtx s n⟩])
  ++ us.map (fun n => ⟨3, R.MOD_OPT n :: R.MOD_CAR (rootOf s n) :: triggerRegs s n, n,
      !triggersCtx s n || !hasRoot s n || decide (6400 ≤ (s.get (R.MOD_OPT_SMPDIV n) + 1) * perOf s n)⟩)
  ++ us.map (fun n =>
    let m := s.get (R.MOD_OPT_MINPW n)
    ⟨3, [R.MOD_OPT n, R.MOD_CAR (rootOf s n)], n, decide (5 ≤ m) && decide (m ≤ 200) &&
      (!hasRoot s n || decide (4 * 32 * m ≤ perOf s n))⟩)
  ++ us.map (fun n =>
    let i := s.get (R.MOD_STK_ISRC n)
    if seamType s n = tSTACK then ⟨3, [R.MOD_STK n, R.ACQ_SQCFG (i / 32)], n, resultDefined s i⟩
    else ⟨3, [R.MOD_STK n], n, s.word (R.MOD_STK n) == 0⟩)
  ++ us.map (fun n =>
    let c := s.get (R.MOD_PH_SRC_CTX n)
    ⟨3, [R.MOD_PH n, R.CTX_CFG c], n, c == 0 || ctxDefined s c⟩)
  ++ [⟨3, [R.MOD_SYNCO], 0, s.get R.MOD_SYNCO_SEAM == 0 || (seamUsed s (s.get R.MOD_SYNCO_SEAM) &&
      isRoot (s.get R.MOD_SYNCO_SEAM))⟩]
  ++ (seams.filter (fun n => !seamUsed s n)).flatMap (fun n =>
    [R.MOD_CAR n, R.MOD_PH n, R.MOD_INST n, R.MOD_STK n, R.MOD_OPT n, R.MOD_REF n].map (fun a =>
      ⟨3, [a], n, s.word a == resetWord a⟩))

end Sys2Proof.Machine
end

