-- ==== Sys2Proof/Machine/LoadLaw.lean ====
section
/-!
DEFINITION. The loader's checks, part two: LAW (Tables 6.10, 7.6), the budget (R132), ACQ (Table 8.4), WIN (Table
9.3) and GRID (Table 10.6), judged on a scratch state that holds the registers an image leaves.
-/
namespace Sys2Proof.Machine

/-! ### LAW: single fields -/

/-- The allowed ranges of the LAW section; derived fields are 0. -/
def lawFields : List FieldRule :=
  let c := [(64, 0x100)]
  let p := [(64, 0x20)]
  [⟨0x050000, c, 0, 6, 0, 0⟩, ⟨0x050000, [], 0, 32, 0, 0⟩, ⟨0x0500A4, c, 0, 23, 0, 0⟩, ⟨0x060000, [], 0, 18, 0, 0⟩,
   ⟨0x050004, c ++ [(6, 4)], 28, 4, 0, 6⟩, ⟨0x050004, c ++ [(6, 4)], 24, 4, 0, 8⟩,
   ⟨0x05001C, c, 28, 4, 0, 4⟩, ⟨0x060000, p, 19, 13, 0, 4096⟩, ⟨0x060000, p, 19, 1, 0, 0⟩, ⟨0x060000, p, 0, 4, 0, 0⟩,
   ⟨0x060008, p, 31, 1, 0, 0⟩, ⟨0x06000C, p, 31, 1, 0, 0⟩, ⟨0x06000C, p, 15, 1, 0, 0⟩]

/-! ### LAW: relations -/

/-- The contexts that the Pattern defines. -/
def ctxsUsed (s : State) : List Nat := seams.filter (ctxDefined s)

/-- May a source word stand in context `c` (Table 6.10)? -/
def sourceOk (s : State) (c w : Nat) : Bool :=
  let ix := w % 512
  let k := w / 2 ^ 28
  let plain := w / 2 ^ 22 % 4 == 0
  let q := ix / 32
  match k with
  | 1 => resultDefined s ix && (!tb w 23 || (s.get (R.ACQ_SQCFG_TSRC q) == 1 &&
      s.get (R.ACQ_SQCFG_TNUM q) == s.get (R.CTX_CFG_TRIG c)))
  | 2 => plain && decide (ix < 96)
  | 3 => plain && decide (ix < 64) && seamUsed s ix
  | 4 => plain && decide (ix < 32)
  | 6 => plain && decide (ix < 64) && ix != c && ctxDefined s ix
  | _ => plain && ix == 0

/-- The contexts reached by "waits for" from a set, saturating. -/
def waitClosure (s : State) : Nat → List Nat → List Nat
  | 0, l => l
  | f + 1, l => waitClosure s f (l ++ ((l.flatMap (waitedCtxs s)).filter (fun d => !l.contains d)).dedup)

/-- Is context `c` on a cycle of waits (Table 6.10)? -/
def onWaitCycle (s : State) (c : Nat) : Bool := (waitClosure s 63 (waitedCtxs s c)).contains c

/-- May a route stand in context `c`, shared destinations apart? -/
def routeOk (s : State) (c : Nat) : Bool :=
  let n := s.get (R.CTX_ROUTE_NUM c)
  match s.get (R.CTX_ROUTE_DEST c) with
  | 0 => n == 0
  | 1 => seamUsed s n
  | 2 => seamUsed s n
  | 3 => seamUsed s n && s.get (R.MOD_PH_SRC_CTX n) == c
  | 4 => ctxDefined s n && n != c
  | _ => false

/-- Does another context before `c` share its destination? -/
def routeShared (s : State) (c : Nat) : Bool :=
  s.get (R.CTX_ROUTE_DEST c) != 0 &&
    (ctxsUsed s).any (fun d => decide (d < c) && s.word (R.CTX_ROUTE d) == s.word (R.CTX_ROUTE c))

/-- The registers that judge source `k` of context `c`. -/
def sourceRegs (s : State) (c k : Nat) : List Nat :=
  let ix := s.get (R.CTX_SRC_INDEX c k)
  R.CTX_SRC c k :: (match s.get (R.CTX_SRC_KIND c k) with
    | 1 => R.ACQ_SQCFG (ix / 32) :: (if decide (ix % 32 < s.get (R.ACQ_SQCFG_NENT (ix / 32))) then [R.CTX_CFG c] else [])
    | 6 => if ix < 64 ∧ ix ≠ c then [R.CTX_CFG ix] else []
    | _ => [])

/-- The registers that judge the route of context `c`. -/
def routeRegs (s : State) (c : Nat) : List Nat :=
  let n := s.get (R.CTX_ROUTE_NUM c)
  R.CTX_ROUTE c :: (match s.get (R.CTX_ROUTE_DEST c) with
    | 3 => if seamUsed s n then [R.MOD_PH n] else []
    | 4 => if n = c then [] else [R.CTX_CFG n]
    | _ => [])

/-- Table 6.10. -/
def ctxRelations (s : State) : List Relation :=
  let us := ctxsUsed s
  us.map (fun c => ⟨4, [R.CTX_CFG c], 0, seamUsed s (s.get (R.CTX_CFG_TRIG c))⟩)
  ++ us.map (fun c => ⟨4, [R.CTX_CFG c, R.PLT_MEM c], 0, !tb (s.get (R.CTX_CFG_STG c)) 5 || plen s c != 0⟩)
  ++ us.map (fun c =>
    let d := s.get (R.CTX_CFG_SPSRC c)
    ⟨4, [R.CTX_CFG c, R.CTX_ROUTE d, R.CTX_CFG d], 0, d == 0 ||
      (ctxDefined s d && s.get (R.CTX_ROUTE_DEST d) == 4 && s.get (R.CTX_ROUTE_NUM d) == c)⟩)
  ++ us.flatMap (fun c => (List.range 6).map (fun k =>
    ⟨4, sourceRegs s c k, 0, sourceOk s c (s.word (R.CTX_SRC c k)).toNat⟩))
  ++ us.map (fun c =>
    let ring := us.filter (fun d => (waitClosure s 63 (waitedCtxs s c)).contains d
      && (waitClosure s 63 (waitedCtxs s d)).contains c)
    ⟨4, ring.map R.CTX_CFG ++ ring.flatMap (fun d => ((List.range 6).filter (fun k =>
      s.get (R.CTX_SRC_KIND d k) == 6 && ring.contains (s.get (R.CTX_SRC_INDEX d k)))).map (R.CTX_SRC d)), 0,
      !onWaitCycle s c⟩)
  ++ us.flatMap (fun c => [⟨4, routeRegs s c, 0, routeOk s c⟩,
    ⟨4, R.CTX_ROUTE c :: (us.filter (fun d => decide (d < c) && s.word (R.CTX_ROUTE d) == s.word (R.CTX_ROUTE c))).map
      R.CTX_ROUTE, 0, !routeShared s c⟩])
  ++ us.flatMap (fun c =>
    [⟨4, [R.CTX_LIM0 c], 0, decide (s.sget (R.CTX_LIM0_LO c) ≤ s.sget (R.CTX_LIM0_HI c))⟩,
     ⟨4, [R.CTX_ILIM c], 0, decide (s.sget (R.CTX_ILIM_ILO c) ≤ s.sget (R.CTX_ILIM_IHI c))⟩])
  ++ us.map (fun c => ⟨4, [R.CTX_FRZ c, R.CTX_SRC c (s.get (R.CTX_FRZ_FSRC c))], 0, !s.on (R.CTX_FRZ_FRZEN c) ||
      (decide (2 ≤ s.get (R.CTX_FRZ_FRZN c)) && s.get (R.CTX_SRC_KIND c (s.get (R.CTX_FRZ_FSRC c))) != 0)⟩)
  ++ (seams.filter (fun c => !ctxDefined s c)).flatMap (fun c => (List.range 43).map (fun k =>
    ⟨4, [R.CTX_CFG c + 4 * k, R.CTX_CFG c], 0, s.word (R.CTX_CFG c + 4 * k) == resetWord (R.CTX_CFG c + 4 * k)⟩))

/-- Sample interval of a seam in steps: P × (SMPDIV + 1). -/
def sampleSteps (s : State) (n : Nat) : Nat := perOf s n * (s.get (R.MOD_OPT_SMPDIV n) + 1)

/-- Table 7.6, the pool apart. A context without a pleat has its PLT_MEM row and its PLT_QF judged alone: its PLT_CFG, the
resolution and LEAD mean nothing there (log entry 80). -/
def pltRelations (s : State) : List Relation :=
  seams.map (fun c => ⟨4, [R.PLT_MEM c, R.CTX_CFG c], 0, (plen s c == 0 || decide (16 ≤ plen s c)) &&
      ((plen s c != 0) == tb (s.get (R.CTX_CFG_STG c)) 5)⟩)
  ++ seams.map (fun c =>
    let b := s.get (R.PLT_MEM_BASE c)
    ⟨4, [R.PLT_MEM c], 0, if plen s c = 0 then b == 0 else
      seams.all (fun d => decide (c ≤ d) || plen s d == 0 || decide (b + plen s c ≤ s.get (R.PLT_MEM_BASE d)) ||
        decide (s.get (R.PLT_MEM_BASE d) + plen s d ≤ b))⟩)
  ++ (seams.filter (fun c => plen s c != 0)).flatMap (fun c =>
    let ix := s.get (R.PLT_CFG_PIDX c)
    let car := s.on (R.PLT_CFG_PSRC c)
    let m := s.get (R.PLT_CFG_MULT c)
    let d := s.get (R.PLT_CFG_DIV c)
    let st := sampleSteps s (s.get (R.CTX_CFG_TRIG c))
    [⟨4, [R.PLT_CFG c], 0, if car then seamUsed s ix else ix == 0 || ix == 19⟩,
     ⟨4, [R.PLT_CFG c], 0, if car then m == 0 else m != 0⟩,
     ⟨4, [R.PLT_CFG c], 0, if car then decide (2 ≤ d) else d == 0⟩,
     ⟨4, [R.PLT_MEM c, R.PLT_CFG c, R.CTX_CFG c], 0,
       if car then decide (plen s c * st ≤ 8 * d * perOf s ix) else decide (plen s c * m * 65 * st ≤ 8 * stepsPerSecond)⟩,
     ⟨4, [R.PLT_CTL c, R.PLT_MEM c], 0, decide (s.get (R.PLT_CTL_LEAD c) < plen s c)⟩])
  ++ seams.map (fun c => ⟨4, [R.PLT_QF c], 0,
      decide (s.sget (R.PLT_QF_QC c) + 2 * s.sget (R.PLT_QF_QS c) ≤ 32768)⟩)

/-- Does a pleat region reach beyond the pool of the part (R155)? -/
def poolAbsent (s : State) : Bool :=
  seams.any (fun c => plen s c != 0 && decide (s.part.pool < s.get (R.PLT_MEM_BASE c) + plen s c))

/-! ### Costs and the budget (R123, R132) -/

/-- COST of a context. -/
def costOf (s : State) (c : Nat) : Nat :=
  let g := s.get (R.CTX_CFG_STG c)
  let src (j n : Nat) : Nat := ((List.range n).filter (fun k => s.get (R.CTX_SRC_KIND c (j + k)) != 0)).length
  let st (k n : Nat) : Nat := if tb g k then n else 0
  8 + src 0 4 + st 0 2 + st 1 1 + st 2 5 + st 3 5 + st 4 3 + st 5 14 + (if tb g 6 then src 4 2 else 0) + st 7 2 + 2

/-- The average load as a fraction of cycles per second. -/
def loadFraction (s : State) : Nat × Nat :=
  (ctxsUsed s).foldl (fun a c =>
    let st := sampleSteps s (s.get (R.CTX_CFG_TRIG c))
    if st = 0 then a else (a.1 * st + costOf s c * stepsPerSecond * a.2, a.2 * st)) (0, 1)

/-- CTX_LOAD.LOAD in whole units of 0.1 %: 1.629 % reads 16 in the worked example of R132 (log entry 1); BUDGET keeps it at 900
or below. -/
def loadOf (s : State) : Nat := (loadFraction s).1 * 1000 / ((loadFraction s).2 * 3200000000)

/-- The sample and update instants of a seam, in steps, and the latency of its contexts (R106, R107). -/
def smpStep (s : State) (n : Nat) : Nat := s.get (R.MOD_INST_SMP n) * perOf s n / 65536
def updStep (s : State) (n : Nat) : Nat := s.get (R.MOD_INST_UPD n) * perOf s n / 65536
def latOf (s : State) (n : Nat) : Nat := updStep s n - smpStep s n

/-- Nominal completion of a sequence after its trigger, in engine cycles (R168). -/
def nominalDone (s : State) (q : Nat) : Nat :=
  (([0, 1, 2, 3].map (fun v => (((List.range (s.get (R.ACQ_SQCFG_NENT q))).filter (fun e => entConv s q e == v)).map
    (fun e => 40 * entAvg s q e)).sum)).max?).getD 0

/-- Executions (ready, cost, number) placed on lanes that are free from the given cycles: do all end by `u`? -/
def placeAll (u : Nat) : Nat → List (Nat × Nat × Nat) → List Nat → Bool
  | 0, jobs, _ => jobs.isEmpty
  | f + 1, jobs, lanes =>
    match jobs with
    | [] => true
    | j :: js =>
      let free := (lanes.min?).getD 0
      let rdy := js.foldl (fun a x => min a x.1) j.1
      let t := max free rdy
      let can := (j :: js).filter (fun x => decide (x.1 ≤ t))
      let best := can.foldl (fun (a : Nat × Nat × Nat) x =>
        if a.2.1 < x.2.1 ∨ (a.2.1 = x.2.1 ∧ x.2.2 < a.2.2) then x else a) (can.headD j)
      decide (t + best.2.1 ≤ u) && placeAll u f ((j :: js).filter (fun x => x.2.2 != best.2.2))
        ((t + best.2.1) :: lanes.erase free)

/-- The window check of a seam (R132, item 2). -/
def windowOk (s : State) (n : Nat) : Bool :=
  let jobs := (contextsOf s n).map (fun c =>
    (((waitedSeqs s c).map (nominalDone s)).foldl max 4, costOf s c, c))
  placeAll (latOf s n / 16) 64 jobs (List.replicate 8 0)

/-- Does the Pattern break the budget (R132)? -/
def budgetBroken (s : State) : Bool :=
  let l := loadFraction s
  decide (l.2 * 2880000000 < l.1) || (used s).any (fun n => triggersCtx s n && !windowOk s n)

/-! ### ACQ (Table 8.4) -/

/-- The allowed ranges of the ACQ section. -/
def acqFields : List FieldRule :=
  [⟨0x070100, [(16, 0x10)], 0, 6, 0, 32⟩, ⟨0x071000, [(512, 4)], 20, 4, 0, 8⟩, ⟨0x071000, [(512, 4)], 16, 4, 0, 8⟩,
   ⟨0x070100, [(16, 0x10)], 30, 2, 0, 2⟩, ⟨0x070100, [(16, 0x10)], 22, 2, 0, 2⟩, ⟨0x070200, [(8, 0x10)], 30, 2, 0, 1⟩]

/-- The source of a chain, `f` steps up. -/
def chainBack (s : State) (q : Nat) : Nat → Nat → Bool
  | 0, _ => false
  | f + 1, c => s.get (R.ACQ_SQCFG_TSRC c) == 2 &&
      (s.get (R.ACQ_SQCFG_TNUM c) == q || chainBack s q f (s.get (R.ACQ_SQCFG_TNUM c)))

/-- Table 8.4. -/
def acqRelations (s : State) : List Relation :=
  let qs := List.range 16
  let nent (q : Nat) : Nat := s.get (R.ACQ_SQCFG_NENT q)
  qs.map (fun q => ⟨5, [R.ACQ_SQCFG q, R.ACQ_SQCTL q] ++ (List.range 32).map (fun e => R.ACQ_ENT (32 * q + e)), 0,
      nent q != 0 || (s.word (R.ACQ_SQCFG q) == 0 && s.word (R.ACQ_SQCTL q) == 0)⟩)
  ++ qs.flatMap (fun q => ((List.range 32).filter (fun e => decide (nent q ≤ e))).map (fun e =>
      ⟨5, [R.ACQ_ENT (32 * q + e), R.ACQ_SQCFG q], 0, s.word (R.ACQ_ENT (32 * q + e)) == 0⟩))
  ++ qs.map (fun q =>
    let n := s.get (R.ACQ_SQCFG_TNUM q)
    ⟨5, [R.ACQ_SQCFG q, R.ACQ_SQCFG n], 0, match s.get (R.ACQ_SQCFG_TSRC q) with
      | 0 => n == 0
      | 1 => seamUsed s n
      | _ => decide (n < 16) && n != q && nent n != 0 && !chainBack s q 16 n⟩)
  ++ (List.range 8).map (fun k =>
    let n := s.get (R.ACQ_UGCFG_TNUM k)
    ⟨5, [R.ACQ_UGCFG k], 0, if s.get (R.ACQ_UGCFG_TSRC k) = 1 then seamUsed s n else n == 0⟩)

/-! ### WIN (Table 9.3) -/

/-- The allowed ranges of the WIN section. -/
def winFields : List FieldRule := [⟨0x081004, [(64, 0x20)], 0, 8, 0, 200⟩]

/-- Table 9.3. A window of MODE 0 may keep TGT at its reset value. -/
def winRelations (s : State) : List Relation :=
  let ws := List.range 64
  let off (w : Nat) : Bool := s.get (R.WIN_CFG_MODE w) == 0
  ws.map (fun w => ⟨6, [R.WIN_CFG w, R.WIN_BLK w], 0, !off w ||
      ((s.word (R.WIN_CFG w) == 0 || s.word (R.WIN_CFG w) == resetWord (R.WIN_CFG w)) && s.word (R.WIN_BLK w) == 0)⟩)
  ++ (ws.filter (fun w => !off w)).flatMap (fun w =>
    let t := s.get (R.WIN_CFG_TGT w)
    let c := s.get (R.WIN_CFG_CLRSEAM w)
    let b := s.get (R.WIN_BLK_BLKSEAM w)
    let l := s.get (R.WIN_BLK_BLKLEN w)
    [⟨6, [R.WIN_CFG w], 0, t == 0x80 || isStitchCode t || (isSeamCode t && seamUsed s (t - 0x80))⟩,
     ⟨6, [R.WIN_CFG w], 0, if s.on (R.WIN_CFG_LATCH w) then seamUsed s c else c == 0⟩,
     ⟨6, [R.WIN_BLK w], 0, if b = 0 then l == 0 else seamUsed s b && decide (1 ≤ l)⟩,
     ⟨6, [R.WIN_THR w, R.WIN_CFG w], 0, s.get (R.WIN_CFG_MODE w) != 3 ||
       decide (s.get (R.WIN_THR_LO w) < s.get (R.WIN_THR_HI w))⟩])

/-! ### GRID (Table 10.6) -/

/-- The allowed ranges of the GRID section. -/
def grdFields : List FieldRule :=
  [⟨0x090000, [], 30, 2, 0, 2⟩, ⟨0x090000, [], 16, 4, 0, 8⟩, ⟨0x090010, [], 0, 16, 4096, 32767⟩, ⟨0x090014, [], 0, 12, 512, 2048⟩,
   ⟨0x090200, [(16, 4)], 30, 2, 0, 2⟩, ⟨0x090240, [(16, 4)], 30, 2, 0, 2⟩, ⟨0x090200, [(16, 4)], 16, 13, 0, 3000⟩,
   ⟨0x090024, [], 16, 7, 0, 96⟩, ⟨0x09001C, [], 16, 8, 2, 50⟩, ⟨0x090034, [], 10, 6, 2, 50⟩, ⟨0x090034, [], 6, 4, 1, 15⟩]

/-- Table 10.6, judged of an image that has a GRID section; a field that no record writes is judged at its reset value
(R380). -/
def grdRelations (s : State) : List Relation :=
  let q := s.get R.GRD_CFG_SQ
  let n := s.get (R.ACQ_SQCFG_TNUM q)
  let topo := s.get R.GRD_CFG_TOPO
  let ien := s.on R.GRD_CFG_IEN
  let ent (need : Bool) (ix : Nat) : Bool := if need then ix / 32 == q && resultDefined s ix else ix == 0
  let b := topo == 0 || topo == 2
  let c := topo == 0
  [⟨7, [R.GRD_CFG, R.ACQ_SQCFG q], 0, s.get (R.ACQ_SQCFG_TSRC q) == 1 && decide (32000 ≤ sampleSteps s n) &&
      decide (sampleSteps s n ≤ 800000)⟩,
   ⟨7, [R.GRD_SRC0, R.GRD_SRC1, R.GRD_SRC2, R.GRD_CFG, R.ACQ_SQCFG q], 0,
     ent true (s.get R.GRD_SRC0_VA) && ent b (s.get R.GRD_SRC0_VB) && ent c (s.get R.GRD_SRC1_VC) &&
     ent ien (s.get R.GRD_SRC1_IA) && ent (ien && b) (s.get R.GRD_SRC2_IB) && ent (ien && c) (s.get R.GRD_SRC2_IC)⟩,
   ⟨7, [R.GRD_CFG], 0, seamUsed s (s.get R.GRD_CFG_ROOT) && s.get (R.SEAM_DESC_PARENT (s.get R.GRD_CFG_ROOT)) == 0⟩,
   ⟨7, [R.GRD_NOM], 0, decide (4096 ≤ s.get R.GRD_NOM_VNOM) && decide (s.get R.GRD_NOM_VNOM ≤ 32767)⟩,
   ⟨7, [R.GRD_PLL], 0, decide (512 ≤ s.get R.GRD_PLL_KS) && decide (s.get R.GRD_PLL_KS ≤ 2048)⟩]
  ++ (List.range 32).map (fun i =>
    let w := pointWord s i
    ⟨7, [if i < 16 then R.GRD_VCRV i else R.GRD_FCRV (i - 16)], 0, if ptACT w = 0 then w == 0 else
      decide (i < 16) || (decide (4000 ≤ ptTH w) && decide (ptTH w ≤ 7000))⟩)
  ++ [⟨7, [R.GRD_FMEAS], 0, decide (2 ≤ s.get R.GRD_FMEAS_ROCWIN) && decide (s.get R.GRD_FMEAS_ROCWIN ≤ 50)⟩,
      ⟨7, [R.GRD_AIS], 0, decide (2 ≤ s.get R.GRD_AIS_PHALF) && decide (s.get R.GRD_AIS_PHALF ≤ 50) &&
        decide (1 ≤ s.get R.GRD_AIS_ADN)⟩,
      ⟨7, [R.GRD_AIS, R.GRD_ISL], 0, !s.on R.GRD_ISL_AISEN || s.get R.GRD_AIS_ADTH != 0⟩,
      ⟨7, [R.GRD_ENTV], 0, decide (s.get R.GRD_ENTV_VLO < s.get R.GRD_ENTV_VHI)⟩,
      ⟨7, [R.GRD_ENTF], 0, decide (s.get R.GRD_ENTF_FLO < s.get R.GRD_ENTF_FHI)⟩]

end Sys2Proof.Machine
end

