-- ==== Sys2Proof/Machine/LoadUnits.lean ====
section
/-!
DEFINITION. The loader's checks, part three: MTR (Table 11.6), SAFE (Tables 12.8, 14.5), FAULT (Table 13.10) and FAB
(Tables 17.6, 18.7), judged on a scratch state that holds the registers an image leaves.
-/
namespace Sys2Proof.Machine

/-! ### MTR (Table 11.6) -/

/-- The allowed ranges of the MTR section. -/
def mtrFields : List FieldRule := [⟨0x0A0008, [], 0, 6, 1, 60⟩]

/-- Table 11.6. -/
def mtrRelations (s : State) : List Relation :=
  let chs := [0, 1, 2, 3]
  let block (c : Nat) : List Nat := (List.range 20).map (fun k => R.MTR_CHCFG c + 4 * k)
  let en (c : Nat) : Bool := s.on (R.MTR_CHCFG_CHEN c)
  chs.map (fun c => ⟨8, block c, 0, if en c then
      s.get (R.MTR_CHCFG_AINV c) != s.get (R.MTR_CHCFG_AINI c) && (!s.on (R.MTR_CHCFG_DC c) || c == 3)
        && decide (1 ≤ s.get (R.MTR_CHCFG_ZHYS c))
    else (block c).all (fun a => s.word a == 0)⟩)
  ++ (chs.filter en).map (fun c => ⟨8, [R.MTR_KV c, R.MTR_KI c, R.MTR_CHCFG c], 0,
      s.word (R.MTR_KV c) != 0 && s.word (R.MTR_KI c) != 0⟩)
  ++ (chs.filter en).map (fun c => ⟨8, (List.range 8).map (R.MTR_SEGB c) ++ [R.MTR_CHCFG c], 0,
      s.get (R.MTR_SEGB_B c 0) == 0 &&
        (List.range 7).all (fun k => decide (s.get (R.MTR_SEGB_B c k) < s.get (R.MTR_SEGB_B c (k + 1))))⟩)

/-! ### SAFE: SAF (Table 12.8) -/

/-- The allowed ranges of the SAFE section. -/
def safFields : List FieldRule :=
  [⟨0x0B0000, [], 26, 6, 0, 50⟩, ⟨0x0B0020, [(4, 4)], 0, 9, 0, 500⟩, ⟨0x0D0000, [(16, 0x40)], 29, 3, 0, 3⟩]

/-- Is any hem stream enabled? -/
def hemEnabled (s : State) : Bool :=
  s.on R.SAF_HTXCFG_EN || (List.range 4).any (fun k => s.on (R.SAF_HRXCFG_EN k))

/-- The identifiers of the enabled hem streams: format, identifier. -/
def hemIds (s : State) : List (Bool × Nat) :=
  ((List.range 4).filter (fun k => s.on (R.SAF_HRXCFG_EN k))).map (fun k =>
    (s.on (R.SAF_HRXCFG_XID k), s.get (R.SAF_HRXID_ID k)))
  ++ (if s.on R.SAF_HTXCFG_EN then [(s.on R.SAF_HTXCFG_XID, s.get R.SAF_HTXCFG_ID)] else [])

/-- Does an identifier fit its format? -/
def idFits (e : Bool × Nat) : Bool := e.1 || decide (e.2 < 2048)

/-- Table 12.8. `wrote` says which registers the sections wrote. A stream that is not enabled may keep the reset value
of SAF_HRXTIM. -/
def safRelations (wrote : Nat → Bool) (s : State) : List Relation :=
  let ks := List.range 4
  let hrx (k : Nat) : List Nat := [R.SAF_HRXCFG k, R.SAF_HRXID k, R.SAF_HRXTIM k]
  let ids := hemIds s
  let a := s.get R.SAF_CFG_OLA
  let b := s.get R.SAF_CFG_OLB
  let wide (u : Nat) : Bool := decide (u < 14) && wrote (R.OVL_CFG u) && s.get (R.OVL_CFG_WIDTH u) == 32
  [⟨9, [R.SAF_CFG, R.SAF_HTXCFG] ++ ks.map R.SAF_HRXCFG, 0, !hemEnabled s || (a != b && wide a && wide b)⟩]
  ++ ks.map (fun p => ⟨9, [R.SAF_PCFG p], 0,
      if s.on (R.SAF_PCFG_EN p) then decide (1 ≤ s.get (R.SAF_PCFG_DISC p)) else s.word (R.SAF_PCFG p) == 0⟩)
  ++ [⟨9, [R.SAF_HVIL], 0,
      if s.on R.SAF_HVIL_HVEN then s.get R.SAF_HVIL_CODE != 0 && s.get R.SAF_HVIL_CODE != 0xFFFF
      else s.word R.SAF_HVIL == 0⟩]
  ++ ks.map (fun k => ⟨9, [R.SAF_CCFG k], 0,
      if s.on (R.SAF_CCFG_EN k) then decide (1 ≤ s.get (R.SAF_CCFG_TFB k)) else s.word (R.SAF_CCFG k) == 0⟩)
  ++ ks.map (fun k =>
    let me := (s.on (R.SAF_HRXCFG_XID k), s.get (R.SAF_HRXID_ID k))
    let p := s.get (R.SAF_HRXTIM_PER k)
    let w := s.get (R.SAF_HRXTIM_WIN k)
    ⟨9, hrx k, 0, if s.on (R.SAF_HRXCFG_EN k) then
        decide (2 ≤ p) && decide (1 ≤ w) && decide (w ≤ 20) && decide (w < p) && idFits me
          && (ids.filter (· == me)).length == 1
      else s.word (R.SAF_HRXCFG k) == 0 && s.word (R.SAF_HRXID k) == 0 &&
        (s.word (R.SAF_HRXTIM k) == 0 || s.word (R.SAF_HRXTIM k) == resetWord (R.SAF_HRXTIM k))⟩)
  ++ [⟨9, [R.SAF_HTXCFG, R.SAF_HTXTIM], 0, if s.on R.SAF_HTXCFG_EN then
        decide (2 ≤ s.get R.SAF_HTXTIM_PER)
      else s.word R.SAF_HTXCFG == 0 && s.word R.SAF_HTXTIM == 0⟩]

/-! ### SAFE: OVL (Table 14.5) -/

/-- The registers of a unit that hold its parameters. -/
def ovlParAddrs (u : Nat) : List Nat := (List.range 7).map (fun k => R.OVL_CFG u + 4 * k)

/-- CRC-32C (Table 14.3). -/
def crc32cPar : OvlPar := ⟨32, 0x1EDC6F41, 0xFFFFFFFF, 0xFFFFFFFF, true, true⟩

/-- The units with a role. -/
def unitsOf (s : State) (r : Nat) : List Nat := (List.range 14).filter (fun u => s.get (R.OVL_CFG_ROLE u) == r)

/-- Is any fabric port configured? -/
def fabricConfigured (s : State) : Bool := (List.range 4).any (fun p => s.on (R.FAB_PCFG_EN p))

/-- Table 14.5. -/
def ovlRelations (wrote : Nat → Bool) (s : State) : List Relation :=
  let us := List.range 14
  let cfgs := us.map R.OVL_CFG
  let hem (r u : Nat) : Bool := unitsOf s r == (if hemEnabled s then [u] else [])
  [⟨9, R.SAF_CFG :: cfgs, 0, hem 1 (s.get R.SAF_CFG_OLA) && hem 2 (s.get R.SAF_CFG_OLB)⟩,
   ⟨9, cfgs ++ (List.range 4).map R.FAB_PCFG, 0, (unitsOf s 3).length == (if fabricConfigured s then 1 else 0)⟩]
  ++ us.map (fun u => ⟨9, ovlParAddrs u, 0, s.get (R.OVL_CFG_ROLE u) != 0 || (ovlParAddrs u).all (fun a => !wrote a)⟩)
  ++ us.map (fun u =>
    let p := ovlParOf s u
    ⟨9, ovlParAddrs u, 0, match s.get (R.OVL_CFG_ROLE u) with
      | 0 => true
      | 3 => p == crc32cPar
      | _ => p.valid && p.width == 32⟩)

/-! ### FAULT (Table 13.10) -/

/-- Is `a` in a class block without a class (0 and 25–47), whose words are 0? -/
def blankClass (a : Nat) : Bool :=
  decide (0x0C0100 ≤ a) && decide (a < 0x0C0400) &&
    (decide (a < 0x0C0110) || decide (0x0C0290 ≤ a))

/-- The allowed ranges of the FAULT section. -/
def fltFields : List FieldRule :=
  let c := [(25, 0x10)]
  [⟨0x0C0100, c, 29, 3, 0, 4⟩, ⟨0x0C0100, c, 24, 2, 0, 2⟩, ⟨0x0C0100, c, 26, 3, 0, 4⟩, ⟨0x0C0100, c, 8, 8, 0, 100⟩,
   ⟨0x0C0104, c, 0, 16, 0, 60000⟩]

/-- Table 13.10. -/
def fltRelations (s : State) : List Relation :=
  let cs := (List.range 24).map (· + 1)
  cs.map (fun c => ⟨10, [R.FLT_MAP c], 0, if s.get (R.FLT_MAP_ESC c) = 0 then s.get (R.FLT_MAP_ESCMAX c) == 0
    else decide (s.get (R.FLT_MAP_TIER c) ≤ s.get (R.FLT_MAP_ESCMAX c))⟩)
  ++ cs.map (fun c => ⟨10, [R.FLT_MAP c], 0, s.get (R.FLT_MAP_SHLEN c) != 0 || !s.on (R.FLT_MAP_SHALL c)⟩)
  ++ cs.map (fun c => ⟨10, [R.FLT_MAP c, R.FLT_TIME c], 0, s.get (R.FLT_MAP_RLIM c) == 0 ||
      s.get (R.FLT_TIME_QPER c) == 0 || decide (1 ≤ s.get (R.FLT_TIME_CWIN c))⟩)

/-! ### FAB: CAN (Table 17.6) -/

/-- The allowed ranges of the FAB section. -/
def fabFields : List FieldRule :=
  let b := [(2, 0x4000)]
  [⟨0x184004, b, 16, 9, 0, 255⟩, ⟨0x184008, b, 8, 5, 0, 15⟩, ⟨0x190080, [(32, 4)], 30, 2, 0, 2⟩]

/-- Time quanta of a bit, with the prescaler: 80 MHz over the rate. -/
def nbtQuanta (s : State) (b : Nat) : Nat :=
  (s.get (R.CAN_NBT_BRP b) + 1) * (3 + s.get (R.CAN_NBT_TSEG1 b) + s.get (R.CAN_NBT_TSEG2 b))
def dbtQuanta (s : State) (b : Nat) : Nat :=
  (s.get (R.CAN_DBT_BRP b) + 1) * (3 + s.get (R.CAN_DBT_TSEG1 b) + s.get (R.CAN_DBT_TSEG2 b))

/-- Table 17.6. A bit timing is judged where a record writes it, and where the controller uses it. Log entry 44. -/
def canRelations (wrote : Nat → Bool) (s : State) : List Relation :=
  [0, 1].flatMap (fun b =>
    let on := s.on (R.CAN_CFG_EN b)
    let me (x : Nat) (i : Nat) : Bool × Nat := (x == 1, i)
    let q := me (s.get (R.CAN_SVC_XID b)) (s.get (R.CAN_SVC_ID b))
    let r := me (s.get (R.CAN_SVCR_XID b)) (s.get (R.CAN_SVCR_ID b))
    [⟨11, [R.CAN_NBT b, R.CAN_CFG b], 0, !(on || wrote (R.CAN_NBT b)) || (decide (1 ≤ s.get (R.CAN_NBT_TSEG1 b)) &&
        decide (s.get (R.CAN_NBT_SJW b) ≤ s.get (R.CAN_NBT_TSEG2 b)) && decide (80 ≤ nbtQuanta s b))⟩,
     ⟨11, [R.CAN_DBT b, R.CAN_NBT b, R.CAN_CFG b], 0, !((on && s.on (R.CAN_CFG_FDEN b)) || wrote (R.CAN_DBT b)) ||
        (decide (s.get (R.CAN_DBT_SJW b) ≤ s.get (R.CAN_DBT_TSEG2 b)) && decide (10 ≤ dbtQuanta s b) &&
          decide (dbtQuanta s b ≤ nbtQuanta s b))⟩,
     ⟨11, [R.CAN_SVC b, R.CAN_SVCR b, R.SAF_HTXCFG] ++ (List.range 4).map R.SAF_HRXID, 0,
        if s.on (R.CAN_SVC_EN b) then idFits q && idFits r && q != r && !(hemIds s).contains q && !(hemIds s).contains r
        else s.word (R.CAN_SVC b) == 0 && s.word (R.CAN_SVCR b) == 0⟩,
     ⟨11, [R.CAN_CFG b, R.SAF_HTXCFG] ++ (List.range 4).map R.SAF_HRXCFG, 0,
        (!s.on (R.CAN_CFG_HBRS b) || s.on (R.CAN_CFG_FDEN b)) && !(s.on (R.CAN_CFG_MODE b) && hemEnabled s)⟩])

/-! ### FAB: the fabric (Table 18.7) -/

/-- Does following ANCHOR from a role reach a FINGERPRINT role within `f` steps? -/
def anchored (s : State) : Nat → Nat → Bool
  | 0, r => s.get (R.FAB_ROLE_BIND r) == 1
  | f + 1, r => s.get (R.FAB_ROLE_BIND r) == 1 ||
      (s.get (R.FAB_ROLE_BIND r) == 2 && decide (1 ≤ s.get (R.FAB_ROLE_ANCHOR r)) &&
        decide (s.get (R.FAB_ROLE_ANCHOR r) ≤ 32) && anchored s f (s.get (R.FAB_ROLE_ANCHOR r)))

/-- The fingerprint of a role as its words. -/
def fprWords (s : State) (r : Nat) : List Word := (List.range 8).map (fun k => s.word (R.FAB_FPR r k))

/-- Table 18.7. -/
def fabRelations (s : State) : List Relation :=
  let rs := (List.range 32).map (· + 1)
  let bind (r : Nat) : Nat := s.get (R.FAB_ROLE_BIND r)
  let fpr (r : Nat) : List Nat := (List.range 8).map (R.FAB_FPR r)
  let zero (r : Nat) : Bool := (fprWords s r).all (· == 0)
  [⟨11, [R.FAB_CFG, R.FAB_EXPECT] ++ (List.range 4).map R.FAB_PCFG ++ rs.map R.FAB_ROLE ++ rs.flatMap fpr, 0,
    s.on R.FAB_CFG_EN || (s.word R.FAB_EXPECT == 0 && (List.range 4).all (fun p => s.word (R.FAB_PCFG p) == 0) &&
      rs.all (fun r => s.word (R.FAB_ROLE r) == 0 && zero r))⟩]
  ++ rs.map (fun r =>
    let a := s.get (R.FAB_ROLE_ANCHOR r)
    ⟨11, [R.FAB_ROLE r], 0, match bind r with
      | 0 => s.word (R.FAB_ROLE r) == 0
      | 2 => a != r && anchored s 31 r && rs.all (fun q => q == r || bind q != 2 || s.get (R.FAB_ROLE_ANCHOR q) != a
          || s.get (R.FAB_ROLE_PORT q) != s.get (R.FAB_ROLE_PORT r))
      | _ => true⟩)
  ++ rs.map (fun r => ⟨11, R.FAB_ROLE r :: fpr r, 0, (bind r == 1) == !zero r &&
      (zero r || rs.all (fun q => q == r || fprWords s q != fprWords s r))⟩)
  ++ [⟨11, R.FAB_EXPECT :: rs.map R.FAB_ROLE, 0, rs.all (fun r => !tb (s.get R.FAB_EXPECT_MAP) (r - 1) || bind r != 0)⟩]
  ++ ((used s).filter (fun n => seamType s n == tLINK)).flatMap (fun n =>
    let r := s.get (R.SEAM_LINK_ROLE n)
    [⟨11, [R.FAB_ROLE r, R.SEAM_LINK n], n, r == 0 || decide (32 < r) || bind r != 0⟩,
     ⟨11, [R.MOD_CAR (rootOf s n)], n, !hasRoot s n || decide (40960 ≤ perOf s n)⟩])

/-! ### All of them -/

/-- The single-field rules of every section. -/
def fieldRules : List FieldRule :=
  stiFields ++ lawFields ++ acqFields ++ winFields ++ grdFields ++ mtrFields ++ safFields ++ fltFields ++ fabFields

/-- Every relation, section by section in ascending ID; GRID only of an image that has the section (R203, R380). -/
def relations (grid : Bool) (wrote : Nat → Bool) (s : State) : List Relation :=
  stiRelations s ++ modRelations s ++ ctxRelations s ++ pltRelations s ++ acqRelations s ++ winRelations s
  ++ (if grid then grdRelations s else []) ++ mtrRelations s ++ safRelations wrote s ++ ovlRelations wrote s
  ++ fltRelations s ++ canRelations wrote s ++ fabRelations s

end Sys2Proof.Machine
end

