-- ==== Sys2Proof/Machine/Verify.lean ====
section
/-!
DEFINITION. Verification of an image (R49, R50, R380, Table 3.4): eight steps in order, the first failure deciding,
with its code and the offset of the item that fails.
-/
namespace Sys2Proof.Machine

/-- What a verification finds: a PAT_ERR code (0 for a pass) with its offset, and for step 6 what SEAM_CHK takes. -/
structure Verdict where
  code   : Nat
  offset : Nat
  chk    : Option ChkFail
  deriving DecidableEq, Repr

/-- A failure that is not of the structure checks. -/
def failAt (c o : Nat) : Verdict := ⟨c, o, none⟩

/-- A pass. -/
def Verdict.pass : Verdict := ⟨0, 0, none⟩

def eBAD_MAGIC := 0x01
def eBAD_FORMAT := 0x02
def eBAD_LENGTH := 0x03
def eBAD_DIRECTORY := 0x04
def eBAD_RECORD := 0x05
def eOUT_OF_RANGE := 0x06
def eBAD_FIELD := 0x07
def eSECTION_CRC := 0x08
def eKEY_UNSET := 0x09
def eKEY_MISMATCH := 0x0A
def eSIGNATURE := 0x0B
def eMTR_SEALED := 0x0C
def eABSENT_UNIT := 0x10
def eBUDGET := 0x11
def eSLOT_BLANK := 0x30

/-! ### Step 1: the header, and where SIG lies (R40, R50) -/

/-- The offset of the last directory entry. -/
def lastEntry (bs : List Byte) : Nat := 0x30 + 16 * leField bs 0x0C 2

/-- SIG's OFFSET, from the last directory entry. -/
def sigOffset (bs : List Byte) : Nat := leField bs (lastEntry bs + 4) 4

/-- Step 1. -/
def step1 (bs : List Byte) : Option Verdict :=
  let len := leField bs 0x08 4
  let n := leField bs 0x0C 2
  let e := lastEntry bs
  let o := sigOffset bs
  if slice bs 0 4 ≠ [0x54, 0x51, 0x50, 0x54] then some (failAt eBAD_MAGIC 0)
  else if leField bs 4 2 ≠ 1 then some (failAt eBAD_FORMAT 4)
  else if leField bs 6 2 ≠ 0x40 then some (failAt eBAD_FORMAT 6)
  else if leField bs 0x0F 1 ≠ 0 then some (failAt eBAD_FORMAT 0x0F)
  else if zeroBytes bs 0x20 32 = false then some (failAt eBAD_FORMAT 0x20)
  else if len % 4 ≠ 0 ∨ len < 264 ∨ 1048576 < len ∨ len ≠ bs.length then some (failAt eBAD_LENGTH 8)
  else if n < 2 ∨ 13 < n ∨ len < 0x40 + 16 * n then some (failAt eBAD_DIRECTORY 0x0C)
  else if leField bs e 1 ≠ idSIG ∨ leField bs (e + 8) 4 ≠ 132 ∨ o % 4 ≠ 0 ∨ o < 0x40 + 16 * n ∨ o + 132 ≠ len then
    some (failAt eBAD_DIRECTORY e)
  else none

/-! ### Step 2: the key and the signature (R47) -/

/-- The signed message: everything before SIG. -/
def signedPart (bs : List Byte) : List Byte := bs.take (sigOffset bs)

/-- The fused hash of the customer key (Table 14.16), as a number. -/
def keyHash (s : State) : Nat := (List.range 8).foldl (fun a k => a * 2 ^ 32 + (s.word (R.IDN_KHASH k)).toNat) 0

/-- Are the customer key hash fuses blank? After KFAIL they are not (R282). -/
def fusesBlank (s : State) : Bool := !s.on R.IDN_STAT_KEYSET && !s.on R.IDN_STAT_KFAIL

/-- Step 2. After KFAIL every key mismatches (R282). -/
def step2 (s : State) (bs : List Byte) : Option Verdict :=
  let o := sigOffset bs
  let num (k : Nat) : Nat := beNat (slice bs (o + 4 + 32 * k) 32)
  if fusesBlank s then some (failAt eKEY_UNSET 0)
  else if s.on R.IDN_STAT_KEYSET = false ∨ sha256 (slice bs (o + 4) 64) ≠ keyHash s then some (failAt eKEY_MISMATCH o)
  else if leField bs o 2 ≠ 1 ∨ leField bs (o + 2) 2 ≠ 0 ∨
      ecdsaVerify (num 0) (num 1) (sha256 (signedPart bs)) (num 2) (num 3) = false then some (failAt eSIGNATURE o)
  else none

/-! ### Step 3: directory, records, relations (R41–R45, R380) -/

/-- An entry of the directory against R41: `prev` is the ID before, `fin` the end of what lies before its body. -/
def directoryFault (bs : List Byte) : Nat → Nat → List DirEntry → Option Nat
  | _, _, [] => none
  | prev, fin, e :: t =>
    let known := (decide (1 ≤ e.id) && decide (e.id ≤ 12)) || e.id == idSIG
    if e.pad ≠ 0 ∨ known = false ∨ e.id ≤ prev ∨ e.offset % 4 ≠ 0 ∨ e.length % 4 ≠ 0 ∨ e.offset < fin
        ∨ bs.length < e.offset + e.length ∨ zeroBytes bs fin (e.offset - fin) = false
        ∨ (prev = 0 ∧ e.id ≠ idSTRUCT) then some e.at_
    else directoryFault bs e.id (e.offset + e.length) t

/-- Pass 1. -/
def pass1 (bs : List Byte) : Option Verdict :=
  (directoryFault bs 0 (0x40 + 16 * leField bs 0x0C 2) (directory bs)).map (failAt eBAD_DIRECTORY)

/-- The ranges that a section's records may address (Table 3.3). -/
def inSection (id a : Nat) : Bool :=
  let b := a / 0x10000
  match id with
  | 0x01 => decide (0x020040 ≤ a) && decide (a < 0x021000)
  | 0x02 => b == 3
  | 0x03 => b == 4
  | 0x04 => b == 5 || b == 6
  | 0x05 => b == 7
  | 0x06 => b == 8
  | 0x07 => b == 9
  | 0x08 => b == 0x0A
  | 0x09 => b == 0x0B || b == 0x0D
  | 0x0A => b == 0x0C
  | 0x0B => b == 0x18 || b == 0x19
  | _ => decide (a < 0x1A0000) && b != 1

/-- Does an address hold a register that a record may name: a register, a word of the pleat window or of the meter
ring, or a class block without a class? -/
def addressable (a : Nat) : Bool :=
  (regAt a).isSome || (decide (0x100000 ≤ a) && decide (a < 0x180000))
    || (decide (0x0A8000 ≤ a) && decide (a < 0x0AA000)) || blankClass a

/-- The bits of an address that are not reserved. -/
def definedBits (a : Nat) : Word :=
  match regAt a with
  | some r => BitVec.ofNat 32 r.defd
  | none => if 0x0A8000 ≤ a then BitVec.allOnes 32 else 0

/-- May a section write this register at all (Tables 11.6, 14.5)? -/
def sectionMayWrite (a : Nat) : Bool :=
  let o := a - 0x0D0000
  if a / 0x10000 = 0x0A then sealAddr a
  else if a / 0x10000 = 0x0D then decide (o / 0x40 < 14) && decide (o % 0x40 ≤ 0x18)
  else true

/-- The single-field rules of one word (R44, R380 pass 2): reserved bits, derived fields, ranges; of INIT, reserved
bits (R45). -/
def wordFault (id a : Nat) (w : Word) : Bool :=
  if w &&& ~~~(definedBits a) ≠ 0 then true
  else if id = idINIT then false
  else if blankClass a then w != 0
  else !sectionMayWrite a || fieldRules.any (fun r => !r.keeps a w)

/-- The single-field rules of a seam record (R43): derived fields 0, LINK and TRIAD words only of their types. -/
def seamRecordFault (r : Record) : Bool :=
  let w (k : Nat) : Word := ((r.words.drop k).headD (0, 0)).2
  let ty := bitsOf (w 0) 29 3
  bitsOf (w 0) 8 8 != 0 || bitsOf (w 0) 0 7 != 0 || (ty != tLINK && w 1 != 0) || (ty != tTRIAD && (w 2 != 0 || w 3 != 0))

/-- A record against the rules of pass 2 that follow its structure. -/
def recordFault (r : Record) : Option Verdict :=
  if r.words.any (fun e => !(inSection r.sect e.1 && addressable e.1)) then some (failAt eOUT_OF_RANGE r.at_)
  else if r.words.any (fun e => wordFault r.sect e.1 e.2) || (r.sect == idSTRUCT && seamRecordFault r) then
    some (failAt eBAD_FIELD r.at_)
  else none

/-- Pass 2: section by section in image order, record by record. Log entry 44. -/
def pass2 (bs : List Byte) : Option Verdict :=
  (recordSections bs).findSome? (fun e =>
    let r := sectionRecords bs e
    (r.1.findSome? recordFault).orElse (fun _ => r.2.map (failAt eBAD_RECORD)))

/-- The record of a seam. -/
def seamRecordAt (bs : List Byte) (n : Nat) : Option Nat :=
  ((configRecords bs).find? (fun r => r.sect == idSTRUCT && (r.words.headD (0, 0)).1 == R.SEAM_DESC n)).map (·.at_)

/-- The offset that a broken relation reports: the latest record that wrote a register involved; else the directory
entry of its section, or the STRUCT record of its seam. Log entry 28. -/
def relationOffset (bs : List Byte) (r : Relation) : Nat :=
  let hits := (configRecords bs).filter (fun c => c.words.any (fun e => r.addrs.contains e.1))
  match hits.getLast? with
  | some c => hits.foldl (fun a x => max a x.at_) c.at_
  | none => match dirEntry bs r.sect with
    | some e => e.at_
    | none => (seamRecordAt bs r.seam).getD 0x40

/-- Pass 3. -/
def pass3 (s : State) (bs : List Byte) : Option Verdict :=
  let ws := (configWords bs).map (·.1)
  let grid := (dirEntry bs idGRID).isSome
  ((relations grid (fun a => ws.contains a) (scratch s bs)).find? (fun r => !r.ok)).map (fun r =>
    failAt eBAD_FIELD (relationOffset bs r))

/-- Step 3. -/
def step3 (s : State) (bs : List Byte) : Option Verdict := pass1 bs <|> pass2 bs <|> pass3 s bs

/-! ### Steps 4–8 -/

/-- Step 4 (R46). -/
def step4 (bs : List Byte) : Option Verdict :=
  ((directory bs).find? (fun e => if e.id = idMTR ∨ e.id = idSAFE then crc32 (slice bs e.offset e.length) != e.crc
    else e.ver != 0 || e.crc != 0)).map (fun e => failAt eSECTION_CRC e.at_)

/-- Does a word of a record name something that the part lacks (R6, R155)? -/
def namesAbsent (s : State) (id a : Nat) (w : Word) : Bool :=
  let stitchOff (c : Nat) : Bool := decide (s.part.stitches ≤ c) && decide (c < 96)
  let child (k : Nat) : Bool := stitchOff (bitsOf w (8 * k) 8)
  absent s a
  || (id == idSTRUCT && decide (0x10 ≤ a % 0x40) && (List.range 4).any child)
  || (id == idLAW && decide (0x050100 ≤ a) && decide (a < 0x054000) && decide (4 ≤ a % 0x100) && decide (a % 0x100 < 0x1C)
      && bitsOf w 28 4 == 2 && stitchOff (bitsOf w 0 9))
  || (id == 0x06 && decide (0x081000 ≤ a) && a % 0x20 == 0 && bitsOf w 30 2 != 0 && stitchOff (bitsOf w 8 8))

/-- Does the image give a role to the far end of a port of the module's own role that the part lacks (R6, R360)? The
module's own role is the one bound to its fingerprint. -/
def portAbsent (s t : State) : Bool :=
  (List.range 32).any (fun k =>
    let r := k + 1
    let a := t.get (R.FAB_ROLE_ANCHOR r)
    t.get (R.FAB_ROLE_BIND r) == 2 && decide (s.part.ports ≤ t.get (R.FAB_ROLE_PORT r)) && t.get (R.FAB_ROLE_BIND a) == 1
      && roleFpr t a == ownFpr)

/-- The records that give a role a port which the part lacks. -/
def portRegs (s t : State) : List Nat :=
  (((List.range 32).map (· + 1)).filter (fun r => decide (s.part.ports ≤ t.get (R.FAB_ROLE_PORT r)))).map R.FAB_ROLE

/-- Step 5. A pleat region beyond the pool, and the port of a role, are judged on what the image leaves. An MTR entry
whose body holds no record refers to no unit. Log entry 44. -/
def step5 (s : State) (bs : List Byte) : Option Verdict :=
  (((records bs).find? (fun r => r.words.any (fun e => namesAbsent s r.sect e.1 e.2))).map (fun r =>
    failAt eABSENT_UNIT r.at_)).orElse (fun _ =>
    if poolAbsent (scratch s bs) then
      some (failAt eABSENT_UNIT (relationOffset bs ⟨idLAW, seams.map R.PLT_MEM, 0, false⟩))
    else if portAbsent s (scratch s bs) then
      some (failAt eABSENT_UNIT (relationOffset bs ⟨0x0B, portRegs s (scratch s bs), 0, false⟩))
    else none)

/-- Step 6 (R35). -/
def step6 (s : State) (bs : List Byte) : Option Verdict :=
  (structureFail (scratch s bs)).map (fun f => ⟨f.code, (seamRecordAt bs f.seam).getD 0x40, some f⟩)

/-- Step 7 (R132). -/
def step7 (s : State) (bs : List Byte) : Option Verdict :=
  if budgetBroken (scratch s bs) then
    some (failAt eBUDGET (((dirEntry bs idLAW).map (·.offset)).getD 0x40))
  else none

/-- Does an image's MTR section match the seal (Table 3.7)? -/
def matchesSeal (s : State) (bs : List Byte) : Bool :=
  mtrOf bs == some (s.get R.PAT_SEAL_MTR_VER, s.get R.PAT_SEALCRC_CRC)

/-- Does step 8 refuse an image (Table 3.8)? -/
def sealRefuses (s : State) (bs : List Byte) : Bool :=
  s.get R.PAT_STAT_SEAL == 2 && mode s != mFITTING && !matchesSeal s bs

/-- Step 8; a missing section has no item of its own, and offset 0. -/
def step8 (s : State) (bs : List Byte) : Option Verdict :=
  if sealRefuses s bs then some (failAt eMTR_SEALED (((dirEntry bs idMTR).map (·.at_)).getD 0)) else none

/-- Verification of the bytes of an image (Table 3.4). Log entry 44. -/
def verifyBytes (s : State) (bs : List Byte) : Verdict :=
  (step1 bs <|> step2 s bs <|> step3 s bs <|> step4 bs <|> step5 s bs <|> step6 s bs <|> step7 s bs
    <|> step8 s bs).getD Verdict.pass

/-- Did step 6 find the structure good, or judge it at all? -/
def reachedStep6 (v : Verdict) : Bool :=
  v.code == 0 || v.code == eBUDGET || v.code == eMTR_SEALED || v.chk.isSome

end Sys2Proof.Machine
end

