-- ==== Sys2Proof/Machine/Pattern.lean ====
section
/-!
DEFINITION. The Pattern manager up to its long runs: PAT_CTL (R55, Table 3.5, Table 3.6), streaming (R56), the seal
(R58), the confirm window (R61, R62), and the start of a start (R60, Table 3.9). Verification and apply end in
Apply.lean.
-/
namespace Sys2Proof.Machine

/-! ### Images -/

/-- The memory that holds an image. -/
def imageOf (s : State) : Source → ImageMem
  | .slotA => s.pat.slotA
  | .slotB => s.pat.slotB
  | .staging => s.pat.staging

/-- PAT_STAT.SOURCE of a source. -/
def sourceCode : Source → Nat
  | .slotA => 0 | .slotB => 1 | .staging => 2

/-- The slot with a number (0 A, 1 B). -/
def slotNamed (k : Nat) : Source := if k = 0 then .slotA else .slotB

/-- Put an image into a slot memory; PAT_SLOT shows VALID and LEN (Table 3.16). -/
def putSlot (k : Nat) (m : ImageMem) (s : State) : State :=
  let s1 := if k = 0 then { s with pat := { s.pat with slotA := m } } else { s with pat := { s.pat with slotB := m } }
  (s1.flag (R.PAT_SLOT_VALID k) m.valid).put (R.PAT_SLOT_LEN k) (if m.valid then m.bytes.length else 0)

/-- Staging becomes empty; STAGED falls. -/
def emptyStaging (s : State) : State :=
  { s.flag R.PAT_STAT_STAGED false with pat := { s.pat with staging := ⟨false, []⟩ } }

/-- Is a work a verification? -/
def PatWork.verifies : PatWork → Bool
  | .idle => false
  | .stream _ => false
  | .verifyOnly _ => true
  | .verifyLoad _ => true
  | .verifyStart _ => true
  | .apply _ => false
  | .commit _ => false

/-- The manager works on `w`; BUSY follows, and a verification takes its place in the signing engine (R283). -/
def setWork (w : PatWork) (s : State) : State :=
  let s1 := { s.flag R.PAT_STAT_BUSY (w != .idle) with pat := { s.pat with work := w } }
  if w.verifies || s1.idn.queue.any (·.isVerify) then syncVerify w.verifies s1 else s1

/-- A command completes: DONE sets (Table 3.14). -/
def patDone (s : State) : State := s.flag R.PAT_STAT_DONE true

/-- PAT_ERR takes a code and an offset (R49). -/
def putPatErr (c o : Nat) (s : State) : State := (s.put R.PAT_ERR_CODE c).put R.PAT_ERR_OFFSET o

/-! ### Starts (R60, Table 3.9) -/

/-- A start begins at CHECK. -/
def beginStart (s : State) : State :=
  let s0 := (((s.flag R.PWR_STAT_STARTING true).flag R.PWR_STAT_SFAIL false).flag R.PWR_BOOT_CAUSE_BASTING false).flag
    R.PWR_BOOT_CAUSE_FALLBACK false
  let s1 := s0.put R.PWR_BOOT_CAUSE_SLOT 3
  if fusesBlank s1 then goBasting ((endStart s1).put R.PWR_BOOT_CAUSE_CODE cKEY_UNSET)
  else
    let s2 := if s1.pat.openMark then
        (s1.put R.PWR_BOOT_CAUSE_FAILS (min 3 (s1.get R.PWR_BOOT_CAUSE_FAILS + 1))).put R.PWR_BOOT_CAUSE_CODE cSUPPLY_LOSS
      else s1
    if s2.get R.PWR_BOOT_CAUSE_FAILS = 3 then goBasting (endStart s2)
    else setWork (.verifyStart (slotNamed (s2.get R.PAT_STAT_ACTIVE)))
      { s2 with pat := { s2.pat with start := .tryActive, openMark := true } }

/-- The start that R62 item 3 begins, once no other work is in progress. -/
def startAfterExpiry (s : State) : State := beginStart { s with pat := { s.pat with undone := true, late := false } }

/-- The work in progress ends: BUSY falls, DONE sets, and the start that waited for it begins (R62). -/
def endWork (s : State) : State :=
  let s1 := patDone (setWork .idle s)
  if s1.pat.late then startAfterExpiry s1 else s1

/-- Was a load made in BASTING, where R307 governs it, also while a discharge that began there runs? -/
def inBasting (s : State) : Bool := mode s == mBASTING || (mode s == mDISCHARGE && s.pwr.disFrom == mBASTING)

/-- The window of a host load ran out (R62): the load is undone at once and a start begins; in BASTING the group switches
off, after a discharge that runs, and the module stays there (R307). An open stream and a verify-only run end as by ABORT, a commit and another load run
to their end before the start begins. Log entry 47. -/
def loadExpired (s : State) : State :=
  let s1 := unload { s with pat := { s.pat with loadWait := false } }
  if inBasting s1 then
    if mode s1 == mBASTING && groupOn s1 && s1.pwr.downTo.isNone then beginPowerDown mBASTING s1 else s1
  else
    let s2 := s1.put R.PWR_BOOT_CAUSE_CODE cCONFIRM_TIMEOUT
    let late := { s2 with pat := { s2.pat with late := true } }
    match s2.pat.work with
    | .idle => startAfterExpiry s2
    | .stream _ => endWork (emptyStaging late)
    | .verifyOnly _ => endWork (emptyStaging late)
    | .verifyLoad _ => late
    | .verifyStart _ => late
    | .apply _ => late
    | .commit _ => late

/-! ### Commands -/

/-- CMD_ERR takes the reason; the interrupt is raised through DONE (R55). -/
def patRefuse (e : Nat) (s : State) : State := patDone (s.put R.PAT_STAT_CMD_ERR e)

/-- Is the work in progress one that ABORT may end (R55)? -/
def abortable : PatWork → Bool
  | .stream _ => true
  | .verifyOnly _ => true
  | _ => false

/-- The first reason against a command (R55, Table 3.5, Table 3.6); none where it is accepted. -/
def patJudge (guard : Bool) (c : Nat) (s : State) : Option Nat :=
  let m := mode s
  let loadMode := m == mREADY || m == mFITTING || m == mBASTING
  let commitMode := m == mFITTING || m == mBASTING
  if !guard then some 1
  else if c = 0 ∨ 0xD < c then some 8
  else if s.on R.PAT_STAT_BUSY && !(c == 0xD && abortable s.pat.work) then some 2
  else if (c = 4 ∨ c = 5 ∨ c = 6) ∧ loadMode = false then some 3
  else if (c = 7 ∨ c = 8) ∧ c - 7 = s.get R.PAT_STAT_ACTIVE ∧ commitMode = false then some 3
  else if c = 0xC ∧ m ≠ mFITTING then some 3
  else if (c = 4 ∨ c = 7 ∨ c = 8) ∧ s.on R.PAT_STAT_STAGED = false then some 4
  else if c = 0xC ∧ s.part.isM = false then some 7
  else if c = 0xC ∧ (s.pat.mtr = none ∨ s.on R.MTR_STAT_CALDIRTY = true) then some 5
  else if c = 1 ∧ (s.get R.PAT_LEN_LENGTH % 4 ≠ 0 ∨ s.get R.PAT_LEN_LENGTH < 264 ∨ 1048576 < s.get R.PAT_LEN_LENGTH)
    then some 6
  else none

/-- STREAM_BEGIN (R56). Log entry 42. -/
def patStreamBegin (s : State) : State := setWork (.stream (s.get R.PAT_LEN_LENGTH)) (emptyStaging s)

/-- A host load is accepted: a start that awaits confirmation ends uncounted (R61). -/
def supersede (s : State) : State := if s.pat.start = .await then endStart { s with pat := { s.pat with undone := false } } else s

/-- The apply of a verified image begins with its step 1; in BASTING the group is switched on first, after a power-down
that still runs (R307). -/
def beginApply (src : Source) (s : State) : State :=
  let s1 := setWork (.apply src) s
  if s1.pwr.downTo.isSome then s1
  else if groupOn s1 then
    stepOne (imageOf s1 src).bytes { s1 with pat := { s1.pat with loadWait := false } }
  else switchGroupOn s1

/-- LOAD_STAGED: the staged image has been verified; the seal is judged again in the mode of the load (Table 3.8). -/
def patLoadStaged (s : State) : State :=
  let s1 := supersede s
  let bs := s1.pat.staging.bytes
  match step8 s1 bs with
  | some v => patDone (putPatErr v.code v.offset s1)
  | none => beginApply .staging s1

/-- COMMIT of the staged image into slot `k`: the VALID mark is erased first (R57). -/
def patCommit (k : Nat) (s : State) : State := setWork (.commit (slotNamed k)) (putSlot k ⟨false, []⟩ s)

/-- SELECT of slot `k`. -/
def patSelect (k : Nat) (s : State) : State := patDone (s.put R.PAT_STAT_ACTIVE k)

/-- CONFIRM of the present start or load; with nothing awaiting, only DONE sets (R61). -/
def patConfirm (s : State) : State :=
  patDone (if s.pat.loadWait then loadSucceeded s else if s.pat.start = .await then startSucceeded s else s)

/-- SEAL_MTR (R58, Table 3.7). -/
def patSeal (s : State) : State :=
  match s.pat.mtr with
  | some (v, c) =>
    let s1 := ((s.put R.PAT_SEAL_MTR_VER v).put R.PAT_SEALCRC_CRC c).put R.PAT_STAT_SEAL 2
    patDone (addMirror (s1.inc R.PAT_SEALCNT_CNT) .seal)
  | none => s

/-- ABORT: a stream or verify-only run stops at once, slots untouched, and staging becomes empty (R55). -/
def patAbort (s : State) : State := endWork (emptyStaging s)

/-- An accepted command of Table 3.5. -/
def patCommand (c : Nat) (s : State) : State :=
  match c with
  | 1 => patStreamBegin s
  | 2 => setWork (.verifyOnly .slotA) s
  | 3 => setWork (.verifyOnly .slotB) s
  | 4 => patLoadStaged s
  | 5 => setWork (.verifyLoad .slotA) (supersede s)
  | 6 => setWork (.verifyLoad .slotB) (supersede s)
  | 7 => patCommit 0 s
  | 8 => patCommit 1 s
  | 9 => patSelect 0 s
  | 0xA => patSelect 1 s
  | 0xB => patConfirm s
  | 0xC => patSeal s
  | 0xD => patAbort s
  | _ => s

/-- A write of PAT_CTL (R55). -/
def writePatCtl (d : Word) (s : State) : State :=
  let c := bitsOf d 0 4
  match patJudge (guardOk d) c s with
  | some e => patRefuse e s
  | none => patCommand c (s.put R.PAT_STAT_CMD_ERR 0)

/-- A word written to PAT_STREAM: packed little-endian into staging while a stream is open, else discarded; the last
word starts the verification (R56). -/
def writePatStream (p : Nat) (d : Word) (s : State) : State :=
  match s.pat.work with
  | .stream len =>
    let bs := s.pat.staging.bytes ++ leBytes 4 d.toNat
    let s1 := { s with pat := { s.pat with staging := ⟨false, bs⟩ } }
    if len ≤ bs.length then setWork (.verifyOnly .staging) s1 else s1
  | _ => discarded p R.PAT_STREAM s

/-- PAT_COMMIT_DONE (R57): the slot takes the image and its VALID mark is written last. -/
def execPatCommitDone (s : State) : Host.Outcome State Fault Refusal :=
  .next (match s.pat.work with
    | .commit src => endWork (putSlot (sourceCode src) ⟨true, s.pat.staging.bytes⟩ s)
    | _ => s)

/-- START_BEGIN (R60, R293): PD1 and PD3 are on, the restores have completed, and a start is due. -/
def execStartBegin (s : State) : Host.Outcome State Fault Refusal :=
  .next (if s.pwr.startDue ∧ domOn s 1 = true ∧ domOn s 3 = true ∧ s.on R.PWR_STAT_RESTPEND = false then beginStart { s with pwr := { s.pwr with startDue := false } } else s)

end Sys2Proof.Machine
end

