-- ==== Sys2Proof/Machine/Stitch.lean ====
section
/-!
DEFINITION. Stitch drive (spec/04): the dielet's gates and states, its frames, its telemetry and alerts, the
controller's view, retirement, and the bleed.
-/
namespace Sys2Proof.Machine

/-! ### The dielet -/

/-- A setting as dielet `n` has loaded it (R85); before any WRITE it holds the register's reset word. -/
def dieletSetting (d : Dielet) (o : Nat) : Word := tget (fun k => resetWord (R.STI_CFG 0 + k)) d.settings o

/-- One field of a setting of the dielet; `f` names the field in the block of S00. -/
def dieletField (d : Dielet) (f : Field) : Nat := bitsOf (dieletSetting d (f.addr - R.STI_CFG 0)) f.lo f.wd

/-- The strength step of setting `k` (0 HS_ON, 1 HS_OFF, 2 LS_ON, 3 LS_OFF). -/
def stepOf (d : Dielet) (k : Nat) : Nat := tget (fun _ => 0x20) d.steps k

/-- Change dielet `n`. -/
def onDielet (n : Nat) (f : Dielet → Dielet) (s : State) : State := setDielet s n (f (dielet s n))

/-- BST − SW, in 0.1 V units, is below the BST_UV threshold of STI_BST (R76). -/
def bstLow (d : Dielet) (bst : Nat) : Bool := decide (bst < 30 + dieletField d (R.STI_BST_UV 0))

/-- GL begins to turn on; into a bypass that awaits it, verification begins (R92). -/
def glStarts (n : Nat) (s : State) : State := onDielet n Dielet.glOn s

/-- GH would begin to turn on: the bootstrap decides (R76). -/
def ghStarts (n bst : Nat) (s : State) : State :=
  if bstLow (dielet s n) bst then toHiz n 0x0B s
  else onDielet n (fun d => { d with gh := true, incoming := none }) s

/-- The stitch falls out of its link state: asleep, gates off, mode forgotten (R81, R87, Table 4.13). -/
def sleepDielet (n : Nat) (s : State) : State :=
  onDielet n (fun d => { d.off with st := .asleep, cause := 0, mode := none, clamp := false, topup := false,
                                    bstreq := false, otwarn := false, verify := false, hemoff := false, bad := 0,
                                    lost := false }) s

/-- Retirement at the dielet (R91, R92): OPEN at once, BYPASS through an ordinary LOW and its verification, which waits
for GH to be off (R70); a clamp in force becomes the bypass (R83). A waking dielet takes the mode once its self-test has
passed. -/
def retireDielet (n : Nat) (opn : Bool) (s : State) : State :=
  let d := dielet s n
  if d.st = .waking then setDielet s n { d with mode := some opn }
  else if d.mode = some opn then s
  else if opn then setDielet s n d.toOpen
  else if d.hemoff then setDielet s n { d.off with mode := some false, clamp := false }
  else if d.gh ∨ d.incoming = some .low then
    setDielet s n { d with mode := some false, clamp := false, gh := false, incoming := some .low, inG := some .low
                           outG := if d.gh then some .high else d.outG }
  else setDielet s n d.toBypass

/-- The bleed latch of dielet `n` releases (R96). -/
def endBleed (n : Nat) (s : State) : State :=
  if (dielet s n).bleed then
    let s1 := onDielet n (fun d => { d with bleed := false }) s
    setBleedSt s1 n { bleedSt s1 n with ended := some s1.cyc }
  else s

/-! ### Frames at the dielet -/

/-- Dielet `n` loses its downlink: gates off in every state, HIZ with LINK_DN, until it has retrained (R87). -/
def loseDownlink (n : Nat) (s : State) : State := onDielet n (fun d => { d with lost := true }) (toHiz n 0x0E s)

/-- A management frame arrives at dielet `n` (Table 4.9, R87): a bad CRC is counted, and three in a row lose the
link; a good frame is accepted and acted on. A dielet that has lost its downlink hears none. STI_LNK.DN_ERR counts at the
dielet's event (log entry 62). -/
def frameIn (n : Nat) (f : MgmtRx) (act : State → State) (s : State) : State :=
  let d := dielet s n
  if stitchThere s n && d.st != .asleep && !d.lost && domOn s 5 then
    if f.crcOk then act (onDielet n (fun d => { d with bad := 0, ack := f.seq.toNat }) s)
    else
      let s1 := s.incSat (R.STI_LNK_DN_ERR n)
      if d.bad = 2 then
        let s2 := onDielet n (fun d => { d with bad := 0 }) s1
        if d.awake then loseDownlink n s2 else s2
      else onDielet n (fun d => { d with bad := d.bad + 1 }) s1
  else s

/-- WRITE loads a setting (Table 4.10); STI_STR sets the four steps (R75). -/
def frameWrite (n reg : Nat) (data : Word) (s : State) : State :=
  if settingOffsets.contains (4 * reg) then
    let s1 := onDielet n (fun d => { d with
      settings := tset (fun k => resetWord (R.STI_CFG 0 + k)) d.settings (4 * reg) data }) s
    if reg = 10 then
      onDielet n (fun d => { d with steps := (List.range 4).foldl (fun l k =>
        tset (fun _ => 0x20) l k (bitsOf data (8 * k) 6)) d.steps }) s1
    else s1
  else s

/-- HOLD enters HIZ from IDLE and RUN (Table 4.13). -/
def frameHold (n : Nat) (s : State) : State :=
  match (dielet s n).st with
  | .idle => if (dielet s n).mode = none then toHiz n 0x10 s else s
  | .run => if (dielet s n).mode = none then toHiz n 0x10 s else s
  | _ => s

/-- RELEASE leaves HIZ, or is refused while the cause is still present (R82). -/
def frameRelease (n : Nat) (present : Bool) (s : State) : State :=
  let d := dielet s n
  if d.st = .hiz ∧ d.mode = none then
    if present ∧ d.cause ≠ 0x10 then sendAlert n d.cause s
    else setDielet s n { d.off with st := .idle, cause := 0, clamp := false }
  else s

/-- UNRETIRE leaves the retirement state for IDLE (Table 4.13); a waking dielet forgets the mode that it was to take. -/
def frameUnretire (n : Nat) (s : State) : State :=
  let d := dielet s n
  if d.st = .waking then setDielet s n { d with mode := none }
  else if d.mode.isSome then
    setDielet s n { d.off with mode := none, st := .idle, cause := 0, topup := false, verify := false, clamp := false }
  else s

/-- BLEED sets or clears the latch (R96); no second bleed starts within 10 s of the first (R97). -/
def frameBleed (n : Nat) (data : Word) (s : State) : State :=
  if bitsOf data 0 1 = 1 then
    let ok := match (bleedSt s n).ended with
      | none => true
      | some t => decide (t + tenSeconds ≤ s.cyc)
    if ok then onDielet n (fun d => { d with bleed := true }) s else s
  else endBleed n s

/-! ### The controller's view -/

/-- The view becomes ASLEEP: silence is expected, nothing is due, and every state flag but RETIRED and the sticky
ones clears (R81, R87). -/
def viewAsleep (n : Nat) (s : State) : State :=
  let s1 := setView n stASLEEP 0 s
  let s2 := ((((((s1.flag (R.STI_STATE_SETOK n) false).flag (R.STI_STATE_CLAMP n) false).flag (R.STI_STATE_TOPUP n)
    false).flag (R.STI_STATE_BSTREQ n) false).flag (R.STI_STATE_OTWARN n) false).flag (R.STI_STATE_BLEED n)
    false).flag (R.STI_STATE_HEMOFF n) false
  refreshCaps (syncCmd n (setLink s2 n
    { link s2 n with due := [], out := [], settings := false, held := false, silent := true, leave := false }))

/-- What follows when a stitch is heard for the first time since it was ASLEEP (R85, R89, R91, R250). -/
def viewWakes (n : Nat) (s : State) : State :=
  let s1 := setLink s n { link s n with silent := false, held := false }
  let s2 := sendSettings n (s1.incSat (R.STI_LNK_TRAIN n))
  if retired s2 n then queueFrame n frRETIRE 0 (bit (ledgerOf s2 n).mode) s2 else s2

/-- Stitch `n`, seen in state `was`, is heard: out of ASLEEP, or while WAKING after a retry, its settings are sent (R85). -/
def heard (n was : Nat) (s : State) : State :=
  if was = stASLEEP then viewWakes n s
  else if was = stWAKING ∧ (link s n).settings = false then sendSettings n s
  else s

/-- Is a RETIRE frame of stitch `n` not acknowledged yet? Its dielet may not be retired then. -/
def retiring (s : State) (n : Nat) : Bool := ((link s n).due ++ (link s n).out).any (fun f => f.ty == frRETIRE)

/-- The uplink of stitch `n` is lost (R87): FAULT, which takes no modulator command. -/
def uplinkFault (n : Nat) (s : State) : State :=
  let s1 := noteView n stFAULT 0x0F s
  let s2 := refreshCaps (s1.put (R.STI_FCAUSE_MAP n) (s1.get (R.STI_FCAUSE_MAP n) ||| 2 ^ 14))
  occur kLINK (linkScope n) 0x0F (syncCmd n s2)

/-- The class of a cause code (Table 4.8), 0 where it has none. -/
def causeClass (c : Nat) : Nat :=
  match c with
  | 0x01 => kDSAT | 0x02 => kDSAT | 0x03 => kDSAT | 0x04 => kCOV
  | 0x05 => kGUV | 0x06 => kGUV | 0x07 => kGUV | 0x08 => kGUV | 0x09 => kGUV | 0x11 => kGUV
  | 0x0A => kBST | 0x0B => kBST | 0x0C => kOT | 0x0D => kXCMD | 0x0E => kLINK | 0x0F => kLINK
  | _ => 0

/-- Does a stitch in HIZ with cause `c` clamp an overvoltage (R83), by its COVCLAMP? -/
def clampable (covclamp c : Nat) : Bool := covclamp == 1 && causeClass c != kDSAT && causeClass c != kGUV

/-- STI_FCAUSE takes the bit of a cause code. -/
def stickCause (n c : Nat) (s : State) : State := s.put (R.STI_FCAUSE_MAP n) (s.get (R.STI_FCAUSE_MAP n) ||| 2 ^ (c - 1))

/-- The occurrence of a cause at the fault manager, if the cause has a class. Log entry 16. -/
def causeOccurs (n c : Nat) (s : State) : State :=
  if causeClass c = 0 then s else occur (causeClass c) (stitchScope n) c s

/-- A RELEASE that stitch `n` has not acknowledged yet: an alert may then report a new Hi-Z rather than the present
one. -/
def releasing (s : State) (n : Nat) : Bool := (link s n).out.any (fun f => f.ty == frRELEASE)

/-- What the controller does once it sees stitch `n` awake, which it saw in state `was` before: the bleed of R303 in
DISCHARGE, HEMOFF (R90), the hold that covers it (R250), and PCDONE. -/
def viewRises (n was : Nat) (s : State) : State :=
  if was < 2 ∧ seenAwake s n = true then
    let s1 := s.flag (R.STI_STATE_HEMOFF n) (hemActive s)
    checkPcdone (syncStitch n (if mode s1 = mDISCHARGE then askBleed n s1 else s1))
  else s

/-- Does an alert 0x04 report a clamp (R83), and not the refusal of a RELEASE (R82) or a new Hi-Z? Log entry 17. -/
def clampAlert (s : State) (n : Nat) : Bool :=
  let hc := s.get (R.STI_STATE_HIZCAUSE n)
  s.get (R.STI_STATE_STATE n) == stHIZ && clampable (s.get (R.STI_CFG_COVCLAMP n)) hc && !releasing s n
    && !(hc == 0x04 && s.on (R.STI_STATE_CLAMP n))

/-- An alert with cause `c` reaches the controller (R81, R82, R83, R92, R94). -/
def alertIn (n c at_ : Nat) (s : State) : State :=
  let st := s.get (R.STI_STATE_STATE n)
  let hc := s.get (R.STI_STATE_HIZCAUSE n)
  if c = 0x40 then hearBst n true (some at_) s
  else if c = 0x41 then viewAsleep n s
  else if c = 0x08 then causeOccurs n c (viewAsleep n (stickCause n c s))
  else if c = 0x04 ∧ clampAlert s n = true then
    let s1 := s.flag (R.STI_STATE_CLAMP n) true
    if hc = 0x04 then s1 else causeOccurs n c (stickCause n c s1)
  else
    let s1 := stickCause n c (heard n st s)
    let s2 :=
      if c = 0x11 then noteView n stFAULT c s1
      else if c = 0x0E then noteView n stHIZ c s1
      else if retired s n && !(retiring s n && decide (st ≤ stRUN)) then
        (if c = 0x02 ∨ c = 0x09 then noteView n stFAULT c s1 else if c = 0x03 ∨ c = 0x07 then noteView n stHIZ c s1 else s1)
      else if st = stIDLE ∨ st = stRUN then noteView n stHIZ c s1
      else if st = stHIZ ∧ hc ≠ 0 ∧ c ≠ 0x10 ∧ releasing s n = false then s1
      else if st ≠ stFAULT ∧ c ≠ 0x0D then noteView n stHIZ c s1
      else s1
    causeOccurs n c (viewRises n st (refreshCaps (syncCmd n s2)))

/-- The management frames that an acknowledgement covers leave the link (R382): every frame up to the one whose
number it carries, an earlier one that the dielet rejected included (log entry 23). -/
def acked (seq : Nat) (l : List MgmtFrame) : List MgmtFrame × List MgmtFrame :=
  match l.findIdx? (fun f => f.seq == seq) with
  | some i => (l.take (i + 1), l.drop (i + 1))
  | none => ([], l)

/-- An acknowledgement arrives: SETOK (R85), STI_STR (R75) and SLEEP (R87) follow. -/
def ackIn (n seq : Nat) (s : State) : State :=
  let l := link s n
  let a := acked seq l.out
  let strDone := a.1.any (fun f => f.ty == frWRITE && f.reg == 10)
  let s1 := setLink s n { l with out := a.2, str := if strDone then none else l.str }
  let s2 := checkSetok n s1
  if a.1.any (fun f => f.ty == frSLEEP) then viewAsleep n s2 else s2

/-- The state that a valid uplink frame gives the view (R89): FAULT waits for its retry, for a retirement to show, or for
the end of one; RUN against IDLE is the controller's own. Log entry 18. -/
def viewFrom (s : State) (n st : Nat) : Nat :=
  let v := s.get (R.STI_STATE_STATE n)
  if v = stFAULT then
    let shows := if retired s n then st == stBYPASS || st == stOPEN else st == stIDLE
    if (link s n).leave && shows then st else v
  else if (v = stIDLE ∨ v = stRUN) ∧ (st = stIDLE ∨ st = stRUN) then v
  else st

/-- A valid uplink frame updates telemetry, edge values, flags and the view (Table 4.11, R86, R89). -/
def uplinkIn (n : Nat) (u : UplinkFrame) (s : State) : State :=
  let was := s.get (R.STI_STATE_STATE n)
  let s0 := if was = stASLEEP ∧ u.state.toNat = stASLEEP then s else heard n was s
  let t1 := (s0.put (R.STI_TEL0_SEQ n) u.seq.toNat).put (R.STI_TEL0_VCELL n) u.vcell.toNat
  let t2 := match u.auxsel.toNat % 4 with
    | 0 => t1.put (R.STI_TEL0_TEMP n) u.aux.toNat
    | 1 => t1.put (R.STI_TEL1_VBST n) u.aux.toNat
    | 2 => t1.put (R.STI_TEL1_VGD n) u.aux.toNat
    | _ => t1.put (R.STI_TEL1_VNEGM n) u.aux.toNat
  let k := u.edgesel.toNat
  let t3 := (t2.put ⟨R.STI_STR n, 8 * k, 6⟩ u.str.toNat).put ⟨R.STI_EDGE n, 8 * k, 8⟩ u.etime.toNat
  let fl := u.flags.toNat
  let t4 := ((((hearBst n (tb fl 7) none t3).flag (R.STI_STATE_OTWARN n) (tb fl 6)).flag
    (R.STI_STATE_CLAMP n) (tb fl 5)).flag (R.STI_STATE_TOPUP n) (tb fl 4)).flag (R.STI_STATE_BLEED n) (tb fl 3)
  let v := viewFrom t4 n u.state.toNat
  let t5 := syncCmd n (noteView n v (t4.get (R.STI_STATE_HIZCAUSE n)) t4)
  let t6 := setLink t5 n { link t5 n with telTick := t5.telTick - (t5.telTick + 16 - u.seq.toNat) % 16 }
  let t7 := ackIn n u.ack.toNat t6
  let t8 := viewRises n was t7
  checkPcdone (if t8.get (R.STI_STATE_STATE n) = was then t8 else refreshCaps t8)

/-! ### Register writes -/

/-- STI_CMD (Table 4.24): RETIRE in any mode, CLEAR in FITTING; anything else sets CMDERR. -/
def writeStiCmd (n : Nat) (d : Word) (s : State) : State :=
  let c := bitsOf d 0 4
  if guardOk d ∧ c = 1 then retire n 0xF0 s
  else if guardOk d ∧ c = 2 ∧ mode s = mFITTING then unretire n s
  else s.flag (R.STI_STATE_CMDERR n) true

/-- STI_UCMD (Table 4.29): CLEAR_ALL in FITTING. -/
def writeStiUcmd (d : Word) (s : State) : State :=
  if guardOk d ∧ bitsOf d 0 4 = 2 ∧ mode s = mFITTING then forL (List.range 96) unretire s
  else s.flag R.STI_LEDGER_CMDERR true

/-- The bounds of setting `k` of stitch `n` (STI_SLIM0, STI_SLIM1). -/
def stepBounds (s : State) (n k : Nat) : Nat × Nat :=
  let j := k / 2
  if k % 2 = 0 then (s.get (R.STI_SLIM_ON_MIN n j), s.get (R.STI_SLIM_ON_MAX n j))
  else (s.get (R.STI_SLIM_OFF_MIN n j), s.get (R.STI_SLIM_OFF_MAX n j))

/-- STI_STR: clamped to the bounds and sent to the dielet; the register keeps what the dielet last reported (R75). -/
def writeStiStr (n : Nat) (d : Word) (s : State) : State :=
  let w := (List.range 4).foldl (fun a k =>
    let b := stepBounds s n k
    a + clampNat b.1 b.2 (bitsOf d (8 * k) 6) * 2 ^ (8 * k)) 0
  let s1 := setLink s n { link s n with str := some (BitVec.ofNat 32 w) }
  if seenAwake s1 n then queueFrame n frWRITE 10 w s1 else s1

/-- STI_ADCTL: the settings follow to an awake dielet. -/
def writeStiAdctl (n : Nat) (d : Word) (s : State) : State :=
  let s1 := plainWrite (R.STI_ADCTL n) d s
  if seenAwake s1 n then queueFrame n frWRITE 9 (s1.word (R.STI_ADCTL n)).toNat s1 else s1

/-! ### Commands: waking and supply -/

/-- An event at stitch `n` happens only on a part that has the stitch. -/
def atStitch (n : Nat) (s t : State) : Host.Outcome State Fault Refusal := .next (if stitchThere s n then t else s)

/-- CELL_WAKE (R89, R96): the cell rises through V_WAKE from below V_UVLO, which also releases a bleed. -/
def execCellWake (n : Fin 96) (s : State) : Host.Outcome State Fault Refusal :=
  atStitch n s (
    let s1 := endBleed n s
    if (dielet s1 n).st = .asleep then onDielet n (fun d => { d with st := .waking }) s1 else s1)

/-- DIELET_IDLE_WAKE (R89): the downlink runs only while PD5 is on. -/
def execDieletIdleWake (n : Fin 96) (s : State) : Host.Outcome State Fault Refusal :=
  atStitch n s (
    if (dielet s n).st = .asleep ∧ domOn s 5 then onDielet n (fun d => { d with st := .waking }) s else s)

/-- STITCH_WAKE_DONE (R89, R91): self-test passed or failed. A dielet to which RETIRE came while it woke goes to its
retirement state; to any other that the ledger names RETIRE is on its way (R12, log entry 63). -/
def execStitchWakeDone (n : Fin 96) (pass : Bool) (s : State) : Host.Outcome State Fault Refusal :=
  atStitch n s (
    if (dielet s n).st = .waking ∧ domOn s 5 then
      let s0 := onDielet n (fun d => { d with hemoff := hemActive s }) s
      if pass then
        let s1 := onDielet n (fun d => { d with st := .idle, cause := 0, mode := none }) s0
        match (dielet s0 n).mode with
        | some opn => retireDielet n opn s1
        | none => s1
      else sendAlert n 0x11 (onDielet n (fun d => { d with st := .fault, cause := 0x11 }) s0)
    else s)

/-- CELL_UVLO (R81). -/
def execCellUvlo (n : Fin 96) (s : State) : Host.Outcome State Fault Refusal :=
  atStitch n s (
    let d := dielet s n
    if d.st = .asleep then s
    else sleepDielet n (if d.st = .run ∧ d.mode = none then sendAlert n 0x08 s else if d.awake then sendAlert n 0x41 s else s))

/-! ### Commands: symbols and gates -/

/-- SYMBOL_OFF (R68): both gates turn off in RUN and IDLE. -/
def execSymbolOff (n : Fin 96) (s : State) : Host.Outcome State Fault Refusal :=
  atStitch n s (
    let d := dielet s n
    if (d.st = .run ∨ d.st = .idle) ∧ d.mode = none then gatesOff n s else s)

/-- SYMBOL_LOW (R68, R70, R71). -/
def execSymbolLow (n : Fin 96) (s : State) : Host.Outcome State Fault Refusal := atStitch n s (onDielet n Dielet.low s)

/-- SYMBOL_HIGH (R68, R70, R71, R76): `bst` is BST − SW in 0.1 V units, for a GH that starts at once. -/
def execSymbolHigh (n : Fin 96) (bst : BitVec 7) (s : State) : Host.Outcome State Fault Refusal :=
  atStitch n s (
    let d := dielet s n
    if drives d then
      if d.gh ∨ d.incoming = some .high then s
      else if d.gl then setDielet s n { d with gl := false, incoming := some .high, outG := some .low, inG := some .high }
      else if d.incoming = some .low then ghStarts n bst.toNat (onDielet n (fun d => { d with inG := some .high }) s)
      else setDielet s n { d with incoming := some .high, inG := some .high }
    else s)

/-- SYMBOL_INVALID (R68): Hi-Z from RUN and IDLE, elsewhere recorded. -/
def execSymbolInvalid (n : Fin 96) (s : State) : Host.Outcome State Fault Refusal :=
  atStitch n s (
    let d := dielet s n
    if (d.st = .run ∨ d.st = .idle) ∧ d.mode = none then toHiz n 0x0D s
    else if d.st = .asleep then s
    else sendAlert n 0x0D s)

/-- GATE_TURN_ON (R70, R76): the incoming gate starts; `bst` is BST − SW in 0.1 V units. -/
def execGateTurnOn (n : Fin 96) (bst : BitVec 7) (s : State) : Host.Outcome State Fault Refusal :=
  atStitch n s (
    let d := dielet s n
    if d.hemoff then s
    else match d.incoming with
      | some .high => ghStarts n bst.toNat s
      | some .low => glStarts n s
      | none => s)

/-- HANDSHAKE_TIMEOUT (R70). -/
def execHandshakeTimeout (n : Fin 96) (s : State) : Host.Outcome State Fault Refusal :=
  atStitch n s (if (dielet s n).incoming = none then s else toHiz n 0x07 s)

/-- The turn-on setting of a gate, and its turn-off setting: 0 HS_ON, 1 HS_OFF, 2 LS_ON, 3 LS_OFF. -/
def onSetting : Gate → Nat
  | .high => 0 | .low => 2
def offSetting : Gate → Nat
  | .high => 1 | .low => 3

/-- The setting that a switch-node transition is attributed to (R73): `early` says that the node passed 10 % before the
incoming gate began to turn on. An edge to OFF, or one commutated in the dead time, takes the turn-off setting of the
gate that turned off; a hard-switched one the turn-on setting of the incoming gate. None where no gate has moved. -/
def attributed (d : Dielet) (early : Bool) : Option Nat :=
  match d.inG with
  | none => d.outG.map offSetting
  | some g => if early || d.incoming == some g then d.outG.map offSetting else some (onSetting g)

/-- The strength law (R74) at setting `k` for an edge of `t` quarter nanoseconds. -/
def strengthLaw (d : Dielet) (k t : Nat) : Dielet :=
  let d1 := { d with edges := tset (fun _ => 0) d.edges k t }
  let tgt := bitsOf (dieletSetting d 0x18) (8 * k) 8
  let lim := dieletSetting d (0x1C + 4 * (k / 2))
  let lo := bitsOf lim (if k % 2 = 0 then 0 else 16) 6
  let hi := bitsOf lim (if k % 2 = 0 then 8 else 24) 6
  let frz := tb (dieletField d (R.STI_ADCTL_FRZ 0)) k
  let e := if tgt ≤ t then t - tgt else tgt - t
  if frz ∨ e ≤ dieletField d (R.STI_ADCTL_DB 0) then d1
  else
    let m := if tgt < 4 * e then 4 else 1
    let st := stepOf d k
    { d1 with steps := tset (fun _ => 0x20) d.steps k (if tgt < t then min (st + m) hi else max (st - m) lo) }

/-- EDGE_COMPLETE (R73, R74): the edge took `t` quarter nanoseconds (0xFF: longer than the timer reads); `early` says that
the switch node passed 10 % before the incoming gate began to turn on. Log entry 62. -/
def execEdgeComplete (n : Fin 96) (early : Bool) (t : BitVec 8) (s : State) : Host.Outcome State Fault Refusal :=
  atStitch n s (
    let d := dielet s n
    match attributed d early with
    | some k => if d.awake then setDielet (s.inc (R.STI_EDGECNT_ADAPT n)) n (strengthLaw d k t.toNat) else s
    | none => s)

/-- EDGE_INCOMPLETE (R73). Log entry 62. -/
def execEdgeIncomplete (n : Fin 96) (s : State) : Host.Outcome State Fault Refusal :=
  atStitch n s (if (dielet s n).awake then s.inc (R.STI_EDGECNT_INCOMP n) else s)

/-- STI_STR_WRITE (R75). -/
def execStiStrWrite (n : Fin 96) (w : PortWrite) (s : State) : Host.Outcome State Fault Refusal :=
  .next (guarded w.port (R.STI_STR n) w.data (writeStiStr n w.data) s)

/-- BST_WARN_CROSS (R77). -/
def execBstWarnCross (n : Fin 96) (s : State) : Host.Outcome State Fault Refusal :=
  atStitch n s (
    if (dielet s n).gh then sendAlert n 0x40 (onDielet n (fun d => { d with bstreq := true }) s) else s)

/-- BSTREQ_CLEAR (R77): GL has read "on" for 80 ns; a bootstrap still below BST_WARN requests again at once. -/
def execBstreqClear (n : Fin 96) (low : Bool) (s : State) : Host.Outcome State Fault Refusal :=
  atStitch n s (
    let d := dielet s n
    if d.bstreq ∧ d.gl then
      if low then sendAlert n 0x40 s else onDielet n (fun d => { d with bstreq := false }) s
    else s)

/-! ### Commands: detectors -/

/-- STITCH_DETECTOR (R72, R80, R94): a condition of Table 4.8 outlasts its filter. Under retirement DSAT_LS ends in FAULT
and BOTH_ON in Hi-Z. A stitch already in HIZ reports it and
keeps its state and cause; there COV is left to the clamp, which reports it itself (R83). -/
def execStitchDetector (n : Fin 96) (c : DieletCause) (s : State) : Host.Outcome State Fault Refusal :=
  atStitch n s (
    let d := dielet s n
    let code := c.toCode
    let here := match c with
      | .dsatHs => d.gh
      | .dsatLs => d.gl
      | .bstUv => d.gh
      | .vnegUv => dieletField d (R.STI_GATE_VNEG 0) != 0
      | _ => true
    let left := c == .cov && d.st == .hiz && clampable (dieletField d (R.STI_CFG_COVCLAMP 0)) d.cause
    if d.awake && here && !left then
      if d.mode.isSome then
        if c = .dsatLs then
          sendAlert n code (onDielet n (fun d => { d.off with st := .fault, cause := code, topup := false, verify := false }) s)
        else if c = .bothOn then toHiz n code s
        else sendAlert n code s
      else if d.st = .run ∨ d.st = .idle then toHiz n code s
      else if d.st = .hiz then sendAlert n code s
      else s
    else s)

/-- COV_CLAMP (R83): clamps withheld for causes of STI-DSAT and STI-GUV, and under the hem (R90). A retired stitch in
Hi-Z clamps as any other. Log entry 17. -/
def execCovClamp (n : Fin 96) (s : State) : Host.Outcome State Fault Refusal :=
  atStitch n s (
    let d := dielet s n
    if d.st = .hiz ∧ clampable (dieletField d (R.STI_CFG_COVCLAMP 0)) d.cause = true ∧ d.clamp = false ∧ d.gl = false
        ∧ d.hemoff = false then
      sendAlert n 0x04 (setDielet s n { d with gl := true, clamp := true, inG := some .low })
    else s)

/-! ### Commands: frames -/

/-- WRITE_FRAME (R85). -/
def execWriteFrame (n : Fin 96) (reg : BitVec 8) (f : MgmtRx) (s : State) : Host.Outcome State Fault Refusal :=
  .next (frameIn n f (frameWrite n reg.toNat f.data) s)

/-- TICK_FRAME (R86). -/
def execTickFrame (n : Fin 96) (f : MgmtRx) (s : State) : Host.Outcome State Fault Refusal :=
  .next (frameIn n f (onDielet n (fun d => { d with tick := bitsOf f.data 0 4 })) s)

/-- HOLD_FRAME (R80). -/
def execHoldFrame (n : Fin 96) (f : MgmtRx) (s : State) : Host.Outcome State Fault Refusal :=
  .next (frameIn n f (frameHold n) s)

/-- RELEASE_FRAME (R82): `present` says that the cause is still there. -/
def execReleaseFrame (n : Fin 96) (f : MgmtRx) (present : Bool) (s : State) : Host.Outcome State Fault Refusal :=
  .next (frameIn n f (frameRelease n present) s)

/-- RETIRE_FRAME (R91, R92). -/
def execRetireFrame (n : Fin 96) (f : MgmtRx) (s : State) : Host.Outcome State Fault Refusal :=
  .next (frameIn n f (retireDielet n (bitsOf f.data 0 1 == 1)) s)

/-- UNRETIRE_FRAME (R95). -/
def execUnretireFrame (n : Fin 96) (f : MgmtRx) (s : State) : Host.Outcome State Fault Refusal :=
  .next (frameIn n f (frameUnretire n) s)

/-- BLEED_FRAME (R96, R97). -/
def execBleedFrame (n : Fin 96) (f : MgmtRx) (s : State) : Host.Outcome State Fault Refusal :=
  .next (frameIn n f (frameBleed n f.data) s)

/-- SLEEP_FRAME (R89). -/
def execSleepFrame (n : Fin 96) (f : MgmtRx) (s : State) : Host.Outcome State Fault Refusal :=
  .next (frameIn n f (sleepDielet n) s)

/-- MGMT_FRAME_LAUNCH (R382): the frame due first starts. -/
def execMgmtFrameLaunch (n : Fin 96) (s : State) : Host.Outcome State Fault Refusal :=
  atStitch n s (
    let l := link s n
    match l.due with
    | f :: t => if domOn s 5 then setLink s n { l with due := t, out := l.out ++ [{ f with sent := 1 }] } else s
    | [] => s)

/-- MGMT_FRAME_RESEND (R382, R87): the oldest unacknowledged frame, up to three times; then LINK_UP. A setting that was
never acknowledged keeps SETOK 0 until the settings are sent afresh (R85). -/
def execMgmtFrameResend (n : Fin 96) (s : State) : Host.Outcome State Fault Refusal :=
  atStitch n s (
    let l := link s n
    match l.out with
    | f :: t =>
      if f.sent < 4 then
        (setLink s n { l with out := { f with sent := f.sent + 1 } :: t }).incSat (R.STI_LNK_RESEND n)
      else
        let s1 := setLink s n { l with out := t, settings := l.settings && f.ty != frWRITE }
        let st := s.get (R.STI_STATE_STATE n)
        if st ≠ stASLEEP ∧ st ≠ stFAULT then uplinkFault n s1 else s1
    | [] => s)

/-! ### Commands: telemetry -/

/-- OTWARN at a dielet temperature (signed, 0.125 °C): 10 °C below the OT threshold of 110 °C + 5 °C × OT_TH (R80). -/
def otWarn (d : Dielet) (temp : Nat) : Bool :=
  decide ((8 * (100 + 5 * dieletField d (R.STI_LIMIT_OT_TH 0)) : Int) ≤ signed 12 temp)

/-- TELEMETRY_TICK (R86): every awake dielet samples its cell, in 50 mV units, and judges its temperature, in 0.125 °C. -/
def execTelemetryTick (cells : List (Fin 96 × BitVec 12 × BitVec 12)) (s : State) : Host.Outcome State Fault Refusal :=
  let s1 := { s with telTick := s.telTick + 1 }
  let s2 := forL (stitches s1) (fun n a =>
    let d := dielet a n
    if d.awake then setDielet a n { d with tick := (d.tick + 1) % 16 } else a) s1
  .next (forL cells (fun c a =>
    if (dielet a c.1).awake ∧ stitchThere a c.1 then
      onDielet c.1 (fun d => { d with cell := c.2.1.toNat, otwarn := otWarn d c.2.2.toNat }) a else a) s2)

/-- UPLINK_FRAME (R86): a frame with a bad CRC is counted and rejected. -/
def execUplinkFrame (n : Fin 96) (u : UplinkFrame) (s : State) : Host.Outcome State Fault Refusal :=
  atStitch n s (
    if domOn s 5 then (if u.crcOk then uplinkIn n u s else s.incSat (R.STI_LNK_UP_ERR n)) else s)

/-- UPLINK_ALERT (R82): the alert leaves the dielet's list. -/
def execUplinkAlert (n : Fin 96) (c : Alert) (s : State) : Host.Outcome State Fault Refusal :=
  atStitch n s (
    let k := c.code.toNat
    if domOn s 5 ∧ (causeClass k ≠ 0 ∨ k = 0x10 ∨ k = 0x40 ∨ k = 0x41) then
      alertIn n k c.at_ (onDielet n (fun d => { d with alerts := d.alerts.erase k }) s)
    else s)

/-- DOWNLINK_LOSS (R87): gates off in every state, HIZ with LINK_DN. -/
def execDownlinkLoss (n : Fin 96) (s : State) : Host.Outcome State Fault Refusal :=
  atStitch n s (if (dielet s n).awake then loseDownlink n s else s)

/-- DOWNLINK_ABSENT_SLEEP (R87, Table 4.13). -/
def execDownlinkAbsentSleep (n : Fin 96) (s : State) : Host.Outcome State Fault Refusal :=
  atStitch n s (
    let d := dielet s n
    if d.lost ∨ d.st = .waking then sleepDielet n s else s)

/-- What the hem's OFF makes of a dielet that hears its link again (R90): a stitch retired to OPEN is back there. -/
def Dielet.hemHeard (d : Dielet) : Dielet :=
  if d.mode = some true then { d.toOpen with hemoff := true }
  else { d.off with hemoff := true, clamp := d.clamp && d.mode.isNone }

/-- A dielet that hears its link again, and no hem there (R87, R90): a retired one applies its mode again, and a clamp that
the hem had suspended holds again. -/
def Dielet.resume (d : Dielet) : Dielet :=
  let d1 := { d with hemoff := false }
  match d.mode with
  | some true => d1.toOpen
  | some false => d1.toBypass
  | none => if d.clamp && !d.gl then d1.glOn else d1

/-- LINK_RETRAINED (R87): the dielet hears its link again, the hem's OFF included (R90); a retired one resumes its
retirement state. -/
def execLinkRetrained (n : Fin 96) (s : State) : Host.Outcome State Fault Refusal :=
  atStitch n s (
    let d := { dielet s n with lost := false }
    if (dielet s n).lost ∧ d.st = .hiz ∧ domOn s 5 then setDielet s n (if hemActive s then d.hemHeard else d.resume) else s)

/-- UPLINK_LOSS (R87): `tenMs` says that the stitch has been in HIZ with LINK_DN for 10 ms. -/
def execUplinkLoss (n : Fin 96) (tenMs : Bool) (s : State) : Host.Outcome State Fault Refusal :=
  atStitch n s (
    let st := s.get (R.STI_STATE_STATE n)
    let quiet := (link s n).silent || (tenMs && st == stHIZ && s.get (R.STI_STATE_HIZCAUSE n) == 0x0E)
      || decide (s.get (R.STI_TEL0_VCELL n) ≤ 340)
    if domOn s 5 ∧ 2 ≤ st ∧ st ≠ stFAULT then (if quiet then viewAsleep n s else uplinkFault n s) else s)

/-! ### Commands: retirement and bleed -/

/-- STI_RETIRE (R91). -/
def execStiRetire (n : Fin 96) (c : PortCmd) (s : State) : Host.Outcome State Fault Refusal :=
  .next (guarded c.port (R.STI_CMD n) (ctlWord c 1) (writeStiCmd n (ctlWord c 1)) s)

/-- STI_CLEAR (R95). -/
def execStiClear (n : Fin 96) (c : PortCmd) (s : State) : Host.Outcome State Fault Refusal :=
  .next (guarded c.port (R.STI_CMD n) (ctlWord c 2) (writeStiCmd n (ctlWord c 2)) s)

/-- CLEAR_ALL (R95). -/
def execClearAll (c : PortCmd) (s : State) : Host.Outcome State Fault Refusal :=
  .next (guarded c.port R.STI_UCMD (ctlWord c 2) (writeStiUcmd (ctlWord c 2)) s)

/-- The mirror write of entry `n` is complete in MRAM (R95). -/
def mirrorLedger (n : Nat) (s : State) : State :=
  if s.mirrors.contains (.ledger n) then
    let m := s.mirrors.erase (.ledger n)
    let s1 := { s with mirrors := m, mram := { s.mram with
      ledger := tset (fun _ => LedgerEntry.zero) s.mram.ledger n (ledgerOf s n),
      wseq := s.ledgerSeq } }
    s1.flag R.STI_LEDGER_MIRROR (m.any (fun x => match x with
      | .ledger _ => true
      | _ => false))
  else s

/-- A mirror write that completes in a FLUSH burst counts in HRV_BURST.MIRRORS (Table 16.8). -/
def countMirror (s : State) : State := if s.hrv.burst = 1 then s.inc R.HRV_BURST_MIRRORS else s

/-- LEDGER_MIRROR_DONE (R95): PD3 writes it. -/
def execLedgerMirrorDone (n : Fin 96) (s : State) : Host.Outcome State Fault Refusal :=
  .next (if domOn s 3 ∧ s.mirrors.contains (.ledger n) = true then countMirror (mirrorLedger n s) else s)

/-- BYPASS_VERIFY (R92): verified into BYPASS, or failed into FAULT. -/
def execBypassVerify (n : Fin 96) (ok : Bool) (s : State) : Host.Outcome State Fault Refusal :=
  atStitch n s (
    let d := dielet s n
    if d.verify then
      if ok then setDielet s n { d with st := .bypass, verify := false, cause := 0 }
      else sendAlert n 0x09 (setDielet s n { d.off with st := .fault, verify := false, cause := 0x09 })
    else s)

/-- BYP_TOPUP_START (R93, suspended under R90). -/
def execBypTopupStart (n : Fin 96) (s : State) : Host.Outcome State Fault Refusal :=
  atStitch n s (
    let d := dielet s n
    if d.st = .bypass ∧ dieletField d (R.STI_CFG_BYPTOP 0) = 1 ∧ d.topup = false ∧ d.hemoff = false then
      setDielet s n { d.off with topup := true }
    else s)

/-- BYP_TOPUP_END (R93): GL turns on again, GH being off. -/
def execBypTopupEnd (n : Fin 96) (s : State) : Host.Outcome State Fault Refusal :=
  atStitch n s (
    let d := dielet s n
    let d1 := { d with topup := false }
    if d.topup then setDielet s n (if d.hemoff then d1 else d1.glOn) else s)

/-- BLEED_RELEASE (R96): the cell falls below 2 V, or rises through V_WAKE from below V_UVLO. -/
def execBleedRelease (n : Fin 96) (s : State) : Host.Outcome State Fault Refusal := atStitch n s (endBleed n s)

end Sys2Proof.Machine
end

