-- ==== Sys2Proof/Machine/Power.lean ====
section
/-!
DEFINITION. Power domains, modes and start-up (spec/15): what a domain loses, power-downs, wakes, clocks and monitors,
mode requests, precharge, discharge, and the mirrors in MRAM.
-/
namespace Sys2Proof.Machine

/-! ### Domains (Table 15.2, R288) -/

/-- PWR_DOM.ON of domain `n`. -/
def setDom (n : Nat) (b : Bool) (s : State) : State := s.put R.PWR_DOM_ON (setBits (s.word R.PWR_DOM) n 1 (bit b)).toNat

/-- A fuse or factory register of the identity unit, kept without power: serial, key hash, fingerprint, certificate
lengths, public key, certificates (R280–R282). -/
def fuseAddr (a : Nat) : Bool :=
  (decide (R.IDN_SERIAL_LO ≤ a) && decide (a < R.IDN_KSTAGE 0)) || (decide (R.IDN_FPR 0 ≤ a) && decide (a < R.IDN_SIGCNT))
    || (decide (R.IDN_PUBX 0 ≤ a) && decide (a < R.IDN_REPORT 0))

/-- A register of PD3 whose content is held in Selvedge retention: the seal and its counter. PAT_SLOT returns to reset with
PD3 and shows the MRAM again once PD3 is up. -/
def patKept (a : Nat) : Bool :=
  a == R.PAT_SEAL || a == R.PAT_SEALCRC || a == R.PAT_SEALCNT

/-- A register that stays while PD1 is off: FLT_NEXTSEQ to FLT_LOGINFO, the cause records and the log (R258, R262). -/
def hemKept (a : Nat) : Bool := (decide (0x0C0014 ≤ a) && decide (a < 0x0C0020)) || decide (0x0C0400 ≤ a)

/-- The 64 KiB block of an address. -/
def blockOf (a : Nat) : Nat := a / 0x10000

/-- Clocks that no domain needs any more stop (Table 15.3). -/
def syncClocks (s : State) : State :=
  let any := (List.range 6).any (fun k => domOn s (k + 2))
  let s1 := if any then s else (s.flag R.PWR_CLK_XREFOK false).flag R.PWR_CLK_SYSLOCK false
  if groupOn s1 then s1 else s1.flag R.PWR_CLK_EDGELOCK false

/-- The group PD4–PD7 switches off: every structure and run-time register, the pleat pool and the acquisition results
are lost (Table 15.2). The dielets live on their cells. -/
def groupOff (s : State) : State :=
  let s1 := forL [4, 5, 6, 7] (fun n a => setDom n false a) s
  let s2 := s1.keepRegs (fun a => decide (blockOf a < 2) || decide (0x0A < blockOf a))
  let mtr := { s2.mtr with chans := [], acc := MtrCopy.zero, askBound := false, askNow := false, askClose := false,
                           dues := [] }
  let s3 := { s2 with links := [], carriers := [], fractions := [], loadedPer := [], linkCaps := [], enabled := [],
                      syncOut := none }
  let s4 := { s3 with waits := [], ctxs := [], plts := [], pool := [], acq := AcqSt.zero, grd := GrdSt.zero }
  syncClocks { s4 with wins := [], mtr := mtr }

/-- PD3 switches off: staging, the overlock units, the report window and PAT_STAT except ACTIVE are lost. -/
def patternOff (s : State) : State :=
  let act := s.get R.PAT_STAT_ACTIVE
  let sl := s.get R.PAT_STAT_SEAL
  let ks := s.get R.IDN_STAT_KEYSET
  let kf := s.get R.IDN_STAT_KFAIL
  let s1 := (setDom 3 false s).keepRegs (fun a =>
    if blockOf a = 1 then patKept a else if blockOf a = 0x0D then false else if blockOf a = 0x0E then fuseAddr a else true)
  let s2 := (((s1.put R.PAT_STAT_ACTIVE act).put R.PAT_STAT_SEAL sl).put R.IDN_STAT_KEYSET ks).put R.IDN_STAT_KFAIL kf
  let pat := { s2.pat with staging := ⟨false, []⟩, work := .idle, start := .none, loadWait := false, late := false }
  let s3 := { s2 with pat := { pat with undone := false, mtr := none, safeVer := none, checked := false } }
  syncClocks { s3 with ovl := [], idn := IdnSt.zero }

/-- PD2 switches off: frames in flight, mailboxes and host shadows are lost. -/
def hostOff (s : State) : State :=
  let s1 := (setDom 2 false s).keepRegs (fun a => blockOf a != 0 && blockOf a != 0x18 && blockOf a != 0x19)
  syncClocks { s1 with host := HostSt.zero, can := CanSt.zero, fab := FabSt.zero }

/-- PD1 switches off: the hem's and the fault manager's state is lost, but latched reactions (R268). -/
def hemPowerOff (s : State) : State :=
  let s1 := (setDom 1 false (faultsAtPowerDown s)).keepRegs (fun a =>
    if blockOf a = 0x0B then false else if blockOf a = 0x0C then hemKept a else true)
  { s1 with saf := { SafSt.zero with spoLow := s1.saf.spoLow } }

/-- The steps under way of the mode controller end. -/
def endTransitions (s : State) : State :=
  syncBusy { s with pwr := { s.pwr with downTo := none, groupOn := false, upTo := none, railWait := false,
                                        startDue := false, disHost := false } }

/-! ### Mirrors (R58, R95, R214, R218, R263) -/

/-- The high-water mark above the present FLT_NEXTSEQ (R263). -/
def logMarkFor (q : Nat) : Nat := if q < 4096 then 0 else (q / 4096 + 1) * 4096

/-- A pending mirror write completes both phases. -/
def completeMirror (m : Mirror) (s : State) : State :=
  if s.mirrors.contains m then
    let s1 := { s with mirrors := s.mirrors.erase m }
    countMirror (match m with
      | .ledger n => mirrorLedger n s
      | .seal => { s1 with mram := { s1.mram with
          sealSt := s.get R.PAT_STAT_SEAL, sealVer := s.get R.PAT_SEAL_MTR_VER, sealCrc := s.get R.PAT_SEALCRC_CRC,
          sealCnt := s.get R.PAT_SEALCNT_CNT } }
      | .meter => { s1 with mram := { s1.mram with meter := MtrCopy.of s.mtr.shot } }
      | .recordCount => draftsDone { s1 with mram := { s1.mram with rcnt := s.mtr.rcnt } }
      | .logMark => { s1 with mram := { s1.mram with
          logMark := logMarkFor (s.get R.FLT_NEXTSEQ_SEQ), epoch := s.get R.FLT_LOGINFO_EPOCH } })
  else s

/-- MRAM_MIRROR_DONE (R214): PD3 writes the mirrors. -/
def execMramMirrorDone (m : Mirror) (s : State) : Host.Outcome State Fault Refusal :=
  .next (if domOn s 3 then completeMirror m s else s)

/-! ### Power-downs (R287, R289) -/

/-- Take a wake (R295, R296): WCAUSE records it, REDDORM clears, and the module waits for RAILS. A wake during a
burst lets the burst run to its next checkpoint (R318). -/
def takeWake (src : Nat) (s : State) : State :=
  let s1 := (((s.put R.PWR_WCAUSE_SRC src).inc R.PWR_WCAUSE_WCNT).flag R.PWR_WCAUSE_NORAILS false).flag
    R.HRV_STAT_REDDORM false
  let pwr := { s1.pwr with railWait := true, wakeLate := none, conds := 0,
                           alarmArmed := s1.pwr.alarmArmed && src != 5 }
  syncBusy { s1 with pwr := pwr, hrv := { s1.hrv with hand := s1.hrv.burst != 0 } }

/-- Is WAKE_N driven low by the module (R296): in every mode but DORMANT and WATCH, and after a wake other than WAKEN
until RAILS holds or RAILTO passes? Log entry 25. -/
def wakeLow (s : State) : Bool :=
  (mode s != mDORMANT && mode s != mWATCH) || (s.pwr.railWait && s.get R.PWR_WCAUSE_SRC != 0 && s.get R.PWR_STAT_RAILOK != 0xF)

/-- Is a wake source taken in a mode (Table 15.5)? -/
def takenIn (m src : Nat) : Bool :=
  m == mWATCH || (m == mDORMANT && (src == 0 || src == 5 || src == 7))

/-- A wake that waited for the end of a power-down to mode `m` is taken, or dropped (R289). Log entry 52. -/
def lateWake (m : Nat) (s : State) : State :=
  match s.pwr.wakeLate with
  | some src => if takenIn m src then takeWake src s else { s with pwr := { s.pwr with wakeLate := none } }
  | none => s

/-- An apply that found the group being switched off has it switched on again (R307). -/
def applyWaits (s : State) : State :=
  match s.pat.work with
  | .apply _ => if s.on R.PAT_STAT_APPLYING then s else switchGroupOn s
  | _ => s

/-- POWER_DOWN_DONE (R289): what remains of the orderly power-down, and a wake that waited for it. A start that a
power-down to WATCH or DORMANT ends keeps its open mark (R60). -/
def finishPowerDown (m : Nat) (s : State) : State :=
  let s1 := groupOff s
  let s2 := { s1 with pwr := { s1.pwr with downTo := none } }
  if m = mBASTING then applyWaits (syncBusy (if mode s2 = mBASTING then s2 else setMode mBASTING s2))
  else
    let s3 := (setMode m (forL s2.mirrors completeMirror s2)).flag R.PWR_STAT_STARTING false
    lateWake m (hemPowerOff (hostOff (patternOff (endTransitions s3))))

/-- POWER_DOWN_DONE (R289). -/
def execPowerDownDone (s : State) : Host.Outcome State Fault Refusal :=
  .next (match s.pwr.downTo with
    | some m => finishPowerDown m s
    | none => s)

/-- BROWNOUT (R287): a main rail stays below its reset level. -/
def execBrownout (s : State) : Host.Outcome State Fault Refusal :=
  .next (if domOn s 1 then
      let s1 := endTransitions (((setMode mWATCH s).flag R.PWR_STAT_BROWN true).flag R.PWR_STAT_STARTING false)
      let s2 := s1.flag R.PWR_DISSTAT_RUN false
      hemPowerOff (hostOff (patternOff (groupOff { s2 with pwr := { s2.pwr with wakeLate := none } })))
    else s)

/-- What is left when the Selvedge domain has lost its supply: MRAM, fuses, the dielets on their cells, the levels
outside; the model's own counters run on. -/
def selvedgeLost (s : State) : State :=
  let keep := s.keepRegs fuseAddr
  let s1 := { State.reset with
    pending := s.pending, part := s.part, aq := s.aq, regs := keep.regs, cyc := s.cyc, tick := s.tick }
  let s2 := { s1 with telTick := s.telTick, freeCtr := s.freeCtr, dielets := s.dielets, mram := s.mram }
  let s3 := { s2 with pat := { s2.pat with slotA := s.pat.slotA, slotB := s.pat.slotB } }
  let s4 := { s3 with saf := { s3.saf with spoLow := s.saf.spoLow }, pwr := { s3.pwr with rtcAt := s.cyc } }
  let s5 := { s4 with hrv := { s4.hrv with cold := s.hrv.cold } }
  ((s5.put R.IDN_STAT_KEYSET (s.get R.IDN_STAT_KEYSET)).put R.IDN_STAT_KFAIL (s.get R.IDN_STAT_KFAIL)).put R.PWR_DOM_ON 0

/-- VAON_RESET (R287): PD0 is reset, and every domain with it. -/
def execVaonReset (s : State) : Host.Outcome State Fault Refusal := .next (selvedgeLost s)

/-- SELVEDGE_POWER_UP (R293): PD0 leaves reset in WATCH; a cold start shows in HRV_STAT.COLD (R312). Log entry 7. -/
def execSelvedgePowerUp (s : State) : Host.Outcome State Fault Refusal :=
  .next (if domOn s 0 then s
    else
      let s1 := (selvedgeLost s).put R.PWR_DOM_ON 1
      let s2 := s1.flag R.HRV_STAT_COLD (s.part.isM && s.hrv.cold)
      { s2 with hrv := { s2.hrv with cold := false } })

/-- The ledger shows in the STI block: every entry, COUNT, WSEQ and MIRROR (R98). -/
def showLedgers (s : State) : State :=
  let s1 := forL (stitches s) showLedger s
  ((s1.put R.STI_LEDGER_COUNT (retiredCount s1)).put R.STI_LEDGER_WSEQ s1.ledgerSeq).flag R.STI_LEDGER_MIRROR
    (s1.mirrors.any (fun m => match m with
      | .ledger _ => true
      | _ => false))

/-- RESTORE_DONE (R293): the first work of PD3 after a Selvedge power-up (R58, R95, R214, R218, R263). -/
def execRestoreDone (s : State) : Host.Outcome State Fault Refusal :=
  .next (if domOn s 3 && s.on R.PWR_STAT_RESTPEND then
      let m := s.mram
      let s1 := s.flag R.PWR_STAT_RESTPEND false
      let s2 := (((s1.put R.PAT_STAT_SEAL m.sealSt).put R.PAT_SEAL_MTR_VER m.sealVer).put R.PAT_SEALCRC_CRC m.sealCrc).put
        R.PAT_SEALCNT_CNT m.sealCnt
      let s3 := { s2 with ledger := m.ledger, ledgerSeq := m.wseq }
      let s4 := (s3.put R.FLT_NEXTSEQ_SEQ (max (s3.get R.FLT_NEXTSEQ_SEQ) (max 1 m.logMark))).put R.FLT_LOGINFO_EPOCH
        (m.epoch + 1)
      let s5 := addMirror s4 .logMark
      let s6 := if groupOn s5 then refreshCaps (showLedgers s5) else s5
      if s.part.isM then loadKept s6 else s6
    else s)

/-! ### Wakes (R295, R296) -/

/-- The alarm that the last write of PWR_ALARM_LO loaded, in milliseconds (R294). -/
def alarmMs (s : State) : Nat := s.pwr.alarm

/-- Does the condition of a wake source hold, as far as the module itself sees it? -/
def wakeCond (s : State) (src : Nat) : Bool :=
  match src with
  | 1 => tb s.pwr.conds 1
  | 2 => tb s.pwr.conds 2
  | 5 => s.pwr.alarmArmed
  | 6 => tb s.pwr.conds 6
  | 7 => s.get R.PWR_STAT_RAILOK == 0xF
  | _ => true

/-- The RTC reaches the alarm. Log entry 52. -/
def reachAlarm (s : State) : State := { s with cyc := s.cyc + (alarmMs s - rtcMs s) * cyclesPerMs }

/-- WAKE_TAKEN (R295): source `src` of Table 15.5. During a power-down the first that the mode to come takes waits for its
end (R289). -/
def execWakeTaken (src : Fin 8) (s : State) : Host.Outcome State Fault Refusal :=
  .next (
    let en := domOn s 0 && tb (s.get R.PWR_WCFG_EN) src && wakeCond s src
    if !en then s
    else
      let s1 := if src.val = 5 then reachAlarm s else s
      match s1.pwr.downTo with
      | some m =>
        if (m = mWATCH ∨ m = mDORMANT) ∧ takenIn m src = true ∧ s1.pwr.wakeLate = none then
          { s1 with pwr := { s1.pwr with wakeLate := some src.val } }
        else s
      | none => if takenIn (mode s1) src && !s1.pwr.railWait then takeWake src.val s1 else s)

/-- RAILTO_EXPIRE (R296). -/
def execRailtoExpire (s : State) : Host.Outcome State Fault Refusal :=
  .next (if s.pwr.railWait && s.get R.PWR_STAT_RAILOK != 0xF && !domOn s 1 then
      syncBusy { s.flag R.PWR_WCAUSE_NORAILS true with
        pwr := { s.pwr with railWait := false }, hrv := { s.hrv with hand := false } }
    else s)

/-- Is the switch of a domain of PD1–PD3 closed (R288, R296; PD3 also for a burst)? -/
def wanted (s : State) (n : Nat) : Bool :=
  (s.pwr.railWait && s.get R.PWR_STAT_RAILOK == 0xF && !s.hrv.hand) || (n == 3 && s.hrv.burst != 0)

/-- PD1 leaves reset: the latch is set by POWERUP, the mode is SAFE_OFF with BASE READY, and the reactions kept are
imposed again (R228, R268, Table 15.8). -/
def hemUp (s : State) : State :=
  let s1 := setDom 1 true s
  let saf := { SafSt.zero with spoLow := s.saf.spoLow, spoSet := s.saf.spoLow, tickBase := s.cyc - s.tick * 40000 }
  let s2 := setMode mSAFEOFF ({ s1 with saf := saf }.put R.PWR_MODE_BASE mREADY)
  faultsAtPowerUp s2

/-- PD3 leaves reset: PAT_SLOT shows what the MRAM slots hold (Table 3.16), the key checks begin (R280), and PENDING slots
ask for their signatures (R221). -/
def patternUp (s : State) : State :=
  let s1 := putSlot 1 s.pat.slotB (putSlot 0 s.pat.slotA (setDom 3 true s))
  askMeterSign { s1 with idn := { s1.idn with checking := true } }

/-- Once PD1–PD3 are on after a wake, the group is switched on and the start is due (Table 15.8). -/
def afterWake (s : State) : State :=
  if s.pwr.railWait && domOn s 1 && domOn s 2 && domOn s 3 then
    switchGroupOn { s with pwr := { s.pwr with railWait := false, startDue := true } }
  else s

/-- The group leaves reset: what retention holds is shown, a mode or an apply that waited for it goes on. -/
def groupUp (s : State) : State :=
  let s1 := forL [4, 5, 6, 7] (fun n a => setDom n true a) s
  let s2 := s1.flag R.MOD_STAT_EDGE_LOCK true
  let s3 := if s2.part.isM then loadRunning s2 else s2
  let s4 := showLedgers s3
  let rc := s4.mtr.rcnt - s4.mtr.drafts.length
  let s5 := if s4.part.isM then syncRing ((s4.put R.MTR_RCNT_RCNT rc).put R.MTR_RSTAT_NEWEST (rc % 16)) else s4
  let s6 := forL [0, 1, 2, 3] (fun c a => if a.part.isM then clearInterval c a else a) s5
  let up := s6.pwr.upTo
  let s7 := syncBusy { s6 with pwr := { s6.pwr with groupOn := false, upTo := none } }
  let s8 := match up with
    | some m => setMode m s7
    | none => s7
  match s8.pat.work with
  | .apply src => if s8.on R.PAT_STAT_APPLYING then s8 else beginApply src s8
  | _ => s8

/-- DOMAIN_OUT_OF_RESET (R288): domain `n`, its supplies, clocks and the domains it needs allowing. -/
def execDomainOutOfReset (n : Fin 8) (s : State) : Host.Outcome State Fault Refusal :=
  .next (
    if n.val = 0 ∨ domOn s n = true then s
    else if n.val ≤ 3 then
      if wanted s n && domOn s 0 then
        match n.val with
        | 1 => afterWake (hemUp s)
        | 2 => if s.on R.PWR_CLK_SYSLOCK then afterWake (setDom 2 true s) else s
        | _ => if s.on R.PWR_CLK_SYSLOCK then afterWake (patternUp s) else s
      else s
    else if s.pwr.groupOn && domOn s 1 && domOn s 2 && domOn s 3 && s.on R.PWR_CLK_EDGELOCK
        && !s.on R.PWR_STAT_RESTPEND then groupUp s
    else s)

/-! ### Monitors (R286, R297) -/

/-- RAIL_MONITOR (R286): rail `rail` passes a threshold (`low`, `high`), or has stayed within both for 1 ms. Log entry 26. -/
def execRailMonitor (rail : Fin 5) (low high : Bool) (s : State) : Host.Outcome State Fault Refusal :=
  .next (
    let s1 := if rail.val < 4 then s.put R.PWR_STAT_RAILOK (setBits (BitVec.ofNat 32 (s.get R.PWR_STAT_RAILOK)) rail 1
      (bit (!low))).toNat else s
    let out := low || high
    let judged := domOn s 1 && (rail.val == 4 || (mode s != mWATCH && mode s != mDORMANT))
    let had := episode s rail
    let s2 := setEpisode s1 rail (if judged || !out then out else had)
    if judged && out && !had then occur kSUP (supplyScope rail) rail s2 else s2)

/-- The current limit of the pilot's duty cycle in 0.1 %, in 0.1 A, and DIGITAL (Table 15.6). -/
def pilotLimit (d : Nat) : Nat × Bool :=
  if d < 30 ∨ 970 < d then (0, false)
  else if d ≤ 70 then (0, true)
  else if d < 80 then (0, false)
  else if d < 100 then (60, false)
  else if d ≤ 850 then ((quant 50 (6 * d) 10).toNat, false)
  else if d ≤ 960 then ((quant 51 (25 * d - 16000) 10).toNat, false)
  else (800, false)

/-- The band of Table 15.6 of a proximity resistance in 10 Ω, and its limit in 0.1 A. -/
def proximity (r : Nat) : Nat × Nat :=
  if 100 ≤ r ∧ r ≤ 220 then (1, 130)
  else if 47 ≤ r ∧ r < 100 then (2, 200)
  else if 15 ≤ r ∧ r < 47 then (3, 320)
  else if 8 ≤ r ∧ r < 15 then (4, 630)
  else (0, 0)

/-- CP_PP_MEASURE (R295, R297): pilot state, duty cycle where PWM is present, resistance, and the HV input in mV. In
WATCH the pilot state alone is reported; there, and on the way there, the wake conditions are judged (R289). -/
def execCpPpMeasure (pilot : Fin 6) (pwm : Option (BitVec 10)) (r hv : BitVec 12) (s : State) :
    Host.Outcome State Fault Refusal :=
  .next (if domOn s 0 then
      let band := (proximity r.toNat).1
      let above := decide (s.get R.PWR_WTHR_HVTH < hv.toNat)
      let c1 := pilot.val != s.get R.PWR_CP_STATE || (pwm.isSome && !s.pwr.cpPwm)
      let c2 := band != 0 && band != s.pwr.ppBand
      let c6 := above && s.pwr.hvAbove
      let conds := if mode s = mWATCH ∨ s.pwr.downTo = some mWATCH then 2 * bit c1 + 4 * bit c2 + 64 * bit c6 else 0
      let pwr := { s.pwr with cpPwm := pwm.isSome, ppBand := band, hvAbove := above, conds := conds }
      let s1 := { s.put R.PWR_CP_STATE pilot with pwr := pwr }
      if domOn s 2 then
        let d := (pwm.map (·.toNat)).getD 0
        let lim := if pwm.isSome then pilotLimit d else (0, false)
        let s2 := (((s1.flag R.PWR_CP_PWM pwm.isSome).flag R.PWR_CP_DIGITAL lim.2).put R.PWR_CP_DUTY d).put R.PWR_CP_ILIM lim.1
        (s2.put R.PWR_PP_R r.toNat).put R.PWR_PP_ILIM (proximity r.toNat).2
      else s1
    else s)

/-! ### Clocks (R291, R292) -/

/-- XAON_OK (R291). -/
def execXaonOk (s : State) : Host.Outcome State Fault Refusal :=
  .next (if domOn s 0 then (s.flag R.PWR_CLK_XAONOK true).flag R.PWR_CLK_SRC true else s)

/-- XAON_LOSS (R291). -/
def execXaonLoss (s : State) : Host.Outcome State Fault Refusal :=
  .next (if s.on R.PWR_CLK_SRC then
      occur kCLK (clockScope 0) 0 ((s.flag R.PWR_CLK_XAONOK false).flag R.PWR_CLK_SRC false)
    else s)

/-- The episode key and the scope index of a clock. -/
def clockIx : Clock → Nat
  | .xref => 1 | .pllSys => 2 | .pllEdge => 3

/-- Is XREF wanted (Table 15.3): some domain of PD2–PD7 is on or is being switched on? -/
def xrefWanted (s : State) : Bool := wanted s 3 || (List.range 6).any (fun k => domOn s (k + 2))

/-- XREF_VALID (R292): XREF is valid, or is back. -/
def execXrefValid (s : State) : Host.Outcome State Fault Refusal :=
  .next (if xrefWanted s then setEpisode (s.flag R.PWR_CLK_XREFOK true) (8 + 1) false else s)

/-- PLL_EDGE loses lock: the modulator commands nothing, and every link it serves carries OFF (R99). Log entry 53. -/
def edgeLost (s : State) : State :=
  forL (stitches s) (fun n a => putSymbol n (linkCommand a n 0).1 a) (s.flag R.MOD_STAT_EDGE_LOCK false)

/-- CLOCK_FAIL (R292), once per episode. -/
def execClockFail (clk : Clock) (s : State) : Host.Outcome State Fault Refusal :=
  .next (
    let k := clockIx clk
    let runs := match clk with
      | .xref => s.on R.PWR_CLK_XREFOK
      | .pllSys => s.on R.PWR_CLK_SYSLOCK
      | .pllEdge => s.on R.PWR_CLK_EDGELOCK
    let s1 := match clk with
      | .xref => s.flag R.PWR_CLK_XREFOK false
      | .pllSys => s.flag R.PWR_CLK_SYSLOCK false
      | .pllEdge => let a := s.flag R.PWR_CLK_EDGELOCK false
                    if groupOn a then edgeLost a else a
    if runs && !episode s (8 + k) then occur kCLK (clockScope k) 0 (setEpisode s1 (8 + k) true)
    else if runs then s1
    else s)

/-- Every root restarts at phase 0 (R292). -/
def restartRoots (s : State) : State :=
  let fs := tmap (fun _ => Fraction.zero) (fun _ f => { f with now := 0, tail := 0, edge := none, join := none, low := none }) s.fractions
  forL (roots s) (fun n a =>
    let c := carrier a n
    rephase n 0 (setCarrier a n { c with rem := 0, shift := 0, len := 0, aligned := 0 })) { s with fractions := fs }

/-- PLL_RELOCK (R292): PLL_SYS, or PLL_EDGE, locks; stitches rejoin under R15. -/
def execPllRelock (edge : Bool) (s : State) : Host.Outcome State Fault Refusal :=
  .next (
    if !s.on R.PWR_CLK_XREFOK then s
    else if edge then
      if groupOn s then
        let s1 := setEpisode ((s.flag R.PWR_CLK_EDGELOCK true).flag R.MOD_STAT_EDGE_LOCK true) (8 + 3) false
        if s.on R.MOD_STAT_EDGE_LOCK then s1 else forL (stitches s1) mustWait (restartRoots s1)
      else if s.pwr.groupOn then setEpisode (s.flag R.PWR_CLK_EDGELOCK true) (8 + 3) false
      else s
    else setEpisode (s.flag R.PWR_CLK_SYSLOCK true) (8 + 2) false)

/-! ### Mode requests (R299, Tables 15.8 and 15.9) -/

/-- Does Table 15.8 list a request for mode `r` in mode `m`? -/
def listed (m r : Nat) : Bool :=
  if r = mPRECHARGE then m == mREADY
  else if r = mCHARGE ∨ r = mFEED then
    m == mREADY || m == mPRECHARGE || m == mCHARGE || m == mFEED || m == mAUXILIARY
  else if r = mISLAND then m == mREADY || m == mPRECHARGE
  else if r = mAUXILIARY then m == mREADY || m == mPRECHARGE || m == mCHARGE || m == mFEED
  else if r = mREADY then (decide (mPRECHARGE ≤ m) && decide (m ≤ mAUXILIARY)) || m == mFITTING
  else if r = mFITTING then m == mREADY || m == mBASTING
  else if r = mWATCH ∨ r = mDORMANT then m == mREADY || m == mFITTING || m == mBASTING || m == mSAFEOFF
  else false

/-- LOADED and CONFIRMED. -/
def patternReady (s : State) : Bool := s.on R.PAT_STAT_LOADED && s.on R.PAT_STAT_CONFIRMED

/-- The refusal code of Table 15.9 for mode `r`; 0 where every condition holds. -/
def modeCondition (s : State) (r : Nat) : Nat :=
  let latch := s.on R.SAF_STAT_LATCH
  let c (p : Bool) (e rest : Nat) : Nat := if p then rest else e
  let sfail := c (!s.on R.PWR_STAT_SFAIL) 9 0
  if r = mPRECHARGE then c (patternReady s) 4 (c (!latch) 3 (c (!anyRootEn s) 5 sfail))
  else if r = mFEED then c (s.on R.PWR_STAT_PCDONE) 6 (c (!latch) 3 (c (s.on R.GRD_STAT_ENTOK) 7 sfail))
  else if r = mAUXILIARY then
    c (s.on R.PWR_STAT_PCDONE) 6 (c (!latch) 3 (c (!s.on (R.SEAM_CTL_EN (s.get R.GRD_CFG_ROOT))) 5 sfail))
  else if r = mCHARGE ∨ r = mISLAND then c (s.on R.PWR_STAT_PCDONE) 6 (c (!latch) 3 sfail)
  else if r = mREADY then c (!anyRootEn s) 5 (c (mode s != mFITTING || patternReady s) 4 sfail)
  else if r = mFITTING then sfail
  else c (!anyRootEn s) 5 (c (s.get R.SAF_CTR_EN == 0 && s.get R.SAF_CTR_FB == 0) 8 0)

/-- The judgement of a request (R299). -/
def modeJudge (guard : Bool) (r : Nat) (s : State) : Nat :=
  if !guard then 1
  else if s.on R.PWR_MODE_BUSY then 0xA
  else if !listed (mode s) r then 2
  else modeCondition s r

/-- The runs that judge the acquisition result named by a register start afresh. -/
def freshPre (s : State) : State := { s with pwr := { s.pwr with preHits := 0 } }
def freshDis (s : State) : State := { s with pwr := { s.pwr with disVlink := false } }

/-- An accepted request takes its effect. -/
def enterMode (r : Nat) (s : State) : State :=
  if r = mWATCH ∨ r = mDORMANT then beginPowerDown r s
  else if r = mFITTING ∧ groupOn s = false then
    let s1 := switchGroupOn s
    { s1 with pwr := { s1.pwr with upTo := some mFITTING } }
  else if r = mPRECHARGE then freshPre (setMode r s)
  else setMode r s

/-- A write of PWR_MODECTL (R299). Log entry 54. -/
def writeModectl (d : Word) (s : State) : State :=
  let r := bitsOf d 0 4
  let e := modeJudge (guardOk d) r s
  let s1 := (s.flag R.PWR_STAT_MDONE true).put R.PWR_STAT_MERR e
  if e = 0 then enterMode r s1 else s1

/-- A request for mode `r` through a port. -/
def modeReq (r : Nat) (c : PortCmd) (s : State) : State :=
  guarded c.port R.PWR_MODECTL (ctlWord c r) (writeModectl (ctlWord c r)) s

/-- MODE_REQ_PRECHARGE (R299). -/
def execModeReqPrecharge (c : PortCmd) (s : State) : Host.Outcome State Fault Refusal := .next (modeReq mPRECHARGE c s)

/-- MODE_REQ_CHARGE (R299). -/
def execModeReqCharge (c : PortCmd) (s : State) : Host.Outcome State Fault Refusal := .next (modeReq mCHARGE c s)

/-- MODE_REQ_FEED (R299). -/
def execModeReqFeed (c : PortCmd) (s : State) : Host.Outcome State Fault Refusal := .next (modeReq mFEED c s)

/-- MODE_REQ_ISLAND (R299). -/
def execModeReqIsland (c : PortCmd) (s : State) : Host.Outcome State Fault Refusal := .next (modeReq mISLAND c s)

/-- MODE_REQ_AUXILIARY (R299). -/
def execModeReqAuxiliary (c : PortCmd) (s : State) : Host.Outcome State Fault Refusal := .next (modeReq mAUXILIARY c s)

/-- MODE_REQ_READY (R299). -/
def execModeReqReady (c : PortCmd) (s : State) : Host.Outcome State Fault Refusal := .next (modeReq mREADY c s)

/-- MODE_REQ_FITTING (R299). -/
def execModeReqFitting (c : PortCmd) (s : State) : Host.Outcome State Fault Refusal := .next (modeReq mFITTING c s)

/-- MODE_REQ_WATCH (R299). -/
def execModeReqWatch (c : PortCmd) (s : State) : Host.Outcome State Fault Refusal := .next (modeReq mWATCH c s)

/-- MODE_REQ_DORMANT (R299). -/
def execModeReqDormant (c : PortCmd) (s : State) : Host.Outcome State Fault Refusal := .next (modeReq mDORMANT c s)

/-- PRECHARGE_TIMEOUT (R302, Table 15.8). -/
def execPrechargeTimeout (s : State) : Host.Outcome State Fault Refusal :=
  .next (if mode s == mPRECHARGE && s.get R.PWR_PTIM_PTMAX != 0 && !s.on R.PWR_STAT_PCDONE then
      (setMode mREADY s).put R.PWR_STAT_MERR 0xB
    else s)

/-! ### DISCHARGE (R303–R305) -/

/-- The conditions of R304 on the last values received. -/
def dischargeMet (s : State) : Bool :=
  (!s.on R.PAT_STAT_LOADED || s.pwr.disVlink) &&
    (stitches s).all (fun n => s.get (R.STI_STATE_STATE n) == stASLEEP
      || decide (s.get (R.STI_TEL0_VCELL n) ≤ 10 * s.get R.PWR_DISCFG_VCLIM))

/-- Is a host load being applied, or does it await its CONFIRM (Table 15.7: the group is on in BASTING meanwhile)? -/
def loadRuns (s : State) : Bool :=
  s.pat.loadWait || (s.pat.start == .none && match s.pat.work with
    | .apply _ => true
    | _ => false)

/-- The module is back in BASTING after a discharge (Table 15.8): a load that still runs there goes on; else the group is
off or switches off, and no Pattern is in force any more (R307). -/
def backToBasting (s : State) : State :=
  if loadRuns s then setMode mBASTING s
  else
    let s1 := setMode mBASTING (if s.on R.PAT_STAT_LOADED then refreshFabric (unload s) else s)
    let s2 := { s1 with pwr := { s1.pwr with groupOn := false, upTo := none } }
    syncBusy (if groupOn s2 then beginPowerDown mBASTING s2 else s2)

/-- DISCHARGE_COMPLETE (R304): both conditions have held for TAIL. Log entry 19. -/
def execDischargeComplete (s : State) : Host.Outcome State Fault Refusal :=
  .next (if mode s == mDISCHARGE && dischargeMet s then
      let t := (s.cyc - s.pwr.disAt) / cyclesPerMs
      let s1 := ((s.flag R.PWR_DISSTAT_RUN false).flag R.PWR_DISSTAT_DONE true).put R.PWR_DISSTAT_TIME (min 65535 t)
      let s2 := forL (stitches s1) (fun n a => if seenAwake a n then queueFrame n frBLEED 0 0 a else a) s1
      let bleeds := tmap (fun _ => BleedSt.zero) (fun _ b => { b with waiting := false }) s2.pwr.bleeds
      let s3 := { s2 with pwr := { s2.pwr with disHost := false, bleeds := bleeds } }
      let s4 := syncDisreq (if s.pwr.disFail then s3.flag R.PWR_STAT_SFAIL true else s3)
      if s.pwr.disFrom = mBASTING ∨ s.pwr.disBasting = true then backToBasting s4
      else
        let s6 := s4.put R.PWR_MODE_BASE s.pwr.disBase
        if s4.on R.SAF_STAT_LATCH then setMode mSAFEOFF s6 else setMode s.pwr.disBase s6
    else s)

/-- DISCHARGE_TIMEOUT (R305): T4 whatever the map gives, latched from the start. Log entry 19. -/
def execDischargeTimeout (s : State) : Host.Outcome State Fault Refusal :=
  .next (if mode s == mDISCHARGE && s.get R.PWR_DISTIM_TMAX != 0 then
      occurWith false (some 4) kSUP (supplyScope 0) 0x10 (s.flag R.PWR_DISSTAT_TOUT true)
    else s)

/-- BLEED_WAIT_END (R303): the 10 s of stitch `n` have passed in DISCHARGE. -/
def execBleedWaitEnd (n : Fin 96) (s : State) : Host.Outcome State Fault Refusal :=
  .next (
    let b := bleedSt s n
    if mode s == mDISCHARGE && b.waiting && stitchThere s n then
      let s1 := setBleedSt s n { b with waiting := false }
      if seenAwake s n then queueFrame n frBLEED 0 1 s1 else s1
    else s)

/-! ### Register writes (R294, R300, after Table 15.14) -/

/-- The RTC takes 64 bits at once. -/
def setRtc (lo : Nat) (s : State) : State :=
  let s1 := s.flag R.PWR_STAT_RTCVAL true
  { s1 with pwr := { s1.pwr with rtcBase := s.pwr.rtcwHi * 2 ^ 32 + lo, rtcAt := s.cyc } }

/-- The low word of the alarm is written, which loads all 64 bits and arms it; an alarm of 0 is none. -/
def armAlarm (d : Word) (s : State) : State :=
  let s1 := plainWrite R.PWR_ALARM_LO d s
  let t := s1.get R.PWR_ALARM_HI_MS * 2 ^ 32 + s1.get R.PWR_ALARM_LO_MS
  { s1 with pwr := { s1.pwr with alarm := t, alarmArmed := t != 0 } }

/-- A write that the mode refuses: ignored, with WERR. -/
def unlessMode (m : Nat) (eff : State → State) (s : State) : State :=
  if mode s = m then s.flag R.PWR_STAT_WERR true else eff s

/-- A write of PWR_CPERM (R300). -/
def writeCperm (d : Word) (s : State) : State :=
  if s.get R.SAF_CTR_EN = 0 then syncContactors (plainWrite R.PWR_CPERM d s) else s.flag R.PWR_STAT_WERR true

/-- A write in the PWR block. -/
def writePwr (a : Nat) (d : Word) (s : State) : State :=
  if a = R.PWR_MODECTL then writeModectl d s
  else if a = R.PWR_CPERM then writeCperm d s
  else if a = R.PWR_PCFG then unlessMode mPRECHARGE (fun b => freshPre (plainWrite a d b)) s
  else if a = R.PWR_PTIM then unlessMode mPRECHARGE (plainWrite a d) s
  else if a = R.PWR_DISCFG then unlessMode mDISCHARGE (fun b => freshDis (plainWrite a d b)) s
  else if a = R.PWR_DISTIM then unlessMode mDISCHARGE (plainWrite a d) s
  else if a = R.PWR_RTCW_HI then { s with pwr := { s.pwr with rtcwHi := d.toNat } }
  else if a = R.PWR_RTCW_LO then setRtc d.toNat s
  else if a = R.PWR_ALARM_LO then armAlarm d s
  else plainWrite a d s

/-- RTC_SET (R294): a write of PWR_RTCW_LO. -/
def execRtcSet (w : PortWrite) (s : State) : Host.Outcome State Fault Refusal :=
  .next (guarded w.port R.PWR_RTCW_LO w.data (setRtc w.data.toNat) s)

/-- ALARM_ARM (R294): a write of PWR_ALARM_LO. -/
def execAlarmArm (w : PortWrite) (s : State) : Host.Outcome State Fault Refusal :=
  .next (guarded w.port R.PWR_ALARM_LO w.data (armAlarm w.data) s)

/-- CPERM_WRITE (R300). -/
def execCpermWrite (w : PortWrite) (s : State) : Host.Outcome State Fault Refusal :=
  .next (guarded w.port R.PWR_CPERM w.data (writeCperm w.data) s)

end Sys2Proof.Machine
end

