-- ==== Sys2Proof/Machine/Harvest.lean ====
section
/-!
DEFINITION. The harvest front end (spec/16): tracking, boost, gauge and grant, bursts, and its writes.
-/
namespace Sys2Proof.Machine

/-- Does the harvest work: on M parts, while PD0 runs? -/
def hrvOn (s : State) : Bool := s.part.isM && domOn s 0

/-! ### Tracking and boost (R309, R310) -/

/-- HRV_STAT.CHG follows the conditions of R310. -/
def syncBoost (s : State) : State :=
  s.flag R.HRV_STAT_CHG (s.on R.HRV_CFG_EN && decide (250 ≤ s.get R.HRV_VOC_VOC) && !s.on R.HRV_STAT_HINOV
    && !s.on R.HRV_STAT_FULL)

/-- TRACK_CYCLE (R309): HIN is disconnected; K and VSTMAX as written now take effect. -/
def execTrackCycle (s : State) : Host.Outcome State Fault Refusal :=
  .next (if hrvOn s && s.on R.HRV_CFG_EN && s.on R.HRV_CFG_TRKEN then
      { s.flag R.HRV_STAT_SAMPLING true with
        hrv := { s.hrv with k := s.get R.HRV_CFG_K, vmax := s.get R.HRV_CFG_VSTMAX } }
    else s)

/-- VOC_SAMPLE_END (R309): the input in mV is sampled, and HIN is connected again. -/
def execVocSampleEnd (voc : BitVec 13) (s : State) : Host.Outcome State Fault Refusal :=
  .next (if hrvOn s && s.on R.HRV_STAT_SAMPLING then
      let s1 := s.flag R.HRV_STAT_SAMPLING false
      if s.on R.HRV_CFG_EN && s.on R.HRV_CFG_TRKEN then
        let s2 := (s1.put R.HRV_VOC_VOC voc.toNat).put R.HRV_VOC_VREG (voc.toNat * s.hrv.k / 64)
        syncBoost (s2.flag R.HRV_STAT_HINLOW (decide (voc.toNat < 250)))
      else s1
    else s)

/-- STORE_FULL (R310). -/
def execStoreFull (s : State) : Host.Outcome State Fault Refusal :=
  .next (if hrvOn s then syncBoost (s.flag R.HRV_STAT_FULL true) else s)

/-- STORE_BELOW_VSTMAX (R310): 50 mV below VSTMAX. -/
def execStoreBelowVstmax (s : State) : Host.Outcome State Fault Refusal :=
  .next (if hrvOn s then syncBoost (s.flag R.HRV_STAT_FULL false) else s)

/-- HIN_OV (R310): HIN above 5.00 V. -/
def execHinOv (s : State) : Host.Outcome State Fault Refusal :=
  .next (if hrvOn s then syncBoost (s.flag R.HRV_STAT_HINOV true) else s)

/-- HINOV_CLEAR (R310): HIN below 4.90 V. -/
def execHinovClear (s : State) : Host.Outcome State Fault Refusal :=
  .next (if hrvOn s then syncBoost (s.flag R.HRV_STAT_HINOV false) else s)

/-- COLD_START (R312): the store rises through V_AONUP with PD0 off; the next rise of VAON is a Selvedge power-up. -/
def execColdStart (s : State) : Host.Outcome State Fault Refusal :=
  .next (if s.part.isM && !domOn s 0 then { s with hrv := { s.hrv with cold := true } } else s)

/-- EXTSUP_CHANGE (R313). -/
def execExtsupChange (ext : Bool) (s : State) : Host.Outcome State Fault Refusal :=
  .next (if hrvOn s then s.flag R.HRV_STAT_EXTSUP ext else s)

/-! ### Gauge (R314, R315) -/

/-- Usable energy in mJ of a store of `c` mF at `v` mV (R314). -/
def usable (c v : Nat) : Nat := if v < 2400 then 0 else min 65535 (c * (v * v - 2400 * 2400) / 2000000)

/-- Is a level at `th` held (`had`), or risen to? -/
def levelAtE (had : Bool) (th e : Nat) : Bool := if had then decide (th ≤ e) else decide (th + th / 8 ≤ e)

/-- The grant level of `e`: 0 RED, 1 AMBER, 2 GREEN (R314). -/
def grantOf (s : State) (e : Nat) : Nat :=
  let g := s.get R.HRV_GAUGE_GRANT
  if levelAtE (g == 2) (s.get R.HRV_GTH_GTH) e then 2
  else if levelAtE (decide (1 ≤ g)) (s.get R.HRV_GTH_ATH) e then 1
  else 0

/-- The modes that the grant moves (R315): `old` is the grant before the measurement. -/
def grantModes (old : Nat) (s : State) : State :=
  let g := s.get R.HRV_GAUGE_GRANT
  if s.on R.HRV_STAT_EXTSUP || s.pwr.railWait then s
  else if mode s = mWATCH ∧ g = 0 ∧ old ≠ 0 then (setMode mDORMANT s).flag R.HRV_STAT_REDDORM true
  else if mode s = mDORMANT ∧ s.on R.HRV_STAT_REDDORM = true ∧ old < g then
    (setMode mWATCH s).flag R.HRV_STAT_REDDORM false
  else s

/-! ### Bursts (R316–R318, Tables 16.2 and 16.3) -/

/-- The class of the work that only PD3 can do; 0 with none. FLUSH is asked for before SIGN. -/
def burstWork (s : State) : Nat :=
  if s.mirrors ≠ [] then 1 else if (oldestPending s).isSome then 2 else 0

/-- R316 for a step that costs `c` hundredths of a mJ. -/
def admitted (s : State) (c : Nat) : Bool :=
  s.on R.HRV_STAT_EXTSUP || (s.get R.HRV_GAUGE_GRANT != 0 && decide (c + 100 * s.get R.HRV_RSV_RSV ≤ 100 * s.get R.HRV_GAUGE_E))

/-- The COST of a class's first step, in hundredths of a mJ. -/
def firstCost (cls : Nat) : Nat := if cls = 1 then 45 else 60

/-- A burst is asked for: it runs, or is deferred. Log entry 55. -/
def askBurst (s : State) : State :=
  let w := burstWork s
  if w = 0 ∨ s.hrv.burst ≠ 0 ∨ domOn s 3 = true ∨ s.pwr.railWait = true ∨ s.pwr.downTo.isSome = true then s
  else
    let s1 := s.put R.HRV_BURST_CLASS w
    if admitted s (firstCost w) then
      let s2 := ((((s1.put R.HRV_BURST_RESULT 0).put R.HRV_BURST_SLOTS 0).put R.HRV_BURST_MIRRORS 0).inc R.HRV_CNT_ADMIT).put
        R.HRV_STAT_BSTATE 2
      { s2 with hrv := { s2.hrv with burst := w, hand := false, red := false } }
    else (s1.put R.HRV_BURST_RESULT 2).inc R.HRV_CNT_DEFER

/-- GAUGE_MEASURE (R314): the store voltage in mV; modes and bursts follow (R315, R316). -/
def execGaugeMeasure (vst : BitVec 13) (s : State) : Host.Outcome State Fault Refusal :=
  .next (if hrvOn s then
      let old := s.get R.HRV_GAUGE_GRANT
      let e := usable (s.get R.HRV_CAP_CAP) vst.toNat
      let g := grantOf s e
      let s1 := ((s.put R.HRV_GAUGE_VST vst.toNat).put R.HRV_GAUGE_E e).put R.HRV_GAUGE_GRANT g
      let fell := decide (g = 0) && old != 0 && s.hrv.burst != 0
      let s2 := { s1 with hrv := { s1.hrv with red := s1.hrv.red || fell } }
      askBurst (grantModes old s2)
    else s)

/-- A burst ends with a result of Table 16.8: PD3 switches off, unless the burst is handed to a wake. -/
def endBurst (r : Nat) (s : State) : State :=
  let s1 := (s.put R.HRV_BURST_RESULT r).put R.HRV_STAT_BSTATE 0
  let s2 := { s1 with hrv := { s1.hrv with burst := 0, hand := false, red := false } }
  if r = 4 then afterWake (s2.inc R.HRV_CNT_HAND)
  else if domOn s2 3 then patternOff s2
  else s2

/-- What is left of the burst that runs: nothing, or the COST of its next step. -/
def nextCost (s : State) : Option Nat :=
  if s.hrv.burst = 1 then (if s.mirrors = [] then none else some 45)
  else if (oldestPending s).isSome then some (if s.get R.HRV_BURST_SLOTS = 0 then 60 else 15)
  else none

/-- BURST_CHECKPOINT (R316, R318, Table 16.3). -/
def execBurstCheckpoint (s : State) : Host.Outcome State Fault Refusal :=
  .next (if hrvOn s && s.hrv.burst != 0 && domOn s 3 then
      if s.hrv.hand then endBurst 4 s
      else match nextCost s with
        | none => endBurst 1 s
        | some c => if s.hrv.red || !admitted s c then endBurst 2 s else s
    else s)

/-- BURST_STOP (R317): the store falls to V_STOP. -/
def execBurstStop (s : State) : Host.Outcome State Fault Refusal :=
  .next (if hrvOn s && s.hrv.burst != 0 then endBurst 3 (s.inc R.HRV_CNT_STOP) else s)

/-- BURST_TIMEOUT (R317): the burst has run for 50 ms. -/
def execBurstTimeout (s : State) : Host.Outcome State Fault Refusal :=
  .next (if hrvOn s && s.hrv.burst != 0 then endBurst 5 (s.inc R.HRV_CNT_STOP) else s)

/-! ### Writes (R319) -/

/-- Does a word put every field of an HRV register inside its allowed range? -/
def hrvAllowed (a : Nat) (d : Word) : Bool :=
  if a = R.HRV_CFG then
    decide (32 ≤ bitsOf d 24 6) && decide (bitsOf d 24 6 ≤ 60) && decide (16 ≤ bitsOf d 16 8) && decide (bitsOf d 0 5 ≤ 25)
  else if a = R.HRV_CAP then decide (1 ≤ bitsOf d 0 13) && decide (bitsOf d 0 13 ≤ 5000)
  else if a = R.HRV_GTH then decide (bitsOf d 0 16 < bitsOf d 16 16)
  else true

/-- A write of an HRV register; a change of EN takes effect at once. -/
def writeHrv (a : Nat) (d : Word) (s : State) : State :=
  if hrvAllowed a d then
    let s1 := plainWrite a d s
    if a = R.HRV_CFG then
      syncBoost (if s1.on R.HRV_CFG_EN then s1 else s1.flag R.HRV_STAT_SAMPLING false)
    else s1
  else s.flag R.HRV_STAT_WERR true

/-- HRV_WRITE (R319): the register at offset 4k of the harvest's range. -/
def execHrvWrite (k : Fin 9) (w : PortWrite) (s : State) : Host.Outcome State Fault Refusal :=
  .next (guarded w.port (R.HRV_CFG + 4 * k) w.data (writeHrv (R.HRV_CFG + 4 * k) w.data) s)

end Sys2Proof.Machine
end

