-- ==== Sys2Proof/Machine/Fabric.lean ====
section
/-!
DEFINITION. The fabric of modules (spec/18) up to what it sends: ports and their queues, joining, roles and routes,
fabric time, agreement, LINK exchanges, host requests, and the signing engine's completions. What a received frame does
is in FabricRx.lean.
-/
namespace Sys2Proof.Machine

/-- The table is computed again. -/
def syncRoutes (s : State) : State := routesAfter (judgeFabric raiseNow) s

/-! ### The host's request (R359) -/

/-- The pending request ends with a STATUS. -/
def endRequest (st : Nat) (s : State) : State :=
  match s.fab.req with
  | some q =>
    let s1 := (((s.flag R.FAB_RSTAT_BUSY false).flag R.FAB_RSTAT_DONE true).put R.FAB_RSTAT_STATUS st).put R.FAB_RSTAT_TAG q.tag
    { s1.flag R.FAB_IRQ_RDONE true with fab := { s1.fab with req := none, chunks := [] } }
  | none => s

/-- The payload of a request: an RREQ of Table 18.6, or the nonce. -/
def requestPayload (s : State) (op : Nat) : List Byte :=
  if op = 2 then hostNonce s
  else leBytes 1 (op + 1) ++ leBytes 1 (s.get R.FAB_RCTL_TAG) ++ leBytes 3 (s.get R.FAB_RADDR_ADDR)
    ++ leBytes 1 (s.get R.FAB_RCTL_N) ++ [0, 0]
    ++ (if op = 1 then (List.range (s.get R.FAB_RCTL_N)).flatMap (fun k => leBytes 4 (s.word (R.FAB_RDATA k)).toNat) else [])

/-- GO: the request is issued, or ends locally with UNBOUND or NOROUTE. -/
def issueRequest (s : State) : State :=
  let op := s.get R.FAB_RCTL_OP
  let dst := s.get R.FAB_RCTL_DST
  let ty := if op = 2 then 0x15 else 0x13
  let e := knownEpoch s dst
  let q : FabReq := ⟨ty, dst, nextSeq s dst e, s.get R.FAB_RCTL_TAG, if op = 0 then s.get R.FAB_RCTL_N else 0⟩
  let s1 := { s.flag R.FAB_RSTAT_BUSY true with fab := { s.fab with req := some q, chunks := [] } }
  if ownRole s = 0 then endRequest 0x08 s1
  else if reachable s dst then sendRouted ty dst e 0 (requestPayload s op) s1
  else endRequest 0x06 (noRoute s1)

/-- A write of FAB_RCTL. -/
def writeFabRctl (d : Word) (s : State) : State :=
  if tb d.toNat 31 then
    if s.on R.FAB_RSTAT_BUSY ∨ bitsOf d 22 2 = 3 then s.flag R.FAB_STAT_CMDERR true
    else issueRequest (plainWrite R.FAB_RCTL d s)
  else plainWrite R.FAB_RCTL d s

/-- The word of FAB_RCTL with GO. -/
def rctlWord (dst op n tag : Nat) : Word := BitVec.ofNat 32 (2 ^ 31 + dst * 2 ^ 24 + op * 2 ^ 22 + n * 2 ^ 16 + tag * 2 ^ 8)

/-- A request of operation `op` through a port. -/
def fabRow (port op : Nat) (dst : BitVec 6) (n : BitVec 3) (tag : BitVec 8) (s : State) : State :=
  let d := rctlWord dst.toNat op n.toNat tag.toNat
  guarded port R.FAB_RCTL d (writeFabRctl d) s

/-- FAB_REQ_READ (R359). -/
def execFabReqRead (port : Nat) (dst : BitVec 6) (n : BitVec 3) (tag : BitVec 8) (s : State) :
    Host.Outcome State Fault Refusal := .next (fabRow port 0 dst n tag s)

/-- FAB_REQ_WRITE (R359). -/
def execFabReqWrite (port : Nat) (dst : BitVec 6) (n : BitVec 3) (tag : BitVec 8) (s : State) :
    Host.Outcome State Fault Refusal := .next (fabRow port 1 dst n tag s)

/-- FAB_ATTEST (R359). -/
def execFabAttest (port : Nat) (dst : BitVec 6) (n : BitVec 3) (tag : BitVec 8) (s : State) :
    Host.Outcome State Fault Refusal := .next (fabRow port 2 dst n tag s)

/-- FAB_REQ_TIMEOUT (R359): 200 µs without a reply. -/
def execFabReqTimeout (s : State) : Host.Outcome State Fault Refusal := .next (endRequest 0x07 s)

/-! ### Joining (R343–R345, Table 18.3) -/

/-- The role that the table gives the module at its first UP port `p` (R345); 0 with none. -/
def claimAt (s : State) (p : Nat) : Nat :=
  let byFpr := roles.find? (fun r => s.get (R.FAB_ROLE_BIND r) == 1 && roleFpr s r == ownFpr)
  let byPath := roles.find? (fun r => s.get (R.FAB_ROLE_BIND r) == 2 && s.get (R.FAB_PSTAT_PEER p) != 0
    && s.get (R.FAB_ROLE_ANCHOR r) == s.get (R.FAB_PSTAT_PEER p) && s.get (R.FAB_ROLE_PORT r) == (Config.farPort p).val)
  (byFpr.orElse (fun _ => byPath)).getD 0

/-- A module that holds no role claims the one it is given at its first UP port, as soon as it is given one there; a refusal
there is final (R345). Log entry 58. -/
def claimRole (s : State) : State :=
  match s.fab.ups.head? with
  | some p =>
    let r := claimAt s p
    if s.on R.FAB_STAT_BOUND || s.fab.claim.isSome || s.get (R.FAB_PSTAT_AERR p) == 8 || r == 0 then s
    else sendLocal p 0x06 0 (leBytes 1 r) { s with fab := { s.fab with claim := some (p, r) } }
  | none => s

/-- Ports go DOWN (R344); the next one that is UP becomes the first. -/
def portsDown (ps : List Nat) (s : State) : State := claimRole (routesAfter (portsGoDown raiseNow ps) s)

/-- A port enters FAILED with a code of AERR. -/
def failPort (p e : Nat) (s : State) : State :=
  let s1 := (dropPort p s).put (R.FAB_PSTAT_STATE p) pFAILED
  raisePort raiseNow p (s1.put (R.FAB_PSTAT_AERR p) e)

/-- Bytes in frames of 32, each with its CHUNK. -/
def sendChunks (p ty : Nat) (bs : List Byte) (s : State) : State :=
  forN ((bs.length + 31) / 32) (fun k a => sendLocal p ty k (slice bs (32 * k) 32) a) s

/-- The hello set is sent: HELLO, HDIG, the certificate, CHAL with a random nonce. -/
def sendHello (p : Nat) (s : State) : State :=
  let nonce := beBytes 32 (freeNow s).toNat
  let s1 := freeNext (setFabPort s p { fabPort s p with nonce := nonce })
  let s2 := sendLocal p 0x02 0 (patDigest s1) (sendLocal p 0x01 0 ownFpr s1)
  sendLocal p 0x04 0 nonce (sendChunks p 0x03 devCert s2)

/-- FAB_TRAIN_START (Table 18.3). -/
def execFabTrainStart (p : Fin 4) (s : State) : Host.Outcome State Fault Refusal :=
  .next (if portRuns s p && portState s p == pDOWN then s.put (R.FAB_PSTAT_STATE p) pTRAIN else s)

/-- FAB_ALIGNED (R343). -/
def execFabAligned (p : Fin 4) (s : State) : Host.Outcome State Fault Refusal :=
  .next (if portRuns s p && portState s p == pTRAIN then
      sendHello p ((s.put (R.FAB_PSTAT_STATE p) pHELLO).put (R.FAB_PSTAT_AERR p) 0)
    else s)

/-- FAB_HELLO_TIMEOUT (R343). -/
def execFabHelloTimeout (p : Fin 4) (s : State) : Host.Outcome State Fault Refusal :=
  .next (if domOn s 2 && portState s p == pHELLO then failPort p 7 s else s)

/-- FAB_FAILED_END (Table 18.3). -/
def execFabFailedEnd (p : Fin 4) (s : State) : Host.Outcome State Fault Refusal :=
  .next (if domOn s 2 && portState s p == pFAILED then s.put (R.FAB_PSTAT_STATE p) pDOWN else s)

/-- A port reaches UP; a module without a role claims one. -/
def goUp (p : Nat) (s : State) : State :=
  let s1 := ((s.put (R.FAB_PSTAT_STATE p) pUP).inc (R.FAB_PCNT_UPCNT p)).flag R.FAB_IRQ_PORT true
  let s2 := setFabPort { s1 with fab := { s1.fab with ups := s1.fab.ups.filter (· != p) ++ [p] } } p { fabPort s1 p with ep := false }
  sendRoutes (syncRoutes (claimRole s2))

/-- The report of a peer is checked (R343, checks 3 to 6): 0, or its code of AERR. -/
def reportError (x : PortSt) : Nat :=
  let body := x.report.take 128
  let key := certKey x.cert
  let r := beNat (slice x.report 128 32)
  let q := beNat (slice x.report 160 32)
  if !ecdsaVerify key.1 key.2 (sha256 body) r q then 3
  else if slice body 0x10 32 ≠ x.nonce then 4
  else if leNat (slice body 8 4) + leNat (slice body 0xC 4) * 2 ^ 32 ≠ certSerial x.cert then 5
  else if some (slice body 0x30 32) ≠ x.dig then 6
  else 0

/-- Checks 1 and 2, once fingerprint and certificate are here. -/
def checkCert (p : Nat) (s : State) : State :=
  let x := fabPort s p
  let n := derLen x.cert
  if x.certOk || x.fpr.isNone || decide (x.cert.length < 4) || decide (x.cert.length < n) then s
  else
    let der := x.cert.take n
    if some (beBytes 32 (sha256 der)) ≠ x.fpr then failPort p 1 s
    else if !certChain der caCert then failPort p 2 s
    else setFabPort s p { x with certOk := true, cert := der }

/-- The REPORT is asked for, once the certificate is good and the peer's nonce is here. -/
def askReport (p : Nat) (s : State) : State :=
  let x := fabPort s p
  match x.far with
  | some n =>
    if x.certOk && !x.asked && signerOk s then addSign (.port p (reportBody n true s)) (setFabPort s p { x with asked := true })
    else s
  | none => s

/-- Checks 3 to 6, once the whole report is here. -/
def checkReport (p : Nat) (s : State) : State :=
  let x := fabPort s p
  if x.certOk && !x.repOk && x.dig.isSome && decide (192 ≤ x.report.length) then
    let e := reportError x
    if e = 0 then setFabPort s p { x with repOk := true } else failPort p e s
  else s

/-- What a port in HELLO can do with what it has (R343). Log entry 58. -/
def joinStep (p : Nat) (s : State) : State :=
  if portState s p ≠ pHELLO then s
  else
    let s1 := checkCert p s
    let s2 := if portState s1 p = pHELLO then checkReport p (askReport p s1) else s1
    let x := fabPort s2 p
    if portState s2 p = pHELLO ∧ x.repOk = true ∧ x.reported = true then goUp p s2 else s2

/-! ### Signatures (R221, R283, R285, R343, R359) -/

/-- A report is whole: body and signature. -/
def sendReport (r : SignReq) (bs : List Byte) (s : State) : State :=
  match r with
  | .port p _ =>
    if portState s p = pHELLO then
      let s1 := sendChunks p 0x05 bs s
      joinStep p (setFabPort s1 p { fabPort s1 p with reported := true })
    else s
  | .remote role e _ => forN 6 (fun k a => sendRouted 0x16 role e k (slice bs (32 * k) 32) a) s
  | .host _ => idnDone (putWindow (R.IDN_REPORT 0) bs s)
  | .verify => s
  | .meter => s

/-- The engine has made the signature of its first request. -/
def completeSign (r : SignReq) (s : State) : State :=
  let sign (body : List Byte) : List Byte := body ++ freeSignature body s
  let s1 := countSignature s
  match r with
  | .verify => s
  | .meter => match oldestPending s1 with
    | some k =>
      let s2 := signSlot k (freeSignature (ringSlot s k).body s) s1
      if s2.hrv.burst = 2 then s2.inc R.HRV_BURST_SLOTS else s2
    | none => s
  | .port _ body => sendReport r (sign body) s1
  | .remote _ _ body => sendReport r (sign body) s1
  | .host body => sendReport r (sign body) s1

/-- SIGN_COMPLETE (R283): the request in progress ends, and the next begins. A Pattern verify in progress ends with
PAT_VERIFY_DONE instead; a request met by KEYERR or RNGERR is refused (R280). -/
def execSignComplete (s : State) : Host.Outcome State Fault Refusal :=
  .next (match s.idn.queue with
    | [] => s
    | r :: t =>
      if s.idn.checking || r.isVerify || !domOn s 3 then s
      else
        let s1 := syncSign { s with idn := { s.idn with queue := t } }
        if signerOk s then completeSign r s1
        else match r with
          | .meter => mtrInt 4 s1
          | .host _ => idnDone (s1.put R.IDN_STAT_ERR (if s.on R.IDN_STAT_KEYERR then 6 else 7))
          | _ => s1)

/-! ### LINK exchanges (R356, R357) -/

/-- The own state of LINK or REMOTE seam `n`. -/
def linkX (s : State) (n : Nat) : LinkX := tget (fun _ => LinkX.zero) s.fab.links n
def setLinkX (s : State) (n : Nat) (x : LinkX) : State :=
  { s with fab := { s.fab with links := tset (fun _ => LinkX.zero) s.fab.links n x } }
def remoteX (s : State) (n : Nat) : RemoteX := tget (fun _ => RemoteX.zero) s.fab.remotes n
def setRemoteX (s : State) (n : Nat) (x : RemoteX) : State :=
  { s with fab := { s.fab with remotes := tset (fun _ => RemoteX.zero) s.fab.remotes n x } }

/-- An exchange of a LINK is missed: LINKSTALE, and FAB-LINK once per episode. -/
def linkMissed (n : Nat) (s : State) : State :=
  let x := linkX s n
  let s1 := s.flag (R.SEAM_STATE_LINKSTALE n) true
  if x.ep then s1 else occur kFLINK (seamScope n) 0 (setLinkX s1 n { x with ep := true })

/-- The nominal period of the slot carrier of a LINK (R119). -/
def slotPeriod (s : State) (n : Nat) : Nat := nominal s (s.get (R.SEAM_DESC_PARENT n))

/-- A LINK may send (R356). -/
def linkSends (s : State) (n : Nat) : Bool :=
  let r := s.get (R.SEAM_LINK_ROLE n)
  effEnabled s n && member s r && tb (s.get R.FAB_AGREE_MAP) (r - 1) && reachable s r

/-- The payload of a LINKREF (Table 18.5); `start` is the fabric time of the next start of the slot carrier. -/
def linkrefPayload (s : State) (n out start k : Nat) : List Byte :=
  leBytes 1 (s.get (R.SEAM_LINK_RSEAM n)) ++ leBytes 1 n ++ leBytes 2 out ++ leBytes 4 (slotPeriod s n) ++ leBytes 8 start
    ++ leBytes 2 k

/-- LINK `n` sends its exchange at the effective instant of its parent's update instant (R119, R357). Log entry 37. -/
def sendLinkref (n start : Nat) (s : State) : State :=
  let x := linkX s n
  let k := x.next
  let late := x.sent.contains ((k + 65534) % 65536)
  let s1 := setLinkX s n { x with next := (k + 1) % 65536, sent := x.sent.filter (· != (k + 65534) % 65536) }
  let s2 := if late then linkMissed n s1 else s1
  if linkSends s2 n then
    let r := s.get (R.SEAM_LINK_ROLE n)
    let s3 := setLinkX s2 n { linkX s2 n with sent := (linkX s2 n).sent ++ [k] }
    sendRouted 0x11 r (knownEpoch s r) 0 (linkrefPayload s n (s.get (R.SEAM_STATE_OUT n)) start k) s3
  else linkMissed n s2

/-- A REMOTE root's exchange is missed. -/
def remoteMissed (n : Nat) (s : State) : State :=
  let x := remoteX s n
  let s1 := s.flag (R.SEAM_STATE_LINKSTALE n) true
  if x.ep then s1 else occur kFLINK (seamScope n) 0 (setRemoteX s1 n { x with ep := true })

/-- A reference is applied at the REMOTE root's update instant. -/
def remoteApply (n : Nat) (w : WaitRef) (s : State) : State :=
  let x := remoteX s n
  ((setRemoteX s n { x with reply := x.reply ++ [w.xcnt], fresh := true, ep := false }).put (R.SEAM_REF_REF n) w.value).flag
    (R.SEAM_STATE_LINKSTALE n) false

/-- The payload of a LINKST (Table 18.5) for exchange `k` of the LINK `l`. -/
def linkstPayload (s : State) (n l k : Nat) : List Byte :=
  leBytes 1 n ++ leBytes 1 l ++ leBytes 2 k ++ leBytes 4 (s.word (R.SEAM_STATE n)).toNat
    ++ leBytes 4 (s.word (R.SEAM_CAP n)).toNat

/-- LINKST answers at the effective instant of that update instant. -/
def remoteReport (n : Nat) (s : State) : State :=
  let x := remoteX s n
  match x.owner with
  | some (r, l) => forL x.reply (fun k a => sendRouted 0x12 r (knownEpoch a r) 0 (linkstPayload a n l k) a)
      (setRemoteX s n { x with reply := [] })
  | none => s

/-- A carrier period of a REMOTE root ends: without a reference applied, the exchange is missed. -/
def remotePeriod (n : Nat) (s : State) : State :=
  if s.on (R.SEAM_DESC_REMOTE n) then
    let x := remoteX s n
    let s1 := setRemoteX s n { x with fresh := false }
    if effEnabled s n && !x.fresh then remoteMissed n s1 else s1
  else s

/-! ### Timers -/

/-- A fabric without a Pattern in force, or with a port disabled, has that port DOWN (Table 18.3); agreement follows the digest
in force (R353). -/
def syncFabric (s : State) : State :=
  if !domOn s 2 then s
  else if stoppedPorts s = [] then syncAgree s
  else claimRole (refreshFabric s)

/-- A write of PAT_CTL; the fabric follows an apply that begins with it (R51, Table 18.3). -/
def hostPatCtl (d : Word) (s : State) : State := syncFabric (writePatCtl d s)

/-- ROUTE_SEND (R348): every 1 ms; routes older than 3 ms are dropped. -/
def execRouteSend (s : State) : Host.Outcome State Fault Refusal :=
  .next (if domOn s 2 then sendRoutes (syncRoutes (syncFabric s)) else s)

/-- ROLE_FREE (R346): role `r + 1` has been unreachable for 30 ms. -/
def execRoleFree (r : Fin 32) (s : State) : Host.Outcome State Fault Refusal :=
  .next (
    let n := r.val + 1
    if domOn s 2 && member s n && metricTo s n == 255 then
      let s1 := (s.put R.FAB_MEMBERS_MAP (s.get R.FAB_MEMBERS_MAP - 2 ^ r.val)).flag (R.FAB_PEER_REACH n) false
      oneCycle (syncSource raiseNow) (syncAgree (s1.flag R.FAB_IRQ_MEMBERS true))
    else s)

/-- Fabric time is not valid any more: the CLKs of the roots that follow it are of one cycle (R261). -/
def loseTime (s : State) : State := oneCycle (clearTvalid raiseNow) s

/-- An exchange with the followed port: the offset of the own time from the neighbour's, in ns (R351, R352). Log entry 58. -/
def followTime (off : Int) (s : State) : State :=
  let s1 := s.put R.FAB_TSTAT_OFFS (code 8 (clampInt (-128) 127 off))
  let fix := if off.natAbs ≤ 1000 then clampInt (-25) 25 off else off
  let s2 := setFabTime (code 64 ((fabTime s : Int) - fix)) s1
  let s3 := if 1000 < off.natAbs then s2.inc R.FAB_TSTAT_TSTEP else s2
  let good := if off.natAbs ≤ 4 then s3.fab.good + 1 else 0
  let s4 := if 16 < off.natAbs then loseTime s3 else { s3 with fab := { s3.fab with good := min 8 good } }
  if 8 ≤ s4.fab.good then s4.flag R.FAB_TSTAT_TVALID true else s4

/-- The link delay in 0.1 ns: half the round trip less the neighbour's turnaround (R351). -/
def linkDelay (t : TimeStamps) : Int := quant 73 ((t.got - t.sent) - (t.back - t.there)) 2

/-- The offset of the own time from the neighbour's, in ns (R351). -/
def timeOffset (t : TimeStamps) : Int := quant 74 ((t.sent + t.got) - (t.there + t.back)) 20

/-- TIME_EXCHANGE (R351): the timestamps, and the source that the neighbour reports (0 none). -/
def execTimeExchange (p : Fin 4) (t : TimeStamps) (source : Fin 33) (s : State) : Host.Outcome State Fault Refusal :=
  .next (if portUp s p then
      let s1 := oneCycle (syncSource raiseNow) (setFabPort (s.put (R.FAB_PDLY_DLY p) (code 16 (linkDelay t))) p { fabPort s p with heard := source })
      if s1.get R.FAB_TSTAT_SRCROLE ≠ 0 ∧ s1.on R.FAB_TSTAT_SOURCE = false ∧ s1.get R.FAB_TSTAT_PORT = p.val then
        followTime (timeOffset t) s1
      else s1
    else s)

/-- TVALID_LOSS (R352): 10 ms without an exchange from the followed port; a source keeps TVALID. -/
def execTvalidLoss (s : State) : Host.Outcome State Fault Refusal :=
  .next (if domOn s 2 && !s.on R.FAB_TSTAT_SOURCE then loseTime s else s)

/-- DIGEST_SEND (R353): every 10 ms, to every member role. -/
def execDigestSend (s : State) : Host.Outcome State Fault Refusal :=
  .next (if domOn s 2 && s.on R.FAB_STAT_BOUND && s.on R.PAT_STAT_LOADED then
      forL (roles.filter (fun r => member s r && r != ownRole s)) (fun r a =>
        sendRouted 0x10 r (knownEpoch a r) 0 (patDigest a) a) s
    else s)

/-- AGREE_TIMEOUT (R353): 30 ms without a DIGEST from role `r + 1`. -/
def execAgreeTimeout (r : Fin 32) (s : State) : Host.Outcome State Fault Refusal :=
  .next (if domOn s 2 then
      syncAgree { s with fab := { s.fab with digests := tset (fun _ => none) s.fab.digests (r.val + 1) none } }
    else s)

end Sys2Proof.Machine
end

