-- ==== Sys2Proof/Machine/Modulation.lean ====
section
/-!
DEFINITION. Modulation and cell balance (spec/05): carriers, composition, sort and select, joining, refresh,
re-weaving and alignment.
-/
namespace Sys2Proof.Machine

/-! ### Slewing -/

/-- One period's part of Δ (R104). -/
def slewPart (s : State) (n : Nat) (r : Int) : Int :=
  let p := nominal s n
  let w := s.get (R.MOD_OPT_SLEW n)
  let lim := if w = 0 then p / 4 else min (p / 4) (w * p / 1024)
  clampInt (-(lim : Int)) lim r

/-! ### The pulses of a stitch -/

/-- f16 of a composed reference (R102). -/
def f16Of (r : Int) : Nat := if r = 32767 then 65536 else (r + 32768).toNat

/-- t_on of a fraction in a period of `p` steps after the minimum pulse of R103, and whether a pulse was suppressed. -/
def onSteps (s : State) (n p f : Nat) : Nat × Bool :=
  let t := f * p / 65536
  let m := 32 * s.get (R.MOD_OPT_MINPW n)
  if 0 < t ∧ t ≤ m then (0, true)
  else if 0 < p - t ∧ p - t ≤ m then (p, true)
  else (t, false)

/-- The steps at which R102 turns a stitch of seam `n` HIGH and LOW in its period of `p` steps. HIGH throughout has no end in
it. -/
def pulse (s : State) (n p f : Nat) : Nat × Nat :=
  let t := (onSteps s n p f).1
  let a := if s.on (R.MOD_CAR_SHAPE n) then p - t else (p - t) / 2
  if t = p then (0, 2 * p) else (a, a + t)

/-- The level that R102 gives a stitch of seam `n` at a step of its period of `p` steps. -/
def levelAt (s : State) (n p f step : Nat) : Nat :=
  let h := pulse s n p f
  if h.1 ≤ step ∧ step < h.2 then 2 else 1

/-- MOD_CNT.SUPPR of seam `n`: once a period for each of its running stitches `ks` whose pulse is suppressed, by the
fraction in force at the start of the period or by one applied at an update instant within it (R103): `of` says which. -/
def countSuppressed (n : Nat) (of : Fraction → Nat) (ks : List Nat) (s : State) : State :=
  forL ks (fun k a =>
    let c := carrier a n
    if c.joined.contains k && a.get (R.STI_STATE_STATE k) == stRUN && !c.suppr.contains k
        && (onSteps a n (fraction a k).per (of (fraction a k))).2 then
      (setCarrier a n { c with suppr := k :: c.suppr }).inc (R.MOD_CNT_SUPPR n)
    else a) s

/-! ### Composition (R22, R381) -/

/-- The contribution of a seam of type `ty` with composed reference `r` to slot `k` (Table 2.1). -/
def contribution (ty k : Nat) (r : Int) : Int :=
  if ty = tBRIDGE ∧ k = 1 then sat16 (-r) else r

/-- The composed reference of a seam as SEAM_STATE.OUT holds it. -/
def outOf (s : State) (n : Nat) : Int := q15 (s.get (R.SEAM_STATE_OUT n))

/-- OUT and SAT of a seam take a sum (R22). -/
def putOut (n : Nat) (sum : Int) (s : State) : State :=
  (s.put (R.SEAM_STATE_OUT n) (satCode sum)).flag (R.SEAM_STATE_SAT n) (sum != sat16 sum)

/-- Every seam and stitch below `n` composed, top-down, from its OUT; the children of a STACK follow its selection
instead (R23). -/
def composeBelow : Nat → Nat → State → State
  | 0, _, s => s
  | f + 1, n, s =>
    let ty := seamType s n
    forL (List.range (s.get (R.SEAM_DESC_NCHILD n))) (fun k a =>
      let c := childCode a n k
      let r := contribution ty k (outOf a n)
      if isStitchCode c then (if ty = tSTACK then a else setNext c (f16Of r) a)
      else
        let m := c - 0x80
        if ty = tSTACK then composeBelow f m a
        else composeBelow f m (putOut m (r + a.sget (R.SEAM_OFS_OFS m)) (a.put (R.SEAM_REF_REF m) (code 16 r)))) s

/-- Composition at an update instant of seam `n`. -/
def compose (n : Nat) (s : State) : State :=
  let p := s.get (R.SEAM_DESC_PARENT n)
  let s1 :=
    if p = 0 then putOut n (s.sget (R.SEAM_REF_REF n) + s.sget (R.SEAM_OFS_OFS n)) s
    else if seamType s p = tSTACK then s
    else
      let r := contribution (seamType s p) (slotOf s p (seamCode n)) (outOf s p)
      putOut n (r + s.sget (R.SEAM_OFS_OFS n)) (s.put (R.SEAM_REF_REF n) (code 16 r))
  composeBelow 64 n s1

/-! ### Sort and select (R109–R112) -/

/-- One candidate: its child code, slot, levels, rank key and request. -/
structure Cand where
  child : Nat
  slot  : Nat
  lv    : Nat
  v     : Nat
  key   : Int
  bst   : Bool
  deriving DecidableEq, Repr

/-- Does a child count as capable and joined (R109)? -/
def counts (s : State) (n c : Nat) : Bool :=
  if isStitchCode c then capable s c && (carrier s n).joined.contains c && s.get (R.STI_STATE_STATE c) == stRUN
  else decide (0 < s.get (R.SEAM_CAP_CAP (c - 0x80))) && decide (1 ≤ s.get (R.SEAM_CAP_LEVELS_AVL (c - 0x80)))

/-- Does a child rank behind in the sort because a bootstrap request is pending (R110)? -/
def childBst (s : State) (c : Nat) : Bool :=
  (stitchesOf s c).any (fun n => capable s n && s.on (R.STI_STATE_BSTREQ n))

/-- Ranks before (R110). -/
def Cand.before (chg : Bool) (a b : Cand) : Bool :=
  if a.bst != b.bst then !a.bst
  else if a.key != b.key then (if chg then decide (a.key < b.key) else decide (b.key < a.key))
  else decide (a.slot < b.slot)

/-- Insert into a ranked list. -/
def rankIn (chg : Bool) (c : Cand) : List Cand → List Cand
  | [] => [c]
  | d :: t => if c.before chg d then c :: d :: t else d :: rankIn chg c t

/-- The walk of R110: full children, in order, and what remains. -/
def walk : List Cand → Nat → List Nat × Nat
  | [], rem => ([], rem)
  | c :: t, rem =>
    if c.lv * 65536 ≤ rem then
      let r := walk t (rem - c.lv * 65536)
      (c.child :: r.1, r.2)
    else walk t rem

/-- Undo swaps until the limit holds (R111). -/
def limitSwaps : Nat → List Cand → List Nat → Nat → List Nat → List Nat
  | 0, _, _, _, full => full
  | f + 1, cand, prev, lim, full =>
    let enter := cand.filter (fun c => full.contains c.child && !prev.contains c.child)
    let leave := cand.filter (fun c => prev.contains c.child && !full.contains c.child)
    if min enter.length leave.length ≤ lim then full
    else match enter.reverse.find? (fun e => leave.any (fun l => l.lv == e.lv)) with
      | some e => match leave.find? (fun l => l.lv == e.lv) with
        | some l => limitSwaps f cand prev lim (l.child :: full.filter (· != e.child))
        | none => full
      | none => full

/-- The reference of a child of a STACK after a selection (R110): full insertion is 0x7FFF, and the fraction `f` of
the remainder is f − 32,768, which the child follows under R102. -/
def driveChild (c f : Nat) (s : State) : State :=
  let r : Int := if f = 65536 then 32767 else (f : Int) - 32768
  if isStitchCode c then setNext c (f16Of r) s
  else composeBelow 64 (c - 0x80) (s.put (R.SEAM_STATE_OUT (c - 0x80)) (code 16 r))

/-- The direction of the arm current (R109): charging, and whether the instant lies in the dead band. -/
def direction (s : State) (n : Nat) : Bool × Bool :=
  let i := s.sget (R.ACQ_RES_VALUE (s.get (R.MOD_STK_ISRC n)))
  let pol := s.on (R.MOD_STK_IPOL n)
  let sign := if i = 0 then true else (decide (0 < i)) != pol
  if i.natAbs ≤ s.get (R.MOD_REF_IDB n) then (((carrier s n).dir).getD sign, true) else (sign, false)

/-- The sort and selection of a STACK at its update instant (R109–R112); the second part is whether SEAM-BAL is to be
raised. BALN = 0, of which the spec does not speak, raises it at the first spread above BALTH (DESIGN CHOICE, log entry
65). -/
def sortSelect (n : Nat) (due : Bool) (s : State) : State × Bool :=
  let c := carrier s n
  let cs := children s n
  let dd := direction s n
  let chg := dd.1
  let hys : Int := s.get (R.MOD_STK_SWAPHYS n)
  let elig := (List.range cs.length).filter (fun k => counts s n (cs.getD k 0x80))
  let cand := (elig.filterMap (fun k =>
    let ch := cs.getD k 0x80
    (childV s ch due).map (fun v =>
      let kk : Int := v.1
      let key := if c.full.contains ch then (if chg then kk - hys else kk + hys) else kk
      (Cand.mk ch k (if isStitchCode ch then 1 else s.get (R.SEAM_CAP_LEVELS_AVL (ch - 0x80))) v.1 key (childBst s ch)))))
  let late := (elig.map (fun k => ((childV s (cs.getD k 0x80) due).map (·.2)).getD 0)).sum
  let stale := elig.length - cand.length
  let ranked := cand.foldl (fun l x => rankIn chg x l) []
  let x := s.get (R.SEAM_STATE_OUT n)
  let x16 := f16Of (q15 x)
  let rem0 := x16 * c.levels
  let w := walk ranked rem0
  let lim := if dd.2 then 0 else s.get (R.MOD_STK_SWAPMAX n)
  let full := if c.levels = 0 then [] else limitSwaps 32 ranked c.full lim w.1
  let enter := (ranked.filter (fun d => full.contains d.child && !c.full.contains d.child)).length
  let leave := (ranked.filter (fun d => c.full.contains d.child && !full.contains d.child)).length
  let frac := if c.levels = 0 ∨ w.2 = 0 then none
    else ranked.find? (fun d => !full.contains d.child && decide (w.2 < d.lv * 65536))
  let short := decide (c.levels ≠ 0) && decide (w.2 ≠ 0) && frac.isNone
  let vs := ranked.map (·.v)
  let spread := (vs.max?).getD 0 - (vs.min?).getD 0
  let th := 2 * s.get (R.MOD_STK_BALTH n)
  let wide := decide (th < spread)
  let run := if wide then c.balRun + 1 else 0
  let raise := wide && !c.balOpen && decide (run = s.get (R.MOD_OPT_BALN n) ∨ s.get (R.MOD_OPT_BALN n) = 0)
  let c1 := { c with full := full, frac := frac.map (·.child), dir := some chg, balRun := run,
                     balOpen := wide && (c.balOpen || raise) }
  let s1 := setCarrier s n c1
  let s2 := (((((((s1.put (R.MOD_SST_SWAPS n) (min enter leave)).flag (R.MOD_SST_DIR n) chg).flag (R.MOD_SST_DEAD n)
    dd.2).flag (R.MOD_SST_SHORT n) short).flag (R.MOD_SST_STALE n) (decide (0 < stale))).flag (R.MOD_SST_BAL n)
    wide).put (R.MOD_SST_SPREAD n) spread)
  let s3 := (s2.put (R.MOD_CNT_STALECNT n) (s2.get (R.MOD_CNT_STALECNT n) + stale)).put (R.MOD_CNT_LATEVAL n)
    (s2.get (R.MOD_CNT_LATEVAL n) + late)
  let s4 := (s3.put (R.SEAM_CAP_INS n) full.length).flag (R.SEAM_CAP_FRAC n) frac.isSome
  let s5 := forL cs (fun ch a =>
    let f := if full.contains ch then 65536
      else match frac with
        | some d => if d.child = ch then w.2 / d.lv else 0
        | none => 0
    driveChild ch f a) s4
  (s5, raise)

/-! ### Period starts (R25, R36, R89, R101, R104, R113, R115) -/

/-- May stitch `k` of seam `n` enter RUN at this period start (Table 4.13, R15)? -/
def mayRun (s : State) (k : Nat) : Bool :=
  s.get (R.STI_STATE_STATE k) == stIDLE && s.on (R.STI_STATE_SETOK k) && claimed s k && !retired s k
    && effEnabled s (ownerOf s k) && !hemActive s && !rank2 s k && !ownCovers s k

/-- The stitch enters RUN and waits for its join slot (R113). -/
def enterRun (n k : Nat) (s : State) : State :=
  let c := carrier s n
  let s1 := setCarrier s n { c with joining := c.joining.filter (· != k) ++ [k], lowDone := c.lowDone.filter (· != k),
                                    joined := c.joined.filter (· != k) }
  let d := dielet s1 k
  setView k stRUN 0 (if d.st = .idle then setDielet s1 k { d with st := .run } else s1)

/-- The level count of a STACK latches at a period start; a fall re-weaves, deferred while held (R115, R38). -/
def latchLevels (n : Nat) (s : State) : State :=
  if seamType s n = tSTACK then
    let c := carrier s n
    let a := s.get (R.SEAM_CAP_LEVELS_AVL n)
    if a < c.levels then
      if s.on (R.SEAM_STATE_HELD n) then s
      else ((setCarrier s n { c with levels := a, reweave := true }).inc R.MOD_RWV_COUNT).put R.MOD_RWV_LAST n
    else setCarrier s n { c with levels := a }
  else s

/-- The alignment error of a root under R116 or R118: SYNCOK after two checks within 4 steps, lost beyond 64. -/
def judgeAlign (n : Nat) (err : Int) (s : State) : State :=
  let c := carrier s n
  let e := err.natAbs
  let run := if e ≤ 4 then c.aligned + 1 else 0
  let s1 := setCarrier s n { c with aligned := run, rem := wrapPhase (nominal s n) err }
  let s2 := s1.flag (R.MOD_SST_SLEWING n) ((carrier s1 n).rem != 0)
  if 2 ≤ run then setEpisode (s2.flag (R.MOD_SST_SYNCOK n) true) (256 + n) false
  else if 64 < e then s2.flag (R.MOD_SST_SYNCOK n) false
  else s2

/-- A period of seam `n` starts: the enable in effect (R25). Log entry 41. -/
def latchEnable (n : Nat) (s : State) : State :=
  if s.on (R.SEAM_CTL_EN n) && !s.enabled.contains n then syncEnables { s with enabled := n :: s.enabled } else s

/-- A root's period changes at its period start; SYNCOK clears on an aligned root (R105). A carrier below it takes at its own
start the period its parent then has (R101). -/
def latchPeriod (n : Nat) (s : State) : State :=
  let c := carrier s n
  let q := s.get (R.SEAM_DESC_PARENT n)
  let p := if q = 0 then s.get (R.MOD_CAR_PER n) else nominal s q
  if p = c.per then s
  else
    let s1 := setCarrier s n { c with per := p, aligned := 0 }
    if q = 0 ∧ c.per ≠ 0 ∧ (s.get (R.MOD_CAR_SYNC n) = 1 ∨ s.get (R.MOD_CAR_SYNC n) = 2) then
      s1.flag (R.MOD_SST_SYNCOK n) false
    else s1

/-- The stitch children of seam `n` that a carrier times (R101): the seam's own (`slot` none), or the slot carrier of a
SHIFT or TRIAD. -/
def timed (s : State) (n : Nat) (slot : Option (Fin 16)) : List Nat :=
  let delayed := seamType s n == tSHIFT || seamType s n == tTRIAD
  match slot with
  | none => if delayed then [] else (children s n).filter isStitchCode
  | some k => if delayed then ((children s n)[k.val]?.filter isStitchCode).toList else []

/-- t_rslot, t_refw and t_mp in steps, and the least distance of two edges of a stitch (R103, Table 5.1). -/
def rslotSteps : Nat := 1280
def refwSteps : Nat := 768
def mpSteps : Nat := 256
def edgeGap : Nat := 77

/-- The effective instant in a period of `p` steps of the carriers of seam `o` (R101, R108). -/
def effStep (s : State) (o p : Nat) : Nat := s.get (R.MOD_INST_UPD o) * p / 65536 + mpSteps

/-- The intervals, in steps of its period, for which the modulator schedules stitch `k` of seam `o` HIGH: by the fraction in
force before the effective instant, and from there by the one taken at the update instant (R102, R108). -/
def highSpans (s : State) (o k : Nat) : List (Nat × Nat) :=
  let f := fraction s k
  let e := effStep s o f.per
  let h := pulse s o f.per f.was
  let g := pulse s o f.per f.due
  let a := (h.1, min h.2 e)
  let b := (max g.1 e, g.2)
  if a.1 < a.2 ∧ b.1 < b.2 ∧ a.2 = b.1 then [(a.1, b.2)] else [a, b].filter (fun x => decide (x.1 < x.2))

/-- The steps for which stitch `k` of seam `o` is scheduled LOW at the end of its period, which lasted `l` steps. -/
def lowTail (s : State) (o k l : Nat) : Nat :=
  let f := fraction s k
  if !(carrier s o).joined.contains k || f.per == 0 then 0
  else match ((highSpans s o k).filter (fun x => decide (x.1 < l))).getLast? with
    | some x => l - x.2
    | none => f.tail + l

/-- A period of the carrier that times stitch `k` of seam `n` starts: it counts from instant `t`, and lasts `p` steps. What
is held in steps now counts from there. A LOW stays in sight while it reaches into the period. -/
def turnPeriod (n t p k : Nat) (s : State) : State :=
  let f := fraction s k
  let l : Int := (t : Int) - f.start
  setFraction s k { f with was := f.due, cur := f.due, per := p, start := t, tail := lowTail s n k l.toNat, now := 0, join := none
                           edge := f.edge.map (· - l), asked := f.asked.map (· - l)
                           low := (f.low.map (· - l)).filter (fun q => decide (0 < q + refwSteps)) }

/-- The stitches `ks` waiting to join take their slots in a period of seam `n`, in their order: one slot each at t_rslot
in a STACK, where it fits in the period, the start of the period elsewhere (R113). -/
def assignJoins (n : Nat) (ks : List Nat) (s : State) : State :=
  let last := (carrier s n).len
  forL ks.zipIdx (fun e a =>
    let q := if seamType a n = tSTACK then e.2 * rslotSteps else 0
    setFraction a e.1 { fraction a e.1 with join := if ((q + refwSteps : Nat) : Int) ≤ last then some q else none }) s

/-- A carrier that times the stitches `ks` of seam `n` starts a period, which counts from instant `t`: commands are taken again (R15), stitches enter
RUN (Table 4.13) and take join slots behind those carried over (R113), and suppressed pulses count anew (R103). -/
def startTimed (n t : Nat) (ks : List Nat) (s : State) : State :=
  let s1 := forL ks (turnPeriod n t (nominal s n)) { s with waits := s.waits.filter (fun k => !ks.contains k) }
  let c := carrier s1 n
  let s2 := setCarrier s1 n { c with suppr := c.suppr.filter (fun k => !ks.contains k) }
  let late := ks.filter (fun k => c.joining.contains k && s2.get (R.STI_STATE_STATE k) == stRUN)
  let new := ks.filter (mayRun s2)
  let s3 := assignJoins n (late ++ new) (forL new (enterRun n) s2)
  countSuppressed n (·.cur) ks s3

/-- The instant `t`, in steps of 156.25 ps of the timebase (sixteen to an engine cycle), in fabric time: in 1/32 ns, so
that a step is 5. -/
def fabricAt (s : State) (t : Nat) : Int := 32 * (s.fab.timeBase : Int) + 5 * ((t : Int) - 16 * s.fab.timeAt)

/-- PHASE × P_ns ÷ 65,536 to the nearest ns (R118). -/
def phaseNs (s : State) (n : Nat) : Nat := (2 * (s.get (R.MOD_PH_PHASE n) * nominal s n * 5) + 2097152) / 4194304

/-- What a root that starts a period at instant `t` must wait, in steps, for its phase 0 to lie PHASE behind the fabric
time `ref` (in ns), or a whole number of periods from there (R118, R119). A part of a step rounds as log entry 1 says. -/
def phaseError (s : State) (n t ref : Nat) : Int :=
  quant 70 (-(wrapPhase (5 * nominal s n) (fabricAt s t - 32 * (ref + phaseNs s n)))) 5

/-- The root's correction at a period start at instant `t`: towards fabric time (R118), or towards the start its LINK sent
(R119), judged the same way. Without valid fabric time either runs free (R352). -/
def alignRoot (n t : Nat) (s : State) : State :=
  let sync := s.get (R.MOD_CAR_SYNC n)
  if sync = 2 ∧ s.on R.FAB_TSTAT_TVALID then judgeAlign n (phaseError s n t 0) s
  else if sync = 3 then
    match (remoteX s n).start with
    | some ref =>
      let s1 := setRemoteX s n { remoteX s n with start := none }
      if s.on R.FAB_TSTAT_TVALID then judgeAlign n (phaseError s n t ref) s1 else s1
    | none => s
  else s

/-- MOD_SYNC_OUT rises after each phase 0 of its root (R117): the instant of that phase 0. -/
def pulseSync (n t : Nat) (s : State) : State :=
  if s.get R.MOD_SYNCO_SEAM = n then { s with syncOut := some t } else s

/-- The level of MOD_SYNC_OUT at instant `t` (R117), with t_sout and t_sow at their typical 4.0 ns and 100 ns (Table 5.1). -/
def syncOutHigh (s : State) (t : Nat) : Bool :=
  match s.syncOut with
  | some u => decide (u + 26 ≤ t) && decide (t < u + 26 + 640)
  | none => false

/-- The steps by which the carriers above seam `n` lengthen the matching period of its own (R101). -/
def aboveShift (s : State) (n : Nat) : Int := (((path s n).drop 1).map (fun m => (carrier s m).shift)).sum

/-- The seam's own carrier starts a period at instant `t` (R25, R36, R101, R104, R105, R115, R117, R357). -/
def startPeriod (n t : Nat) (s : State) : State :=
  let s0 := latchPeriod n (if seamType s n = tLINK then s else s.inc (R.SEAM_STATE_PERIOD n))
  let s1 := alignRoot n t s0
  let c := carrier s1 n
  let a := slewPart s1 n c.rem
  let s2 := (setCarrier s1 n { c with rem := c.rem - a, shift := a, periods := c.periods + 1, start := t + a.toNat
                                      len := nominal s1 n + min a 0 + aboveShift s1 n }).flag (R.MOD_SST_SLEWING n) (c.rem - a != 0)
  latchLevels n (refreshCap n (latchEnable n (remotePeriod n (pulseSync n t s2))))

/-- CARRIER_PERIOD_START (R101) at instant `t`: of the seam's own carrier (`slot` none), or of the carrier of a slot. The
latches that the period clears do so after the stitches it times took it: they take commands again from the next (R15,
R180); `met` is what happens at the windows in this cycle. -/
def execCarrierPeriodStart (n : Fin 64) (slot : Option (Fin 16)) (t : Nat) (met : List (Fin 64 × WinMeet)) (s : State) :
    Host.Outcome State Fault Refusal :=
  .next (
    if seamUsed s n && carriersRun s then
      let s0 := { s with cyc := max s.cyc (t / 16) }
      if slot.isNone then
        oneCycle (fun a =>
          let s1 := startPeriod n t a
          winPeriodClear n met (startTimed n (carrier s1 n).start (timed s n slot) s1)) s0
      else startTimed n t (timed s n slot) s0
    else s)

/-- Stitches whose join LOW has ended join at the update instant of the carrier that times them (R113). -/
def joinTimed (n : Nat) (ks : List Nat) (s : State) : State :=
  let c := carrier s n
  let now := c.lowDone.filter ks.contains
  if now = [] then s
  else setCarrier s n { c with joined := c.joined ++ now, lowDone := c.lowDone.filter (fun k => !ks.contains k) }

/-- The instant of the update instant of the present period of seam `n`'s own carrier (R106). -/
def updateStep (s : State) (n : Nat) : Nat :=
  (carrier s n).start + s.get (R.MOD_INST_UPD n) * nominal s n / 65536

/-- The references that wait at a REMOTE root are applied at its first update instant at least t_lnk after they were sent
(R119). -/
def takeRef (n : Nat) (s : State) : State :=
  if s.on (R.SEAM_DESC_REMOTE n) then
    let x := remoteX s n
    let u := fabricAt s (updateStep s n)
    forL (x.wait.filter (fun w => decide (w.due ≤ u))) (remoteApply n)
      (setRemoteX s n { x with wait := x.wait.filter (fun w => decide (u < w.due)), last := some u })
  else s

/-- Step 1 of R108 at seam `n`: a reference that is due at a REMOTE root, and the outputs of contexts; the re-weave of a
STACK shows from here. -/
def updateOutputs (u : Update) (s : State) : State :=
  let n := u.seam.val
  let s1 := takeRef n (applyOutputs n s)
  let c := carrier s1 n
  let s2 := setCarrier s1 n { c with reweave := false }
  if c.reweave then s2.flag (R.SEAM_STATE_REWOVE n) true else s2

/-- Step 3 of R108 at seam `n`: a STACK sorts and selects; the result says whether it raises SEAM-BAL. -/
def updateSort (n : Nat) (due : Bool) (s : State) : State × Bool :=
  if seamType s n = tSTACK then sortSelect n due s else (s, false)

/-- The instant at which the slot carrier of the LINK `m` next starts after the effective instant of its parent's update
instant (R101, R119): in the parent's present period, or in the one after it, whose period is then in force. -/
def linkStart (s : State) (m : Nat) : Int :=
  let p := s.get (R.SEAM_DESC_PARENT m)
  let c := carrier s p
  let d (per : Nat) : Int := (slotDelay s m * per / 65536 : Nat)
  let here := (c.start : Int) - max c.shift 0 + d c.per
  if (updateStep s p : Int) + mpSteps < here then here else c.start + c.len + d (s.get (R.MOD_CAR_PER p))

/-- Step 4 of R108: the LINK `m`, below a seam of `ns`, sends its exchange, with that start in ns of fabric time; a part of a
nanosecond rounds as log entry 1 says. -/
def updateLink (ns : List Nat) (m : Nat) (s : State) : State :=
  if seamType s m = tLINK ∧ ns.contains (s.get (R.SEAM_DESC_PARENT m)) then
    sendLinkref m (quant 75 (fabricAt s (linkStart s m).toNat) 32).toNat (s.inc (R.SEAM_STATE_PERIOD m))
  else s

/-- The seams of `ns`, those nearer their roots first, and by number. -/
def topDown (s : State) (ns : List Nat) : List Nat :=
  (List.range 64).flatMap (fun d => seams.filter (fun n => ns.contains n && (path s n).length == d + 1))

/-- The work of an update instant that the seams of `us` share (R108, R381), each step over all of them before the next:
outputs; one composition of each tree from the highest of them; the sorts, a STACK below another after it, then their
SEAM-BAL in scope order; the LINKs, in scope order (R247); and the answers of REMOTE roots. Log entry 10. -/
def updateAt (due : Bool) (us : List Update) (s : State) : State :=
  let ns := us.map (·.seam.val)
  let s1 := forL us updateOutputs s
  let tops := (topDown s ns).filter (fun n => !((path s n).drop 1).any ns.contains)
  let s2 := forL tops compose s1
  let r := (topDown s ns).foldl (fun (a : State × List Nat) n =>
    let q := updateSort n due a.1
    (q.1, if q.2 then n :: a.2 else a.2)) (s2, [])
  let s3 := forL (seams.filter r.2.contains) (fun n a => occur kBAL (seamScope n) 0 a) r.1
  forL ns remoteReport (forL seams (updateLink ns) s3)

/-- A carrier that times stitches has its update instant: what is composed is taken for its next effective instant
(R381), and suppressed pulses count (R103). -/
def takeFractions (u : Update) (s : State) : State :=
  let n := u.seam.val
  let ks := timed s n u.slot
  countSuppressed n (·.due) ks (forL ks (fun k a =>
    let f := fraction a k
    setFraction a k { f with due := f.next, now := s.get (R.MOD_INST_UPD n) * f.per / 65536 }) s)

/-- UPDATE_INSTANT (R108) of every carrier that has one at this instant: the seams' own, and those of slots (R101). `due`
says that the value of the newest telemetry tick is due (R109). -/
def execUpdateInstant (due : Bool) (us : List Update) (s : State) : Host.Outcome State Fault Refusal :=
  .next (
    if carriersRun s then
      let vs := us.filter (fun u => seamUsed s u.seam)
      let s1 := forL vs (fun u a => joinTimed u.seam (timed a u.seam u.slot) a) s
      forL vs takeFractions (oneCycle (updateAt due (vs.filter (·.slot.isNone))) s1)
    else s)

/-- LS = U − COST × t_cyc, in steps, of context `c` of seam `n` for the sample instant `t` (R129). -/
def latestStart (s : State) (n t c : Nat) : Int :=
  (t : Int) + ((s.get (R.MOD_INST_UPD n) * nominal s n / 65536 : Nat) : Int)
    - ((s.get (R.MOD_INST_SMP n) * nominal s n / 65536 : Nat) : Int) - 16 * s.get (R.CTX_CFG_COST c)

/-- The sample instant of seam `n` at instant `t` (R106, R107): every SMPDIV + 1 periods, sequences, urgent slots and
contexts are triggered. -/
def sampleAt (n t : Nat) (s : State) : State :=
  if seamUsed s n && carriersRun s && ((carrier s n).periods - 1) % (s.get (R.MOD_OPT_SMPDIV n) + 1) == 0 then
    let r := acqSeamTrigger n { s with cyc := max s.cyc (t / 16) }
    triggerWith r.2 (latestStart s n t) n (gridSample n r.2 r.1)
  else s

/-- SAMPLE_INSTANT (R106, R107). -/
def execSampleInstant (n : Fin 64) (t : Nat) (s : State) : Host.Outcome State Fault Refusal :=
  .next (oneCycle (sampleAt n t) s)

/-- The conversion on converter `v` ends on an input of `x` nV at the close of the aperture, `peak` nV at its greatest during
it (R156). -/
def convEnds (v : Nat) (x peak : Int) (s : State) : State := endConversion v (convCode x) (overRange peak) s

/-- A conversion that ends in the same cycle as another (R166). -/
def meetEnd (m : ConvMeet) (s : State) : State :=
  match m with
  | .done v x peak => convEnds v x peak s
  | _ => s

/-- A command that meets the end of a conversion (R166). -/
def meetConversion (m : ConvMeet) (s : State) : State :=
  match m with
  | .done _ _ _ => s
  | .go k port en => urgentGo k port en s
  | .sample n t => sampleAt n t s

/-- CONVERSION_DONE (R156–R158, R164–R166): converter `v` ends a conversion of an input of `x` nV at the close of the
aperture, `peak` nV at its greatest during it. Every conversion of the cycle ends before its requests take the next starts. -/
def execConversionDone (v : Fin 4) (x peak : Int) (met : List ConvMeet) (s : State) : Host.Outcome State Fault Refusal :=
  .next (
    if (conv s v).job.isSome then
      oneCycle (fun a => grantAll (forL met meetConversion (forL met meetEnd (convEnds v x peak a)))) s
    else s)

/-! ### Edges -/

/-- The symbol that link `n` carries from step `q` of the period on, after the multiplexer of R14. -/
def launch (n m : Nat) (q : Nat) (s : State) : State :=
  let m1 := if s.on R.MOD_STAT_EDGE_LOCK then m else 0
  let c := (linkCommand s n m1).1
  let f := fraction s n
  setFraction (setLink s n { link s n with cmd := c }) n
    { f with now := q, edge := if c = (link s n).cmd then f.edge else some q }

/-- Is a modulator command to stitch `n` obeyed now (R14, R99)? -/
def obeyed (s : State) (n : Nat) : Bool := s.on R.MOD_STAT_EDGE_LOCK && (linkCommand s n 1).2

/-- The step to which R103 assigns an edge of stitch `n` that falls at step `q`: no less than 12.0 ns, 77 steps, after its last
one. -/
def assigned (s : State) (n q : Nat) : Int :=
  match (fraction s n).edge with
  | some e => max (q : Int) (e + edgeGap)
  | none => q

/-- Is stitch `n` of seam `o` scheduled HIGH from 12.0 ns before a refresh at step `q` to 12.0 ns after it (R114)? -/
def highAround (s : State) (o n q : Nat) : Bool :=
  (highSpans s o n).any (fun x => decide (x.1 + edgeGap ≤ q) && decide (q + refwSteps + edgeGap ≤ x.2))

/-- Is stitch `n` of seam `o` scheduled LOW for t_refw before step `q`, in an interval that ends after step `r`, when its
refresh was requested (R114)? An interval that a period start falls in counts whole. -/
def lowBefore (s : State) (o n q : Nat) (r : Int) : Bool :=
  let hs := highSpans s o n
  let from_ : List Int := -((fraction s n).tail : Int) :: hs.map (fun x => (x.2 : Int))
  let to_ : List Int := hs.map (fun x => (x.1 : Int))
  (from_.zip to_).any (fun x => decide (x.2 ≤ q) && decide (r < x.2) && decide (x.1 + refwSteps ≤ x.2))

/-- The refresh slots of a carrier of seam `o` whose period has `p` steps: at REFPH, and at every t_rslot after it within the
period (R114). -/
def refreshGrid (s : State) (o p : Nat) : List Nat :=
  let q := s.get (R.MOD_REF_REFPH o) * p / 65536
  (List.range ((p - q + rslotSteps - 1) / rslotSteps)).map (fun i => q + i * rslotSteps)

/-- The refresh slot that stitch `n` of seam `o` takes in this period while LOWs at the steps `held` hold theirs: the first
at or after the request and the effective instant, with the stitch HIGH around it; none where the stitch is scheduled LOW
for t_refw before (R114). -/
def refreshSlot (s : State) (o n : Nat) (held : List Int) : Option Nat :=
  match (fraction s n).asked with
  | none => none
  | some r =>
    let p := (fraction s n).per
    ((refreshGrid s o p).find? (fun (q : Nat) => decide (r ≤ q) && decide (effStep s o p ≤ q) && highAround s o n q
      && held.all (fun h => decide (refwSteps ≤ (h - q).natAbs)))).filter (fun q => !lowBefore s o n q r)

/-- The LOWs of the other children of a STACK in this period: sent, and assigned for a join (R114). -/
def heldSlots (s : State) (o n : Nat) : List Int :=
  ((children s o).filter (fun k => isStitchCode k && k != n)).flatMap (fun k =>
    (fraction s k).low.toList ++ ((fraction s k).join.map Int.ofNat).toList)

/-- Does the modulator owe stitch `n` a refresh (R114)? -/
def wantsRefresh (s : State) (n : Nat) : Bool :=
  s.on (R.STI_STATE_BSTREQ n) && s.get (R.STI_STATE_STATE n) == stRUN && (fraction s n).asked.isSome

/-- The refresh slot of stitch `n` in this period; in a STACK the children of lower slots choose before it (R114). -/
def refreshAt (s : State) (o n : Nat) : Option Nat :=
  if seamType s o = tSTACK then
    let before := ((children s o).takeWhile (· != n)).filter (fun k => isStitchCode k && wantsRefresh s k)
    let taken := before.foldl (fun (l : List Int) k =>
      match refreshSlot s o k (heldSlots s o k ++ l) with
      | some q => (q : Int) :: l
      | none => l) []
    refreshSlot s o n (heldSlots s o n ++ taken)
  else refreshSlot s o n []

/-- Does the join or refresh LOW of stitch `n` end at step `q`? -/
def lowEnds (s : State) (n q : Nat) : Bool := (fraction s n).low == some ((q : Int) - refwSteps)

/-- Is LOW assigned to stitch `n` from step `q` on? -/
def noteLow (n q : Nat) (s : State) : State := setFraction s n { fraction s n with low := some q, asked := none }

/-- EDGE_INSTANT (R102, R113, R114): an edge, a join pulse or a refresh pulse of stitch `n`, at step `q` of the period of
the carrier that times it, and where R103 assigns it (R103). Joins and refreshes fall in their slots alone. A join LOW that
R14 keeps from the link counts as had (log entry 76). -/
def execEdgeInstant (n : Fin 96) (k : EdgeKind) (q : Nat) (s : State) : Host.Outcome State Fault Refusal :=
  .next (
    let o := ownerOf s n
    let c := carrier s o
    if stitchThere s n && carriersRun s && o != 0 then
      match k with
      | .edge eff =>
        let s1 := if eff then commitFraction n s else s
        let f := fraction s1 n
        let m := if c.joined.contains n.val then levelAt s1 o f.per f.cur q else 0
        if assigned s1 n q = q then winBlankOpen n (launch n m q s1) else s1
      | .joinLow =>
        if c.joining.contains n.val && (fraction s n).join.any (fun j => assigned s n j == q) then
          winBlankOpen n (launch n 1 q (setFraction s n { fraction s n with low := some q }))
        else s
      | .joinEnd =>
        if c.joining.contains n.val && lowEnds s n q then
          winBlankOpen n (launch n 0 q (setCarrier s o
            { c with joining := c.joining.filter (· != n.val), lowDone := c.lowDone ++ [n.val] }))
        else s
      | .refreshLow =>
        if c.joined.contains n.val && wantsRefresh s n && (refreshAt s o n).any (fun j => assigned s n j == q) then
          winBlankOpen n (launch n 1 q (if obeyed s n then noteLow n q (s.inc (R.MOD_CNT_REFRESH o)) else s))
        else s
      | .refreshEnd =>
        if c.joined.contains n.val && lowEnds s n q then winBlankOpen n (launch n 2 q s) else s
    else s)

/-! ### Writes and alignment -/

/-- PER of every seam below a root reads the root's value (Table 5.6). -/
def spreadPer (r v : Nat) (s : State) : State :=
  forL seams (fun m a => if seamUsed a m && rootOf a m == r then a.put (R.MOD_CAR_PER m) v else a) s

/-- MOD_CAR.PER (R105). The bound is the PER loaded from the Pattern. -/
def writeModCar (n : Nat) (d : Word) (s : State) : State :=
  let v := bitsOf d 0 23
  let sync := s.get (R.MOD_CAR_SYNC n)
  let root := seamUsed s n && s.get (R.SEAM_DESC_PARENT n) == 0
  if n = 0 then s
  else if root && decide (tget (fun _ => 0) s.loadedPer n ≤ v) && decide (v ≤ 6400000) && sync != 3
      && (sync != 2 || v % 32 == 0) then
    spreadPer n v s
  else s.flag R.MOD_STAT_PERERR true

/-- MOD_PH.PHASE (R104, R105). -/
def writeModPh (n : Nat) (d : Word) (s : State) : State :=
  if n = 0 then s
  else if s.get (R.MOD_PH_SRC_CTX n) = 0 then rephase n (wantedPos s n) (s.put (R.MOD_PH_PHASE n) (bitsOf d 0 16))
  else s.flag R.MOD_STAT_PHERR true

/-- MOD_CAR_PER_WRITE (R105). -/
def execModCarPerWrite (n : Fin 64) (w : PortWrite) (s : State) : Host.Outcome State Fault Refusal :=
  .next (guarded w.port (R.MOD_CAR n) w.data (writeModCar n w.data) s)

/-- MOD_PH_WRITE (R105). -/
def execModPhWrite (n : Fin 64) (w : PortWrite) (s : State) : Host.Outcome State Fault Refusal :=
  .next (guarded w.port (R.MOD_PH n) w.data (writeModPh n w.data) s)

/-- The root that aligns to MOD_SYNC_IN, 0 if none (Table 5.2: at most one). -/
def syncInRoot (s : State) : Nat := ((roots s).find? (fun n => s.get (R.MOD_CAR_SYNC n) == 1)).getD 0

/-- The difference, in steps, of a carrier at step `q` of its period to the nearest instant at which it stands at PHASE
(R116). -/
def syncError (s : State) (n q : Nat) : Int :=
  wrapPhase (nominal s n) ((q : Int) - (s.get (R.MOD_PH_PHASE n) * nominal s n / 65536 : Nat))

/-- MOD_SYNC_IN_EDGE (R116): the carrier of the root that aligns to it stands at step `q` of its period. -/
def execModSyncInEdge (q : Nat) (s : State) : Host.Outcome State Fault Refusal :=
  .next (
    if domOn s 5 then
      let s1 := s.flag R.MOD_STAT_SYNCIN_SEEN true
      let r := syncInRoot s1
      if r ≠ 0 ∧ carriersRun s1 then judgeAlign r (syncError s1 r q) s1 else s1
    else s)

/-- SYNC_IN_TIMEOUT (R116): the root runs free from its present position and raises CLK. Log entry 38. -/
def execSyncInTimeout (s : State) : Host.Outcome State Fault Refusal :=
  .next (
    let r := syncInRoot s
    if r ≠ 0 ∧ carriersRun s then
      let s1 := (s.flag R.MOD_STAT_SYNCIN_SEEN false).flag (R.MOD_SST_SYNCOK r) false
      let s2 := (setCarrier s1 r { carrier s1 r with rem := 0, aligned := 0 }).flag (R.MOD_SST_SLEWING r) false
      occur kCLK (seamScope r) 0 s2
    else s)

end Sys2Proof.Machine
end

