-- ==== Sys2Proof/Machine/Seam.lean ====
section
/-!
DEFINITION. Host writes to the seam tree: SEAM_REF, SEAM_OFS and SEAM_CTL (R24, R25, R298).
-/
namespace Sys2Proof.Machine

/-- Block 00 holds no SEAM_REF, SEAM_OFS or SEAM_CTL (R18). SEAM_REF.REF takes a host write only at an unrouted root that is not REMOTE; else it is ignored (R24). -/
def writeSeamRef (n : Nat) (d : Word) (s : State) : State :=
  if n ≠ 0 ∧ s.on (R.SEAM_REF_ROOT n) ∧ s.get (R.SEAM_REF_SRC_CTX n) = 0 ∧ s.on (R.SEAM_DESC_REMOTE n) = false then
    s.put (R.SEAM_REF_REF n) (bitsOf d 0 16)
  else s

/-- SEAM_OFS.OFS takes a host write only where no context is routed to it (R24). -/
def writeSeamOfs (n : Nat) (d : Word) (s : State) : State :=
  if n ≠ 0 ∧ s.get (R.SEAM_OFS_SRC_CTX n) = 0 then s.put (R.SEAM_OFS_OFS n) (bitsOf d 0 16) else s

/-- Are writes of 1 to the enable of root `n` accepted in the present mode (Table 15.7)? -/
def rootEnableAccepted (s : State) (n : Nat) : Bool :=
  match mode s with
  | 2 => true | 6 => true | 7 => true | 8 => true
  | 9 => n != s.get R.GRD_CFG_ROOT
  | _ => false

/-- SEAM_CTL.EN: 1 at a root is discarded where Table 15.7 does not accept it (R298); 1 waits for the seam's next
period start, 0 acts at once (R25). -/
def writeSeamCtl (p n : Nat) (d : Word) (s : State) : State :=
  if n = 0 then s
  else if bitsOf d 0 1 = 1 then
    if s.on (R.SEAM_REF_ROOT n) && !rootEnableAccepted s n then discarded p (R.SEAM_CTL n) s
    else s.flag (R.SEAM_CTL_EN n) true
  else dropEnable n s

/-! ### Commands -/

/-- SEAM_REF_WRITE (R24). -/
def execSeamRefWrite (n : Fin 64) (w : PortWrite) (s : State) : Host.Outcome State Fault Refusal :=
  .next (guarded w.port (R.SEAM_REF n.val) w.data (writeSeamRef n.val w.data) s)

/-- SEAM_OFS_WRITE (R24). -/
def execSeamOfsWrite (n : Fin 64) (w : PortWrite) (s : State) : Host.Outcome State Fault Refusal :=
  .next (guarded w.port (R.SEAM_OFS n.val) w.data (writeSeamOfs n.val w.data) s)

/-- SEAM_EN_WRITE (R25, R298). -/
def execSeamEnWrite (n : Fin 64) (w : PortWrite) (s : State) : Host.Outcome State Fault Refusal :=
  .next (guarded w.port (R.SEAM_CTL n.val) w.data (writeSeamCtl w.port n.val w.data) s)

end Sys2Proof.Machine
end

