-- ==== Sys2Proof/Machine/Access.lean ====
section
/-!
DEFINITION. Access to registers through a port: what a word reads as (registers that show other state are formed here),
what a read does (R4, R32, R290, R335), and what a write of any address does, register by register.
-/
namespace Sys2Proof.Machine

/-! ### What a word reads as -/

/-- FLT_STAT (Table 13.12). -/
def fltStatWord (s : State) : Word :=
  let w := s.word R.FLT_STAT
  setBits (setBits (setBits (setBits w 0 24 (unclMap s)) 27 1 (bit (longestShadow s).isSome)) 28 3 (topTier s)) 31 1
    (bit (faultnLow s))

/-- FLT_DSTAT of the detector that FLT_CMDARG names (Table 13.13). -/
def fltDstatWord (s : State) : Word :=
  let d := detector s (s.get R.FLT_CMDARG_SCOPE)
  let left := if d.tier = 0 then 0 else d.occ + 10 * s.get (R.FLT_TIME_QPER d.gcls) - s.tick
  let ms := min 4095 (quant 52 left 10).toNat
  BitVec.ofNat 32 (bit (decide (1 ≤ d.tier)) * 2 ^ 31 + d.tier * 2 ^ 28 + bit d.latched * 2 ^ 27
    + (if d.tier = 0 then 0 else d.gcls) * 2 ^ 20 + min 15 d.rcnt * 2 ^ 16 + d.escn * 2 ^ 12 + ms)

/-- FLT_SHSTAT. -/
def fltShstatWord (s : State) : Word :=
  match longestShadow s with
  | some w => BitVec.ofNat 32 (w.cls * 2 ^ 16 + min 255 (w.close - s.tick))
  | none => 0

/-- ACQ_STAT (Table 8.6). -/
def acqStatWord (s : State) : Word :=
  BitVec.ofNat 32 (mapBits 4 0 (fun v => (conv s v).job.isSome) * 2 ^ 16 + mapBits 16 0 (fun q => seqRuns s q))

/-- A busy fraction over the last 1 ms, in 0.1 %, 0 in the first after it was cleared at cycle `since` (R169): the spec
states no way to compute it here (log entry 1). -/
def utilOf (site k since : Nat) (s : State) : Nat :=
  if s.cyc < since + cyclesPerMs then 0 else (Config.realFn site [k, s.cyc]).toNat % 1001

/-- MTR_STAT: TIMEINV and RUN (Table 11.9). -/
def mtrStatWord (s : State) : Word :=
  setBits (setBits (s.word R.MTR_STAT) 30 1 (bit (!s.on R.PWR_STAT_RTCVAL))) 27 1 (bit (s.on R.MTR_CTL_EN && domOn s 7))

/-- A word of the metering block: energies, interval registers, the ring. -/
def mtrWord (a : Nat) (s : State) : Word :=
  if a = R.MTR_STAT then mtrStatWord s
  else if 0x0A8000 ≤ a ∧ a < 0x0AA000 then ringWord s ((a - 0x0A8000) / 0x200) (a % 0x200 / 4)
  else if 0x0A1000 ≤ a ∧ a < 0x0A1400 then
    let c := (a - 0x0A1000) / 0x100
    let o := a % 0x100
    let q := o % 0x40 / 8
    if 0x80 ≤ o ∧ q < 7 then
      match o / 0x40, o % 8 with
      | 2, 0 => BitVec.ofNat 32 (longReg s c q)
      | 2, _ => BitVec.ofNat 32 (longReg s c q / 2 ^ 32)
      | _, 0 => BitVec.ofNat 32 (intReg s c q)
      | _, _ => s.word a
    else s.word a
  else s.word a

/-- A bit for each of the 32 mailboxes of controller `b`. -/
def mbMap (f : Nat → Nat → Field) (b : Nat) (s : State) : Word := BitVec.ofNat 32 (mapBits 32 0 (fun m => s.on (f b m)))

/-- A word of the host-port and CAN block. -/
def hstWord (a : Nat) (s : State) : Word :=
  if a = R.HST_ISRC then BitVec.ofNat 32 (isrc s)
  else if a = R.HST_WLAT then
    (if s.cyc < cyclesPerMs then 0 else BitVec.ofNat 32 ((Config.realFn 60 [s.cyc]).toNat % 65536))
  else if a = R.CAN_RXMAP 0 then mbMap R.MB_STAT_FULL 0 s
  else if a = R.CAN_RXMAP 1 then mbMap R.MB_STAT_FULL 1 s
  else if a = R.CAN_TXMAP 0 then mbMap R.MB_STAT_TXPEND 0 s
  else if a = R.CAN_TXMAP 1 then mbMap R.MB_STAT_TXPEND 1 s
  else if a = R.CAN_TS 0 ∨ a = R.CAN_TS 1 then BitVec.ofNat 32 (canTs s)
  else s.word a

/-- What the word at address `a` reads as (R18: 0 where there is no register). -/
def readWord (a : Nat) (s : State) : Word :=
  match a / 0x10000 with
  | 0x00 =>
    if a = R.SYS_CAPS0 then BitVec.ofNat 32 s.part.caps0
    else if a = R.SYS_CAPS1 then BitVec.ofNat 32 (caps1 s)
    else 0
  | 0x03 =>
    if 0x03F000 ≤ a ∧ a < 0x03F00C then BitVec.ofNat 32 (retMap s ((a - 0x03F000) / 4))
    else if 0x03F010 ≤ a ∧ a < 0x03F01C then BitVec.ofNat 32 (hizMap s ((a - 0x03F010) / 4))
    else s.word a
  | 0x05 =>
    if a = R.CTX_LOAD then setBits (s.word a) 16 10 (laneUtil s)
    else if 0x050004 ≤ a ∧ a < 0x05000C then BitVec.ofNat 32 (ctxMap R.CTX_STAT_LATE s ((a - 0x050004) / 4))
    else if 0x05000C ≤ a ∧ a < 0x050014 then BitVec.ofNat 32 (ctxMap R.CTX_STAT_PARKED s ((a - 0x05000C) / 4))
    else if 0x050014 ≤ a ∧ a < 0x05001C then BitVec.ofNat 32 (ctxMap R.CTX_STAT_FB s ((a - 0x050014) / 4))
    else s.word a
  | 0x07 =>
    if a = R.ACQ_STAT then acqStatWord s
    else if 0x070010 ≤ a ∧ a < 0x070020 then setBits (s.word a) 22 10 (utilOf 62 ((a - 0x070010) / 4) s.acq.utilAt s)
    else s.word a
  | 0x08 =>
    if 0x080000 ≤ a ∧ a < 0x080008 then BitVec.ofNat 32 (winLat s ((a - 0x080000) / 4))
    else if 0x080008 ≤ a ∧ a < 0x080010 then BitVec.ofNat 32 (winUns s ((a - 0x080008) / 4))
    else s.word a
  | 0x0A => mtrWord a s
  | 0x0B => if a = R.SAF_STAT then setBits (s.word a) 30 1 (bit (demandPresent s)) else s.word a
  | 0x0C =>
    if a = R.FLT_STAT then fltStatWord s
    else if a = R.FLT_DSTAT then fltDstatWord s
    else if a = R.FLT_SHSTAT then fltShstatWord s
    else if 0x0C0420 ≤ a ∧ a < 0x0C0720 ∧ a % 0x20 = 0 then
      setBits (s.word a) 30 1 (bit (classActs s ((a - 0x0C0400) / 0x20)))
    else s.word a
  | 0x0D =>
    if a < 0x0D0400 ∧ a % 0x40 = 0x28 then BitVec.ofNat 32 (ovlResult s ((a - 0x0D0000) / 0x40))
    else if a < 0x0D0400 ∧ a % 0x40 = 0x2C then BitVec.ofNat 32 (ovlResult s ((a - 0x0D0000) / 0x40) / 2 ^ 32)
    else s.word a
  | 0x0E => idnWord a s
  | 0x0F =>
    if a = R.PWR_RTC_LO then BitVec.ofNat 32 (rtcMs s)
    else if a = R.PWR_RTC_HI then BitVec.ofNat 32 (rtcMs s / 2 ^ 32)
    else s.word a
  | 0x18 => hstWord a s
  | 0x19 =>
    if a = R.FAB_TIME_LO then BitVec.ofNat 32 (fabTime s)
    else if a = R.FAB_TIME_HI then BitVec.ofNat 32 (fabTime s / 2 ^ 32)
    else s.word a
  | b => if 0x10 ≤ b ∧ b < 0x18 then windowWord s ((a - 0x100000) / 4) else s.word a

/-! ### SNAP groups (R32) -/

/-- The words that a read of `a` latches: the rest of its SNAP group; none where `a` heads no group. -/
def snapGroup (a : Nat) : List Nat :=
  let b := a / 0x10000
  let o := a % 0x10000
  if b = 0x02 then (if o % 0x40 = 0x2C ∧ 0x40 ≤ o ∧ o < 0x1000 then [a + 4] else [])
  else if b = 0x03 then (if o < 0x3000 ∧ o % 0x80 = 0x38 then [a + 4] else [])
  else if b = 0x0A then
    (if 0x1000 ≤ o ∧ o < 0x1400 ∧ 0x80 ≤ o % 0x100 ∧ o % 8 = 0 ∧ o % 0x40 / 8 < 7 then [a + 4] else [])
  else if b = 0x0B then (if 0x80 ≤ o ∧ o < 0x100 ∧ o % 0x20 = 0x10 then [a + 4] else [])
  else if b = 0x0C then (if 0x1000 ≤ o ∧ o < 0x2000 ∧ o % 0x10 = 0 then [a + 4, a + 8, a + 12] else [])
  else if b = 0x0D then (if o < 0x400 ∧ o % 0x40 = 0x28 then [a + 4] else [])
  else if a = R.PWR_RTC_LO ∨ a = R.FAB_AGREE ∨ a = R.FAB_TIME_LO then [a + 4]
  else []

/-- What a shadowed word returns: the latched word, but the W1C bit WRAP of MTR_IWRAP as it stands (R212). -/
def shadowed (a : Nat) (w : Word) (s : State) : Word :=
  if a / 0x10000 = 0x0A ∧ 0xC0 ≤ a % 0x100 then setBits (readWord a s) 0 8 w.toNat else w

/-- The SNAP run of a port. -/
def snapRun (s : State) (p : Nat) : Option SnapRun := tget (fun _ => none) s.host.snaps p
def setSnapRun (p : Nat) (r : Option SnapRun) (s : State) : State :=
  { s with host := { s.host with snaps := tset (fun _ => none) s.host.snaps p r } }

/-- A present read of port `p` at `a`: the shadow where a run of the port covers it, else the present value; a word
that heads a group starts a run (R32). -/
def snapRead (p a : Nat) (s : State) : State × Word :=
  let hit : Option (SnapRun × Word) := match snapRun s p with
    | some r => if r.last < a then (r.words.find? (fun (e : Nat × Word) => e.1 == a)).map (fun (e : Nat × Word) => (r, e.2)) else none
    | none => none
  match hit with
  | some (r, w) => (setSnapRun p (some { r with last := a }) s, shadowed a w s)
  | none =>
    let g := snapGroup a
    let run := if g = [] then none else some (SnapRun.mk (g.map (fun x => (x, readWord x s))) a)
    (setSnapRun p run s, readWord a s)

/-- Is `a` a mailbox's MB_STAT? Its controller and number. -/
def mbStatAt (a : Nat) : Option (Nat × Nat) :=
  (List.range 2).findSome? (fun b => (List.range 32).findSome? (fun m => if R.MB_STAT b m = a then some (b, m) else none))

/-- A read of MB_STAT locks its mailbox for the reading port, unless another port holds it (R335). Log entry 34. -/
def lockOnRead (p a : Nat) (s : State) : State :=
  if a / 0x10000 = 0x18 then
    match mbStatAt a with
    | some (b, m) => if (lockOf s b m).isSome then s else setLock b m (some p) s
    | none => s
  else s

/-- The error code that an access to `a` meets (Table 17.4). -/
def accessError (s : State) (a : Nat) : Option Nat :=
  if absent s a then some fABSENT else if !domOn s (domainOf a) then some fDOMOFF else none

/-- A read of one word through port `p` (R4, R290, R325): the state after it, the word, and the error it met. -/
def hostRead (p a : Nat) (s : State) : State × Word × Option Nat :=
  match accessError s a with
  | some e => (hostFlag (if e = fABSENT then R.HST_STAT_ABSENT else R.HST_STAT_DOMOFF) p a (endRun p s), 0, some e)
  | none =>
    let r := snapRead p a s
    (lockOnRead p a r.1, r.2, none)

/-! ### Writes, register by register -/

/-- A write in the seam block (R18: block 00 holds no writable register). -/
def writeSeam (p a : Nat) (d : Word) (s : State) : State :=
  let n := a % 0x10000 / 0x40
  if 0x021000 ≤ a then s
  else match a % 0x40 with
    | 0x20 => writeSeamCtl p n d s
    | 0x24 => writeSeamRef n d s
    | 0x28 => writeSeamOfs n d s
    | _ => if n = 0 then s else plainWrite a d s

/-- A write in the stitch block. -/
def writeSti (a : Nat) (d : Word) (s : State) : State :=
  let n := a % 0x10000 / 0x80
  if a = R.STI_UCMD then writeStiUcmd d s
  else if 0x033000 ≤ a then plainWrite a d s
  else match a % 0x80 with
    | 0x24 => writeStiAdctl n d s
    | 0x28 => writeStiStr n d s
    | 0x30 => writeStiCmd n d s
    | _ => plainWrite a d s

/-- A write in the modulator block. -/
def writeMod (a : Nat) (d : Word) (s : State) : State :=
  let n := (a - 0x041000) / 0x20
  if a < 0x041000 ∨ 0x041800 ≤ a then plainWrite a d s
  else match a % 0x20 with
    | 0x00 => writeModCar n d s
    | 0x04 => writeModPh n d s
    | _ => plainWrite a d s

/-- A write in the context block. -/
def writeCtx (a : Nat) (d : Word) (s : State) : State :=
  let c := a % 0x10000 / 0x100
  if c = 0 ∨ 0x054000 ≤ a then plainWrite a d s
  else match a % 0x100 with
    | 0x34 => writeCtxSp c d s
    | 0x3C => writeCtxCtl c d s
    | _ => plainWrite a d s

/-- A write in the pleat block. -/
def writePlt (a : Nat) (d : Word) (s : State) : State :=
  if a % 0x20 = 0x0C ∧ a < 0x060800 then writePltQf (a % 0x10000 / 0x20) d s else plainWrite a d s

/-- A write in the acquisition block. -/
def writeAcq (a : Nat) (d : Word) (s : State) : State :=
  if 0x070100 ≤ a ∧ a < 0x070200 ∧ a % 0x10 = 4 then writeSqctl ((a - 0x070100) / 0x10) d s
  else if 0x070200 ≤ a ∧ a < 0x070280 ∧ a % 0x10 = 4 then writeUgctl ((a - 0x070200) / 0x10) d s
  else plainWrite a d s

/-- A write in the window block. -/
def writeWin (a : Nat) (d : Word) (s : State) : State :=
  let w := (a - 0x081000) / 0x20
  if a < 0x081000 ∨ 0x081800 ≤ a then plainWrite a d s
  else match a % 0x20 with
    | 0x08 => writeWinThr w d s
    | 0x0C => writeWinCtl w d s
    | 0x10 => writeWinStat w d [] s
    | _ => plainWrite a d s

/-- A write in the metering block; the ring window takes none (R222). Log entry 13. -/
def writeMtr (p a : Nat) (d : Word) (s : State) : State :=
  if a = R.MTR_CTL then writeMtrCtl d s
  else if sealAddr a then (if (regAt a).isSome then writeSeal a d s else s)
  else if 0x0A8000 ≤ a ∧ a < 0x0AA000 then discarded p a s
  else plainWrite a d s

/-- A write in the fault-manager block; `met` as in R259. -/
def writeFlt (a : Nat) (d : Word) (met : Bool) (s : State) : State :=
  if a = R.FLT_CMD then writeFltCmd d s
  else if 0x0C0420 ≤ a ∧ a < 0x0C0720 ∧ a % 0x20 = 0 then writeCrstat ((a - 0x0C0400) / 0x20) d met s
  else plainWrite a d s

/-- A write in the host-port and CAN block. -/
def writeHst (p a : Nat) (d : Word) (s : State) : State :=
  if 0x184000 ≤ a ∧ a < 0x188000 then writeCan 0 (a - 0x184000) p a d s
  else if 0x188000 ≤ a ∧ a < 0x18C000 then writeCan 1 (a - 0x188000) p a d s
  else plainWrite a d s

/-- The effect of a word written to a present register of a domain that is on; `met`: the write falls in the cycle of
an occurrence or a due lift of the class (R259). -/
def writeEffect (p a : Nat) (d : Word) (met : Bool) (s : State) : State :=
  match a / 0x10000 with
  | 0x01 => if a = R.PAT_CTL then hostPatCtl d s else if a = R.PAT_STREAM then writePatStream p d s else plainWrite a d s
  | 0x02 => writeSeam p a d s
  | 0x03 => writeSti a d s
  | 0x04 => writeMod a d s
  | 0x05 => writeCtx a d s
  | 0x06 => writePlt a d s
  | 0x07 => writeAcq a d s
  | 0x08 => writeWin a d s
  | 0x09 => if a = R.GRD_STAT then writeGrdStat d s else plainWrite a d s
  | 0x0A => writeMtr p a d s
  | 0x0B => if a = R.SAF_CTL then writeSafCtl d s else if a = R.SAF_CTR then writeSafCtr p d s else plainWrite a d s
  | 0x0C => writeFlt a d met s
  | 0x0D => if a < 0x0D0400 then writeOvl ((a - 0x0D0000) / 0x40) p a d s else plainWrite a d s
  | 0x0E => if a = R.IDN_CMD then writeIdnCmd d s else plainWrite a d s
  | 0x0F => if a < 0x0F8000 then writePwr a d s else if a < 0x0F8024 then writeHrv a d s else s
  | 0x18 => writeHst p a d s
  | 0x19 => if a = R.FAB_RCTL then writeFabRctl d s else plainWrite a d s
  | b => if 0x10 ≤ b ∧ b < 0x18 then writeWindow p ((a - 0x100000) / 4) d s else plainWrite a d s

/-- A write of word `d` at `a` through port `p` takes effect. -/
def hostWrite (p a : Nat) (d : Word) (s : State) : State := guarded p a d (writeEffect p a d false) s

/-! ### A write that meets a hardware update (R328) -/

/-- The registers whose unit rule decides such a meeting (R22, R127, R178, R194, R237, R257, R259). -/
def ownMeeting (a : Nat) : Bool :=
  (a / 0x10000 == 0x02 && (a % 0x40 == 0x24 || a % 0x40 == 0x28))
  || (decide (0x041000 ≤ a) && decide (a < 0x041800) && a % 0x20 == 4)
  || (a / 0x10000 == 0x05 && a % 0x100 == 0x34)
  || (decide (0x081000 ≤ a) && decide (a < 0x081800) && (a % 0x20 == 0xC || a % 0x20 == 0x10))
  || a == R.GRD_STAT || a == R.SAF_CTR || a == R.FLT_CMD
  || (decide (0x0C0420 ≤ a) && decide (a < 0x0C0720) && a % 0x20 == 0)

/-- A word takes effect in the cycle in which the hardware updates the bits `hw` of its register: the host value stands
from the next cycle, a flag that the hardware sets stays set, and LATE sets, unless the unit decides otherwise. Log entry 9. -/
def meetWrite (p a : Nat) (d hw : Word) (s : State) : State :=
  let r := (regAt a).getD ⟨0, [], 0, 0, 0, 0, 0, 0, false⟩
  let w1c := BitVec.ofNat 32 r.w1c
  let rw := BitVec.ofNat 32 (r.rw ||| r.wo)
  let trip := decide (0x081000 ≤ a) && decide (a < 0x081800) && a % 0x20 == 0x10
  let d1 := if ownMeeting a && !trip then d else d &&& ~~~(hw &&& w1c)
  let w := (a - 0x081000) / 0x20
  let again := trip && tb d.toNat 31 && tb hw.toNat 31 && s.on (R.WIN_STAT_LATCHED w)
  let t0 := writeEffect p a d1 (decide (hw ≠ 0)) s
  let t := if again then newTrip w t0 else t0
  if ownMeeting a = false ∧ hw &&& (rw ||| (w1c &&& d)) ≠ 0 then hostFlag R.HST_STAT_LATE p a t else t

end Sys2Proof.Machine
end

