-- ==== Sys2Proof/Machine/Host.lean ====
section
/-!
DEFINITION. The host port (spec/17): its frames, the words of its queue, the reads that latch or lock, what a received
CAN frame does, and the CAN service.
-/
namespace Sys2Proof.Machine

/-! ### Frames (R321–R327) -/

/-- An error a frame met: its code and, once the address is complete, the failing address. -/
abbrev FrameError := Nat × Option Nat

/-- A frame ends (R327): what the module sent, and the error response with the first code met. -/
def frameEnd (errs : List FrameError) (words : List Word) (trailer : Option Nat) (s : State) : State :=
  let s1 := { s with host := { s.host with sent := words, trailer := trailer, after := 0 } }
  match errs with
  | [] => s1
  | (c, a) :: _ => errorResponse c (a.getD (s1.get R.HST_ERRADDR_ADDR)) s1

/-- The next address of a burst, on the 24-bit address space. -/
def burstAddr (a k : Nat) : Nat := (a + 4 * k) % 2 ^ 24

/-- A burst of `n` reads through port `p` from `a`: the state, the words, and the errors met (R5, R325). -/
def readBurst (p a n : Nat) (s : State) : State × List Word × List FrameError :=
  (List.range n).foldl (fun (x : State × List Word × List FrameError) k =>
    let r := hostRead p (burstAddr a k) x.1
    (r.1, x.2.1 ++ [r.2.1], match r.2.2 with
      | some e => x.2.2 ++ [(e, some (burstAddr a k))]
      | none => x.2.2)) (s, [], [])

/-- Zero words. -/
def zeroWords (n : Nat) : List Word := List.replicate n 0

/-- The bytes of words as the port sends them, most significant first. -/
def sentBytes (ws : List Word) : List Byte := ws.flatMap (fun w => beBytes 4 w.toNat)

/-- What a READ meets before its first word is sampled (R322, R324, R325). -/
def readRefusal (sent : List Byte) (s : State) : Option FrameError :=
  let a := beNat (sent.take 3)
  if s.on R.HST_CFG_CRCREQ then some (fCRCREQ, none)
  else if sent.length < 3 then some (fFRAME, none)
  else if a % 4 ≠ 0 then some (fFRAME, some a)
  else if portQueueEmpty s 0 then none
  else some (fORDER, some a)

/-- READ (R321, R322, R324, R325): `sent` are the bytes the host sent after the opcode, `out` the bytes it clocked out
after the dummy clocks. The word after the last one has been sampled too, 8 clocks ahead. Log entry 29. -/
def readFrame (sent : List Byte) (out : Nat) (s : State) : State :=
  let n := (out + 3) / 4
  match readRefusal sent s with
  | some e => frameEnd [e] (zeroWords n) none s
  | none =>
    let a := beNat (sent.take 3)
    let r := readBurst 0 a (min (1 + n) 256) s
    let errs := r.2.2 ++ (if 256 < n then [(fFRAME, some (burstAddr a 256))] else [])
    frameEnd errs ((r.2.1 ++ zeroWords (n - 256)).take n) none r.1

/-- What a READ_CRC meets before its first word is sampled (R322, R323, R325). -/
def readCrcRefusal (sent : List Byte) (s : State) : Option FrameError :=
  let a := beNat (sent.take 3)
  if sent.length < 3 then some (fFRAME, none)
  else if a % 4 ≠ 0 ∨ sent.length < 5 then some (fFRAME, some a)
  else if crc8 ((0x8B : Byte) :: sent.take 4) ≠ (sent.getD 4 0).toNat then some (fCRC, some a)
  else if portQueueEmpty s 0 then none
  else some (fORDER, some a)

/-- READ_CRC (R322, R323, R325, R327). Log entry 29. -/
def readCrcFrame (sent : List Byte) (out : Nat) (s : State) : State :=
  let a := beNat (sent.take 3)
  if sent.length < 5 then frameEnd ((readCrcRefusal sent s).toList) [] none s
  else
    let n := (sent.getD 3 0).toNat + 1
    let shown := min n ((out + 3) / 4)
    let whole := decide (4 * n + 1 ≤ out)
    let r : State × List Word × List FrameError := match readCrcRefusal sent s with
      | some e => (if e.1 = fCRC then hostFlag R.HST_STAT_CRCERR 0 a s else s, zeroWords n, [e])
      | none => readBurst 0 a (min n (1 + (out + 3) / 4)) s
    let ws := r.2.1.take shown
    let c := crc8 ((0x8B : Byte) :: (sent.take 4 ++ sentBytes ws))
    let tr := if whole then some (if r.2.2 = [] then c else 255 - c) else none
    let late : List FrameError := if out = 4 * n + 1 then [] else [(fFRAME, some a)]
    let t := frameEnd (r.2.2 ++ late) ws tr r.1
    { t with host := { t.host with after := out - (4 * n + 1) } }

/-- The words of a write frame's data bytes, most significant byte first. -/
def frameWords : Nat → List Byte → List Word
  | 0, _ => []
  | k + 1, bs => BitVec.ofNat 32 (beNat (bs.take 4)) :: frameWords k (bs.drop 4)

/-- A word enters the queue of port `p` (R326): the state, and the error the word meets. -/
def queueWord (p a : Nat) (d : Word) (s : State) : State × Option Nat :=
  if 1024 ≤ (s.host.queue.filter (fun w => w.port == p)).length then (discarded p a s, some fQFULL)
  else (syncQueue { s with host := { s.host with queue := s.host.queue ++ [⟨p, a, d⟩] } }, accessError s a)

/-- The words of a frame enter the queue of port 0, at one address or rising ones. -/
def queueWords (fixed : Bool) (a : Nat) (ws : List Word) (s : State) : State × List FrameError :=
  (List.zip (List.range ws.length) ws).foldl (fun (x : State × List FrameError) e =>
    let ad := if fixed then a else burstAddr a e.1
    let r := queueWord 0 ad e.2 x.1
    (r.1, match r.2 with
      | some c => x.2 ++ [(c, some ad)]
      | none => x.2)) (s, [])

/-- What a write frame meets at its address (R322). -/
def writeRefusal (sent : List Byte) : Option FrameError :=
  let a := beNat (sent.take 3)
  if sent.length < 3 then some (fFRAME, none) else if a % 4 ≠ 0 then some (fFRAME, some a) else none

/-- WRITE and WRITE_FIXED (R321, R322, R324, R326); `half`: the frame ended on one more nibble. -/
def writeFrame (fixed : Bool) (sent : List Byte) (half : Bool) (s : State) : State :=
  if s.on R.HST_CFG_CRCREQ then frameEnd [(fCRCREQ, none)] [] none s
  else match writeRefusal sent with
    | some e => frameEnd [e] [] none s
    | none =>
      let a := beNat (sent.take 3)
      let data := sent.drop 3
      let n := data.length / 4
      let r := queueWords fixed a (frameWords (min n 256) data) s
      let bad := decide (n = 0) || decide (data.length % 4 ≠ 0) || half || decide (256 < n)
      let at_ := if fixed then a else burstAddr a (min n 256)
      frameEnd (r.2 ++ (if bad then [(fFRAME, some at_)] else [])) [] none r.1

/-- WRITE_CRC and WRITE_FIXED_CRC (R322, R323): all words or none. -/
def writeCrcFrame (fixed : Bool) (op : Byte) (sent : List Byte) (half : Bool) (s : State) : State :=
  match writeRefusal sent with
  | some e => frameEnd [e] [] none s
  | none =>
    let a := beNat (sent.take 3)
    let n := (sent.length - 4) / 4
    if sent.length ≠ 4 + 4 * n ∨ n = 0 ∨ 256 < n ∨ half = true then frameEnd [(fFRAME, some a)] [] none s
    else if crc8 (op :: sent.dropLast) ≠ (sent.getLastD 0).toNat then
      frameEnd [(fCRC, some a)] [] none (hostFlag R.HST_STAT_CRCERR 0 a s)
    else
      let r := queueWords fixed a (frameWords n (sent.drop 3)) s
      frameEnd r.2 [] none r.1

/-- The host port answers only while PD2 is on (R290). -/
def onPort (s t : State) : Host.Outcome State Fault Refusal := .next (if domOn s 2 then t else s)

/-- READ (R325). -/
def execRead (sent : List Byte) (out : Nat) (s : State) : Host.Outcome State Fault Refusal := onPort s (readFrame sent out s)

/-- READ_CRC (R323). -/
def execReadCrc (sent : List Byte) (out : Nat) (s : State) : Host.Outcome State Fault Refusal :=
  onPort s (readCrcFrame sent out s)

/-- WRITE (R326). -/
def execWrite (sent : List Byte) (half : Bool) (s : State) : Host.Outcome State Fault Refusal :=
  onPort s (writeFrame false sent half s)

/-- WRITE_CRC (R323). -/
def execWriteCrc (sent : List Byte) (half : Bool) (s : State) : Host.Outcome State Fault Refusal :=
  onPort s (writeCrcFrame false 0x82 sent half s)

/-- WRITE_FIXED (R321). -/
def execWriteFixed (sent : List Byte) (half : Bool) (s : State) : Host.Outcome State Fault Refusal :=
  onPort s (writeFrame true sent half s)

/-- WRITE_FIXED_CRC (R323). -/
def execWriteFixedCrc (sent : List Byte) (half : Bool) (s : State) : Host.Outcome State Fault Refusal :=
  onPort s (writeCrcFrame true 0x86 sent half s)

/-- The STATUS frame (R321, R324): the word as it stands at the opcode. A run of reads of port 0 that latched a shadow (R32) goes
on behind it (DESIGN CHOICE, log entry 31). -/
def statusFrame (s : State) : State :=
  frameEnd (if s.on R.HST_CFG_CRCREQ then [(fCRCREQ, none)] else []) [s.word R.HST_STAT] none s

/-- The STATUS_CRC frame (R323). -/
def statusCrcFrame (s : State) : State :=
  let w := s.word R.HST_STAT
  frameEnd [] [w] (some (crc8 ((0x85 : Byte) :: sentBytes [w]))) s

/-- A frame is what its opcode says, bit 7 picking the CRC form (R321, Table 17.2); an opcode that is not listed ends with OPCODE,
whatever follows it. Log entry 32. -/
def wholeFrame (f : HostFrame) (s : State) : State :=
  match f.op.toNat with
  | 0x02 => writeFrame false f.sent f.half s
  | 0x82 => writeCrcFrame false 0x82 f.sent f.half s
  | 0x06 => writeFrame true f.sent f.half s
  | 0x86 => writeCrcFrame true 0x86 f.sent f.half s
  | 0x0B => readFrame f.sent f.out s
  | 0x8B => readCrcFrame f.sent f.out s
  | 0x05 => statusFrame s
  | 0x85 => statusCrcFrame s
  | _ => frameEnd [(fOPCODE, none)] [] none s

/-- STATUS (R321, R324): the frame of opcode 0x05, among those that an opcode picks; `none` where CS_N rises before the opcode is
complete (R322). -/
def execStatus (op : Option HostFrame) (s : State) : Host.Outcome State Fault Refusal :=
  onPort s (match op with
    | some f => wholeFrame f s
    | none => frameEnd [(fFRAME, none)] [] none s)

/-- STATUS_CRC (R323). -/
def execStatusCrc (s : State) : Host.Outcome State Fault Refusal := onPort s (statusCrcFrame s)

/-! ### The queue -/

/-- The oldest word of each port's queue, by port number. -/
def portFronts (s : State) : List HostWord := (List.range 8).filterMap (fun p => s.host.queue.find? (fun x => x.port == p))

/-- The queued word that takes effect next: the oldest, or that of a lower port at the same register (R320). -/
def nextWord (s : State) : Option HostWord :=
  s.host.queue.head?.map (fun w => ((portFronts s).find? (fun x => x.addr == w.addr)).getD w)

/-- A queued word takes effect (R320, R326). -/
def performOldest (s : State) : State :=
  match nextWord s with
  | none => s
  | some w =>
    let t := hostWrite w.port w.addr w.data s
    settleWrites (if t.host.queue.length = s.host.queue.length then takeWord w.port w.addr w.data t else t)

/-- What the block does by itself with no command waiting: the oldest queued word takes effect, and an engine cycle of
2.5 ns passes (log entry 5). -/
def idleCycle (s : State) : State := pass (performOldest s) 1

/-- HOST_REGISTER_WRITE (R326, R328): `hw` are the bits of the register that the hardware updates in the same cycle. Log entry 46. -/
def execHostRegisterWrite (addr : BitVec 24) (w : PortWrite) (hw : Word) (s : State) : Host.Outcome State Fault Refusal :=
  .next (guarded w.port addr.toNat w.data (meetWrite w.port addr.toNat w.data hw) s)

/-! ### Reads that latch or lock (R32, R335) -/

/-- One word read through a port: what it returns is what the module sent. -/
def portRead (p a : Nat) (s : State) : State :=
  if portReads s p then
    let r := hostRead p a s
    { r.1 with host := { r.1.host with sent := [r.2.1], trailer := none, after := 0 } }
  else s

/-- SEAM_STATE_READ (R32). -/
def execSeamStateRead (n : Fin 64) (port : Nat) (s : State) : Host.Outcome State Fault Refusal :=
  .next (portRead port (R.SEAM_STATE n) s)

/-- STI_TEL0_READ (R88). -/
def execStiTel0Read (n : Fin 96) (port : Nat) (s : State) : Host.Outcome State Fault Refusal :=
  .next (portRead port (R.STI_TEL0 n) s)

/-- MTR_LONG_LO_READ (R211). -/
def execMtrLongLoRead (ch : Fin 4) (q : Fin 7) (port : Nat) (s : State) : Host.Outcome State Fault Refusal :=
  .next (portRead port (R.MTR_LONG_LO ch q) s)

/-- MTR_INT_READ (R212). -/
def execMtrIntRead (ch : Fin 4) (q : Fin 7) (port : Nat) (s : State) : Host.Outcome State Fault Refusal :=
  .next (portRead port (R.MTR_INT ch q) s)

/-- FLT_LOG_READ (R265). -/
def execFltLogRead (k : Fin 256) (port : Nat) (s : State) : Host.Outcome State Fault Refusal :=
  .next (portRead port (R.FLT_LOG k 0) s)

/-- OVL_RES_LO_READ (R273). -/
def execOvlResLoRead (u : Fin 16) (port : Nat) (s : State) : Host.Outcome State Fault Refusal :=
  .next (portRead port (R.OVL_RES_LO u) s)

/-- RTC_READ (R294). -/
def execRtcRead (port : Nat) (s : State) : Host.Outcome State Fault Refusal := .next (portRead port R.PWR_RTC_LO s)

/-- MB_STAT_READ (R335). -/
def execMbStatRead (b : Fin 2) (m : Fin 32) (port : Nat) (s : State) : Host.Outcome State Fault Refusal :=
  .next (portRead port (R.MB_STAT b m) s)

/-- FAB_AGREE_READ (R354). -/
def execFabAgreeRead (port : Nat) (s : State) : Host.Outcome State Fault Refusal := .next (portRead port R.FAB_AGREE s)

/-! ### The CAN service (R338) -/

/-- A byte string padded with zeros to the next FD length. -/
def fdPad (bs : List Byte) : List Byte :=
  let l := ([8, 12, 16, 20, 24, 32, 48, 64].find? (fun n => decide (bs.length ≤ n))).getD 64
  bs ++ List.replicate (l - bs.length) 0

/-- The STATUS of a service request: 0 OK, 1 NOT_SUPPORTED, 2 DOMOFF, 3 BADREQ. -/
def svcStatus (fdf : Bool) (bs : List Byte) (s : State) : Nat :=
  let a := leNat (slice bs 2 3)
  let n := (bs.getD 5 0).toNat
  let errs := (List.range n).map (fun k => accessError s (burstAddr a k))
  if !fdf || decide (bs.length < 8) || decide ((bs.getD 0 0).toNat ≠ 1) || decide (n = 0 ∨ 14 < n) || decide (a % 4 ≠ 0) then 3
  else if errs.contains (some fABSENT) then 1
  else if errs.contains (some fDOMOFF) then 2
  else 0

/-- A service request on controller `b`: counted, performed as port 3, and its response waits; dropped while a response
waits to be sent. Log entry 35. -/
def svcRequest (b : Nat) (fdf : Bool) (bytes : List Byte) (s : State) : State :=
  let s1 := s.inc (R.CAN_CNT_SVC b)
  if (canBus s1 b).service.isSome then s1
  else
    let bs := bytes ++ List.replicate (8 - bytes.length) (0 : Byte)
    let st := svcStatus fdf bytes s1
    let a := leNat (slice bs 2 3)
    let r := if st = 0 then readBurst 3 a (bs.getD 5 0).toNat s1 else (s1, [], [])
    let head := leBytes 1 st ++ slice bs 1 5 ++ [0, 0]
    setCanBus r.1 b { canBus r.1 b with service := some (fdPad (head ++ r.2.1.flatMap (fun w => leBytes 4 w.toNat))) }

/-- CAN_SVC_REQUEST (R338): an FD frame, as any other, needs FDEN. -/
def execCanSvcRequest (b : Fin 2) (fdf : Bool) (bytes : List Byte) (s : State) : Host.Outcome State Fault Refusal :=
  .next (if canRuns s b && s.on (R.CAN_SVC_EN b) && (!fdf || s.on (R.CAN_CFG_FDEN b)) then svcRequest b fdf bytes s else s)

/-! ### A received CAN frame (R331, R333) -/

/-- Does a frame carry the identifier of the service? -/
def isService (s : State) (b : Nat) (f : CanFrame) : Bool :=
  s.on (R.CAN_SVC_EN b) && s.on (R.CAN_SVC_XID b) == f.xid && s.get (R.CAN_SVC_ID b) == f.id.toNat

/-- The frame is offered to the hem, the service and the mailboxes, in this order; a remote frame counts as ignored. -/
def offerFrame (b : Nat) (f : CanFrame) (s : State) : State :=
  if f.remote then setCanBus s b { canBus s b with ignored := (canBus s b).ignored + 1 }
  else
    let bs := f.bytes.take (dlcBytes f.fdf f.dlc.toNat)
    match (if domOn s 1 then hemStream s f.xid f.id.toNat else none) with
    | some k => hemFrame k b bs (s.inc (R.CAN_CNT_HEMRX b))
    | none => if isService s b f then svcRequest b f.fdf bs s else offerMailboxes b f s

/-- CAN_FRAME_RX (R331, R333): the receive error counter after it comes with the frame. A frame with an error, and an FD
frame while FDEN is 0, is offered to nothing. A controller that was to leave its bus leaves behind the frame (R332). Log entry
30. -/
def execCanFrameRx (b : Fin 2) (f : CanFrame) (s : State) : Host.Outcome State Fault Refusal :=
  .next (if (canRuns s b || (canBus s b).leaving) && s.get (R.CAN_STAT_STATE b) != 2 then
      let s0 := setCanBus s b { canBus s b with foreign := false }
      let s1 := errorState b (s0.put (R.CAN_STAT_REC b) f.errs.toNat)
      let s2 := if f.good && (!f.fdf || s.on (R.CAN_CFG_FDEN b)) then offerFrame b f s1 else s1
      if (canBus s b).job.isSome then s2 else canIdle b s2
    else s)

end Sys2Proof.Machine
end

