-- ==== Sys2Proof/Machine/FabricRx.lean ====
section
/-!
DEFINITION. What a received fabric frame does (spec/18): acknowledgement and order on the lane, joining, roles, routing,
agreement, LINK exchanges, remote access and attestation.
-/
namespace Sys2Proof.Machine

/-! ### Answers -/

/-- The reasons of a NACK (Table 18.2). -/
def nkSTALE := 1
def nkNOROUTE := 2
def nkNOTSUP := 3
def nkNOSEAM := 4
def nkDENIED := 5

/-- A NACK answers frame `m`, at the epoch the frame was sent in. -/
def sendNack (reason : Nat) (m : FabMsg) (s : State) : State :=
  if m.f.src = 0 then s
  else sendRouted 0x1F m.f.src m.f.sepoch 0
    (leBytes 1 reason ++ leBytes 1 m.ty ++ leBytes 2 m.f.seq ++ leBytes 2 (s.get R.FAB_STAT_EPOCH)) s

/-- A number of the payload: `n` bytes from byte `o`, least significant first. -/
def FabMsg.num (m : FabMsg) (o n : Nat) : Nat := leNat (slice m.f.payload o n)

/-! ### Link-local frames (R343, R345, R346, R348) -/

/-- The neighbour's role and epoch, as its link-local frames give them (Table 18.13). -/
def notePeer (p : Nat) (m : FabMsg) (s : State) : State :=
  (s.put (R.FAB_PSTAT_PEER p) m.f.src).put (R.FAB_PSTAT_PEPOCH p) m.f.sepoch

/-- What a port in HELLO keeps of a frame of the hello set or of the report. -/
def helloKeep (m : FabMsg) (x : PortSt) : PortSt :=
  match m.ty with
  | 0x01 => { x with fpr := some (padPayload m.f.payload) }
  | 0x02 => { x with dig := some (padPayload m.f.payload) }
  | 0x03 => if x.certOk then x else { x with cert := x.cert ++ padPayload m.f.payload }
  | 0x04 => { x with far := some (padPayload m.f.payload) }
  | 0x05 => if x.repOk then x else { x with report := x.report ++ padPayload m.f.payload }
  | _ => x

/-- The role that the module's own table gives the neighbour on port `p` (R345); 0 with none. -/
def givenRole (s : State) (p : Nat) : Nat :=
  let byFpr := roles.find? (fun r => s.get (R.FAB_ROLE_BIND r) == 1 && some (roleFpr s r) == (fabPort s p).fpr)
  let byPath := roles.find? (fun r => s.get (R.FAB_ROLE_BIND r) == 2 && ownRole s != 0
    && s.get (R.FAB_ROLE_ANCHOR r) == ownRole s && s.get (R.FAB_ROLE_PORT r) == p)
  (byFpr.orElse (fun _ => byPath)).getD 0

/-- The epoch a binding of role `r` grants (R346). -/
def grantedEpoch (s : State) (r : Nat) : Nat := if knownEpoch s r = 65535 then 1 else knownEpoch s r + 1

/-- BIND: the neighbour's claim is accepted or refused. -/
def takeBind (p : Nat) (m : FabMsg) (s : State) : State :=
  let r := m.num 0 1
  if r ≠ 0 ∧ givenRole s p = r ∧ r ≠ ownRole s ∧ metricTo s r = 0xFF then
    let e := grantedEpoch s r
    let s1 := ((s.put (R.FAB_PEER_EPOCH r) e).put (R.FAB_PSTAT_PEER p) r).put (R.FAB_PSTAT_PEPOCH p) e
    sendLocal p 0x07 0 ([1, 0] ++ leBytes 2 e) s1
  else sendLocal p 0x07 0 [0, 0, 0, 0] s

/-- BACK: the module's own claim was accepted, with its epoch, or refused. -/
def takeBack (p : Nat) (m : FabMsg) (s : State) : State :=
  match s.fab.claim with
  | some (q, r) =>
    if q ≠ p then s
    else
      let s1 := { s with fab := { s.fab with claim := none } }
      if m.num 0 1 = 1 then
        let e := m.num 2 2
        let s2 := (((s1.flag R.FAB_STAT_BOUND true).put R.FAB_STAT_ROLE r).put R.FAB_STAT_EPOCH e).put (R.FAB_PEER_EPOCH r) e
        sendRoutes (syncRoutes s2)
      else s1.put (R.FAB_PSTAT_AERR p) 8
  | none => s

/-- A link-local frame on port `p`. -/
def takeLocal (p : Nat) (m : FabMsg) (s : State) : State :=
  let s1 := notePeer p m s
  if m.ty ≤ 0x05 then
    (if portState s1 p = pHELLO then joinStep p (setFabPort s1 p (helloKeep m (fabPort s1 p))) else s1)
  else if !portUp s1 p then s1
  else claimRole (match m.ty with
    | 0x06 => takeBind p m s1
    | 0x07 => takeBack p m s1
    | _ => syncRoutes (setFabPort s1 p { fabPort s1 p with route := some (s1.cyc, m.f.payload.map (·.toNat)) }))

/-! ### Delivery at the holder of DST (R347, R349) -/

/-- The judgement of R349 on a frame: none (discard), or the counts it adds to LATEDROP and GAPCNT and whether it is
delivered. Log entry 39. -/
def judgeSeq (s : State) (m : FabMsg) : Nat × Nat × Bool :=
  match s.fab.got.find? (fun e => e.1 == m.f.src) with
  | none => (0, if m.f.seq = 1 then 0 else 1, true)
  | some (_, ep, n) =>
    let d := (m.f.sepoch + 65536 - ep % 65536) % 65536
    let k := (m.f.seq + 65536 - n % 65536) % 65536
    if 32768 ≤ d then (0, 0, false)
    else if 0 < d then (0, if m.f.seq = 1 then 0 else 1, true)
    else if k = 0 ∨ 32768 ≤ k then (1, 0, false)
    else (0, if k = 1 then 0 else 1, true)

/-- The last SEPOCH and SEQ delivered from a frame's source. -/
def noteSeq (m : FabMsg) (s : State) : State :=
  { s with fab := { s.fab with got := tins m.f.src (m.f.sepoch, m.f.seq) s.fab.got } }

/-- DIGEST (R346, R353). -/
def takeDigest (m : FabMsg) (s : State) : State :=
  syncAgree { s with fab := { s.fab with
    digests := tset (fun _ => none) s.fab.digests m.f.src (some (padPayload m.f.payload)) } }

/-- t_lnk, in 1/32 ns (Table 5.1). -/
def linkLead : Int := 64000

/-- LINKREF (R119, R356, R357): the reference waits for the REMOTE root's first update instant at least t_lnk after its send
instant; one that comes after that update instant is discarded whole. Log entry 36. -/
def takeLinkref (m : FabMsg) (s : State) : State :=
  let n := m.num 0 1
  let who := (m.f.src, m.num 1 1)
  if n = 0 ∨ 64 ≤ n ∨ seamUsed s n = false ∨ s.on (R.SEAM_DESC_REMOTE n) = false then sendNack nkNOSEAM m s
  else if !effEnabled s n then s
  else
    let x := remoteX s n
    if x.owner.isSome ∧ x.owner ≠ some who then sendNack nkDENIED m s
    else
      let s1 := setRemoteX s n { x with owner := some who }
      let due := m.sent + linkLead
      if x.last.any (fun u => decide (due ≤ u)) then s1
      else if m.num 4 4 ≠ s.get (R.MOD_CAR_PER n) then remoteMissed n s1
      else setRemoteX s1 n { remoteX s1 n with wait := x.wait ++ [⟨m.num 2 2, m.num 16 2, due⟩], start := some (m.num 8 8) }

/-- LINKST (R30, R356, R357): an exchange is complete, and the LINK takes the remote seam's state and capacity; OUT, PERIOD and
LINKSTALE are its own. Log entry 36. -/
def takeLinkst (m : FabMsg) (s : State) : State :=
  let n := m.num 1 1
  let k := m.num 2 2
  if n = 0 ∨ 64 ≤ n ∨ seamType s n ≠ tLINK ∨ s.get (R.SEAM_LINK_ROLE n) ≠ m.f.src ∨ s.get (R.SEAM_LINK_RSEAM n) ≠ m.num 0 1
  then s
  else
    let st : Word := BitVec.ofNat 32 (m.num 4 4)
    let cp : Word := BitVec.ofNat 32 (m.num 8 4)
    let put (k : Nat) (w : Word) (l : List (Nat × Word)) : List (Nat × Word) := tset (fun _ => (0 : Word)) l k w
    let s0 := { s with linkCaps := put (128 + n) 1 (put (64 + n) st (put n cp s.linkCaps)) }
    let s1 := (((s0.flag (R.SEAM_STATE_HELD n) (linkHeld s0 n || heldHere s n)).flag (R.SEAM_STATE_EN_EFF n)
      (shownEnable s0 n)).flag (R.SEAM_STATE_REWOVE n) (tb st.toNat 29)).flag (R.SEAM_STATE_SAT n) (tb st.toNat 28)
    let s2 := refreshCaps ((s1.put (R.SEAM_CAP_INS n) (bitsOf cp 17 5)).put (R.SEAM_CAP_FRAC n) (bitsOf cp 16 1))
    let x := linkX s2 n
    if x.sent.contains k then
      (setLinkX s2 n { x with sent := x.sent.filter (· != k), ep := false }).flag (R.SEAM_STATE_LINKSTALE n) false
    else s2

/-- The STATUS that the words of a remote request meet. -/
def remoteStatus (s : State) (a n : Nat) : Nat :=
  let errs := (List.range n).map (fun k => accessError s (burstAddr a k))
  if errs.contains (some fABSENT) then 1 else if errs.contains (some fDOMOFF) then 2 else 0

/-- Does the FAB_ROLE of the requesting role give it a right (R358)? -/
def grants (f : Nat → Field) (s : State) (r : Nat) : Bool := decide (1 ≤ r) && decide (r ≤ 32) && s.on (f r)

/-- RREQ (R358): performed as port 2. Log entry 35. -/
def takeRreq (m : FabMsg) (s : State) : State :=
  let op := m.num 0 1
  let a := m.num 2 3
  let n := m.num 5 1
  let head := slice m.f.payload 1 5
  let reply (st : Nat) (ws : List Word) (t : State) : State := sendRrsp m.f.src m.f.sepoch st head ws t
  if (op ≠ 1 ∧ op ≠ 2) ∨ n = 0 ∨ 6 < n ∨ a % 4 ≠ 0 then reply 3 [] s
  else if (op = 1 ∧ grants R.FAB_ROLE_RD s m.f.src = false) ∨ (op = 2 ∧ grants R.FAB_ROLE_WR s m.f.src = false) then reply 4 [] s
  else
    let st := remoteStatus s a n
    if op = 1 then
      let r := readBurst 2 a n s
      reply st (if st = 0 then r.2.1 else []) r.1
    else
      let q (t : State) : Nat := (t.host.queue.filter (fun w => w.port == 2)).length
      let s1 := forN n (fun k t => (queueWord 2 (burstAddr a k) (BitVec.ofNat 32 (m.num (8 + 4 * k) 4)) t).1) s
      settleWrites { s1 with fab := { s1.fab with writes := s1.fab.writes ++ [⟨m.f.src, m.f.sepoch, head, q s1 - q s, st⟩] } }

/-- RRSP (R359): the pending request ends; a read's words are stored. -/
def takeRrsp (m : FabMsg) (s : State) : State :=
  match s.fab.req with
  | some q =>
    if q.ty = 0x13 ∧ q.dst = m.f.src ∧ q.tag = m.num 1 1 then
      let s1 := if m.num 0 1 = 0 then
          forN q.n (fun k t => t.setWord (R.FAB_RDATA k) (BitVec.ofNat 32 (m.num (8 + 4 * k) 4))) s
        else s
      endRequest (m.num 0 1) s1
    else s
  | none => s

/-- ATTREQ (R280, R359): the report over the nonce is queued for its signature, or refused. -/
def takeAttreq (m : FabMsg) (s : State) : State :=
  if signerOk s then addSign (.remote m.f.src m.f.sepoch (reportBody (padPayload m.f.payload) true s)) s
  else sendNack nkDENIED m s

/-- ATTRSP (R359): the window changes as a whole when the last chunk arrives. -/
def takeAttrsp (m : FabMsg) (s : State) : State :=
  match s.fab.req with
  | some q =>
    if q.ty = 0x15 ∧ q.dst = m.f.src ∧ m.f.chunk * 32 = s.fab.chunks.length then
      let bs := s.fab.chunks ++ padPayload m.f.payload
      if bs.length < 192 then { s with fab := { s.fab with chunks := bs } }
      else endRequest 0 (putWindow (R.FAB_REPORT 0) bs s)
    else s
  | none => s

/-- NACK (R347, R359): STALE marks the peer; the pending request that it refuses ends. -/
def takeNack (m : FabMsg) (s : State) : State :=
  let why := m.num 0 1
  let s1 := if why = nkSTALE ∧ 1 ≤ m.f.src ∧ m.f.src ≤ 32 then
      (s.flag (R.FAB_PEER_STALE m.f.src) true).flag R.FAB_IRQ_STALE true
    else s
  match s1.fab.req with
  | some q =>
    if q.ty = m.num 1 1 ∧ q.seq = m.num 2 2 then
      (if why = nkSTALE ∧ q.dst = m.f.src then endRequest 5 s1
       else if why = nkNOROUTE then endRequest 6 s1
       else if why = nkNOTSUP ∧ q.dst = m.f.src then endRequest 1 s1
       else if why = nkDENIED ∧ q.dst = m.f.src then endRequest 4 s1
       else s1)
    else s1
  | none => s1

/-- A frame is delivered to its unit. -/
def deliver (m : FabMsg) (s : State) : State :=
  match m.ty with
  | 0x10 => takeDigest m s
  | 0x11 => takeLinkref m s
  | 0x12 => takeLinkst m s
  | 0x13 => takeRreq m s
  | 0x14 => takeRrsp m s
  | 0x15 => takeAttreq m s
  | 0x16 => takeAttrsp m s
  | 0x1F => takeNack m s
  | _ => s

/-- A routed frame at the holder of DST: its epoch, then its order, then its delivery; a
DIGEST makes its sender's epoch known, one from an epoch that is past apart. Log entry 51. -/
def atHolder (m : FabMsg) (s : State) : State :=
  let old := judgeSeq s m == (0, 0, false)
  let s0 := if m.ty = 0x10 ∧ 1 ≤ m.f.src ∧ m.f.src ≤ 32 ∧ old = false then s.put (R.FAB_PEER_EPOCH m.f.src) m.f.sepoch else s
  if m.f.depoch ≠ s.get R.FAB_STAT_EPOCH then sendNack nkSTALE m (s0.inc R.FAB_CNT_STALECNT)
  else
    let j := judgeSeq s0 m
    let s1 := (s0.put R.FAB_CNT_LATEDROP (s0.get R.FAB_CNT_LATEDROP + j.1)).put R.FAB_CNT_GAPCNT
      (s0.get R.FAB_CNT_GAPCNT + j.2.1)
    if j.2.2 then deliver m (noteSeq m s1) else s1

/-- A routed frame in transit: one hop less to live, then the next port, or NOROUTE (R348, Table 18.1). -/
def forward (p : Nat) (m : FabMsg) (s : State) : State :=
  let t := m.f.ttl - 1
  if t = 0 then s.inc (R.FAB_PCNT_DROP p)
  else if reachable s m.f.dst then enqueue (s.get (R.FAB_PEER_PORT m.f.dst)) p { m with f := { m.f with ttl := t } } s
  else sendNack nkNOROUTE m s

/-- Is TYPE one of Table 18.2? -/
def listedType (ty : Nat) : Bool :=
  (decide (1 ≤ ty) && decide (ty ≤ 8)) || (decide (0x10 ≤ ty) && decide (ty ≤ 0x16)) || ty == 0x1F

/-- A frame that the lane of port `p` brought in order. -/
def takeFrame (p : Nat) (m : FabMsg) (s : State) : State :=
  if !listedType m.ty then sendNack nkNOTSUP m s
  else if m.ty ≤ 0x08 then takeLocal p m s
  else if !portUp s p then s
  else if m.f.dst ≠ 0 ∧ m.f.dst = ownRole s then atHolder m s
  else forward p m s

/-! ### The lane (R342, R350) -/

/-- The frames that wait at input `p` are taken, while no full queue holds the input back. -/
def drainPort (p : Nat) (s : State) : State :=
  forN (fabPort s p).inbox.length (fun _ a =>
    match (fabPort a p).inbox with
    | [] => a
    | m :: t => if inputHeld a p then a else takeFrame p m (setFabPort a p { fabPort a p with inbox := t })) s

/-- A good frame on port `p`: acknowledged, and taken when its LSEQ is the one expected, else discarded (R342). -/
def receive (p : Nat) (m : FabMsg) (s : State) : State :=
  if portTalks s p then
    let x := { fabPort s p with ack := some (m.f.lseq % 256) }
    if m.f.lseq % 256 ≠ x.rxNext then setFabPort s p x
    else drainPort p (setFabPort s p { x with rxNext := (x.rxNext + 1) % 256, inbox := x.inbox ++ [m] })
  else s

/-- The frames that wait at every input are taken. -/
def drainAll (s : State) : State := forL (fabPorts s) drainPort s

/-- An ACK ordered set: the frame with its LSEQ is acknowledged, and the lane goes on. A receiver acknowledges frames that it
discards for a lost one before them, so a frame is kept, to be resent with it, until every earlier one is acknowledged. -/
def acknowledge (p lseq : Nat) (s : State) : State :=
  let x := fabPort s p
  let out := x.out.map (fun m => if m.f.lseq = lseq then { m with acked := true } else m)
  drainAll (setFabPort s p (pump (fabricUnit s) 8 (release { x with out := out.dropWhile (·.acked) })))

/-! ### Commands -/

/-- FAB_ACK (R342). -/
def execFabAck (p : Fin 4) (lseq : BitVec 8) (s : State) : Host.Outcome State Fault Refusal :=
  .next (if portTalks s p then acknowledge p lseq.toNat s else s)

/-- FAB_SYMBOL_LOSS (R344). -/
def execFabSymbolLoss (p : Fin 4) (s : State) : Host.Outcome State Fault Refusal :=
  .next (if portUp s p then drainAll (portsDown [p.val] s) else s)

/-- FAB_RESEND_TIMEOUT (R342): the frames are resent from the oldest; the port goes DOWN where that one was resent 4 times. -/
def execFabResendTimeout (p : Fin 4) (s : State) : Host.Outcome State Fault Refusal :=
  .next (
    let x := fabPort s p
    if portTalks s p && x.out != [] then
      if x.out.any (fun m => decide (4 ≤ m.tries) && !m.acked) then drainAll (portsDown [p.val] s)
      else (setFabPort s p { x with out := x.out.map (fun m => { m with tries := m.tries + 1, acked := false }) }).put
        (R.FAB_PCNT_RESEND p) (s.get (R.FAB_PCNT_RESEND p) + x.out.length)
    else s)

/-- HELLO (R343). -/
def execHello (p : Fin 4) (f : FabFrame) (s : State) : Host.Outcome State Fault Refusal := .next (receive p (message 0x01 f) s)

/-- HDIG (R343). -/
def execHdig (p : Fin 4) (f : FabFrame) (s : State) : Host.Outcome State Fault Refusal := .next (receive p (message 0x02 f) s)

/-- CERT (R343). -/
def execCert (p : Fin 4) (f : FabFrame) (s : State) : Host.Outcome State Fault Refusal := .next (receive p (message 0x03 f) s)

/-- CHAL (R343). -/
def execChal (p : Fin 4) (f : FabFrame) (s : State) : Host.Outcome State Fault Refusal := .next (receive p (message 0x04 f) s)

/-- REPORT (R343). -/
def execReport (p : Fin 4) (f : FabFrame) (s : State) : Host.Outcome State Fault Refusal := .next (receive p (message 0x05 f) s)

/-- BIND (R345). -/
def execBind (p : Fin 4) (f : FabFrame) (s : State) : Host.Outcome State Fault Refusal := .next (receive p (message 0x06 f) s)

/-- BACK (R346). -/
def execBack (p : Fin 4) (f : FabFrame) (s : State) : Host.Outcome State Fault Refusal := .next (receive p (message 0x07 f) s)

/-- ROUTE (R348). -/
def execRoute (p : Fin 4) (f : FabFrame) (s : State) : Host.Outcome State Fault Refusal := .next (receive p (message 0x08 f) s)

/-- DIGEST (R353). -/
def execDigest (p : Fin 4) (f : FabFrame) (s : State) : Host.Outcome State Fault Refusal := .next (receive p (message 0x10 f) s)

/-- LINKREF (R356). -/
def execLinkref (p : Fin 4) (f : Linkref) (s : State) : Host.Outcome State Fault Refusal := .next (receive p { message 0x11 f.frame with sent := f.sent } s)

/-- LINKST (R356). -/
def execLinkst (p : Fin 4) (f : FabFrame) (s : State) : Host.Outcome State Fault Refusal := .next (receive p (message 0x12 f) s)

/-- RREQ (R358). -/
def execRreq (p : Fin 4) (f : FabFrame) (s : State) : Host.Outcome State Fault Refusal := .next (receive p (message 0x13 f) s)

/-- RRSP (R359). -/
def execRrsp (p : Fin 4) (f : FabFrame) (s : State) : Host.Outcome State Fault Refusal := .next (receive p (message 0x14 f) s)

/-- ATTREQ (R359). -/
def execAttreq (p : Fin 4) (f : FabFrame) (s : State) : Host.Outcome State Fault Refusal := .next (receive p (message 0x15 f) s)

/-- ATTRSP (R359). -/
def execAttrsp (p : Fin 4) (f : FabFrame) (s : State) : Host.Outcome State Fault Refusal := .next (receive p (message 0x16 f) s)

/-- NACK (R347). -/
def execNack (p : Fin 4) (f : FabFrame) (s : State) : Host.Outcome State Fault Refusal := .next (receive p (message 0x1F f) s)

/-- FAB_OTHER_TYPE (R341, Table 18.2): the bytes between two symbols of port `p`; a bad CRC or length is counted; an
unlisted TYPE is answered NOT_SUPPORTED. -/
def execFabOtherType (p : Fin 4) (bs : List Byte) (s : State) : Host.Outcome State Fault Refusal :=
  .next (if badFrame s bs then (if portTalks s p then s.inc (R.FAB_PCNT_CRCERR p) else s)
    else receive p { frameOf bs with crc := 0 } s)

end Sys2Proof.Machine
end

