-- ==== Sys2Proof/Machine/Apply.lean ====
section
/-!
DEFINITION. The ends of the Pattern manager's long runs: a verification (R49, R55, Table 3.9), and an apply with its
steps 2 to 5 (R51, R59–R62).
-/
namespace Sys2Proof.Machine

/-! ### Verification ends -/

/-- PAT_ERR and SEAM_CHK take what a verification found (R49, R35). -/
def showVerdict (v : Verdict) (s : State) : State :=
  let s1 := if v.code = 0 then s else putPatErr v.code v.offset s
  if reachedStep6 v then
    let f := v.chk.getD ⟨0, 0, 0, 0x7F⟩
    (((s1.put R.SEAM_CHK_CODE f.code).put R.SEAM_CHK_SEAM f.seam).put R.SEAM_CHK_SLOT f.slot).put R.SEAM_CHK_STITCH f.stitch
  else s1

/-- The verdict on the image of a source; a slot without a committed image is blank. -/
def verdictOf (src : Source) (s : State) : Verdict :=
  let m := imageOf s src
  if src ≠ .staging ∧ m.valid = false then failAt eSLOT_BLANK 0 else verifyBytes s m.bytes

/-- The staged image takes its mark once it has passed (R56). -/
def markStaged (s : State) : State :=
  { s.flag R.PAT_STAT_STAGED true with pat := { s.pat with staging := ⟨true, s.pat.staging.bytes⟩ } }

/-- PWR_BOOT_CAUSE shows the code of an attempt on a slot (Table 3.10). -/
def putAttempt (src : Source) (c : Nat) (s : State) : State :=
  if src = .slotB then s.put R.PWR_BOOT_CAUSE_ERR_B c else s.put R.PWR_BOOT_CAUSE_ERR_A c

/-- A start's attempt on a slot failed verification (Table 3.9): the other slot is tried, or the start has FAILED. -/
def attemptFailed (src : Source) (s : State) : State :=
  if s.pat.start = .tryActive then
    setWork (.verifyStart (slotNamed (1 - sourceCode src))) { s with pat := { s.pat with start := .tryOther } }
  else
    let blank := s.get R.PWR_BOOT_CAUSE_ERR_A == eSLOT_BLANK && s.get R.PWR_BOOT_CAUSE_ERR_B == eSLOT_BLANK
    startFailed (if blank then cNO_IMAGE else cVERIFY_FAILED) (setWork .idle s)

/-- A verification ends with a verdict: what it was for goes on, or ends. -/
def verified (v : Verdict) (s : State) : State :=
  let s1 := showVerdict v s
  match s.pat.work with
  | .verifyOnly src => endWork (if v.code = 0 ∧ src = .staging then markStaged s1 else s1)
  | .verifyLoad src => if v.code = 0 then beginApply src s1 else endWork s1
  | .verifyStart src =>
    let s2 := putAttempt src v.code s1
    if v.code = 0 then beginApply src s2 else attemptFailed src s2
  | .idle => s
  | .stream _ => s
  | .apply _ => s
  | .commit _ => s

/-- The source that a verification in progress reads. -/
def verifySource : PatWork → Option Source
  | .verifyOnly src => some src
  | .verifyLoad src => some src
  | .verifyStart src => some src
  | .idle => none
  | .stream _ => none
  | .apply _ => none
  | .commit _ => none

/-! ### Rows of PAT_CTL (R55) -/

/-- One PAT_CTL command through a port. -/
def patRow (c : PortCmd) (code : Nat) (s : State) : State :=
  guarded c.port R.PAT_CTL (ctlWord c code) (hostPatCtl (ctlWord c code)) s

/-- STREAM_BEGIN (R56). -/
def execStreamBegin (c : PortCmd) (s : State) : Host.Outcome State Fault Refusal := .next (patRow c 0x1 s)

/-- PAT_STREAM_WRITE (R56). -/
def execPatStreamWrite (w : PortWrite) (s : State) : Host.Outcome State Fault Refusal :=
  .next (guarded w.port R.PAT_STREAM w.data (writePatStream w.port w.data) s)

/-- VERIFY_A (R49). -/
def execVerifyA (c : PortCmd) (s : State) : Host.Outcome State Fault Refusal := .next (patRow c 0x2 s)

/-- VERIFY_B (R49). -/
def execVerifyB (c : PortCmd) (s : State) : Host.Outcome State Fault Refusal := .next (patRow c 0x3 s)

/-- LOAD_STAGED (R51). -/
def execLoadStaged (c : PortCmd) (s : State) : Host.Outcome State Fault Refusal := .next (patRow c 0x4 s)

/-- LOAD_A (R51). -/
def execLoadA (c : PortCmd) (s : State) : Host.Outcome State Fault Refusal := .next (patRow c 0x5 s)

/-- LOAD_B (R51). -/
def execLoadB (c : PortCmd) (s : State) : Host.Outcome State Fault Refusal := .next (patRow c 0x6 s)

/-- COMMIT_A (R57). -/
def execCommitA (c : PortCmd) (s : State) : Host.Outcome State Fault Refusal := .next (patRow c 0x7 s)

/-- COMMIT_B (R57). -/
def execCommitB (c : PortCmd) (s : State) : Host.Outcome State Fault Refusal := .next (patRow c 0x8 s)

/-- SELECT_A (R55). -/
def execSelectA (c : PortCmd) (s : State) : Host.Outcome State Fault Refusal := .next (patRow c 0x9 s)

/-- SELECT_B (R55). -/
def execSelectB (c : PortCmd) (s : State) : Host.Outcome State Fault Refusal := .next (patRow c 0xA s)

/-- CONFIRM (R61). -/
def execConfirm (c : PortCmd) (s : State) : Host.Outcome State Fault Refusal := .next (patRow c 0xB s)

/-- SEAL_MTR (R58). -/
def execSealMtr (c : PortCmd) (s : State) : Host.Outcome State Fault Refusal := .next (patRow c 0xC s)

/-- ABORT (R55). -/
def execAbort (c : PortCmd) (s : State) : Host.Outcome State Fault Refusal := .next (patRow c 0xD s)

/-- PAT_VERIFY_DONE (R49): the verification in progress ends. -/
def execPatVerifyDone (s : State) : Host.Outcome State Fault Refusal :=
  .next (match verifySource s.pat.work with
    | some src => if domOn s 3 then syncFabric (verified (verdictOf src s) s) else s
    | none => s)

/-- CONFIRM_WIN_EXPIRE (R62, Table 3.9): the window of the load or of the start that waits runs out. -/
def execConfirmWinExpire (s : State) : Host.Outcome State Fault Refusal :=
  .next (syncFabric (
    if s.pat.loadWait then loadExpired s
    else if s.pat.start = .await then startFailed cCONFIRM_TIMEOUT s
    else s))

/-! ### Step 2: the changeover of the hem (R51) -/

/-- Does a register hold hem configuration: SAF, or a unit with a role? -/
def hemConfig (s : State) (a : Nat) : Bool :=
  let cfg := match regAt a with
    | some r => r.cfg
    | none => false
  cfg && (a / 0x10000 == 0x0B ||
    (decide (0x0D0000 ≤ a) && decide (a < 0x0D0380) && decide (a % 0x40 ≤ 0x18) &&
      s.get (R.OVL_CFG_ROLE ((a - 0x0D0000) / 0x40)) != 0))

/-- Configuration of CAN, which steps 1 and 2 may have kept. -/
def busConfig (a : Nat) : Bool :=
  let cfg := match regAt a with
    | some r => r.cfg
    | none => false
  cfg && a / 0x10000 == 0x18 && decide (0x184000 ≤ a)

/-- A receive stream whose EN rises or falls starts afresh; one that stays enabled goes on (R229, R241). -/
def streamChange (old : State) (k : Nat) (s : State) : State :=
  if old.on (R.SAF_HRXCFG_EN k) == s.on (R.SAF_HRXCFG_EN k) then s
  else (setStreamSt s k { StreamSt.zero with openedAt := s.tick }).flag (R.SAF_HRXSTAT_WOPEN k) false

/-- Step 2: the sections are written; hem configuration changes over in one cycle, and the counter of SAF_HTXTIM goes on. With
HTXCFG.EN 0 no hem frame waits any more (R242). -/
def stepTwo (bs : List Byte) (s : State) : State :=
  let t := scratch s bs
  let alive := s.get R.SAF_HTXTIM_ALIVE
  let s2 := (s.keepRegs (fun a => !(hemConfig s a) && !(busConfig a && s.word a != t.word a))).put R.SAF_HTXTIM_ALIVE alive
  let s3 := (forL (configWords bs) loadWord s2).put R.SAF_HTXTIM_ALIVE alive
  let s4 := forL (List.range 4) (streamChange s) (hvilStart s s3)
  let s5 := if s4.on R.SAF_HTXCFG_EN then s4 else { s4 with saf := { s4.saf with tx := [] } }
  syncDisreq (syncContactors s5)

/-! ### Step 3: derived fields -/

/-- DEPTH, NSTITCH, ROOT and the period of a seam's root (Table 2.6, R24, Table 5.6). -/
def deriveSeam (n : Nat) (s : State) : State :=
  if seamUsed s n then
    let s1 := (s.put (R.SEAM_DESC_DEPTH n) ((path s n).length - 1)).put (R.SEAM_DESC_NSTITCH n) (stitchesUnder s 64 n).length
    let root := s.get (R.SEAM_DESC_PARENT n) == 0
    let s2 := s1.flag (R.SEAM_REF_ROOT n) root
    if root then s2 else s2.put (R.MOD_CAR_PER n) (s.get (R.MOD_CAR_PER (rootOf s n)))
  else s

/-- COST, LAT and the SRC_CTX that a context's route gives (R24, R123, R107). -/
def deriveContext (c : Nat) (s : State) : State :=
  let s1 := (s.put (R.CTX_CFG_COST c) (costOf s c)).put (R.CTX_LAT_LAT c) (latOf s (s.get (R.CTX_CFG_TRIG c)))
  let n := s.get (R.CTX_ROUTE_NUM c)
  match s.get (R.CTX_ROUTE_DEST c) with
  | 1 => s1.put (R.SEAM_REF_SRC_CTX n) c
  | 2 => s1.put (R.SEAM_OFS_SRC_CTX n) c
  | _ => s1

/-- The root bitmaps, the counts of Table 2.13b, CLAIMED of every stitch. -/
def deriveMaps (s : State) : State :=
  let isRoot (n : Nat) : Bool := (roots s).contains n
  let cl := (stitches s).filter (claimed s)
  let s1 := (s.put (R.SEAM_ROOTS_MAP 0) (mapBits 32 0 isRoot)).put (R.SEAM_ROOTS_MAP 1) (mapBits 32 32 isRoot)
  let s2 := (s1.put R.SEAM_COUNT_SEAMS (used s).length).put R.SEAM_COUNT_CLAIMED cl.length
  forL cl (fun n a => a.flag (R.STI_STATE_CLAIMED n) true) s2

/-- Step 3. -/
def stepThree (s : State) : State :=
  let s1 := forL (ctxsUsed s) deriveContext (forL seams deriveSeam s)
  let s2 := (s1.put R.CTX_LOAD_LOAD (loadOf s1)).put R.PLT_USED_CELLS ((seams.map (plen s1)).sum)
  deriveMaps s2

/-! ### The units under the new Pattern -/

/-- The carrier that seam `n` starts with: a root at phase 0, a seam below it at its delay (R100, R101). -/
def freshCarrier (n : Nat) (s : State) : State :=
  if seamUsed s n then
    setCarrier s n { Carrier.zero with per := s.get (R.MOD_CAR_PER n), levels := s.get (R.SEAM_CAP_LEVELS_AVL n) }
  else s

/-- Every carrier starts; a root with a PHASE begins to move there (R100, R104). -/
def startCarriers (s : State) : State :=
  let s1 := forL seams freshCarrier (refreshCaps { s with carriers := [] })
  forL (roots s1) (fun n a => rephase n 0 a) s1

/-- The PER of every root, as the Pattern loads it (R105). -/
def notePeriods (s : State) : State := { s with loadedPer := (roots s).map (fun n => (n, s.get (R.MOD_CAR_PER n))) }

/-- An enabled window starts (R174). -/
def startWindow (w : Nat) (s : State) : State := if s.on (R.WIN_CTL_EN w) then winStart w s else s

/-- Every awake stitch is sent its new settings (R85). -/
def settle (n : Nat) (s : State) : State :=
  let s1 := setLink s n { link s n with str := none }
  if seenAwake s1 n then sendSettings n s1 else s1

/-- The units take up the new configuration. -/
def startUnits (s : State) : State :=
  let s1 := forL (List.range 64) startWindow (startCarriers (notePeriods s))
  let s2 := forL (ctxsUsed s1) parkSync { s1 with grd := { GrdSt.zero with f := fnom s1 } }
  syncHolds (forL (stitches s2) settle s2)

/-! ### Steps 4 and 5 -/

/-- Step 4: INIT, as host writes on port 7 (R45). Log entry 45. -/
def stepFour (bs : List Byte) (s : State) : State := forL (initWords bs) (fun e a => hostWrite 7 e.1 e.2 a) s

/-- The seal after an apply (Table 3.7): a section that differs opens it. -/
def syncSeal (bs : List Byte) (s : State) : State :=
  if s.get R.PAT_STAT_SEAL = 2 ∧ matchesSeal s bs = false then addMirror (s.put R.PAT_STAT_SEAL 1) .seal else s

/-- Step 5: identity, source, and what counts from this apply on. -/
def stepFive (src : Source) (bs : List Byte) (s : State) : State :=
  let s1 := forL ((shaDigest (signedPart bs)).zip (List.range 8)) (fun e a => a.setWord (R.PAT_DIGEST e.2) e.1) s
  let s2 := (s1.put R.PAT_IMGID_ID (leField bs 0x10 4)).put R.PAT_IMGVER_VER (leField bs 0x14 4)
  let other := src != .staging && sourceCode src != s.get R.PAT_STAT_ACTIVE
  let s3 := ((s2.put R.PAT_STAT_SOURCE (sourceCode src)).flag R.PAT_STAT_FALLBACK other).flag R.MTR_STAT_CALDIRTY false
  let s4 := (syncSeal bs s3).flag R.PAT_STAT_APPLYING false
  { s4.flag R.PAT_STAT_LOADED true with
    pat := { s4.pat with mtr := mtrOf bs, safeVer := safeVerOf bs, checked := false } }

/-- Controllers whose settings step 2 changed join their buses again after INIT (R332). -/
def joinBuses (old : State) (s : State) : State :=
  forL [0, 1] (fun b a => if sameWords (canKeys b) old a then a else canCome b a) s

/-- Steps 2 to 5 of the apply of an image. -/
def finishApply (src : Source) (s : State) : State :=
  let bs := (imageOf s src).bytes
  let s1 := stepFour bs (startUnits (stepThree (stepTwo bs s)))
  let s2 := stepFive src bs (joinBuses s (startCarriers s1))
  drainAll (syncRoutes (syncFabric s2))

/-- What an apply was for: a start goes on to AWAIT_CONFIRM, a host load waits for its CONFIRM; with CONFIRM_WIN 0 both
have succeeded (Table 3.9, R61, R62). The start that an expired window owes begins then, and the load waits no more
(log entry 47). -/
def applied (src : Source) (win : Nat) (s : State) : State :=
  if s.pat.start = .tryActive ∨ s.pat.start = .tryOther then
    let s1 := (s.flag R.PWR_BOOT_CAUSE_FALLBACK (s.pat.start == .tryOther)).put R.PWR_BOOT_CAUSE_SLOT (sourceCode src)
    let s2 := setWork .idle { s1 with pat := { s1.pat with start := .await } }
    if win = 0 then startSucceeded s2 else s2
  else
    let s1 := patDone (setWork .idle s)
    let s2 := if win = 0 then loadSucceeded s1 else { s1 with pat := { s1.pat with loadWait := !s.pat.late } }
    if s.pat.late then startAfterExpiry s2 else s2

/-- PAT_APPLY_DONE (R51): the apply in progress completes. -/
def execPatApplyDone (s : State) : Host.Outcome State Fault Refusal :=
  .next (match s.pat.work with
    | .apply src =>
      if s.on R.PAT_STAT_APPLYING && groupOn s then
        applied src (leField (imageOf s src).bytes 0x0E 1) (finishApply src s)
      else s
    | _ => s)

end Sys2Proof.Machine
end

