-- ==== Sys2Proof/Machine/Dispatch.lean ====
section
/-!
DEFINITION. The dispatch: one arm per command, each one direct call of its meaning.
-/
namespace Sys2Proof.Machine

/-- The effect of a command on everything but the queue of commands. -/
def exec (i : Instr) (s : State) : Host.Outcome State Fault Refusal :=
  match i with
  | .read sent out => Sys2Proof.Machine.execRead sent out s
  | .readCrc sent out => Sys2Proof.Machine.execReadCrc sent out s
  | .write sent half => Sys2Proof.Machine.execWrite sent half s
  | .writeCrc sent half => Sys2Proof.Machine.execWriteCrc sent half s
  | .writeFixed sent half => Sys2Proof.Machine.execWriteFixed sent half s
  | .writeFixedCrc sent half => Sys2Proof.Machine.execWriteFixedCrc sent half s
  | .status op => Sys2Proof.Machine.execStatus op s
  | .statusCrc => Sys2Proof.Machine.execStatusCrc s
  | .hostRegisterWrite addr w hw => Sys2Proof.Machine.execHostRegisterWrite addr w hw s
  | .seamRefWrite n w => Sys2Proof.Machine.execSeamRefWrite n w s
  | .seamOfsWrite n w => Sys2Proof.Machine.execSeamOfsWrite n w s
  | .seamEnWrite n w => Sys2Proof.Machine.execSeamEnWrite n w s
  | .seamStateRead n port => Sys2Proof.Machine.execSeamStateRead n port s
  | .streamBegin c => Sys2Proof.Machine.execStreamBegin c s
  | .patStreamWrite w => Sys2Proof.Machine.execPatStreamWrite w s
  | .verifyA c => Sys2Proof.Machine.execVerifyA c s
  | .verifyB c => Sys2Proof.Machine.execVerifyB c s
  | .loadStaged c => Sys2Proof.Machine.execLoadStaged c s
  | .loadA c => Sys2Proof.Machine.execLoadA c s
  | .loadB c => Sys2Proof.Machine.execLoadB c s
  | .commitA c => Sys2Proof.Machine.execCommitA c s
  | .commitB c => Sys2Proof.Machine.execCommitB c s
  | .selectA c => Sys2Proof.Machine.execSelectA c s
  | .selectB c => Sys2Proof.Machine.execSelectB c s
  | .confirm c => Sys2Proof.Machine.execConfirm c s
  | .sealMtr c => Sys2Proof.Machine.execSealMtr c s
  | .abort c => Sys2Proof.Machine.execAbort c s
  | .patVerifyDone => Sys2Proof.Machine.execPatVerifyDone s
  | .patApplyDone => Sys2Proof.Machine.execPatApplyDone s
  | .patCommitDone => Sys2Proof.Machine.execPatCommitDone s
  | .confirmWinExpire => Sys2Proof.Machine.execConfirmWinExpire s
  | .startBegin => Sys2Proof.Machine.execStartBegin s
  | .cellWake n => Sys2Proof.Machine.execCellWake n s
  | .dieletIdleWake n => Sys2Proof.Machine.execDieletIdleWake n s
  | .stitchWakeDone n pass => Sys2Proof.Machine.execStitchWakeDone n pass s
  | .cellUvlo n => Sys2Proof.Machine.execCellUvlo n s
  | .symbolOff n => Sys2Proof.Machine.execSymbolOff n s
  | .symbolLow n => Sys2Proof.Machine.execSymbolLow n s
  | .symbolHigh n bst => Sys2Proof.Machine.execSymbolHigh n bst s
  | .symbolInvalid n => Sys2Proof.Machine.execSymbolInvalid n s
  | .gateTurnOn n bst => Sys2Proof.Machine.execGateTurnOn n bst s
  | .handshakeTimeout n => Sys2Proof.Machine.execHandshakeTimeout n s
  | .edgeComplete n k t => Sys2Proof.Machine.execEdgeComplete n k t s
  | .edgeIncomplete n => Sys2Proof.Machine.execEdgeIncomplete n s
  | .stiStrWrite n w => Sys2Proof.Machine.execStiStrWrite n w s
  | .bstWarnCross n => Sys2Proof.Machine.execBstWarnCross n s
  | .bstreqClear n low => Sys2Proof.Machine.execBstreqClear n low s
  | .stitchDetector n c => Sys2Proof.Machine.execStitchDetector n c s
  | .covClamp n => Sys2Proof.Machine.execCovClamp n s
  | .writeFrame n reg f => Sys2Proof.Machine.execWriteFrame n reg f s
  | .tickFrame n f => Sys2Proof.Machine.execTickFrame n f s
  | .holdFrame n f => Sys2Proof.Machine.execHoldFrame n f s
  | .releaseFrame n f present => Sys2Proof.Machine.execReleaseFrame n f present s
  | .retireFrame n f => Sys2Proof.Machine.execRetireFrame n f s
  | .unretireFrame n f => Sys2Proof.Machine.execUnretireFrame n f s
  | .bleedFrame n f => Sys2Proof.Machine.execBleedFrame n f s
  | .sleepFrame n f => Sys2Proof.Machine.execSleepFrame n f s
  | .mgmtFrameLaunch n => Sys2Proof.Machine.execMgmtFrameLaunch n s
  | .mgmtFrameResend n => Sys2Proof.Machine.execMgmtFrameResend n s
  | .telemetryTick cells => Sys2Proof.Machine.execTelemetryTick cells s
  | .uplinkFrame n u => Sys2Proof.Machine.execUplinkFrame n u s
  | .uplinkAlert n c => Sys2Proof.Machine.execUplinkAlert n c s
  | .downlinkLoss n => Sys2Proof.Machine.execDownlinkLoss n s
  | .downlinkAbsentSleep n => Sys2Proof.Machine.execDownlinkAbsentSleep n s
  | .uplinkLoss n tenMs => Sys2Proof.Machine.execUplinkLoss n tenMs s
  | .stiTel0Read n port => Sys2Proof.Machine.execStiTel0Read n port s
  | .stiRetire n c => Sys2Proof.Machine.execStiRetire n c s
  | .stiClear n c => Sys2Proof.Machine.execStiClear n c s
  | .clearAll c => Sys2Proof.Machine.execClearAll c s
  | .ledgerMirrorDone n => Sys2Proof.Machine.execLedgerMirrorDone n s
  | .bypassVerify n ok => Sys2Proof.Machine.execBypassVerify n ok s
  | .bypTopupStart n => Sys2Proof.Machine.execBypTopupStart n s
  | .bypTopupEnd n => Sys2Proof.Machine.execBypTopupEnd n s
  | .bleedRelease n => Sys2Proof.Machine.execBleedRelease n s
  | .carrierPeriodStart n slot t met => Sys2Proof.Machine.execCarrierPeriodStart n slot t met s
  | .sampleInstant n t => Sys2Proof.Machine.execSampleInstant n t s
  | .updateInstant due us => Sys2Proof.Machine.execUpdateInstant due us s
  | .edgeInstant n k q => Sys2Proof.Machine.execEdgeInstant n k q s
  | .modCarPerWrite n w => Sys2Proof.Machine.execModCarPerWrite n w s
  | .modPhWrite n w => Sys2Proof.Machine.execModPhWrite n w s
  | .modSyncInEdge q => Sys2Proof.Machine.execModSyncInEdge q s
  | .syncInTimeout => Sys2Proof.Machine.execSyncInTimeout s
  | .ctxEligible c => Sys2Proof.Machine.execCtxEligible c s
  | .ctxExecStart c due => Sys2Proof.Machine.execCtxExecStart c due s
  | .ctxExecDone c => Sys2Proof.Machine.execCtxExecDone c s
  | .ctxLatestStart c due => Sys2Proof.Machine.execCtxLatestStart c due s
  | .ctxParkWrite c port park => Sys2Proof.Machine.execCtxParkWrite c port park s
  | .ctxReset c port park => Sys2Proof.Machine.execCtxReset c port park s
  | .ctxSpWrite c w => Sys2Proof.Machine.execCtxSpWrite c w s
  | .pltQfWrite c w => Sys2Proof.Machine.execPltQfWrite c w s
  | .pltWindowWrite k w => Sys2Proof.Machine.execPltWindowWrite k w s
  | .pltClearDone c => Sys2Proof.Machine.execPltClearDone c s
  | .acqTrig q port en => Sys2Proof.Machine.execAcqTrig q port en s
  | .acqEnWrite q port en => Sys2Proof.Machine.execAcqEnWrite q port en s
  | .conversionDone v x peak met => Sys2Proof.Machine.execConversionDone v x peak met s
  | .urgentGo k port en => Sys2Proof.Machine.execUrgentGo k port en s
  | .winComparatorChange w x => Sys2Proof.Machine.execWinComparatorChange w x s
  | .winBlankEnd w => Sys2Proof.Machine.execWinBlankEnd w s
  | .winDsetEnd w high => Sys2Proof.Machine.execWinDsetEnd w high s
  | .winThrWrite w d => Sys2Proof.Machine.execWinThrWrite w d s
  | .winLatchClear w d met => Sys2Proof.Machine.execWinLatchClear w d met s
  | .winEnWrite w port en => Sys2Proof.Machine.execWinEnWrite w port en s
  | .gridUpdate => Sys2Proof.Machine.execGridUpdate s
  | .curvePointAct freq p => Sys2Proof.Machine.execCurvePointAct freq p s
  | .ceaseReturn => Sys2Proof.Machine.execCeaseReturn s
  | .injPostEnd => Sys2Proof.Machine.execInjPostEnd s
  | .entokSet => Sys2Proof.Machine.execEntokSet s
  | .grdTrippedClear d => Sys2Proof.Machine.execGrdTrippedClear d s
  | .grdIslClear d => Sys2Proof.Machine.execGrdIslClear d s
  | .mtrSample xs => Sys2Proof.Machine.execMtrSample xs s
  | .mtrZcTimeout ch => Sys2Proof.Machine.execMtrZcTimeout ch s
  | .mtrWindowUpdate ch differ => Sys2Proof.Machine.execMtrWindowUpdate ch differ s
  | .meterIntervalBoundary => Sys2Proof.Machine.execMeterIntervalBoundary s
  | .mtrLongLoRead ch q port => Sys2Proof.Machine.execMtrLongLoRead ch q port s
  | .mtrIntRead ch q port => Sys2Proof.Machine.execMtrIntRead ch q port s
  | .mtrIclr chs port en => Sys2Proof.Machine.execMtrIclr chs port en s
  | .mtrNow port en => Sys2Proof.Machine.execMtrNow port en s
  | .mtrEnWrite port en => Sys2Proof.Machine.execMtrEnWrite port en s
  | .mtrSealFieldWrite a d => Sys2Proof.Machine.execMtrSealFieldWrite a d s
  | .safetyTick wires srst fb => Sys2Proof.Machine.execSafetyTick wires srst fb s
  | .spoNChange high => Sys2Proof.Machine.execSpoNChange high s
  | .spoFilterExpire => Sys2Proof.Machine.execSpoFilterExpire s
  | .discrepancyLimit p => Sys2Proof.Machine.execDiscrepancyLimit p s
  | .srstStuck => Sys2Proof.Machine.execSrstStuck s
  | .hvilBit iret => Sys2Proof.Machine.execHvilBit iret s
  | .ctrFbCheck k level => Sys2Proof.Machine.execCtrFbCheck k level s
  | .hemCopyRx busB xid id bytes => Sys2Proof.Machine.execHemCopyRx busB xid id bytes s
  | .hemWindowExpire k => Sys2Proof.Machine.execHemWindowExpire k s
  | .hemStreamLost k => Sys2Proof.Machine.execHemStreamLost k s
  | .hemTxDue => Sys2Proof.Machine.execHemTxDue s
  | .stest c => Sys2Proof.Machine.execStest c s
  | .stestDone pass => Sys2Proof.Machine.execStestDone pass s
  | .safDisreq c => Sys2Proof.Machine.execSafDisreq c s
  | .safCtrReqWrite w => Sys2Proof.Machine.execSafCtrReqWrite w s
  | .faultOccurrence cls scope detail => Sys2Proof.Machine.execFaultOccurrence cls scope detail s
  | .dueLift scope => Sys2Proof.Machine.execDueLift scope s
  | .fltRelease c => Sys2Proof.Machine.execFltRelease c s
  | .unlatch c => Sys2Proof.Machine.execUnlatch c s
  | .causeRecordClear cls w met => Sys2Proof.Machine.execCauseRecordClear cls w met s
  | .shadowClose => Sys2Proof.Machine.execShadowClose s
  | .patCheck differs => Sys2Proof.Machine.execPatCheck differs s
  | .fltLogRead k port => Sys2Proof.Machine.execFltLogRead k port s
  | .ovlStart u port => Sys2Proof.Machine.execOvlStart u port s
  | .ovlEnd u port => Sys2Proof.Machine.execOvlEnd u port s
  | .ovlDin4 u w => Sys2Proof.Machine.execOvlDin4 u w s
  | .ovlDin1 u w => Sys2Proof.Machine.execOvlDin1 u w s
  | .ovlResLoRead u port => Sys2Proof.Machine.execOvlResLoRead u port s
  | .ovlParamWrite u k w => Sys2Proof.Machine.execOvlParamWrite u k w s
  | .ovlAcfgWrite u w => Sys2Proof.Machine.execOvlAcfgWrite u w s
  | .ovlAfeed u w => Sys2Proof.Machine.execOvlAfeed u w s
  | .attest c => Sys2Proof.Machine.execAttest c s
  | .fuseKey c => Sys2Proof.Machine.execFuseKey c s
  | .fuseKeyDone fused => Sys2Proof.Machine.execFuseKeyDone fused s
  | .signComplete => Sys2Proof.Machine.execSignComplete s
  | .keyCheckDone keyOk rngOk => Sys2Proof.Machine.execKeyCheckDone keyOk rngOk s
  | .rngHealthFail => Sys2Proof.Machine.execRngHealthFail s
  | .wakeTaken src => Sys2Proof.Machine.execWakeTaken src s
  | .railtoExpire => Sys2Proof.Machine.execRailtoExpire s
  | .cpPpMeasure pilot pwm r hv => Sys2Proof.Machine.execCpPpMeasure pilot pwm r hv s
  | .railMonitor rail low high => Sys2Proof.Machine.execRailMonitor rail low high s
  | .brownout => Sys2Proof.Machine.execBrownout s
  | .vaonReset => Sys2Proof.Machine.execVaonReset s
  | .selvedgePowerUp => Sys2Proof.Machine.execSelvedgePowerUp s
  | .restoreDone => Sys2Proof.Machine.execRestoreDone s
  | .domainOutOfReset n => Sys2Proof.Machine.execDomainOutOfReset n s
  | .powerDownDone => Sys2Proof.Machine.execPowerDownDone s
  | .xaonOk => Sys2Proof.Machine.execXaonOk s
  | .xaonLoss => Sys2Proof.Machine.execXaonLoss s
  | .clockFail clk => Sys2Proof.Machine.execClockFail clk s
  | .pllRelock edge => Sys2Proof.Machine.execPllRelock edge s
  | .modeReqPrecharge c => Sys2Proof.Machine.execModeReqPrecharge c s
  | .modeReqCharge c => Sys2Proof.Machine.execModeReqCharge c s
  | .modeReqFeed c => Sys2Proof.Machine.execModeReqFeed c s
  | .modeReqIsland c => Sys2Proof.Machine.execModeReqIsland c s
  | .modeReqAuxiliary c => Sys2Proof.Machine.execModeReqAuxiliary c s
  | .modeReqReady c => Sys2Proof.Machine.execModeReqReady c s
  | .modeReqFitting c => Sys2Proof.Machine.execModeReqFitting c s
  | .modeReqWatch c => Sys2Proof.Machine.execModeReqWatch c s
  | .modeReqDormant c => Sys2Proof.Machine.execModeReqDormant c s
  | .prechargeTimeout => Sys2Proof.Machine.execPrechargeTimeout s
  | .dischargeComplete => Sys2Proof.Machine.execDischargeComplete s
  | .dischargeTimeout => Sys2Proof.Machine.execDischargeTimeout s
  | .rtcSet w => Sys2Proof.Machine.execRtcSet w s
  | .rtcRead port => Sys2Proof.Machine.execRtcRead port s
  | .alarmArm w => Sys2Proof.Machine.execAlarmArm w s
  | .cpermWrite w => Sys2Proof.Machine.execCpermWrite w s
  | .trackCycle => Sys2Proof.Machine.execTrackCycle s
  | .vocSampleEnd voc => Sys2Proof.Machine.execVocSampleEnd voc s
  | .storeFull => Sys2Proof.Machine.execStoreFull s
  | .hinOv => Sys2Proof.Machine.execHinOv s
  | .coldStart => Sys2Proof.Machine.execColdStart s
  | .extsupChange ext => Sys2Proof.Machine.execExtsupChange ext s
  | .gaugeMeasure vst => Sys2Proof.Machine.execGaugeMeasure vst s
  | .burstCheckpoint => Sys2Proof.Machine.execBurstCheckpoint s
  | .burstStop => Sys2Proof.Machine.execBurstStop s
  | .burstTimeout => Sys2Proof.Machine.execBurstTimeout s
  | .hrvWrite k w => Sys2Proof.Machine.execHrvWrite k w s
  | .canFrameRx b f => Sys2Proof.Machine.execCanFrameRx b f s
  | .canSvcRequest b fdf bytes => Sys2Proof.Machine.execCanSvcRequest b fdf bytes s
  | .mbStatRead b m port => Sys2Proof.Machine.execMbStatRead b m port s
  | .mbFullClear b m w => Sys2Proof.Machine.execMbFullClear b m w s
  | .mbTxreq b m w => Sys2Proof.Machine.execMbTxreq b m w s
  | .mbAbort b m w => Sys2Proof.Machine.execMbAbort b m w s
  | .canArbitration b => Sys2Proof.Machine.execCanArbitration b s
  | .canTxDone b ok tec => Sys2Proof.Machine.execCanTxDone b ok tec s
  | .canBusOff b => Sys2Proof.Machine.execCanBusOff b s
  | .canRecover b port => Sys2Proof.Machine.execCanRecover b port s
  | .canRecoveryDone b => Sys2Proof.Machine.execCanRecoveryDone b s
  | .fabTrainStart p => Sys2Proof.Machine.execFabTrainStart p s
  | .fabAligned p => Sys2Proof.Machine.execFabAligned p s
  | .fabHelloTimeout p => Sys2Proof.Machine.execFabHelloTimeout p s
  | .fabFailedEnd p => Sys2Proof.Machine.execFabFailedEnd p s
  | .fabSymbolLoss p => Sys2Proof.Machine.execFabSymbolLoss p s
  | .fabAck p lseq => Sys2Proof.Machine.execFabAck p lseq s
  | .fabResendTimeout p => Sys2Proof.Machine.execFabResendTimeout p s
  | .hello p f => Sys2Proof.Machine.execHello p f s
  | .hdig p f => Sys2Proof.Machine.execHdig p f s
  | .cert p f => Sys2Proof.Machine.execCert p f s
  | .chal p f => Sys2Proof.Machine.execChal p f s
  | .report p f => Sys2Proof.Machine.execReport p f s
  | .bind p f => Sys2Proof.Machine.execBind p f s
  | .back p f => Sys2Proof.Machine.execBack p f s
  | .route p f => Sys2Proof.Machine.execRoute p f s
  | .digest p f => Sys2Proof.Machine.execDigest p f s
  | .linkref p f => Sys2Proof.Machine.execLinkref p f s
  | .linkst p f => Sys2Proof.Machine.execLinkst p f s
  | .rreq p f => Sys2Proof.Machine.execRreq p f s
  | .rrsp p f => Sys2Proof.Machine.execRrsp p f s
  | .attreq p f => Sys2Proof.Machine.execAttreq p f s
  | .attrsp p f => Sys2Proof.Machine.execAttrsp p f s
  | .nack p f => Sys2Proof.Machine.execNack p f s
  | .routeSend => Sys2Proof.Machine.execRouteSend s
  | .roleFree r => Sys2Proof.Machine.execRoleFree r s
  | .timeExchange p t source => Sys2Proof.Machine.execTimeExchange p t source s
  | .tvalidLoss => Sys2Proof.Machine.execTvalidLoss s
  | .digestSend => Sys2Proof.Machine.execDigestSend s
  | .agreeTimeout r => Sys2Proof.Machine.execAgreeTimeout r s
  | .fabAgreeRead port => Sys2Proof.Machine.execFabAgreeRead port s
  | .fabReqRead port dst n tag => Sys2Proof.Machine.execFabReqRead port dst n tag s
  | .fabReqWrite port dst n tag => Sys2Proof.Machine.execFabReqWrite port dst n tag s
  | .fabAttest port dst n tag => Sys2Proof.Machine.execFabAttest port dst n tag s
  | .fabReqTimeout => Sys2Proof.Machine.execFabReqTimeout s
  | .linkRetrained n => Sys2Proof.Machine.execLinkRetrained n s
  | .xrefValid => Sys2Proof.Machine.execXrefValid s
  | .bleedWaitEnd n => Sys2Proof.Machine.execBleedWaitEnd n s
  | .storeBelowVstmax => Sys2Proof.Machine.execStoreBelowVstmax s
  | .hinovClear => Sys2Proof.Machine.execHinovClear s
  | .mramMirrorDone m => Sys2Proof.Machine.execMramMirrorDone m s
  | .fabOtherType p bs => Sys2Proof.Machine.execFabOtherType p bs s

end Sys2Proof.Machine
end

