-- ==== Sys2Proof/Safety.lean ====
section
/-!
DEFINITION. What counts as a safe run, in the terms statements use: the canonical form of the register file, and the
invariant that every step keeps.
-/
namespace Sys2Proof.Machine

/-- The register file is in canonical form: addresses rise, and no word listed equals its reset word. -/
def regsCanonical (s : State) : Bool := canonical resetWord s.regs

/-! ### Frames: what stays -/

/-- No register outside `as` differs. -/
def RegsOutside (as : List Nat) (s t : State) : Prop := ∀ a, a ∉ as → t.word a = s.word a

/-- Nothing differs but registers, and of these only those of `as`. -/
def OnlyRegs (as : List Nat) (s t : State) : Prop := t = { s with regs := t.regs } ∧ RegsOutside as s t

/-- Nothing differs but the dielet of stitch `n`. -/
def OnlyDielet (n : Nat) (s t : State) : Prop :=
  t = { s with dielets := t.dielets } ∧ ∀ m, m ≠ n → dielet t m = dielet s m

/-! ### Writes through a port -/

/-- A word written at `a` through port `p` takes effect (Table 17.1, R4, R53, R290): the port may write, the address is
on the part, its domain is on, and no apply closes its range; no word of the port waits in its queue, and no hold waits
for queued words (R267), so that the word's own effect is all there is to see. -/
def Accepts (s : State) (p a : Nat) : Prop :=
  portWrites s p = true ∧ absent s a = false ∧ domOn s (domainOf a) = true
    ∧ (s.on R.PAT_STAT_APPLYING && p != 7 && applyRange a) = false
    ∧ s.host.holdWait = [] ∧ s.host.queue.find? (fun w => w.port == p) = none

/-- Nothing differs but registers, and of these only those of `as`, and the SNAP run of port `p` has ended (R32). -/
def PortRegs (p : Nat) (as : List Nat) (s t : State) : Prop := t = { endRun p s with regs := t.regs } ∧ RegsOutside as s t

/-- A write at `a` has no effect of its own: RW and LIVE bits take the written bits, W1C bits written 1 clear (R9). -/
def PlainAddr (a : Nat) : Prop := ∀ (p : Nat) (d : Word) (met : Bool) (s : State), writeEffect p a d met s = plainWrite a d s

/-- A read at `a` through port `p` is answered: the port may read, the address is on the part, its domain is on. -/
def Answers (s : State) (p a : Nat) : Prop :=
  portReads s p = true ∧ absent s a = false ∧ domOn s (domainOf a) = true

/-! ### Whole runs -/

/-- What no effect of a command may break: the queue of commands, the part and its grade stay (a command acts on
everything but the queue; the variant is fixed, spec/00 Table 0.1); engine time never runs back; no free value is drawn
twice (log entry 1); and the register file stays in canonical form. -/
def Onward (s t : State) : Prop :=
  t.pending = s.pending ∧ t.part = s.part ∧ t.aq = s.aq ∧ s.cyc ≤ t.cyc ∧ s.freeCtr ≤ t.freeCtr
    ∧ (regsCanonical s = true → regsCanonical t = true)

/-- A command is answered with a next state, and that state is onward. -/
def Goes (s : State) (o : Host.Outcome State Fault Refusal) : Prop := ∃ t, o = .next t ∧ Onward s t

/-- No command of a step stops: it answers a next state. -/
def goesOn (o : Host.Outcome State Fault Refusal) : Bool :=
  match o with
  | .next _ => true
  | .fault _ => false
  | .refused _ => false

end Sys2Proof.Machine
end

