-- ==== Sys2Proof/Certificates/Slice0/Obligations.lean ====
section
/-!
DEFINITION. The statements for the provers, family by family of the commands.
-/
open Sys2Proof Sys2Proof.Machine

/-- For every command, every queue behind it and every state: a step with the command at the front is the command's own
effect on the state whose queue is the rest. -/
def Obligations.StepTakesTheFront : Prop :=
  ∀ (c : Instr) (rest : List Instr) (s : State),
    step { s with pending := c :: rest } = exec c { s with pending := rest }

/-- No command of the table stops the block, whatever the state and the operands: each answers a next state. In that state
the queue of commands, the part and its grade are what they were, engine time has not run back, no free value is drawn
twice (log entry 1, the model's own counter), and the register file is in canonical form if it was. -/
def Obligations.EveryCommandGoesOn : Prop :=
  ∀ (c : Instr) (s : State), Goes s (exec c s)

/-- From every state whose register file is in canonical form (addresses rise, and no register is listed with its reset
word), each step, of a command or of an idle block, answers a next state with the same form, on the same part and grade,
with no engine time lost, and with the queue one command shorter, or empty as before. -/
def Obligations.StepKeepsInvariant : Prop :=
  ∀ s : State, regsCanonical s = true →
    ∃ t, step s = .next t ∧ regsCanonical t = true ∧ t.part = s.part ∧ t.aq = s.aq ∧ s.cyc ≤ t.cyc
      ∧ t.pending = s.pending.drop 1

/-- The register file of the reset state is in canonical form, so the invariant that every step keeps holds from the start. -/
def Obligations.ResetMeetsInvariant : Prop :=
  regsCanonical State.reset = true

/-- After reset no command waits; every register holds its reset word; the Selvedge domain alone is out of reset and the mode is
WATCH; the hem latch is set; the host queue is empty and HST_STAT.QEMPTY is 1; no stitch link, dielet, context, carrier or
window has state of its own, and no Pattern is loaded. FLT_NEXTSEQ is 1, because the high-water mark of the MRAM is 0. That the
part is the TQ-96M of standard grade (log entry 2), that its MRAM is blank (log entry 3), and that reset is the first power-up of
the Selvedge domain, with what the other domains will show (log entry 7), is the model's choice. -/
def Obligations.ResetValues : Prop :=
  State.reset.pending = [] ∧ State.reset.part = .tq96M ∧ State.reset.aq = false
    ∧ (∀ a, State.reset.word a = resetWord a)
    ∧ domOn State.reset 0 = true ∧ (∀ n, 1 ≤ n → n ≤ 7 → domOn State.reset n = false)
    ∧ mode State.reset = mWATCH ∧ State.reset.on R.SAF_STAT_LATCH = true
    ∧ State.reset.host.queue = [] ∧ State.reset.on R.HST_STAT_QEMPTY = true
    ∧ State.reset.on R.PAT_STAT_LOADED = false ∧ State.reset.get R.FLT_NEXTSEQ_SEQ = 1
    ∧ State.reset.mram.logMark = 0
    ∧ (∀ n, link State.reset n = LinkEnd.zero ∧ dielet State.reset n = Dielet.zero ∧ ctxSt State.reset n = CtxSt.zero
        ∧ carrier State.reset n = Carrier.zero ∧ winSt State.reset n = WinSt.zero)

/-- With no command waiting and no host word queued, a step passes one engine cycle of 2.5 ns and changes nothing else (log
entry 5: the table has no row for a tick, so the time-driven effects are the other commands; the model's own choice). -/
def Obligations.IdleStep : Prop :=
  ∀ s : State, s.pending = [] → s.host.queue = [] → s.fab.writes = [] → step s = .next { s with cyc := s.cyc + 1 }

/-- A word of the host queue is the next: the oldest, or, where the oldest word of a lower port is addressed to the same register,
that one (R320). No command waits, no hold waits for words and no remote write is open. If its port may write and its address is absent, ABSENT sets with the port and the address (R4); if its domain is off, DOMOFF
sets (R290); if it is a register with no effect of its own, each RW or LIVE bit takes the written bit and each W1C bit
written 1 clears (R9). In each case the word has left the queue, QEMPTY follows port 0's queue, the SNAP run of the port
has ended, and one engine cycle has passed (log entry 5, the model's own choice). -/
def Obligations.QueuedWordTakesEffect : Prop :=
  ∀ (s : State) (w : HostWord), s.pending = [] → nextWord s = some w → s.fab.writes = [] →
    s.host.holdWait = [] → portWrites s w.port = true →
    let s1 : State := syncQueue { endRun w.port s with
          host := { (endRun w.port s).host with queue := s.host.queue.erase w } }
    (∃ o rest, s.host.queue = o :: rest ∧ w.addr = o.addr ∧ (w = o ∨ w.port < 8)
        ∧ ∀ x ∈ s.host.queue, x.addr = o.addr → x.port < 8 → s.host.queue.find? (fun y => y.port == x.port) = some x →
            o.port < 8 → w.port ≤ x.port)
    ∧ (absent s w.addr = true →
      step s = .next { hostFlag R.HST_STAT_ABSENT w.port w.addr s1 with cyc := s.cyc + 1 })
    ∧ (absent s w.addr = false → domOn s (domainOf w.addr) = false →
      step s = .next { hostFlag R.HST_STAT_DOMOFF w.port w.addr s1 with cyc := s.cyc + 1 })
    ∧ (absent s w.addr = false → domOn s (domainOf w.addr) = true →
      (s.on R.PAT_STAT_APPLYING && w.port != 7 && applyRange w.addr) = true →
      step s = .next { hostFlag R.HST_STAT_DISCARDED w.port w.addr s1 with cyc := s.cyc + 1 })
    ∧ (absent s w.addr = false → domOn s (domainOf w.addr) = true →
      (s.on R.PAT_STAT_APPLYING && w.port != 7 && applyRange w.addr) = false → PlainAddr w.addr →
      step s = .next { plainWrite w.addr w.data s1 with cyc := s.cyc + 1 })

/-- With PD2 on and no word of the host queue waiting: a READ of n words (1 to 256) from a word address, with CRC not required,
returns the n words that reads at rising addresses give, in order; the word after the last one, up to the 256th, is sampled
too, 8 clocks before it would be due (R325), and the frame ends with the error response of the first sampled word that met
an error, if any did. A READ_CRC whose CRC-8 is right returns the same words with a CRC-8 of everything sent, inverted
where a word met an error. A READ of one word that is present and on, as is the one after it, neither at the head of a SNAP group
nor a mailbox's MB_STAT, with no SNAP run open, returns the word and changes nothing but what was sent. That the word after the
last one is the only one sampled ahead is the model's choice (log entry 29). -/
def Obligations.ReadFrames : Prop :=
  ∀ (s : State) (sent : List Byte), domOn s 2 = true → portQueueEmpty s 0 = true → beNat (sent.take 3) % 4 = 0 →
    (∀ n, 1 ≤ n → n ≤ 256 → s.on R.HST_CFG_CRCREQ = false → 3 ≤ sent.length →
      let r := readBurst 0 (beNat (sent.take 3)) (min (1 + n) 256) s
      exec (.read sent (4 * n)) s = .next (frameEnd r.2.2 (r.2.1.take n) none r.1))
    ∧ (5 ≤ sent.length → crc8 ((0x8B : Byte) :: sent.take 4) = (sent.getD 4 0).toNat →
      let n := (sent.getD 3 0).toNat + 1
      let r := readBurst 0 (beNat (sent.take 3)) n s
      let crc := crc8 ((0x8B : Byte) :: (sent.take 4 ++ sentBytes r.2.1))
      exec (.readCrc sent (4 * n + 1)) s =
        .next (frameEnd r.2.2 r.2.1 (some (if r.2.2 = [] then crc else 255 - crc)) r.1))
    ∧ (s.on R.HST_CFG_CRCREQ = false → 3 ≤ sent.length → snapRun s 0 = none →
      (∀ k, k < 2 → accessError s (burstAddr (beNat (sent.take 3)) k) = none
        ∧ snapGroup (burstAddr (beNat (sent.take 3)) k) = [] ∧ mbStatAt (burstAddr (beNat (sent.take 3)) k) = none) →
      exec (.read sent 4) s =
        .next { s with host := { s.host with
          snaps := (endRun 0 (endRun 0 s)).host.snaps,
          sent := [readWord (beNat (sent.take 3)) s],
          trailer := none,
          after := 0 } })

/-- With PD2 on, a frame of n whole words (1 to 256) at a word address, with room in port 0's queue (1,024 words), appends the n
words to the queue in the order they came, at rising addresses or, for the FIXED forms, all at one address; the CRC forms
need their CRC-8 right, the others CRC not required. QEMPTY is then 0; the word's effect comes later (R326). Where all
addresses are present and on, nothing else changes but what was sent; where some word met an error, ERESP sets with the code
and address of the first of them, for port 0, and ECNT counts it. -/
def Obligations.WriteFrames : Prop :=
  ∀ (s : State) (sent : List Byte) (n : Nat), domOn s 2 = true → 1 ≤ n → n ≤ 256 → beNat (sent.take 3) % 4 = 0 →
    (s.host.queue.filter (fun w => w.port == 0)).length + n ≤ 1024 →
    ∀ (fixed crc : Bool),
      (if crc then sent.length = 4 + 4 * n ∧ crc8 ((if fixed then 0x86 else 0x82) :: sent.dropLast) = (sent.getLastD 0).toNat
       else sent.length = 3 + 4 * n ∧ s.on R.HST_CFG_CRCREQ = false) →
      let addr := fun k => if fixed then beNat (sent.take 3) else burstAddr (beNat (sent.take 3)) k
      ∃ t, exec (match fixed, crc with
          | false, false => .write sent false
          | false, true => .writeCrc sent false
          | true, false => .writeFixed sent false
          | true, true => .writeFixedCrc sent false) s = .next t
        ∧ t = { s with
            regs := t.regs,
            host := { s.host with
              queue := s.host.queue ++
                (List.range n).map (fun k => ⟨0, addr k, (frameWords n (sent.drop 3)).getD k 0⟩),
              sent := [], trailer := none, after := 0 } }
        ∧ RegsOutside [R.HST_STAT, R.HST_ERRADDR] s t ∧ t.on R.HST_STAT_QEMPTY = false
        ∧ ((∀ k, k < n → accessError s (addr k) = none) →
            t.word R.HST_STAT = setBits (s.word R.HST_STAT) R.HST_STAT_QEMPTY.lo R.HST_STAT_QEMPTY.wd 0
              ∧ t.word R.HST_ERRADDR = s.word R.HST_ERRADDR)
        ∧ (∀ k e, k < n → accessError s (addr k) = some e → (∀ j, j < k → accessError s (addr j) = none) →
            t.on R.HST_STAT_ERESP = true ∧ t.get R.HST_STAT_FCODE = e ∧ t.get R.HST_STAT_LPORT = 0
              ∧ t.get R.HST_STAT_ECNT = (s.get R.HST_STAT_ECNT + 1) % 2 ^ R.HST_STAT_ECNT.wd
              ∧ t.get R.HST_ERRADDR_ADDR = addr k % 2 ^ 24)

/-- With PD2 on, STATUS returns HST_STAT and, where CRC is required, ends with the error response CRCREQ; STATUS_CRC returns
HST_STAT with the CRC-8 of the opcode and the word, and no error. A frame whose opcode is another of Table 17.2 is that frame (the
opcode's bit 7 picks the CRC form), one whose CS_N rises before its opcode is complete ends with FRAME, and one whose opcode is
not listed with OPCODE; the last two read and write nothing. That the STATUS word is the one before the frame's own error, and
that HST_ERRADDR stays where no address was complete, is the model's choice (log entry 31), as is that the row STATUS carries
frames of every opcode (log entry 32). -/
def Obligations.StatusFrames : Prop :=
  ∀ (s : State) (bs : List Byte) (half : Bool) (out : Nat), domOn s 2 = true →
    (s.on R.HST_CFG_CRCREQ = false →
      exec (.status (some ⟨0x05, bs, half, out⟩)) s = .next { s with
        host := { s.host with sent := [s.word R.HST_STAT], trailer := none, after := 0 } })
    ∧ (s.on R.HST_CFG_CRCREQ = true →
      exec (.status (some ⟨0x05, bs, half, out⟩)) s = .next (errorResponse fCRCREQ (s.get R.HST_ERRADDR_ADDR)
        { s with host := { s.host with sent := [s.word R.HST_STAT], trailer := none, after := 0 } }))
    ∧ exec .statusCrc s = .next { s with
        host := { s.host with
          sent := [s.word R.HST_STAT],
          trailer := some (crc8 ((0x85 : Byte) :: beBytes 4 (s.word R.HST_STAT).toNat)),
          after := 0 } }
    ∧ exec (.status (some ⟨0x02, bs, half, out⟩)) s = exec (.write bs half) s
    ∧ exec (.status (some ⟨0x82, bs, half, out⟩)) s = exec (.writeCrc bs half) s
    ∧ exec (.status (some ⟨0x06, bs, half, out⟩)) s = exec (.writeFixed bs half) s
    ∧ exec (.status (some ⟨0x86, bs, half, out⟩)) s = exec (.writeFixedCrc bs half) s
    ∧ exec (.status (some ⟨0x0B, bs, half, out⟩)) s = exec (.read bs out) s
    ∧ exec (.status (some ⟨0x8B, bs, half, out⟩)) s = exec (.readCrc bs out) s
    ∧ exec (.status (some ⟨0x85, bs, half, out⟩)) s = exec .statusCrc s
    ∧ (∀ op : Option HostFrame,
      op.all (fun f => !([0x02, 0x82, 0x06, 0x86, 0x0B, 0x8B, 0x05, 0x85] : List Nat).contains f.op.toNat) = true →
      exec (.status op) s = .next (errorResponse (if op = none then fFRAME else fOPCODE) (s.get R.HST_ERRADDR_ADDR)
        { s with host := { s.host with sent := [], trailer := none, after := 0 } }))

/-- A word that a port writes takes effect at a register with no effect of its own (R9): every RW or LIVE bit takes the written
bit, every W1C bit written 1 clears, and every other bit, of this and of every other register, stays; nothing but the
register file and the port's SNAP run changes. An address that holds no register ignores the word. The fault map, the host
configuration and interrupt enables and the fabric interrupt enables are such registers. Where the hardware updates bits of the
register in the same cycle (`hw`), the word takes effect in its bits all the same, and where it writes a RW bit of them, LATE sets
for the port and HST_ERRADDR names the register (R328); that those bits come with the command is the model's choice (log entry
46). -/
def Obligations.RegisterWrite : Prop :=
  (∀ (s : State) (addr : BitVec 24) (w : PortWrite), Accepts s w.port addr.toNat → PlainAddr addr.toNat →
    ∃ t, exec (.hostRegisterWrite addr w 0) s = .next t
      ∧ t = { endRun w.port s with regs := t.regs } ∧ RegsOutside [addr.toNat] s t
      ∧ (regAt addr.toNat = none → t.word addr.toNat = s.word addr.toNat)
      ∧ ∀ r i, regAt addr.toNat = some r → i < 32 →
          (t.word addr.toNat).getLsbD i =
            (if tb r.w1c i && w.data.getLsbD i then false
             else if tb r.rw i then w.data.getLsbD i else (s.word addr.toNat).getLsbD i))
  ∧ (∀ (s : State) (addr : BitVec 24) (w : PortWrite) (hw : Word) (r : RegRow), Accepts s w.port addr.toNat →
    PlainAddr addr.toNat → ownMeeting addr.toNat = false → regAt addr.toNat = some r →
    ∃ t, t = { endRun w.port s with regs := t.regs } ∧ RegsOutside [addr.toNat] s t
      ∧ (∀ i, i < 32 → (t.word addr.toNat).getLsbD i =
          (if tb r.w1c i && w.data.getLsbD i && !hw.getLsbD i then false
           else if tb r.rw i && !(tb r.w1c i && hw.getLsbD i) then w.data.getLsbD i else (s.word addr.toNat).getLsbD i))
      ∧ ((∃ i, i < 32 ∧ hw.getLsbD i = true ∧ (tb r.rw i || tb r.wo i || (tb r.w1c i && w.data.getLsbD i)) = true) →
          exec (.hostRegisterWrite addr w hw) s = .next (hostFlag R.HST_STAT_LATE w.port addr.toNat t))
      ∧ ((∀ i, i < 32 → hw.getLsbD i = true → (tb r.rw i || tb r.wo i || (tb r.w1c i && w.data.getLsbD i)) = false) →
          exec (.hostRegisterWrite addr w hw) s = .next t))
  ∧ PlainAddr R.HST_CFG ∧ PlainAddr R.HST_IEN ∧ PlainAddr R.FAB_IEN ∧ PlainAddr R.HST_STAT ∧ PlainAddr R.FAB_IRQ
  ∧ (∀ k, k < 25 → PlainAddr (R.FLT_MAP k))

/-- Through a port that may read, at a present address of a domain that is on, with no shadow of the port holding that word:
a read of SEAM_STATE, STI_TEL0, the low word of a long or an interval energy register, word 0 of a log slot, OVL_RES_LO,
PWR_RTC_LO or FAB_AGREE returns the present word and latches the other words of its group for the port, and changes nothing
else; a read of MB_STAT returns its word and locks the mailbox for the port unless a port holds it: that the lock stays with its
first holder is the model's choice (log entry 34). While the run of reads
stands, the next word reads as latched whatever the register holds by then (outside the metering block, where the W1C bit
of R212 reads as it stands). -/
def Obligations.SnapReads : Prop :=
  (∀ (s : State) (p : Nat),
    let latched := fun (a : Nat) (more : List Nat) =>
      { s with host := { s.host with
        snaps := (setSnapRun p (some ⟨more.map (fun x => (x, readWord x s)), a⟩) s).host.snaps
        sent := [readWord a s], trailer := none, after := 0 } }
    let fresh := fun (a : Nat) => Answers s p a ∧ ∀ r, snapRun s p = some r → ∀ e ∈ r.words, e.1 ≠ a
    (∀ n : Fin 64, n ≠ 0 → fresh (R.SEAM_STATE n) →
      exec (.seamStateRead n p) s = .next (latched (R.SEAM_STATE n) [R.SEAM_CAP n]))
    ∧ (∀ n : Fin 96, fresh (R.STI_TEL0 n) → exec (.stiTel0Read n p) s = .next (latched (R.STI_TEL0 n) [R.STI_TEL1 n]))
    ∧ (∀ (ch : Fin 4) (q : Fin 7), fresh (R.MTR_LONG_LO ch q) →
      exec (.mtrLongLoRead ch q p) s = .next (latched (R.MTR_LONG_LO ch q) [R.MTR_LONG_HI ch q]))
    ∧ (∀ (ch : Fin 4) (q : Fin 7), fresh (R.MTR_INT ch q) →
      exec (.mtrIntRead ch q p) s = .next (latched (R.MTR_INT ch q) [R.MTR_IWRAP ch q]))
    ∧ (∀ k : Fin 256, fresh (R.FLT_LOG k 0) →
      exec (.fltLogRead k p) s = .next (latched (R.FLT_LOG k 0) [R.FLT_LOG k 1, R.FLT_LOG k 2, R.FLT_LOG k 3]))
    ∧ (∀ u : Fin 16, fresh (R.OVL_RES_LO u) → exec (.ovlResLoRead u p) s = .next (latched (R.OVL_RES_LO u) [R.OVL_RES_HI u]))
    ∧ (fresh R.PWR_RTC_LO → exec (.rtcRead p) s = .next (latched R.PWR_RTC_LO [R.PWR_RTC_HI]))
    ∧ (fresh R.FAB_AGREE → exec (.fabAgreeRead p) s = .next (latched R.FAB_AGREE [R.FAB_AGREE_EPOCH]))
    ∧ (∀ (b : Fin 2) (m : Fin 32), fresh (R.MB_STAT b m) →
      ∃ t, exec (.mbStatRead b m p) s = .next t ∧ RegsOutside [R.MB_STAT b m] s t
        ∧ t.host.sent = [s.word (R.MB_STAT b m)]
        ∧ lockOf t b m = (if (lockOf s b m).isSome then lockOf s b m else some p)
        ∧ ∀ b' m', (b', m') ≠ (b.val, m.val) → b' < 2 → m' < 32 → lockOf t b' m' = lockOf s b' m'))
  ∧ ∀ (t : State) (p a : Nat) (w : Word), snapRun t p = some ⟨[(a + 4, w)], a⟩ → accessError t (a + 4) = none →
      a / 0x10000 ≠ 0x0A → (hostRead p (a + 4) t).2.1 = w

/-- A word accepted at SEAM_REF sets REF only at a root that no context is routed to and that is not REMOTE; one at SEAM_OFS sets
OFS only where no context is routed to it (R24); else nothing changes, and no flag sets. The other bits stay, and nothing
else changes but the SNAP run of the port. A word with EN = 1 sets SEAM_CTL.EN, unless the seam is a root whose enable the
mode does not accept: then DISCARDED sets with port and address (R298). A word with EN = 0 clears the enable at once, and
the seam is no longer in effect (R25). Block 00 holds no seam and ignores each (R18). That EN = 1 waits for the seam's next period
start while EN = 0 ends the seam in mid-period is the model's reading (log entry 41). -/
def Obligations.SeamWrites : Prop :=
  ∀ (s : State) (n : Fin 64) (w : PortWrite),
    (Accepts s w.port (R.SEAM_REF n) →
      ∃ t, exec (.seamRefWrite n w) s = .next t ∧ PortRegs w.port [R.SEAM_REF n] s t
        ∧ t.word (R.SEAM_REF n) =
          (if n ≠ 0 ∧ s.on (R.SEAM_REF_ROOT n) = true ∧ s.get (R.SEAM_REF_SRC_CTX n) = 0
                ∧ s.on (R.SEAM_DESC_REMOTE n) = false
           then setBits (s.word (R.SEAM_REF n)) 0 16 (bitsOf w.data 0 16) else s.word (R.SEAM_REF n)))
    ∧ (Accepts s w.port (R.SEAM_OFS n) →
      ∃ t, exec (.seamOfsWrite n w) s = .next t ∧ PortRegs w.port [R.SEAM_OFS n] s t
        ∧ t.word (R.SEAM_OFS n) =
          (if n ≠ 0 ∧ s.get (R.SEAM_OFS_SRC_CTX n) = 0
           then setBits (s.word (R.SEAM_OFS n)) 0 16 (bitsOf w.data 0 16) else s.word (R.SEAM_OFS n)))
    ∧ (Accepts s w.port (R.SEAM_CTL n) → n ≠ 0 → bitsOf w.data 0 1 = 1 →
      ((s.on (R.SEAM_REF_ROOT n) = false ∨ rootEnableAccepted s n = true) →
        ∃ t, exec (.seamEnWrite n w) s = .next t ∧ PortRegs w.port [R.SEAM_CTL n] s t ∧ t.on (R.SEAM_CTL_EN n) = true)
      ∧ (s.on (R.SEAM_REF_ROOT n) = true → rootEnableAccepted s n = false →
        ∃ t, exec (.seamEnWrite n w) s = .next t ∧ PortRegs w.port [R.HST_STAT, R.HST_ERRADDR] s t
          ∧ t.on R.HST_STAT_DISCARDED = true ∧ t.get R.HST_STAT_LPORT = w.port % 8
          ∧ t.get R.HST_ERRADDR_ADDR = R.SEAM_CTL n))
    ∧ (Accepts s w.port (R.SEAM_CTL n) → n ≠ 0 → bitsOf w.data 0 1 = 0 →
      exec (.seamEnWrite n w) s = .next (dropEnable n (endRun w.port s))
        ∧ (dropEnable n (endRun w.port s)).on (R.SEAM_CTL_EN n) = false
        ∧ n.val ∉ (dropEnable n (endRun w.port s)).enabled)
    ∧ (Accepts s w.port (R.SEAM_CTL 0) → exec (.seamEnWrite 0 w) s = .next (endRun w.port s))

/-- For each command of PAT_CTL: with a wrong GUARD the reason is GUARD (1); with the right one while BUSY is 1, BUSY (2), ABORT
of a stream or of a verify-only run apart; LOAD outside READY, FITTING and BASTING and SEAL_MTR outside FITTING give MODE (3);
LOAD_STAGED and the commits with no staged image give NOT_STAGED (4); STREAM_BEGIN with a length that is not a multiple of
4 or outside 264 to 1,048,576 gives LENGTH (6). PAT_STAT takes the reason and DONE; no other register and no other state
changes, but what the fabric follows: ports that may no longer run and FAB_AGREE (`syncFabric`, the identity where every port
that is not DOWN runs and FAB_AGREE stands as R353 has it). -/
def Obligations.PatternRefusals : Prop :=
  ∀ (s : State) (c : PortCmd), Accepts s c.port R.PAT_CTL →
    let refused := fun (e : Nat) (i : Instr) => ∃ t, exec i s = .next (syncFabric t)
      ∧ PortRegs c.port [R.PAT_STAT] s t ∧ t.word R.PAT_STAT = setBits (setBits (s.word R.PAT_STAT) 8 8 e) 20 1 1
      ∧ ((∀ p ∈ fabPorts s, portState s p ≠ pDOWN → portRuns s p = true) → agreed s = true → exec i s = .next t)
    let all : List Instr := [.streamBegin c, .verifyA c, .verifyB c, .loadStaged c, .loadA c, .loadB c, .commitA c, .commitB c,
      .selectA c, .selectB c, .confirm c, .sealMtr c]
    let loads : List Instr := [.loadStaged c, .loadA c, .loadB c]
    (c.guard.toNat ≠ 0x5A7E → (∀ i ∈ all, refused 1 i) ∧ refused 1 (.abort c))
    ∧ (c.guard.toNat = 0x5A7E → s.on R.PAT_STAT_BUSY = true →
        (∀ i ∈ all, refused 2 i) ∧ (abortable s.pat.work = false → refused 2 (.abort c)))
    ∧ (c.guard.toNat = 0x5A7E → s.on R.PAT_STAT_BUSY = false →
        (mode s ≠ mREADY → mode s ≠ mFITTING → mode s ≠ mBASTING → ∀ i ∈ loads, refused 3 i)
        ∧ (mode s ≠ mFITTING → refused 3 (.sealMtr c))
        ∧ (mode s = mFITTING → s.on R.PAT_STAT_STAGED = false →
            refused 4 (.loadStaged c) ∧ refused 4 (.commitA c) ∧ refused 4 (.commitB c))
        ∧ (mode s = mFITTING → s.part.isM = true → (s.pat.mtr = none ∨ s.on R.MTR_STAT_CALDIRTY = true) → refused 5 (.sealMtr c))
        ∧ (s.get R.PAT_LEN_LENGTH % 4 ≠ 0 ∨ s.get R.PAT_LEN_LENGTH < 264 ∨ 1048576 < s.get R.PAT_LEN_LENGTH →
            refused 6 (.streamBegin c)))

/-- With the right GUARD, the manager not BUSY and no verification in the signing engine's queue: STREAM_BEGIN with a legal length
empties staging and opens a stream of that length, BUSY; VERIFY_A and VERIFY_B begin a verify-only run of their slot and LOAD_A
and LOAD_B, in READY, FITTING or BASTING, a verification that loads, BUSY; LOAD_STAGED of a verified image that the seal admits, in
BASTING with the group off, begins its apply and asks for the group (R307), with the group on goes on with step 1 of the apply, and
behind a power-down waits for its end; a
COMMIT in FITTING or BASTING erases the VALID mark of its slot first, BUSY; SELECT makes its slot the active one, DONE; CONFIRM of a host
load that waits sets CONFIRMED, FAILS 0, CODE NONE or FALLBACK and the load's slot, and leaves BASTING for READY, or for SAFE_OFF while
the hem latch is set; of a start that awaits it, ends the start as SUCCEEDED; with nothing awaiting only DONE sets (R61); SEAL_MTR in FITTING stores VER and CRC of the applied section, seals, and counts, DONE; ABORT of a
stream or verify-only run empties staging and leaves the manager idle, DONE, slots as they were. CMD_ERR is then 0 (NONE). Fabric
ports that may no longer run go DOWN with it (`syncFabric`, Table 18.3). That BUSY stands from STREAM_BEGIN to the end of the
stream's verification is the model's choice (log entry 42), as is what a load's confirmation leaves in PWR_BOOT_CAUSE and that an
expiry's start waits for the work in progress (log entry 47; `late` is false here). -/
def Obligations.PatternCommands : Prop :=
  ∀ (s : State) (c : PortCmd), Accepts s c.port R.PAT_CTL → c.guard.toNat = 0x5A7E →
    (s.on R.PAT_STAT_BUSY = false → s.idn.queue.any (·.isVerify) = false →
      (s.get R.PAT_LEN_LENGTH % 4 = 0 → 264 ≤ s.get R.PAT_LEN_LENGTH → s.get R.PAT_LEN_LENGTH ≤ 1048576 →
        ∃ t, exec (.streamBegin c) s = .next (syncFabric t) ∧ RegsOutside [R.PAT_STAT] s t
          ∧ t = { endRun c.port s with
              regs := t.regs, pat := { s.pat with staging := ⟨false, []⟩, work := .stream (s.get R.PAT_LEN_LENGTH) } }
          ∧ t.on R.PAT_STAT_BUSY = true ∧ t.on R.PAT_STAT_STAGED = false ∧ t.get R.PAT_STAT_CMD_ERR = 0)
      ∧ (∃ t, exec (.verifyA c) s = .next (syncFabric t) ∧ t.pat = { s.pat with work := .verifyOnly .slotA }
          ∧ t.on R.PAT_STAT_BUSY = true ∧ t.get R.PAT_STAT_CMD_ERR = 0)
      ∧ (∃ t, exec (.verifyB c) s = .next (syncFabric t) ∧ t.pat = { s.pat with work := .verifyOnly .slotB }
          ∧ t.on R.PAT_STAT_BUSY = true ∧ t.get R.PAT_STAT_CMD_ERR = 0)
      ∧ ((mode s = mREADY ∨ mode s = mFITTING ∨ mode s = mBASTING) → s.pat.start ≠ .await →
          (∃ t, exec (.loadA c) s = .next (syncFabric t) ∧ t.pat = { s.pat with work := .verifyLoad .slotA }
            ∧ t.on R.PAT_STAT_BUSY = true ∧ t.get R.PAT_STAT_CMD_ERR = 0)
          ∧ (∃ t, exec (.loadB c) s = .next (syncFabric t) ∧ t.pat = { s.pat with work := .verifyLoad .slotB }
            ∧ t.on R.PAT_STAT_BUSY = true ∧ t.get R.PAT_STAT_CMD_ERR = 0)
          ∧ (s.on R.PAT_STAT_STAGED = true → step8 s s.pat.staging.bytes = none →
            (s.pwr.downTo ≠ none →
              ∃ t, exec (.loadStaged c) s = .next (syncFabric t) ∧ t.pat = { s.pat with work := .apply .staging }
                ∧ t.pwr = s.pwr ∧ t.on R.PAT_STAT_BUSY = true ∧ RegsOutside [R.PAT_STAT] s t)
            ∧ (mode s = mBASTING → groupOn s = false → s.pwr.downTo = none →
              ∃ t, exec (.loadStaged c) s = .next (syncFabric t) ∧ RegsOutside [R.PAT_STAT, R.PWR_MODE] s t
                ∧ t = { endRun c.port s with
                    regs := t.regs, pat := { s.pat with
                          work := .apply .staging }, pwr := { s.pwr with groupOn := true } }
                ∧ t.on R.PAT_STAT_BUSY = true ∧ t.on R.PWR_MODE_BUSY = true)
            ∧ (groupOn s = true → s.pwr.downTo = none →
              ∃ u, exec (.loadStaged c) s = .next (syncFabric (stepOne s.pat.staging.bytes u)) ∧ RegsOutside [R.PAT_STAT] s u
                ∧ u = { endRun c.port s with
                    regs := u.regs, pat := { s.pat with work := .apply .staging, loadWait := false } }
                ∧ u.on R.PAT_STAT_BUSY = true ∧ u.get R.PAT_STAT_CMD_ERR = 0)))
      ∧ ((mode s = mFITTING ∨ mode s = mBASTING) → s.on R.PAT_STAT_STAGED = true →
          (∃ t, exec (.commitA c) s = .next (syncFabric t) ∧ RegsOutside [R.PAT_STAT, R.PAT_SLOT 0] s t
            ∧ t = { endRun c.port s with
                  regs := t.regs, pat := { s.pat with work := .commit .slotA, slotA := ⟨false, []⟩ } }
            ∧ t.on R.PAT_STAT_BUSY = true ∧ t.on (R.PAT_SLOT_VALID 0) = false ∧ t.get (R.PAT_SLOT_LEN 0) = 0)
          ∧ (∃ t, exec (.commitB c) s = .next (syncFabric t) ∧ RegsOutside [R.PAT_STAT, R.PAT_SLOT 1] s t
            ∧ t = { endRun c.port s with
                  regs := t.regs, pat := { s.pat with work := .commit .slotB, slotB := ⟨false, []⟩ } }
            ∧ t.on R.PAT_STAT_BUSY = true ∧ t.on (R.PAT_SLOT_VALID 1) = false ∧ t.get (R.PAT_SLOT_LEN 1) = 0))
      ∧ (∃ t, exec (.selectA c) s = .next (syncFabric t) ∧ PortRegs c.port [R.PAT_STAT] s t
          ∧ t.get R.PAT_STAT_ACTIVE = 0 ∧ t.on R.PAT_STAT_DONE = true ∧ t.get R.PAT_STAT_CMD_ERR = 0)
      ∧ (∃ t, exec (.selectB c) s = .next (syncFabric t) ∧ PortRegs c.port [R.PAT_STAT] s t
          ∧ t.get R.PAT_STAT_ACTIVE = 1 ∧ t.on R.PAT_STAT_DONE = true ∧ t.get R.PAT_STAT_CMD_ERR = 0)
      ∧ (s.pat.loadWait = true →
          ∃ t, exec (.confirm c) s = .next (syncFabric t) ∧ t.on R.PAT_STAT_CONFIRMED = true ∧ t.on R.PAT_STAT_DONE = true
            ∧ t.get R.PWR_BOOT_CAUSE_FAILS = 0 ∧ t.on R.PWR_BOOT_CAUSE_BASTING = false
            ∧ t.get R.PWR_BOOT_CAUSE_CODE = (if s.on R.PAT_STAT_FALLBACK then 1 else 0)
            ∧ t.get R.PWR_BOOT_CAUSE_SLOT = s.get R.PAT_STAT_SOURCE % 2 ^ R.PWR_BOOT_CAUSE_SLOT.wd
            ∧ t.pat = { s.pat with
                  loadWait := false, late := false, undone := false, start := .none, openMark := false }
            ∧ mode t = (if mode s = mBASTING then (if s.on R.SAF_STAT_LATCH then mSAFEOFF else mREADY) else mode s))
      ∧ (s.pat.loadWait = false → s.pat.start = .await →
          ∃ t, exec (.confirm c) s = .next (syncFabric t) ∧ RegsOutside [R.PAT_STAT, R.PWR_STAT, R.PWR_BOOT_CAUSE] s t
            ∧ t.on R.PAT_STAT_CONFIRMED = true ∧ t.on R.PAT_STAT_DONE = true ∧ t.on R.PWR_STAT_STARTING = false
            ∧ t.get R.PWR_BOOT_CAUSE_FAILS = 0
            ∧ t = { endRun c.port s with
                regs := t.regs, pat := { s.pat with undone := false, start := .none, openMark := false } }
            ∧ (s.pat.undone = false →
                t.get R.PWR_BOOT_CAUSE_CODE = (if s.on R.PWR_BOOT_CAUSE_FALLBACK then 1 else 0)))
      ∧ (s.pat.loadWait = false → s.pat.start ≠ .await →
          ∃ t, exec (.confirm c) s = .next (syncFabric t) ∧ PortRegs c.port [R.PAT_STAT] s t
            ∧ t.word R.PAT_STAT = setBits (setBits (s.word R.PAT_STAT) 8 8 0) 20 1 1)
      ∧ (∀ v crc, s.pat.mtr = some (v, crc) → mode s = mFITTING → s.part.isM = true → s.on R.MTR_STAT_CALDIRTY = false →
          ∃ t, exec (.sealMtr c) s = .next (syncFabric t) ∧ RegsOutside [R.PAT_STAT, R.PAT_SEAL, R.PAT_SEALCRC, R.PAT_SEALCNT] s t
            ∧ t.get R.PAT_STAT_SEAL = 2 ∧ t.get R.PAT_SEAL_MTR_VER = v % 2 ^ R.PAT_SEAL_MTR_VER.wd
            ∧ t.get R.PAT_SEALCRC_CRC = crc % 2 ^ 32 ∧ t.on R.PAT_STAT_DONE = true
            ∧ t.get R.PAT_SEALCNT_CNT = (s.get R.PAT_SEALCNT_CNT + 1) % 2 ^ R.PAT_SEALCNT_CNT.wd
            ∧ t = { endRun c.port s with regs := t.regs, mirrors := t.mirrors } ∧ Mirror.seal ∈ t.mirrors))
    ∧ (abortable s.pat.work = true → s.pat.late = false →
        ∃ t, exec (.abort c) s = .next (syncFabric t) ∧ t.pat = { s.pat with staging := ⟨false, []⟩, work := .idle }
          ∧ t.on R.PAT_STAT_BUSY = false ∧ t.on R.PAT_STAT_STAGED = false ∧ t.on R.PAT_STAT_DONE = true
          ∧ t.get R.PAT_STAT_CMD_ERR = 0)

/-- A word accepted at PAT_STREAM appends its four bytes to staging while a stream is open, and the last one begins the
verification of staging (R56); with no stream open it is discarded, DISCARDED with port and address. A commit ends with the
image and VALID in its slot, BUSY 0 and DONE (R57); a start that waited for its end, the window of a load having run out, then
begins (R62). That a start waits for the end of a commit is the model's reading (log entry 47), and that BUSY stands until the
stream's verification has ended its choice (log entry 42). -/
def Obligations.PatternStreams : Prop :=
  (∀ (w : PortWrite) (s : State), Accepts s w.port R.PAT_STREAM →
    (∀ len, s.pat.work = .stream len →
      let bs := s.pat.staging.bytes ++ leBytes 4 w.data.toNat
      (bs.length < len → exec (.patStreamWrite w) s =
          .next { endRun w.port s with pat := { s.pat with staging := ⟨false, bs⟩ } })
      ∧ (len ≤ bs.length →
          ∃ t, exec (.patStreamWrite w) s = .next t ∧ RegsOutside [R.PAT_STAT, R.IDN_STAT] s t ∧ t.on R.PAT_STAT_BUSY = true
            ∧ t = { endRun w.port s with
                regs := t.regs, idn := t.idn, pat := { s.pat with
                      staging := ⟨false, bs⟩, work := .verifyOnly .staging } }))
    ∧ ((∀ len, s.pat.work ≠ .stream len) →
        ∃ t, exec (.patStreamWrite w) s = .next t ∧ PortRegs w.port [R.HST_STAT, R.HST_ERRADDR] s t
          ∧ t.on R.HST_STAT_DISCARDED = true ∧ t.get R.HST_ERRADDR_ADDR = R.PAT_STREAM))
  ∧ (∀ s : State,
    (s.pat.work = .commit .slotA →
      ∃ t, exec .patCommitDone s = .next (if s.pat.late then startAfterExpiry t else t)
        ∧ RegsOutside [R.PAT_STAT, R.PAT_SLOT 0, R.IDN_STAT] s t
        ∧ t = { s with
            regs := t.regs, idn := t.idn, pat := { s.pat with slotA := ⟨true, s.pat.staging.bytes⟩, work := .idle } }
        ∧ t.on (R.PAT_SLOT_VALID 0) = true ∧ t.on R.PAT_STAT_BUSY = false ∧ t.on R.PAT_STAT_DONE = true
        ∧ t.get (R.PAT_SLOT_LEN 0) = s.pat.staging.bytes.length % 2 ^ (R.PAT_SLOT_LEN 0).wd)
    ∧ (s.pat.work = .commit .slotB →
      ∃ t, exec .patCommitDone s = .next (if s.pat.late then startAfterExpiry t else t)
        ∧ RegsOutside [R.PAT_STAT, R.PAT_SLOT 1, R.IDN_STAT] s t
        ∧ t = { s with
            regs := t.regs, idn := t.idn, pat := { s.pat with slotB := ⟨true, s.pat.staging.bytes⟩, work := .idle } }
        ∧ t.on (R.PAT_SLOT_VALID 1) = true ∧ t.on R.PAT_STAT_BUSY = false ∧ t.on R.PAT_STAT_DONE = true
        ∧ t.get (R.PAT_SLOT_LEN 1) = s.pat.staging.bytes.length % 2 ^ (R.PAT_SLOT_LEN 1).wd))

/-- With PD3 on: a verify-only run, or a load whose image fails, ends with DONE, BUSY 0, PAT_ERR with code and offset on a failure
and as it was on a pass, slots as they were, and STAGED on a staged image that passes; a start that waited for its end then
begins (R62). A load that passes goes on to its apply. A start whose active slot fails shows its code and verifies the other
slot; one that passes shows the code 0 and goes on to its apply. A start whose other slot fails too has FAILED: FAILS counts,
CODE is NO_IMAGE where both slots read SLOT_BLANK and VERIFY_FAILED else, STARTING and LOADED are 0 and the manager is idle; with
FAILS below 3 the mode stays, SFAIL set in SAFE_OFF, and with FAILS 3 the module goes to BASTING, by a power-down where the group
is on, and after a discharge that runs. Fabric ports that may no longer run go DOWN with it. That a passing attempt shows 0 in
ERR_A or ERR_B is the model's reading (log entry 44), as is that a start waits for the end of a run (log entry 47) and that the
power-down comes before BASTING (log entry 27). -/
def Obligations.PatternVerifications : Prop :=
  ∀ s : State, domOn s 3 = true →
    (∀ src, (s.pat.work = .verifyOnly src ∨ s.pat.work = .verifyLoad src ∧ (verdictOf src s).code ≠ 0) →
      let v := verdictOf src s
      ∃ u, exec .patVerifyDone s = .next (syncFabric (if s.pat.late then startAfterExpiry u else u))
        ∧ RegsOutside [R.PAT_STAT, R.PAT_ERR, R.SEAM_CHK, R.IDN_STAT] s u
        ∧ u = { s with
            regs := u.regs, idn := u.idn,
            pat := { s.pat with
              work := .idle,
              staging := if v.code = 0 ∧ src = .staging then ⟨true, s.pat.staging.bytes⟩ else s.pat.staging } }
        ∧ u.on R.PAT_STAT_BUSY = false ∧ u.on R.PAT_STAT_DONE = true
        ∧ (v.code ≠ 0 → u.get R.PAT_ERR_CODE = v.code % 2 ^ R.PAT_ERR_CODE.wd
            ∧ u.get R.PAT_ERR_OFFSET = v.offset % 2 ^ R.PAT_ERR_OFFSET.wd)
        ∧ (v.code = 0 → u.word R.PAT_ERR = s.word R.PAT_ERR)
        ∧ (v.code = 0 → src = .staging → u.on R.PAT_STAT_STAGED = true))
    ∧ (∀ src, s.pat.work = .verifyLoad src → (verdictOf src s).code = 0 →
        ∃ u, exec .patVerifyDone s = .next (syncFabric (beginApply src u)) ∧ OnlyRegs [R.SEAM_CHK] s u)
    ∧ (∀ src, s.pat.work = .verifyStart src → (verdictOf src s).code = 0 →
        ∃ u, exec .patVerifyDone s = .next (syncFabric (beginApply src u)) ∧ OnlyRegs [R.SEAM_CHK, R.PWR_BOOT_CAUSE] s u
          ∧ (src = .slotA → u.get R.PWR_BOOT_CAUSE_ERR_A = 0) ∧ (src = .slotB → u.get R.PWR_BOOT_CAUSE_ERR_B = 0)
          ∧ u.get R.PWR_BOOT_CAUSE_FAILS = s.get R.PWR_BOOT_CAUSE_FAILS ∧ u.get R.PWR_BOOT_CAUSE_CODE = s.get R.PWR_BOOT_CAUSE_CODE)
    ∧ (∀ src, s.pat.start = .tryOther → s.pat.work = .verifyStart src → src ≠ .staging → (verdictOf src s).code ≠ 0 →
        s.get R.PWR_BOOT_CAUSE_FAILS < 3 →
      let c := (verdictOf src s).code % 256
      let errA := if src = .slotA then c else s.get R.PWR_BOOT_CAUSE_ERR_A
      let errB := if src = .slotB then c else s.get R.PWR_BOOT_CAUSE_ERR_B
      ∃ u, exec .patVerifyDone s = .next (syncFabric u) ∧ u.get R.PWR_BOOT_CAUSE_ERR_A = errA
        ∧ u.get R.PWR_BOOT_CAUSE_ERR_B = errB ∧ u.get R.PWR_BOOT_CAUSE_FAILS = s.get R.PWR_BOOT_CAUSE_FAILS + 1
        ∧ u.get R.PWR_BOOT_CAUSE_CODE = (if errA = eSLOT_BLANK ∧ errB = eSLOT_BLANK then 0x11 else 0x12)
        ∧ u.on R.PWR_STAT_STARTING = false ∧ u.on R.PAT_STAT_LOADED = false ∧ u.on R.PAT_STAT_BUSY = false
        ∧ u.pat = { s.pat with work := .idle, start := .none, openMark := false }
        ∧ (s.get R.PWR_BOOT_CAUSE_FAILS < 2 → mode u = mode s ∧ (mode s = mSAFEOFF → u.on R.PWR_STAT_SFAIL = true))
        ∧ (s.get R.PWR_BOOT_CAUSE_FAILS = 2 → u.on R.PWR_BOOT_CAUSE_BASTING = true
            ∧ (mode s = mDISCHARGE → mode u = mDISCHARGE ∧ u.pwr.disBasting = true)
            ∧ (mode s ≠ mDISCHARGE → groupOn s = true → u.pwr.downTo = some mBASTING)
            ∧ (mode s ≠ mDISCHARGE → groupOn s = false → mode u = mBASTING)))
    ∧ (s.pat.start = .tryActive →
      (s.pat.work = .verifyStart .slotA → (verdictOf .slotA s).code ≠ 0 →
        ∃ u, exec .patVerifyDone s = .next (syncFabric u)
          ∧ RegsOutside [R.PAT_STAT, R.PAT_ERR, R.SEAM_CHK, R.IDN_STAT, R.PWR_BOOT_CAUSE] s u
          ∧ u = { s with
              regs := u.regs, idn := u.idn, pat := { s.pat with work := .verifyStart .slotB, start := .tryOther } }
          ∧ u.get R.PWR_BOOT_CAUSE_ERR_A = (verdictOf .slotA s).code % 2 ^ R.PWR_BOOT_CAUSE_ERR_A.wd)
      ∧ (s.pat.work = .verifyStart .slotB → (verdictOf .slotB s).code ≠ 0 →
        ∃ u, exec .patVerifyDone s = .next (syncFabric u)
          ∧ RegsOutside [R.PAT_STAT, R.PAT_ERR, R.SEAM_CHK, R.IDN_STAT, R.PWR_BOOT_CAUSE] s u
          ∧ u = { s with
              regs := u.regs, idn := u.idn, pat := { s.pat with work := .verifyStart .slotA, start := .tryOther } }
          ∧ u.get R.PWR_BOOT_CAUSE_ERR_B = (verdictOf .slotB s).code % 2 ^ R.PWR_BOOT_CAUSE_ERR_B.wd))

/-- An apply ends with LOADED, SOURCE, identity, version and digest of its image, APPLYING 0; a start then awaits confirmation, a
host load waits for CONFIRM unless its window is 0. A host load whose window runs out is undone at once: LOADED and CONFIRMED 0,
SOURCE 3; outside BASTING CODE is 0x13 and a start begins, after ABORT's end of a stream or of a verify-only run, and at the end of any
other work in progress; in BASTING the group powers down (R307), and in a discharge that began there it waits for the discharge.
A start whose window runs out has failed: FAILS, CODE 0x13, unloaded; with FAILS 3 the module goes to BASTING. A start begins by
verifying the active slot, or goes to BASTING with KEY_UNSET where the fuses are blank. That the start waits for the work in
progress is the model's reading (log entry 47). -/
def Obligations.PatternStarts : Prop :=
  (∀ (src : Source) (s : State), s.pat.work = .apply src → s.on R.PAT_STAT_APPLYING = true → groupOn s = true →
    let bs := (imageOf s src).bytes
    ∃ u, exec .patApplyDone s =
        .next (applied src (leField bs 0x0E 1) (drainAll (syncRoutes (syncFabric u))))
      ∧ u.on R.PAT_STAT_LOADED = true ∧ u.on R.PAT_STAT_APPLYING = false ∧ u.get R.PAT_STAT_SOURCE = sourceCode src
      ∧ u.on R.MTR_STAT_CALDIRTY = false ∧ u.pat.mtr = mtrOf bs ∧ u.pat.safeVer = safeVerOf bs
      ∧ u.get R.PAT_IMGID_ID = leField bs 0x10 4 ∧ u.get R.PAT_IMGVER_VER = leField bs 0x14 4
      ∧ ∀ e ∈ (shaDigest (signedPart bs)).zip (List.range 8), u.word (R.PAT_DIGEST e.2) = e.1)
  ∧ (∀ (src : Source) (win : Nat) (x : State), win ≠ 0 →
    (x.pat.start = .tryActive ∨ x.pat.start = .tryOther →
      (applied src win x).pat = { x.pat with start := .await, work := .idle }
        ∧ (applied src win x).on R.PWR_BOOT_CAUSE_FALLBACK = (x.pat.start == .tryOther)
        ∧ (applied src win x).get R.PWR_BOOT_CAUSE_SLOT = sourceCode src ∧ (applied src win x).on R.PAT_STAT_BUSY = false)
    ∧ (x.pat.start = .none → x.pat.late = false →
      (applied src win x).pat = { x.pat with work := .idle, loadWait := true }
        ∧ (applied src win x).on R.PAT_STAT_BUSY = false ∧ (applied src win x).on R.PAT_STAT_DONE = true))
  ∧ (∀ s : State,
    let undone := fun (u : State) => u.on R.PAT_STAT_LOADED = false ∧ u.on R.PAT_STAT_CONFIRMED = false
      ∧ u.get R.PAT_STAT_SOURCE = 3
    (s.pat.loadWait = true → inBasting s = false →
      (s.pat.work = .idle →
        ∃ u, exec .confirmWinExpire s = .next (syncFabric (startAfterExpiry u)) ∧ undone u
          ∧ u.get R.PWR_BOOT_CAUSE_CODE = 0x13 ∧ u.pat = { s.pat with loadWait := false })
      ∧ ((∃ len, s.pat.work = .stream len) ∨ (∃ src, s.pat.work = .verifyOnly src) →
        ∃ u, exec .confirmWinExpire s = .next (syncFabric (startAfterExpiry u)) ∧ undone u
          ∧ u.get R.PWR_BOOT_CAUSE_CODE = 0x13 ∧ u.on R.PAT_STAT_BUSY = false ∧ u.on R.PAT_STAT_DONE = true
          ∧ u.on R.PAT_STAT_STAGED = false
          ∧ u.pat = { s.pat with loadWait := false, late := true, work := .idle, staging := ⟨false, []⟩ })
      ∧ (∀ src, (s.pat.work = .verifyLoad src ∨ s.pat.work = .verifyStart src ∨ s.pat.work = .apply src
            ∨ s.pat.work = .commit src) →
        ∃ u, exec .confirmWinExpire s = .next (syncFabric u) ∧ undone u ∧ u.get R.PWR_BOOT_CAUSE_CODE = 0x13
          ∧ u.pat = { s.pat with loadWait := false, late := true }))
    ∧ (s.pat.loadWait = true → mode s = mBASTING →
        ∃ u, exec .confirmWinExpire s = .next (syncFabric u) ∧ undone u ∧ u.pat = { s.pat with loadWait := false }
          ∧ (groupOn s = true → s.pwr.downTo = none → u.pwr.downTo = some mBASTING)
          ∧ (groupOn s = false ∨ s.pwr.downTo ≠ none → u.pwr = s.pwr))
    ∧ (s.pat.loadWait = true → mode s = mDISCHARGE → s.pwr.disFrom = mBASTING →
        ∃ u, exec .confirmWinExpire s = .next (syncFabric u) ∧ undone u ∧ u.pat = { s.pat with loadWait := false }
          ∧ u.pwr = s.pwr ∧ mode u = mDISCHARGE)
    ∧ (s.pat.loadWait = false → s.pat.start = .await → s.on R.PAT_STAT_LOADED = true → s.get R.PWR_BOOT_CAUSE_FAILS < 3 →
      ∃ u, exec .confirmWinExpire s = .next (syncFabric u) ∧ undone u
        ∧ u.get R.PWR_BOOT_CAUSE_FAILS = s.get R.PWR_BOOT_CAUSE_FAILS + 1 ∧ u.get R.PWR_BOOT_CAUSE_CODE = 0x13
        ∧ u.on R.PWR_STAT_STARTING = false ∧ u.pat = { s.pat with start := .none, openMark := false }
        ∧ (s.get R.PWR_BOOT_CAUSE_FAILS = 2 → u.on R.PWR_BOOT_CAUSE_BASTING = true)
        ∧ (s.get R.PWR_BOOT_CAUSE_FAILS < 2 → mode u = mode s ∧ (mode s = mSAFEOFF → u.on R.PWR_STAT_SFAIL = true))))
  ∧ ∀ s : State, s.pwr.startDue = true → domOn s 1 = true → domOn s 3 = true → s.on R.PWR_STAT_RESTPEND = false →
    ((s.on R.IDN_STAT_KEYSET = true ∨ s.on R.IDN_STAT_KFAIL = true) → s.pat.openMark = false →
        s.get R.PWR_BOOT_CAUSE_FAILS ≠ 3 →
      ∃ t, exec .startBegin s = .next t ∧ RegsOutside [R.PWR_STAT, R.PWR_BOOT_CAUSE, R.PAT_STAT, R.IDN_STAT] s t
        ∧ t.on R.PWR_STAT_STARTING = true ∧ t.on R.PWR_STAT_SFAIL = false ∧ t.get R.PWR_BOOT_CAUSE_SLOT = 3
        ∧ t.on R.PWR_BOOT_CAUSE_BASTING = false ∧ t.on R.PWR_BOOT_CAUSE_FALLBACK = false ∧ t.on R.PAT_STAT_BUSY = true
        ∧ t.pat = { s.pat with
            start := .tryActive, openMark := true, work := .verifyStart (slotNamed (s.get R.PAT_STAT_ACTIVE)) }
        ∧ t = { s with regs := t.regs, pat := t.pat, idn := t.idn, pwr := { s.pwr with startDue := false } })
    ∧ (s.on R.IDN_STAT_KEYSET = false → s.on R.IDN_STAT_KFAIL = false → groupOn s = false → mode s ≠ mDISCHARGE →
      ∃ t, exec .startBegin s = .next t ∧ mode t = mBASTING ∧ t.get R.PWR_BOOT_CAUSE_CODE = 0x16
        ∧ t.on R.PWR_BOOT_CAUSE_BASTING = true ∧ t.on R.PWR_STAT_STARTING = false
        ∧ t.pat = { s.pat with start := .none, openMark := false })

/-- What a command symbol does at a dielet that is on the part (R68, R70, R76): in RUN or IDLE, not retired, OFF turns both
gates off and an invalid code sends the stitch to Hi-Z with cause XCMD (0x0D) and an alert. The gates last turned off and
coming on are kept for the attribution of edges (R73). In RUN, driving, LOW leaves a
GL that is on or incoming alone, turns an on GH off with GL incoming, and with both gates off makes GL incoming, or starts
it where GH was incoming; HIGH does the same with the gates exchanged, a GH that starts at once being checked against the
bootstrap. GATE_TURN_ON starts the incoming gate. Nothing but this dielet differs. -/
def Obligations.GateSymbols : Prop :=
  ∀ (n : Fin 96) (s : State), stitchThere s n = true →
    let off := fun (d : Dielet) => { d with
      gh := false, gl := false, incoming := none, inG := none,
      outG := if d.gh then some .high else if d.gl then some .low else d.outG }
    let hiz := fun (c : Nat) (d : Dielet) => { off d with
      st := .hiz, cause := c, clamp := false, topup := false, verify := false, alerts := d.alerts ++ [c] }
    (((dielet s n).st = .run ∨ (dielet s n).st = .idle) → (dielet s n).mode = none →
      (∃ t, exec (.symbolOff n) s = .next t ∧ OnlyDielet n s t
        ∧ dielet t n = off (dielet s n))
      ∧ (∃ t, exec (.symbolInvalid n) s = .next t ∧ OnlyDielet n s t
        ∧ dielet t n = hiz 0x0D (dielet s n)))
    ∧ (drives (dielet s n) = true →
      (∃ t, exec (.symbolLow n) s = .next t ∧ OnlyDielet n s t
        ∧ dielet t n =
          (if (dielet s n).gl = true ∨ (dielet s n).incoming = some .low then dielet s n
           else if (dielet s n).gh = true then { dielet s n with
              gh := false, incoming := some .low, outG := some .high, inG := some .low }
           else if (dielet s n).incoming = some .high then
            { dielet s n with gl := true, incoming := none, inG := some .low }
           else { dielet s n with incoming := some .low, inG := some .low }))
      ∧ ∀ bst : BitVec 7, bstLow (dielet s n) bst.toNat = false →
        ∃ t, exec (.symbolHigh n bst) s = .next t ∧ OnlyDielet n s t
          ∧ dielet t n =
            (if (dielet s n).gh = true ∨ (dielet s n).incoming = some .high then dielet s n
             else if (dielet s n).gl = true then { dielet s n with
                gl := false, incoming := some .high, outG := some .low, inG := some .high }
             else if (dielet s n).incoming = some .low then
              { dielet s n with gh := true, incoming := none, inG := some .high }
             else { dielet s n with incoming := some .high, inG := some .high }))
    ∧ ((dielet s n).hemoff = false → (dielet s n).incoming = some .high → ∀ bst : BitVec 7,
      ∃ t, exec (.gateTurnOn n bst) s = .next t ∧ OnlyDielet n s t
        ∧ dielet t n =
          (if bst.toNat < 30 + dieletField (dielet s n) (R.STI_BST_UV 0) then
            hiz 0x0B (dielet s n)
           else { dielet s n with gh := true, incoming := none }))
    ∧ ((dielet s n).hemoff = false → (dielet s n).incoming = some .low → ∀ bst : BitVec 7,
      ∃ t, exec (.gateTurnOn n bst) s = .next t ∧ OnlyDielet n s t
        ∧ dielet t n = { dielet s n with
              gl := true, incoming := none, inG := some .low, verify := (dielet s n).verify || ((dielet s n).mode ==
              some false && (dielet s n).st != .bypass) })

/-- The monitors of a dielet on the part. A handshake timeout with a gate incoming and a lost downlink while awake send it to
Hi-Z with causes HS_TIMEOUT (0x07) and LINK_DN (0x0E), gates off, alert sent (R70, R82, R87). A detector condition of Table
4.8 sends a stitch in RUN or IDLE, not retired, to Hi-Z with its code (R80; the conditions of a gate need that gate on, that of
VNEG a VNEG that is used); under retirement DSAT_LS with GL on ends in FAULT, BOTH_ON in Hi-Z (R72), and OT only sends its alert (R94).
BST_WARN with GH on sets BSTREQ and sends alert 0x40; 80 ns of GL with the bootstrap restored clears BSTREQ (R77). A Hi-Z
stitch whose cell passes COV_TH, retired or not, clamps with GL on, which comes in, and alert 0x04, unless COVCLAMP or the cause
withholds it (R83). Nothing but the dielet differs. An incomplete edge only counts in STI_EDGECNT (R73); that the controller's
counter counts at the dielet's event is the model's reading (log entry 62). -/
def Obligations.DieletMonitors : Prop :=
  ∀ (n : Fin 96) (s : State), stitchThere s n = true →
    let off := fun (d : Dielet) => { d with
      gh := false, gl := false, incoming := none, inG := none,
      outG := if d.gh then some .high else if d.gl then some .low else d.outG }
    let hiz := fun (c : Nat) (d : Dielet) => { off d with
      st := .hiz, cause := c, clamp := false, topup := false, verify := false, alerts := d.alerts ++ [c] }
    ((dielet s n).incoming ≠ none →
      ∃ t, exec (.handshakeTimeout n) s = .next t ∧ OnlyDielet n s t
        ∧ dielet t n = hiz 0x07 (dielet s n))
    ∧ ((dielet s n).awake = true →
      ∃ t, exec (.downlinkLoss n) s = .next t ∧ OnlyDielet n s t
        ∧ dielet t n = { hiz 0x0E (dielet s n) with lost := true })
    ∧ (∀ c : DieletCause, ((dielet s n).st = .run ∨ (dielet s n).st = .idle) → (dielet s n).mode = none →
      (c = .dsatHs ∨ c = .bstUv → (dielet s n).gh = true) → (c = .dsatLs → (dielet s n).gl = true) →
      (c = .vnegUv → dieletField (dielet s n) (R.STI_GATE_VNEG 0) ≠ 0) →
      ∃ t, exec (.stitchDetector n c) s = .next t ∧ OnlyDielet n s t
        ∧ dielet t n = hiz c.toCode (dielet s n))
    ∧ ((dielet s n).awake = true → (dielet s n).mode ≠ none →
      ((dielet s n).gl = true →
        ∃ t, exec (.stitchDetector n .dsatLs) s = .next t ∧ OnlyDielet n s t
          ∧ dielet t n = { off (dielet s n) with
              st := .fault, cause := 0x02, topup := false, verify := false, alerts := (dielet s n).alerts ++ [0x02] })
      ∧ (∃ t, exec (.stitchDetector n .bothOn) s = .next t ∧ OnlyDielet n s t
          ∧ dielet t n = hiz 0x03 (dielet s n))
      ∧ (∃ t, exec (.stitchDetector n .ot) s = .next t ∧ OnlyDielet n s t
          ∧ dielet t n = { dielet s n with alerts := (dielet s n).alerts ++ [0x0C] }))
    ∧ ((dielet s n).gh = true →
      ∃ t, exec (.bstWarnCross n) s = .next t ∧ OnlyDielet n s t
        ∧ dielet t n = { dielet s n with bstreq := true, alerts := (dielet s n).alerts ++ [0x40] })
    ∧ ((dielet s n).bstreq = true → (dielet s n).gl = true →
      ∃ t, exec (.bstreqClear n false) s = .next t ∧ OnlyDielet n s t
        ∧ dielet t n = { dielet s n with bstreq := false })
    ∧ ((dielet s n).st = .hiz → (dielet s n).clamp = false → (dielet s n).gl = false → (dielet s n).hemoff = false →
      dieletField (dielet s n) (R.STI_CFG_COVCLAMP 0) = 1 →
      causeClass (dielet s n).cause ≠ kDSAT → causeClass (dielet s n).cause ≠ kGUV →
      ∃ t, exec (.covClamp n) s = .next t ∧ OnlyDielet n s t
        ∧ dielet t n = { dielet s n with
              gl := true, clamp := true, inG := some .low, alerts := (dielet s n).alerts ++ [0x04] })
    ∧ ((dielet s n).awake = true →
      ∃ t, exec (.edgeIncomplete n) s = .next t ∧ OnlyRegs [R.STI_EDGECNT n] s t
        ∧ t.get (R.STI_EDGECNT_INCOMP n) = (s.get (R.STI_EDGECNT_INCOMP n) + 1) % 2 ^ (R.STI_EDGECNT_INCOMP n).wd
        ∧ t.get (R.STI_EDGECNT_ADAPT n) = s.get (R.STI_EDGECNT_ADAPT n))

/-- A complete edge at an awake dielet, t quarter nanoseconds long, belongs to a setting k (0 HS_ON, 1 HS_OFF, 2 LS_ON, 3 LS_OFF;
R73): to the turn-on setting of the incoming gate where the node moved after that gate began to turn on, to the turn-off setting of
the gate that turned off where the node moved before, or where no gate comes on. That setting's edge time becomes t and STI_EDGECNT counts it. With err = t − target, the step stays where the setting is frozen or |err| is within
the dead band; else it moves by 4 where 4·|err| exceeds the target and by 1 otherwise, up to the upper bound for a slow
edge, down to the lower bound for a fast one. The other settings keep step and time; nothing else of the dielet, of
another dielet or of another register changes. That the controller's STI_EDGECNT counts at the dielet's event is the model's reading
(log entry 62). -/
def Obligations.StrengthLaw : Prop :=
  (∀ (d : Dielet) (g : Gate),
    (d.inG = some g → d.incoming ≠ some g → attributed d false = some (if g = .high then 0 else 2))
    ∧ (d.outG = some g → (d.inG = none → ∀ early, attributed d early = some (if g = .high then 1 else 3))
        ∧ attributed d true = some (if g = .high then 1 else 3)))
  ∧ ∀ (n : Fin 96) (early : Bool) (k : Nat) (e : BitVec 8) (s : State), stitchThere s n = true →
    (dielet s n).awake = true → attributed (dielet s n) early = some k →
    let d := dielet s n
    let err : Int := (e.toNat : Int) - bitsOf (dieletSetting d 0x18) (8 * k) 8
    let lim := dieletSetting d (if k < 2 then 0x1C else 0x20)
    let smin := bitsOf lim (if k % 2 = 0 then 0 else 16) 6
    let smax := bitsOf lim (if k % 2 = 0 then 8 else 24) 6
    let tgt : Int := bitsOf (dieletSetting d 0x18) (8 * k) 8
    let delta : Int := if tgt < (err.natAbs : Int) * 4 then 4 else 1
    ∃ t, exec (.edgeComplete n early e) s = .next t
      ∧ t = { s with regs := t.regs, dielets := t.dielets } ∧ RegsOutside [R.STI_EDGECNT n] s t
      ∧ t.get (R.STI_EDGECNT_ADAPT n) = (s.get (R.STI_EDGECNT_ADAPT n) + 1) % 2 ^ (R.STI_EDGECNT_ADAPT n).wd
      ∧ (∀ m, m ≠ n.val → dielet t m = dielet s m)
      ∧ dielet t n = { d with edges := (dielet t n).edges, steps := (dielet t n).steps }
      ∧ tget (fun _ => 0) (dielet t n).edges k = e.toNat
      ∧ (∀ j, j ≠ k → tget (fun _ => 0) (dielet t n).edges j = tget (fun _ => 0) d.edges j
          ∧ stepOf (dielet t n) j = stepOf d j)
      ∧ ((tb (dieletField d (R.STI_ADCTL_FRZ 0)) k = true ∨ err.natAbs ≤ dieletField d (R.STI_ADCTL_DB 0)) →
          stepOf (dielet t n) k = stepOf d k)
      ∧ (tb (dieletField d (R.STI_ADCTL_FRZ 0)) k = false → dieletField d (R.STI_ADCTL_DB 0) < err.natAbs →
          (stepOf (dielet t n) k : Int) = if 0 < err then min (stepOf d k + delta) smax else max (stepOf d k - delta) smin)

/-- At a dielet of the part: its cell rising through V_WAKE, or the downlink's idle carrier while PD5 is on, makes an ASLEEP dielet
WAKING (and the first also releases a bleed, R96); its self-test makes it IDLE, or, where RETIRE came to it while it woke, OPEN
or the verification of its bypass (log entry 63, the model's choice), or FAULT with cause 0x11 and an alert; the supply falling below UVLO puts it to ASLEEP with both gates
off, after its last alert: STI-GUV 0x08 from RUN, 0x41 from any other awake state; an absent downlink puts a stitch that has lost it, and WAKING, to
ASLEEP; a downlink found again takes a retired stitch from LINK_DN back to OPEN, or to GL on and its verification (a clamp in force is
the bypass), and leaves any other in HIZ until its RELEASE, a clamp that the hem had suspended holding again; the hem's OFF is heard
again with it and turns both gates off (R90). -/
def Obligations.DieletWaking : Prop :=
  ∀ (n : Fin 96) (s : State), stitchThere s n = true →
    let d := dielet s n
    let off := fun (d : Dielet) => { d with
      gh := false, gl := false, incoming := none, inG := none,
      outG := if d.gh then some .high else if d.gl then some .low else d.outG }
    let asleep : Dielet := { off d with
          st := .asleep, cause := 0, mode := none, clamp := false, topup := false, bstreq := false, otwarn := false,
          verify := false, hemoff := false, bad := 0, lost := false }
    (d.st = .asleep → d.bleed = false →
      ∃ t, exec (.cellWake n) s = .next t ∧ OnlyDielet n s t ∧ dielet t n = { d with st := .waking })
    ∧ (d.st = .asleep → d.bleed = true →
      ∃ t, exec (.cellWake n) s = .next t ∧ dielet t n = { d with st := .waking, bleed := false }
        ∧ (bleedSt t n).ended = some s.cyc ∧ (bleedSt t n).waiting = (bleedSt s n).waiting ∧ t.regs = s.regs)
    ∧ (d.st = .asleep → domOn s 5 = true →
      ∃ t, exec (.dieletIdleWake n) s = .next t ∧ OnlyDielet n s t ∧ dielet t n = { d with st := .waking })
    ∧ (d.st = .waking → domOn s 5 = true → d.mode = none →
      ∃ t, exec (.stitchWakeDone n true) s = .next t ∧ OnlyDielet n s t
        ∧ dielet t n = { d with st := .idle, cause := 0, hemoff := hemActive s })
    ∧ (d.st = .waking → domOn s 5 = true → d.mode = some true →
      ∃ t, exec (.stitchWakeDone n true) s = .next t ∧ OnlyDielet n s t
        ∧ dielet t n = { off d with
            st := .opened, clamp := false, cause := 0, topup := false, verify := false, hemoff := hemActive s })
    ∧ (d.st = .waking → domOn s 5 = true → d.mode = some false → d.clamp = false → d.gh = false → d.incoming = none →
        hemActive s = false →
      ∃ t, exec (.stitchWakeDone n true) s = .next t ∧ OnlyDielet n s t
        ∧ dielet t n = { d with
              st := .idle, cause := 0, gl := true, inG := some .low, verify := true, hemoff := false })
    ∧ (d.st = .waking → domOn s 5 = true →
      ∃ t, exec (.stitchWakeDone n false) s = .next t ∧ OnlyDielet n s t
        ∧ dielet t n = { d with st := .fault, cause := 0x11, hemoff := hemActive s, alerts := d.alerts ++ [0x11] })
    ∧ (d.awake = true →
      ∃ t, exec (.cellUvlo n) s = .next t ∧ OnlyDielet n s t
        ∧ dielet t n = { asleep with alerts := d.alerts ++ [if d.st = .run ∧ d.mode = none then 0x08 else 0x41] })
    ∧ (d.lost = true ∨ d.st = .waking →
      ∃ t, exec (.downlinkAbsentSleep n) s = .next t ∧ OnlyDielet n s t ∧ dielet t n = asleep)
    ∧ (d.lost = true → d.st = .hiz → domOn s 5 = true →
      ∃ t, exec (.linkRetrained n) s = .next t ∧ OnlyDielet n s t
        ∧ (d.mode = some true → dielet t n = { off d with
            lost := false, hemoff := hemActive s, st := .opened, cause := 0, clamp := false, topup := false, verify := false })
        ∧ (hemActive s = true → d.mode ≠ some true → dielet t n = { off d with
            lost := false, hemoff := true, clamp := d.clamp && d.mode.isNone })
        ∧ (hemActive s = false → d.mode = some false → (d.clamp && d.gl) = true → dielet t n = { d with
            lost := false, hemoff := false, clamp := false, st := .bypass, cause := 0 })
        ∧ (hemActive s = false → d.mode = some false → (d.clamp && d.gl) = false → dielet t n = { d with
            lost := false, hemoff := false, clamp := false, gl := true, incoming := none, inG := some .low, verify := true })
        ∧ (hemActive s = false → d.mode = none → (d.clamp && !d.gl) = true → dielet t n = { d with
            lost := false, hemoff := false, gl := true, incoming := none, inG := some .low })
        ∧ (hemActive s = false → d.mode = none → (d.clamp && !d.gl) = false → dielet t n = { d with
            lost := false, hemoff := false }))

/-- At a dielet of the part that is not ASLEEP and hears its downlink, with PD5 on, a frame with a right CRC is accepted (its number is acknowledged next, the
run of bad frames ends) and acts: WRITE loads a setting, and STI_STR the four steps; TICK sets the telemetry count; HOLD sends a
RUN or IDLE stitch that is not retired to Hi-Z with cause 0x10; RELEASE takes a Hi-Z stitch back to IDLE, or, with a cause other
than HOLD still present, only sends its alert again; RETIRE with DATA[0] 1 turns both gates off in OPEN, with 0 and no hem
turns GL on for its verification, GH first off, or makes a clamp in force the bypass, and with 0 under the hem only takes the mode, both
gates off (R90); a WAKING dielet keeps the mode for the end of its self-test, and forgets it on UNRETIRE (log entry 63, the model's
choice); UNRETIRE returns a retired stitch to IDLE; BLEED sets the latch, 10 s after the last
bleed at the soonest, or releases it; SLEEP puts the dielet to ASLEEP. A bad CRC is counted, and the third in a row of an awake
dielet is a lost downlink: Hi-Z, LINK_DN. A dielet that has lost its downlink hears no frame. Nothing but this dielet, its bleed time
and the error counter changes; that STI_LNK.DN_ERR counts at the dielet's event is the model's reading (log entry 62). -/
def Obligations.ManagementFrames : Prop :=
  (∀ (n : Fin 96) (f : MgmtRx) (s : State), (dielet s n).lost = true →
    ∀ i ∈ ([.tickFrame n f, .holdFrame n f, .retireFrame n f, .unretireFrame n f, .bleedFrame n f, .sleepFrame n f] : List Instr),
      exec i s = .next s)
  ∧ ∀ (n : Fin 96) (f : MgmtRx) (s : State), stitchThere s n = true → (dielet s n).st ≠ .asleep → domOn s 5 = true →
    (dielet s n).lost = false →
    let off := fun (d : Dielet) => { d with
      gh := false, gl := false, incoming := none, inG := none,
      outG := if d.gh then some .high else if d.gl then some .low else d.outG }
    let d : Dielet := { dielet s n with bad := 0, ack := f.seq.toNat }
    let does := fun (i : Instr) (x : Dielet) => ∃ t, exec i s = .next t ∧ OnlyDielet n s t ∧ dielet t n = x
    (f.crcOk = true →
      (∀ reg : BitVec 8, reg.toNat < 11 →
        ∃ t, exec (.writeFrame n reg f) s = .next t ∧ OnlyDielet n s t
          ∧ dielet t n = { d with settings := (dielet t n).settings, steps := (dielet t n).steps }
          ∧ (∀ o, dieletSetting (dielet t n) o = if o = 4 * reg.toNat then f.data else dieletSetting d o)
          ∧ (∀ k, k < 4 → stepOf (dielet t n) k = if reg.toNat = 10 then bitsOf f.data (8 * k) 6 else stepOf d k))
      ∧ does (.tickFrame n f) { d with tick := bitsOf f.data 0 4 }
      ∧ ((d.st = .run ∨ d.st = .idle) → d.mode = none →
          does (.holdFrame n f) { off d with
            st := .hiz, cause := 0x10, clamp := false, topup := false, verify := false, alerts := d.alerts ++ [0x10] })
      ∧ (d.st = .hiz → d.mode = none → ∀ present : Bool,
          does (.releaseFrame n f present)
            (if present = true ∧ d.cause ≠ 0x10 then { d with alerts := d.alerts ++ [d.cause] }
             else { off d with st := .idle, cause := 0, clamp := false }))
      ∧ (d.st = .waking → does (.retireFrame n f) { d with mode := some (bitsOf f.data 0 1 == 1) })
      ∧ (bitsOf f.data 0 1 = 1 → d.mode ≠ some true → d.st ≠ .waking →
          does (.retireFrame n f) { off d with
            mode := some true, st := .opened, clamp := false, cause := 0, topup := false, verify := false })
      ∧ (bitsOf f.data 0 1 = 0 → d.mode ≠ some false → d.st ≠ .waking → d.hemoff = false →
          does (.retireFrame n f)
            (if d.gh = true ∨ d.incoming = some .low then { d with
              mode := some false, clamp := false, gh := false, incoming := some .low, inG := some .low,
              outG := if d.gh then some .high else d.outG }
             else if (d.clamp && d.gl) = true then { d with
              mode := some false, clamp := false, st := .bypass, cause := 0 }
             else { d with
              mode := some false, clamp := false, incoming := none, gl := true, inG := some .low,
              verify := d.verify || (d.st != .bypass) }))
      ∧ (bitsOf f.data 0 1 = 0 → d.mode ≠ some false → d.st ≠ .waking → d.hemoff = true →
          does (.retireFrame n f) { off d with mode := some false, clamp := false })
      ∧ (d.st = .waking → does (.unretireFrame n f) { d with mode := none })
      ∧ (d.mode ≠ none → d.st ≠ .waking →
          does (.unretireFrame n f) { off d with
                mode := none, st := .idle, cause := 0, topup := false, verify := false, clamp := false })
      ∧ (bitsOf f.data 0 1 = 1 → (∀ x, (bleedSt s n).ended = some x → x + 10000 * cyclesPerMs ≤ s.cyc) →
          does (.bleedFrame n f) { d with bleed := true })
      ∧ (bitsOf f.data 0 1 = 0 → d.bleed = true →
          ∃ t, exec (.bleedFrame n f) s = .next t ∧ dielet t n = { d with bleed := false } ∧ t.regs = s.regs
            ∧ (bleedSt t n).ended = some s.cyc ∧ ∀ m, m ≠ n.val → dielet t m = dielet s m ∧ bleedSt t m = bleedSt s m)
      ∧ does (.sleepFrame n f) { off d with
            st := .asleep, cause := 0, mode := none, clamp := false, topup := false, bstreq := false, otwarn := false,
            verify := false, hemoff := false, bad := 0, lost := false })
    ∧ (f.crcOk = false →
      ∃ t, exec (.holdFrame n f) s = .next t ∧ t = { s with regs := t.regs, dielets := t.dielets }
        ∧ RegsOutside [R.STI_LNK n] s t
        ∧ t.get (R.STI_LNK_DN_ERR n) = min (2 ^ (R.STI_LNK_DN_ERR n).wd - 1) (s.get (R.STI_LNK_DN_ERR n) + 1)
        ∧ ((dielet s n).bad ≠ 2 → dielet t n = { dielet s n with bad := (dielet s n).bad + 1 })
        ∧ ((dielet s n).bad = 2 → (dielet s n).awake = true →
            (dielet t n).st = .hiz ∧ (dielet t n).cause = 0x0E ∧ (dielet t n).bad = 0 ∧ (dielet t n).lost = true
              ∧ (dielet t n).gh = false ∧ (dielet t n).gl = false))

/-- At a dielet of the part: a bypass under verification becomes BYPASS, or, failed, FAULT with cause 0x09, gates off and an alert; in
BYPASS with BYPTOP set, and the hem clear, a low cell starts a top-up with GL off, and its end turns GL on again unless the hem holds the gates;
a cell below 2 V releases the bleed latch and its time is kept. Nothing but this dielet, and its bleed time, changes. -/
def Obligations.DieletBypass : Prop :=
  ∀ (n : Fin 96) (s : State), stitchThere s n = true →
    let d := dielet s n
    let off := fun (d : Dielet) => { d with
      gh := false, gl := false, incoming := none, inG := none,
      outG := if d.gh then some .high else if d.gl then some .low else d.outG }
    let does := fun (i : Instr) (x : Dielet) => ∃ t, exec i s = .next t ∧ OnlyDielet n s t ∧ dielet t n = x
    (d.verify = true → does (.bypassVerify n true) { d with st := .bypass, verify := false, cause := 0 })
    ∧ (d.verify = true → does (.bypassVerify n false) { off d with
        st := .fault, verify := false, cause := 0x09, alerts := d.alerts ++ [0x09] })
    ∧ (d.st = .bypass → dieletField d (R.STI_CFG_BYPTOP 0) = 1 → d.topup = false → d.hemoff = false →
        does (.bypTopupStart n) { off d with topup := true })
    ∧ (d.topup = true → d.hemoff = true → does (.bypTopupEnd n) { d with topup := false })
    ∧ (d.topup = true → d.hemoff = false → does (.bypTopupEnd n) { d with
        topup := false, gl := true, incoming := none, inG := some .low,
        verify := d.verify || (d.mode == some false && d.st != .bypass) })
    ∧ (d.bleed = true →
        ∃ t, exec (.bleedRelease n) s = .next t ∧ dielet t n = { d with bleed := false } ∧ t.regs = s.regs
          ∧ (bleedSt t n).ended = some s.cyc ∧ (bleedSt t n).waiting = (bleedSt s n).waiting
          ∧ ∀ m, m ≠ n.val → dielet t m = dielet s m ∧ bleedSt t m = bleedSt s m)

/-- At a stitch of the part: with PD5 on the frame due first starts, sent once, behind the frames that are out; the oldest frame
without acknowledgement is sent again up to three times and counted; after that it is given up, a setting with it (R85), and a stitch that shows
neither ASLEEP nor FAULT goes to FAULT as LINK_UP; an uplink frame with a bad CRC is only counted. In DISCHARGE a stitch whose ten seconds are over is sent its bleed.
Nothing else changes. -/
def Obligations.LinkFrames : Prop :=
  ∀ (n : Fin 96) (s : State), stitchThere s n = true →
    (∀ f rest, (link s n).due = f :: rest → domOn s 5 = true →
      exec (.mgmtFrameLaunch n) s =
        .next (setLink s n { link s n with due := rest, out := (link s n).out ++ [{ f with sent := 1 }] }))
    ∧ (∀ f rest, (link s n).out = f :: rest → f.sent < 4 →
      ∃ t, exec (.mgmtFrameResend n) s = .next t ∧ t = { s with regs := t.regs, links := t.links }
        ∧ link t n = { link s n with out := { f with sent := f.sent + 1 } :: rest }
        ∧ (∀ m, m ≠ n.val → link t m = link s m) ∧ RegsOutside [R.STI_LNK n] s t
        ∧ t.get (R.STI_LNK_RESEND n) = min (2 ^ (R.STI_LNK_RESEND n).wd - 1) (s.get (R.STI_LNK_RESEND n) + 1))
    ∧ (∀ f rest, (link s n).out = f :: rest → 4 ≤ f.sent →
      exec (.mgmtFrameResend n) s = .next
        (let u := setLink s n { link s n with out := rest, settings := (link s n).settings && f.ty != frWRITE }
         if s.get (R.STI_STATE_STATE n) ≠ 0 ∧ s.get (R.STI_STATE_STATE n) ≠ 7 then uplinkFault n u else u))
    ∧ (∀ u : UplinkFrame, u.crcOk = false → domOn s 5 = true →
      ∃ t, exec (.uplinkFrame n u) s = .next t ∧ OnlyRegs [R.STI_LNK n] s t
        ∧ t.get (R.STI_LNK_UP_ERR n) = min (2 ^ (R.STI_LNK_UP_ERR n).wd - 1) (s.get (R.STI_LNK_UP_ERR n) + 1))
    ∧ (mode s = mDISCHARGE → (bleedSt s n).waiting = true → seenAwake s n = true → domOn s 5 = true →
      ∃ t, exec (.bleedWaitEnd n) s = .next t ∧ t = { s with links := t.links, pwr := t.pwr }
        ∧ bleedSt t n = { bleedSt s n with waiting := false }
        ∧ link t n = { link s n with
            due := (link s n).due ++ [⟨frBLEED, 0, 1, (link s n).nextSeq, 0⟩], nextSeq := ((link s n).nextSeq + 1) % 16 }
        ∧ ∀ m, m ≠ n.val → link t m = link s m ∧ bleedSt t m = bleedSt s m)

/-- A telemetry tick advances the count, and that of every awake dielet, each of which keeps the cell voltage sampled and sets OTWARN from 10 °C
below its OT threshold (R80). A good
uplink frame of a stitch seen awake and not in FAULT, with no frame out, shows in STI_TEL0 and STI_TEL1, in STI_STR and STI_EDGE of the setting it
carries, and in the flags of STI_STATE. Alert 0x40 sets BSTREQ and
notes the step of its arrival on the carrier (R114), no earlier than the last instant known there. Alert 0x10 of a stitch seen in IDLE or RUN, not retired, shows it in HIZ with
cause HOLD and sticks in STI_FCAUSE, and its link carries OFF; no other register changes but the capacities. A lost uplink is silence where silence is expected
(the stitch shows ASLEEP, its frames are dropped) and LINK_UP otherwise. -/
def Obligations.Telemetry : Prop :=
  (∀ (s : State) (cells : List (Fin 96 × BitVec 12 × BitVec 12)), (cells.map (·.1)).Nodup →
    ∃ t, exec (.telemetryTick cells) s = .next t
      ∧ t = { s with telTick := s.telTick + 1, dielets := t.dielets }
      ∧ (∀ n, (dielet s n).awake = false ∨ s.part.stitches ≤ n → dielet t n = dielet s n)
      ∧ (∀ n, (dielet s n).awake = true → n < s.part.stitches →
          dielet t n = { dielet s n with
                tick := ((dielet s n).tick + 1) % 16, cell := (dielet t n).cell, otwarn := (dielet t n).otwarn }
          ∧ (∀ c ∈ cells, c.1.val = n → (dielet t n).cell = c.2.1.toNat
              ∧ ((dielet t n).otwarn = true ↔
                  (8 * (100 + 5 * dieletField (dielet s n) (R.STI_LIMIT_OT_TH 0)) : Int) ≤ signed 12 c.2.2.toNat))
          ∧ ((∀ c ∈ cells, c.1.val ≠ n) →
              (dielet t n).cell = (dielet s n).cell ∧ (dielet t n).otwarn = (dielet s n).otwarn)))
  ∧ ∀ (n : Fin 96) (s : State), stitchThere s n = true → domOn s 5 = true →
    let caps := seams.map R.SEAM_CAP ++ seams.map R.SEAM_STATE
    (∀ u : UplinkFrame, u.crcOk = true → 2 ≤ s.get (R.STI_STATE_STATE n) → s.get (R.STI_STATE_STATE n) ≠ 7 →
      (link s n).out = [] →
      ∃ t, exec (.uplinkFrame n u) s = .next t
        ∧ RegsOutside ([R.STI_TEL0 n, R.STI_TEL1 n, R.STI_STR n, R.STI_EDGE n, R.STI_STATE n, R.PWR_STAT] ++ caps) s t
        ∧ t.get (R.STI_TEL0_VCELL n) = u.vcell.toNat ∧ t.get (R.STI_TEL0_SEQ n) = u.seq.toNat
        ∧ (u.auxsel.toNat % 4 = 0 → t.get (R.STI_TEL0_TEMP n) = u.aux.toNat)
        ∧ (u.auxsel.toNat % 4 = 1 → t.get (R.STI_TEL1_VBST n) = u.aux.toNat % 2 ^ (R.STI_TEL1_VBST n).wd)
        ∧ bitsOf (t.word (R.STI_STR n)) (8 * u.edgesel.toNat) 6 = u.str.toNat
        ∧ bitsOf (t.word (R.STI_EDGE n)) (8 * u.edgesel.toNat) 8 = u.etime.toNat
        ∧ t.on (R.STI_STATE_BSTREQ n) = u.flags.getLsbD 7 ∧ t.on (R.STI_STATE_OTWARN n) = u.flags.getLsbD 6
        ∧ t.on (R.STI_STATE_CLAMP n) = u.flags.getLsbD 5 ∧ t.on (R.STI_STATE_TOPUP n) = u.flags.getLsbD 4
        ∧ t.on (R.STI_STATE_BLEED n) = u.flags.getLsbD 3)
    ∧ (∀ at_ : Nat, ∃ t, exec (.uplinkAlert n ⟨0x40, at_⟩) s = .next t ∧ RegsOutside [R.STI_STATE n] s t ∧ t.on (R.STI_STATE_BSTREQ n) = true
        ∧ t = { s with regs := t.regs, dielets := t.dielets, fractions := t.fractions }
        ∧ fraction t n = { fraction s n with
              asked := some (max ((fraction s n).now : Int) ((at_ : Int) - (fraction s n).start)) }
        ∧ (∀ m, m ≠ n.val → fraction t m = fraction s m)
        ∧ dielet t n = { dielet s n with alerts := (dielet s n).alerts.erase 0x40 }
        ∧ ∀ m, m ≠ n.val → dielet t m = dielet s m)
    ∧ ((s.get (R.STI_STATE_STATE n) = 2 ∨ s.get (R.STI_STATE_STATE n) = 3) → retired s n = false →
      ∀ at_ : Nat, ∃ t, exec (.uplinkAlert n ⟨0x10, at_⟩) s = .next t
        ∧ RegsOutside ([R.STI_STATE n, R.STI_FCAUSE n] ++ caps) s t
        ∧ t = { s with regs := t.regs, dielets := t.dielets, links := t.links } ∧ (link t n).cmd = 0
        ∧ t.get (R.STI_STATE_STATE n) = 4 ∧ t.get (R.STI_STATE_HIZCAUSE n) = 0x10
        ∧ t.get (R.STI_FCAUSE_MAP n) = (s.get (R.STI_FCAUSE_MAP n) ||| 2 ^ 15) % 2 ^ (R.STI_FCAUSE_MAP n).wd)
    ∧ (2 ≤ s.get (R.STI_STATE_STATE n) → s.get (R.STI_STATE_STATE n) ≠ 7 →
        ((link s n).silent = true ∨ s.get (R.STI_TEL0_VCELL n) ≤ 340 →
          ∃ t, exec (.uplinkLoss n false) s = .next t ∧ t = { s with
                regs := t.regs, links := t.links, dielets := t.dielets }
            ∧ RegsOutside ([R.STI_STATE n] ++ caps) s t ∧ t.get (R.STI_STATE_STATE n) = 0
            ∧ (link t n).due = [] ∧ (link t n).out = [] ∧ (link t n).silent = true)
        ∧ ((link s n).silent = false → 340 < s.get (R.STI_TEL0_VCELL n) →
          exec (.uplinkLoss n false) s = .next (uplinkFault n s)))

/-- An accepted RETIRE with the right GUARD gives a stitch that is not retired its ledger entry: retired, the mode of RMODE, cause 0xF0,
the next ledger sequence and the RTC seconds; STI_RET, STI_STATE.RETIRED and HST_EVT.RET show it, and its mirror write becomes pending.
CLEAR in FITTING makes the entry zero, CLEAR_ALL those of every stitch; outside FITTING, or with a wrong GUARD, CMDERR sets and nothing else.
With PD3 on, a pending mirror write of an entry leaves that entry in MRAM. A word written to STI_STR is held to the bounds of each setting,
waits for the dielet, and is sent to an awake one; the register itself keeps what the dielet last reported. -/
def Obligations.Retirement : Prop :=
  ∀ (n : Fin 96) (s : State) (c : PortCmd),
    (Accepts s c.port (R.STI_CMD n) →
      (c.guard.toNat = 0x5A7E → retired s n = false →
        ∃ t, exec (.stiRetire n c) s = .next t
          ∧ ledgerOf t n = ⟨true, s.get (R.STI_CFG_RMODE n) == 1, 0xF0, (s.ledgerSeq + 1) % 65536, rtcMs s / 1000⟩
          ∧ (∀ m, m ≠ n.val → ledgerOf t m = ledgerOf s m) ∧ t.ledgerSeq = s.ledgerSeq + 1
          ∧ Mirror.ledger n ∈ t.mirrors ∧ t.on R.HST_EVT_RET = true
          ∧ t.on (R.STI_RET_RETIRED n) = true ∧ t.get (R.STI_RET_CAUSE n) = 0xF0 ∧ t.on (R.STI_STATE_RETIRED n) = true
          ∧ t.host = (endRun c.port s).host)
      ∧ (c.guard.toNat = 0x5A7E → mode s = mFITTING → retired s n = true →
        ∃ t, exec (.stiClear n c) s = .next t ∧ ledgerOf t n = LedgerEntry.zero
          ∧ (∀ m, m ≠ n.val → ledgerOf t m = ledgerOf s m) ∧ Mirror.ledger n ∈ t.mirrors
          ∧ t.on (R.STI_RET_RETIRED n) = false ∧ t.on (R.STI_STATE_RETIRED n) = false)
      ∧ (c.guard.toNat ≠ 0x5A7E ∨ mode s ≠ mFITTING →
        ∃ t, exec (.stiClear n c) s = .next t ∧ PortRegs c.port [R.STI_STATE n] s t ∧ t.on (R.STI_STATE_CMDERR n) = true)
      ∧ (c.guard.toNat ≠ 0x5A7E →
        ∃ t, exec (.stiRetire n c) s = .next t ∧ PortRegs c.port [R.STI_STATE n] s t ∧ t.on (R.STI_STATE_CMDERR n) = true))
    ∧ (Accepts s c.port R.STI_UCMD →
      (c.guard.toNat = 0x5A7E → mode s = mFITTING →
        ∃ t, exec (.clearAll c) s = .next t ∧ (∀ m, m < 96 → retired t m = false) ∧ t.ledgerSeq = s.ledgerSeq)
      ∧ (c.guard.toNat ≠ 0x5A7E ∨ mode s ≠ mFITTING →
        ∃ t, exec (.clearAll c) s = .next t ∧ PortRegs c.port [R.STI_LEDGER] s t ∧ t.on R.STI_LEDGER_CMDERR = true))
    ∧ (domOn s 3 = true → Mirror.ledger n ∈ s.mirrors →
        ∃ t, exec (.ledgerMirrorDone n) s = .next t ∧ t.mirrors = s.mirrors.erase (.ledger n)
          ∧ tget (fun _ => LedgerEntry.zero) t.mram.ledger n = ledgerOf s n
          ∧ (∀ m, m ≠ n.val →
              tget (fun _ => LedgerEntry.zero) t.mram.ledger m = tget (fun _ => LedgerEntry.zero) s.mram.ledger m)
          ∧ t = { s with regs := t.regs, mirrors := t.mirrors, mram := t.mram }
          ∧ RegsOutside [R.STI_LEDGER, R.HRV_BURST] s t)
    ∧ (∀ w : PortWrite, Accepts s w.port (R.STI_STR n) →
        ∃ t x, exec (.stiStrWrite n w) s = .next t ∧ t = { endRun w.port s with links := t.links }
          ∧ (link t n).str = some x ∧ (∀ m, m ≠ n.val → link t m = link s m)
          ∧ (∀ k, k < 4 → bitsOf x (8 * k) 6 =
              clampNat (stepBounds s n k).1 (stepBounds s n k).2 (bitsOf w.data (8 * k) 6))
          ∧ (link t n).due = (if seenAwake s n = true ∧ domOn s 5 = true then
              (link s n).due ++ [⟨frWRITE, 10, x.toNat, (link s n).nextSeq, 0⟩] else (link s n).due))

/-- While carriers run, at a seam in use. A period start of the seam's own carrier at instant t (in steps of 156.25 ps) does what a
period start does for the seam and then for the stitches it times, and then tries the windows it clears, all in one cycle. For the seam (own
period, no REMOTE root): it counts a period, moves the carrier by its part of the correction left (R104), which a root that follows
fabric time or its LINK takes afresh (R118, R119), latches the enable, and marks the pulse of MOD_SYNC_OUT (R117). A period start of a
slot carrier of a SHIFT or TRIAD does its part for the stitch of its slot alone: a stitch seen IDLE that may run enters RUN (view and
dielet), its join slot is the start of the period if it fits (R113), and modulator commands are taken again. A sample instant falls every
SMPDIV + 1 periods: contexts of the seam that take an execution wait for it.
At an update instant of a root with no routed context: OUT is the saturated sum of REF and OFS, and SAT shows it. Each stitch of a SINGLE,
BRIDGE, SHIFT or TRIAD gets the fraction of its contribution (that of slot 1 of a BRIDGE is −OUT, saturated), at once in a SINGLE or BRIDGE
and at the update instant of its slot in a SHIFT or TRIAD; a child seam takes its contribution as REF, and its own OUT from there.
A STACK of stitches inserts whole children, joined and capable, and one with what remains, which make up the request unless SHORT shows;
without hysteresis, dead band or swap limit it prefers low cells when charging and high ones when discharging. A LINK
below takes its next exchange number and sends it where it may, or shows LINKSTALE. A REMOTE root applies the reference that is due (R119)
and leaves one that is not.
The model's readings or choices: EN waits for the next period start
(log entry 41), slot carriers have period starts and update instants of their own (59), instants are operands (8), the
pulse of MOD_SYNC_OUT at 26 and 640 steps (8, 25), what a LINK sends and when (37). -/
def Obligations.CarrierInstants : Prop :=
  ∀ (n : Fin 64) (s : State), seamUsed s n = true → carriersRun s = true →
    let k0 := s.get (R.SEAM_DESC_NCHILD n)
    let x := sat16 (s.sget (R.SEAM_REF_REF n) + s.sget (R.SEAM_OFS_OFS n))
    let y := fun (k : Nat) => if seamType s n = tBRIDGE ∧ k = 1 then sat16 (-x) else x
    let slotted := seamType s n = tSHIFT ∨ seamType s n = tTRIAD
    let root := s.get (R.SEAM_DESC_PARENT n) = 0 ∧ contextsOf s n = [] ∧ (remoteX s n).reply = []
      ∧ (children s n).Nodup ∧ k0 ≤ 16
    let own := root ∧ s.on (R.SEAM_DESC_REMOTE n) = false
    let noLink := ∀ m ∈ seams, seamType s m = tLINK → s.get (R.SEAM_DESC_PARENT m) ≠ n.val
    let stitchesOnly := ∀ c ∈ children s n, isStitchCode c = true
    (∀ t met, exec (.carrierPeriodStart n none t met) s = .next (oneCycle (fun a =>
        winPeriodClear n met (startTimed n (carrier (startPeriod n t a) n).start (timed s n none) (startPeriod n t a)))
          { s with cyc := max s.cyc (t / 16) }))
    ∧ (∀ at_ : Nat, (if s.get (R.SEAM_DESC_PARENT n) = 0 then s.get (R.MOD_CAR_PER n)
          else nominal s (s.get (R.SEAM_DESC_PARENT n))) = (carrier s n).per →
        s.on (R.SEAM_DESC_REMOTE n) = false →
        let t := startPeriod n at_ s
        let valid := s.on R.FAB_TSTAT_TVALID = true
        let rem := if s.get (R.MOD_CAR_SYNC n) = 2 ∧ valid then wrapPhase (nominal s n) (phaseError s n at_ 0)
          else if s.get (R.MOD_CAR_SYNC n) = 3 ∧ valid then
            (match (remoteX s n).start with
             | some ref => wrapPhase (nominal s n) (phaseError s n at_ ref)
             | none => (carrier s n).rem)
          else (carrier s n).rem
        (seamType s n ≠ tLINK → t.get (R.SEAM_STATE_PERIOD n) = (s.get (R.SEAM_STATE_PERIOD n) + 1) % 256)
          ∧ (carrier t n).periods = (carrier s n).periods + 1
          ∧ (carrier t n).shift = slewPart s n rem ∧ (carrier t n).rem = rem - slewPart s n rem
          ∧ (carrier t n).start = at_ + (slewPart s n rem).toNat
          ∧ (s.get R.MOD_SYNCO_SEAM = n.val → t.syncOut = some at_)
          ∧ (s.on (R.SEAM_CTL_EN n) = true → n.val ∈ t.enabled))
    ∧ (∀ u v : Nat, s.syncOut = some u → (syncOutHigh s v = true ↔ u + 26 ≤ v ∧ v < u + 26 + 640))
    ∧ (∀ (k : Fin 16) (c at_ : Nat) met, slotted →
        (children s n)[k.val]? = some c → isStitchCode c = true → mayRun s c = true →
        ∃ t, exec (.carrierPeriodStart n (some k) at_ met) s = .next t ∧ t.get (R.STI_STATE_STATE c) = 3
          ∧ c ∈ (carrier t n).joining ∧ c ∉ t.waits
          ∧ (fraction t c).join = (if 768 ≤ (carrier s n).len then some 0 else none)
          ∧ dielet t c = (if (dielet s c).st = .idle then { dielet s c with st := .run } else dielet s c)
          ∧ ∀ m, m ≠ c → t.get (R.STI_STATE_STATE m) = s.get (R.STI_STATE_STATE m) ∧ dielet t m = dielet s m)
    ∧ (∀ at_ : Nat, ((carrier s n).periods - 1) % (s.get (R.MOD_OPT_SMPDIV n) + 1) = 0 →
        exec (.sampleInstant n at_) s = .next (oneCycle (fun a =>
          let r := acqSeamTrigger n { a with cyc := max a.cyc (at_ / 16) }
          triggerWith r.2 (latestStart s n at_) n (gridSample n r.2 r.1)) s))
    ∧ (∀ at_, ((carrier s n).periods - 1) % (s.get (R.MOD_OPT_SMPDIV n) + 1) ≠ 0 →
        exec (.sampleInstant n at_) s = .next s)
    ∧ (∀ started ls c, 1 ≤ c → c < 64 → s.get (R.CTX_CFG_TRIG c) = n.val → n ≠ 0 → takes s c = true →
        (ctxSt (triggerWith started ls n s) c).ex = .waiting ∧ (ctxSt (triggerWith started ls n s) c).ls = ls c
          ∧ (triggerWith started ls n s).regs = s.regs)
    ∧ (own → noLink → stitchesOnly → (seamType s n = tSINGLE ∨ seamType s n = tBRIDGE ∨ slotted) →
        ∀ due, ∃ t, exec (.updateInstant due [⟨n, none⟩]) s = .next t
          ∧ q15 (t.get (R.SEAM_STATE_OUT n)) = x
          ∧ t.on (R.SEAM_STATE_SAT n) = decide (s.sget (R.SEAM_REF_REF n) + s.sget (R.SEAM_OFS_OFS n) ≠ x)
          ∧ ∀ k, k < k0 →
              let c := childCode s n k
              (fraction t c).next = f16Of (y k) ∧ (fraction t c).cur = (fraction s c).cur
                ∧ (¬slotted → (fraction t c).due = f16Of (y k)) ∧ (slotted → (fraction t c).due = (fraction s c).due))
    ∧ (slotted → ∀ (k : Fin 16) (c : Nat), (children s n)[k.val]? = some c → isStitchCode c = true →
        ∀ due, ∃ t, exec (.updateInstant due [⟨n, some k⟩]) s = .next t ∧ (fraction t c).due = (fraction s c).next
          ∧ (fraction t c).cur = (fraction s c).cur ∧ t.get (R.SEAM_STATE_OUT n) = s.get (R.SEAM_STATE_OUT n))
    ∧ (own → noLink → (seamType s n = tBRIDGE ∨ slotted) →
        (∀ c ∈ children s n, isSeamCode c = true ∧ seamType s (c - 0x80) = tSINGLE
          ∧ s.get (R.SEAM_DESC_NCHILD (c - 0x80)) = 1 ∧ isStitchCode (childCode s (c - 0x80) 0) = true) →
        ((children s n).map (fun c => childCode s (c - 0x80) 0)).Nodup →
        ∀ due, ∃ t, exec (.updateInstant due [⟨n, none⟩]) s = .next t ∧ q15 (t.get (R.SEAM_STATE_OUT n)) = x
          ∧ ∀ k, k < k0 →
              let m := childCode s n k - 0x80
              let z := sat16 (y k + s.sget (R.SEAM_OFS_OFS m))
              t.sget (R.SEAM_REF_REF m) = y k ∧ q15 (t.get (R.SEAM_STATE_OUT m)) = z
                ∧ (fraction t (childCode s m 0)).next = f16Of z)
    ∧ (own → noLink → stitchesOnly → seamType s n = tSTACK →
        ((carrier s n).balOpen = true ∨ (s.get (R.MOD_OPT_BALN n) ≠ 0 ∧ s.get (R.MOD_OPT_BALN n) ≠ (carrier s n).balRun + 1)) →
        ∀ due, ∃ t r, exec (.updateInstant due [⟨n, none⟩]) s = .next t ∧ q15 (t.get (R.SEAM_STATE_OUT n)) = x ∧ r < 65536
          ∧ (carrier t n).full.Nodup
          ∧ (∀ c ∈ (carrier t n).full, c ∈ children s n ∧ capable s c = true ∧ s.get (R.STI_STATE_STATE c) = 3
              ∧ (c ∈ (carrier s n).joined ∨ c ∈ (carrier s n).lowDone))
          ∧ (∀ c ∈ children s n, (fraction t c).due =
              if c ∈ (carrier t n).full then 65536 else if (carrier t n).frac = some c then r else 0)
          ∧ (t.on (R.MOD_SST_SHORT n) = false →
              (carrier t n).full.length * 65536 + (if (carrier t n).frac.isSome then r else 0) = f16Of x * (carrier s n).levels)
          ∧ (let i := s.sget (R.ACQ_RES_VALUE (s.get (R.MOD_STK_ISRC n)))
             s.get (R.MOD_STK_SWAPHYS n) = 0 → k0 ≤ s.get (R.MOD_STK_SWAPMAX n) → s.get (R.MOD_REF_IDB n) < i.natAbs →
             ∀ a ∈ (carrier t n).full, ∀ b ∈ children s n, b ∉ (carrier t n).full → capable s b = true →
               b ∈ (carrier s n).joined → s.get (R.STI_STATE_STATE b) = 3 →
               s.on (R.STI_STATE_BSTREQ a) = false → s.on (R.STI_STATE_BSTREQ b) = false →
               ∀ va vb, (freshV s a due).map (·.1) = some va → (freshV s b due).map (·.1) = some vb →
                 (0 < i ↔ s.on (R.MOD_STK_IPOL n) = false) → va ≤ vb)
          ∧ (let i := s.sget (R.ACQ_RES_VALUE (s.get (R.MOD_STK_ISRC n)))
             s.get (R.MOD_STK_SWAPHYS n) = 0 → k0 ≤ s.get (R.MOD_STK_SWAPMAX n) → s.get (R.MOD_REF_IDB n) < i.natAbs →
             ∀ a ∈ (carrier t n).full, ∀ b ∈ children s n, b ∉ (carrier t n).full → capable s b = true →
               b ∈ (carrier s n).joined → s.get (R.STI_STATE_STATE b) = 3 →
               s.on (R.STI_STATE_BSTREQ a) = false → s.on (R.STI_STATE_BSTREQ b) = false →
               ∀ va vb, (freshV s a due).map (·.1) = some va → (freshV s b due).map (·.1) = some vb →
                 (0 < i ↔ s.on (R.MOD_STK_IPOL n) = true) → vb ≤ va))
    ∧ (own → (seamType s n = tBRIDGE ∨ slotted) → ∀ m ∈ seams, m ≠ n.val → seamType s m = tLINK →
        (∀ c ∈ children s n, isStitchCode c = true ∨ c = 0x80 + m) → s.get (R.SEAM_DESC_NCHILD m) = 0 →
        (∀ m' ∈ seams, seamType s m' = tLINK → (s.get (R.SEAM_DESC_PARENT m') = n.val ↔ m' = m)) →
        (linkX s m).sent = [] →
        ∀ due, ∃ t, exec (.updateInstant due [⟨n, none⟩]) s = .next t
          ∧ (linkSends s m = true → (linkX t m).next = ((linkX s m).next + 1) % 65536
              ∧ (linkX t m).sent = [(linkX s m).next]
              ∧ t.get (R.SEAM_STATE_PERIOD m) = (s.get (R.SEAM_STATE_PERIOD m) + 1) % 256)
          ∧ (linkSends s m = false → (linkX s m).ep = true → (linkX t m).next = ((linkX s m).next + 1) % 65536
              ∧ (linkX t m).sent = [] ∧ t.on (R.SEAM_STATE_LINKSTALE m) = true))
    ∧ (root → noLink → s.on (R.SEAM_DESC_REMOTE n) = true → seamType s n = tSINGLE → stitchesOnly →
        ∀ w : WaitRef, (remoteX s n).wait = [w] → ∀ due, ∃ t, exec (.updateInstant due [⟨n, none⟩]) s = .next t
          ∧ (w.due ≤ fabricAt s (updateStep s n) →
              t.get (R.SEAM_REF_REF n) = w.value % 65536 ∧ t.on (R.SEAM_STATE_LINKSTALE n) = false
              ∧ q15 (t.get (R.SEAM_STATE_OUT n)) = sat16 (q15 (w.value % 65536) + s.sget (R.SEAM_OFS_OFS n))
              ∧ (remoteX t n).wait = [] ∧ (remoteX t n).fresh = true ∧ (remoteX t n).ep = false)
          ∧ (fabricAt s (updateStep s n) < w.due →
              t.get (R.SEAM_REF_REF n) = s.get (R.SEAM_REF_REF n) ∧ q15 (t.get (R.SEAM_STATE_OUT n)) = x
              ∧ (remoteX t n).wait = [w]))

/-- The walk of R110 over ranked children and a request in 1/65,536 of a level: the children it inserts fully are taken in rank order, and
their levels and the remainder make up the request exactly; whatever it leaves out has more levels than remained when its turn
came, so the remainder it ends with is smaller than every child it left out. -/
def Obligations.SortWalk : Prop :=
  ∀ (cand : List Cand) (rem : Nat),
    (∃ chosen : List Cand, chosen.Sublist cand ∧ chosen.map (·.child) = (walk cand rem).1
      ∧ (chosen.map (·.lv)).sum * 65536 + (walk cand rem).2 = rem)
    ∧ (walk cand rem).2 ≤ rem
    ∧ ∀ c ∈ cand, c.child ∉ (walk cand rem).1 → (walk cand rem).2 < c.lv * 65536

/-- While carriers run, at a stitch of the part under a seam, at step q of the period of its carrier: at an edge a joined stitch is asked
for the level of its fraction (the one taken at the last update instant from its effective instant on), one that has not joined
for OFF; a change less than 12.0 ns (77 steps) after the last edge waits, and so do a join and a refresh LOW (R103). A join pulse is LOW from
its slot on and OFF t_refw later, after which the stitch joins at the next update instant; a refresh pulse is LOW from its slot on, counted
where the modulator is obeyed, and HIGH t_refw later; at no other step does either begin. A refresh slot lies on the grid of REFPH and t_rslot,
not before the request or the effective instant, with the stitch HIGH from 12.0 ns before to 12.0 ns after it, and t_refw from every LOW of the
other children; a stitch scheduled LOW for t_refw since the request takes none. What the link then carries is OFF while the hem holds it or a
hold, a routed window or its own detector covers it; the command of its retirement for a retired stitch; the modulator's command in RUN under an
enabled seam, unless it must wait for the next period; else OFF: in FAULT or any state but RUN, under a seam not enabled, or while it waits.
A stitch that no seam claims gets OFF (R27, log entry 61, the model's reading). The blanking of the windows follows. -/
def Obligations.EdgeInstants : Prop :=
  (∀ (n : Fin 96) (m : Nat) (s : State), ownerOf s n = 0 → linkCommand s n m = (0, false))
  ∧ (∀ (n : Nat) (j : Nat) (s : State), ((fraction s n).edge = none → assigned s n j = j)
      ∧ ∀ e, (fraction s n).edge = some e → assigned s n j = max (j : Int) (e + 77))
  ∧ ∀ (n : Fin 96) (q : Nat) (s : State), stitchThere s n = true → carriersRun s = true → ownerOf s n ≠ 0 →
    let o := ownerOf s n
    let carried := fun (x : State) (c : Nat) =>
      winBlankOpen n (setFraction (setLink x n { link x n with cmd := c }) n
        { fraction x n with now := q, edge := if c = (link x n).cmd then (fraction x n).edge else some (q : Int) })
    let sent := fun (x : State) (m : Nat) => carried x (linkCommand x n m).1
    let soon := ∃ e : Int, (fraction s n).edge = some e ∧ (q : Int) < e + 77
    let falls := fun (slot : Option Nat) => ∃ j, slot = some j ∧ assigned s n j = q
    (n.val ∈ (carrier s o).joined →
      (¬soon → exec (.edgeInstant n (.edge false) q) s =
          .next (sent s (levelAt s o (fraction s n).per (fraction s n).cur q)))
      ∧ (soon → exec (.edgeInstant n (.edge false) q) s = .next s)
      ∧ (¬soon → exec (.edgeInstant n (.edge true) q) s =
          .next (sent (commitFraction n s) (levelAt s o (fraction s n).per (fraction s n).due q)))
      ∧ (soon → exec (.edgeInstant n (.edge true) q) s = .next (commitFraction n s)))
    ∧ (n.val ∉ (carrier s o).joined → ¬soon → exec (.edgeInstant n (.edge false) q) s = .next (sent s 0))
    ∧ (n.val ∈ (carrier s o).joining →
      (falls (fraction s n).join → exec (.edgeInstant n .joinLow q) s =
          .next (sent (setFraction s n { fraction s n with low := some (q : Int) }) 1))
      ∧ (¬falls (fraction s n).join → exec (.edgeInstant n .joinLow q) s = .next s)
      ∧ ((fraction s n).low = some ((q : Int) - 768) → exec (.edgeInstant n .joinEnd q) s =
          .next (sent (setCarrier s o { carrier s o with
            joining := (carrier s o).joining.filter (· != n.val), lowDone := (carrier s o).lowDone ++ [n.val] }) 0)))
    ∧ (n.val ∈ (carrier s o).joined →
      (s.on (R.STI_STATE_BSTREQ n) = true → s.get (R.STI_STATE_STATE n) = 3 → (fraction s n).asked ≠ none →
        (falls (refreshAt s o n) → exec (.edgeInstant n .refreshLow q) s =
            .next (sent (if obeyed s n then setFraction (s.inc (R.MOD_CNT_REFRESH o)) n
              { fraction s n with low := some (q : Int), asked := none } else s) 1))
        ∧ (¬falls (refreshAt s o n) → exec (.edgeInstant n .refreshLow q) s = .next s))
      ∧ ((fraction s n).low = some ((q : Int) - 768) → exec (.edgeInstant n .refreshEnd q) s = .next (sent s 2)))
    ∧ (∀ held : List Int, refreshSlot s o n held = some q →
        let p := (fraction s n).per
        (∃ i : Nat, q = s.get (R.MOD_REF_REFPH o) * p / 65536 + i * 1280) ∧ q < p
        ∧ s.get (R.MOD_INST_UPD o) * p / 65536 + 256 ≤ q ∧ (∀ h ∈ held, 768 ≤ (h - (q : Int)).natAbs)
        ∧ (∃ x ∈ highSpans s o n, x.1 + 77 ≤ q ∧ q + 768 + 77 ≤ x.2)
        ∧ ∃ r, (fraction s n).asked = some r ∧ r ≤ q ∧ lowBefore s o n q r = false)
    ∧ (n.val ∈ (carrier s o).joined → ¬soon →
      (hemActive s = true → exec (.edgeInstant n (.edge false) q) s = .next (carried s 0))
      ∧ (hemActive s = false →
          (retired s n = true → exec (.edgeInstant n (.edge false) q) s =
              .next (carried s (if (ledgerOf s n).mode = true then 0 else 1)))
          ∧ (retired s n = false →
              (holdCovers s o = true ∨ winCovers s n = true → exec (.edgeInstant n (.edge false) q) s = .next (carried s 0))
              ∧ (ownCovers s n = true → exec (.edgeInstant n (.edge false) q) s = .next (carried s 0))
              ∧ (s.get (R.STI_STATE_STATE n) ≠ 3 → exec (.edgeInstant n (.edge false) q) s = .next (carried s 0))
              ∧ (effEnabled s o = false → exec (.edgeInstant n (.edge false) q) s = .next (carried s 0))
              ∧ (n.val ∈ s.waits → exec (.edgeInstant n (.edge false) q) s = .next (carried s 0))
              ∧ (holdCovers s o = false → winCovers s n = false → ownCovers s n = false →
                  s.get (R.STI_STATE_STATE n) = 3 → effEnabled s o = true → n.val ∉ s.waits →
                  exec (.edgeInstant n (.edge false) q) s =
                    .next (carried s (levelAt s o (fraction s n).per (fraction s n).cur q))))))

/-- A word accepted at MOD_CAR of a root in use, not slewed to a LINK, with PER between the one loaded and 6,400,000 (and a multiple of 32
where SYNC follows fabric time), gives PER to every seam of the tree; any other sets PERERR and changes nothing else. A word accepted at MOD_PH
of a seam no context is routed to sets PHASE and adds the way from the place of the old PHASE to that of the new one to the correction
still left (backwards at a root on MOD_SYNC_IN: the model's choice, log entry 64), SLEWING unless it is 0; else PHERR sets. An edge at MOD_SYNC_IN sets
SYNCIN_SEEN, and where a root aligns to it, its distance from PHASE becomes the correction; an error within 4 steps twice in a row sets SYNCOK and one above 64 clears it. Its absence clears both, stops the correction, and is one fault of class CLK in the root's scope. -/
def Obligations.ModulatorWrites : Prop :=
  (∀ (n : Fin 64) (s : State) (w : PortWrite), n ≠ 0 →
    (Accepts s w.port (R.MOD_CAR n) →
      let v := bitsOf w.data 0 23
      let ok := seamUsed s n = true ∧ s.get (R.SEAM_DESC_PARENT n) = 0 ∧ tget (fun _ => 0) s.loadedPer n ≤ v ∧ v ≤ 6400000
        ∧ s.get (R.MOD_CAR_SYNC n) ≠ 3 ∧ (s.get (R.MOD_CAR_SYNC n) = 2 → v % 32 = 0)
      (ok → ∃ t, exec (.modCarPerWrite n w) s = .next t ∧ PortRegs w.port (seams.map R.MOD_CAR) s t
        ∧ ∀ m, 1 ≤ m → m < 64 → t.word (R.MOD_CAR m) =
            if seamUsed s m = true ∧ rootOf s m = n.val then setBits (s.word (R.MOD_CAR m)) 0 23 v else s.word (R.MOD_CAR m))
      ∧ (¬ok → ∃ t, exec (.modCarPerWrite n w) s = .next t ∧ PortRegs w.port [R.MOD_STAT] s t
          ∧ t.on R.MOD_STAT_PERERR = true))
    ∧ (Accepts s w.port (R.MOD_PH n) →
      (s.get (R.MOD_PH_SRC_CTX n) = 0 →
        ∃ t, exec (.modPhWrite n w) s = .next t ∧ RegsOutside [R.MOD_PH n, R.MOD_SST n] s t
          ∧ t = { endRun w.port s with regs := t.regs, carriers := t.carriers }
          ∧ t.get (R.MOD_PH_PHASE n) = bitsOf w.data 0 16
          ∧ carrier t n = { carrier s n with
              rem := wrapPhase (nominal s n) ((carrier s n).rem +
                if s.get (R.MOD_CAR_SYNC n) = 1 then wantedPos s n - wantedPos t n else wantedPos t n - wantedPos s n) }
          ∧ (∀ m, m ≠ n.val → carrier t m = carrier s m)
          ∧ t.on (R.MOD_SST_SLEWING n) = decide ((carrier t n).rem ≠ 0))
      ∧ (s.get (R.MOD_PH_SRC_CTX n) ≠ 0 →
        ∃ t, exec (.modPhWrite n w) s = .next t ∧ PortRegs w.port [R.MOD_STAT] s t ∧ t.on R.MOD_STAT_PHERR = true)))
  ∧ ∀ s : State, domOn s 5 = true →
    (∀ q, syncInRoot s = 0 →
      ∃ t, exec (.modSyncInEdge q) s = .next t ∧ OnlyRegs [R.MOD_STAT] s t ∧ t.on R.MOD_STAT_SYNCIN_SEEN = true)
    ∧ (∀ q : Nat, syncInRoot s ≠ 0 → syncInRoot s < 64 → carriersRun s = true →
      let err := wrapPhase (nominal s (syncInRoot s))
        ((q : Int) - (s.get (R.MOD_PH_PHASE (syncInRoot s)) * nominal s (syncInRoot s) / 65536 : Nat))
      ∃ t, exec (.modSyncInEdge q) s = .next t ∧ t.on R.MOD_STAT_SYNCIN_SEEN = true
        ∧ RegsOutside [R.MOD_STAT, R.MOD_SST (syncInRoot s)] s t
        ∧ (carrier t (syncInRoot s)).rem = wrapPhase (nominal s (syncInRoot s)) err
        ∧ (64 < err.natAbs → t.on (R.MOD_SST_SYNCOK (syncInRoot s)) = false)
        ∧ (err.natAbs ≤ 4 → 1 ≤ (carrier s (syncInRoot s)).aligned → t.on (R.MOD_SST_SYNCOK (syncInRoot s)) = true))
    ∧ (syncInRoot s ≠ 0 → syncInRoot s < 64 → carriersRun s = true →
      ∃ u, exec .syncInTimeout s = .next (occur kCLK (seamScope (syncInRoot s)) 0 u)
        ∧ RegsOutside [R.MOD_STAT, R.MOD_SST (syncInRoot s)] s u ∧ u.on R.MOD_STAT_SYNCIN_SEEN = false
        ∧ u.on (R.MOD_SST_SYNCOK (syncInRoot s)) = false
        ∧ (carrier u (syncInRoot s)).rem = 0 ∧ (carrier u (syncInRoot s)).aligned = 0)

/-- A word that is accepted at CTX_SP of a context writes SP where SPSRC is C00, and else changes nothing and sets no flag (the SNAP
run of the port ends). While carriers run, at an update instant of a seam that is no STACK and has no LINK below it, each context c of the seam that has an
output to give and is routed to a context d whose SPSRC names c gives its output to SP of d, and shows it as YA; it is IDLE then, or parked
where it was to park. A route to a context whose SPSRC names another, or C00, writes no SP: that, of which the spec does not speak, is the model's
choice (log entry 66). -/
def Obligations.SetPointWrites : Prop :=
  (∀ (c : Fin 64) (s : State) (w : PortWrite), c ≠ 0 → Accepts s w.port (R.CTX_SP c) →
    (s.get (R.CTX_CFG_SPSRC c) = 0 →
      ∃ t, exec (.ctxSpWrite c w) s = .next t ∧ PortRegs w.port [R.CTX_SP c] s t
        ∧ t.word (R.CTX_SP c) = setBits (s.word (R.CTX_SP c)) 0 16 (bitsOf w.data 0 16))
    ∧ (s.get (R.CTX_CFG_SPSRC c) ≠ 0 → exec (.ctxSpWrite c w) s = .next (endRun w.port s)))
  ∧ ∀ (n : Fin 64) (due : Bool) (s : State), seamUsed s n = true → carriersRun s = true → seamType s n ≠ tSTACK →
      (∀ m ∈ seams, seamType s m = tLINK → s.get (R.SEAM_DESC_PARENT m) ≠ n.val) → (remoteX s n).reply = [] →
      ∃ t, exec (.updateInstant due [⟨n, none⟩]) s = .next t
        ∧ (∀ c ∈ contextsOf s n, (ctxSt s c).ex = .done → (ctxSt s c).noOut = false →
            t.get (R.CTX_Y_YA c) = s.get (R.CTX_Y_YC c)
            ∧ (ctxSt t c).ex = (if s.on (R.CTX_CTL_PARK c) = true ∨ s.on (R.CTX_STAT_HPARK c) = true then .parked else .idle)
            ∧ ∀ d : Nat, d < 64 → s.get (R.CTX_ROUTE_DEST c) = 4 → s.get (R.CTX_ROUTE_NUM c) = d →
                s.get (R.CTX_CFG_SPSRC d) = c → t.get (R.CTX_SP_SP d) = s.get (R.CTX_Y_YC c))
        ∧ (∀ d : Nat, d < 64 →
            (∀ c ∈ contextsOf s n, s.get (R.CTX_ROUTE_DEST c) = 4 → s.get (R.CTX_ROUTE_NUM c) = d →
              s.get (R.CTX_CFG_SPSRC d) ≠ c) → t.get (R.CTX_SP_SP d) = s.get (R.CTX_SP_SP d))

/-- A waiting execution becomes eligible t_trg after its sample instant. Of those that are ready and wait for no round the one with the earliest latest
start, the lower number among equals, takes a free lane: it runs, and everything it uses is captured, after its pleat has seen the lock of its
phase source where it has one; another does not start before it. At its latest start it starts on what there is where a lane is left for it by those
before it, or is skipped: LATE sets, LATECNT counts, one fault of class CTX-LATE. An execution that completes with its pleat off and raising nothing holds its output until the update instant: YC is the law chain's result,
r has moved towards the captured set-point by at most RATE, RAMPING tells whether it is there, the integrator shows, and the count of executions
rises. The ramp reaches the set-point within RATE, or at once with RATE 0, and else moves RATE towards it. Nothing else of the context changes. -/
def Obligations.ContextExecution : Prop :=
  let started := fun (s : State) (c : Nat) (due part : Bool) =>
    setCtxSt (pleatSees c s) c { ctxSt s c with
      ex := .running, eligible := false, rounds := [], cap := some (captureOf (pleatSees c s) c due part),
      runs := recentRuns s c ++ [s.cyc] }
  (∀ (c : Nat) (s : State), tb (s.get (R.CTX_CFG_STG c)) 5 = false → pleatSees c s = s)
  ∧ (∀ (c : Fin 64) (s : State) (due : Bool),
    ((ctxSt s c).ex = .waiting →
      exec (.ctxEligible c) s = .next (setCtxSt s c { ctxSt s c with eligible := true }))
    ∧ (settled s c = true → (ctxSt s c).rounds = [] → lanesBusy s < 8 →
      (∀ d, 1 ≤ d → d < 64 → d ≠ c.val → settled s d = true → (ctxSt s d).rounds = [] →
        (ctxSt s c).ls < (ctxSt s d).ls ∨ (ctxSt s c).ls = (ctxSt s d).ls ∧ c.val < d) →
      exec (.ctxExecStart c due) s = .next (started s c due false))
    ∧ (∀ d, 1 ≤ d → d < 64 → d ≠ c.val → settled s d = true → (ctxSt s d).rounds = [] →
      (ctxSt s d).ls < (ctxSt s c).ls ∨ (ctxSt s d).ls = (ctxSt s c).ls ∧ d < c.val →
      exec (.ctxExecStart c due) s = .next s)
    ∧ (settled s c = true → lanesBusy s + readyBefore s c < 8 →
      exec (.ctxLatestStart c due) s = .next (started s c due ((ctxSt s c).rounds != [])))
    ∧ ((ctxSt s c).ex = .waiting → (settled s c = false ∨ 8 ≤ lanesBusy s + readyBefore s c) →
      ∃ u, exec (.ctxLatestStart c due) s = .next (parkSync c (occur kLATE (contextScope c) 0 u))
        ∧ RegsOutside [R.CTX_STAT c, R.CTX_CNT c] s u ∧ u.on (R.CTX_STAT_LATE c) = true
        ∧ u.get (R.CTX_CNT_LATECNT c) = (s.get (R.CTX_CNT_LATECNT c) + 1) % 2 ^ (R.CTX_CNT_LATECNT c).wd
        ∧ ctxSt u c = { ctxSt s c with ex := .idle, eligible := false, rounds := [], deps := [] })
    ∧ (∀ k, (ctxSt s c).ex = .running → (ctxSt s c).cap = some k → tb (s.get (R.CTX_CFG_STG c)) 5 = false →
      let stg := s.get (R.CTX_CFG_STG c)
      let f := lawFront stg k (ctxSt s c)
      let p := lawPi (tb stg 4) k (ctxSt s c) f.ef
      let o := lawBack stg k (ctxSt s c) f p 0
      let frz := (s.word (R.CTX_FRZ c)).toNat
      (freezeCheck frz ((k.srcs.getD (frz / 2 ^ 30) ⟨0, 0, none, false⟩).val) o.y o.x).2 = false →
      (sourceChecks (ctxSt s c).used k.srcs (ctxSt s c).checks).2.2 = [] → s.get (R.CTX_LIM1_SATN c) = 0 →
      ∃ t, exec (.ctxExecDone c) s = .next t
        ∧ (ctxSt t c).ex = .done ∧ (ctxSt t c).cap = none ∧ (ctxSt t c).noOut = false
        ∧ (ctxSt t c).r = (if tb stg 0 then rampStep k.sp (ctxSt s c).r k.rate else k.sp)
        ∧ q15 (t.get (R.CTX_Y_YC c)) = o.y ∧ t.get (R.CTX_Y_YA c) = s.get (R.CTX_Y_YA c)
        ∧ t.on (R.CTX_STAT_RAMPING c) = decide ((ctxSt t c).r ≠ k.sp)
        ∧ t.get (R.CTX_EXC_EXC c) = (s.get (R.CTX_EXC_EXC c) + 1) % 2 ^ (R.CTX_EXC_EXC c).wd
        ∧ RegsOutside [R.CTX_STAT c, R.CTX_CNT c, R.CTX_Y c, R.CTX_SIG c, R.CTX_INT c, R.CTX_EXC c] s t
        ∧ t = { s with regs := t.regs, ctxs := t.ctxs }))
  ∧ ∀ (sp r : Int) (rate : Nat),
      ((sp - r).natAbs ≤ rate ∨ rate = 0 → rampStep sp r rate = sp)
      ∧ (rate < (sp - r).natAbs → rate ≠ 0 → (rampStep sp r rate - r).natAbs = rate
          ∧ (sp - rampStep sp r rate).natAbs + rate = (sp - r).natAbs)

/-- A word accepted at CTX_CTL with RESET 0 sets PARK: an IDLE context parks at once, a parked one goes back to IDLE where nothing else parks it and
no clear runs. With RESET 1 a parked context loses its state: both biquads, the integrator, the checks; r becomes SP and CTX_SIG.R shows it; on one that
is not parked CMDERR sets, and PARK takes the bit of the word (log entry 78, the model's choice). PLT_QF takes a word that keeps the Q-filter rule, any other sets WERR. A word of the memory window writes its two pool
cells while their owner is parked and not clearing, is discarded with DISCARDED otherwise, and is ignored where no context owns the cell. When a
clear ends every cell of the context is 0 and CLEARING is 0. -/
def Obligations.ContextWrites : Prop :=
  ∀ (c : Fin 64) (s : State), c ≠ 0 →
    (∀ p, Accepts s p (R.CTX_CTL c) →
      ((ctxSt s c).ex = .idle →
        ∃ t, exec (.ctxParkWrite c p true) s = .next t ∧ RegsOutside [R.CTX_CTL c, R.CTX_STAT c] s t
          ∧ t = { endRun p s with regs := t.regs, ctxs := t.ctxs } ∧ ctxSt t c = { ctxSt s c with ex := .parked }
          ∧ t.on (R.CTX_CTL_PARK c) = true ∧ t.on (R.CTX_STAT_PARKED c) = true)
      ∧ ((ctxSt s c).ex = .parked → s.on (R.CTX_STAT_HPARK c) = false → s.on (R.PLT_STAT_CLEARING c) = false →
        ∃ t, exec (.ctxParkWrite c p false) s = .next t ∧ RegsOutside [R.CTX_CTL c, R.CTX_STAT c] s t
          ∧ t = { endRun p s with regs := t.regs, ctxs := t.ctxs, plts := t.plts }
          ∧ ctxSt t c = { ctxSt s c with ex := .idle, used := false } ∧ pltSt t c = { pltSt s c with run := false }
          ∧ t.on (R.CTX_CTL_PARK c) = false ∧ t.on (R.CTX_STAT_PARKED c) = false)
      ∧ ((ctxSt s c).ex = .parked → s.on (R.CTX_STAT_PARKED c) = true →
        ∃ t, exec (.ctxReset c p true) s = .next t
          ∧ RegsOutside [R.CTX_CTL c, R.CTX_STAT c, R.CTX_INT c, R.CTX_SIG c, R.PLT_STAT c] s t
          ∧ ctxSt t c = { ctxSt s c with
                bq1 := Biquad.zero, bq2 := Biquad.zero, i := 0, r := s.sget (R.CTX_SP_SP c), yl := s.sget (R.CTX_Y_YA
                c), used := false, frzEp := false, checks := [] }
          ∧ pltSt t c = { pltSt s c with run := false }
          ∧ t.get (R.CTX_INT_I c) = 0 ∧ t.sget (R.CTX_SIG_R c) = s.sget (R.CTX_SP_SP c)
          ∧ (s.on (R.PLT_CTL_RSTMEM c) = true → plen s c ≠ 0 → t.on (R.PLT_STAT_CLEARING c) = true))
      ∧ (s.on (R.CTX_STAT_PARKED c) = false → (ctxSt s c).ex = .running →
        ∃ t, exec (.ctxReset c p true) s = .next t ∧ PortRegs p [R.CTX_CTL c, R.CTX_STAT c, R.CTX_UST] s t
          ∧ t.on R.CTX_UST_CMDERR = true ∧ t.on (R.CTX_CTL_PARK c) = true))
    ∧ (∀ w : PortWrite, Accepts s w.port (R.PLT_QF c) →
        let qc := q15 (bitsOf w.data 16 16)
        let qs := q15 (bitsOf w.data 0 16)
        (0 ≤ qc → 0 ≤ qs → qc + 2 * qs ≤ 32768 →
          ∃ t, exec (.pltQfWrite c w) s = .next t ∧ PortRegs w.port [R.PLT_QF c] s t ∧ t.word (R.PLT_QF c) = w.data)
        ∧ (qc < 0 ∨ qs < 0 ∨ 32768 < qc + 2 * qs →
          ∃ t, exec (.pltQfWrite c w) s = .next t ∧ PortRegs w.port [R.PLT_STAT c] s t ∧ t.on (R.PLT_STAT_WERR c) = true))
    ∧ (∀ (i : Fin 131072) (w : PortWrite), Accepts s w.port (0x100000 + 4 * i.val) →
        (cellOwner s (2 * i) = 0 → exec (.pltWindowWrite i w) s = .next (endRun w.port s))
        ∧ (cellOwner s (2 * i) = c.val → s.on (R.CTX_STAT_PARKED c) = true → s.on (R.PLT_STAT_CLEARING c) = false →
          ∃ t, exec (.pltWindowWrite i w) s = .next t ∧ t = { endRun w.port s with pool := t.pool }
            ∧ poolCell t (2 * i) = bitsOf w.data 0 16 ∧ poolCell t (2 * i + 1) = bitsOf w.data 16 16
            ∧ ∀ k, k ≠ 2 * i.val → k ≠ 2 * i.val + 1 → poolCell t k = poolCell s k)
        ∧ (cellOwner s (2 * i) = c.val → (s.on (R.CTX_STAT_PARKED c) = false ∨ s.on (R.PLT_STAT_CLEARING c) = true) →
          ∃ t, exec (.pltWindowWrite i w) s = .next t ∧ PortRegs w.port [R.HST_STAT, R.HST_ERRADDR] s t
            ∧ t.on R.HST_STAT_DISCARDED = true ∧ t.get R.HST_ERRADDR_ADDR = 0x100000 + 4 * i.val))
    ∧ (s.on (R.PLT_STAT_CLEARING c) = true → (ctxSt s c).ex = .parked → s.on (R.CTX_CTL_PARK c) = true →
        ∃ t, exec (.pltClearDone c) s = .next t ∧ RegsOutside [R.PLT_STAT c, R.CTX_STAT c] s t
          ∧ t = { s with regs := t.regs, pool := t.pool } ∧ t.on (R.PLT_STAT_CLEARING c) = false
          ∧ (∀ i, plen s c ≠ 0 → memCell t c i = 0)
          ∧ ∀ k, k < s.get (R.PLT_MEM_BASE c) ∨ s.get (R.PLT_MEM_BASE c) + plen s c ≤ k → poolCell t k = poolCell s k)

/-- A trigger of an enabled sequence with no round running starts one: the next tag, RUN, CMPL 0, every entry left. With a round running and POLICY 0 it
is an overrun: counted, and shown in ACQ_OVRMAP. EN written 1 enables alone; written 0 it abandons the round and drops a pending one. A GO on an
urgent slot that converts already is an overrun of the slot; on a free converter the slot converts at once. A conversion's code is the
input over 1.200 V in 32,768 parts, to the nearest, saturated, and it is over-range where the input went beyond ±102 % (R156). The last sample of an entry that is not the last
of its round, where it raises no ACQ-ORNG, writes the shifted and rounded sum with the round's tag, NEW, not PART, ORNG counted, and leaves the others; an earlier sample only adds to the sum. The last
entry completes the round: CMPL, CTAG, DONE, RUN 0. An urgent conversion writes its code, counts and tags it, and sets UGDONE. The conversions
that end in one cycle all end before the requests that meet them, and these come before the free converters grant (R165, R166); all is one engine
cycle (R247). A GO that raises EN as well requests its conversion (log entry 82, the model's choice). -/
def Obligations.AcquisitionRounds : Prop :=
  (∀ (q : Fin 16) (p : Nat) (s : State), Accepts s p (R.ACQ_SQCTL q) →
    (s.on (R.ACQ_SQCTL_EN q) = true → seqOn s q = true → seqRuns s q = false →
      ∃ t, exec (.acqTrig q p true) s = .next t ∧ seqRuns t q = true ∧ t.on (R.ACQ_SQSTAT_CMPL q) = false
        ∧ t.get (R.ACQ_SQSTAT_NTAG q) = (s.get (R.ACQ_SQSTAT_NTAG q) + 1) % 32
        ∧ t.get (R.ACQ_SQSTAT_LEFT q) = s.get (R.ACQ_SQCFG_NENT q) % 64
        ∧ (seqSt t q).left = List.range (s.get (R.ACQ_SQCFG_NENT q)) ∧ (seqSt t q).ovr = 0
        ∧ (∀ e, e < 32 → t.on (R.ACQ_RES_NEW (32 * q + e)) = false)
        ∧ t = { endRun p s with regs := t.regs, acq := t.acq })
    ∧ (s.on (R.ACQ_SQCTL_EN q) = true → seqOn s q = true → seqRuns s q = true → s.get (R.ACQ_SQCFG_POLICY q) = 0 →
        s.get (R.ACQ_SQCFG_STALN q) = 0 →
      ∃ t, exec (.acqTrig q p true) s = .next t ∧ t.word (R.ACQ_SQSTAT q) = s.word (R.ACQ_SQSTAT q)
        ∧ t.get (R.ACQ_SQCNT_OVR q) = (s.get (R.ACQ_SQCNT_OVR q) + 1) % 256
        ∧ tb (t.get R.ACQ_OVRMAP_MAP) q = true ∧ (seqSt t q).left = (seqSt s q).left)
    ∧ (s.on (R.ACQ_SQCTL_EN q) = false →
      ∃ t, exec (.acqEnWrite q p true) s = .next t ∧ PortRegs p [R.ACQ_SQCTL q] s t ∧ t.on (R.ACQ_SQCTL_EN q) = true)
    ∧ (s.on (R.ACQ_SQCTL_EN q) = true → (seqRuns s q = false ∨ (seqSt s q).prog = []) →
      ∃ t, exec (.acqEnWrite q p false) s = .next t ∧ t.on (R.ACQ_SQCTL_EN q) = false
        ∧ t.on (R.ACQ_SQSTAT_PEND q) = false ∧ seqRuns t q = false))
  ∧ (∀ (k : Fin 8) (p : Nat) (s : State), Accepts s p (R.ACQ_UGCTL k) →
    (ugBusy s k = true →
      ∃ t, exec (.urgentGo k p true) s = .next t ∧ t.on (R.ACQ_UGCTL_EN k) = true
        ∧ t.get (R.ACQ_UGCNT_OVR k) = (s.get (R.ACQ_UGCNT_OVR k) + 1) % 256)
    ∧ (ugBusy s k = false → s.acq.urgent = [] → (conv s (s.get (R.ACQ_UGCFG_CONV k))).job = none →
        s.get (R.ACQ_UGCFG_CONV k) < 4 →
      ∃ t, exec (.urgentGo k p true) s = .next t ∧ t.on (R.ACQ_UGCTL_EN k) = true
        ∧ (conv t (s.get (R.ACQ_UGCFG_CONV k))).job = some (.urgent k) ∧ t.acq.urgent = []))
  ∧ (∀ x : Int,
    (-1200000000 ≤ x → x ≤ 1199963378 → 2 * (convCode x * 1200000000 - x * 32768).natAbs ≤ 1200000000)
    ∧ (1200000000 < x → convCode x = 32767) ∧ (x < -1200000000 → convCode x = -32768))
  ∧ ∀ (v : Fin 4) (x peak : Int) (s : State),
    let big := decide (1224000000 < peak.natAbs)
    let cvs := (List.range 4).map R.ACQ_CVSTAT
    ((conv s v).job = none → ∀ met, exec (.conversionDone v x peak met) s = .next s)
    ∧ ((conv s v).job ≠ none → ∀ met, exec (.conversionDone v x peak met) s =
        .next (oneCycle (fun a => grantAll (forL met meetConversion (forL met meetEnd (endConversion v (convCode x) big a)))) s))
    ∧ (∀ (u : Fin 4) (y pk : Int), meetEnd (.done u y pk) s = endConversion u (convCode y) (decide (1224000000 < pk.natAbs)) s)
    ∧ (∀ q e, q < 16 → e < 32 → (conv s v).job = some (.seq q e) →
      let pr := tget (fun _ => Progress.zero) (seqSt s q).prog e
      let o := pr.orng || big
      (pr.cnt + 1 < entAvg s q e →
        ∃ t, exec (.conversionDone v x peak []) s = .next t
          ∧ tget (fun _ => Progress.zero) (seqSt t q).prog e = ⟨pr.cnt + 1, pr.sum + convCode x, o⟩
          ∧ (seqSt t q).left = (seqSt s q).left
          ∧ t = { s with regs := t.regs, acq := t.acq } ∧ RegsOutside cvs s t)
      ∧ (entAvg s q e ≤ pr.cnt + 1 → (o = true → s.on (R.ACQ_ENT_ORNGF (32 * q + e)) = false) →
          (seqSt s q).left.filter (· != e) ≠ [] → e ∉ (seqSt s q).orngEp →
        ∃ t, exec (.conversionDone v x peak []) s = .next t
          ∧ t.get (R.ACQ_RES_VALUE (32 * q + e)) =
              code 24 (entryValue (pr.sum + convCode x) (s.get (R.ACQ_ENT_SHIFT (32 * q + e))))
          ∧ t.get (R.ACQ_RES_TAG (32 * q + e)) = s.get (R.ACQ_SQSTAT_NTAG q)
          ∧ t.on (R.ACQ_RES_NEW (32 * q + e)) = true ∧ t.on (R.ACQ_RES_PART (32 * q + e)) = false
          ∧ t.on (R.ACQ_RES_ORNG (32 * q + e)) = o
          ∧ t.get (R.ACQ_SQCNT_ORNGCNT q) = (s.get (R.ACQ_SQCNT_ORNGCNT q) + o.toNat) % 2 ^ (R.ACQ_SQCNT_ORNGCNT q).wd
          ∧ (seqSt t q).left = (seqSt s q).left.filter (· != e)
          ∧ RegsOutside ([R.ACQ_RES (32 * q + e), R.ACQ_SQSTAT q, R.ACQ_SQCNT q, R.PWR_STAT] ++ cvs) s t)
      ∧ (entAvg s q e ≤ pr.cnt + 1 → (o = true → s.on (R.ACQ_ENT_ORNGF (32 * q + e)) = false) →
          (seqSt s q).left.filter (· != e) = [] → e ∉ (seqSt s q).orngEp → s.on (R.ACQ_SQSTAT_PEND q) = false →
          (∀ r, r < 16 → s.get (R.ACQ_SQCFG_TSRC r) = 2 → s.get (R.ACQ_SQCFG_TNUM r) ≠ q) →
        ∃ t, exec (.conversionDone v x peak []) s = .next t
          ∧ t.on (R.ACQ_SQSTAT_CMPL q) = true ∧ t.get (R.ACQ_SQSTAT_CTAG q) = s.get (R.ACQ_SQSTAT_NTAG q)
          ∧ seqRuns t q = false ∧ tb (t.get R.ACQ_IRQ_DONE) q = true ∧ t.on (R.ACQ_SQSTAT_STALE q) = false
          ∧ t.on (R.ACQ_RES_NEW (32 * q + e)) = true))
    ∧ ∀ k, k < 8 → (conv s v).job = some (.urgent k) →
        ∃ t, exec (.conversionDone v x peak []) s = .next t
          ∧ t.get (R.ACQ_UGCNT_CNT k) = (s.get (R.ACQ_UGCNT_CNT k) + 1) % 256
          ∧ t.get (R.ACQ_URES_VALUE k) = code 24 (convCode x) ∧ t.get (R.ACQ_URES_TAG k) = t.get (R.ACQ_UGCNT_CNT k) % 32
          ∧ t.on (R.ACQ_URES_NEW k) = true ∧ t.on (R.ACQ_URES_ORNG k) = big ∧ tb (t.get R.ACQ_IRQ_UGDONE) k = true
          ∧ RegsOutside ([R.ACQ_UGCNT k, R.ACQ_URES k, R.ACQ_IRQ] ++ cvs) s t

/-- R176, for each event at which a window can trip: the input, in nV, passes the threshold of a comparator in use, the blanking of edges ends, or a changed
threshold's blanking ends with its comparator settled and active. Where edges are not blanked and LATCHED is 0, LATCHED sets, TRIPS counts one and one fault of class WIN-TRIP (0x0E) in the scope of
the window (0x5000 + w) is raised. While LATCHED is 1, TRIPS and every register but the window's own status stay, so nothing is raised. -/
def Obligations.WindowTrips : Prop :=
  ∀ (w : Fin 64) (s : State),
    let trips := fun (i : Instr) => ∃ u, exec i s = .next (occur 0x0E (0x5000 + w) 0 u)
      ∧ u.on (R.WIN_STAT_LATCHED w) = true
      ∧ u.get (R.WIN_CNT_TRIPS w) = (s.get (R.WIN_CNT_TRIPS w) + 1) % 2 ^ 16
      ∧ RegsOutside [R.WIN_STAT w, R.WIN_CNT w] s u
    let quiet := fun (i : Instr) => ∃ t, exec i s = .next t ∧ t.on (R.WIN_STAT_LATCHED w) = true
      ∧ t.get (R.WIN_CNT_TRIPS w) = s.get (R.WIN_CNT_TRIPS w) ∧ RegsOutside [R.WIN_STAT w, R.WIN_CNT w] s t
      ∧ t = { s with regs := t.regs, wins := t.wins }
    (s.on (R.WIN_STAT_LATCHED w) = false → s.on (R.WIN_STAT_BLANKED w) = false → winOn s w = true →
      (∀ (high : Bool) (x : Int), winUses s w high = true →
        (if high then (winSt s w).dsetHi else (winSt s w).dsetLo) = false →
        (if high then ((s.get (R.WIN_THR_HI w) : Int) - 512) * 2343750 < x
         else x < ((s.get (R.WIN_THR_LO w) : Int) - 512) * 2343750) → trips (.winComparatorChange w x))
      ∧ (∀ high : Bool, winReports s w high = true → (if high then (winSt s w).setHi else (winSt s w).setLo) = true →
          trips (.winDsetEnd w high)))
    ∧ (s.on (R.WIN_STAT_LATCHED w) = false → s.on (R.WIN_STAT_BLANKED w) = true →
        (winArmed s w true = true ∨ winArmed s w false = true) → trips (.winBlankEnd w))
    ∧ (s.on (R.WIN_STAT_LATCHED w) = true →
        (∀ x : Int, quiet (.winComparatorChange w x))
        ∧ (∀ high : Bool, quiet (.winDsetEnd w high)) ∧ quiet (.winBlankEnd w))

/-- A word accepted at WIN_THR sets both codes, and blanks each comparator whose code changed, unless MODE is OUTSIDE and HI is not above
LO: then WERR sets and nothing else. A 1 to LATCHED clears a set latch while the condition is absent, and sets CLRERR while it is present; a trip in the
cycle of the clear, by the input or by the end of a blanking, leaves LATCHED set, counts, and raises WIN-TRIP (R178). EN raised starts the window:
comparators unsettled, UNSETTLED for each one in use. EN lowered while LATCHED is 0 stops it and its outputs read 0; while it is 1, EN stays and CLRERR sets. -/
def Obligations.WindowWrites : Prop :=
  ∀ (w : Fin 64) (s : State),
    (∀ d : PortWrite, Accepts s d.port (R.WIN_THR w) →
      let hi := bitsOf d.data 16 10
      let lo := bitsOf d.data 0 10
      (s.get (R.WIN_CFG_MODE w) = 3 → hi ≤ lo →
        ∃ t, exec (.winThrWrite w d) s = .next t ∧ PortRegs d.port [R.WIN_STAT w] s t ∧ t.on (R.WIN_STAT_WERR w) = true)
      ∧ (s.get (R.WIN_CFG_MODE w) ≠ 3 ∨ lo < hi →
        ∃ t, exec (.winThrWrite w d) s = .next t ∧ RegsOutside [R.WIN_THR w] s t
          ∧ t = { endRun d.port s with regs := t.regs, wins := t.wins }
          ∧ t.get (R.WIN_THR_HI w) = hi ∧ t.get (R.WIN_THR_LO w) = lo
          ∧ winSt t w = { winSt s w with
              dsetHi := (winSt s w).dsetHi || decide (hi ≠ s.get (R.WIN_THR_HI w))
              dsetLo := (winSt s w).dsetLo || decide (lo ≠ s.get (R.WIN_THR_LO w)) }
          ∧ ∀ m, m ≠ w.val → winSt t m = winSt s m))
    ∧ (∀ d : PortWrite, Accepts s d.port (R.WIN_STAT w) → d.data.getLsbD 31 = true → s.on (R.WIN_STAT_LATCHED w) = true →
      (winCondition s w = false →
        ∃ t, exec (.winLatchClear w d []) s = .next t ∧ t.on (R.WIN_STAT_LATCHED w) = false
          ∧ RegsOutside [R.WIN_STAT w] s t)
      ∧ (winCondition s w = true →
        ∃ t, exec (.winLatchClear w d []) s = .next t ∧ PortRegs d.port [R.WIN_STAT w] s t
          ∧ t.on (R.WIN_STAT_LATCHED w) = true ∧ t.on (R.WIN_STAT_CLRERR w) = true)
      ∧ (∀ x : Int, winCondition s w = false → s.on (R.WIN_STAT_BLANKED w) = false → winOn s w = true →
          winUses s w true = true → (winSt s w).dsetHi = false →
          ((s.get (R.WIN_THR_HI w) : Int) - 512) * 2343750 < x →
        ∃ u, exec (.winLatchClear w d [.input x]) s = .next (occur 0x0E (0x5000 + w) 0 u)
          ∧ u.on (R.WIN_STAT_LATCHED w) = true ∧ u.get (R.WIN_CNT_TRIPS w) = (s.get (R.WIN_CNT_TRIPS w) + 1) % 2 ^ 16
          ∧ RegsOutside [R.WIN_STAT w, R.WIN_CNT w] s u)
      ∧ (s.on (R.WIN_STAT_BLANKED w) = true → (winArmed s w true = true ∨ winArmed s w false = true) →
        ∃ u, exec (.winLatchClear w d [.blankEnd]) s = .next ((occur 0x0E (0x5000 + w) 0 u).flag (R.WIN_STAT_CLRERR w) true)
          ∧ u.on (R.WIN_STAT_LATCHED w) = true ∧ u.on (R.WIN_STAT_BLANKED w) = false
          ∧ u.get (R.WIN_CNT_TRIPS w) = (s.get (R.WIN_CNT_TRIPS w) + 1) % 2 ^ 16
          ∧ RegsOutside [R.WIN_STAT w, R.WIN_CNT w] s u))
    ∧ (∀ p, Accepts s p (R.WIN_CTL w) →
      (s.on (R.WIN_CTL_EN w) = false →
        ∃ t, exec (.winEnWrite w p true) s = .next t ∧ t.on (R.WIN_CTL_EN w) = true
          ∧ winSt t w = { winSt s w with
                hi := false, lo := false, setHi := false, setLo := false, hit := (winSt t w).hit }
          ∧ RegsOutside [R.WIN_CTL w, R.WIN_STAT w, R.WIN_CNT w] s t
          ∧ t.on (R.WIN_STAT_UNSETTLED w) =
              (domOn s 4 && s.get (R.WIN_CFG_MODE w) != 0 && (winUses s w true || winUses s w false)))
      ∧ (s.on (R.WIN_CTL_EN w) = true → s.on (R.WIN_STAT_LATCHED w) = false →
        ∃ t, exec (.winEnWrite w p false) s = .next t ∧ t.on (R.WIN_CTL_EN w) = false
          ∧ RegsOutside [R.WIN_CTL w, R.WIN_STAT w] s t ∧ t.on (R.WIN_STAT_OUTHI w) = false
          ∧ t.on (R.WIN_STAT_OUTLO w) = false ∧ t.on (R.WIN_STAT_UNSETTLED w) = false)
      ∧ (s.on (R.WIN_CTL_EN w) = true → s.on (R.WIN_STAT_LATCHED w) = true →
        ∃ t, exec (.winEnWrite w p false) s = .next t ∧ PortRegs p [R.WIN_STAT w] s t
          ∧ t.on (R.WIN_STAT_CLRERR w) = true ∧ t.on (R.WIN_CTL_EN w) = true))

/-- An update outside the modes of the PLL leaves the outputs as they were, lets time pass and restarts the time of LOCK (R201); in those modes the frequency stays between 45 and 65 Hz, COAST says
that the positive sequence is below VMIN, a coasting unit is not LOCKed, FCLAMP shows the ends of the range, and the angle advances by the new frequency; a change of LOCK reaches the pleats that follow it (R150). A TRIP point whose
timer has come to TIME sets TRIPPED, shows its curve and point, counts, drops ENTOK and is one fault of class GRD-TRIP, or, where TRIPPED is 1
already, only shows its curve and point and drops ENTOK (R191); a CEASE point sets CEASE and counts; a
point whose TIME has not come does nothing. CEASE ends after RETDLY, a TRIP point
that has come to its TIME acting first (R194); INJ ends after POST with output 15 at 0; ENTOK sets after DLY. A clear of TRIPPED or ISL while its cause
stands only sets CLRERR, else it clears. HOLD is TRIPPED or ISL or CEASE: where it must change, it does, and the holds follow. -/
def Obligations.GridActs : Prop :=
  let want := fun (x : State) => x.on R.GRD_STAT_TRIPPED || x.on R.GRD_STAT_ISL || x.on R.GRD_STAT_CEASE
  (∀ s : State,
    (want s = s.on R.GRD_STAT_HOLD → syncGridHold s = s)
    ∧ (want s ≠ s.on R.GRD_STAT_HOLD → s.on R.FLT_CFG_QPOL = false →
        ∃ u, syncGridHold s = syncHolds u ∧ u.on R.GRD_STAT_HOLD = want s ∧ RegsOutside [R.GRD_STAT] s u
          ∧ u = { s with regs := u.regs, host := u.host }))
  ∧ (∀ s : State, s.grd.ready = true → gridRuns s = true →
    let dt := gridDt s
    (gPLL s = false → exec .gridUpdate s =
        .next (stepFunctions dt { s with
          grd := { s.grd with ready := false, time := s.grd.time + dt, lockT := 0, lockBad := 0 } }))
    ∧ (gPLL s = true →
        ∃ u, exec .gridUpdate s = .next (stepFunctions dt u) ∧ u.grd.ready = false ∧ u.grd.time = s.grd.time + dt
          ∧ u.on R.GRD_STAT_COAST = decide (u.grd.vpos < 1000 * (s.get R.GRD_LOCK_VMIN : Int))
          ∧ u.on R.GRD_STAT_FCLAMP = (u.grd.f == 45000000 || u.grd.f == 65000000)
          ∧ (u.on R.GRD_STAT_COAST = true → u.on R.GRD_STAT_LOCK = false ∧ u.grd.f = s.grd.f)
          ∧ (u.on R.GRD_STAT_COAST = false → 45000000 ≤ u.grd.f ∧ u.grd.f ≤ 65000000)
          ∧ u.grd.th = advance s.grd.th u.grd.f dt
          ∧ (∀ a, a < 0x090080 ∨ 0x090180 ≤ a → a ∉ seams.map R.PLT_STAT → a ∉ seams.map R.PLT_CNT → u.word a = s.word a)
          ∧ u = { s with regs := u.regs, grd := u.grd, plts := u.plts }))
  ∧ (∀ (freq : Bool) (p : Fin 16) (s : State),
    let i := p.val + (if freq then 16 else 0)
    let w := pointWord s i
    let t := tget (fun _ => 0) s.grd.timers i
    let cv := if freq then 2 else 1
    (t < ptTIME w ∨ t = 0 → exec (.curvePointAct freq p) s = .next s)
    ∧ (gridRuns s = true → i ∉ s.grd.acting → 0 < t → ptTIME w ≤ t →
      (ptACT w = 1 → gTRIP s = true → s.on R.GRD_STAT_TRIPPED = false →
        ∃ u, exec (.curvePointAct freq p) s = .next (occur kGTRIP gridScope (cv * 16 + p.val) (syncGridHold u))
          ∧ RegsOutside [R.GRD_STAT, R.GRD_CAUSE, R.GRD_CNT, R.GRD_ENTT] s u ∧ u.on R.GRD_STAT_TRIPPED = true
          ∧ u.on R.GRD_STAT_ENTOK = false ∧ u.get R.GRD_CAUSE_TCRV = cv ∧ u.get R.GRD_CAUSE_TPOINT = p
          ∧ u.get R.GRD_CNT_TRIPS = (s.get R.GRD_CNT_TRIPS + 1) % 256
          ∧ u = { s with regs := u.regs, grd := { s.grd with acting := i :: s.grd.acting, entT := 0 } })
      ∧ (ptACT w = 1 → gTRIP s = true → s.on R.GRD_STAT_TRIPPED = true →
        ∃ u, exec (.curvePointAct freq p) s = .next u ∧ RegsOutside [R.GRD_STAT, R.GRD_CAUSE, R.GRD_ENTT] s u
          ∧ u.on R.GRD_STAT_TRIPPED = true ∧ u.on R.GRD_STAT_ENTOK = false ∧ u.get R.GRD_CAUSE_TCRV = cv
          ∧ u.get R.GRD_CAUSE_TPOINT = p
          ∧ u = { s with regs := u.regs, grd := { s.grd with acting := i :: s.grd.acting, entT := 0 } })
      ∧ (ptACT w = 2 → gCEASE s = true → s.on R.GRD_STAT_CEASE = false →
        ∃ u, exec (.curvePointAct freq p) s = .next (syncGridHold u) ∧ RegsOutside [R.GRD_STAT, R.GRD_CNT] s u
          ∧ u.on R.GRD_STAT_CEASE = true ∧ u.get R.GRD_CNT_CEASES = (s.get R.GRD_CNT_CEASES + 1) % 256
          ∧ u = { s with regs := u.regs, grd := { s.grd with acting := i :: s.grd.acting, ceaseT := 0 } })))
  ∧ (∀ s : State,
    let acts := fun (i : Nat) (a : State) =>
      if gridRuns a && ptACT (pointWord a i) == 1 && pointDue a i then actPoint i a else a
    (s.on R.GRD_STAT_CEASE = true → ceaseActs s = false → s.get R.GRD_CRVCTL_RETDLY * steps1ms ≤ s.grd.ceaseT →
      exec .ceaseReturn s = .next (syncGridHold ((forL (List.range 32) acts s).flag R.GRD_STAT_CEASE false)))
    ∧ (s.on R.GRD_STAT_CEASE = true → ceaseActs s = false → s.get R.GRD_CRVCTL_RETDLY * steps1ms ≤ s.grd.ceaseT →
        (∀ i, i < 32 → ptACT (pointWord s i) = 1 → pointDue s i = false) →
      ∃ u, exec .ceaseReturn s = .next (syncGridHold u) ∧ OnlyRegs [R.GRD_STAT] s u ∧ u.on R.GRD_STAT_CEASE = false)
    ∧ (ceaseActs s = true → exec .ceaseReturn s = .next s)
    ∧ (s.on R.GRD_STAT_INJ = true → 0 < s.grd.injT → s.get R.GRD_RT_POST * steps10ms ≤ s.grd.injT →
      ∃ t, exec .injPostEnd s = .next t ∧ OnlyRegs [R.GRD_STAT, R.GRD_OUT 15] s t ∧ t.on R.GRD_STAT_INJ = false
        ∧ t.get (R.GRD_OUT_OUT 15) = 0)
    ∧ (gridRuns s = true → gENTER s = true → entryHolds s = true →
        s.get R.GRD_ENTD_DLY * stepsPerSecond ≤ s.grd.entT →
      ∃ t, exec .entokSet s = .next t ∧ OnlyRegs [R.GRD_STAT] s t ∧ t.on R.GRD_STAT_ENTOK = true))
  ∧ ∀ (d : PortWrite) (s : State), Accepts s d.port R.GRD_STAT → d.data.getLsbD 21 = false →
      s.on R.GRD_STAT_HOLD = want s →
    ∀ i ∈ [Instr.grdTrippedClear d, Instr.grdIslClear d],
      (d.data.getLsbD 31 = true → d.data.getLsbD 30 = false → s.on R.GRD_STAT_TRIPPED = true →
        (tripRuns s = true → ∃ t, exec i s = .next t ∧ PortRegs d.port [R.GRD_STAT] s t
          ∧ t.on R.GRD_STAT_CLRERR = true ∧ t.on R.GRD_STAT_TRIPPED = true)
        ∧ (tripRuns s = false → ∃ u, exec i s = .next (syncGridHold u) ∧ PortRegs d.port [R.GRD_STAT] s u
          ∧ u.on R.GRD_STAT_CLRERR = s.on R.GRD_STAT_CLRERR ∧ u.on R.GRD_STAT_TRIPPED = false))
      ∧ (d.data.getLsbD 31 = false → d.data.getLsbD 30 = true → s.on R.GRD_STAT_ISL = true →
        (islPresent s = true → ∃ t, exec i s = .next t ∧ PortRegs d.port [R.GRD_STAT] s t
          ∧ t.on R.GRD_STAT_CLRERR = true ∧ t.on R.GRD_STAT_ISL = true)
        ∧ (islPresent s = false → ∃ u, exec i s = .next (syncGridHold u) ∧ PortRegs d.port [R.GRD_STAT] s u
          ∧ u.on R.GRD_STAT_CLRERR = s.on R.GRD_STAT_CLRERR ∧ u.on R.GRD_STAT_ISL = false))

/-- While metering runs, a sample without a crossing that fills no window enters the open window of every channel that meters: the sums of its scaled codes grow, and a channel
that does not meter stays. An accepted crossing closes the window before its sample, which opens the next. 1,920 samples without a crossing close the
window too and set ZCTO, counted. A closed window keeps the working copy it was metered with, and a close meets the snapshot asked for. A closed window that is added leaves its list, shows its length and
counts; below the no-load threshold no energy is added; else none is lost, and never both to import and export; the retained copy follows. A snapshot is taken once
the windows closed up to its closing event are added: the record counter goes up, the accumulators are kept for the mirror and the body waits for its mirror writes, or where the slot of the ring is PENDING the snapshot is skipped, counted, with a gap. A boundary asks for a snapshot, also while EN is 0. That the first crossing needs no spacing is log entry 11, and that a snapshot
follows every window closed up to its closing event log entry 12: the model's readings. An integrity error shows its cause, counts, and is one
MTR-INT. -/
def Obligations.MeterSamples : Prop :=
  (∀ (xs : List (BitVec 24 × BitVec 24)) (s : State), mtrRuns s = true →
    let v := fun (c : Nat) => (xs.getD c (0, 0)).1.toInt
    let i := fun (c : Nat) => (xs.getD c (0, 0)).2.toInt
    (∀ c, c < 4 → (mtrCh s c).run = true → ((mtrCh s c).isDc = true ∨ (mtrCh s c).armed = false ∨ v c < 0)
        ∧ (mtrCh s c).win.n + 1 < 640) →
    (∀ c, c < 4 → (mtrCh s c).run = false → s.on (R.MTR_CHCFG_CHEN c) = false) →
    ∃ t, exec (.mtrSample xs) s = .next t ∧ t = { s with
          mtr := { s.mtr with chans := t.mtr.chans, event := s.mtr.event + 1 } }
      ∧ ∀ c, c < 4 →
        ((mtrCh s c).run = false → mtrCh t c = mtrCh s c)
        ∧ ((mtrCh s c).run = true →
          let x := mtrCh s c
          let xv := v c * (x.work.getD 1 0 : Int)
          let xi := (if tb x.cfg 29 then -i c else i c) * (x.work.getD 2 0 : Int)
          (mtrCh t c).win = ⟨x.win.n + 1, x.win.vv + xv * xv, x.win.ii + xi * xi, x.win.vi + xv * xi, (mtrCh t c).win.qi⟩
            ∧ (mtrCh t c).closed = x.closed ∧ (mtrCh t c).since = x.since + 1 ∧ (mtrCh t c).work = x.work))
  ∧ (∀ (c : Nat) (v i : Int) (s : State), c < 4 → (mtrCh s c).run = true → (mtrCh s c).isDc = false →
      (mtrCh s c).armed = true → 0 ≤ v →
      (s.on (R.MTR_CHSTAT_ZCTO c) = true ∨ (mtrCh s c).crossed = false ∨ 384 ≤ (mtrCh s c).since) →
      s.on R.PAT_STAT_APPLYING = false → s.on (R.MTR_CHCFG_CHEN c) = true →
    let t := sampleChannel c v i s
    (mtrCh t c).closed = (mtrCh s c).closed ++ [⟨(mtrCh s c).win, (mtrCh s c).work, s.mtr.event⟩] ∧ (mtrCh t c).win.n = 1 ∧ (mtrCh t c).since = 1
      ∧ (mtrCh t c).armed = false ∧ (mtrCh t c).work = sealWords s c ∧ t.on (R.MTR_CHSTAT_ZCTO c) = false
      ∧ RegsOutside [R.MTR_CHSTAT c] s t ∧ (∀ m, m ≠ c → mtrCh t m = mtrCh s m)
      ∧ (asked s = false → t.mtr.dues = s.mtr.dues)
      ∧ (asked s = true → asked t = false ∧ ∃ d, t.mtr.dues.getLast? = some d ∧ d.at_ = s.mtr.event
          ∧ (s.mtr.askClose = true → d.close = true) ∧ ((s.mtr.askNow || s.mtr.askClose) = true → d.early = true)))
  ∧ (∀ (ch : Fin 4) (s : State), mtrRuns s = true →
    ((mtrCh s ch).since < 1920 → exec (.mtrZcTimeout ch) s = .next s)
    ∧ ((mtrCh s ch).run = true → (mtrCh s ch).isDc = false → s.on (R.MTR_CHSTAT_ZCTO ch) = false → 1920 ≤ (mtrCh s ch).since →
      ∃ t, exec (.mtrZcTimeout ch) s = .next t ∧ RegsOutside [R.MTR_CHSTAT ch, R.MTR_CNT ch] s t
        ∧ t = { s with regs := t.regs, mtr := t.mtr } ∧ t.on (R.MTR_CHSTAT_ZCTO ch) = true
        ∧ t.get (R.MTR_CNT_ZCTOCNT ch) = (s.get (R.MTR_CNT_ZCTOCNT ch) + 1) % 256
        ∧ (mtrCh t ch).closed = (mtrCh s ch).closed ++ [⟨(mtrCh s ch).win, (mtrCh s ch).work, s.mtr.event + 1⟩] ∧ t.mtr.spanZc = s.mtr.spanZc ||| 2 ^ ch.val))
  ∧ (∀ (ch : Fin 4) (w : MtrShut) (tl : List MtrShut) (s : State), (mtrCh s ch).closed = w :: tl →
      (∀ k, k < 16 → (ringSlot s k).st ≠ 1) →
    ∃ u, exec (.mtrWindowUpdate ch false) s = .next (takeDues u)
      ∧ (s.mtr.dues = [] → exec (.mtrWindowUpdate ch false) s = .next u)
      ∧ (∀ d, s.mtr.dues = [d] → tl = [] → (∀ c, c < 4 → c ≠ ch.val → (mtrCh s c).closed = []) →
          exec (.mtrWindowUpdate ch false) s = .next (snapshot d { u with mtr := { u.mtr with dues := [] } }))
      ∧ (mtrCh u ch).closed = tl ∧ u.mtr.kept = u.mtr.acc ∧ u.mtr.dues = s.mtr.dues ∧ u = { s with
            regs := u.regs, mtr := u.mtr }
      ∧ RegsOutside ([R.MTR_VRMS ch, R.MTR_IRMS ch, R.MTR_WLEN ch, R.MTR_PAVG ch, R.MTR_QAVG ch, R.MTR_CHSTAT ch, R.MTR_CNT ch]
          ++ (List.range 7).map (R.MTR_IWRAP ch)) s u
      ∧ (w.win.n = 0 → u.mtr.acc = s.mtr.acc ∧ u.regs = s.regs)
      ∧ (w.win.n ≠ 0 → u.get (R.MTR_WLEN_N ch) = w.win.n % 2 ^ (R.MTR_WLEN_N ch).wd
          ∧ u.get (R.MTR_CNT_WINDOWS ch) = (s.get (R.MTR_CNT_WINDOWS ch) + 1) % 2 ^ 16
          ∧ (u.on (R.MTR_CHSTAT_NOLOAD ch) = true → u.mtr.acc = s.mtr.acc
              ∧ u.get (R.MTR_CNT_NOLOAD ch) = (s.get (R.MTR_CNT_NOLOAD ch) + 1) % 256))
      ∧ (∀ c q, accOf s c q ≤ accOf u c q) ∧ (∀ c q, q < 8 → c ≠ ch.val → accOf u c q = accOf s c q)
      ∧ (accOf u ch 0 = accOf s ch 0 ∨ accOf u ch 1 = accOf s ch 1))
  ∧ (∀ (d : MtrDue) (s : State),
    let n := s.mtr.rcnt + 1
    let u := snapshot d s
    ((ringSlot s (n % 16)).st = 1 →
      u = { s with regs := u.regs, mtr := { s.mtr with gap := true } }
        ∧ u.get R.MTR_RSTAT_SKIPCNT = (s.get R.MTR_RSTAT_SKIPCNT + 1) % 256 ∧ RegsOutside [R.MTR_RSTAT] s u)
    ∧ ((ringSlot s (n % 16)).st ≠ 1 → (∀ e ∈ s.mtr.drafts, e.1 % 16 ≠ n % 16) →
      u.mtr.rcnt = n ∧ u.mtr.drafts = s.mtr.drafts ++ [(n, recordBody d s n)] ∧ u.mtr.shot = s.mtr.acc.vals
        ∧ u.mtr.gap = false ∧ u.regs = s.regs ∧ u.mtr.dues = s.mtr.dues ∧ u.mtr.acc = s.mtr.acc ∧ u.mtr.chans = s.mtr.chans
        ∧ Mirror.recordCount ∈ u.mirrors ∧ Mirror.meter ∈ u.mirrors))
  ∧ (∀ s : State, s.part.isM = true → domOn s 7 = true →
      exec .meterIntervalBoundary s = .next { s with mtr := { s.mtr with askBound := true } })
  ∧ ∀ (cause : Nat) (s : State), ∃ u, mtrInt cause s = occur kMTR meterScope cause u ∧ OnlyRegs [R.MTR_INTC] s u
      ∧ u.get R.MTR_INTC_CAUSE = cause % 256 ∧ u.get R.MTR_INTC_COUNT = (s.get R.MTR_INTC_COUNT + 1) % 256

/-- A word accepted at MTR_CTL with EN as it is: each channel of ICLR has its interval registers at 0, wrap flags with them, the others and every accumulator as they were; NOW asks
for a snapshot and does nothing else. EN written 1 starts metering at the time of the RTC; written 0 it stops metering: every channel that metered closes its window
and meters no more, and the closing snapshot is due at that close. A word accepted at a SEAL field while the seal is not SEALED takes the written bits and sets CALDIRTY; while it
is SEALED, nothing is written. Elsewhere such a command writes no field. That the ask for the closing snapshot is kept where no channel
meters as EN falls is log entry 12, and that a command elsewhere writes no field log entry 24: the model's readings. -/
def Obligations.MeterWrites : Prop :=
  (∀ (p : Nat) (s : State), Accepts s p R.MTR_CTL →
    (∀ chs : BitVec 4,
      ∃ t, exec (.mtrIclr chs p (s.on R.MTR_CTL_EN)) s = .next t ∧ t = { endRun p s with regs := t.regs, mtr := t.mtr }
        ∧ RegsOutside ([0, 1, 2, 3].flatMap (fun c => (List.range 7).map (R.MTR_IWRAP c))) s t ∧ t.mtr.acc = s.mtr.acc
        ∧ ∀ c, c < 4 →
          (chs.getLsbD c = true → (∀ q, q < 7 → intReg t c q = 0 ∧ t.word (R.MTR_IWRAP c q) = 0)
            ∧ (mtrCh t c).win = (mtrCh s c).win)
          ∧ (chs.getLsbD c = false → mtrCh t c = mtrCh s c ∧ ∀ q, q < 7 → t.word (R.MTR_IWRAP c q) = s.word (R.MTR_IWRAP c q)))
    ∧ exec (.mtrNow p (s.on R.MTR_CTL_EN)) s = .next { endRun p s with mtr := { s.mtr with askNow := true } }
    ∧ (s.on R.MTR_CTL_EN = false →
      ∃ t, exec (.mtrEnWrite p true) s = .next t ∧ t = { endRun p s with
            regs := t.regs, mtr := { s.mtr with started := rtcMs s } }
        ∧ RegsOutside [R.MTR_CTL] s t ∧ t.on R.MTR_CTL_EN = true)
    ∧ (s.on R.MTR_CTL_EN = true →
      ∃ t, exec (.mtrEnWrite p false) s = .next t ∧ t = { endRun p s with regs := t.regs, mtr := t.mtr }
        ∧ RegsOutside [R.MTR_CTL] s t ∧ t.on R.MTR_CTL_EN = false ∧ t.mtr.acc = s.mtr.acc
        ∧ ((∀ c, c < 4 → (mtrCh s c).run = false) → t.mtr.askClose = true ∧ t.mtr.dues = s.mtr.dues)
        ∧ ((∃ c, c < 4 ∧ (mtrCh s c).run = true) → s.mtr.dues = [] → asked t = false ∧ t.mtr.dues = [⟨s.mtr.event + 1, true, true⟩])
        ∧ ∀ c, c < 4 → (mtrCh t c).run = false
          ∧ (mtrCh t c).closed = (mtrCh s c).closed ++ (if (mtrCh s c).run then [⟨(mtrCh s c).win, (mtrCh s c).work, s.mtr.event + 1⟩] else [])))
  ∧ ∀ (a : BitVec 16) (d : PortWrite) (s : State),
    let ad := 0x0A0000 + a.toNat
    Accepts s d.port ad →
    (sealAddr ad = true → s.get R.PAT_STAT_SEAL = 2 → exec (.mtrSealFieldWrite a d) s = .next (endRun d.port s))
    ∧ (sealAddr ad = true → s.get R.PAT_STAT_SEAL ≠ 2 → ∀ r, regAt ad = some r →
      ∃ t, exec (.mtrSealFieldWrite a d) s = .next t ∧ PortRegs d.port [ad, R.MTR_STAT] s t ∧ t.on R.MTR_STAT_CALDIRTY = true
        ∧ t.word ad = ((s.word ad &&& ~~~BitVec.ofNat 32 r.rw) ||| (d.data &&& BitVec.ofNat 32 r.rw))
            &&& ~~~(d.data &&& BitVec.ofNat 32 r.w1c))
    ∧ (sealAddr ad = false → exec (.mtrSealFieldWrite a d) s = .next (endRun d.port s))

/-- With PD1 on, an occurrence of a class by a detector of its kind: a shadowed one counts in SHCNT and OCC, is logged as shadowed, and its detector keeps its reaction.
One that no shadow covers is logged with the next sequence number, its class, tier and scope and the time; its cause record takes it as the last one, and as the first
one where the record was clear, and counts it; then the reaction of its tier follows, then the shadow that its class opens; where a T4 took the
Pattern out of force, the fabric's ports go DOWN. Inside a cycle whose occurrences are taken together it is only reported. A reaction of T2 or T3 gives
its detector the tier, unless a higher one stands, the class and the time of the occurrence; a latched one stays latched, under the new class. Below T1 no shadow opens, from T1 on
one opens that closes SHLEN ticks later, after the other occurrences of the same cycle where they are taken together. A structure check that differs, under
a loaded Pattern not yet reported, is one fault of class PAT. That an occurrence between two ticks counts from the next one (tick + 1) is log entry 48,
and that a latched reaction takes the class of its last occurrence, LATCH with it, is log entry 72: the model's readings. -/
def Obligations.FaultOccurrences : Prop :=
  (∀ (cls : Fin 24) (scope : BitVec 16) (detail : BitVec 8) (s : State), domOn s 1 = true →
      detectorThere s scope.toNat = true → (classKinds (cls.val + 1)).contains (scopeKind scope.toNat) = true →
    let c := cls.val + 1
    let sc := scope.toNat
    let i := .faultOccurrence cls scope detail
    let q := s.get R.FLT_NEXTSEQ_SEQ
    let log := [R.FLT_NEXTSEQ, R.FLT_LOGINFO, R.FLT_CNT, R.FLT_LOG (q % 256) 0, R.FLT_LOG (q % 256) 1, R.FLT_LOG (q % 256) 2,
      R.FLT_LOG (q % 256) 3]
    let logged := fun (t : State) => t.get R.FLT_NEXTSEQ_SEQ = (q + 1) % 2 ^ 32 ∧ t.get (R.FLT_LOG_W (q % 256) 0) = q
      ∧ t.get (R.FLT_LOG_W (q % 256) 1) = rtcMs s % 2 ^ 32 ∧ t.get R.FLT_CNT_OCC = (s.get R.FLT_CNT_OCC + 1) % 2 ^ 16
      ∧ t = { s with regs := t.regs, flt := t.flt, mirrors := t.mirrors } ∧ t.flt.shadows = s.flt.shadows
      ∧ ∀ m, m ≠ sc → detector t m = detector s m
    (s.flt.opening.isSome = true → exec i s = .next (report ⟨false, c, sc, detail.toNat⟩ s))
    ∧ (s.flt.opening = none → s.flt.shadows.any (fun w => shadowCovers s w c sc) = true →
      ∃ t, exec i s = .next t ∧ logged t ∧ RegsOutside (R.FLT_CRSH c :: log) s t
        ∧ t.get (R.FLT_CRSH_SHCNT c) = min (2 ^ 16 - 1) (s.get (R.FLT_CRSH_SHCNT c) + 1)
        ∧ (detector t sc).tier = (detector s sc).tier ∧ (detector t sc).latched = (detector s sc).latched
        ∧ (detector t sc).detail = (detector s sc).detail)
    ∧ (s.flt.opening = none → s.flt.shadows.any (fun w => shadowCovers s w c sc) = false →
      let tick := s.tick + 1
      let tier := takenTier s sc (mappedTier s c (readyDetector s c tick (detector s sc))) false
      ∃ u v, v = openShadow c sc tier tick (applyReaction c sc tier tick false u)
        ∧ ((s.on R.PAT_STAT_LOADED && !v.on R.PAT_STAT_LOADED && domOn v 2) = false → exec i s = .next v)
        ∧ ((s.on R.PAT_STAT_LOADED && !v.on R.PAT_STAT_LOADED && domOn v 2) = true → exec i s = .next
            (inCycle (takeReports takeOnce) (portsGoDown (fun k p => report ⟨false, k, p, 0⟩) (stoppedPorts v)) v))
        ∧ logged u
        ∧ RegsOutside ((List.range 7).map (fun k => R.FLT_CRSTAT c + 4 * k) ++ log) s u
        ∧ (∃ esc : Bool, u.get (R.FLT_LOG_W (q % 256) 2) = c * 2 ^ 27 + tier * 2 ^ 24 + bit esc * 2 ^ 19 + sc)
        ∧ u.on (R.FLT_CRSTAT_UNCL c) = true
        ∧ u.get (R.FLT_CRSTAT_COUNT c) = min (2 ^ 16 - 1) (s.get (R.FLT_CRSTAT_COUNT c) + 1)
        ∧ u.get (R.FLT_CRLAST_SCOPE c) = sc ∧ u.get (R.FLT_CRLAST_TIER c) = tier ∧ u.get (R.FLT_CRLAST_DETAIL c) = detail.toNat
        ∧ u.get (R.FLT_CRLSEQ_SEQ c) = q
        ∧ (s.on (R.FLT_CRSTAT_UNCL c) = false → u.get (R.FLT_CRFIRST_SCOPE c) = sc ∧ u.get (R.FLT_CRFIRST_TIER c) = tier
            ∧ u.get (R.FLT_CRFIRST_DETAIL c) = detail.toNat ∧ u.get (R.FLT_CRFSEQ_SEQ c) = q)
        ∧ (s.on (R.FLT_CRSTAT_UNCL c) = true → u.word (R.FLT_CRFIRST c) = s.word (R.FLT_CRFIRST c)
            ∧ u.word (R.FLT_CRFSEQ c) = s.word (R.FLT_CRFSEQ c) ∧ u.word (R.FLT_CRFTIME c) = s.word (R.FLT_CRFTIME c))
        ∧ (detector u sc).tier = (detector s sc).tier ∧ (detector u sc).detail = detail.toNat))
  ∧ (∀ (c sc tier t : Nat) (x : State),
    ((tier = 2 ∨ tier = 3) → x.on R.FLT_CFG_QPOL = false →
        ∃ v, applyReaction c sc tier t false x = syncHolds v ∧ v = { x with
              regs := v.regs, flt := v.flt, host := v.host }
          ∧ (detector v sc).tier = max tier (detector x sc).tier ∧ (detector v sc).gcls = c ∧ (detector v sc).occ = t
          ∧ (detector v sc).latched = (detector x sc).latched ∧ (∀ m, m ≠ sc → detector v m = detector x m)
          ∧ ((detector x sc).latched = false → v.regs = x.regs)
          ∧ ((detector x sc).latched = true → v.on (R.FLT_CRSTAT_LATCH c) = true
              ∧ RegsOutside [R.FLT_CRSTAT c, R.FLT_CRSTAT (detector x sc).gcls] x v))
    ∧ (tier = 0 → (detector x sc).tier = 0 → applyReaction c sc tier t false x = x)
    ∧ (tier = 0 → openShadow c sc tier t x = x)
    ∧ (1 ≤ tier → x.get (R.FLT_MAP_SHLEN c) ≠ 0 →
        ∃ w : Shadow, (x.flt.opening = none →
            openShadow c sc tier t x = { x with flt := { x.flt with shadows := x.flt.shadows ++ [w] } })
          ∧ (∀ ws, x.flt.opening = some ws →
            openShadow c sc tier t x = { x with flt := { x.flt with opening := some (ws ++ [w]) } })
          ∧ w.cls = c ∧ w.scope = sc ∧ w.close = t + x.get (R.FLT_MAP_SHLEN c) ∧ w.mask = x.get (R.FLT_SHM_SHMASK c)))
  ∧ ∀ s : State, domOn s 3 = true →
    (s.on R.PAT_STAT_LOADED = true → s.pat.checked = false →
      exec (.patCheck true) s = .next (occur kPAT patScope 1 { s with pat := { s.pat with checked := true } }))
    ∧ exec (.patCheck false) s = .next s

/-- With PD1 on: a reaction due to lift whose RCNT is below RLIM lifts, RCNT counting it, with a log entry and LIFT counted; one at RLIM becomes permanent: a stitch is
retired, another detector's reaction latches, with a log entry and PERM counted; one not due stays. FLT_RELEASE of a reaction in force that is not latched acts as its due lift;
UNLATCH of a latched one in READY, FITTING, BASTING or SAFE_OFF ends it with RCNT and ESCN 0; any other command sets CMDERR alone: a wrong guard, a
RELEASE of what is not in force or is latched, an UNLATCH of what is not latched or in any other mode (PRECHARGE, CHARGE, FEED, ISLAND, AUXILIARY, DISCHARGE,
WATCH, DORMANT). That a lift is due 10 × QPER ticks after the tick of the occurrence is log entry 48, the model's reading. A 1 to UNCL returns
the class's record to its reset words and ESCN of its detectors to 0, unless the class acts or is latched or something of it meets the write: then CLRERR sets alone. Shadows
whose closing tick has come are over. -/
def Obligations.FaultReleases : Prop :=
  (∀ (scope : BitVec 16) (s : State), domOn s 1 = true →
    let sc := scope.toNat
    let d := detector s sc
    let lim := s.get (R.FLT_MAP_RLIM d.gcls)
    (liftDue s sc = false → exec (.dueLift scope) s = .next s)
    ∧ (liftDue s sc = true → d.rcnt < lim →
      ∃ u, exec (.dueLift scope) s =
          .next (logEvent 1 d.gcls d.tier false false sc d.detail (d.rcnt + 1) d.escn (u.inc R.FLT_CNT_LIFT))
        ∧ (detector u sc).tier = 0 ∧ (detector u sc).latched = false ∧ (detector u sc).rcnt = d.rcnt + 1
        ∧ (detector u sc).reach = 0 ∧ (detector u sc).first = (if d.rcnt = 0 then s.tick else d.first)
        ∧ ∀ m, m ≠ sc → detector u m = detector s m)
    ∧ (liftDue s sc = true → lim ≤ d.rcnt →
      (scopeKind sc = 1 → exec (.dueLift scope) s =
        .next (logEvent 2 d.gcls d.tier false false sc d.detail d.rcnt d.escn
          ((endReaction sc (retire (scopeStitch sc) d.detail s)).inc R.FLT_CNT_PERM)))
      ∧ (scopeKind sc ≠ 1 → 1 ≤ d.gcls → d.gcls ≤ 24 →
        ∃ u, exec (.dueLift scope) s = .next (logEvent 2 d.gcls d.tier false false sc d.detail d.rcnt d.escn u)
          ∧ RegsOutside [R.FLT_CRSTAT d.gcls, R.FLT_CNT] s u ∧ u = { s with regs := u.regs, flt := u.flt }
          ∧ u.on (R.FLT_CRSTAT_LATCH d.gcls) = true ∧ u.get R.FLT_CNT_PERM = (s.get R.FLT_CNT_PERM + 1) % 256
          ∧ detector u sc = { d with latched := true } ∧ ∀ m, m ≠ sc → detector u m = detector s m)))
  ∧ (∀ (c : PortCmd) (s : State), Accepts s c.port R.FLT_CMD →
    let sc := s.get R.FLT_CMDARG_SCOPE
    let d := detector s sc
    (c.guard.toNat = 0x5A7E → 1 ≤ d.tier → d.latched = false →
      exec (.fltRelease c) s = .next (dueLift sc (endRun c.port s)))
    ∧ (c.guard.toNat = 0x5A7E → d.latched = true → (mode s = mREADY ∨ mode s = mFITTING ∨ mode s = mBASTING ∨ mode s = mSAFEOFF) →
      ∃ u, exec (.unlatch c) s = .next (logEvent 3 d.gcls d.tier false false sc d.detail 0 0 u)
        ∧ detector u sc = { d with tier := 0, latched := false, reach := 0, rcnt := 0, first := 0, escn := 0 }
        ∧ ∀ m, m ≠ sc → detector u m = detector s m)
    ∧ (c.guard.toNat ≠ 0x5A7E ∨ d.tier = 0 ∨ d.latched = true →
      ∃ t, exec (.fltRelease c) s = .next t ∧ PortRegs c.port [R.FLT_STAT] s t ∧ t.on R.FLT_STAT_CMDERR = true)
    ∧ (c.guard.toNat ≠ 0x5A7E ∨ d.latched = false ∨ mode s ∉ [mREADY, mFITTING, mBASTING, mSAFEOFF] →
      ∃ t, exec (.unlatch c) s = .next t ∧ PortRegs c.port [R.FLT_STAT] s t ∧ t.on R.FLT_STAT_CMDERR = true))
  ∧ (∀ (cls : Fin 24) (w : PortWrite) (met : Bool) (s : State),
    let c := cls.val + 1
    Accepts s w.port (R.FLT_CRSTAT c) → w.data.getLsbD 31 = true →
    ((classActs s c = true ∨ s.on (R.FLT_CRSTAT_LATCH c) = true ∨ met = true) →
      ∃ t, exec (.causeRecordClear cls w met) s = .next t ∧ PortRegs w.port [R.FLT_STAT] s t ∧ t.on R.FLT_STAT_CLRERR = true)
    ∧ (classActs s c = false → s.on (R.FLT_CRSTAT_LATCH c) = false → met = false →
      ∃ t, exec (.causeRecordClear cls w met) s = .next t
        ∧ t = { endRun w.port s with regs := t.regs, flt := t.flt }
        ∧ (∀ a, a < R.FLT_CRSTAT c ∨ R.FLT_CRSTAT c + 0x20 ≤ a → t.word a = s.word a)
        ∧ (∀ k, k < 8 → t.word (R.FLT_CRSTAT c + 4 * k) = resetWord (R.FLT_CRSTAT c + 4 * k))
        ∧ t.flt.shadows = s.flt.shadows ∧ ∀ n, (detector t n).escCls = c → (detector t n).escn = 0))
  ∧ ∀ s : State, domOn s 1 = true →
      ∃ t, exec .shadowClose s = .next t ∧ t = { s with flt := { s.flt with shadows := t.flt.shadows } }
        ∧ (∀ w, w ∈ t.flt.shadows ↔ w ∈ s.flt.shadows ∧ s.tick < w.close)

/-- With PD1 on, a tick counts itself, judges wires, HVIL, read-backs and streams, forms the demands, takes SRST and then the latch, and raises its faults last, as occurrences of one cycle. An enabled
pair without DISCF that agrees has its count at 0; one that differs counts, and at N = 10 DISC ticks sets DISCF, counted. SRST high for 1 to 499 ticks is short, counted; for 500 or more
a valid reset; for 20,001 stuck. Demands set the latch; without one, a latch whose only cause is POWERUP clears where AUTOPU says so, and otherwise nothing happens. A pair whose count
stands at its limit, an SRST that is stuck and a read-back that is wrong are each one fault with its flag. A bit of the HVIL loop more than 1.5 mA off is a miss, counted with its kind. -/
def Obligations.HemTicks : Prop :=
  (∀ (wires : BitVec 8) (srst : Bool) (fb : BitVec 4) (s : State), domOn s 1 = true →
    ∃ s0 s4 s7 : State, s0 = { s with tick := s.tick + 1, cyc := max s.cyc (s.saf.tickBase + (s.tick + 1) * 40000) }
      ∧ s4 = judgeTick wires.toNat fb.toNat s0 ∧ s7 = latchTick (srstTick srst (formDemands (payStreams s4)))
      ∧ exec (.safetyTick wires srst fb) s =
          .next (oneCycle (forL (tickFaults s0 s7 ++ hemFaults s0 s4) (fun e a => occurAtTick e.1 e.2.1 e.2.2 a)) s7))
  ∧ (∀ (wires p : Nat) (s : State), p < 4 → s.on (R.SAF_PCFG_EN p) = true → s.on (R.SAF_PSTAT_DISCF p) = false →
    let t := pairTick wires p s
    RegsOutside [R.SAF_PSTAT p] s t ∧ t = { s with regs := t.regs, saf := t.saf }
      ∧ t.on (R.SAF_PSTAT_PA p) = (wireSt t (2 * p)).acc
      ∧ t.on (R.SAF_PSTAT_PB p) = ((wireSt t (2 * p + 1)).acc != s.on (R.SAF_PCFG_INVB p))
      ∧ (wireSt t (2 * p)).sample = tb wires (2 * p)
      ∧ (t.on (R.SAF_PSTAT_PA p) = t.on (R.SAF_PSTAT_PB p) →
          t.get (R.SAF_PSTAT_DCNT p) = 0 ∧ t.on (R.SAF_PSTAT_DISCF p) = false)
      ∧ (t.on (R.SAF_PSTAT_PA p) ≠ t.on (R.SAF_PSTAT_PB p) → s.get (R.SAF_PSTAT_DCNT p) + 1 < pairN s p →
          t.get (R.SAF_PSTAT_DCNT p) = s.get (R.SAF_PSTAT_DCNT p) + 1 ∧ t.on (R.SAF_PSTAT_DISCF p) = false)
      ∧ (t.on (R.SAF_PSTAT_PA p) ≠ t.on (R.SAF_PSTAT_PB p) → pairN s p ≤ s.get (R.SAF_PSTAT_DCNT p) + 1 →
          t.get (R.SAF_PSTAT_DCNT p) = pairN s p ∧ t.on (R.SAF_PSTAT_DISCF p) = true
            ∧ t.get (R.SAF_PSTAT_NFAULT p) = (s.get (R.SAF_PSTAT_NFAULT p) + 1) % 256))
  ∧ (∀ (level : Bool) (s : State),
    (s.saf.srst.sample = false → 1 ≤ s.saf.high → s.on R.SAF_RSTS_STUCK = false →
      (s.saf.high < 500 → (srstTick level s).get R.SAF_RSTS_SHORT = (s.get R.SAF_RSTS_SHORT + 1) % 256
        ∧ RegsOutside [R.SAF_RSTS] s (srstTick level s) ∧ (srstTick level s).saf.high = 0)
      ∧ (500 ≤ s.saf.high → ∃ u, srstTick level s = validReset u ∧ u.saf.high = 0 ∧ RegsOutside [R.SAF_RSTS] s u
          ∧ u = { s with regs := u.regs, saf := u.saf }))
    ∧ (s.saf.srst.sample = true → s.saf.high = 20000 →
        (srstTick level s).on R.SAF_RSTS_STUCK = true ∧ (srstTick level s).saf.high = 20001
          ∧ RegsOutside [R.SAF_RSTS] s (srstTick level s))
    ∧ (demands s ≠ [] → latchTick s = forL (demands s) hemDemand s)
    ∧ (demands s = [] → s.on R.SAF_STAT_LATCH = true → s.get R.SAF_LCAUSE_CAUSE = 1 → s.on R.SAF_CFG_AUTOPU = true →
        latchTick s = hemClear s)
    ∧ (demands s = [] → (s.on R.SAF_STAT_LATCH = false ∨ s.get R.SAF_LCAUSE_CAUSE ≠ 1 ∨ s.on R.SAF_CFG_AUTOPU = false) →
        latchTick s = s))
  ∧ ∀ s : State, domOn s 1 = true →
    (∀ p : Fin 4, s.on (R.SAF_PCFG_EN p) = true → s.on (R.SAF_PSTAT_PA p) ≠ s.on (R.SAF_PSTAT_PB p) →
        s.on (R.SAF_PSTAT_DISCF p) = false → pairN s p ≤ s.get (R.SAF_PSTAT_DCNT p) →
      ∃ u, exec (.discrepancyLimit p) s = .next (occurAtTick kDISC (pairScope p) 0 u) ∧ OnlyRegs [R.SAF_PSTAT p] s u
        ∧ u.on (R.SAF_PSTAT_DISCF p) = true ∧ u.get (R.SAF_PSTAT_DCNT p) = pairN s p
        ∧ u.get (R.SAF_PSTAT_NFAULT p) = (s.get (R.SAF_PSTAT_NFAULT p) + 1) % 256)
    ∧ (20001 ≤ s.saf.high → s.on R.SAF_RSTS_STUCK = false →
      ∃ u, exec .srstStuck s = .next (occurAtTick kRST resetScope 0 u) ∧ OnlyRegs [R.SAF_RSTS] s u
        ∧ u.on R.SAF_RSTS_STUCK = true)
    ∧ (s.saf.high < 20001 → exec .srstStuck s = .next s)
    ∧ (∀ iret : BitVec 12,
      let e := hvExpected s
      let miss := iret.toNat + 150 < e ∨ e + 150 < iret.toNat
      (s.on R.SAF_HVIL_HVEN = false → exec (.hvilBit iret) s = .next s)
      ∧ (s.on R.SAF_HVIL_HVEN = true →
        ∃ t, exec (.hvilBit iret) s = .next t ∧ RegsOutside [R.SAF_HVST] s t ∧ t = { s with
              regs := t.regs, saf := t.saf }
          ∧ t.get R.SAF_HVST_IRET = iret.toNat ∧ t.saf.hvPos = (s.saf.hvPos + 1) % 16
          ∧ (miss → t.get R.SAF_HVST_MISCNT = (s.get R.SAF_HVST_MISCNT + 1) % 256 ∧ t.on R.SAF_HVST_OK = false
              ∧ t.get R.SAF_HVST_KIND = (if iret.toNat < e then 1 else 2) ∧ (1 ≤ s.saf.misses → t.saf.hvPend = true))
          ∧ (¬miss → t.saf.misses = 0 ∧ t.get R.SAF_HVST_MISCNT = s.get R.SAF_HVST_MISCNT
              ∧ t.on R.SAF_HVST_OK = decide (15 ≤ s.saf.hits))))
    ∧ ∀ (k : Fin 4) (level : Bool),
      ((s.on (R.SAF_CCFG_EN k) = false ∨ (tget (fun _ => CtrSt.zero) s.saf.ctrs k).changedAt = none) →
        ∃ t, exec (.ctrFbCheck k level) s = .next t ∧ OnlyRegs [R.SAF_CTR] s t
          ∧ tb (t.get R.SAF_CTR_FB) k = fbClosed s k level ∧ t.get R.SAF_CTR_FBERR = s.get R.SAF_CTR_FBERR)
      ∧ (∀ t0, s.on (R.SAF_CCFG_EN k) = true → (tget (fun _ => CtrSt.zero) s.saf.ctrs k).changedAt = some t0 →
          t0 + 10 * s.get (R.SAF_CCFG_TFB k) < s.tick → fbClosed s k level ≠ tb (s.get R.SAF_CTR_EN) k →
          tb (s.get R.SAF_CTR_FBERR) k = false →
        ∃ u, exec (.ctrFbCheck k level) s = .next (occurAtTick kHEM (hemScope (1 + k)) 2 u) ∧ OnlyRegs [R.SAF_CTR] s u
          ∧ tb (u.get R.SAF_CTR_FB) k = fbClosed s k level ∧ tb (u.get R.SAF_CTR_FBERR) k = true)

/-- With PD1 on: a level of SPO_N that changes waits for its filter, and a low that ends before it is accepted counts as ignored; a low that lasts is accepted, counted, and is a demand, a
high that lasts ends it. The first demand sets the latch with its cause, first cause included, drops every contactor request and enable, and takes the module to
SAFE_OFF from its mode where no discharge follows. A word accepted at SAF_CTR gives REQ, and each enable is high exactly where R237 permits it; while the latch is set a request of 1 is discarded. STEST
with the guard runs where no seam is enabled, else CMDERR. It ends with STOK; a failure sets STFAIL, is a demand, and one fault of class SAF-HEM with detail 4. A discharge request with a
root enabled is refused with MERR 5, else DISREQ sets and DISCHARGE is entered, also where a latch cause held DISREQ before and its own discharge was
done (log entry 19, the model's reading). -/
def Obligations.HemDemands : Prop :=
  (∀ (high : Bool) (s : State), domOn s 1 = true →
    (s.saf.spoLow = !high → exec (.spoNChange high) s = .next s)
    ∧ (s.saf.spoLow = high →
      ∃ t, exec (.spoNChange high) s = .next t ∧ RegsOutside [R.SAF_SPOCNT] s t
        ∧ t = { s with regs := t.regs, saf := { s.saf with spoLow := !high, spoSet := (!high) != s.on R.SAF_STAT_SPO } }
        ∧ t.get R.SAF_SPOCNT_IGN = (if high = true ∧ s.saf.spoSet = true ∧ s.on R.SAF_STAT_SPO = false
            then (s.get R.SAF_SPOCNT_IGN + 1) % 2 ^ 16 else s.get R.SAF_SPOCNT_IGN))
    ∧ (s.saf.spoSet = false → exec .spoFilterExpire s = .next s)
    ∧ (s.saf.spoSet = true → s.saf.spoLow = true →
      ∃ u, exec .spoFilterExpire s = .next (hemDemand 1 u) ∧ RegsOutside [R.SAF_STAT, R.SAF_SPOCNT] s u
        ∧ u = { s with regs := u.regs, saf := { s.saf with spoSet := false } } ∧ u.on R.SAF_STAT_SPO = true
        ∧ u.get R.SAF_SPOCNT_ACC = (s.get R.SAF_SPOCNT_ACC + 1) % 2 ^ 16)
    ∧ (s.saf.spoSet = true → s.saf.spoLow = false →
      ∃ t, exec .spoFilterExpire s = .next t ∧ RegsOutside [R.SAF_STAT] s t ∧ t.on R.SAF_STAT_SPO = false
        ∧ t = { s with regs := t.regs, saf := { s.saf with spoSet := false } }))
  ∧ (∀ (b : Nat) (s : State), b ≤ 10 → domOn s 1 = true → s.on R.SAF_STAT_LATCH = false →
    let t := hemDemand b s
    t.on R.SAF_STAT_LATCH = true ∧ t.get R.SAF_LCAUSE_CAUSE = 2 ^ b ∧ t.get R.SAF_LCAUSE_FIRST = b ∧ t.get R.SAF_CTR_REQ = 0
      ∧ t.get R.SAF_CTR_EN = 0
      ∧ (s.get R.SAF_CFG_DISEN = 0 → s.pwr.disHost = false → b ≠ 8 →
          (mode s = mREADY ∨ mode s = mFITTING ∨ mode s = mPRECHARGE ∨ mode s = mCHARGE ∨ mode s = mFEED ∨ mode s = mISLAND
            ∨ mode s = mAUXILIARY) → mode t = mSAFEOFF ∧ t.get R.PWR_MODE_BASE = mode s))
  ∧ (∀ (w : PortWrite) (s : State), Accepts s w.port R.SAF_CTR →
    let q := bitsOf w.data 0 4
    (s.on R.SAF_STAT_LATCH = true → q ≠ 0 →
      ∃ t, exec (.safCtrReqWrite w) s = .next t ∧ PortRegs w.port [R.HST_STAT, R.HST_ERRADDR] s t
        ∧ t.on R.HST_STAT_DISCARDED = true)
    ∧ (s.on R.SAF_STAT_LATCH = false ∨ q = 0 →
      ∃ t, exec (.safCtrReqWrite w) s = .next t ∧ RegsOutside [R.SAF_CTR] s t ∧ t.get R.SAF_CTR_REQ = q
        ∧ t = { endRun w.port s with regs := t.regs, saf := t.saf }
        ∧ ∀ k, k < 4 → tb (t.get R.SAF_CTR_EN) k = (s.on (R.SAF_CCFG_EN k) && tb q k && !hemActive s && permitted s k)))
  ∧ (∀ (c : PortCmd) (s : State), Accepts s c.port R.SAF_CTL →
    (c.guard.toNat ≠ 0x5A7E → ∀ i ∈ [Instr.stest c, Instr.safDisreq c],
      ∃ t, exec i s = .next t ∧ PortRegs c.port [R.SAF_STAT] s t ∧ t.on R.SAF_STAT_CMDERR = true)
    ∧ (c.guard.toNat = 0x5A7E →
      ((∃ n ∈ seams, effEnabled s n = true) →
        ∃ t, exec (.stest c) s = .next t ∧ PortRegs c.port [R.SAF_STAT] s t ∧ t.on R.SAF_STAT_CMDERR = true)
      ∧ ((∀ n ∈ seams, effEnabled s n = false) →
        ∃ t, exec (.stest c) s = .next t ∧ t.on R.SAF_STAT_STRUN = true ∧ t.get R.SAF_CTR_EN = 0
          ∧ (∀ n, n < s.part.stitches → (dielet s n).awake = true → (dielet s n).lost = false → (dielet t n).hemoff = true ∧ (dielet t n).gh = false
              ∧ (dielet t n).gl = false)
          ∧ (∀ a, a < 0x030000 ∨ 0x033000 ≤ a → a ≠ R.SAF_STAT → a ≠ R.SAF_CTR → t.word a = s.word a))
      ∧ (anyRootEn s = true →
        ∃ t, exec (.safDisreq c) s = .next t ∧ PortRegs c.port [R.PWR_STAT] s t ∧ t.get R.PWR_STAT_MERR = 5)
      ∧ (anyRootEn s = false →
        ∃ t, exec (.safDisreq c) s = .next t ∧ t.on R.SAF_STAT_DISREQ = true ∧ t.pwr.disHost = true
          ∧ mode t = mDISCHARGE)))
  ∧ ∀ s : State, domOn s 1 = true →
    (s.on R.SAF_STAT_STRUN = false → ∀ pass, exec (.stestDone pass) s = .next s)
    ∧ (s.on R.SAF_STAT_STRUN = true →
      (∃ u, exec (.stestDone true) s = .next (endSelfTest u) ∧ RegsOutside [R.SAF_STAT] s u ∧ u.on R.SAF_STAT_STOK = true
        ∧ u = { s with regs := u.regs, saf := { s.saf with passed := true } })
      ∧ (∃ u, exec (.stestDone false) s = .next (occur kHEM (hemScope 9) 4 (endSelfTest (hemDemand 9 u)))
        ∧ RegsOutside [R.SAF_STAT] s u ∧ u.on R.SAF_STAT_STOK = false ∧ u.on R.SAF_STAT_STFAIL = true
        ∧ u = { s with regs := u.regs, saf := { s.saf with passed := false } }))
    ∧ (s.on R.SAF_STAT_LATCH = true →
        OnlyRegs [R.SAF_STAT] s (endSelfTest s) ∧ (endSelfTest s).on R.SAF_STAT_STRUN = false)

/-- With PD1 on: a frame that no enabled stream names does nothing; one of another length counts as BAD. A valid copy with no window open opens one, or is a REPEAT where its counter is the one
last accepted; the other bus's copy with the same bytes closes the window and, the first or the next in order, is delivered: data, ALIVE, ACC; with other bytes it is a MISMATCH. A window not met within
WIN closes as MISSING; PER and WIN without a window are one LOST. Errors set ERR and LASTERR and count. When the pair is due, ALIVE counts, and both buses are given
16 bytes that agree but for their check. -/
def Obligations.HemStreams : Prop :=
  (∀ (busB xid : Bool) (id : BitVec 29) (bs : List Byte) (s : State), domOn s 1 = true →
    let i := .hemCopyRx busB xid id bs
    let failed := fun (k e : Nat) (t : State) => t.on (R.SAF_HRXSTAT_ERR k) = true ∧ t.get (R.SAF_HRXSTAT_LASTERR k) = e
      ∧ t.get (R.SAF_HRXSTAT_ERRCNT k) = (s.get (R.SAF_HRXSTAT_ERRCNT k) + 1) % 256
      ∧ RegsOutside [R.SAF_HRXSTAT k] s t ∧ t = { s with regs := t.regs, saf := t.saf }
    (hemStream s xid id.toNat = none → exec i s = .next s)
    ∧ ∀ k, hemStream s xid id.toNat = some k →
      (bs.length ≠ 16 → ∃ t, exec i s = .next t ∧ OnlyRegs [R.SAF_HRXCNT k] s t
        ∧ t.get (R.SAF_HRXCNT_BAD k) = (s.get (R.SAF_HRXCNT_BAD k) + 1) % 256)
      ∧ (bs.length = 16 → leNat (slice bs 9 1) = s.get (R.SAF_HRXCFG_FID k) → slice bs 10 2 = [0, 0] →
          leNat (slice bs 12 4) = hemCrc s (bit busB) bs →
        let c := leNat (slice bs 8 1)
        let x := streamSt s k
        (x.window = none → (x.seen = false ∨ x.counter ≠ c) →
          ∃ t, exec i s = .next t ∧ RegsOutside [R.SAF_HRXSTAT k] s t ∧ t.on (R.SAF_HRXSTAT_WOPEN k) = true
            ∧ t = { s with regs := t.regs, saf := t.saf }
            ∧ streamSt t k = { x with
                  window := some (c, bit busB, bs.take 10, s.tick), openedAt := s.tick, lost := false })
        ∧ (x.window = none → x.seen = true → x.counter = c → ∃ t, exec i s = .next t ∧ failed k 3 t)
        ∧ (∀ b since, x.window = some (c, b, bs.take 10, since) → bit busB ≠ b → (x.seen = false ∨ c = (x.counter + 1) % 256) →
          ∃ t, exec i s = .next t
            ∧ RegsOutside [R.SAF_HRXSTAT k, R.SAF_HRXD0 k, R.SAF_HRXD1 k, R.SAF_HRXCNT k] s t
            ∧ t = { s with regs := t.regs, saf := t.saf } ∧ t.on (R.SAF_HRXSTAT_WOPEN k) = false
            ∧ t.get (R.SAF_HRXSTAT_ALIVE k) = c ∧ t.word (R.SAF_HRXD0 k) = BitVec.ofNat 32 (leAt bs 0)
            ∧ t.word (R.SAF_HRXD1 k) = BitVec.ofNat 32 (leAt bs 4)
            ∧ t.get (R.SAF_HRXCNT_ACC k) = (s.get (R.SAF_HRXCNT_ACC k) + 1) % 2 ^ 16
            ∧ (streamSt t k).window = none ∧ (streamSt t k).seen = true ∧ (streamSt t k).counter = c)
        ∧ (∀ c0 b bs0 since, x.window = some (c0, b, bs0, since) → bit busB ≠ b → bs.take 10 ≠ bs0 →
          ∃ t, exec i s = .next t ∧ failed k 1 t ∧ t.on (R.SAF_HRXSTAT_WOPEN k) = false)))
  ∧ (∀ (k : Fin 4) (s : State), domOn s 1 = true →
    let x := streamSt s k
    let failed := fun (e : Nat) (t : State) => t.on (R.SAF_HRXSTAT_ERR k) = true ∧ t.get (R.SAF_HRXSTAT_LASTERR k) = e
      ∧ t.get (R.SAF_HRXSTAT_ERRCNT k) = (s.get (R.SAF_HRXSTAT_ERRCNT k) + 1) % 256
      ∧ RegsOutside [R.SAF_HRXSTAT k] s t ∧ t = { s with regs := t.regs, saf := t.saf }
    (x.window = none → exec (.hemWindowExpire k) s = .next s)
    ∧ (∀ c b bs since, x.window = some (c, b, bs, since) →
      (s.tick ≤ since + 10 * s.get (R.SAF_HRXTIM_WIN k) → exec (.hemWindowExpire k) s = .next s)
      ∧ (since + 10 * s.get (R.SAF_HRXTIM_WIN k) < s.tick →
          ∃ t, exec (.hemWindowExpire k) s = .next t ∧ failed 2 t ∧ t.on (R.SAF_HRXSTAT_WOPEN k) = false
            ∧ (streamSt t k).window = none))
    ∧ ((s.on (R.SAF_HRXCFG_EN k) = false ∨ x.lost = true) → exec (.hemStreamLost k) s = .next s)
    ∧ (s.on (R.SAF_HRXCFG_EN k) = true → x.lost = false →
        x.openedAt + 10 * (s.get (R.SAF_HRXTIM_PER k) + s.get (R.SAF_HRXTIM_WIN k)) < s.tick →
      ∃ t, exec (.hemStreamLost k) s = .next t ∧ failed 5 t ∧ (streamSt t k).lost = true))
  ∧ ∀ s : State, domOn s 1 = true →
    (s.on R.SAF_HTXCFG_EN = false → exec .hemTxDue s = .next s)
    ∧ (s.on R.SAF_HTXCFG_EN = true →
      ∃ t, exec .hemTxDue s = .next t ∧ RegsOutside [R.SAF_HTXTIM] s t
        ∧ t.get R.SAF_HTXTIM_ALIVE = (s.get R.SAF_HTXTIM_ALIVE + 1) % 256
        ∧ t = { s with
              regs := t.regs, saf := { s.saf with tx := [(0, some (hemTxFrame t 0)), (1, some (hemTxFrame t 1))] } }
        ∧ (hemTxFrame t 0).length = 16 ∧ (hemTxFrame t 1).length = 16
        ∧ (hemTxFrame t 0).take 12 = (hemTxFrame t 1).take 12)

/-- Words accepted at the registers of a unit. A unit with a role discards START, END and data with PORTERR, and its parameters stay. START loads the parameters, opens the stream for the port and
counts from 0; END closes it. Data of the owner of an open stream enters the register and is counted, and the result is then the check value of all the bytes fed since
START; data of another port or with no stream open is discarded. A parameter that would make the set invalid, or one written while a stream is open, sets CFGERR
alone, any other takes the written bits. AW = 3 sets the checker's ERR alone; else ACFG takes the word. A value fed to an armed checker is FIRST (1) where none came since
arming, OK (2) where d = INC, SKIPPED (3) where d = k × INC for a k from 2 to TOL + 1, REPEAT (4) where d = 0, and BAD (5) where d is any other (Table 14.4);
a REPEAT leaves LAST, REPEAT and BAD count as errors, and a checker that is not armed only sets ERR. That k × INC is not reduced modulo 2^AW, and that an
INC of 0 counts as 1, is the model's reading (log entry 14). -/
def Obligations.OverlockUnits : Prop :=
  (∀ (u : Fin 16) (p : Nat) (s : State),
    let x := ovlSt s u
    let kept := fun (t : State) => t = { endRun p s with
          regs := t.regs, ovl := t.ovl } ∧ ∀ m, m ≠ u.val → ovlSt t m = ovlSt s m
    let thrown := fun (i : Instr) => ∃ t, exec i s = .next t ∧ PortRegs p [R.OVL_STAT u, R.HST_STAT, R.HST_ERRADDR] s t
      ∧ t.on (R.OVL_STAT_PORTERR u) = true ∧ t.on R.HST_STAT_DISCARDED = true
    (Accepts s p (R.OVL_CMD u) →
      (s.get (R.OVL_CFG_ROLE u) ≠ 0 → thrown (.ovlStart u p) ∧ thrown (.ovlEnd u p))
      ∧ (s.get (R.OVL_CFG_ROLE u) = 0 →
        (∃ t, exec (.ovlStart u p) s = .next t ∧ RegsOutside [R.OVL_STAT u] s t ∧ kept t
          ∧ ovlSt t u = { x with par := ovlParOf s u, reg := (ovlParOf s u).init } ∧ t.on (R.OVL_STAT_OPEN u) = true
          ∧ t.get (R.OVL_STAT_OWNER u) = p % 8 ∧ t.get (R.OVL_STAT_NBYTES u) = 0)
        ∧ (∃ t, exec (.ovlEnd u p) s = .next t ∧ PortRegs p [R.OVL_STAT u] s t ∧ t.on (R.OVL_STAT_OPEN u) = false)))
    ∧ (∀ d : Word,
      let fed := fun (n : Nat) (i : Instr) => ∃ t, exec i s = .next t ∧ RegsOutside [R.OVL_STAT u] s t ∧ kept t
        ∧ t.get (R.OVL_STAT_NBYTES u) = (s.get (R.OVL_STAT_NBYTES u) + n) % 2 ^ 24
        ∧ (ovlSt t u).par = x.par ∧ t.on (R.OVL_STAT_OPEN u) = true
        ∧ ∀ bs : List Byte, x.reg = bs.foldl (crcByte x.par.width x.par.poly x.par.refin) x.par.init →
            ovlResult t u = x.par.check (bs ++ leBytes n d.toNat)
      (Accepts s p (R.OVL_DIN4 u) →
        (s.get (R.OVL_CFG_ROLE u) = 0 → s.on (R.OVL_STAT_OPEN u) = true → s.get (R.OVL_STAT_OWNER u) = p →
          fed 4 (.ovlDin4 u ⟨p, d⟩))
        ∧ (s.get (R.OVL_CFG_ROLE u) ≠ 0 ∨ s.on (R.OVL_STAT_OPEN u) = false ∨ s.get (R.OVL_STAT_OWNER u) ≠ p →
          thrown (.ovlDin4 u ⟨p, d⟩)))
      ∧ (Accepts s p (R.OVL_DIN1 u) →
        (s.get (R.OVL_CFG_ROLE u) = 0 → s.on (R.OVL_STAT_OPEN u) = true → s.get (R.OVL_STAT_OWNER u) = p →
          fed 1 (.ovlDin1 u ⟨p, d⟩))
        ∧ (s.get (R.OVL_CFG_ROLE u) ≠ 0 ∨ s.on (R.OVL_STAT_OPEN u) = false ∨ s.get (R.OVL_STAT_OWNER u) ≠ p →
          thrown (.ovlDin1 u ⟨p, d⟩)))))
  ∧ (∀ (u : Fin 16) (k : Fin 7) (w : PortWrite) (s : State), Accepts s w.port (ovlParReg u k) →
    let v := plainWrite (ovlParReg u k) w.data s
    let bad := s.on (R.OVL_STAT_OPEN u) = true ∨ (ovlParOf v u).valid = false
    (s.get (R.OVL_CFG_ROLE u) ≠ 0 → exec (.ovlParamWrite u k w) s = .next (endRun w.port s))
    ∧ (s.get (R.OVL_CFG_ROLE u) = 0 → bad →
      ∃ t, exec (.ovlParamWrite u k w) s = .next t ∧ PortRegs w.port [R.OVL_STAT u] s t ∧ t.on (R.OVL_STAT_CFGERR u) = true)
    ∧ (s.get (R.OVL_CFG_ROLE u) = 0 → ¬bad →
      ∃ t, exec (.ovlParamWrite u k w) s = .next t ∧ PortRegs w.port [ovlParReg u k] s t
        ∧ t.word (ovlParReg u k) = v.word (ovlParReg u k)))
  ∧ (∀ (u : Fin 16) (w : PortWrite) (s : State), Accepts s w.port (R.OVL_ACFG u) →
    (bitsOf w.data 30 2 = 3 →
      ∃ t, exec (.ovlAcfgWrite u w) s = .next t ∧ PortRegs w.port [R.OVL_ASTAT u] s t ∧ t.on (R.OVL_ASTAT_ERR u) = true)
    ∧ (bitsOf w.data 30 2 ≠ 3 →
      ∃ t, exec (.ovlAcfgWrite u w) s = .next t ∧ RegsOutside [R.OVL_ACFG u] s t
        ∧ t = { endRun w.port s with regs := t.regs, ovl := t.ovl }
        ∧ t.word (R.OVL_ACFG u) = (plainWrite (R.OVL_ACFG u) w.data s).word (R.OVL_ACFG u)
        ∧ (t.on (R.OVL_ACFG_AEN u) = true → (ovlSt t u).fresh = true)))
  ∧ ∀ (u : Fin 16) (w : PortWrite) (s : State), Accepts s w.port (R.OVL_AFEED u) →
    let m := 2 ^ aliveBits (s.get (R.OVL_ACFG_AW u))
    let v := bitsOf w.data 0 16 % m
    let last := s.get (R.OVL_ASTAT_LAST u)
    let inc := max 1 (s.get (R.OVL_ACFG_INC u))
    let d := (v + m - last % m) % m
    let tol := s.get (R.OVL_ACFG_TOL u)
    (s.on (R.OVL_ACFG_AEN u) = false →
      ∃ t, exec (.ovlAfeed u w) s = .next t ∧ PortRegs w.port [R.OVL_ASTAT u] s t ∧ t.on (R.OVL_ASTAT_ERR u) = true)
    ∧ (s.on (R.OVL_ACFG_AEN u) = true →
      ∃ t r, exec (.ovlAfeed u w) s = .next t ∧ RegsOutside [R.OVL_ASTAT u, R.OVL_ASKIP u] s t
        ∧ t = { endRun w.port s with regs := t.regs, ovl := t.ovl } ∧ t.get (R.OVL_ASTAT_RES u) = r
        ∧ ovlSt t u = { ovlSt s u with fresh := false } ∧ t.get (R.OVL_ASTAT_LAST u) = (if r = 4 then last else v)
        ∧ t.get (R.OVL_ASKIP_CNT u) = (if r = 3 then (s.get (R.OVL_ASKIP_CNT u) + 1) % 256 else s.get (R.OVL_ASKIP_CNT u))
        ∧ t.get (R.OVL_ASTAT_ERRCNT u) =
            (if 4 ≤ r then (s.get (R.OVL_ASTAT_ERRCNT u) + 1) % 256 else s.get (R.OVL_ASTAT_ERRCNT u))
        ∧ t.on (R.OVL_ASTAT_ERR u) = (decide (4 ≤ r) || s.on (R.OVL_ASTAT_ERR u))
        ∧ ((ovlSt s u).fresh = true → r = 1)
        ∧ ((ovlSt s u).fresh = false →
            (d = inc → r = 2)
            ∧ (d ≠ inc → (∃ k, 2 ≤ k ∧ k ≤ tol + 1 ∧ d = k * inc) → r = 3)
            ∧ (d = 0 → r = 4)
            ∧ (d ≠ 0 → d ≠ inc → (∀ k, 2 ≤ k → k ≤ tol + 1 → d ≠ k * inc) → r = 5)))

/-- A word accepted at IDN_CMD: a command without the guard has ERR 1, one while BUSY ERR 2, an ATTEST under KEYERR 6 and under RNGERR 7, a FUSE_KEY outside BASTING 3, with a key set or failed 4, of a hash
all zeros 5, each with CMDERR and nothing else. An accepted ATTEST is BUSY with its report last in the queue of the signing engine; an accepted FUSE_KEY is BUSY with the staged hash.
The end of the programming shows the fuses read back, KEYSET where they are the hash and KFAIL where they are not, DONE. The checks after power-up end with KEYERR and RNGERR as they
found; an RNG failure sets RNGERR. A host report that is signed fills the report window, its signature behind it, is counted, DONE; under KEYERR or RNGERR it ends with that ERR instead; a meter record that is signed
makes its slot SIGNED, with MREC, or is one MTR-INT. -/
def Obligations.IdentityCommands : Prop :=
  (∀ (c : PortCmd) (s : State), Accepts s c.port R.IDN_CMD →
    let refused := fun (e : Nat) (i : Instr) => ∃ t, exec i s = .next t ∧ PortRegs c.port [R.IDN_STAT] s t
      ∧ t.get R.IDN_STAT_ERR = e ∧ t.on R.IDN_STAT_CMDERR = true ∧ t.on R.IDN_STAT_BUSY = s.on R.IDN_STAT_BUSY
    (c.guard.toNat ≠ 0x5A7E → refused 1 (.attest c) ∧ refused 1 (.fuseKey c))
    ∧ (c.guard.toNat = 0x5A7E → s.on R.IDN_STAT_BUSY = true → refused 2 (.attest c) ∧ refused 2 (.fuseKey c))
    ∧ (c.guard.toNat = 0x5A7E → s.on R.IDN_STAT_BUSY = false →
      (s.on R.IDN_STAT_KEYERR = true → refused 6 (.attest c))
      ∧ (s.on R.IDN_STAT_KEYERR = false → s.on R.IDN_STAT_RNGERR = true → refused 7 (.attest c))
      ∧ (mode s ≠ mBASTING → refused 3 (.fuseKey c))
      ∧ (mode s = mBASTING → (s.on R.IDN_STAT_KEYSET = true ∨ s.on R.IDN_STAT_KFAIL = true) → refused 4 (.fuseKey c))
      ∧ (mode s = mBASTING → s.on R.IDN_STAT_KEYSET = false → s.on R.IDN_STAT_KFAIL = false →
          (stagedHash s = 0 → refused 5 (.fuseKey c))
          ∧ (stagedHash s ≠ 0 → stagedHash s ≠ 2 ^ 256 - 1 →
            ∃ t, exec (.fuseKey c) s = .next t ∧ RegsOutside [R.IDN_STAT] s t
              ∧ t = { endRun c.port s with regs := t.regs, idn := { s.idn with fusing := some (stagedHash s) } }
              ∧ t.get R.IDN_STAT_ERR = 0 ∧ t.on R.IDN_STAT_BUSY = true))
      ∧ (s.on R.IDN_STAT_KEYERR = false → s.on R.IDN_STAT_RNGERR = false →
        ∃ t, exec (.attest c) s = .next t ∧ RegsOutside [R.IDN_STAT] s t
          ∧ t = { endRun c.port s with
              regs := t.regs, idn := { s.idn with queue := s.idn.queue ++ [.host (reportBody (hostNonce s) false s)] } }
          ∧ t.get R.IDN_STAT_ERR = 0 ∧ t.on R.IDN_STAT_BUSY = true)))
  ∧ (∀ (fused : BitVec 256) (s : State),
    (s.idn.fusing = none → exec (.fuseKeyDone fused) s = .next s)
    ∧ (∀ h, s.idn.fusing = some h →
      ∃ t, exec (.fuseKeyDone fused) s = .next t ∧ RegsOutside (R.IDN_STAT :: (List.range 8).map R.IDN_KHASH) s t
        ∧ t = { s with regs := t.regs, idn := { s.idn with fusing := none } }
        ∧ (∀ k, k < 8 → t.word (R.IDN_KHASH k) = BitVec.ofNat 32 (fused.toNat / 2 ^ (32 * (7 - k))))
        ∧ t.on R.IDN_STAT_BUSY = false ∧ t.on R.IDN_STAT_DONE = true
        ∧ (fused.toNat = h → t.on R.IDN_STAT_KEYSET = true) ∧ (fused.toNat ≠ h → t.on R.IDN_STAT_KFAIL = true)))
  ∧ (∀ (k r : Bool) (s : State),
    (s.idn.checking = false → exec (.keyCheckDone k r) s = .next s)
    ∧ (s.idn.checking = true →
      ∃ t, exec (.keyCheckDone k r) s = .next t ∧ RegsOutside [R.IDN_STAT] s t
        ∧ t = { s with regs := t.regs, idn := { s.idn with checking := false } }
        ∧ t.on R.IDN_STAT_KEYERR = (s.on R.IDN_STAT_KEYERR || !k) ∧ t.on R.IDN_STAT_RNGERR = (s.on R.IDN_STAT_RNGERR || !r))
    ∧ (domOn s 3 = true → ∃ t, exec .rngHealthFail s = .next t ∧ OnlyRegs [R.IDN_STAT] s t ∧ t.on R.IDN_STAT_RNGERR = true))
  ∧ ∀ (r : SignReq) (tl : List SignReq) (s : State), s.idn.queue = r :: tl →
    ((s.idn.checking = true ∨ r = .verify) → exec .signComplete s = .next s)
    ∧ (s.idn.checking = false → domOn s 3 = true →
      (∀ body, r = .host body →
        (signerOk s = true → body.length = 128 →
          ∃ t, exec .signComplete s = .next t ∧ t.idn = { s.idn with queue := tl } ∧ t.freeCtr = s.freeCtr + 2
            ∧ RegsOutside ([R.IDN_STAT, R.IDN_SIGCNT] ++ (List.range 48).map R.IDN_REPORT) s t
            ∧ t.on R.IDN_STAT_BUSY = false ∧ t.on R.IDN_STAT_DONE = true
            ∧ t.get R.IDN_SIGCNT_CNT = (s.get R.IDN_SIGCNT_CNT + 1) % 2 ^ 32
            ∧ (∀ k, k < 32 → t.word (R.IDN_REPORT k) = BitVec.ofNat 32 (leAt body (4 * k)))
            ∧ (∀ k, k < 16 → t.word (R.IDN_REPORT (32 + k)) = BitVec.ofNat 32 (leAt (freeSignature body s) (4 * k)))
            ∧ t = { s with regs := t.regs, idn := t.idn, freeCtr := t.freeCtr })
        ∧ (signerOk s = false →
          ∃ t, exec .signComplete s = .next t ∧ RegsOutside [R.IDN_STAT] s t
            ∧ t = { s with regs := t.regs, idn := { s.idn with queue := tl } } ∧ t.on R.IDN_STAT_BUSY = false
            ∧ t.on R.IDN_STAT_DONE = true ∧ t.get R.IDN_STAT_ERR = (if s.on R.IDN_STAT_KEYERR then 6 else 7)))
      ∧ (r = .meter →
        (∀ k, signerOk s = true → oldestPending s = some k → s.hrv.burst ≠ 2 →
          ∃ t, exec .signComplete s = .next t ∧ t.idn = { s.idn with queue := tl } ∧ t.freeCtr = s.freeCtr + 2
            ∧ RegsOutside [R.IDN_STAT, R.IDN_SIGCNT, R.MTR_RSTAT, R.HST_EVT] s t ∧ t.on R.HST_EVT_MREC = true
            ∧ t.get R.IDN_SIGCNT_CNT = (s.get R.IDN_SIGCNT_CNT + 1) % 2 ^ 32
            ∧ ringSlot t k = { ringSlot s k with st := 2, sig := freeSignature (ringSlot s k).body s })
        ∧ (signerOk s = false →
          ∃ u, exec .signComplete s = .next (mtrInt 4 u) ∧ RegsOutside [R.IDN_STAT] s u
            ∧ u = { s with regs := u.regs, idn := { s.idn with queue := tl } })))

/-- A word accepted at PWR_MODECTL sets MDONE and MERR: 1 without the guard, 0xA while BUSY, 2 where the mode lists no such request, the code of the first condition that fails else; a refusal
changes nothing else. A request whose conditions hold has MERR 0 and MODE becomes the mode asked for, PREV the mode left; WATCH and DORMANT begin the power-down and FITTING with the
group off first switches it on, BUSY until then. PTMAX without PCDONE ends PRECHARGE in READY with MERR 0xB. PWR_CPERM takes a word only while no contactor is enabled; else WERR.
That a request granted shows MERR 0, and that a word without the guard sets MDONE too, are the model's choices (log entry 54). -/
def Obligations.ModeRequests : Prop :=
  let forming := R.GRD_STAT :: (seams.map R.PLT_STAT ++ seams.map R.PLT_CNT)
  (∀ (c : PortCmd) (s : State), Accepts s c.port R.PWR_MODECTL →
    let reqs : List (Instr × Nat) := [(.modeReqPrecharge c, mPRECHARGE), (.modeReqCharge c, mCHARGE), (.modeReqFeed c, mFEED),
      (.modeReqIsland c, mISLAND), (.modeReqAuxiliary c, mAUXILIARY), (.modeReqReady c, mREADY), (.modeReqFitting c, mFITTING),
      (.modeReqWatch c, mWATCH), (.modeReqDormant c, mDORMANT)]
    let refused := fun (e : Nat) (i : Instr) => ∃ t, exec i s = .next t ∧ PortRegs c.port [R.PWR_STAT] s t
      ∧ t.on R.PWR_STAT_MDONE = true ∧ t.get R.PWR_STAT_MERR = e
    let granted := fun (r : Nat) (i : Instr) => ∃ t, exec i s = .next t ∧ mode t = r ∧ t.get R.PWR_MODE_PREV = mode s
      ∧ t.on R.PWR_STAT_MDONE = true ∧ t.get R.PWR_STAT_MERR = 0
      ∧ RegsOutside ([R.PWR_STAT, R.PWR_MODE, R.SAF_CTR] ++ forming) s t
      ∧ t = { endRun c.port s with regs := t.regs, saf := t.saf, pwr := t.pwr, plts := t.plts }
    let pc := s.on R.PWR_STAT_PCDONE = true ∧ s.on R.SAF_STAT_LATCH = false ∧ s.on R.PWR_STAT_SFAIL = false
    (c.guard.toNat ≠ 0x5A7E → ∀ q ∈ reqs, refused 1 q.1)
    ∧ (c.guard.toNat = 0x5A7E → s.on R.PWR_MODE_BUSY = true → ∀ q ∈ reqs, refused 0xA q.1)
    ∧ (c.guard.toNat = 0x5A7E → s.on R.PWR_MODE_BUSY = false →
      (∀ q ∈ reqs, listed (mode s) q.2 = false → refused 2 q.1)
      ∧ (∀ q ∈ reqs, listed (mode s) q.2 = true → modeCondition s q.2 ≠ 0 → refused (modeCondition s q.2) q.1)
      ∧ (mode s = mREADY → patternReady s = false → refused 4 (.modeReqPrecharge c))
      ∧ (mode s = mPRECHARGE → s.on R.PWR_STAT_PCDONE = false → refused 6 (.modeReqCharge c) ∧ refused 6 (.modeReqIsland c))
      ∧ (mode s = mPRECHARGE → pc → s.on R.GRD_STAT_ENTOK = false → refused 7 (.modeReqFeed c))
      ∧ (mode s = mREADY → patternReady s = true → s.on R.SAF_STAT_LATCH = false → anyRootEn s = false →
          s.on R.PWR_STAT_SFAIL = false → granted mPRECHARGE (.modeReqPrecharge c))
      ∧ (mode s = mREADY ∨ mode s = mPRECHARGE ∨ mode s = mCHARGE ∨ mode s = mFEED ∨ mode s = mAUXILIARY → pc →
          granted mCHARGE (.modeReqCharge c)
          ∧ (s.on R.GRD_STAT_ENTOK = true → granted mFEED (.modeReqFeed c)))
      ∧ (mode s = mREADY ∨ mode s = mPRECHARGE → pc → granted mISLAND (.modeReqIsland c))
      ∧ (mode s = mREADY ∨ mode s = mPRECHARGE ∨ mode s = mCHARGE ∨ mode s = mFEED → pc →
          s.on (R.SEAM_CTL_EN (s.get R.GRD_CFG_ROOT)) = false → granted mAUXILIARY (.modeReqAuxiliary c))
      ∧ (anyRootEn s = false → s.on R.PWR_STAT_SFAIL = false →
          (mode s = mFITTING ∧ patternReady s = true) ∨ (mPRECHARGE ≤ mode s ∧ mode s ≤ mAUXILIARY) →
          granted mREADY (.modeReqReady c))
      ∧ (mode s = mREADY ∨ mode s = mBASTING → s.on R.PWR_STAT_SFAIL = false →
          (groupOn s = true → granted mFITTING (.modeReqFitting c))
          ∧ (groupOn s = false →
            ∃ t, exec (.modeReqFitting c) s = .next t ∧ RegsOutside [R.PWR_STAT, R.PWR_MODE] s t ∧ mode t = mode s
              ∧ t.on R.PWR_MODE_BUSY = true ∧ t.get R.PWR_STAT_MERR = 0
              ∧ t = { endRun c.port s with
                    regs := t.regs, pwr := { s.pwr with groupOn := true, upTo := some mFITTING } }))
      ∧ (mode s = mREADY ∨ mode s = mFITTING ∨ mode s = mBASTING ∨ mode s = mSAFEOFF → anyRootEn s = false →
          s.get R.SAF_CTR_EN = 0 → s.get R.SAF_CTR_FB = 0 →
          ∀ q ∈ [(Instr.modeReqWatch c, mWATCH), (.modeReqDormant c, mDORMANT)],
            ∃ t, exec q.1 s = .next t ∧ mode t = mode s ∧ t.on R.PWR_MODE_BUSY = true ∧ t.get R.PWR_STAT_MERR = 0
              ∧ t.pwr.downTo = some q.2)))
  ∧ (∀ s : State,
    (s.get R.PWR_PTIM_PTMAX = 0 ∨ mode s ≠ mPRECHARGE ∨ s.on R.PWR_STAT_PCDONE = true → exec .prechargeTimeout s = .next s)
    ∧ (s.get R.PWR_PTIM_PTMAX ≠ 0 → mode s = mPRECHARGE → s.on R.PWR_STAT_PCDONE = false →
      ∃ t, exec .prechargeTimeout s = .next t ∧ mode t = mREADY ∧ t.get R.PWR_STAT_MERR = 0xB
        ∧ t.get R.PWR_MODE_PREV = mPRECHARGE ∧ RegsOutside ([R.PWR_STAT, R.PWR_MODE, R.SAF_CTR] ++ forming) s t))
  ∧ ∀ (w : PortWrite) (s : State), Accepts s w.port R.PWR_CPERM →
    (s.get R.SAF_CTR_EN ≠ 0 →
      ∃ t, exec (.cpermWrite w) s = .next t ∧ PortRegs w.port [R.PWR_STAT] s t ∧ t.on R.PWR_STAT_WERR = true)
    ∧ (s.get R.SAF_CTR_EN = 0 →
      ∃ t, exec (.cpermWrite w) s = .next t ∧ RegsOutside [R.PWR_CPERM, R.SAF_CTR] s t
        ∧ t.get R.PWR_CPERM_PERM = bitsOf w.data 0 28
        ∧ ∀ k, k < 4 → tb (t.get R.SAF_CTR_EN) k = ctrWanted t k)

/-- A wake whose source is enabled, whose condition holds and that the mode takes is recorded with its source, counted, and waits for the rails, BUSY; during a power-down to WATCH or
DORMANT the first that the mode to come takes is kept and taken at its end, any other does nothing, as does one not enabled. RAILTO without the rails shows NORAILS. PD1 leaves reset with the latch's mode SAFE_OFF and BASE READY; PD2 and PD3 need SYSLOCK; the last
of the three has the group switched on and a start due; the group, once the restore is done, shows EDGE_LOCK and its energies, and the mode that waited for it is entered. A power-down ends in its mode with PD1 to PD3, or in BASTING with the
group, off; a brownout in WATCH, BROWN set. A loss of VAON switches everything off and keeps the fuse registers, the slots and MRAM; a Selvedge power-up starts PD0 in WATCH. The restore
gives seal, ledger, log number and energies back; a retained copy of the energies that fails its check is replaced from the mirror, or everything restarts at 0. A mirror write that ends has copied its content to MRAM.
The model's choices here: a wake by the alarm advances engine time to it, and the first wake is kept (log entry 52); a start that SAFE_OFF or a power-down leaves open
(log entry 27); what VAON keeps and COLD (log entry 7). -/
def Obligations.PowerDomains : Prop :=
  (∀ (src : Fin 8) (s : State),
    let en := domOn s 0 = true ∧ tb (s.get R.PWR_WCFG_EN) src = true ∧ wakeCond s src = true
    (¬en → exec (.wakeTaken src) s = .next s)
    ∧ (en → s.pwr.downTo = none → takenIn (mode s) src = true → s.pwr.railWait = false →
      ∃ t, exec (.wakeTaken src) s = .next t ∧ RegsOutside [R.PWR_WCAUSE, R.PWR_MODE, R.HRV_STAT] s t
        ∧ t.get R.PWR_WCAUSE_SRC = src ∧ t.get R.PWR_WCAUSE_WCNT = (s.get R.PWR_WCAUSE_WCNT + 1) % 2 ^ 16
        ∧ t.on R.PWR_WCAUSE_NORAILS = false ∧ t.on R.HRV_STAT_REDDORM = false ∧ t.on R.PWR_MODE_BUSY = true ∧ mode t = mode s
        ∧ t.pwr.railWait = true ∧ t.pwr.wakeLate = none ∧ t.pwr.conds = 0 ∧ t = { s with
              regs := t.regs, pwr := t.pwr, hrv := t.hrv, cyc := t.cyc }
        ∧ t.cyc = (if src.val = 5 then s.cyc + (s.pwr.alarm - rtcMs s) * cyclesPerMs else s.cyc))
    ∧ (en → ∀ m, s.pwr.downTo = some m →
      let kept := (m = mWATCH ∨ m = mDORMANT) ∧ takenIn m src = true ∧ s.pwr.wakeLate = none
      (kept → exec (.wakeTaken src) s = .next { s with
        pwr := { s.pwr with wakeLate := some src.val }
        cyc := if src.val = 5 then s.cyc + (s.pwr.alarm - rtcMs s) * cyclesPerMs else s.cyc })
      ∧ (¬kept → exec (.wakeTaken src) s = .next s)))
  ∧ (∀ s : State,
    (s.pwr.railWait = true → s.get R.PWR_STAT_RAILOK ≠ 0xF → domOn s 1 = false →
      ∃ t, exec .railtoExpire s = .next t ∧ RegsOutside [R.PWR_WCAUSE, R.PWR_MODE] s t ∧ t.on R.PWR_WCAUSE_NORAILS = true
        ∧ t = { s with regs := t.regs, pwr := { s.pwr with railWait := false }, hrv := { s.hrv with hand := false } })
    ∧ (s.pwr.railWait = false → exec .railtoExpire s = .next s))
  ∧ (∀ (n : Fin 8) (s : State),
    ((n.val = 0 ∨ domOn s n = true) → exec (.domainOutOfReset n) s = .next s)
    ∧ (domOn s n = false → domOn s 0 = true → wanted s n = true →
      (n.val = 1 → ∃ u, exec (.domainOutOfReset n) s = .next (afterWake (faultsAtPowerUp u)) ∧ domOn u 1 = true
        ∧ mode u = mSAFEOFF ∧ u.get R.PWR_MODE_BASE = mREADY
        ∧ RegsOutside ([R.PWR_DOM, R.PWR_MODE, R.GRD_STAT, R.SAF_CTR] ++ seams.map R.PLT_STAT ++ seams.map R.PLT_CNT) s u
        ∧ u = { s with regs := u.regs, saf := u.saf, plts := u.plts })
      ∧ (n.val = 2 → s.on R.PWR_CLK_SYSLOCK = true →
          ∃ u, exec (.domainOutOfReset n) s = .next (afterWake u) ∧ OnlyRegs [R.PWR_DOM] s u ∧ domOn u 2 = true)
      ∧ (n.val = 3 → s.on R.PWR_CLK_SYSLOCK = true →
          ∃ u, exec (.domainOutOfReset n) s = .next (afterWake (askMeterSign u))
            ∧ RegsOutside [R.PWR_DOM, R.PAT_SLOT 0, R.PAT_SLOT 1] s u
            ∧ u.on (R.PAT_SLOT_VALID 0) = s.pat.slotA.valid ∧ u.on (R.PAT_SLOT_VALID 1) = s.pat.slotB.valid
            ∧ domOn u 3 = true ∧ u = { s with regs := u.regs, idn := { s.idn with checking := true } })
      ∧ (n.val = 2 ∨ n.val = 3 → s.on R.PWR_CLK_SYSLOCK = false → exec (.domainOutOfReset n) s = .next s))
    ∧ (4 ≤ n.val → domOn s n = false → s.pwr.groupOn = true → domOn s 1 = true → domOn s 2 = true → domOn s 3 = true →
        s.on R.PWR_CLK_EDGELOCK = true → s.on R.PWR_STAT_RESTPEND = false → (∀ src, s.pat.work ≠ .apply src) →
        (s.part.isM = true → s.mtr.kept.ok = true) →
      ∃ t, exec (.domainOutOfReset n) s = .next t ∧ (∀ k, 4 ≤ k → k ≤ 7 → domOn t k = true) ∧ t.pwr.groupOn = false
        ∧ t.pwr.upTo = none ∧ t.on R.MOD_STAT_EDGE_LOCK = true ∧ (s.part.isM = true → t.mtr.acc = s.mtr.kept)
        ∧ (s.pwr.upTo = none → mode t = mode s) ∧ (∀ m, m < 16 → s.pwr.upTo = some m → mode t = m)))
  ∧ (∀ s : State,
    (s.pwr.railWait = true → domOn s 1 = true → domOn s 2 = true → domOn s 3 = true →
      ∃ t, afterWake s = t ∧ OnlyRegs [R.PWR_MODE] s { t with pwr := s.pwr } ∧ t.on R.PWR_MODE_BUSY = true
        ∧ t.pwr = { s.pwr with railWait := false, startDue := true, groupOn := true })
    ∧ (s.pwr.railWait = false ∨ domOn s 1 = false ∨ domOn s 2 = false ∨ domOn s 3 = false → afterWake s = s))
  ∧ (∀ s : State,
    (s.pwr.downTo = none → exec .powerDownDone s = .next s)
    ∧ (s.pwr.downTo = some mBASTING →
      ∃ t, exec .powerDownDone s = .next t ∧ mode t = mBASTING ∧ t.pwr.downTo = none ∧ ∀ k, 4 ≤ k → k ≤ 7 → domOn t k = false)
    ∧ (∀ m, (m = mWATCH ∨ m = mDORMANT) → s.pwr.downTo = some m →
      ∃ t, exec .powerDownDone s = .next t ∧ mode t = m ∧ (∀ k, 1 ≤ k → k ≤ 3 → domOn t k = false)
        ∧ t.on R.PWR_STAT_STARTING = false
        ∧ ∀ src : Fin 8, s.pwr.wakeLate = some src.val → takenIn m src = true →
          t.pwr.railWait = true ∧ t.pwr.wakeLate = none ∧ t.get R.PWR_WCAUSE_SRC = src)
    ∧ (domOn s 1 = false → exec .brownout s = .next s)
    ∧ (domOn s 1 = true → ∃ t, exec .brownout s = .next t ∧ mode t = mWATCH ∧ t.on R.PWR_STAT_BROWN = true
        ∧ t.on R.PWR_STAT_STARTING = false ∧ t.pwr.downTo = none ∧ t.pwr.wakeLate = none
        ∧ ∀ k, 1 ≤ k → k ≤ 7 → domOn t k = false)
    ∧ (∃ t, exec .vaonReset s = .next t ∧ t.get R.PWR_DOM_ON = 0 ∧ t.dielets = s.dielets ∧ t.mram = s.mram
        ∧ t.pat.slotA = s.pat.slotA ∧ t.pat.slotB = s.pat.slotB
        ∧ t.get R.IDN_STAT_KEYSET = s.get R.IDN_STAT_KEYSET
        ∧ (∀ a, fuseAddr a = true → a ≠ R.IDN_STAT → a ≠ R.PWR_DOM → t.word a = s.word a)
        ∧ (∀ a, fuseAddr a = false → a ≠ R.IDN_STAT → a ≠ R.PWR_DOM → t.word a = resetWord a))
    ∧ (domOn s 0 = true → exec .selvedgePowerUp s = .next s)
    ∧ (domOn s 0 = false → ∃ t, exec .selvedgePowerUp s = .next t ∧ t.get R.PWR_DOM_ON = 1 ∧ mode t = mWATCH
        ∧ t.on R.HRV_STAT_COLD = (s.part.isM && s.hrv.cold) ∧ t.mram = s.mram))
  ∧ (∀ s : State, domOn s 3 = true → s.on R.PWR_STAT_RESTPEND = true → groupOn s = false →
      ∃ u, (s.part.isM = false ∨ s.mram.meter.ok = true → exec .restoreDone s = .next u)
        ∧ (s.part.isM = true → s.mram.meter.ok = false →
            exec .restoreDone s = .next (mtrInt 3 u) ∧ u.on R.MTR_STAT_LOST = true ∧ u.mtr.kept = MtrCopy.zero
              ∧ u.mtr.restart = true)
        ∧ RegsOutside [R.PWR_STAT, R.PAT_STAT, R.PAT_SEAL, R.PAT_SEALCRC, R.PAT_SEALCNT, R.FLT_NEXTSEQ, R.FLT_LOGINFO,
            R.MTR_STAT] s u
        ∧ u.on R.PWR_STAT_RESTPEND = false ∧ u.get R.PAT_STAT_SEAL = s.mram.sealSt % 4 ∧ u.ledger = s.mram.ledger
        ∧ u.ledgerSeq = s.mram.wseq ∧ u.get R.PAT_SEALCNT_CNT = s.mram.sealCnt % 2 ^ 32
        ∧ u.get R.FLT_NEXTSEQ_SEQ = max (s.get R.FLT_NEXTSEQ_SEQ) (max 1 s.mram.logMark) % 2 ^ 32
        ∧ u.get R.FLT_LOGINFO_EPOCH = (s.mram.epoch + 1) % 256 ∧ Mirror.logMark ∈ u.mirrors
        ∧ (s.part.isM = true → s.mram.meter.ok = true → u.mtr.kept = s.mram.meter ∧ u.mtr.rcnt = s.mram.rcnt))
  ∧ (∀ s : State,
    (s.mtr.kept.ok = true → judgeKept s = s)
    ∧ (s.mtr.kept.ok = false → s.mram.meter.ok = true →
      ∃ u, judgeKept s = mtrInt 2 u ∧ OnlyRegs [R.MTR_STAT] s { u with mtr := s.mtr } ∧ u.on R.MTR_STAT_RESTORED = true
        ∧ u.mtr = { s.mtr with kept := s.mram.meter, restored := true })
    ∧ (s.mtr.kept.ok = false → s.mram.meter.ok = false →
      ∃ u, judgeKept s = mtrInt 3 u ∧ OnlyRegs [R.MTR_STAT] s { u with mtr := s.mtr } ∧ u.on R.MTR_STAT_LOST = true
        ∧ u.mtr = { s.mtr with kept := MtrCopy.zero, restart := true }))
  ∧ ∀ s : State, domOn s 3 = true →
    (∀ m, m ∉ s.mirrors → exec (.mramMirrorDone m) s = .next s)
    ∧ (Mirror.seal ∈ s.mirrors → ∃ t, exec (.mramMirrorDone .seal) s = .next t ∧ RegsOutside [R.HRV_BURST] s t
        ∧ t = { s with
            regs := t.regs, mirrors := s.mirrors.erase .seal, mram := { s.mram with
              sealSt := s.get R.PAT_STAT_SEAL, sealVer := s.get R.PAT_SEAL_MTR_VER, sealCrc := s.get R.PAT_SEALCRC_CRC,
              sealCnt := s.get R.PAT_SEALCNT_CNT } })
    ∧ (Mirror.meter ∈ s.mirrors → ∃ t, exec (.mramMirrorDone .meter) s = .next t ∧ RegsOutside [R.HRV_BURST] s t
        ∧ t = { s with
            regs := t.regs, mirrors := s.mirrors.erase .meter, mram := { s.mram with meter := MtrCopy.of s.mtr.shot } })
    ∧ (Mirror.logMark ∈ s.mirrors → ∃ t, exec (.mramMirrorDone .logMark) s = .next t ∧ RegsOutside [R.HRV_BURST] s t
        ∧ t = { s with
            regs := t.regs, mirrors := s.mirrors.erase .logMark, mram := { s.mram with
              logMark := logMarkFor (s.get R.FLT_NEXTSEQ_SEQ), epoch := s.get R.FLT_LOGINFO_EPOCH } })

/-- A rail outside its thresholds, judged and in no episode, is one fault of class SUP and opens its episode; within them it is shown OK. A measurement of pilot and proximity shows state, duty
cycle, DIGITAL from 3 % to 7 %, the resistance, and 0.6 A for each percent between 10 % and 85 %. The low-power clock that comes back is used; its loss, and once per episode the failure of XREF or a
PLL that was good, is one fault of class CLK with its flag clear; a clock not in use has no failure. A relock of PLL_EDGE that was lost restarts every root at phase 0, from where its carrier moves to its place. The RTC takes the
64 bits written, and is valid; the alarm takes the 64 bits of HI and the LO written and is armed unless it is 0. DISCHARGE that meets its conditions ends DONE with its time, in BASTING, in SAFE_OFF under the latch, or in the
mode it leaves to; TMAX ends it with TOUT and a T4 reaction that latches.
The model's choices here: when a rail is judged (log entry 26), what a lost and regained PLL_EDGE does to the carriers (log entry 53), the sign of the place on MOD_SYNC_IN (log entry 64), what
ends a discharge (log entry 19). -/
def Obligations.PowerMonitors : Prop :=
  (∀ (rail : Fin 5) (low high : Bool) (s : State),
    let judged := domOn s 1 = true ∧ (rail.val = 4 ∨ (mode s ≠ mWATCH ∧ mode s ≠ mDORMANT))
    ((low = false ∧ high = false) ∨ ¬judged ∨ episode s rail = true →
      ∃ t, exec (.railMonitor rail low high) s = .next t ∧ RegsOutside [R.PWR_STAT] s t
        ∧ t = { s with regs := t.regs, pwr := t.pwr } ∧ (rail.val < 4 → tb (t.get R.PWR_STAT_RAILOK) rail = !low)
        ∧ (low = false → high = false → episode t rail = false))
    ∧ ((low = true ∨ high = true) → judged → episode s rail = false →
      ∃ u, exec (.railMonitor rail low high) s = .next (occur kSUP (supplyScope rail) rail u) ∧ RegsOutside [R.PWR_STAT] s u
        ∧ u = { s with regs := u.regs, pwr := u.pwr } ∧ (rail.val < 4 → tb (u.get R.PWR_STAT_RAILOK) rail = !low)
        ∧ episode u rail = true))
  ∧ (∀ (pilot : Fin 6) (d : BitVec 10) (r hv : BitVec 12) (s : State), domOn s 0 = true → domOn s 2 = true →
    ∃ t, exec (.cpPpMeasure pilot (some d) r hv) s = .next t ∧ RegsOutside [R.PWR_CP, R.PWR_PP] s t
      ∧ t = { s with regs := t.regs, pwr := t.pwr } ∧ t.get R.PWR_CP_STATE = pilot ∧ t.on R.PWR_CP_PWM = true
      ∧ t.get R.PWR_CP_DUTY = d.toNat ∧ t.get R.PWR_PP_R = r.toNat ∧ t.get R.PWR_PP_ILIM = (proximity r.toNat).2
      ∧ t.on R.PWR_CP_DIGITAL = decide (30 ≤ d.toNat ∧ d.toNat ≤ 70)
      ∧ (100 ≤ d.toNat → d.toNat ≤ 850 → d.toNat % 5 = 0 → t.get R.PWR_CP_ILIM = 6 * d.toNat / 10)
      ∧ (d.toNat < 80 → t.get R.PWR_CP_ILIM = 0) ∧ (960 < d.toNat → d.toNat ≤ 970 → t.get R.PWR_CP_ILIM = 800))
  ∧ (∀ s : State,
    (domOn s 0 = true →
      ∃ t, exec .xaonOk s = .next t ∧ OnlyRegs [R.PWR_CLK] s t ∧ t.on R.PWR_CLK_XAONOK = true ∧ t.on R.PWR_CLK_SRC = true)
    ∧ (s.on R.PWR_CLK_SRC = false → exec .xaonLoss s = .next s)
    ∧ (s.on R.PWR_CLK_SRC = true →
      ∃ u, exec .xaonLoss s = .next (occur kCLK (clockScope 0) 0 u) ∧ OnlyRegs [R.PWR_CLK] s u
        ∧ u.on R.PWR_CLK_XAONOK = false ∧ u.on R.PWR_CLK_SRC = false)
    ∧ (xrefWanted s = true → ∃ t, exec .xrefValid s = .next t ∧ RegsOutside [R.PWR_CLK] s t ∧ t.on R.PWR_CLK_XREFOK = true
        ∧ episode t 9 = false ∧ t = { s with regs := t.regs, pwr := t.pwr })
    ∧ (s.on R.PWR_CLK_XREFOK = false → ∀ edge, exec (.pllRelock edge) s = .next s)
    ∧ (s.on R.PWR_CLK_XREFOK = true →
      (∃ t, exec (.pllRelock false) s = .next t ∧ RegsOutside [R.PWR_CLK] s t ∧ t.on R.PWR_CLK_SYSLOCK = true
        ∧ episode t 10 = false ∧ t = { s with regs := t.regs, pwr := t.pwr })
      ∧ (groupOn s = false → s.pwr.groupOn = true →
        ∃ t, exec (.pllRelock true) s = .next t ∧ RegsOutside [R.PWR_CLK] s t ∧ t.on R.PWR_CLK_EDGELOCK = true
          ∧ episode t 11 = false ∧ t = { s with regs := t.regs, pwr := t.pwr })
      ∧ (groupOn s = true → s.on R.MOD_STAT_EDGE_LOCK = false →
        ∃ t, exec (.pllRelock true) s = .next t ∧ t.on R.PWR_CLK_EDGELOCK = true ∧ t.on R.MOD_STAT_EDGE_LOCK = true
          ∧ episode t 11 = false
          ∧ (∀ n ∈ roots s, (carrier t n).shift = 0 ∧ (carrier t n).len = 0
              ∧ (carrier t n).rem = wrapPhase (nominal s n)
                (if s.get (R.MOD_CAR_SYNC n) = 1 then -wantedPos s n else wantedPos s n))
          ∧ ∀ n, (fraction t n).now = 0 ∧ (fraction t n).edge = none ∧ (fraction t n).cur = (fraction s n).cur)))
  ∧ (∀ (clk : Clock) (s : State),
    let f := match clk with
      | .xref => R.PWR_CLK_XREFOK
      | .pllSys => R.PWR_CLK_SYSLOCK
      | .pllEdge => R.PWR_CLK_EDGELOCK
    (s.on f = false → exec (.clockFail clk) s = .next s)
    ∧ (s.on f = true → episode s (8 + clockIx clk) = false →
      ∃ u, exec (.clockFail clk) s = .next (occur kCLK (clockScope (clockIx clk)) 0 u) ∧ u.on f = false
        ∧ episode u (8 + clockIx clk) = true ∧ RegsOutside [R.PWR_CLK, R.MOD_STAT] s u
        ∧ u = { s with regs := u.regs, pwr := u.pwr, links := u.links, dielets := u.dielets })
    ∧ (s.on f = true → episode s (8 + clockIx clk) = true →
      ∃ t, exec (.clockFail clk) s = .next t ∧ t.on f = false ∧ RegsOutside [R.PWR_CLK, R.MOD_STAT] s t))
  ∧ (∀ (w : PortWrite) (s : State),
    (Accepts s w.port R.PWR_RTCW_LO →
      ∃ t, exec (.rtcSet w) s = .next t ∧ RegsOutside [R.PWR_STAT] s t ∧ t.on R.PWR_STAT_RTCVAL = true
        ∧ t = { endRun w.port s with regs := t.regs, pwr := t.pwr }
        ∧ rtcMs t = (s.pwr.rtcwHi * 2 ^ 32 + w.data.toNat) % 2 ^ 64)
    ∧ (Accepts s w.port R.PWR_ALARM_LO →
      ∃ t, exec (.alarmArm w) s = .next t ∧ RegsOutside [R.PWR_ALARM_LO] s t
        ∧ t = { endRun w.port s with
              regs := t.regs, pwr := { s.pwr with alarmArmed := t.pwr.alarmArmed, alarm := t.pwr.alarm } }
        ∧ t.pwr.alarm = s.get R.PWR_ALARM_HI_MS * 2 ^ 32 + w.data.toNat ∧ t.pwr.alarmArmed = decide (t.pwr.alarm ≠ 0)))
  ∧ ∀ s : State,
    (mode s ≠ mDISCHARGE → exec .dischargeComplete s = .next s ∧ exec .dischargeTimeout s = .next s)
    ∧ (mode s = mDISCHARGE →
      (dischargeMet s = false → exec .dischargeComplete s = .next s)
      ∧ (dischargeMet s = true → s.pwr.disBase < 16 →
        ∃ t, exec .dischargeComplete s = .next t ∧ t.on R.PWR_DISSTAT_RUN = false ∧ t.on R.PWR_DISSTAT_DONE = true
          ∧ t.get R.PWR_DISSTAT_TIME = min 65535 ((s.cyc - s.pwr.disAt) / cyclesPerMs) ∧ t.pwr.disHost = false
          ∧ (s.pwr.disFrom = mBASTING ∨ s.pwr.disBasting = true → mode t = mBASTING)
          ∧ (s.pwr.disFrom ≠ mBASTING → s.pwr.disBasting = false → t.get R.PWR_MODE_BASE = s.pwr.disBase
              ∧ mode t = (if s.on R.SAF_STAT_LATCH = true then mSAFEOFF else s.pwr.disBase)))
      ∧ (s.get R.PWR_DISTIM_TMAX = 0 → exec .dischargeTimeout s = .next s)
      ∧ (s.get R.PWR_DISTIM_TMAX ≠ 0 →
        ∃ u, exec .dischargeTimeout s = .next (occurWith false (some 4) kSUP (supplyScope 0) 0x10 u)
          ∧ OnlyRegs [R.PWR_DISSTAT] s u ∧ u.on R.PWR_DISSTAT_TOUT = true))

/-- On a part with harvest, PD0 on. A tracking cycle samples with K and VSTMAX as written; the sample gives VOC, K/64 of it as VREG, and HINLOW below 250 mV. CHG is EN with VOC at 250 mV or
more, no over-voltage and the store not full; FULL and HINOV follow their events. A rise of the store with PD0 off is remembered as a cold start. The gauge shows the voltage, the usable
energy and the grant: GREEN at 9/8 GTH, RED below ATH; a fall to RED in WATCH enters DORMANT, a rise to AMBER or GREEN there WATCH again. A burst asked for is admitted or deferred, counted. At a checkpoint it
is handed to a wake that waits, ends when nothing is left, or stops when the next step is not admitted; STOP and the timeout end it, counted, with PD3 off. A word out of its range
only sets WERR. -/
def Obligations.Harvesting : Prop :=
  (∀ s : State, hrvOn s = true →
    let chg := fun (t : State) => t.on R.HRV_STAT_CHG = (t.on R.HRV_CFG_EN && decide (250 ≤ t.get R.HRV_VOC_VOC)
      && !t.on R.HRV_STAT_HINOV && !t.on R.HRV_STAT_FULL)
    (s.on R.HRV_CFG_EN = true → s.on R.HRV_CFG_TRKEN = true →
      ∃ t, exec .trackCycle s = .next t ∧ RegsOutside [R.HRV_STAT] s t ∧ t.on R.HRV_STAT_SAMPLING = true
        ∧ t = { s with
            regs := t.regs, hrv := { s.hrv with k := s.get R.HRV_CFG_K, vmax := s.get R.HRV_CFG_VSTMAX } })
    ∧ (s.on R.HRV_CFG_EN = false ∨ s.on R.HRV_CFG_TRKEN = false → exec .trackCycle s = .next s)
    ∧ (∀ voc : BitVec 13,
      (s.on R.HRV_STAT_SAMPLING = false → exec (.vocSampleEnd voc) s = .next s)
      ∧ (s.on R.HRV_STAT_SAMPLING = true → s.on R.HRV_CFG_EN = true → s.on R.HRV_CFG_TRKEN = true →
        ∃ t, exec (.vocSampleEnd voc) s = .next t ∧ OnlyRegs [R.HRV_STAT, R.HRV_VOC] s t ∧ t.on R.HRV_STAT_SAMPLING = false
          ∧ t.get R.HRV_VOC_VOC = voc.toNat ∧ t.get R.HRV_VOC_VREG = voc.toNat * s.hrv.k / 64 % 2 ^ 13
          ∧ t.on R.HRV_STAT_HINLOW = decide (voc.toNat < 250) ∧ chg t))
    ∧ (∃ t, exec .storeFull s = .next t ∧ OnlyRegs [R.HRV_STAT] s t ∧ t.on R.HRV_STAT_FULL = true ∧ chg t)
    ∧ (∃ t, exec .storeBelowVstmax s = .next t ∧ OnlyRegs [R.HRV_STAT] s t ∧ t.on R.HRV_STAT_FULL = false ∧ chg t)
    ∧ (∃ t, exec .hinOv s = .next t ∧ OnlyRegs [R.HRV_STAT] s t ∧ t.on R.HRV_STAT_HINOV = true ∧ chg t)
    ∧ (∃ t, exec .hinovClear s = .next t ∧ OnlyRegs [R.HRV_STAT] s t ∧ t.on R.HRV_STAT_HINOV = false ∧ chg t)
    ∧ (∀ ext, ∃ t, exec (.extsupChange ext) s = .next t ∧ OnlyRegs [R.HRV_STAT] s t ∧ t.on R.HRV_STAT_EXTSUP = ext)
    ∧ (∀ vst : BitVec 13,
      let e := usable (s.get R.HRV_CAP_CAP) vst.toNat
      ∃ u, exec (.gaugeMeasure vst) s = .next (askBurst (grantModes (s.get R.HRV_GAUGE_GRANT) u)) ∧ RegsOutside [R.HRV_GAUGE] s u
        ∧ u = { s with regs := u.regs, hrv := { s.hrv with red := u.hrv.red } } ∧ u.get R.HRV_GAUGE_VST = vst.toNat
        ∧ u.get R.HRV_GAUGE_E = e
        ∧ (s.get R.HRV_GTH_GTH + s.get R.HRV_GTH_GTH / 8 ≤ e → u.get R.HRV_GAUGE_GRANT = 2)
        ∧ (e < s.get R.HRV_GTH_ATH → s.get R.HRV_GTH_ATH ≤ s.get R.HRV_GTH_GTH → u.get R.HRV_GAUGE_GRANT = 0)))
  ∧ (∀ s : State, s.part.isM = true → domOn s 0 = false →
      exec .coldStart s = .next { s with hrv := { s.hrv with cold := true } })
  ∧ (∀ (old : Nat) (x : State), x.on R.HRV_STAT_EXTSUP = false → x.pwr.railWait = false →
    (mode x = mWATCH → x.get R.HRV_GAUGE_GRANT = 0 → old ≠ 0 →
      mode (grantModes old x) = mDORMANT ∧ (grantModes old x).on R.HRV_STAT_REDDORM = true)
    ∧ (mode x = mDORMANT → x.on R.HRV_STAT_REDDORM = true → old < x.get R.HRV_GAUGE_GRANT →
      mode (grantModes old x) = mWATCH ∧ (grantModes old x).on R.HRV_STAT_REDDORM = false))
  ∧ (∀ x : State, burstWork x ≠ 0 → x.hrv.burst = 0 → domOn x 3 = false → x.pwr.railWait = false → x.pwr.downTo = none →
    (admitted x (firstCost (burstWork x)) = true →
      (askBurst x).hrv.burst = burstWork x ∧ (askBurst x).get R.HRV_BURST_CLASS = burstWork x
        ∧ (askBurst x).get R.HRV_STAT_BSTATE = 2 ∧ RegsOutside [R.HRV_BURST, R.HRV_CNT, R.HRV_STAT] x (askBurst x)
        ∧ (askBurst x).get R.HRV_CNT_ADMIT = (x.get R.HRV_CNT_ADMIT + 1) % 256)
    ∧ (admitted x (firstCost (burstWork x)) = false →
      OnlyRegs [R.HRV_BURST, R.HRV_CNT] x (askBurst x) ∧ (askBurst x).get R.HRV_BURST_RESULT = 2
        ∧ (askBurst x).get R.HRV_CNT_DEFER = (x.get R.HRV_CNT_DEFER + 1) % 256))
  ∧ (∀ s : State, hrvOn s = true → s.hrv.burst ≠ 0 → domOn s 3 = true →
    let ended := fun (r : Nat) (t : State) => t.get R.HRV_BURST_RESULT = r ∧ t.get R.HRV_STAT_BSTATE = 0 ∧ t.hrv.burst = 0
      ∧ domOn t 3 = false
    (s.hrv.hand = true →
      ∃ u, exec .burstCheckpoint s = .next (afterWake u) ∧ RegsOutside [R.HRV_BURST, R.HRV_STAT, R.HRV_CNT] s u
        ∧ u.get R.HRV_BURST_RESULT = 4 ∧ u.hrv.burst = 0 ∧ u.get R.HRV_CNT_HAND = (s.get R.HRV_CNT_HAND + 1) % 256)
    ∧ (s.hrv.hand = false →
      (nextCost s = none → ∃ t, exec .burstCheckpoint s = .next t ∧ ended 1 t)
      ∧ (∀ c, nextCost s = some c → (s.hrv.red = true ∨ admitted s c = false) →
          ∃ t, exec .burstCheckpoint s = .next t ∧ ended 2 t)
      ∧ (∀ c, nextCost s = some c → s.hrv.red = false → admitted s c = true → exec .burstCheckpoint s = .next s))
    ∧ (∃ t, exec .burstStop s = .next t ∧ ended 3 t ∧ t.get R.HRV_CNT_STOP = (s.get R.HRV_CNT_STOP + 1) % 256)
    ∧ (∃ t, exec .burstTimeout s = .next t ∧ ended 5 t ∧ t.get R.HRV_CNT_STOP = (s.get R.HRV_CNT_STOP + 1) % 256))
  ∧ ∀ (k : Fin 9) (w : PortWrite) (s : State),
    let a := R.HRV_CFG + 4 * k
    Accepts s w.port a →
    (hrvAllowed a w.data = false →
      ∃ t, exec (.hrvWrite k w) s = .next t ∧ PortRegs w.port [R.HRV_STAT] s t ∧ t.on R.HRV_STAT_WERR = true)
    ∧ (hrvAllowed a w.data = true → k.val ≠ 0 →
      ∃ t, exec (.hrvWrite k w) s = .next t ∧ PortRegs w.port [a] s t ∧ t.word a = (plainWrite a w.data s).word a)
    ∧ (hrvAllowed a w.data = true → k.val = 0 →
      ∃ t, exec (.hrvWrite k w) s = .next t ∧ PortRegs w.port [R.HRV_CFG, R.HRV_STAT] s t
        ∧ t.word R.HRV_CFG = (plainWrite R.HRV_CFG w.data s).word R.HRV_CFG
        ∧ (t.on R.HRV_CFG_EN = false → t.on R.HRV_STAT_SAMPLING = false ∧ t.on R.HRV_STAT_CHG = false))

/-- A running controller that is not bus-off takes a frame with its error counter. One with an error, or an FD frame without FDEN, goes no further; a remote frame is counted as ignored; one for a hem stream is counted and given to it, else one for the service
is a request; else the mailboxes are tried: the first that matches, is not locked and not FULL stores it: identifier, length, data, time, FULL, RXDONE; with all of those FULL the last one is
overwritten, OVR; with all that match locked it is LOST, counted; with none matching nothing more. A request to the service is counted; while a response waits it is dropped; one that is not
answered OK has an 8-byte response with its STATUS and its own bytes 1 to 5. A 1 to FULL clears FULL and OVR, and the holder's ends the lock. A controller that was to leave its bus leaves behind
the frame. The model's choices here: FDEN 0 keeps FD frames out, remote frames are counted as ignored, leaving (log entry 30); a clear of FULL by another port keeps the lock (log entry 34); the
service's checks and the bytes of its response (log entry 35). -/
def Obligations.CanReception : Prop :=
  (∀ (b : Fin 2) (f : CanFrame) (s : State), canRuns s b = true → s.get (R.CAN_STAT_STATE b) ≠ 2 →
    let i := .canFrameRx b f
    let err := [R.CAN_STAT b, R.CAN_IRQ b]
    let cells := fun (m : Nat) => [R.MB_CTL b m, R.MB_ID b m, R.MB_STAT b m] ++ (List.range 16).map (R.MB_DATA b m)
    let bs := f.bytes.take (dlcBytes f.fdf f.dlc.toNat)
    let kept := fun (as : List Nat) (t : State) => RegsOutside as s t ∧ t = { s with regs := t.regs, can := t.can }
      ∧ canBus t b = { canBus s b with foreign := false } ∧ ∀ c, c ≠ b.val → canBus t c = canBus s c
    let after := fun (v : State) => if (canBus s b).job.isSome = true then v else canIdle b v
    let stored := fun (m : Nat) (t : State) => kept (err ++ cells m) t ∧ t.on (R.MB_STAT_FULL b m) = true
      ∧ t.get (R.MB_ID_ID b m) = f.id.toNat ∧ t.get (R.MB_CTL_DLC b m) = f.dlc.toNat
      ∧ t.get (R.MB_STAT_TS b m) = s.cyc / 400 % 2 ^ 16 ∧ t.on (R.CAN_IRQ_RXDONE b) = true
      ∧ ∀ k, k < 16 → 4 * k + 4 ≤ bs.length → t.word (R.MB_DATA b m k) = BitVec.ofNat 32 (leAt bs (4 * k))
    let hit := fun (m : Nat) => m < 32 ∧ mbMatches s b f m = true
    let free := fun (m : Nat) => hit m ∧ lockOf s b m = none
    let heard := (f.good && (!f.fdf || s.on (R.CAN_CFG_FDEN b))) = true
    (¬heard → ∃ t, exec i s = .next t ∧ kept err t ∧ t.get (R.CAN_STAT_REC b) = f.errs.toNat)
    ∧ (heard → f.remote = true → ∃ t, exec i s = .next t ∧ RegsOutside err s t ∧ t.get (R.CAN_STAT_REC b) = f.errs.toNat
        ∧ t = { s with
              regs := t.regs, can := t.can } ∧ canBus t b = { canBus s b with foreign := false, ignored := (canBus s
              b).ignored + 1 })
    ∧ (heard → f.remote = false → (domOn s 1 = false ∨ hemStream s f.xid f.id.toNat = none) → isService s b f = false →
      (∀ m, free m → s.on (R.MB_STAT_FULL b m) = false → (∀ k, k < m → free k → s.on (R.MB_STAT_FULL b k) = true) →
        ∃ t, exec i s = .next t ∧ stored m t ∧ t.on (R.MB_STAT_OVR b m) = s.on (R.MB_STAT_OVR b m))
      ∧ (∀ m, free m → (∀ k, free k → s.on (R.MB_STAT_FULL b k) = true ∧ k ≤ m) →
        ∃ t, exec i s = .next t ∧ stored m t ∧ t.on (R.MB_STAT_OVR b m) = true)
      ∧ ((∃ m, hit m) → (∀ m, ¬free m) →
        ∃ t, exec i s = .next t ∧ kept (R.CAN_CNT b :: err) t ∧ t.on (R.CAN_IRQ_LOST b) = true
          ∧ t.get (R.CAN_CNT_LOST b) = (s.get (R.CAN_CNT_LOST b) + 1) % 256)
      ∧ ((∀ m, ¬hit m) → ∃ t, exec i s = .next t ∧ kept err t ∧ t.get (R.CAN_STAT_REC b) = f.errs.toNat))
    ∧ (heard → f.remote = false → domOn s 1 = true → ∀ k, hemStream s f.xid f.id.toNat = some k →
        ∃ u, exec i s = .next (after (hemFrame k b bs u)) ∧ kept (R.CAN_CNT b :: err) u
          ∧ u.get (R.CAN_CNT_HEMRX b) = (s.get (R.CAN_CNT_HEMRX b) + 1) % 256)
    ∧ (heard → f.remote = false → (domOn s 1 = false ∨ hemStream s f.xid f.id.toNat = none) → isService s b f = true →
        ∃ u, exec i s = .next (after (svcRequest b f.fdf bs u)) ∧ kept err u))
  ∧ (∀ (b : Fin 2) (f : CanFrame) (s : State), (canBus s b).leaving = true → (canBus s b).rejoin = false →
      (canBus s b).job = none → s.get (R.CAN_STAT_STATE b) ≠ 2 → (f.good && (!f.fdf || s.on (R.CAN_CFG_FDEN b))) = false →
    ∃ t, exec (.canFrameRx b f) s = .next t ∧ t.on (R.CAN_STAT_RUN b) = false ∧ (canBus t b).leaving = false
      ∧ ∀ m, m < 32 → t.on (R.MB_STAT_TXPEND b m) = false)
  ∧ (∀ (b : Fin 2) (bytes : List Byte) (s : State), s.on (R.CAN_CFG_FDEN b) = false →
    exec (.canSvcRequest b true bytes) s = .next s)
  ∧ (∀ (b : Fin 2) (fdf : Bool) (bytes : List Byte) (s : State), canRuns s b = true → s.on (R.CAN_SVC_EN b) = true →
      (fdf = true → s.on (R.CAN_CFG_FDEN b) = true) →
    let req := bytes ++ List.replicate (8 - bytes.length) (0 : Byte)
    let st := svcStatus fdf bytes s
    let counted := fun (t : State) => t.get (R.CAN_CNT_SVC b) = (s.get (R.CAN_CNT_SVC b) + 1) % 256
    ((canBus s b).service.isSome = true →
      ∃ t, exec (.canSvcRequest b fdf bytes) s = .next t ∧ OnlyRegs [R.CAN_CNT b] s t ∧ counted t)
    ∧ ((canBus s b).service = none → st ≠ 0 →
      ∃ t, exec (.canSvcRequest b fdf bytes) s = .next t ∧ RegsOutside [R.CAN_CNT b] s t ∧ counted t
        ∧ t = { s with regs := t.regs, can := t.can }
        ∧ (canBus t b).service = some (leBytes 1 st ++ slice req 1 5 ++ [0, 0]) ∧ (canBus t b).job = (canBus s b).job)
    ∧ ((canBus s b).service = none → st = 0 →
      ∃ t bs, exec (.canSvcRequest b fdf bytes) s = .next t ∧ (canBus t b).service = some bs
        ∧ bs.take 8 = leBytes 1 0 ++ slice req 1 5 ++ [0, 0]))
  ∧ ∀ (b : Fin 2) (m : Fin 32) (w : PortWrite) (s : State), Accepts s w.port (R.MB_STAT b m) →
    (w.data.getLsbD 31 = false → exec (.mbFullClear b m w) s = .next (endRun w.port s))
    ∧ (w.data.getLsbD 31 = true →
      ∃ t, exec (.mbFullClear b m w) s = .next t ∧ RegsOutside [R.MB_STAT b m] s t ∧ t.on (R.MB_STAT_FULL b m) = false
        ∧ t.on (R.MB_STAT_OVR b m) = false ∧ t = { endRun w.port s with regs := t.regs, can := t.can }
        ∧ (lockOf s b m = some w.port → lockOf t b m = none ∧ t.on (R.MB_STAT_LOCK b m) = false)
        ∧ (lockOf s b m ≠ some w.port → t.can = s.can))

/-- TXREQ on an enabled TX mailbox that is not pending sets TXPEND; on a pending one the write is discarded. ABORT ends a pending mailbox with TXRES ABORT, or marks the one whose frame is on
the bus. At an arbitration the controller offers a hem frame, else the response of the service, both with FDEN only, else the pending mailbox with the lowest rank; with nothing to
offer the frame is another node's, and one that is to leave its bus leaves. A mailbox sent ends with DONE and its time, TXDONE;
one that failed stays pending; one to be aborted ends with ABORT. A hem frame sent is counted, a response sent is gone; a controller that is to leave its bus leaves at the end of its frame, its mailboxes ended with ABORT. Bus-off drops what was on the bus and keeps the mailboxes
pending, and recovers by itself where AUTOREC says so; RECOVER starts the recovery in bus-off only; it ends error-active with both counters 0.
The model's choices here: FDEN, and when a controller leaves (log entry 30); a frame sent though it was to be aborted ends with ABORT (log entry 56). -/
def Obligations.CanTransmission : Prop :=
  (∀ (b : Fin 2) (m : Fin 32) (w : PortWrite) (s : State), Accepts s w.port (R.MB_CTL b m) →
    (s.on (R.MB_STAT_TXPEND b m) = true → w.data.getLsbD 9 = false →
      ∃ t, exec (.mbTxreq b m w) s = .next t ∧ PortRegs w.port [R.HST_STAT, R.HST_ERRADDR] s t
        ∧ t.on R.HST_STAT_DISCARDED = true)
    ∧ (s.on (R.MB_STAT_TXPEND b m) = false → w.data.getLsbD 31 = true → w.data.getLsbD 30 = true →
      ∃ t, exec (.mbTxreq b m w) s = .next t ∧ PortRegs w.port [R.MB_CTL b m, R.MB_STAT b m] s t
        ∧ t.on (R.MB_STAT_TXPEND b m) = true ∧ t.get (R.MB_STAT_TXRES b m) = 0 ∧ t.on (R.MB_CTL_EN b m) = true)
    ∧ (s.on (R.MB_STAT_TXPEND b m) = true →
      ((canBus s b).job ≠ some (.mailbox m) →
        ∃ t, exec (.mbAbort b m w) s = .next t ∧ PortRegs w.port [R.MB_STAT b m] s t
          ∧ t.on (R.MB_STAT_TXPEND b m) = false ∧ t.get (R.MB_STAT_TXRES b m) = 2)
      ∧ ((canBus s b).job = some (.mailbox m) →
        ∃ t, exec (.mbAbort b m w) s = .next t ∧ t = { endRun w.port s with can := t.can }
          ∧ canBus t b = { canBus s b with abort := true })))
  ∧ (∀ (b : Fin 2) (s : State),
    let x := canBus s b
    let else_ := fun (t : State) => ∀ c, c ≠ b.val → canBus t c = canBus s c
    let fd := s.on (R.CAN_CFG_FDEN b)
    (canRuns s b = true → s.on (R.CAN_CFG_MODE b) = false → s.get (R.CAN_STAT_STATE b) ≠ 2 → x.job = none →
      ∃ t, exec (.canArbitration b) s = .next t ∧ t = { s with can := t.can } ∧ else_ t
        ∧ canBus t b = { x with
            job := (canBus t b).job, frame := (canBus t b).job.map (txFrame s b), abort := false
            foreign := (canBus t b).job.isNone }
        ∧ (∀ bs, fd = true → s.on R.SAF_HTXCFG_EN = true → hemWaits s b = some bs → (canBus t b).job = some (.hem bs))
        ∧ (fd = true → s.on R.SAF_HTXCFG_EN = false ∨ hemWaits s b = none → x.service.isSome = true →
            (canBus t b).job = some .service)
        ∧ (fd = false ∨ ((s.on R.SAF_HTXCFG_EN = false ∨ hemWaits s b = none) ∧ x.service = none) →
          ((∀ m, m < 32 → s.on (R.MB_STAT_TXPEND b m) = false) → (canBus t b).job = none)
          ∧ (∀ m, m < 32 → s.on (R.MB_STAT_TXPEND b m) = true →
              (∀ k, k < 32 → k ≠ m → s.on (R.MB_STAT_TXPEND b k) = true → mbRank s b m < mbRank s b k) →
              (canBus t b).job = some (.mailbox m))))
    ∧ (canRuns s b = true → s.on (R.CAN_CFG_MODE b) = true → s.get (R.CAN_STAT_STATE b) ≠ 2 → x.job = none →
      ∃ t, exec (.canArbitration b) s = .next t ∧ t = { s with can := t.can } ∧ else_ t
        ∧ canBus t b = { x with frame := none, abort := false, foreign := true })
    ∧ (x.job = none → x.leaving = true → x.rejoin = false →
      ∃ t, exec (.canArbitration b) s = .next t ∧ t.on (R.CAN_STAT_RUN b) = false ∧ else_ t ∧ (canBus t b).leaving = false
        ∧ ∀ m, m < 32 → t.on (R.MB_STAT_TXPEND b m) = false)
    ∧ (x.job.isSome = true → exec (.canArbitration b) s = .next s)
    ∧ (∀ (ok : Bool) (tec : BitVec 8),
      (x.job = none → exec (.canTxDone b ok tec) s = .next s)
      ∧ (∀ m, m < 32 → x.job = some (.mailbox m) → x.leaving = false →
        ∃ t, exec (.canTxDone b ok tec) s = .next t ∧ RegsOutside [R.CAN_STAT b, R.CAN_IRQ b, R.MB_STAT b m] s t
          ∧ t = { s with
                regs := t.regs, can := t.can } ∧ canBus t b = { x with job := none, frame := none, abort := false } ∧
                else_ t
          ∧ t.get (R.CAN_STAT_TEC b) = tec.toNat ∧ (ok = true → t.on (R.CAN_IRQ_TXDONE b) = true)
          ∧ (x.abort = true → t.on (R.MB_STAT_TXPEND b m) = false ∧ t.get (R.MB_STAT_TXRES b m) = 2)
          ∧ (x.abort = false → ok = true → t.on (R.MB_STAT_TXPEND b m) = false ∧ t.get (R.MB_STAT_TXRES b m) = 1
              ∧ t.get (R.MB_STAT_TS b m) = s.cyc / 400 % 2 ^ 16)
          ∧ (x.abort = false → ok = false → t.word (R.MB_STAT b m) = s.word (R.MB_STAT b m)))
      ∧ (x.job.isSome = true → x.leaving = true → x.rejoin = false →
        ∃ t, exec (.canTxDone b ok tec) s = .next t ∧ t.on (R.CAN_STAT_RUN b) = false ∧ else_ t
          ∧ (∀ m, m < 32 → t.on (R.MB_STAT_TXPEND b m) = false)
          ∧ canBus t b = { x with
              job := none, frame := none, abort := false, leaving := false, service := none, recover := false,
              foreign := false })
      ∧ (∀ bs, x.job = some (.hem bs) → x.leaving = false → ok = true →
        ∃ t, exec (.canTxDone b ok tec) s = .next t ∧ RegsOutside [R.CAN_STAT b, R.CAN_IRQ b, R.CAN_CNT b] s t
          ∧ t.get (R.CAN_CNT_HEMTX b) = (s.get (R.CAN_CNT_HEMTX b) + 1) % 256
          ∧ (hemWaits s b = some bs → hemWaits t b = none) ∧ (hemWaits s b ≠ some bs → t.saf = s.saf))
      ∧ (x.job = some .service → x.leaving = false →
        ∃ t, exec (.canTxDone b ok tec) s = .next t ∧ RegsOutside [R.CAN_STAT b, R.CAN_IRQ b] s t
          ∧ (canBus t b).job = none ∧ (canBus t b).service = (if ok = true then none else x.service)))
    ∧ (canRuns s b = true → s.get (R.CAN_STAT_STATE b) ≠ 2 → x.abort = false →
      ∃ t, exec (.canBusOff b) s = .next t ∧ RegsOutside [R.CAN_STAT b, R.CAN_IRQ b] s t
        ∧ t = { s with
              regs := t.regs, can := t.can } ∧ t.get (R.CAN_STAT_STATE b) = 2 ∧ t.on (R.CAN_IRQ_BUSOFF b) = true
        ∧ canBus t b = { x with
            job := none, frame := none, abort := false, recover := s.on (R.CAN_CFG_AUTOREC b) } ∧ else_ t)
    ∧ (∀ p, Accepts s p (R.CAN_CTL b) →
      (s.get (R.CAN_STAT_STATE b) = 2 →
        ∃ t, exec (.canRecover b p) s = .next t ∧ t = { endRun p s with can := t.can }
          ∧ canBus t b = { x with recover := true } ∧ else_ t)
      ∧ (s.get (R.CAN_STAT_STATE b) ≠ 2 → exec (.canRecover b p) s = .next (endRun p s)))
    ∧ (x.recover = false → exec (.canRecoveryDone b) s = .next s)
    ∧ (canRuns s b = true → s.get (R.CAN_STAT_STATE b) = 2 → x.recover = true →
      ∃ t, exec (.canRecoveryDone b) s = .next t ∧ RegsOutside [R.CAN_STAT b] s t ∧ t = { s with
            regs := t.regs, can := t.can }
        ∧ t.get (R.CAN_STAT_STATE b) = 0 ∧ t.get (R.CAN_STAT_TEC b) = 0 ∧ t.get (R.CAN_STAT_REC b) = 0
        ∧ canBus t b = { x with recover := false } ∧ else_ t))

/-- A port that may run and is DOWN trains; aligned, it is in HELLO with AERR 0 and a nonce of its own (free: the random bit generator), and the first frames of its hello set are its fingerprint
and its digest. A port in HELLO that times out is FAILED with TIMEOUT, its queued frames counted in DROP; FAB-LINK is raised unless its episode is running; a port that loses symbols in UP is DOWN and raises it too,
behind the CLK of a source of fabric time that is lost with it, and the routes are judged again. FAILED ends DOWN. An ACK acknowledges the frame with its LSEQ, and those from the oldest on that are acknowledged are no more; without it they are
resent and counted, and one resent four times takes the port DOWN. A frame with a bad CRC or length is counted and is no more. In any other state each leaves the machine as it is.
The model's choices here: PEER and PEPOCH 0 in DOWN, DROP with the frames held back, AERR 0 at HELLO (log entry 58); which frames an ACK covers (log entry 58). -/
def Obligations.FabricPorts : Prop :=
  (∀ (p : Fin 4) (s : State),
    (portRuns s p = false ∨ portState s p ≠ pDOWN → exec (.fabTrainStart p) s = .next s)
    ∧ (portRuns s p = true → portState s p = pDOWN →
      ∃ t, exec (.fabTrainStart p) s = .next t ∧ OnlyRegs [R.FAB_PSTAT p] s t ∧ portState t p = pTRAIN)
    ∧ (portRuns s p = false ∨ portState s p ≠ pTRAIN → exec (.fabAligned p) s = .next s)
    ∧ (portRuns s p = true → portState s p = pTRAIN →
      ∃ t, exec (.fabAligned p) s = .next t ∧ RegsOutside [R.FAB_PSTAT p] s t ∧ portState t p = pHELLO
        ∧ t.get (R.FAB_PSTAT_AERR p) = 0 ∧ t = { s with regs := t.regs, fab := t.fab, freeCtr := s.freeCtr + 1 }
        ∧ (fabPort t p).nonce = beBytes 32 (freeNow s).toNat
        ∧ ((fabPort s p).out = [] → (fabPort s p).queue = [] → (fabPort s p).wait = [] →
          ((fabPort t p).out.take 2).map (fun m => (m.ty, m.f.dst, m.f.lseq, m.f.payload)) =
            [(0x01, 0, (fabPort s p).txNext, padPayload ownFpr),
             (0x02, 0, ((fabPort s p).txNext + 1) % 256, padPayload (patDigest s))]))
    ∧ (domOn s 2 = false ∨ portState s p ≠ pFAILED → exec (.fabFailedEnd p) s = .next s)
    ∧ (domOn s 2 = true → portState s p = pFAILED →
      ∃ t, exec (.fabFailedEnd p) s = .next t ∧ OnlyRegs [R.FAB_PSTAT p] s t ∧ portState t p = pDOWN))
  ∧ (∀ (p : Fin 4) (s : State),
    let falls (st : Nat) (u : State) : Prop :=
      RegsOutside [R.FAB_PSTAT p, R.FAB_PCNT p, R.FAB_IRQ] s u ∧ u = { s with regs := u.regs, fab := u.fab }
        ∧ portState u p = st ∧ u.get (R.FAB_PSTAT_PEER p) = 0 ∧ u.get (R.FAB_PSTAT_PEPOCH p) = 0
        ∧ u.get (R.FAB_PCNT_DROP p) = (s.get (R.FAB_PCNT_DROP p) + ((fabPort s p).queue.length + (fabPort s p).wait.length))
            % 2 ^ (R.FAB_PCNT_DROP p).wd
        ∧ u.on R.FAB_IRQ_PORT = true ∧ fabPort u p = { PortSt.zero with ep := true }
    (domOn s 2 = false ∨ portState s p ≠ pHELLO → exec (.fabHelloTimeout p) s = .next s)
    ∧ (domOn s 2 = true → portState s p = pHELLO →
      ∃ u, falls pFAILED u ∧ u.get (R.FAB_PSTAT_AERR p) = 7
        ∧ exec (.fabHelloTimeout p) s = .next (if (fabPort s p).ep = true then u else occur kFLINK (0xE000 + p) 0 u))
    ∧ (portUp s p = false → exec (.fabSymbolLoss p) s = .next s)
    ∧ (portTalks s p = false ∨ (fabPort s p).out = [] → exec (.fabResendTimeout p) s = .next s)
    ∧ (portTalks s p = true → (fabPort s p).out ≠ [] → (∀ m ∈ (fabPort s p).out, m.acked = true ∨ m.tries < 4) →
      ∃ t, exec (.fabResendTimeout p) s = .next t ∧ RegsOutside [R.FAB_PCNT p] s t
        ∧ t = { s with regs := t.regs, fab := { s.fab with ports := t.fab.ports } }
        ∧ t.get (R.FAB_PCNT_RESEND p)
          = (s.get (R.FAB_PCNT_RESEND p) + (fabPort s p).out.length) % 2 ^ (R.FAB_PCNT_RESEND p).wd
        ∧ fabPort t p = { fabPort s p with
            out := (fabPort s p).out.map (fun m => { m with tries := m.tries + 1, acked := false }) })
    ∧ (let loses := fun (i : Instr) => exec i s = .next (drainAll (claimRole (routesAfter (portsGoDown raiseNow [p.val]) s)))
        ∧ ((∀ q ∈ fabPorts s, (fabPort s q).inbox = []) →
          domOn s 1 = false ∨ (s.on R.FAB_TSTAT_TVALID = false ∧ (portState s p ≠ pUP ∨ (fabPort s p).ep = true)) →
          ∃ t, exec i s = .next t ∧ portState t p = pDOWN ∧ t.get (R.FAB_PSTAT_PEER p) = 0 ∧ t.get (R.FAB_PSTAT_PEPOCH p) = 0
            ∧ t.get (R.FAB_PCNT_DROP p) = (s.get (R.FAB_PCNT_DROP p) + ((fabPort s p).queue.length + (fabPort s p).wait.length))
                % 2 ^ (R.FAB_PCNT_DROP p).wd
            ∧ p.val ∉ t.fab.ups ∧ ∀ r, metricVia t r p = 255)
      (portUp s p = true → loses (.fabSymbolLoss p))
      ∧ (portTalks s p = true → (∃ m ∈ (fabPort s p).out, m.acked = false ∧ 4 ≤ m.tries) → loses (.fabResendTimeout p))))
  ∧ (∀ (raise : Raise) (p : Fin 4) (s : State), domOn s 2 = true → portState s p = pUP →
    ∃ v, portsGoDown raise [p.val] s = (if (fabPort v p).ep = true then v.flag R.FAB_IRQ_PORT true
        else raise kFLINK (0xE000 + p) (setFabPort (v.flag R.FAB_IRQ_PORT true) p { fabPort v p with ep := true }))
      ∧ ∃ u, v = judgeFabric raise u ∧ RegsOutside [R.FAB_PSTAT p, R.FAB_PCNT p] s u ∧ u = { s with
            regs := u.regs, fab := u.fab }
        ∧ portState u p = pDOWN ∧ fabPort u p = { PortSt.zero with ep := (fabPort s p).ep } ∧ p.val ∉ u.fab.ups
        ∧ ∀ r, u.fab.claim ≠ some (p.val, r))
  ∧ (∀ (p : Fin 4) (lseq : BitVec 8) (s : State),
    let out := ((fabPort s p).out.map (fun m => if m.f.lseq = lseq.toNat then { m with
          acked := true } else m)).dropWhile
      (·.acked)
    (portTalks s p = false → exec (.fabAck p lseq) s = .next s)
    ∧ (portTalks s p = true → (∀ q ∈ fabPorts s, (fabPort s q).inbox = []) →
      ∃ t, exec (.fabAck p lseq) s = .next t ∧ t = { s with fab := { s.fab with ports := t.fab.ports } }
        ∧ out <+: (fabPort t p).out
        ∧ (∀ m rest, (fabPort s p).out = m :: rest → m.acked = false → m.f.lseq ≠ lseq.toNat →
          out.length = (fabPort s p).out.length)
        ∧ ((fabPort s p).queue = [] → (fabPort s p).wait = [] → fabPort t p = { fabPort s p with out := out })
        ∧ ∀ q, q ≠ p.val → fabPort t q = fabPort s q))
  ∧ ∀ (p : Fin 4) (bs : List Byte) (s : State),
    (bs.length ≠ 48 ∨ (fabricUnit s).check (bs.take 44) ≠ leNat (slice bs 44 4)) →
    (portTalks s p = false → exec (.fabOtherType p bs) s = .next s)
    ∧ (portTalks s p = true →
      ∃ t, exec (.fabOtherType p bs) s = .next t ∧ OnlyRegs [R.FAB_PCNT p] s t
        ∧ t.get (R.FAB_PCNT_CRCERR p) = (s.get (R.FAB_PCNT_CRCERR p) + 1) % 2 ^ (R.FAB_PCNT_CRCERR p).wd)

/-- A frame on a port that carries none leaves the machine as it is; each other one, with its CRC good, is acknowledged. One whose LSEQ is not the next one is no more; one in order is counted and taken, or waits at its input while a full queue holds the input back. A link-local
frame shows the neighbour's role and epoch. In HELLO the hello set and the report are kept until they are checked: the fingerprint, then the chain, then signature, nonce, serial and digest of the report, and the first
failure puts its code into AERR; with everything good and the own report sent the port is UP, counts it, ends its FAB-LINK episode, and the module claims the role its table gives at the first UP port, as soon as it gives one there. BIND is
accepted where the table gives the same role and none reachable holds it, with the next epoch, or refused; BACK binds the module with its role and epoch, or sets AERR ROLE; ROUTE is kept with its time.
The model's choices here: UP needs the own REPORT sent, and which port claims (log entry 58); the order of the frames on a lane (log entry 57). -/
def Obligations.FabricJoining : Prop :=
  (let lane : List ((Fin 4 → FabFrame → Instr) × Nat) :=
      [(.hello, 0x01), (.hdig, 0x02), (.cert, 0x03), (.chal, 0x04), (.report, 0x05), (.bind, 0x06), (.back, 0x07),
       (.route, 0x08), (.digest, 0x10), (.linkst, 0x12), (.rreq, 0x13), (.rrsp, 0x14), (.attreq, 0x15),
       (.attrsp, 0x16), (.nack, 0x1F)]
    let taken := fun (i : Instr) (m : FabMsg) (p : Fin 4) (s : State) =>
      let only := fun (t : State) => t = { s with fab := { s.fab with ports := t.fab.ports } }
        ∧ ∀ q, q ≠ p.val → fabPort t q = fabPort s q
      let x := { fabPort s p with ack := some (m.f.lseq % 256) }
      (portTalks s p = false → exec i s = .next s)
      ∧ (portTalks s p = true → m.f.lseq % 256 ≠ (fabPort s p).rxNext →
        ∃ t, exec i s = .next t ∧ only t ∧ fabPort t p = x)
      ∧ (portTalks s p = true → m.f.lseq % 256 = (fabPort s p).rxNext → inputHeld s p = true →
        ∃ t, exec i s = .next t ∧ only t
          ∧ fabPort t p = { x with rxNext := ((fabPort s p).rxNext + 1) % 256, inbox := x.inbox ++ [m] })
      ∧ (portTalks s p = true → m.f.lseq % 256 = (fabPort s p).rxNext → inputHeld s p = false →
        (fabPort s p).inbox = [] →
        ∃ u, exec i s = .next (takeFrame p m u) ∧ only u
          ∧ fabPort u p = { x with rxNext := ((fabPort s p).rxNext + 1) % 256 })
    (∀ k ∈ lane, ∀ (p : Fin 4) (f : FabFrame) (s : State), taken (k.1 p f) (message k.2 f) p s)
    ∧ (∀ (p : Fin 4) (f : Linkref) (s : State), taken (.linkref p f) { message 0x11 f.frame with sent := f.sent } p s)
    ∧ ∀ (p : Fin 4) (bs : List Byte) (s : State), bs.length = 48 →
        (fabricUnit s).check (bs.take 44) = leNat (slice bs 44 4) →
        taken (.fabOtherType p bs) (message (leNat (slice bs 0 1)) (frameOf bs).f) p s)
  ∧ (∀ (p : Fin 4) (m : FabMsg) (s : State),
    let notes (u : State) : Prop :=
      u.get (R.FAB_PSTAT_PEER p) = m.f.src % 2 ^ 6 ∧ u.get (R.FAB_PSTAT_PEPOCH p) = m.f.sepoch % 2 ^ 16
    (1 ≤ m.ty → m.ty ≤ 5 → portState s p ≠ pHELLO →
      ∃ t, takeFrame p m s = t ∧ OnlyRegs [R.FAB_PSTAT p] s t ∧ notes t)
    ∧ (1 ≤ m.ty → m.ty ≤ 5 → portState s p = pHELLO →
      ∃ u, takeFrame p m s = joinStep p u ∧ RegsOutside [R.FAB_PSTAT p] s u ∧ notes u
        ∧ u = { s with regs := u.regs, fab := { s.fab with ports := u.fab.ports } }
        ∧ (m.ty = 1 → fabPort u p = { fabPort s p with fpr := some (padPayload m.f.payload) })
        ∧ (m.ty = 2 → fabPort u p = { fabPort s p with dig := some (padPayload m.f.payload) })
        ∧ (m.ty = 3 → (fabPort s p).certOk = false →
          fabPort u p = { fabPort s p with cert := (fabPort s p).cert ++ padPayload m.f.payload })
        ∧ (m.ty = 4 → fabPort u p = { fabPort s p with far := some (padPayload m.f.payload) })
        ∧ (m.ty = 5 → (fabPort s p).repOk = false →
          fabPort u p = { fabPort s p with report := (fabPort s p).report ++ padPayload m.f.payload }))
    ∧ (6 ≤ m.ty → m.ty ≤ 8 → portUp s p = false →
      ∃ t, takeFrame p m s = t ∧ OnlyRegs [R.FAB_PSTAT p] s t ∧ notes t)
    ∧ (m.ty = 6 → portUp s p = true →
      let r := m.num 0 1
      let e := if knownEpoch s r = 65535 then 1 else knownEpoch s r + 1
      (r ≠ 0 ∧ givenRole s p = r ∧ r ≠ ownRole s ∧ metricTo s r = 0xFF →
        ∃ u, takeFrame p m s = claimRole (sendLocal p 0x07 0 ([1, 0] ++ leBytes 2 e) u) ∧ OnlyRegs [R.FAB_PSTAT p, R.FAB_PEER r] s u
          ∧ u.get (R.FAB_PSTAT_PEER p) = r ∧ u.get (R.FAB_PSTAT_PEPOCH p) = e ∧ knownEpoch u r = e)
      ∧ (¬(r ≠ 0 ∧ givenRole s p = r ∧ r ≠ ownRole s ∧ metricTo s r = 0xFF) →
        ∃ u, takeFrame p m s = claimRole (sendLocal p 0x07 0 [0, 0, 0, 0] u) ∧ OnlyRegs [R.FAB_PSTAT p] s u ∧ notes u))
    ∧ (∀ r, m.ty = 7 → portUp s p = true → s.fab.claim = some (p.val, r) → 1 ≤ r → r ≤ 32 →
      (m.num 0 1 = 1 →
        ∃ u, takeFrame p m s = claimRole (sendRoutes (syncRoutes u)) ∧ RegsOutside [R.FAB_PSTAT p, R.FAB_STAT, R.FAB_PEER r] s u
          ∧ u = { s with regs := u.regs, fab := { s.fab with claim := none } } ∧ u.on R.FAB_STAT_BOUND = true
          ∧ u.get R.FAB_STAT_ROLE = r ∧ u.get R.FAB_STAT_EPOCH = m.num 2 2 ∧ knownEpoch u r = m.num 2 2)
      ∧ (m.num 0 1 ≠ 1 →
        ∃ u, takeFrame p m s = claimRole u ∧ RegsOutside [R.FAB_PSTAT p] s u ∧ u.get (R.FAB_PSTAT_AERR p) = 8
          ∧ u = { s with regs := u.regs, fab := { s.fab with claim := none } }
          ∧ (s.fab.ups.head? = some p.val → claimRole u = u)))
    ∧ (m.ty = 8 → portUp s p = true →
      ∃ u, takeFrame p m s = claimRole (syncRoutes u) ∧ RegsOutside [R.FAB_PSTAT p] s u ∧ notes u
        ∧ fabPort u p = { fabPort s p with route := some (s.cyc, m.f.payload.map (·.toNat)) }))
  ∧ ∀ (p : Fin 4) (s : State),
    let x := fabPort s p
    let der := x.cert.take (derLen x.cert)
    let key := certKey x.cert
    let body := x.report.take 128
    (x.certOk = true → checkCert p s = s)
    ∧ (∀ h, x.certOk = false → x.fpr = some h → 4 ≤ x.cert.length → derLen x.cert ≤ x.cert.length →
      (beBytes 32 (sha256 der) ≠ h → checkCert p s = failPort p 1 s)
      ∧ (beBytes 32 (sha256 der) = h → certChain der caCert = false → checkCert p s = failPort p 2 s)
      ∧ (beBytes 32 (sha256 der) = h → certChain der caCert = true →
        ∃ t, checkCert p s = t ∧ t = { s with fab := { s.fab with ports := t.fab.ports } }
          ∧ fabPort t p = { x with certOk := true, cert := der }))
    ∧ (x.certOk = true → x.repOk = false → x.dig.isSome = true → 192 ≤ x.report.length →
      let good := ecdsaVerify key.1 key.2 (sha256 body) (beNat (slice x.report 128 32)) (beNat (slice x.report 160 32))
      let serial := leNat (slice body 8 4) + leNat (slice body 0xC 4) * 2 ^ 32
      (good = false → checkReport p s = failPort p 3 s)
      ∧ (good = true → slice body 0x10 32 ≠ x.nonce → checkReport p s = failPort p 4 s)
      ∧ (good = true → slice body 0x10 32 = x.nonce → serial ≠ certSerial x.cert → checkReport p s = failPort p 5 s)
      ∧ (good = true → slice body 0x10 32 = x.nonce → serial = certSerial x.cert →
        (some (slice body 0x30 32) ≠ x.dig → checkReport p s = failPort p 6 s)
        ∧ (some (slice body 0x30 32) = x.dig → checkReport p s = setFabPort s p { x with repOk := true })))
    ∧ (portState s p = pHELLO → x.certOk = true → x.repOk = true → x.asked = true → x.reported = true →
      ∃ u, joinStep p s = sendRoutes (syncRoutes (claimRole u)) ∧ RegsOutside [R.FAB_PSTAT p, R.FAB_PCNT p, R.FAB_IRQ] s u
        ∧ u = { s with regs := u.regs, fab := u.fab } ∧ portState u p = pUP ∧ u.on R.FAB_IRQ_PORT = true
        ∧ u.get (R.FAB_PCNT_UPCNT p) = (s.get (R.FAB_PCNT_UPCNT p) + 1) % 2 ^ (R.FAB_PCNT_UPCNT p).wd
        ∧ (fabPort u p).ep = false ∧ u.fab.ups = s.fab.ups.filter (· != p.val) ++ [p.val] ∧ u.fab.claim = s.fab.claim
        ∧ claimAt u p = claimAt s p)
    ∧ ((∀ q, s.fab.ups.head? = some q → s.on R.FAB_STAT_BOUND = true ∨ s.fab.claim.isSome = true
        ∨ s.get (R.FAB_PSTAT_AERR q) = 8 ∨ claimAt s q = 0) → claimRole s = s)
    ∧ (∀ q, s.fab.ups.head? = some q → s.on R.FAB_STAT_BOUND = false → s.fab.claim = none →
      s.get (R.FAB_PSTAT_AERR q) ≠ 8 → claimAt s q ≠ 0 →
      claimRole s = sendLocal q 0x06 0 (leBytes 1 (claimAt s q))
        { s with fab := { s.fab with claim := some (q, claimAt s q) } })

/-- A frame that is sent carries its LSEQ and the CRC over its bytes. A frame for another role goes to the port of its route with one hop less to live, ends in DROP, or is answered NOROUTE. At the holder of DST a frame written for another epoch is counted in STALECNT and answered STALE_ROLE; one of
an older sender epoch is discarded; one not newer is counted in LATEDROP; the rest are delivered, with their numbers kept, and a gap counted. A DIGEST gives the sender's epoch and digest. A LINKREF that names no REMOTE root in use is answered NOSEAM, one of a second
sender DENIED; one that comes after its update instant is discarded, one of another period misses its exchange, and one that fits waits for the update instant. A LINKST gives a LINK its capacity and the state it reports, and ends its episode. An RREQ that is
ill-formed or lacks its right is answered BADREQ or DENIED, a read answers its words, and a write queues them as port 2. An RRSP and the last
ATTRSP chunk end the pending request; an ATTREQ asks the signing engine; a NACK STALE_ROLE marks the peer and ends the request it refuses.
The model's choices here: a first frame other than 1 counts a gap (log entry 39); the LINKST fields taken and an exchange of another period (log entry 36); BADREQ before DENIED (log entry 35); a
DIGEST makes an epoch known (log entry 51). -/
def Obligations.FabricFrames : Prop :=
  (∀ (p inp : Nat) (m : FabMsg) (s : State), portTalks s p = true → (fabPort s p).wait = [] → (fabPort s p).queue = [] →
    (fabPort s p).out.length < 8 →
    ∃ t, enqueue p inp m s = t ∧ t = { s with fab := { s.fab with ports := t.fab.ports } }
      ∧ fabPort t p = { fabPort s p with
          out := (fabPort s p).out ++ [{ m with
            f := { m.f with lseq := (fabPort s p).txNext }
            crc := (fabricUnit s).check { m with f := { m.f with lseq := (fabPort s p).txNext } }.bytes }],
          txNext := ((fabPort s p).txNext + 1) % 256, last := inp }
      ∧ ∀ q, q ≠ p → fabPort t q = fabPort s q)
  ∧ (∀ (ty r e chunk : Nat) (bs : List Byte) (s : State),
    (reachable s r = false →
      ∃ t, sendRouted ty r e chunk bs s = t ∧ OnlyRegs [R.FAB_CNT] s t
        ∧ t.get R.FAB_CNT_NOROUTE = (s.get R.FAB_CNT_NOROUTE + 1) % 2 ^ R.FAB_CNT_NOROUTE.wd)
    ∧ (reachable s r = true →
      ∃ u, u = { s with fab := { s.fab with sent := u.fab.sent } }
        ∧ sendRouted ty r e chunk bs s = enqueue (s.get (R.FAB_PEER_PORT r)) 4
          (message ty ⟨ownRole s, r, 0, 31, chunk, s.get R.FAB_STAT_EPOCH, e, nextSeq s r e, padPayload bs⟩) u
        ∧ nextSeq u r e = (nextSeq s r e + 1) % 65536))
  ∧ (∀ (p : Fin 4) (m : FabMsg) (s : State), listedType m.ty = true → 0x10 ≤ m.ty →
    (portUp s p = false → takeFrame p m s = s)
    ∧ (portUp s p = true → m.f.dst = 0 ∨ m.f.dst ≠ ownRole s →
      (m.f.ttl ≤ 1 →
        ∃ t, takeFrame p m s = t ∧ OnlyRegs [R.FAB_PCNT p] s t
          ∧ t.get (R.FAB_PCNT_DROP p) = (s.get (R.FAB_PCNT_DROP p) + 1) % 2 ^ (R.FAB_PCNT_DROP p).wd)
      ∧ (1 < m.f.ttl → reachable s m.f.dst = true →
        takeFrame p m s
          = enqueue (s.get (R.FAB_PEER_PORT m.f.dst)) p { m with f := { m.f with ttl := m.f.ttl - 1 } } s)
      ∧ (1 < m.f.ttl → reachable s m.f.dst = false →
        (m.f.src = 0 → takeFrame p m s = s)
        ∧ (m.f.src ≠ 0 →
          takeFrame p m s = sendRouted 0x1F m.f.src m.f.sepoch 0
            (leBytes 1 2 ++ leBytes 1 m.ty ++ leBytes 2 m.f.seq ++ leBytes 2 (s.get R.FAB_STAT_EPOCH)) s)))
    ∧ (portUp s p = true → m.f.dst ≠ 0 → m.f.dst = ownRole s → m.f.depoch ≠ s.get R.FAB_STAT_EPOCH →
      ∃ u, takeFrame p m s = sendNack 1 m u ∧ RegsOutside [R.FAB_CNT, R.FAB_PEER m.f.src] s u ∧ u = { s with
            regs := u.regs }
        ∧ u.get R.FAB_CNT_STALECNT = (s.get R.FAB_CNT_STALECNT + 1) % 2 ^ R.FAB_CNT_STALECNT.wd)
    ∧ (portUp s p = true → m.f.dst ≠ 0 → m.f.dst = ownRole s → m.f.depoch = s.get R.FAB_STAT_EPOCH →
      let delivered (gap : Nat) : Prop :=
        ∃ u, takeFrame p m s = deliver m u ∧ RegsOutside [R.FAB_CNT, R.FAB_PEER m.f.src] s u
          ∧ u = { s with regs := u.regs, fab := { s.fab with got := u.fab.got } }
          ∧ u.fab.got.find? (fun e => e.1 == m.f.src) = some (m.f.src, m.f.sepoch, m.f.seq)
          ∧ u.get R.FAB_CNT_GAPCNT = (s.get R.FAB_CNT_GAPCNT + gap) % 2 ^ R.FAB_CNT_GAPCNT.wd
          ∧ u.get R.FAB_CNT_LATEDROP = s.get R.FAB_CNT_LATEDROP
          ∧ (m.ty = 0x10 → 1 ≤ m.f.src → m.f.src ≤ 32 → knownEpoch u m.f.src = m.f.sepoch % 2 ^ 16)
      (s.fab.got.find? (fun e => e.1 == m.f.src) = none → delivered (if m.f.seq = 1 then 0 else 1))
      ∧ ∀ ep n : Nat, ep < 65536 → n < 65536 →
        s.fab.got.find? (fun e => e.1 == m.f.src) = some (m.f.src, ep, n) →
        ∀ k, k < 65536 → (m.f.seq = (n + k) % 65536 →
          (∀ d, d < 65536 → m.f.sepoch = (ep + d) % 65536 →
            (32768 ≤ d → ∃ t, takeFrame p m s = t ∧ OnlyRegs [R.FAB_PEER m.f.src] s t)
            ∧ (0 < d → d < 32768 → delivered (if m.f.seq = 1 then 0 else 1))
            ∧ (d = 0 → k = 0 ∨ 32768 ≤ k →
              ∃ t, takeFrame p m s = t ∧ OnlyRegs [R.FAB_CNT, R.FAB_PEER m.f.src] s t
                ∧ t.get R.FAB_CNT_LATEDROP = (s.get R.FAB_CNT_LATEDROP + 1) % 2 ^ R.FAB_CNT_LATEDROP.wd
                ∧ t.get R.FAB_CNT_GAPCNT = s.get R.FAB_CNT_GAPCNT)
            ∧ (d = 0 → 0 < k → k < 32768 → delivered (if k = 1 then 0 else 1))))))
  ∧ (∀ (m : FabMsg) (s : State),
    (m.ty = 0x10 →
      ∃ u, deliver m s = syncAgree u ∧ u = { s with fab := { s.fab with digests := u.fab.digests } }
        ∧ tget (fun _ => none) u.fab.digests m.f.src = some (padPayload m.f.payload))
    ∧ (m.ty = 0x11 →
      let n := m.num 0 1
      let who := (m.f.src, m.num 1 1)
      (n = 0 ∨ 64 ≤ n ∨ seamUsed s n = false ∨ s.on (R.SEAM_DESC_REMOTE n) = false → deliver m s = sendNack 4 m s)
      ∧ (1 ≤ n → n < 64 → seamUsed s n = true → s.on (R.SEAM_DESC_REMOTE n) = true →
        (effEnabled s n = false → deliver m s = s)
        ∧ (∀ o, effEnabled s n = true → (remoteX s n).owner = some o → o ≠ who → deliver m s = sendNack 5 m s)
        ∧ (effEnabled s n = true → (remoteX s n).owner = none ∨ (remoteX s n).owner = some who →
          let late := ∃ v, (remoteX s n).last = some v ∧ m.sent + 64000 ≤ v
          (late → ∃ t, deliver m s = t ∧ t = { s with fab := { s.fab with remotes := t.fab.remotes } }
              ∧ remoteX t n = { remoteX s n with owner := some who })
          ∧ (¬late → m.num 4 4 = s.get (R.MOD_CAR_PER n) →
            ∃ t, deliver m s = t ∧ t = { s with fab := { s.fab with remotes := t.fab.remotes } }
              ∧ remoteX t n = { remoteX s n with
                  owner := some who, wait := (remoteX s n).wait ++ [⟨m.num 2 2, m.num 16 2, m.sent + 64000⟩]
                  start := some (m.num 8 8) })
          ∧ (¬late → m.num 4 4 ≠ s.get (R.MOD_CAR_PER n) →
            ∃ u, deliver m s = (if (remoteX s n).ep = true then u else occur kFLINK (seamScope n) 0 u)
              ∧ RegsOutside [R.SEAM_STATE n] s u ∧ u.on (R.SEAM_STATE_LINKSTALE n) = true
              ∧ u = { s with regs := u.regs, fab := { s.fab with remotes := u.fab.remotes } }
              ∧ remoteX u n = { remoteX s n with owner := some who, ep := true }))))
    ∧ (m.ty = 0x12 →
      let n := m.num 1 1
      let cp : Word := BitVec.ofNat 32 (m.num 8 4)
      let st : Word := BitVec.ofNat 32 (m.num 4 4)
      let fits := 1 ≤ n ∧ n < 64 ∧ seamType s n = tLINK ∧ s.get (R.SEAM_LINK_ROLE n) = m.f.src
        ∧ s.get (R.SEAM_LINK_RSEAM n) = m.num 0 1
      (¬fits → deliver m s = s)
      ∧ (fits →
        ∃ t, deliver m s = t ∧ t = { s with
              regs := t.regs, linkCaps := t.linkCaps, fab := { s.fab with links := t.fab.links } }
          ∧ tget (fun _ => (0 : Word)) t.linkCaps n = cp ∧ tget (fun _ => (0 : Word)) t.linkCaps (64 + n) = st
          ∧ tget (fun _ => (0 : Word)) t.linkCaps (128 + n) = 1
          ∧ t.on (R.SEAM_STATE_EN_EFF n) = st.getLsbD 31 ∧ t.on (R.SEAM_STATE_REWOVE n) = st.getLsbD 29
          ∧ t.on (R.SEAM_STATE_SAT n) = st.getLsbD 28
          ∧ t.get (R.SEAM_CAP_INS n) = bitsOf cp 17 5 ∧ t.get (R.SEAM_CAP_FRAC n) = bitsOf cp 16 1
          ∧ (st.getLsbD 30 = true → t.on (R.SEAM_STATE_HELD n) = true)
          ∧ (m.num 2 2 ∈ (linkX s n).sent → t.on (R.SEAM_STATE_LINKSTALE n) = false ∧ (linkX t n).ep = false
            ∧ m.num 2 2 ∉ (linkX t n).sent)
          ∧ (m.num 2 2 ∉ (linkX s n).sent → t.on (R.SEAM_STATE_LINKSTALE n) = s.on (R.SEAM_STATE_LINKSTALE n)
            ∧ linkX t n = linkX s n)))
    ∧ (m.ty = 0x13 →
      let op := m.num 0 1
      let a := m.num 2 3
      let n := m.num 5 1
      let head := slice m.f.payload 1 5
      let formed := (op = 1 ∨ op = 2) ∧ 1 ≤ n ∧ n ≤ 6 ∧ a % 4 = 0
      let may := 1 ≤ m.f.src ∧ m.f.src ≤ 32 ∧ s.on (if op = 1 then R.FAB_ROLE_RD m.f.src else R.FAB_ROLE_WR m.f.src) = true
      (¬formed → deliver m s = sendRrsp m.f.src m.f.sepoch 3 head [] s)
      ∧ (formed → ¬may → deliver m s = sendRrsp m.f.src m.f.sepoch 4 head [] s)
      ∧ (formed → may → op = 1 → remoteStatus s a n = 0 →
        deliver m s = sendRrsp m.f.src m.f.sepoch 0 head (readBurst 2 a n s).2.1 (readBurst 2 a n s).1)
      ∧ (formed → may → op = 2 → s.host.queue = [] → s.fab.writes = [] →
        ∃ t, deliver m s = t ∧ RegsOutside [R.HST_STAT] s t
          ∧ t = { s with regs := t.regs, host := { s.host with queue := t.host.queue },
                         fab := { s.fab with writes := t.fab.writes } }
          ∧ t.host.queue = (List.range n).map (fun k => ⟨2, (a + 4 * k) % 2 ^ 24, BitVec.ofNat 32 (m.num (8 + 4 * k) 4)⟩)
          ∧ t.fab.writes = [⟨m.f.src, m.f.sepoch, head, n, remoteStatus s a n⟩]))
    ∧ (m.ty = 0x14 → ∀ q, s.fab.req = some q →
      (¬(q.ty = 0x13 ∧ q.dst = m.f.src ∧ q.tag = m.num 1 1) → deliver m s = s)
      ∧ (q.ty = 0x13 → q.dst = m.f.src → q.tag = m.num 1 1 → q.n ≤ 6 →
        ∃ t, deliver m s = t ∧ RegsOutside ((List.range 6).map R.FAB_RDATA ++ [R.FAB_RSTAT, R.FAB_IRQ]) s t
          ∧ t = { s with regs := t.regs, fab := { s.fab with req := none, chunks := [] } }
          ∧ t.on R.FAB_RSTAT_BUSY = false ∧ t.on R.FAB_RSTAT_DONE = true ∧ t.get R.FAB_RSTAT_STATUS = m.num 0 1
          ∧ t.get R.FAB_RSTAT_TAG = q.tag % 2 ^ R.FAB_RSTAT_TAG.wd ∧ t.on R.FAB_IRQ_RDONE = true
          ∧ ∀ k, k < 6 → t.word (R.FAB_RDATA k) = (if m.num 0 1 = 0 ∧ k < q.n then BitVec.ofNat 32 (m.num (8 + 4 * k) 4)
              else s.word (R.FAB_RDATA k))))
    ∧ (m.ty = 0x15 →
      (signerOk s = false → deliver m s = sendNack 5 m s)
      ∧ (signerOk s = true →
        ∃ t, deliver m s = t ∧ t.idn.queue = s.idn.queue
          ++ [.remote m.f.src m.f.sepoch (reportBody (padPayload m.f.payload) true s)]))
    ∧ (m.ty = 0x16 → ∀ q, s.fab.req = some q →
      (¬(q.ty = 0x15 ∧ q.dst = m.f.src ∧ m.f.chunk * 32 = s.fab.chunks.length) → deliver m s = s)
      ∧ (q.ty = 0x15 → q.dst = m.f.src → m.f.chunk * 32 = s.fab.chunks.length →
        (m.f.chunk < 5 →
          deliver m s = { s with fab := { s.fab with chunks := s.fab.chunks ++ padPayload m.f.payload } })
        ∧ (m.f.chunk = 5 →
          ∃ t, deliver m s = t ∧ RegsOutside ((List.range 48).map R.FAB_REPORT ++ [R.FAB_RSTAT, R.FAB_IRQ]) s t
            ∧ t = { s with regs := t.regs, fab := { s.fab with req := none, chunks := [] } }
            ∧ t.on R.FAB_RSTAT_BUSY = false ∧ t.on R.FAB_RSTAT_DONE = true ∧ t.get R.FAB_RSTAT_STATUS = 0
            ∧ t.on R.FAB_IRQ_RDONE = true
            ∧ ∀ k, k < 48 → t.word (R.FAB_REPORT k)
                = BitVec.ofNat 32 (leAt (s.fab.chunks ++ padPayload m.f.payload) (4 * k)))))
    ∧ (m.ty = 0x1F → 1 ≤ m.f.src → m.f.src ≤ 32 →
      let ends := fun (q : FabReq) => q.ty = m.num 1 1 ∧ q.seq = m.num 2 2
      let marked (t : State) : Prop := t.on (R.FAB_PEER_STALE m.f.src) = true ∧ t.on R.FAB_IRQ_STALE = true
      (m.num 0 1 = 1 → (∀ q, s.fab.req = some q → ¬(ends q ∧ q.dst = m.f.src)) →
        ∃ t, deliver m s = t ∧ OnlyRegs [R.FAB_PEER m.f.src, R.FAB_IRQ] s t ∧ marked t)
      ∧ (∀ q, m.num 0 1 = 1 → s.fab.req = some q → ends q → q.dst = m.f.src →
        ∃ t, deliver m s = t ∧ RegsOutside [R.FAB_PEER m.f.src, R.FAB_IRQ, R.FAB_RSTAT] s t ∧ marked t
          ∧ t = { s with regs := t.regs, fab := { s.fab with req := none, chunks := [] } }
          ∧ t.on R.FAB_RSTAT_BUSY = false ∧ t.on R.FAB_RSTAT_DONE = true ∧ t.get R.FAB_RSTAT_STATUS = 5
          ∧ t.on R.FAB_IRQ_RDONE = true)
      ∧ (∀ q, m.num 0 1 = 2 → s.fab.req = some q → ends q →
        ∃ t, deliver m s = t ∧ RegsOutside [R.FAB_IRQ, R.FAB_RSTAT] s t ∧ t.on R.FAB_RSTAT_DONE = true
          ∧ t.get R.FAB_RSTAT_STATUS = 6 ∧ t.fab.req = none)
      ∧ (m.num 0 1 ≠ 1 → s.fab.req = none → deliver m s = s)))

/-- A ROUTE_SEND with every port that is not DOWN running judges the routes and sends them: a role's metric is the least that an UP port gives, through the lowest such port. A role that stays unreachable is free: its MEMBERS bit clears and its epoch stays. An exchange with the port that is followed shows the
offset, slews by at most 25 ns or steps above 1 µs, counts good offsets, and sets TVALID after eight; above 16 ns TVALID clears. TVALID that is lost lets every aligned root run free with CLK once per
episode. Every member gets the digest; one that sends none for 30 ms agrees no more, and FAB_AGREE, its count, its time and ALL follow. A
request of the host is refused with CMDERR while one is pending; unbound it ends UNBOUND, without a route NOROUTE; else it is pending and its frame is sent; without a reply it ends TIMEOUT.
The model's choices here: the slew of 25 ns is for each exchange, and what the offset and the delay round to (log entry 58). -/
def Obligations.FabricTimeAndRequests : Prop :=
  (∀ s : State,
    (domOn s 2 = false → exec .routeSend s = .next s)
    ∧ (domOn s 2 = true → (∀ p ∈ fabPorts s, portState s p ≠ pDOWN → portRuns s p = true) →
      s.on R.FAB_TSTAT_TVALID = false →
      ∃ u, exec .routeSend s = .next (sendRoutes u)
        ∧ ∀ r, 1 ≤ r → r ≤ 32 →
          (r = ownRole s → metricTo u r = 0)
          ∧ (r ≠ ownRole s → (∀ p ∈ fabPorts s, metricTo u r ≤ metricVia s r p)
            ∧ (metricTo u r ≠ 255 → metricVia s r (u.get (R.FAB_PEER_PORT r)) = metricTo u r
              ∧ ∀ p, p < u.get (R.FAB_PEER_PORT r) → metricTo u r < metricVia s r p))))
  ∧ (∀ (r : Fin 32) (s : State),
    (¬(domOn s 2 = true ∧ member s (r + 1) = true ∧ metricTo s (r + 1) = 255) → exec (.roleFree r) s = .next s)
    ∧ (domOn s 2 = true → member s (r + 1) = true → metricTo s (r + 1) = 255 →
      ∃ u, exec (.roleFree r) s = .next (oneCycle (syncSource raiseNow) (syncAgree u))
        ∧ OnlyRegs [R.FAB_MEMBERS, R.FAB_PEER (r + 1), R.FAB_IRQ] s u ∧ member u (r + 1) = false
        ∧ (∀ q, 1 ≤ q → q ≤ 32 → q ≠ r.val + 1 → member u q = member s q)
        ∧ u.on (R.FAB_PEER_REACH (r + 1)) = false ∧ knownEpoch u (r + 1) = knownEpoch s (r + 1)
        ∧ u.on R.FAB_IRQ_MEMBERS = true)
    ∧ (domOn s 2 = false → exec (.agreeTimeout r) s = .next s)
    ∧ (domOn s 2 = true →
      ∃ u, exec (.agreeTimeout r) s = .next (syncAgree u) ∧ u = { s with
            fab := { s.fab with digests := u.fab.digests } }
        ∧ tget (fun _ => none) u.fab.digests (r + 1) = none
        ∧ ∀ q, q ≠ r.val + 1 → tget (fun _ => none) u.fab.digests q = tget (fun _ => none) s.fab.digests q))
  ∧ (∀ s : State,
    ((agreeMap s) % 2 ^ 32 = agreeMap s →
      (agreeMap s = s.get R.FAB_AGREE_MAP →
        ∃ t, syncAgree s = t ∧ OnlyRegs [R.FAB_STAT] s t
          ∧ t.on R.FAB_STAT_ALL = (s.get R.FAB_AGREE_MAP == s.get R.FAB_EXPECT_MAP))
      ∧ (agreeMap s ≠ s.get R.FAB_AGREE_MAP →
        ∃ t, syncAgree s = t
          ∧ OnlyRegs ([R.FAB_STAT, R.FAB_AGREE, R.FAB_AGREE_EPOCH, R.FAB_AGREE_T_LO, R.FAB_AGREE_T_HI, R.FAB_IRQ]
              ++ roles.map R.FAB_PEER) s t
          ∧ t.get R.FAB_AGREE_MAP = agreeMap s
          ∧ t.get R.FAB_AGREE_EPOCH_N = (s.get R.FAB_AGREE_EPOCH_N + 1) % 2 ^ 32
          ∧ t.get R.FAB_AGREE_T_LO_T + 2 ^ 32 * t.get R.FAB_AGREE_T_HI_T = fabTime s ∧ t.on R.FAB_IRQ_AGREE = true
          ∧ t.on R.FAB_STAT_ALL = (agreeMap s == s.get R.FAB_EXPECT_MAP)))
    ∧ (domOn s 2 = true → s.on R.FAB_STAT_BOUND = true → s.on R.PAT_STAT_LOADED = true →
      exec .digestSend s = .next (forL (roles.filter (fun r => member s r && r != ownRole s))
        (fun r a => sendRouted 0x10 r (knownEpoch s r) 0 (patDigest s) a) s))
    ∧ (¬(domOn s 2 = true ∧ s.on R.FAB_STAT_BOUND = true ∧ s.on R.PAT_STAT_LOADED = true) → exec .digestSend s = .next s))
  ∧ (∀ (p : Fin 4) (st : TimeStamps) (src : Fin 33) (s : State),
    (portUp s p = false → exec (.timeExchange p st src) s = .next s)
    ∧ (portUp s p = true →
      let v := setFabPort s p { fabPort s p with heard := src }
      timeSource v ≠ 0 → timeSource v ≠ ownRole s → timeSource v = s.get R.FAB_TSTAT_SRCROLE →
      s.on R.FAB_TSTAT_SOURCE = false → s.get (R.FAB_PEER_PORT (timeSource v)) = p →
      ∃ u, exec (.timeExchange p st src) s = .next (followTime (timeOffset st) u)
        ∧ RegsOutside [R.FAB_PDLY p, R.FAB_TSTAT] s u ∧ u = { v with regs := u.regs }
        ∧ u.get (R.FAB_PDLY_DLY p) = code 16 (linkDelay st) ∧ u.get R.FAB_TSTAT_PORT = p
        ∧ u.on R.FAB_TSTAT_TVALID = s.on R.FAB_TSTAT_TVALID))
  ∧ (∀ (off : Int) (s : State),
    let aligned := ∃ n ∈ roots s, s.get (R.MOD_CAR_SYNC n) = 2 ∨ s.get (R.MOD_CAR_SYNC n) = 3
    off.natAbs ≤ 16 ∨ s.on R.FAB_TSTAT_TVALID = false ∨ ¬aligned →
    ∃ t, followTime off s = t ∧ OnlyRegs [R.FAB_TSTAT] { s with fab := t.fab } t
      ∧ (-128 ≤ off → off ≤ 127 → signed 8 (t.get R.FAB_TSTAT_OFFS) = off)
      ∧ (off.natAbs ≤ 25 ∨ 1000 < off.natAbs → fabTime t = code 64 ((fabTime s : Int) - off))
      ∧ (25 < off → off ≤ 1000 → fabTime t = code 64 ((fabTime s : Int) - 25))
      ∧ (-1000 ≤ off → off < -25 → fabTime t = code 64 ((fabTime s : Int) + 25))
      ∧ t.get R.FAB_TSTAT_TSTEP = (s.get R.FAB_TSTAT_TSTEP + (if 1000 < off.natAbs then 1 else 0)) % 2 ^ 8
      ∧ (off.natAbs ≤ 4 → 7 ≤ s.fab.good → t.on R.FAB_TSTAT_TVALID = true)
      ∧ (off.natAbs ≤ 4 → s.fab.good < 7 → t.fab.good = s.fab.good + 1
        ∧ t.on R.FAB_TSTAT_TVALID = s.on R.FAB_TSTAT_TVALID)
      ∧ (4 < off.natAbs → t.fab.good = 0)
      ∧ (4 < off.natAbs → off.natAbs ≤ 16 → t.on R.FAB_TSTAT_TVALID = s.on R.FAB_TSTAT_TVALID)
      ∧ (16 < off.natAbs → t.on R.FAB_TSTAT_TVALID = false))
  ∧ (∀ s : State,
    (domOn s 2 = false ∨ s.on R.FAB_TSTAT_SOURCE = true → exec .tvalidLoss s = .next s)
    ∧ (domOn s 2 = true → s.on R.FAB_TSTAT_SOURCE = false → s.on R.FAB_TSTAT_TVALID = true →
      exec .tvalidLoss s = .next (oneCycle (clearTvalid raiseNow) s))
    ∧ (domOn s 2 = true → s.on R.FAB_TSTAT_SOURCE = false → s.on R.FAB_TSTAT_TVALID = false →
      exec .tvalidLoss s = .next { s with fab := { s.fab with good := 0 } }))
  ∧ (∀ (raise : Raise) (s : State),
    (s.on R.FAB_TSTAT_TVALID = true →
      ∃ u, clearTvalid raise s = forL (roots s) (runFree raise) u ∧ RegsOutside [R.FAB_TSTAT] s u
        ∧ u = { s with regs := u.regs, fab := { s.fab with good := 0 } } ∧ u.on R.FAB_TSTAT_TVALID = false)
    ∧ ∀ n, 1 ≤ n → n < 64 →
      (s.get (R.MOD_CAR_SYNC n) < 2 ∨ domOn s 5 = false → runFree raise n s = s)
      ∧ (2 ≤ s.get (R.MOD_CAR_SYNC n) → domOn s 5 = true →
        ∃ u, runFree raise n s = (if episode s (256 + n) = true then u else raise kCLK (seamScope n) u)
          ∧ RegsOutside [R.MOD_SST n] s u ∧ u.on (R.MOD_SST_SYNCOK n) = false ∧ u.on (R.MOD_SST_SLEWING n) = false
          ∧ carrier u n = { carrier s n with rem := 0, aligned := 0 } ∧ episode u (256 + n) = true))
  ∧ (∀ (port : Nat) (dst : BitVec 6) (n : BitVec 3) (tag : BitVec 8) (s : State), Accepts s port R.FAB_RCTL →
    let rows : List (Instr × Nat × Nat) :=
      [(.fabReqRead port dst n tag, 0, 0x13), (.fabReqWrite port dst n tag, 1, 0x13), (.fabAttest port dst n tag, 2, 0x15)]
    let e := knownEpoch s dst.toNat
    ∀ c ∈ rows,
      (s.on R.FAB_RSTAT_BUSY = true →
        ∃ t, exec c.1 s = .next t ∧ PortRegs port [R.FAB_STAT] s t ∧ t.on R.FAB_STAT_CMDERR = true)
      ∧ (s.on R.FAB_RSTAT_BUSY = false → ownRole s = 0 ∨ reachable s dst.toNat = false →
        ∃ t, exec c.1 s = .next t ∧ RegsOutside [R.FAB_RCTL, R.FAB_RSTAT, R.FAB_IRQ, R.FAB_CNT] s t
          ∧ t = { endRun port s with regs := t.regs, fab := { s.fab with req := none, chunks := [] } }
          ∧ t.on R.FAB_RSTAT_BUSY = false ∧ t.on R.FAB_RSTAT_DONE = true ∧ t.get R.FAB_RSTAT_TAG = tag.toNat
          ∧ t.on R.FAB_IRQ_RDONE = true ∧ t.get R.FAB_RSTAT_STATUS = (if ownRole s = 0 then 8 else 6)
          ∧ t.get R.FAB_CNT_NOROUTE
            = (s.get R.FAB_CNT_NOROUTE + (if ownRole s = 0 then 0 else 1)) % 2 ^ R.FAB_CNT_NOROUTE.wd)
      ∧ (s.on R.FAB_RSTAT_BUSY = false → ownRole s ≠ 0 → reachable s dst.toNat = true →
        ∃ u, exec c.1 s = .next (sendRouted c.2.2 dst.toNat e 0 (requestPayload u c.2.1) u)
          ∧ RegsOutside [R.FAB_RCTL, R.FAB_RSTAT] s u ∧ u.on R.FAB_RSTAT_BUSY = true
          ∧ u.get R.FAB_RCTL_N = n.toNat ∧ u.get R.FAB_RCTL_TAG = tag.toNat ∧ u.get R.FAB_RCTL_DST = dst.toNat
          ∧ u.fab.req = some ⟨c.2.2, dst.toNat, nextSeq s dst.toNat e, tag.toNat, if c.2.1 = 0 then n.toNat else 0⟩
          ∧ u = { endRun port s with regs := u.regs, fab := { s.fab with req := u.fab.req, chunks := [] } }))
  ∧ ∀ s : State,
    (s.fab.req = none → exec .fabReqTimeout s = .next s)
    ∧ ∀ q, s.fab.req = some q →
      ∃ t, exec .fabReqTimeout s = .next t ∧ RegsOutside [R.FAB_RSTAT, R.FAB_IRQ] s t
        ∧ t = { s with regs := t.regs, fab := { s.fab with req := none, chunks := [] } }
        ∧ t.on R.FAB_RSTAT_BUSY = false ∧ t.on R.FAB_RSTAT_DONE = true ∧ t.get R.FAB_RSTAT_STATUS = 7
        ∧ t.get R.FAB_RSTAT_TAG = q.tag % 2 ^ R.FAB_RSTAT_TAG.wd ∧ t.on R.FAB_IRQ_RDONE = true

/-- With PD2 on and CRCREQ 1: READ, WRITE, WRITE_FIXED and STATUS, whatever the host sent and for however long it clocked, end with the error response CRCREQ, counted; no word enters a queue
and no register but HST_STAT changes. A READ returns zero for every word clocked out, a STATUS returns HST_STAT as it stood, the others return nothing.
That ERRADDR stays and that the STATUS word is the one before its own error are the model's choices (log entry 31). -/
def Obligations.CrcRequired : Prop :=
  ∀ (s : State) (sent : List Byte) (out : Nat) (half : Bool), domOn s 2 = true → s.on R.HST_CFG_CRCREQ = true →
    let rows : List (Instr × List Word) :=
      [(.read sent out, List.replicate ((out + 3) / 4) 0), (.write sent half, []), (.writeFixed sent half, []),
       (.status (some ⟨0x05, sent, half, out⟩), [s.word R.HST_STAT]),
       (.status (some ⟨0x0B, sent, half, out⟩), List.replicate ((out + 3) / 4) 0), (.status (some ⟨0x02, sent, half, out⟩), []),
       (.status (some ⟨0x06, sent, half, out⟩), [])]
    ∀ c ∈ rows, ∃ t, exec c.1 s = .next t ∧ RegsOutside [R.HST_STAT] s t
      ∧ t = { s with regs := t.regs, host := { s.host with sent := c.2, trailer := none, after := 0 } }
      ∧ t.on R.HST_STAT_ERESP = true ∧ t.get R.HST_STAT_FCODE = fCRCREQ
      ∧ t.get R.HST_STAT_ECNT = (s.get R.HST_STAT_ECNT + 1) % 2 ^ R.HST_STAT_ECNT.wd

/-- A closed window of at least one sample is added, with the words `work` of the working copy it was metered with. With Σv² and Σi² in squares of (code × ratio), 2^39 of which are 1.2 V or A, S = g·√(Σv²·Σi²)·1.44 ÷ (2^78·N) and
g = (2^19 + G) ÷ 2^19, where G is the gain that R208 gives at the window's I0: S below NLTH × 0.01 VA is the squared inequality below. Then no accumulator and no interval register of the channel changes, NOLOAD is 1 and its
count one more. Otherwise NOLOAD is 0 and the count stays, at equality too. -/
def Obligations.NoLoadWindows : Prop :=
  ∀ (c : Nat) (work : List Nat) (w : MtrWin) (s : State), c < 4 → w.n ≠ 0 →
    let t := addWindow c work w s
    let g := 524288 + (segment work (t.get (R.MTR_IRMS_I0 c))).2.1
    let nlth : Int := (work.getD 3 0 % 65536 : Nat)
    let below := g ^ 2 * (w.vv * w.ii) * 3600 ^ 2 < (nlth * 25 * 2 ^ 97 * w.n) ^ 2
    (below → (∀ q, accOf t c q = accOf s c q ∧ intReg t c q = intReg s c q) ∧ t.mtr = s.mtr
      ∧ (∀ q, q < 7 → t.word (R.MTR_IWRAP c q) = s.word (R.MTR_IWRAP c q))
      ∧ t.on (R.MTR_CHSTAT_NOLOAD c) = true ∧ t.get (R.MTR_CNT_NOLOAD c) = (s.get (R.MTR_CNT_NOLOAD c) + 1) % 256)
    ∧ (¬below → t.on (R.MTR_CHSTAT_NOLOAD c) = false ∧ t.get (R.MTR_CNT_NOLOAD c) = s.get (R.MTR_CNT_NOLOAD c))

/-- A word accepted at FLT_LOGACK is what the register then holds. An entry of the log goes to the slot of the next sequence number: where the SEQ there is greater than FLT_LOGACK, OVF is one more, at most 65,535; else OVF stays.
FLT_LOGACK and every word of every other slot stay. -/
def Obligations.LogOverflow : Prop :=
  (∀ (w : PortWrite) (s : State), Accepts s w.port R.FLT_LOGACK →
    ∃ t, exec (.hostRegisterWrite (BitVec.ofNat 24 R.FLT_LOGACK) w 0) s = .next t ∧ t.get R.FLT_LOGACK_SEQ = w.data.toNat)
  ∧ ∀ (ty cls tier : Nat) (shadow esc : Bool) (scope detail rcnt escn : Nat) (s : State),
    let i := s.get R.FLT_NEXTSEQ_SEQ % 256
    let t := logEvent ty cls tier shadow esc scope detail rcnt escn s
    (s.get R.FLT_LOGACK_SEQ < s.get (R.FLT_LOG_W i 0) →
      t.get R.FLT_LOGINFO_OVF = min 65535 (s.get R.FLT_LOGINFO_OVF + 1))
    ∧ (s.get (R.FLT_LOG_W i 0) ≤ s.get R.FLT_LOGACK_SEQ → t.get R.FLT_LOGINFO_OVF = s.get R.FLT_LOGINFO_OVF)
    ∧ t.get (R.FLT_LOG_W i 0) = s.get R.FLT_NEXTSEQ_SEQ
    ∧ RegsOutside [R.FLT_LOG i 0, R.FLT_LOG i 1, R.FLT_LOG i 2, R.FLT_LOG i 3, R.FLT_LOGINFO, R.FLT_NEXTSEQ] s t
end

