-- ==== Sys2Proof/Laws/Table.lean ====
section
/-!
SUPPORT. Laws of the canonical sparse tables and of bit fields: read after write, and that every table operation keeps
the canonical form.
-/
set_option Elab.async false

namespace Sys2Proof.Machine

/-! ### Read after write -/

theorem tget_tins_self {α : Type} (d : Nat → α) (k : Nat) (v : α) :
    ∀ l : List (Nat × α), tget d (tins k v l) k = v
  | [] => by simp [tins, tget]
  | (i, w) :: t => by
    unfold tins
    split
    · simp [tget]
    · split
      · simp [tget]
      · rename_i h _
        simp [tget, h, tget_tins_self d k v t]

theorem tget_tins_ne {α : Type} (d : Nat → α) {k j : Nat} (v : α) (h : j ≠ k) :
    ∀ l : List (Nat × α), tget d (tins k v l) j = tget d l j
  | [] => by simp [tins, tget, Ne.symm h]
  | (i, w) :: t => by
    unfold tins
    split
    · rename_i e
      simp [tget, Ne.symm h, e]
    · split
      · simp [tget, Ne.symm h]
      · by_cases e : i = j
        · simp [tget, e]
        · simp [tget, e, tget_tins_ne d v h t]

theorem tget_filter_of_not {α : Type} (d : Nat → α) (p : Nat → Bool) {j : Nat} (h : p j = false) :
    ∀ l : List (Nat × α), tget d (l.filter (fun e => p e.1)) j = d j
  | [] => rfl
  | (i, w) :: t => by
    by_cases q : p i = true
    · have e : i ≠ j := fun e => by subst e; simp [h] at q
      simp [List.filter, q, tget, e, tget_filter_of_not d p h t]
    · simp [List.filter, q, tget_filter_of_not d p h t]

theorem tget_filter_of {α : Type} (d : Nat → α) (p : Nat → Bool) {j : Nat} (h : p j = true) :
    ∀ l : List (Nat × α), tget d (l.filter (fun e => p e.1)) j = tget d l j
  | [] => rfl
  | (i, w) :: t => by
    by_cases q : p i = true
    · by_cases e : i = j
      · simp [List.filter_cons, tget, e]
        simp [e ▸ q, tget]
      · simp [q, tget, e, tget_filter_of d p h t]
    · have e : i ≠ j := fun e => by subst e; simp [h] at q
      simp [q, tget, e, tget_filter_of d p h t]

/-- A key reads what was written to it. -/
@[simp] theorem tget_tset_self {α : Type} [DecidableEq α] (d : Nat → α) (l : List (Nat × α)) (k : Nat) (v : α) :
    tget d (tset d l k v) k = v := by
  unfold tset
  split
  · rename_i h
    rw [tget_filter_of_not d (fun x => x != k) (by simp) l, h]
  · exact tget_tins_self d k v l

/-- Another key reads as before. -/
theorem tget_tset_ne {α : Type} [DecidableEq α] (d : Nat → α) (l : List (Nat × α)) {k j : Nat} (v : α) (h : j ≠ k) :
    tget d (tset d l k v) j = tget d l j := by
  unfold tset
  split
  · exact tget_filter_of d (fun x => x != k) (by simpa using h) l
  · exact tget_tins_ne d v h l

/-- A range set back reads its default, all else as before. -/
theorem tget_tdrop {α : Type} (d : Nat → α) (l : List (Nat × α)) (lo hi j : Nat) :
    tget d (tdrop l lo hi) j = if lo ≤ j ∧ j < hi then d j else tget d l j := by
  unfold tdrop
  split
  · rename_i h
    exact tget_filter_of_not d (fun x => decide (x < lo) || decide (hi ≤ x)) (by simp; omega) l
  · rename_i h
    exact tget_filter_of d (fun x => decide (x < lo) || decide (hi ≤ x)) (by simp; omega) l

/-! ### The canonical form -/

/-- Keys strictly rise: the form that proofs use. -/
def Rises {α : Type} (l : List (Nat × α)) : Prop := l.Pairwise (fun a b => a.1 < b.1)

theorem rising_iff {α : Type} : ∀ l : List (Nat × α), rising l = true ↔ Rises l
  | [] => by simp [rising, Rises]
  | [_] => by simp [rising, Rises]
  | (i, v) :: (j, w) :: t => by
    have ih := rising_iff ((j, w) :: t)
    simp only [rising, Bool.and_eq_true, decide_eq_true_eq, ih, Rises, List.pairwise_cons] at *
    constructor
    · rintro ⟨h, h1, h2⟩
      refine ⟨?_, h1, h2⟩
      intro a ha
      rcases List.mem_cons.1 ha with rfl | ha
      · exact h
      · exact Nat.lt_trans h (h1 a ha)
    · rintro ⟨h, h1, h2⟩
      exact ⟨h _ (List.mem_cons_self ..), h1, h2⟩

theorem canonical_iff {α : Type} [DecidableEq α] (d : Nat → α) (l : List (Nat × α)) :
    canonical d l = true ↔ Rises l ∧ ∀ e ∈ l, e.2 ≠ d e.1 := by
  simp [canonical, rising_iff]

theorem mem_tins {α : Type} {k : Nat} {v : α} : ∀ {l : List (Nat × α)} {e : Nat × α}, e ∈ tins k v l → e = (k, v) ∨ e ∈ l
  | [], e, h => by simpa [tins] using h
  | (i, w) :: t, e, h => by
    unfold tins at h
    split at h
    · rcases List.mem_cons.1 h with h | h
      · exact .inl h
      · exact .inr (List.mem_cons_of_mem _ h)
    · split at h
      · rcases List.mem_cons.1 h with h | h
        · exact .inl h
        · exact .inr h
      · rcases List.mem_cons.1 h with h | h
        · exact .inr (h ▸ List.mem_cons_self ..)
        · rcases mem_tins h with h | h
          · exact .inl h
          · exact .inr (List.mem_cons_of_mem _ h)

theorem rises_tins {α : Type} (k : Nat) (v : α) : ∀ l : List (Nat × α), Rises l → Rises (tins k v l)
  | [], _ => by simp [tins, Rises]
  | (i, w) :: t, h => by
    have h' := List.pairwise_cons.1 h
    unfold tins
    split
    · rename_i e
      exact List.pairwise_cons.2 ⟨fun a ha => e ▸ h'.1 a ha, h'.2⟩
    · split
      · rename_i e
        refine List.pairwise_cons.2 ⟨fun a ha => ?_, h⟩
        rcases List.mem_cons.1 ha with rfl | ha
        · exact e
        · exact Nat.lt_trans e (h'.1 a ha)
      · refine List.pairwise_cons.2 ⟨fun a ha => ?_, rises_tins k v t h'.2⟩
        rcases mem_tins ha with rfl | ha
        · show i < k
          omega
        · exact h'.1 a ha

/-- A write keeps the canonical form. -/
theorem canonical_tset {α : Type} [DecidableEq α] (d : Nat → α) (l : List (Nat × α)) (k : Nat) (v : α)
    (h : canonical d l = true) : canonical d (tset d l k v) = true := by
  rw [canonical_iff] at *
  unfold tset
  split
  · exact ⟨h.1.filter _, fun e he => h.2 e (List.mem_of_mem_filter he)⟩
  · rename_i hv
    refine ⟨rises_tins k v l h.1, fun e he => ?_⟩
    rcases mem_tins he with rfl | he
    · exact hv
    · exact h.2 e he

/-- Keeping some keys keeps the canonical form. -/
theorem canonical_filter {α : Type} [DecidableEq α] (d : Nat → α) (l : List (Nat × α)) (p : Nat × α → Bool)
    (h : canonical d l = true) : canonical d (l.filter p) = true := by
  rw [canonical_iff] at *
  exact ⟨h.1.filter _, fun e he => h.2 e (List.mem_of_mem_filter he)⟩

theorem canonical_tdrop {α : Type} [DecidableEq α] (d : Nat → α) (l : List (Nat × α)) (lo hi : Nat)
    (h : canonical d l = true) : canonical d (tdrop l lo hi) = true := canonical_filter d l _ h

/-! ### Bit fields -/

theorem testBit_bitsOf (w : Word) (lo wd i : Nat) :
    (bitsOf w lo wd).testBit i = (decide (i < wd) && w.toNat.testBit (lo + i)) := by
  simp [bitsOf, Nat.testBit_mod_two_pow, Nat.testBit_div_two_pow, Nat.add_comm]

theorem testBit_setBits (w : Word) (lo wd v j : Nat) (hj : j < 32) :
    (setBits w lo wd v).toNat.testBit j
      = if j < lo then w.toNat.testBit j else if j < lo + wd then v.testBit (j - lo) else w.toNat.testBit j := by
  have e : w.toNat % 2 ^ lo + v % 2 ^ wd * 2 ^ lo + w.toNat / 2 ^ (lo + wd) * 2 ^ (lo + wd)
      = 2 ^ lo * (2 ^ wd * (w.toNat / 2 ^ (lo + wd)) + v % 2 ^ wd) + w.toNat % 2 ^ lo := by
    rw [Nat.pow_add]; ring
  have h1 : v % 2 ^ wd < 2 ^ wd := Nat.mod_lt _ (by positivity)
  have h2 : w.toNat % 2 ^ lo < 2 ^ lo := Nat.mod_lt _ (by positivity)
  rw [setBits, BitVec.toNat_ofNat, Nat.testBit_mod_two_pow, e, Nat.testBit_two_pow_mul_add _ h2,
    Nat.testBit_two_pow_mul_add _ h1]
  simp only [hj, decide_true, Bool.true_and, Nat.testBit_mod_two_pow, Nat.testBit_div_two_pow]
  by_cases a : j < lo
  · simp [a]
  · by_cases b : j < lo + wd
    · have b' : j - lo < wd := by omega
      simp [a, b, b']
    · have b' : ¬ j - lo < wd := by omega
      have c : j - lo - wd + (lo + wd) = j := by omega
      simp [a, b, b', c]

/-- A field reads what was written to it, modulo its width. -/
theorem bitsOf_setBits (w : Word) (lo wd v : Nat) (h : lo + wd ≤ 32) : bitsOf (setBits w lo wd v) lo wd = v % 2 ^ wd := by
  apply Nat.eq_of_testBit_eq
  intro i
  rw [testBit_bitsOf, Nat.testBit_mod_two_pow]
  by_cases hi : i < wd
  · rw [testBit_setBits _ _ _ _ _ (by omega)]
    simp [hi]
  · simp [hi]

/-- A field apart from the one written reads as before. -/
theorem bitsOf_setBits_ne (w : Word) (lo wd v lo' wd' : Nat) (h' : lo' + wd' ≤ 32) (h : lo' + wd' ≤ lo ∨ lo + wd ≤ lo') :
    bitsOf (setBits w lo wd v) lo' wd' = bitsOf w lo' wd' := by
  apply Nat.eq_of_testBit_eq
  intro i
  rw [testBit_bitsOf, testBit_bitsOf]
  by_cases hi : i < wd'
  · rw [testBit_setBits _ _ _ _ _ (by omega)]
    by_cases a : lo' + i < lo
    · simp [a]
    · have b : ¬ lo' + i < lo + wd := by omega
      simp [a, b]
  · simp [hi]

/-- A bit map's bit. -/
theorem tb_eq_testBit (n k : Nat) : tb n k = n.testBit k := by
  simp [tb, Nat.testBit, Nat.shiftRight_eq_div_pow, Nat.one_and_eq_mod_two]

@[simp] theorem bit_true : bit true = 1 := rfl
@[simp] theorem bit_false : bit false = 0 := rfl
theorem bit_lt (b : Bool) : bit b < 2 := by cases b <;> simp

end Sys2Proof.Machine
end

