-- ==== Sys2Proof/Laws/State.lean ====
section
/-!
SUPPORT. One lemma per field for every named update of State: what the update leaves as it was.
-/
set_option Elab.async false

namespace Sys2Proof.Machine

variable (s : State)

/-! ### setWord -/

@[simp] theorem setWord_pending (a : Nat) (w : Word) : (s.setWord a w).pending = s.pending := by rfl
@[simp] theorem setWord_part (a : Nat) (w : Word) : (s.setWord a w).part = s.part := by rfl
@[simp] theorem setWord_aq (a : Nat) (w : Word) : (s.setWord a w).aq = s.aq := by rfl
@[simp] theorem setWord_cyc (a : Nat) (w : Word) : (s.setWord a w).cyc = s.cyc := by rfl
@[simp] theorem setWord_tick (a : Nat) (w : Word) : (s.setWord a w).tick = s.tick := by rfl
@[simp] theorem setWord_telTick (a : Nat) (w : Word) : (s.setWord a w).telTick = s.telTick := by rfl
@[simp] theorem setWord_freeCtr (a : Nat) (w : Word) : (s.setWord a w).freeCtr = s.freeCtr := by rfl
@[simp] theorem setWord_host (a : Nat) (w : Word) : (s.setWord a w).host = s.host := by rfl
@[simp] theorem setWord_links (a : Nat) (w : Word) : (s.setWord a w).links = s.links := by rfl
@[simp] theorem setWord_dielets (a : Nat) (w : Word) : (s.setWord a w).dielets = s.dielets := by rfl
@[simp] theorem setWord_ledger (a : Nat) (w : Word) : (s.setWord a w).ledger = s.ledger := by rfl
@[simp] theorem setWord_ledgerSeq (a : Nat) (w : Word) : (s.setWord a w).ledgerSeq = s.ledgerSeq := by rfl
@[simp] theorem setWord_carriers (a : Nat) (w : Word) : (s.setWord a w).carriers = s.carriers := by rfl
@[simp] theorem setWord_fractions (a : Nat) (w : Word) : (s.setWord a w).fractions = s.fractions := by rfl
@[simp] theorem setWord_loadedPer (a : Nat) (w : Word) : (s.setWord a w).loadedPer = s.loadedPer := by rfl
@[simp] theorem setWord_linkCaps (a : Nat) (w : Word) : (s.setWord a w).linkCaps = s.linkCaps := by rfl
@[simp] theorem setWord_enabled (a : Nat) (w : Word) : (s.setWord a w).enabled = s.enabled := by rfl
@[simp] theorem setWord_waits (a : Nat) (w : Word) : (s.setWord a w).waits = s.waits := by rfl
@[simp] theorem setWord_ctxs (a : Nat) (w : Word) : (s.setWord a w).ctxs = s.ctxs := by rfl
@[simp] theorem setWord_plts (a : Nat) (w : Word) : (s.setWord a w).plts = s.plts := by rfl
@[simp] theorem setWord_pool (a : Nat) (w : Word) : (s.setWord a w).pool = s.pool := by rfl
@[simp] theorem setWord_flt (a : Nat) (w : Word) : (s.setWord a w).flt = s.flt := by rfl
@[simp] theorem setWord_saf (a : Nat) (w : Word) : (s.setWord a w).saf = s.saf := by rfl
@[simp] theorem setWord_pat (a : Nat) (w : Word) : (s.setWord a w).pat = s.pat := by rfl
@[simp] theorem setWord_mirrors (a : Nat) (w : Word) : (s.setWord a w).mirrors = s.mirrors := by rfl
@[simp] theorem setWord_mram (a : Nat) (w : Word) : (s.setWord a w).mram = s.mram := by rfl
@[simp] theorem setWord_pwr (a : Nat) (w : Word) : (s.setWord a w).pwr = s.pwr := by rfl
@[simp] theorem setWord_acq (a : Nat) (w : Word) : (s.setWord a w).acq = s.acq := by rfl
@[simp] theorem setWord_grd (a : Nat) (w : Word) : (s.setWord a w).grd = s.grd := by rfl
@[simp] theorem setWord_wins (a : Nat) (w : Word) : (s.setWord a w).wins = s.wins := by rfl
@[simp] theorem setWord_fab (a : Nat) (w : Word) : (s.setWord a w).fab = s.fab := by rfl
@[simp] theorem setWord_mtr (a : Nat) (w : Word) : (s.setWord a w).mtr = s.mtr := by rfl
@[simp] theorem setWord_ovl (a : Nat) (w : Word) : (s.setWord a w).ovl = s.ovl := by rfl
@[simp] theorem setWord_idn (a : Nat) (w : Word) : (s.setWord a w).idn = s.idn := by rfl
@[simp] theorem setWord_hrv (a : Nat) (w : Word) : (s.setWord a w).hrv = s.hrv := by rfl
@[simp] theorem setWord_can (a : Nat) (w : Word) : (s.setWord a w).can = s.can := by rfl
@[simp] theorem setWord_syncOut (a : Nat) (w : Word) : (s.setWord a w).syncOut = s.syncOut := by rfl

/-! ### put -/

@[simp] theorem put_pending (f : Field) (v : Nat) : (s.put f v).pending = s.pending := by rfl
@[simp] theorem put_part (f : Field) (v : Nat) : (s.put f v).part = s.part := by rfl
@[simp] theorem put_aq (f : Field) (v : Nat) : (s.put f v).aq = s.aq := by rfl
@[simp] theorem put_cyc (f : Field) (v : Nat) : (s.put f v).cyc = s.cyc := by rfl
@[simp] theorem put_tick (f : Field) (v : Nat) : (s.put f v).tick = s.tick := by rfl
@[simp] theorem put_telTick (f : Field) (v : Nat) : (s.put f v).telTick = s.telTick := by rfl
@[simp] theorem put_freeCtr (f : Field) (v : Nat) : (s.put f v).freeCtr = s.freeCtr := by rfl
@[simp] theorem put_host (f : Field) (v : Nat) : (s.put f v).host = s.host := by rfl
@[simp] theorem put_links (f : Field) (v : Nat) : (s.put f v).links = s.links := by rfl
@[simp] theorem put_dielets (f : Field) (v : Nat) : (s.put f v).dielets = s.dielets := by rfl
@[simp] theorem put_ledger (f : Field) (v : Nat) : (s.put f v).ledger = s.ledger := by rfl
@[simp] theorem put_ledgerSeq (f : Field) (v : Nat) : (s.put f v).ledgerSeq = s.ledgerSeq := by rfl
@[simp] theorem put_carriers (f : Field) (v : Nat) : (s.put f v).carriers = s.carriers := by rfl
@[simp] theorem put_fractions (f : Field) (v : Nat) : (s.put f v).fractions = s.fractions := by rfl
@[simp] theorem put_loadedPer (f : Field) (v : Nat) : (s.put f v).loadedPer = s.loadedPer := by rfl
@[simp] theorem put_linkCaps (f : Field) (v : Nat) : (s.put f v).linkCaps = s.linkCaps := by rfl
@[simp] theorem put_enabled (f : Field) (v : Nat) : (s.put f v).enabled = s.enabled := by rfl
@[simp] theorem put_waits (f : Field) (v : Nat) : (s.put f v).waits = s.waits := by rfl
@[simp] theorem put_ctxs (f : Field) (v : Nat) : (s.put f v).ctxs = s.ctxs := by rfl
@[simp] theorem put_plts (f : Field) (v : Nat) : (s.put f v).plts = s.plts := by rfl
@[simp] theorem put_pool (f : Field) (v : Nat) : (s.put f v).pool = s.pool := by rfl
@[simp] theorem put_flt (f : Field) (v : Nat) : (s.put f v).flt = s.flt := by rfl
@[simp] theorem put_saf (f : Field) (v : Nat) : (s.put f v).saf = s.saf := by rfl
@[simp] theorem put_pat (f : Field) (v : Nat) : (s.put f v).pat = s.pat := by rfl
@[simp] theorem put_mirrors (f : Field) (v : Nat) : (s.put f v).mirrors = s.mirrors := by rfl
@[simp] theorem put_mram (f : Field) (v : Nat) : (s.put f v).mram = s.mram := by rfl
@[simp] theorem put_pwr (f : Field) (v : Nat) : (s.put f v).pwr = s.pwr := by rfl
@[simp] theorem put_acq (f : Field) (v : Nat) : (s.put f v).acq = s.acq := by rfl
@[simp] theorem put_grd (f : Field) (v : Nat) : (s.put f v).grd = s.grd := by rfl
@[simp] theorem put_wins (f : Field) (v : Nat) : (s.put f v).wins = s.wins := by rfl
@[simp] theorem put_fab (f : Field) (v : Nat) : (s.put f v).fab = s.fab := by rfl
@[simp] theorem put_mtr (f : Field) (v : Nat) : (s.put f v).mtr = s.mtr := by rfl
@[simp] theorem put_ovl (f : Field) (v : Nat) : (s.put f v).ovl = s.ovl := by rfl
@[simp] theorem put_idn (f : Field) (v : Nat) : (s.put f v).idn = s.idn := by rfl
@[simp] theorem put_hrv (f : Field) (v : Nat) : (s.put f v).hrv = s.hrv := by rfl
@[simp] theorem put_can (f : Field) (v : Nat) : (s.put f v).can = s.can := by rfl
@[simp] theorem put_syncOut (f : Field) (v : Nat) : (s.put f v).syncOut = s.syncOut := by rfl

/-! ### flag -/

@[simp] theorem flag_pending (f : Field) (b : Bool) : (s.flag f b).pending = s.pending := by rfl
@[simp] theorem flag_part (f : Field) (b : Bool) : (s.flag f b).part = s.part := by rfl
@[simp] theorem flag_aq (f : Field) (b : Bool) : (s.flag f b).aq = s.aq := by rfl
@[simp] theorem flag_cyc (f : Field) (b : Bool) : (s.flag f b).cyc = s.cyc := by rfl
@[simp] theorem flag_tick (f : Field) (b : Bool) : (s.flag f b).tick = s.tick := by rfl
@[simp] theorem flag_telTick (f : Field) (b : Bool) : (s.flag f b).telTick = s.telTick := by rfl
@[simp] theorem flag_freeCtr (f : Field) (b : Bool) : (s.flag f b).freeCtr = s.freeCtr := by rfl
@[simp] theorem flag_host (f : Field) (b : Bool) : (s.flag f b).host = s.host := by rfl
@[simp] theorem flag_links (f : Field) (b : Bool) : (s.flag f b).links = s.links := by rfl
@[simp] theorem flag_dielets (f : Field) (b : Bool) : (s.flag f b).dielets = s.dielets := by rfl
@[simp] theorem flag_ledger (f : Field) (b : Bool) : (s.flag f b).ledger = s.ledger := by rfl
@[simp] theorem flag_ledgerSeq (f : Field) (b : Bool) : (s.flag f b).ledgerSeq = s.ledgerSeq := by rfl
@[simp] theorem flag_carriers (f : Field) (b : Bool) : (s.flag f b).carriers = s.carriers := by rfl
@[simp] theorem flag_fractions (f : Field) (b : Bool) : (s.flag f b).fractions = s.fractions := by rfl
@[simp] theorem flag_loadedPer (f : Field) (b : Bool) : (s.flag f b).loadedPer = s.loadedPer := by rfl
@[simp] theorem flag_linkCaps (f : Field) (b : Bool) : (s.flag f b).linkCaps = s.linkCaps := by rfl
@[simp] theorem flag_enabled (f : Field) (b : Bool) : (s.flag f b).enabled = s.enabled := by rfl
@[simp] theorem flag_waits (f : Field) (b : Bool) : (s.flag f b).waits = s.waits := by rfl
@[simp] theorem flag_ctxs (f : Field) (b : Bool) : (s.flag f b).ctxs = s.ctxs := by rfl
@[simp] theorem flag_plts (f : Field) (b : Bool) : (s.flag f b).plts = s.plts := by rfl
@[simp] theorem flag_pool (f : Field) (b : Bool) : (s.flag f b).pool = s.pool := by rfl
@[simp] theorem flag_flt (f : Field) (b : Bool) : (s.flag f b).flt = s.flt := by rfl
@[simp] theorem flag_saf (f : Field) (b : Bool) : (s.flag f b).saf = s.saf := by rfl
@[simp] theorem flag_pat (f : Field) (b : Bool) : (s.flag f b).pat = s.pat := by rfl
@[simp] theorem flag_mirrors (f : Field) (b : Bool) : (s.flag f b).mirrors = s.mirrors := by rfl
@[simp] theorem flag_mram (f : Field) (b : Bool) : (s.flag f b).mram = s.mram := by rfl
@[simp] theorem flag_pwr (f : Field) (b : Bool) : (s.flag f b).pwr = s.pwr := by rfl
@[simp] theorem flag_acq (f : Field) (b : Bool) : (s.flag f b).acq = s.acq := by rfl
@[simp] theorem flag_grd (f : Field) (b : Bool) : (s.flag f b).grd = s.grd := by rfl
@[simp] theorem flag_wins (f : Field) (b : Bool) : (s.flag f b).wins = s.wins := by rfl
@[simp] theorem flag_fab (f : Field) (b : Bool) : (s.flag f b).fab = s.fab := by rfl
@[simp] theorem flag_mtr (f : Field) (b : Bool) : (s.flag f b).mtr = s.mtr := by rfl
@[simp] theorem flag_ovl (f : Field) (b : Bool) : (s.flag f b).ovl = s.ovl := by rfl
@[simp] theorem flag_idn (f : Field) (b : Bool) : (s.flag f b).idn = s.idn := by rfl
@[simp] theorem flag_hrv (f : Field) (b : Bool) : (s.flag f b).hrv = s.hrv := by rfl
@[simp] theorem flag_can (f : Field) (b : Bool) : (s.flag f b).can = s.can := by rfl
@[simp] theorem flag_syncOut (f : Field) (b : Bool) : (s.flag f b).syncOut = s.syncOut := by rfl

/-! ### inc -/

@[simp] theorem inc_pending (f : Field) : (s.inc f).pending = s.pending := by rfl
@[simp] theorem inc_part (f : Field) : (s.inc f).part = s.part := by rfl
@[simp] theorem inc_aq (f : Field) : (s.inc f).aq = s.aq := by rfl
@[simp] theorem inc_cyc (f : Field) : (s.inc f).cyc = s.cyc := by rfl
@[simp] theorem inc_tick (f : Field) : (s.inc f).tick = s.tick := by rfl
@[simp] theorem inc_telTick (f : Field) : (s.inc f).telTick = s.telTick := by rfl
@[simp] theorem inc_freeCtr (f : Field) : (s.inc f).freeCtr = s.freeCtr := by rfl
@[simp] theorem inc_host (f : Field) : (s.inc f).host = s.host := by rfl
@[simp] theorem inc_links (f : Field) : (s.inc f).links = s.links := by rfl
@[simp] theorem inc_dielets (f : Field) : (s.inc f).dielets = s.dielets := by rfl
@[simp] theorem inc_ledger (f : Field) : (s.inc f).ledger = s.ledger := by rfl
@[simp] theorem inc_ledgerSeq (f : Field) : (s.inc f).ledgerSeq = s.ledgerSeq := by rfl
@[simp] theorem inc_carriers (f : Field) : (s.inc f).carriers = s.carriers := by rfl
@[simp] theorem inc_fractions (f : Field) : (s.inc f).fractions = s.fractions := by rfl
@[simp] theorem inc_loadedPer (f : Field) : (s.inc f).loadedPer = s.loadedPer := by rfl
@[simp] theorem inc_linkCaps (f : Field) : (s.inc f).linkCaps = s.linkCaps := by rfl
@[simp] theorem inc_enabled (f : Field) : (s.inc f).enabled = s.enabled := by rfl
@[simp] theorem inc_waits (f : Field) : (s.inc f).waits = s.waits := by rfl
@[simp] theorem inc_ctxs (f : Field) : (s.inc f).ctxs = s.ctxs := by rfl
@[simp] theorem inc_plts (f : Field) : (s.inc f).plts = s.plts := by rfl
@[simp] theorem inc_pool (f : Field) : (s.inc f).pool = s.pool := by rfl
@[simp] theorem inc_flt (f : Field) : (s.inc f).flt = s.flt := by rfl
@[simp] theorem inc_saf (f : Field) : (s.inc f).saf = s.saf := by rfl
@[simp] theorem inc_pat (f : Field) : (s.inc f).pat = s.pat := by rfl
@[simp] theorem inc_mirrors (f : Field) : (s.inc f).mirrors = s.mirrors := by rfl
@[simp] theorem inc_mram (f : Field) : (s.inc f).mram = s.mram := by rfl
@[simp] theorem inc_pwr (f : Field) : (s.inc f).pwr = s.pwr := by rfl
@[simp] theorem inc_acq (f : Field) : (s.inc f).acq = s.acq := by rfl
@[simp] theorem inc_grd (f : Field) : (s.inc f).grd = s.grd := by rfl
@[simp] theorem inc_wins (f : Field) : (s.inc f).wins = s.wins := by rfl
@[simp] theorem inc_fab (f : Field) : (s.inc f).fab = s.fab := by rfl
@[simp] theorem inc_mtr (f : Field) : (s.inc f).mtr = s.mtr := by rfl
@[simp] theorem inc_ovl (f : Field) : (s.inc f).ovl = s.ovl := by rfl
@[simp] theorem inc_idn (f : Field) : (s.inc f).idn = s.idn := by rfl
@[simp] theorem inc_hrv (f : Field) : (s.inc f).hrv = s.hrv := by rfl
@[simp] theorem inc_can (f : Field) : (s.inc f).can = s.can := by rfl
@[simp] theorem inc_syncOut (f : Field) : (s.inc f).syncOut = s.syncOut := by rfl

/-! ### incSat -/

@[simp] theorem incSat_pending (f : Field) : (s.incSat f).pending = s.pending := by rfl
@[simp] theorem incSat_part (f : Field) : (s.incSat f).part = s.part := by rfl
@[simp] theorem incSat_aq (f : Field) : (s.incSat f).aq = s.aq := by rfl
@[simp] theorem incSat_cyc (f : Field) : (s.incSat f).cyc = s.cyc := by rfl
@[simp] theorem incSat_tick (f : Field) : (s.incSat f).tick = s.tick := by rfl
@[simp] theorem incSat_telTick (f : Field) : (s.incSat f).telTick = s.telTick := by rfl
@[simp] theorem incSat_freeCtr (f : Field) : (s.incSat f).freeCtr = s.freeCtr := by rfl
@[simp] theorem incSat_host (f : Field) : (s.incSat f).host = s.host := by rfl
@[simp] theorem incSat_links (f : Field) : (s.incSat f).links = s.links := by rfl
@[simp] theorem incSat_dielets (f : Field) : (s.incSat f).dielets = s.dielets := by rfl
@[simp] theorem incSat_ledger (f : Field) : (s.incSat f).ledger = s.ledger := by rfl
@[simp] theorem incSat_ledgerSeq (f : Field) : (s.incSat f).ledgerSeq = s.ledgerSeq := by rfl
@[simp] theorem incSat_carriers (f : Field) : (s.incSat f).carriers = s.carriers := by rfl
@[simp] theorem incSat_fractions (f : Field) : (s.incSat f).fractions = s.fractions := by rfl
@[simp] theorem incSat_loadedPer (f : Field) : (s.incSat f).loadedPer = s.loadedPer := by rfl
@[simp] theorem incSat_linkCaps (f : Field) : (s.incSat f).linkCaps = s.linkCaps := by rfl
@[simp] theorem incSat_enabled (f : Field) : (s.incSat f).enabled = s.enabled := by rfl
@[simp] theorem incSat_waits (f : Field) : (s.incSat f).waits = s.waits := by rfl
@[simp] theorem incSat_ctxs (f : Field) : (s.incSat f).ctxs = s.ctxs := by rfl
@[simp] theorem incSat_plts (f : Field) : (s.incSat f).plts = s.plts := by rfl
@[simp] theorem incSat_pool (f : Field) : (s.incSat f).pool = s.pool := by rfl
@[simp] theorem incSat_flt (f : Field) : (s.incSat f).flt = s.flt := by rfl
@[simp] theorem incSat_saf (f : Field) : (s.incSat f).saf = s.saf := by rfl
@[simp] theorem incSat_pat (f : Field) : (s.incSat f).pat = s.pat := by rfl
@[simp] theorem incSat_mirrors (f : Field) : (s.incSat f).mirrors = s.mirrors := by rfl
@[simp] theorem incSat_mram (f : Field) : (s.incSat f).mram = s.mram := by rfl
@[simp] theorem incSat_pwr (f : Field) : (s.incSat f).pwr = s.pwr := by rfl
@[simp] theorem incSat_acq (f : Field) : (s.incSat f).acq = s.acq := by rfl
@[simp] theorem incSat_grd (f : Field) : (s.incSat f).grd = s.grd := by rfl
@[simp] theorem incSat_wins (f : Field) : (s.incSat f).wins = s.wins := by rfl
@[simp] theorem incSat_fab (f : Field) : (s.incSat f).fab = s.fab := by rfl
@[simp] theorem incSat_mtr (f : Field) : (s.incSat f).mtr = s.mtr := by rfl
@[simp] theorem incSat_ovl (f : Field) : (s.incSat f).ovl = s.ovl := by rfl
@[simp] theorem incSat_idn (f : Field) : (s.incSat f).idn = s.idn := by rfl
@[simp] theorem incSat_hrv (f : Field) : (s.incSat f).hrv = s.hrv := by rfl
@[simp] theorem incSat_can (f : Field) : (s.incSat f).can = s.can := by rfl
@[simp] theorem incSat_syncOut (f : Field) : (s.incSat f).syncOut = s.syncOut := by rfl

/-! ### sput -/

@[simp] theorem sput_pending (f : Field) (i : Int) : (s.sput f i).pending = s.pending := by rfl
@[simp] theorem sput_part (f : Field) (i : Int) : (s.sput f i).part = s.part := by rfl
@[simp] theorem sput_aq (f : Field) (i : Int) : (s.sput f i).aq = s.aq := by rfl
@[simp] theorem sput_cyc (f : Field) (i : Int) : (s.sput f i).cyc = s.cyc := by rfl
@[simp] theorem sput_tick (f : Field) (i : Int) : (s.sput f i).tick = s.tick := by rfl
@[simp] theorem sput_telTick (f : Field) (i : Int) : (s.sput f i).telTick = s.telTick := by rfl
@[simp] theorem sput_freeCtr (f : Field) (i : Int) : (s.sput f i).freeCtr = s.freeCtr := by rfl
@[simp] theorem sput_host (f : Field) (i : Int) : (s.sput f i).host = s.host := by rfl
@[simp] theorem sput_links (f : Field) (i : Int) : (s.sput f i).links = s.links := by rfl
@[simp] theorem sput_dielets (f : Field) (i : Int) : (s.sput f i).dielets = s.dielets := by rfl
@[simp] theorem sput_ledger (f : Field) (i : Int) : (s.sput f i).ledger = s.ledger := by rfl
@[simp] theorem sput_ledgerSeq (f : Field) (i : Int) : (s.sput f i).ledgerSeq = s.ledgerSeq := by rfl
@[simp] theorem sput_carriers (f : Field) (i : Int) : (s.sput f i).carriers = s.carriers := by rfl
@[simp] theorem sput_fractions (f : Field) (i : Int) : (s.sput f i).fractions = s.fractions := by rfl
@[simp] theorem sput_loadedPer (f : Field) (i : Int) : (s.sput f i).loadedPer = s.loadedPer := by rfl
@[simp] theorem sput_linkCaps (f : Field) (i : Int) : (s.sput f i).linkCaps = s.linkCaps := by rfl
@[simp] theorem sput_enabled (f : Field) (i : Int) : (s.sput f i).enabled = s.enabled := by rfl
@[simp] theorem sput_waits (f : Field) (i : Int) : (s.sput f i).waits = s.waits := by rfl
@[simp] theorem sput_ctxs (f : Field) (i : Int) : (s.sput f i).ctxs = s.ctxs := by rfl
@[simp] theorem sput_plts (f : Field) (i : Int) : (s.sput f i).plts = s.plts := by rfl
@[simp] theorem sput_pool (f : Field) (i : Int) : (s.sput f i).pool = s.pool := by rfl
@[simp] theorem sput_flt (f : Field) (i : Int) : (s.sput f i).flt = s.flt := by rfl
@[simp] theorem sput_saf (f : Field) (i : Int) : (s.sput f i).saf = s.saf := by rfl
@[simp] theorem sput_pat (f : Field) (i : Int) : (s.sput f i).pat = s.pat := by rfl
@[simp] theorem sput_mirrors (f : Field) (i : Int) : (s.sput f i).mirrors = s.mirrors := by rfl
@[simp] theorem sput_mram (f : Field) (i : Int) : (s.sput f i).mram = s.mram := by rfl
@[simp] theorem sput_pwr (f : Field) (i : Int) : (s.sput f i).pwr = s.pwr := by rfl
@[simp] theorem sput_acq (f : Field) (i : Int) : (s.sput f i).acq = s.acq := by rfl
@[simp] theorem sput_grd (f : Field) (i : Int) : (s.sput f i).grd = s.grd := by rfl
@[simp] theorem sput_wins (f : Field) (i : Int) : (s.sput f i).wins = s.wins := by rfl
@[simp] theorem sput_fab (f : Field) (i : Int) : (s.sput f i).fab = s.fab := by rfl
@[simp] theorem sput_mtr (f : Field) (i : Int) : (s.sput f i).mtr = s.mtr := by rfl
@[simp] theorem sput_ovl (f : Field) (i : Int) : (s.sput f i).ovl = s.ovl := by rfl
@[simp] theorem sput_idn (f : Field) (i : Int) : (s.sput f i).idn = s.idn := by rfl
@[simp] theorem sput_hrv (f : Field) (i : Int) : (s.sput f i).hrv = s.hrv := by rfl
@[simp] theorem sput_can (f : Field) (i : Int) : (s.sput f i).can = s.can := by rfl
@[simp] theorem sput_syncOut (f : Field) (i : Int) : (s.sput f i).syncOut = s.syncOut := by rfl

/-! ### keepRegs -/

@[simp] theorem keepRegs_pending (p : Nat → Bool) : (s.keepRegs p).pending = s.pending := by rfl
@[simp] theorem keepRegs_part (p : Nat → Bool) : (s.keepRegs p).part = s.part := by rfl
@[simp] theorem keepRegs_aq (p : Nat → Bool) : (s.keepRegs p).aq = s.aq := by rfl
@[simp] theorem keepRegs_cyc (p : Nat → Bool) : (s.keepRegs p).cyc = s.cyc := by rfl
@[simp] theorem keepRegs_tick (p : Nat → Bool) : (s.keepRegs p).tick = s.tick := by rfl
@[simp] theorem keepRegs_telTick (p : Nat → Bool) : (s.keepRegs p).telTick = s.telTick := by rfl
@[simp] theorem keepRegs_freeCtr (p : Nat → Bool) : (s.keepRegs p).freeCtr = s.freeCtr := by rfl
@[simp] theorem keepRegs_host (p : Nat → Bool) : (s.keepRegs p).host = s.host := by rfl
@[simp] theorem keepRegs_links (p : Nat → Bool) : (s.keepRegs p).links = s.links := by rfl
@[simp] theorem keepRegs_dielets (p : Nat → Bool) : (s.keepRegs p).dielets = s.dielets := by rfl
@[simp] theorem keepRegs_ledger (p : Nat → Bool) : (s.keepRegs p).ledger = s.ledger := by rfl
@[simp] theorem keepRegs_ledgerSeq (p : Nat → Bool) : (s.keepRegs p).ledgerSeq = s.ledgerSeq := by rfl
@[simp] theorem keepRegs_carriers (p : Nat → Bool) : (s.keepRegs p).carriers = s.carriers := by rfl
@[simp] theorem keepRegs_fractions (p : Nat → Bool) : (s.keepRegs p).fractions = s.fractions := by rfl
@[simp] theorem keepRegs_loadedPer (p : Nat → Bool) : (s.keepRegs p).loadedPer = s.loadedPer := by rfl
@[simp] theorem keepRegs_linkCaps (p : Nat → Bool) : (s.keepRegs p).linkCaps = s.linkCaps := by rfl
@[simp] theorem keepRegs_enabled (p : Nat → Bool) : (s.keepRegs p).enabled = s.enabled := by rfl
@[simp] theorem keepRegs_waits (p : Nat → Bool) : (s.keepRegs p).waits = s.waits := by rfl
@[simp] theorem keepRegs_ctxs (p : Nat → Bool) : (s.keepRegs p).ctxs = s.ctxs := by rfl
@[simp] theorem keepRegs_plts (p : Nat → Bool) : (s.keepRegs p).plts = s.plts := by rfl
@[simp] theorem keepRegs_pool (p : Nat → Bool) : (s.keepRegs p).pool = s.pool := by rfl
@[simp] theorem keepRegs_flt (p : Nat → Bool) : (s.keepRegs p).flt = s.flt := by rfl
@[simp] theorem keepRegs_saf (p : Nat → Bool) : (s.keepRegs p).saf = s.saf := by rfl
@[simp] theorem keepRegs_pat (p : Nat → Bool) : (s.keepRegs p).pat = s.pat := by rfl
@[simp] theorem keepRegs_mirrors (p : Nat → Bool) : (s.keepRegs p).mirrors = s.mirrors := by rfl
@[simp] theorem keepRegs_mram (p : Nat → Bool) : (s.keepRegs p).mram = s.mram := by rfl
@[simp] theorem keepRegs_pwr (p : Nat → Bool) : (s.keepRegs p).pwr = s.pwr := by rfl
@[simp] theorem keepRegs_acq (p : Nat → Bool) : (s.keepRegs p).acq = s.acq := by rfl
@[simp] theorem keepRegs_grd (p : Nat → Bool) : (s.keepRegs p).grd = s.grd := by rfl
@[simp] theorem keepRegs_wins (p : Nat → Bool) : (s.keepRegs p).wins = s.wins := by rfl
@[simp] theorem keepRegs_fab (p : Nat → Bool) : (s.keepRegs p).fab = s.fab := by rfl
@[simp] theorem keepRegs_mtr (p : Nat → Bool) : (s.keepRegs p).mtr = s.mtr := by rfl
@[simp] theorem keepRegs_ovl (p : Nat → Bool) : (s.keepRegs p).ovl = s.ovl := by rfl
@[simp] theorem keepRegs_idn (p : Nat → Bool) : (s.keepRegs p).idn = s.idn := by rfl
@[simp] theorem keepRegs_hrv (p : Nat → Bool) : (s.keepRegs p).hrv = s.hrv := by rfl
@[simp] theorem keepRegs_can (p : Nat → Bool) : (s.keepRegs p).can = s.can := by rfl
@[simp] theorem keepRegs_syncOut (p : Nat → Bool) : (s.keepRegs p).syncOut = s.syncOut := by rfl

/-! ### dropRegs -/

@[simp] theorem dropRegs_pending (lo hi : Nat) : (s.dropRegs lo hi).pending = s.pending := by rfl
@[simp] theorem dropRegs_part (lo hi : Nat) : (s.dropRegs lo hi).part = s.part := by rfl
@[simp] theorem dropRegs_aq (lo hi : Nat) : (s.dropRegs lo hi).aq = s.aq := by rfl
@[simp] theorem dropRegs_cyc (lo hi : Nat) : (s.dropRegs lo hi).cyc = s.cyc := by rfl
@[simp] theorem dropRegs_tick (lo hi : Nat) : (s.dropRegs lo hi).tick = s.tick := by rfl
@[simp] theorem dropRegs_telTick (lo hi : Nat) : (s.dropRegs lo hi).telTick = s.telTick := by rfl
@[simp] theorem dropRegs_freeCtr (lo hi : Nat) : (s.dropRegs lo hi).freeCtr = s.freeCtr := by rfl
@[simp] theorem dropRegs_host (lo hi : Nat) : (s.dropRegs lo hi).host = s.host := by rfl
@[simp] theorem dropRegs_links (lo hi : Nat) : (s.dropRegs lo hi).links = s.links := by rfl
@[simp] theorem dropRegs_dielets (lo hi : Nat) : (s.dropRegs lo hi).dielets = s.dielets := by rfl
@[simp] theorem dropRegs_ledger (lo hi : Nat) : (s.dropRegs lo hi).ledger = s.ledger := by rfl
@[simp] theorem dropRegs_ledgerSeq (lo hi : Nat) : (s.dropRegs lo hi).ledgerSeq = s.ledgerSeq := by rfl
@[simp] theorem dropRegs_carriers (lo hi : Nat) : (s.dropRegs lo hi).carriers = s.carriers := by rfl
@[simp] theorem dropRegs_fractions (lo hi : Nat) : (s.dropRegs lo hi).fractions = s.fractions := by rfl
@[simp] theorem dropRegs_loadedPer (lo hi : Nat) : (s.dropRegs lo hi).loadedPer = s.loadedPer := by rfl
@[simp] theorem dropRegs_linkCaps (lo hi : Nat) : (s.dropRegs lo hi).linkCaps = s.linkCaps := by rfl
@[simp] theorem dropRegs_enabled (lo hi : Nat) : (s.dropRegs lo hi).enabled = s.enabled := by rfl
@[simp] theorem dropRegs_waits (lo hi : Nat) : (s.dropRegs lo hi).waits = s.waits := by rfl
@[simp] theorem dropRegs_ctxs (lo hi : Nat) : (s.dropRegs lo hi).ctxs = s.ctxs := by rfl
@[simp] theorem dropRegs_plts (lo hi : Nat) : (s.dropRegs lo hi).plts = s.plts := by rfl
@[simp] theorem dropRegs_pool (lo hi : Nat) : (s.dropRegs lo hi).pool = s.pool := by rfl
@[simp] theorem dropRegs_flt (lo hi : Nat) : (s.dropRegs lo hi).flt = s.flt := by rfl
@[simp] theorem dropRegs_saf (lo hi : Nat) : (s.dropRegs lo hi).saf = s.saf := by rfl
@[simp] theorem dropRegs_pat (lo hi : Nat) : (s.dropRegs lo hi).pat = s.pat := by rfl
@[simp] theorem dropRegs_mirrors (lo hi : Nat) : (s.dropRegs lo hi).mirrors = s.mirrors := by rfl
@[simp] theorem dropRegs_mram (lo hi : Nat) : (s.dropRegs lo hi).mram = s.mram := by rfl
@[simp] theorem dropRegs_pwr (lo hi : Nat) : (s.dropRegs lo hi).pwr = s.pwr := by rfl
@[simp] theorem dropRegs_acq (lo hi : Nat) : (s.dropRegs lo hi).acq = s.acq := by rfl
@[simp] theorem dropRegs_grd (lo hi : Nat) : (s.dropRegs lo hi).grd = s.grd := by rfl
@[simp] theorem dropRegs_wins (lo hi : Nat) : (s.dropRegs lo hi).wins = s.wins := by rfl
@[simp] theorem dropRegs_fab (lo hi : Nat) : (s.dropRegs lo hi).fab = s.fab := by rfl
@[simp] theorem dropRegs_mtr (lo hi : Nat) : (s.dropRegs lo hi).mtr = s.mtr := by rfl
@[simp] theorem dropRegs_ovl (lo hi : Nat) : (s.dropRegs lo hi).ovl = s.ovl := by rfl
@[simp] theorem dropRegs_idn (lo hi : Nat) : (s.dropRegs lo hi).idn = s.idn := by rfl
@[simp] theorem dropRegs_hrv (lo hi : Nat) : (s.dropRegs lo hi).hrv = s.hrv := by rfl
@[simp] theorem dropRegs_can (lo hi : Nat) : (s.dropRegs lo hi).can = s.can := by rfl
@[simp] theorem dropRegs_syncOut (lo hi : Nat) : (s.dropRegs lo hi).syncOut = s.syncOut := by rfl

/-! ### pass -/

@[simp] theorem pass_pending (n : Nat) : (pass s n).pending = s.pending := by rfl
@[simp] theorem pass_part (n : Nat) : (pass s n).part = s.part := by rfl
@[simp] theorem pass_aq (n : Nat) : (pass s n).aq = s.aq := by rfl
@[simp] theorem pass_regs (n : Nat) : (pass s n).regs = s.regs := by rfl
@[simp] theorem pass_tick (n : Nat) : (pass s n).tick = s.tick := by rfl
@[simp] theorem pass_telTick (n : Nat) : (pass s n).telTick = s.telTick := by rfl
@[simp] theorem pass_freeCtr (n : Nat) : (pass s n).freeCtr = s.freeCtr := by rfl
@[simp] theorem pass_host (n : Nat) : (pass s n).host = s.host := by rfl
@[simp] theorem pass_links (n : Nat) : (pass s n).links = s.links := by rfl
@[simp] theorem pass_dielets (n : Nat) : (pass s n).dielets = s.dielets := by rfl
@[simp] theorem pass_ledger (n : Nat) : (pass s n).ledger = s.ledger := by rfl
@[simp] theorem pass_ledgerSeq (n : Nat) : (pass s n).ledgerSeq = s.ledgerSeq := by rfl
@[simp] theorem pass_carriers (n : Nat) : (pass s n).carriers = s.carriers := by rfl
@[simp] theorem pass_fractions (n : Nat) : (pass s n).fractions = s.fractions := by rfl
@[simp] theorem pass_loadedPer (n : Nat) : (pass s n).loadedPer = s.loadedPer := by rfl
@[simp] theorem pass_linkCaps (n : Nat) : (pass s n).linkCaps = s.linkCaps := by rfl
@[simp] theorem pass_enabled (n : Nat) : (pass s n).enabled = s.enabled := by rfl
@[simp] theorem pass_waits (n : Nat) : (pass s n).waits = s.waits := by rfl
@[simp] theorem pass_ctxs (n : Nat) : (pass s n).ctxs = s.ctxs := by rfl
@[simp] theorem pass_plts (n : Nat) : (pass s n).plts = s.plts := by rfl
@[simp] theorem pass_pool (n : Nat) : (pass s n).pool = s.pool := by rfl
@[simp] theorem pass_flt (n : Nat) : (pass s n).flt = s.flt := by rfl
@[simp] theorem pass_saf (n : Nat) : (pass s n).saf = s.saf := by rfl
@[simp] theorem pass_pat (n : Nat) : (pass s n).pat = s.pat := by rfl
@[simp] theorem pass_mirrors (n : Nat) : (pass s n).mirrors = s.mirrors := by rfl
@[simp] theorem pass_mram (n : Nat) : (pass s n).mram = s.mram := by rfl
@[simp] theorem pass_pwr (n : Nat) : (pass s n).pwr = s.pwr := by rfl
@[simp] theorem pass_acq (n : Nat) : (pass s n).acq = s.acq := by rfl
@[simp] theorem pass_grd (n : Nat) : (pass s n).grd = s.grd := by rfl
@[simp] theorem pass_wins (n : Nat) : (pass s n).wins = s.wins := by rfl
@[simp] theorem pass_fab (n : Nat) : (pass s n).fab = s.fab := by rfl
@[simp] theorem pass_mtr (n : Nat) : (pass s n).mtr = s.mtr := by rfl
@[simp] theorem pass_ovl (n : Nat) : (pass s n).ovl = s.ovl := by rfl
@[simp] theorem pass_idn (n : Nat) : (pass s n).idn = s.idn := by rfl
@[simp] theorem pass_hrv (n : Nat) : (pass s n).hrv = s.hrv := by rfl
@[simp] theorem pass_can (n : Nat) : (pass s n).can = s.can := by rfl
@[simp] theorem pass_syncOut (n : Nat) : (pass s n).syncOut = s.syncOut := by rfl

/-! ### freeNext -/

@[simp] theorem freeNext_pending : (freeNext s).pending = s.pending := by rfl
@[simp] theorem freeNext_part : (freeNext s).part = s.part := by rfl
@[simp] theorem freeNext_aq : (freeNext s).aq = s.aq := by rfl
@[simp] theorem freeNext_regs : (freeNext s).regs = s.regs := by rfl
@[simp] theorem freeNext_cyc : (freeNext s).cyc = s.cyc := by rfl
@[simp] theorem freeNext_tick : (freeNext s).tick = s.tick := by rfl
@[simp] theorem freeNext_telTick : (freeNext s).telTick = s.telTick := by rfl
@[simp] theorem freeNext_host : (freeNext s).host = s.host := by rfl
@[simp] theorem freeNext_links : (freeNext s).links = s.links := by rfl
@[simp] theorem freeNext_dielets : (freeNext s).dielets = s.dielets := by rfl
@[simp] theorem freeNext_ledger : (freeNext s).ledger = s.ledger := by rfl
@[simp] theorem freeNext_ledgerSeq : (freeNext s).ledgerSeq = s.ledgerSeq := by rfl
@[simp] theorem freeNext_carriers : (freeNext s).carriers = s.carriers := by rfl
@[simp] theorem freeNext_fractions : (freeNext s).fractions = s.fractions := by rfl
@[simp] theorem freeNext_loadedPer : (freeNext s).loadedPer = s.loadedPer := by rfl
@[simp] theorem freeNext_linkCaps : (freeNext s).linkCaps = s.linkCaps := by rfl
@[simp] theorem freeNext_enabled : (freeNext s).enabled = s.enabled := by rfl
@[simp] theorem freeNext_waits : (freeNext s).waits = s.waits := by rfl
@[simp] theorem freeNext_ctxs : (freeNext s).ctxs = s.ctxs := by rfl
@[simp] theorem freeNext_plts : (freeNext s).plts = s.plts := by rfl
@[simp] theorem freeNext_pool : (freeNext s).pool = s.pool := by rfl
@[simp] theorem freeNext_flt : (freeNext s).flt = s.flt := by rfl
@[simp] theorem freeNext_saf : (freeNext s).saf = s.saf := by rfl
@[simp] theorem freeNext_pat : (freeNext s).pat = s.pat := by rfl
@[simp] theorem freeNext_mirrors : (freeNext s).mirrors = s.mirrors := by rfl
@[simp] theorem freeNext_mram : (freeNext s).mram = s.mram := by rfl
@[simp] theorem freeNext_pwr : (freeNext s).pwr = s.pwr := by rfl
@[simp] theorem freeNext_acq : (freeNext s).acq = s.acq := by rfl
@[simp] theorem freeNext_grd : (freeNext s).grd = s.grd := by rfl
@[simp] theorem freeNext_wins : (freeNext s).wins = s.wins := by rfl
@[simp] theorem freeNext_fab : (freeNext s).fab = s.fab := by rfl
@[simp] theorem freeNext_mtr : (freeNext s).mtr = s.mtr := by rfl
@[simp] theorem freeNext_ovl : (freeNext s).ovl = s.ovl := by rfl
@[simp] theorem freeNext_idn : (freeNext s).idn = s.idn := by rfl
@[simp] theorem freeNext_hrv : (freeNext s).hrv = s.hrv := by rfl
@[simp] theorem freeNext_can : (freeNext s).can = s.can := by rfl
@[simp] theorem freeNext_syncOut : (freeNext s).syncOut = s.syncOut := by rfl

/-! ### setLink -/

@[simp] theorem setLink_pending (n : Nat) (l : LinkEnd) : (setLink s n l).pending = s.pending := by rfl
@[simp] theorem setLink_part (n : Nat) (l : LinkEnd) : (setLink s n l).part = s.part := by rfl
@[simp] theorem setLink_aq (n : Nat) (l : LinkEnd) : (setLink s n l).aq = s.aq := by rfl
@[simp] theorem setLink_regs (n : Nat) (l : LinkEnd) : (setLink s n l).regs = s.regs := by rfl
@[simp] theorem setLink_cyc (n : Nat) (l : LinkEnd) : (setLink s n l).cyc = s.cyc := by rfl
@[simp] theorem setLink_tick (n : Nat) (l : LinkEnd) : (setLink s n l).tick = s.tick := by rfl
@[simp] theorem setLink_telTick (n : Nat) (l : LinkEnd) : (setLink s n l).telTick = s.telTick := by rfl
@[simp] theorem setLink_freeCtr (n : Nat) (l : LinkEnd) : (setLink s n l).freeCtr = s.freeCtr := by rfl
@[simp] theorem setLink_host (n : Nat) (l : LinkEnd) : (setLink s n l).host = s.host := by rfl
@[simp] theorem setLink_dielets (n : Nat) (l : LinkEnd) : (setLink s n l).dielets = s.dielets := by rfl
@[simp] theorem setLink_ledger (n : Nat) (l : LinkEnd) : (setLink s n l).ledger = s.ledger := by rfl
@[simp] theorem setLink_ledgerSeq (n : Nat) (l : LinkEnd) : (setLink s n l).ledgerSeq = s.ledgerSeq := by rfl
@[simp] theorem setLink_carriers (n : Nat) (l : LinkEnd) : (setLink s n l).carriers = s.carriers := by rfl
@[simp] theorem setLink_fractions (n : Nat) (l : LinkEnd) : (setLink s n l).fractions = s.fractions := by rfl
@[simp] theorem setLink_loadedPer (n : Nat) (l : LinkEnd) : (setLink s n l).loadedPer = s.loadedPer := by rfl
@[simp] theorem setLink_linkCaps (n : Nat) (l : LinkEnd) : (setLink s n l).linkCaps = s.linkCaps := by rfl
@[simp] theorem setLink_enabled (n : Nat) (l : LinkEnd) : (setLink s n l).enabled = s.enabled := by rfl
@[simp] theorem setLink_waits (n : Nat) (l : LinkEnd) : (setLink s n l).waits = s.waits := by rfl
@[simp] theorem setLink_ctxs (n : Nat) (l : LinkEnd) : (setLink s n l).ctxs = s.ctxs := by rfl
@[simp] theorem setLink_plts (n : Nat) (l : LinkEnd) : (setLink s n l).plts = s.plts := by rfl
@[simp] theorem setLink_pool (n : Nat) (l : LinkEnd) : (setLink s n l).pool = s.pool := by rfl
@[simp] theorem setLink_flt (n : Nat) (l : LinkEnd) : (setLink s n l).flt = s.flt := by rfl
@[simp] theorem setLink_saf (n : Nat) (l : LinkEnd) : (setLink s n l).saf = s.saf := by rfl
@[simp] theorem setLink_pat (n : Nat) (l : LinkEnd) : (setLink s n l).pat = s.pat := by rfl
@[simp] theorem setLink_mirrors (n : Nat) (l : LinkEnd) : (setLink s n l).mirrors = s.mirrors := by rfl
@[simp] theorem setLink_mram (n : Nat) (l : LinkEnd) : (setLink s n l).mram = s.mram := by rfl
@[simp] theorem setLink_pwr (n : Nat) (l : LinkEnd) : (setLink s n l).pwr = s.pwr := by rfl
@[simp] theorem setLink_acq (n : Nat) (l : LinkEnd) : (setLink s n l).acq = s.acq := by rfl
@[simp] theorem setLink_grd (n : Nat) (l : LinkEnd) : (setLink s n l).grd = s.grd := by rfl
@[simp] theorem setLink_wins (n : Nat) (l : LinkEnd) : (setLink s n l).wins = s.wins := by rfl
@[simp] theorem setLink_fab (n : Nat) (l : LinkEnd) : (setLink s n l).fab = s.fab := by rfl
@[simp] theorem setLink_mtr (n : Nat) (l : LinkEnd) : (setLink s n l).mtr = s.mtr := by rfl
@[simp] theorem setLink_ovl (n : Nat) (l : LinkEnd) : (setLink s n l).ovl = s.ovl := by rfl
@[simp] theorem setLink_idn (n : Nat) (l : LinkEnd) : (setLink s n l).idn = s.idn := by rfl
@[simp] theorem setLink_hrv (n : Nat) (l : LinkEnd) : (setLink s n l).hrv = s.hrv := by rfl
@[simp] theorem setLink_can (n : Nat) (l : LinkEnd) : (setLink s n l).can = s.can := by rfl
@[simp] theorem setLink_syncOut (n : Nat) (l : LinkEnd) : (setLink s n l).syncOut = s.syncOut := by rfl

/-! ### setDielet -/

@[simp] theorem setDielet_pending (n : Nat) (d : Dielet) : (setDielet s n d).pending = s.pending := by rfl
@[simp] theorem setDielet_part (n : Nat) (d : Dielet) : (setDielet s n d).part = s.part := by rfl
@[simp] theorem setDielet_aq (n : Nat) (d : Dielet) : (setDielet s n d).aq = s.aq := by rfl
@[simp] theorem setDielet_regs (n : Nat) (d : Dielet) : (setDielet s n d).regs = s.regs := by rfl
@[simp] theorem setDielet_cyc (n : Nat) (d : Dielet) : (setDielet s n d).cyc = s.cyc := by rfl
@[simp] theorem setDielet_tick (n : Nat) (d : Dielet) : (setDielet s n d).tick = s.tick := by rfl
@[simp] theorem setDielet_telTick (n : Nat) (d : Dielet) : (setDielet s n d).telTick = s.telTick := by rfl
@[simp] theorem setDielet_freeCtr (n : Nat) (d : Dielet) : (setDielet s n d).freeCtr = s.freeCtr := by rfl
@[simp] theorem setDielet_host (n : Nat) (d : Dielet) : (setDielet s n d).host = s.host := by rfl
@[simp] theorem setDielet_links (n : Nat) (d : Dielet) : (setDielet s n d).links = s.links := by rfl
@[simp] theorem setDielet_ledger (n : Nat) (d : Dielet) : (setDielet s n d).ledger = s.ledger := by rfl
@[simp] theorem setDielet_ledgerSeq (n : Nat) (d : Dielet) : (setDielet s n d).ledgerSeq = s.ledgerSeq := by rfl
@[simp] theorem setDielet_carriers (n : Nat) (d : Dielet) : (setDielet s n d).carriers = s.carriers := by rfl
@[simp] theorem setDielet_fractions (n : Nat) (d : Dielet) : (setDielet s n d).fractions = s.fractions := by rfl
@[simp] theorem setDielet_loadedPer (n : Nat) (d : Dielet) : (setDielet s n d).loadedPer = s.loadedPer := by rfl
@[simp] theorem setDielet_linkCaps (n : Nat) (d : Dielet) : (setDielet s n d).linkCaps = s.linkCaps := by rfl
@[simp] theorem setDielet_enabled (n : Nat) (d : Dielet) : (setDielet s n d).enabled = s.enabled := by rfl
@[simp] theorem setDielet_waits (n : Nat) (d : Dielet) : (setDielet s n d).waits = s.waits := by rfl
@[simp] theorem setDielet_ctxs (n : Nat) (d : Dielet) : (setDielet s n d).ctxs = s.ctxs := by rfl
@[simp] theorem setDielet_plts (n : Nat) (d : Dielet) : (setDielet s n d).plts = s.plts := by rfl
@[simp] theorem setDielet_pool (n : Nat) (d : Dielet) : (setDielet s n d).pool = s.pool := by rfl
@[simp] theorem setDielet_flt (n : Nat) (d : Dielet) : (setDielet s n d).flt = s.flt := by rfl
@[simp] theorem setDielet_saf (n : Nat) (d : Dielet) : (setDielet s n d).saf = s.saf := by rfl
@[simp] theorem setDielet_pat (n : Nat) (d : Dielet) : (setDielet s n d).pat = s.pat := by rfl
@[simp] theorem setDielet_mirrors (n : Nat) (d : Dielet) : (setDielet s n d).mirrors = s.mirrors := by rfl
@[simp] theorem setDielet_mram (n : Nat) (d : Dielet) : (setDielet s n d).mram = s.mram := by rfl
@[simp] theorem setDielet_pwr (n : Nat) (d : Dielet) : (setDielet s n d).pwr = s.pwr := by rfl
@[simp] theorem setDielet_acq (n : Nat) (d : Dielet) : (setDielet s n d).acq = s.acq := by rfl
@[simp] theorem setDielet_grd (n : Nat) (d : Dielet) : (setDielet s n d).grd = s.grd := by rfl
@[simp] theorem setDielet_wins (n : Nat) (d : Dielet) : (setDielet s n d).wins = s.wins := by rfl
@[simp] theorem setDielet_fab (n : Nat) (d : Dielet) : (setDielet s n d).fab = s.fab := by rfl
@[simp] theorem setDielet_mtr (n : Nat) (d : Dielet) : (setDielet s n d).mtr = s.mtr := by rfl
@[simp] theorem setDielet_ovl (n : Nat) (d : Dielet) : (setDielet s n d).ovl = s.ovl := by rfl
@[simp] theorem setDielet_idn (n : Nat) (d : Dielet) : (setDielet s n d).idn = s.idn := by rfl
@[simp] theorem setDielet_hrv (n : Nat) (d : Dielet) : (setDielet s n d).hrv = s.hrv := by rfl
@[simp] theorem setDielet_can (n : Nat) (d : Dielet) : (setDielet s n d).can = s.can := by rfl
@[simp] theorem setDielet_syncOut (n : Nat) (d : Dielet) : (setDielet s n d).syncOut = s.syncOut := by rfl

/-! ### setDetector -/

@[simp] theorem setDetector_pending (k : Nat) (d : Detector) : (setDetector s k d).pending = s.pending := by rfl
@[simp] theorem setDetector_part (k : Nat) (d : Detector) : (setDetector s k d).part = s.part := by rfl
@[simp] theorem setDetector_aq (k : Nat) (d : Detector) : (setDetector s k d).aq = s.aq := by rfl
@[simp] theorem setDetector_regs (k : Nat) (d : Detector) : (setDetector s k d).regs = s.regs := by rfl
@[simp] theorem setDetector_cyc (k : Nat) (d : Detector) : (setDetector s k d).cyc = s.cyc := by rfl
@[simp] theorem setDetector_tick (k : Nat) (d : Detector) : (setDetector s k d).tick = s.tick := by rfl
@[simp] theorem setDetector_telTick (k : Nat) (d : Detector) : (setDetector s k d).telTick = s.telTick := by rfl
@[simp] theorem setDetector_freeCtr (k : Nat) (d : Detector) : (setDetector s k d).freeCtr = s.freeCtr := by rfl
@[simp] theorem setDetector_host (k : Nat) (d : Detector) : (setDetector s k d).host = s.host := by rfl
@[simp] theorem setDetector_links (k : Nat) (d : Detector) : (setDetector s k d).links = s.links := by rfl
@[simp] theorem setDetector_dielets (k : Nat) (d : Detector) : (setDetector s k d).dielets = s.dielets := by rfl
@[simp] theorem setDetector_ledger (k : Nat) (d : Detector) : (setDetector s k d).ledger = s.ledger := by rfl
@[simp] theorem setDetector_ledgerSeq (k : Nat) (d : Detector) : (setDetector s k d).ledgerSeq = s.ledgerSeq := by rfl
@[simp] theorem setDetector_carriers (k : Nat) (d : Detector) : (setDetector s k d).carriers = s.carriers := by rfl
@[simp] theorem setDetector_fractions (k : Nat) (d : Detector) : (setDetector s k d).fractions = s.fractions := by rfl
@[simp] theorem setDetector_loadedPer (k : Nat) (d : Detector) : (setDetector s k d).loadedPer = s.loadedPer := by rfl
@[simp] theorem setDetector_linkCaps (k : Nat) (d : Detector) : (setDetector s k d).linkCaps = s.linkCaps := by rfl
@[simp] theorem setDetector_enabled (k : Nat) (d : Detector) : (setDetector s k d).enabled = s.enabled := by rfl
@[simp] theorem setDetector_waits (k : Nat) (d : Detector) : (setDetector s k d).waits = s.waits := by rfl
@[simp] theorem setDetector_ctxs (k : Nat) (d : Detector) : (setDetector s k d).ctxs = s.ctxs := by rfl
@[simp] theorem setDetector_plts (k : Nat) (d : Detector) : (setDetector s k d).plts = s.plts := by rfl
@[simp] theorem setDetector_pool (k : Nat) (d : Detector) : (setDetector s k d).pool = s.pool := by rfl
@[simp] theorem setDetector_saf (k : Nat) (d : Detector) : (setDetector s k d).saf = s.saf := by rfl
@[simp] theorem setDetector_pat (k : Nat) (d : Detector) : (setDetector s k d).pat = s.pat := by rfl
@[simp] theorem setDetector_mirrors (k : Nat) (d : Detector) : (setDetector s k d).mirrors = s.mirrors := by rfl
@[simp] theorem setDetector_mram (k : Nat) (d : Detector) : (setDetector s k d).mram = s.mram := by rfl
@[simp] theorem setDetector_pwr (k : Nat) (d : Detector) : (setDetector s k d).pwr = s.pwr := by rfl
@[simp] theorem setDetector_acq (k : Nat) (d : Detector) : (setDetector s k d).acq = s.acq := by rfl
@[simp] theorem setDetector_grd (k : Nat) (d : Detector) : (setDetector s k d).grd = s.grd := by rfl
@[simp] theorem setDetector_wins (k : Nat) (d : Detector) : (setDetector s k d).wins = s.wins := by rfl
@[simp] theorem setDetector_fab (k : Nat) (d : Detector) : (setDetector s k d).fab = s.fab := by rfl
@[simp] theorem setDetector_mtr (k : Nat) (d : Detector) : (setDetector s k d).mtr = s.mtr := by rfl
@[simp] theorem setDetector_ovl (k : Nat) (d : Detector) : (setDetector s k d).ovl = s.ovl := by rfl
@[simp] theorem setDetector_idn (k : Nat) (d : Detector) : (setDetector s k d).idn = s.idn := by rfl
@[simp] theorem setDetector_hrv (k : Nat) (d : Detector) : (setDetector s k d).hrv = s.hrv := by rfl
@[simp] theorem setDetector_can (k : Nat) (d : Detector) : (setDetector s k d).can = s.can := by rfl
@[simp] theorem setDetector_syncOut (k : Nat) (d : Detector) : (setDetector s k d).syncOut = s.syncOut := by rfl

/-! ### setBleedSt -/

@[simp] theorem setBleedSt_pending (n : Nat) (b : BleedSt) : (setBleedSt s n b).pending = s.pending := by rfl
@[simp] theorem setBleedSt_part (n : Nat) (b : BleedSt) : (setBleedSt s n b).part = s.part := by rfl
@[simp] theorem setBleedSt_aq (n : Nat) (b : BleedSt) : (setBleedSt s n b).aq = s.aq := by rfl
@[simp] theorem setBleedSt_regs (n : Nat) (b : BleedSt) : (setBleedSt s n b).regs = s.regs := by rfl
@[simp] theorem setBleedSt_cyc (n : Nat) (b : BleedSt) : (setBleedSt s n b).cyc = s.cyc := by rfl
@[simp] theorem setBleedSt_tick (n : Nat) (b : BleedSt) : (setBleedSt s n b).tick = s.tick := by rfl
@[simp] theorem setBleedSt_telTick (n : Nat) (b : BleedSt) : (setBleedSt s n b).telTick = s.telTick := by rfl
@[simp] theorem setBleedSt_freeCtr (n : Nat) (b : BleedSt) : (setBleedSt s n b).freeCtr = s.freeCtr := by rfl
@[simp] theorem setBleedSt_host (n : Nat) (b : BleedSt) : (setBleedSt s n b).host = s.host := by rfl
@[simp] theorem setBleedSt_links (n : Nat) (b : BleedSt) : (setBleedSt s n b).links = s.links := by rfl
@[simp] theorem setBleedSt_dielets (n : Nat) (b : BleedSt) : (setBleedSt s n b).dielets = s.dielets := by rfl
@[simp] theorem setBleedSt_ledger (n : Nat) (b : BleedSt) : (setBleedSt s n b).ledger = s.ledger := by rfl
@[simp] theorem setBleedSt_ledgerSeq (n : Nat) (b : BleedSt) : (setBleedSt s n b).ledgerSeq = s.ledgerSeq := by rfl
@[simp] theorem setBleedSt_carriers (n : Nat) (b : BleedSt) : (setBleedSt s n b).carriers = s.carriers := by rfl
@[simp] theorem setBleedSt_fractions (n : Nat) (b : BleedSt) : (setBleedSt s n b).fractions = s.fractions := by rfl
@[simp] theorem setBleedSt_loadedPer (n : Nat) (b : BleedSt) : (setBleedSt s n b).loadedPer = s.loadedPer := by rfl
@[simp] theorem setBleedSt_linkCaps (n : Nat) (b : BleedSt) : (setBleedSt s n b).linkCaps = s.linkCaps := by rfl
@[simp] theorem setBleedSt_enabled (n : Nat) (b : BleedSt) : (setBleedSt s n b).enabled = s.enabled := by rfl
@[simp] theorem setBleedSt_waits (n : Nat) (b : BleedSt) : (setBleedSt s n b).waits = s.waits := by rfl
@[simp] theorem setBleedSt_ctxs (n : Nat) (b : BleedSt) : (setBleedSt s n b).ctxs = s.ctxs := by rfl
@[simp] theorem setBleedSt_plts (n : Nat) (b : BleedSt) : (setBleedSt s n b).plts = s.plts := by rfl
@[simp] theorem setBleedSt_pool (n : Nat) (b : BleedSt) : (setBleedSt s n b).pool = s.pool := by rfl
@[simp] theorem setBleedSt_flt (n : Nat) (b : BleedSt) : (setBleedSt s n b).flt = s.flt := by rfl
@[simp] theorem setBleedSt_saf (n : Nat) (b : BleedSt) : (setBleedSt s n b).saf = s.saf := by rfl
@[simp] theorem setBleedSt_pat (n : Nat) (b : BleedSt) : (setBleedSt s n b).pat = s.pat := by rfl
@[simp] theorem setBleedSt_mirrors (n : Nat) (b : BleedSt) : (setBleedSt s n b).mirrors = s.mirrors := by rfl
@[simp] theorem setBleedSt_mram (n : Nat) (b : BleedSt) : (setBleedSt s n b).mram = s.mram := by rfl
@[simp] theorem setBleedSt_acq (n : Nat) (b : BleedSt) : (setBleedSt s n b).acq = s.acq := by rfl
@[simp] theorem setBleedSt_grd (n : Nat) (b : BleedSt) : (setBleedSt s n b).grd = s.grd := by rfl
@[simp] theorem setBleedSt_wins (n : Nat) (b : BleedSt) : (setBleedSt s n b).wins = s.wins := by rfl
@[simp] theorem setBleedSt_fab (n : Nat) (b : BleedSt) : (setBleedSt s n b).fab = s.fab := by rfl
@[simp] theorem setBleedSt_mtr (n : Nat) (b : BleedSt) : (setBleedSt s n b).mtr = s.mtr := by rfl
@[simp] theorem setBleedSt_ovl (n : Nat) (b : BleedSt) : (setBleedSt s n b).ovl = s.ovl := by rfl
@[simp] theorem setBleedSt_idn (n : Nat) (b : BleedSt) : (setBleedSt s n b).idn = s.idn := by rfl
@[simp] theorem setBleedSt_hrv (n : Nat) (b : BleedSt) : (setBleedSt s n b).hrv = s.hrv := by rfl
@[simp] theorem setBleedSt_can (n : Nat) (b : BleedSt) : (setBleedSt s n b).can = s.can := by rfl
@[simp] theorem setBleedSt_syncOut (n : Nat) (b : BleedSt) : (setBleedSt s n b).syncOut = s.syncOut := by rfl

/-! ### setEpisode -/

@[simp] theorem setEpisode_pending (k : Nat) (b : Bool) : (setEpisode s k b).pending = s.pending := by rfl
@[simp] theorem setEpisode_part (k : Nat) (b : Bool) : (setEpisode s k b).part = s.part := by rfl
@[simp] theorem setEpisode_aq (k : Nat) (b : Bool) : (setEpisode s k b).aq = s.aq := by rfl
@[simp] theorem setEpisode_regs (k : Nat) (b : Bool) : (setEpisode s k b).regs = s.regs := by rfl
@[simp] theorem setEpisode_cyc (k : Nat) (b : Bool) : (setEpisode s k b).cyc = s.cyc := by rfl
@[simp] theorem setEpisode_tick (k : Nat) (b : Bool) : (setEpisode s k b).tick = s.tick := by rfl
@[simp] theorem setEpisode_telTick (k : Nat) (b : Bool) : (setEpisode s k b).telTick = s.telTick := by rfl
@[simp] theorem setEpisode_freeCtr (k : Nat) (b : Bool) : (setEpisode s k b).freeCtr = s.freeCtr := by rfl
@[simp] theorem setEpisode_host (k : Nat) (b : Bool) : (setEpisode s k b).host = s.host := by rfl
@[simp] theorem setEpisode_links (k : Nat) (b : Bool) : (setEpisode s k b).links = s.links := by rfl
@[simp] theorem setEpisode_dielets (k : Nat) (b : Bool) : (setEpisode s k b).dielets = s.dielets := by rfl
@[simp] theorem setEpisode_ledger (k : Nat) (b : Bool) : (setEpisode s k b).ledger = s.ledger := by rfl
@[simp] theorem setEpisode_ledgerSeq (k : Nat) (b : Bool) : (setEpisode s k b).ledgerSeq = s.ledgerSeq := by rfl
@[simp] theorem setEpisode_carriers (k : Nat) (b : Bool) : (setEpisode s k b).carriers = s.carriers := by rfl
@[simp] theorem setEpisode_fractions (k : Nat) (b : Bool) : (setEpisode s k b).fractions = s.fractions := by rfl
@[simp] theorem setEpisode_loadedPer (k : Nat) (b : Bool) : (setEpisode s k b).loadedPer = s.loadedPer := by rfl
@[simp] theorem setEpisode_linkCaps (k : Nat) (b : Bool) : (setEpisode s k b).linkCaps = s.linkCaps := by rfl
@[simp] theorem setEpisode_enabled (k : Nat) (b : Bool) : (setEpisode s k b).enabled = s.enabled := by rfl
@[simp] theorem setEpisode_waits (k : Nat) (b : Bool) : (setEpisode s k b).waits = s.waits := by rfl
@[simp] theorem setEpisode_ctxs (k : Nat) (b : Bool) : (setEpisode s k b).ctxs = s.ctxs := by rfl
@[simp] theorem setEpisode_plts (k : Nat) (b : Bool) : (setEpisode s k b).plts = s.plts := by rfl
@[simp] theorem setEpisode_pool (k : Nat) (b : Bool) : (setEpisode s k b).pool = s.pool := by rfl
@[simp] theorem setEpisode_flt (k : Nat) (b : Bool) : (setEpisode s k b).flt = s.flt := by rfl
@[simp] theorem setEpisode_saf (k : Nat) (b : Bool) : (setEpisode s k b).saf = s.saf := by rfl
@[simp] theorem setEpisode_pat (k : Nat) (b : Bool) : (setEpisode s k b).pat = s.pat := by rfl
@[simp] theorem setEpisode_mirrors (k : Nat) (b : Bool) : (setEpisode s k b).mirrors = s.mirrors := by rfl
@[simp] theorem setEpisode_mram (k : Nat) (b : Bool) : (setEpisode s k b).mram = s.mram := by rfl
@[simp] theorem setEpisode_acq (k : Nat) (b : Bool) : (setEpisode s k b).acq = s.acq := by rfl
@[simp] theorem setEpisode_grd (k : Nat) (b : Bool) : (setEpisode s k b).grd = s.grd := by rfl
@[simp] theorem setEpisode_wins (k : Nat) (b : Bool) : (setEpisode s k b).wins = s.wins := by rfl
@[simp] theorem setEpisode_fab (k : Nat) (b : Bool) : (setEpisode s k b).fab = s.fab := by rfl
@[simp] theorem setEpisode_mtr (k : Nat) (b : Bool) : (setEpisode s k b).mtr = s.mtr := by rfl
@[simp] theorem setEpisode_ovl (k : Nat) (b : Bool) : (setEpisode s k b).ovl = s.ovl := by rfl
@[simp] theorem setEpisode_idn (k : Nat) (b : Bool) : (setEpisode s k b).idn = s.idn := by rfl
@[simp] theorem setEpisode_hrv (k : Nat) (b : Bool) : (setEpisode s k b).hrv = s.hrv := by rfl
@[simp] theorem setEpisode_can (k : Nat) (b : Bool) : (setEpisode s k b).can = s.can := by rfl
@[simp] theorem setEpisode_syncOut (k : Nat) (b : Bool) : (setEpisode s k b).syncOut = s.syncOut := by rfl

/-! ### setCtxSt -/

@[simp] theorem setCtxSt_pending (c : Nat) (x : CtxSt) : (setCtxSt s c x).pending = s.pending := by rfl
@[simp] theorem setCtxSt_part (c : Nat) (x : CtxSt) : (setCtxSt s c x).part = s.part := by rfl
@[simp] theorem setCtxSt_aq (c : Nat) (x : CtxSt) : (setCtxSt s c x).aq = s.aq := by rfl
@[simp] theorem setCtxSt_regs (c : Nat) (x : CtxSt) : (setCtxSt s c x).regs = s.regs := by rfl
@[simp] theorem setCtxSt_cyc (c : Nat) (x : CtxSt) : (setCtxSt s c x).cyc = s.cyc := by rfl
@[simp] theorem setCtxSt_tick (c : Nat) (x : CtxSt) : (setCtxSt s c x).tick = s.tick := by rfl
@[simp] theorem setCtxSt_telTick (c : Nat) (x : CtxSt) : (setCtxSt s c x).telTick = s.telTick := by rfl
@[simp] theorem setCtxSt_freeCtr (c : Nat) (x : CtxSt) : (setCtxSt s c x).freeCtr = s.freeCtr := by rfl
@[simp] theorem setCtxSt_host (c : Nat) (x : CtxSt) : (setCtxSt s c x).host = s.host := by rfl
@[simp] theorem setCtxSt_links (c : Nat) (x : CtxSt) : (setCtxSt s c x).links = s.links := by rfl
@[simp] theorem setCtxSt_dielets (c : Nat) (x : CtxSt) : (setCtxSt s c x).dielets = s.dielets := by rfl
@[simp] theorem setCtxSt_ledger (c : Nat) (x : CtxSt) : (setCtxSt s c x).ledger = s.ledger := by rfl
@[simp] theorem setCtxSt_ledgerSeq (c : Nat) (x : CtxSt) : (setCtxSt s c x).ledgerSeq = s.ledgerSeq := by rfl
@[simp] theorem setCtxSt_carriers (c : Nat) (x : CtxSt) : (setCtxSt s c x).carriers = s.carriers := by rfl
@[simp] theorem setCtxSt_fractions (c : Nat) (x : CtxSt) : (setCtxSt s c x).fractions = s.fractions := by rfl
@[simp] theorem setCtxSt_loadedPer (c : Nat) (x : CtxSt) : (setCtxSt s c x).loadedPer = s.loadedPer := by rfl
@[simp] theorem setCtxSt_linkCaps (c : Nat) (x : CtxSt) : (setCtxSt s c x).linkCaps = s.linkCaps := by rfl
@[simp] theorem setCtxSt_enabled (c : Nat) (x : CtxSt) : (setCtxSt s c x).enabled = s.enabled := by rfl
@[simp] theorem setCtxSt_waits (c : Nat) (x : CtxSt) : (setCtxSt s c x).waits = s.waits := by rfl
@[simp] theorem setCtxSt_plts (c : Nat) (x : CtxSt) : (setCtxSt s c x).plts = s.plts := by rfl
@[simp] theorem setCtxSt_pool (c : Nat) (x : CtxSt) : (setCtxSt s c x).pool = s.pool := by rfl
@[simp] theorem setCtxSt_flt (c : Nat) (x : CtxSt) : (setCtxSt s c x).flt = s.flt := by rfl
@[simp] theorem setCtxSt_saf (c : Nat) (x : CtxSt) : (setCtxSt s c x).saf = s.saf := by rfl
@[simp] theorem setCtxSt_pat (c : Nat) (x : CtxSt) : (setCtxSt s c x).pat = s.pat := by rfl
@[simp] theorem setCtxSt_mirrors (c : Nat) (x : CtxSt) : (setCtxSt s c x).mirrors = s.mirrors := by rfl
@[simp] theorem setCtxSt_mram (c : Nat) (x : CtxSt) : (setCtxSt s c x).mram = s.mram := by rfl
@[simp] theorem setCtxSt_pwr (c : Nat) (x : CtxSt) : (setCtxSt s c x).pwr = s.pwr := by rfl
@[simp] theorem setCtxSt_acq (c : Nat) (x : CtxSt) : (setCtxSt s c x).acq = s.acq := by rfl
@[simp] theorem setCtxSt_grd (c : Nat) (x : CtxSt) : (setCtxSt s c x).grd = s.grd := by rfl
@[simp] theorem setCtxSt_wins (c : Nat) (x : CtxSt) : (setCtxSt s c x).wins = s.wins := by rfl
@[simp] theorem setCtxSt_fab (c : Nat) (x : CtxSt) : (setCtxSt s c x).fab = s.fab := by rfl
@[simp] theorem setCtxSt_mtr (c : Nat) (x : CtxSt) : (setCtxSt s c x).mtr = s.mtr := by rfl
@[simp] theorem setCtxSt_ovl (c : Nat) (x : CtxSt) : (setCtxSt s c x).ovl = s.ovl := by rfl
@[simp] theorem setCtxSt_idn (c : Nat) (x : CtxSt) : (setCtxSt s c x).idn = s.idn := by rfl
@[simp] theorem setCtxSt_hrv (c : Nat) (x : CtxSt) : (setCtxSt s c x).hrv = s.hrv := by rfl
@[simp] theorem setCtxSt_can (c : Nat) (x : CtxSt) : (setCtxSt s c x).can = s.can := by rfl
@[simp] theorem setCtxSt_syncOut (c : Nat) (x : CtxSt) : (setCtxSt s c x).syncOut = s.syncOut := by rfl

/-! ### setPltSt -/

@[simp] theorem setPltSt_pending (c : Nat) (x : PltSt) : (setPltSt s c x).pending = s.pending := by rfl
@[simp] theorem setPltSt_part (c : Nat) (x : PltSt) : (setPltSt s c x).part = s.part := by rfl
@[simp] theorem setPltSt_aq (c : Nat) (x : PltSt) : (setPltSt s c x).aq = s.aq := by rfl
@[simp] theorem setPltSt_regs (c : Nat) (x : PltSt) : (setPltSt s c x).regs = s.regs := by rfl
@[simp] theorem setPltSt_cyc (c : Nat) (x : PltSt) : (setPltSt s c x).cyc = s.cyc := by rfl
@[simp] theorem setPltSt_tick (c : Nat) (x : PltSt) : (setPltSt s c x).tick = s.tick := by rfl
@[simp] theorem setPltSt_telTick (c : Nat) (x : PltSt) : (setPltSt s c x).telTick = s.telTick := by rfl
@[simp] theorem setPltSt_freeCtr (c : Nat) (x : PltSt) : (setPltSt s c x).freeCtr = s.freeCtr := by rfl
@[simp] theorem setPltSt_host (c : Nat) (x : PltSt) : (setPltSt s c x).host = s.host := by rfl
@[simp] theorem setPltSt_links (c : Nat) (x : PltSt) : (setPltSt s c x).links = s.links := by rfl
@[simp] theorem setPltSt_dielets (c : Nat) (x : PltSt) : (setPltSt s c x).dielets = s.dielets := by rfl
@[simp] theorem setPltSt_ledger (c : Nat) (x : PltSt) : (setPltSt s c x).ledger = s.ledger := by rfl
@[simp] theorem setPltSt_ledgerSeq (c : Nat) (x : PltSt) : (setPltSt s c x).ledgerSeq = s.ledgerSeq := by rfl
@[simp] theorem setPltSt_carriers (c : Nat) (x : PltSt) : (setPltSt s c x).carriers = s.carriers := by rfl
@[simp] theorem setPltSt_fractions (c : Nat) (x : PltSt) : (setPltSt s c x).fractions = s.fractions := by rfl
@[simp] theorem setPltSt_loadedPer (c : Nat) (x : PltSt) : (setPltSt s c x).loadedPer = s.loadedPer := by rfl
@[simp] theorem setPltSt_linkCaps (c : Nat) (x : PltSt) : (setPltSt s c x).linkCaps = s.linkCaps := by rfl
@[simp] theorem setPltSt_enabled (c : Nat) (x : PltSt) : (setPltSt s c x).enabled = s.enabled := by rfl
@[simp] theorem setPltSt_waits (c : Nat) (x : PltSt) : (setPltSt s c x).waits = s.waits := by rfl
@[simp] theorem setPltSt_ctxs (c : Nat) (x : PltSt) : (setPltSt s c x).ctxs = s.ctxs := by rfl
@[simp] theorem setPltSt_pool (c : Nat) (x : PltSt) : (setPltSt s c x).pool = s.pool := by rfl
@[simp] theorem setPltSt_flt (c : Nat) (x : PltSt) : (setPltSt s c x).flt = s.flt := by rfl
@[simp] theorem setPltSt_saf (c : Nat) (x : PltSt) : (setPltSt s c x).saf = s.saf := by rfl
@[simp] theorem setPltSt_pat (c : Nat) (x : PltSt) : (setPltSt s c x).pat = s.pat := by rfl
@[simp] theorem setPltSt_mirrors (c : Nat) (x : PltSt) : (setPltSt s c x).mirrors = s.mirrors := by rfl
@[simp] theorem setPltSt_mram (c : Nat) (x : PltSt) : (setPltSt s c x).mram = s.mram := by rfl
@[simp] theorem setPltSt_pwr (c : Nat) (x : PltSt) : (setPltSt s c x).pwr = s.pwr := by rfl
@[simp] theorem setPltSt_acq (c : Nat) (x : PltSt) : (setPltSt s c x).acq = s.acq := by rfl
@[simp] theorem setPltSt_grd (c : Nat) (x : PltSt) : (setPltSt s c x).grd = s.grd := by rfl
@[simp] theorem setPltSt_wins (c : Nat) (x : PltSt) : (setPltSt s c x).wins = s.wins := by rfl
@[simp] theorem setPltSt_fab (c : Nat) (x : PltSt) : (setPltSt s c x).fab = s.fab := by rfl
@[simp] theorem setPltSt_mtr (c : Nat) (x : PltSt) : (setPltSt s c x).mtr = s.mtr := by rfl
@[simp] theorem setPltSt_ovl (c : Nat) (x : PltSt) : (setPltSt s c x).ovl = s.ovl := by rfl
@[simp] theorem setPltSt_idn (c : Nat) (x : PltSt) : (setPltSt s c x).idn = s.idn := by rfl
@[simp] theorem setPltSt_hrv (c : Nat) (x : PltSt) : (setPltSt s c x).hrv = s.hrv := by rfl
@[simp] theorem setPltSt_can (c : Nat) (x : PltSt) : (setPltSt s c x).can = s.can := by rfl
@[simp] theorem setPltSt_syncOut (c : Nat) (x : PltSt) : (setPltSt s c x).syncOut = s.syncOut := by rfl

/-! ### addMirror -/

@[simp] theorem addMirror_pending (m : Mirror) : (addMirror s m).pending = s.pending := by unfold addMirror; split <;> rfl
@[simp] theorem addMirror_part (m : Mirror) : (addMirror s m).part = s.part := by unfold addMirror; split <;> rfl
@[simp] theorem addMirror_aq (m : Mirror) : (addMirror s m).aq = s.aq := by unfold addMirror; split <;> rfl
@[simp] theorem addMirror_regs (m : Mirror) : (addMirror s m).regs = s.regs := by unfold addMirror; split <;> rfl
@[simp] theorem addMirror_cyc (m : Mirror) : (addMirror s m).cyc = s.cyc := by unfold addMirror; split <;> rfl
@[simp] theorem addMirror_tick (m : Mirror) : (addMirror s m).tick = s.tick := by unfold addMirror; split <;> rfl
@[simp] theorem addMirror_telTick (m : Mirror) : (addMirror s m).telTick = s.telTick := by unfold addMirror; split <;> rfl
@[simp] theorem addMirror_freeCtr (m : Mirror) : (addMirror s m).freeCtr = s.freeCtr := by unfold addMirror; split <;> rfl
@[simp] theorem addMirror_host (m : Mirror) : (addMirror s m).host = s.host := by unfold addMirror; split <;> rfl
@[simp] theorem addMirror_links (m : Mirror) : (addMirror s m).links = s.links := by unfold addMirror; split <;> rfl
@[simp] theorem addMirror_dielets (m : Mirror) : (addMirror s m).dielets = s.dielets := by unfold addMirror; split <;> rfl
@[simp] theorem addMirror_ledger (m : Mirror) : (addMirror s m).ledger = s.ledger := by unfold addMirror; split <;> rfl
@[simp] theorem addMirror_ledgerSeq (m : Mirror) : (addMirror s m).ledgerSeq = s.ledgerSeq := by unfold addMirror; split <;> rfl
@[simp] theorem addMirror_carriers (m : Mirror) : (addMirror s m).carriers = s.carriers := by unfold addMirror; split <;> rfl
@[simp] theorem addMirror_fractions (m : Mirror) : (addMirror s m).fractions = s.fractions := by unfold addMirror; split <;> rfl
@[simp] theorem addMirror_loadedPer (m : Mirror) : (addMirror s m).loadedPer = s.loadedPer := by unfold addMirror; split <;> rfl
@[simp] theorem addMirror_linkCaps (m : Mirror) : (addMirror s m).linkCaps = s.linkCaps := by unfold addMirror; split <;> rfl
@[simp] theorem addMirror_enabled (m : Mirror) : (addMirror s m).enabled = s.enabled := by unfold addMirror; split <;> rfl
@[simp] theorem addMirror_waits (m : Mirror) : (addMirror s m).waits = s.waits := by unfold addMirror; split <;> rfl
@[simp] theorem addMirror_ctxs (m : Mirror) : (addMirror s m).ctxs = s.ctxs := by unfold addMirror; split <;> rfl
@[simp] theorem addMirror_plts (m : Mirror) : (addMirror s m).plts = s.plts := by unfold addMirror; split <;> rfl
@[simp] theorem addMirror_pool (m : Mirror) : (addMirror s m).pool = s.pool := by unfold addMirror; split <;> rfl
@[simp] theorem addMirror_flt (m : Mirror) : (addMirror s m).flt = s.flt := by unfold addMirror; split <;> rfl
@[simp] theorem addMirror_saf (m : Mirror) : (addMirror s m).saf = s.saf := by unfold addMirror; split <;> rfl
@[simp] theorem addMirror_pat (m : Mirror) : (addMirror s m).pat = s.pat := by unfold addMirror; split <;> rfl
@[simp] theorem addMirror_mram (m : Mirror) : (addMirror s m).mram = s.mram := by unfold addMirror; split <;> rfl
@[simp] theorem addMirror_pwr (m : Mirror) : (addMirror s m).pwr = s.pwr := by unfold addMirror; split <;> rfl
@[simp] theorem addMirror_acq (m : Mirror) : (addMirror s m).acq = s.acq := by unfold addMirror; split <;> rfl
@[simp] theorem addMirror_grd (m : Mirror) : (addMirror s m).grd = s.grd := by unfold addMirror; split <;> rfl
@[simp] theorem addMirror_wins (m : Mirror) : (addMirror s m).wins = s.wins := by unfold addMirror; split <;> rfl
@[simp] theorem addMirror_fab (m : Mirror) : (addMirror s m).fab = s.fab := by unfold addMirror; split <;> rfl
@[simp] theorem addMirror_mtr (m : Mirror) : (addMirror s m).mtr = s.mtr := by unfold addMirror; split <;> rfl
@[simp] theorem addMirror_ovl (m : Mirror) : (addMirror s m).ovl = s.ovl := by unfold addMirror; split <;> rfl
@[simp] theorem addMirror_idn (m : Mirror) : (addMirror s m).idn = s.idn := by unfold addMirror; split <;> rfl
@[simp] theorem addMirror_hrv (m : Mirror) : (addMirror s m).hrv = s.hrv := by unfold addMirror; split <;> rfl
@[simp] theorem addMirror_can (m : Mirror) : (addMirror s m).can = s.can := by unfold addMirror; split <;> rfl
@[simp] theorem addMirror_syncOut (m : Mirror) : (addMirror s m).syncOut = s.syncOut := by unfold addMirror; split <;> rfl

/-! ### What the tables read after a write -/

@[simp] theorem link_setLink (n : Nat) (v : LinkEnd) : link (setLink s n v) n = v := tget_tset_self ..
theorem link_setLink_ne (n m : Nat) (v : LinkEnd) (h : m ≠ n) : link (setLink s n v) m = link s m := tget_tset_ne _ _ _ h
@[simp] theorem dielet_setDielet (n : Nat) (v : Dielet) : dielet (setDielet s n v) n = v := tget_tset_self ..
theorem dielet_setDielet_ne (n m : Nat) (v : Dielet) (h : m ≠ n) : dielet (setDielet s n v) m = dielet s m := tget_tset_ne _ _ _ h
@[simp] theorem detector_setDetector (n : Nat) (v : Detector) : detector (setDetector s n v) n = v := tget_tset_self ..
theorem detector_setDetector_ne (n m : Nat) (v : Detector) (h : m ≠ n) : detector (setDetector s n v) m = detector s m := tget_tset_ne _ _ _ h
@[simp] theorem bleedSt_setBleedSt (n : Nat) (v : BleedSt) : bleedSt (setBleedSt s n v) n = v := tget_tset_self ..
theorem bleedSt_setBleedSt_ne (n m : Nat) (v : BleedSt) (h : m ≠ n) : bleedSt (setBleedSt s n v) m = bleedSt s m := tget_tset_ne _ _ _ h
@[simp] theorem episode_setEpisode (n : Nat) (v : Bool) : episode (setEpisode s n v) n = v := tget_tset_self ..
theorem episode_setEpisode_ne (n m : Nat) (v : Bool) (h : m ≠ n) : episode (setEpisode s n v) m = episode s m := tget_tset_ne _ _ _ h
@[simp] theorem ctxSt_setCtxSt (n : Nat) (v : CtxSt) : ctxSt (setCtxSt s n v) n = v := tget_tset_self ..
theorem ctxSt_setCtxSt_ne (n m : Nat) (v : CtxSt) (h : m ≠ n) : ctxSt (setCtxSt s n v) m = ctxSt s m := tget_tset_ne _ _ _ h
@[simp] theorem pltSt_setPltSt (n : Nat) (v : PltSt) : pltSt (setPltSt s n v) n = v := tget_tset_self ..
theorem pltSt_setPltSt_ne (n m : Nat) (v : PltSt) (h : m ≠ n) : pltSt (setPltSt s n v) m = pltSt s m := tget_tset_ne _ _ _ h

end Sys2Proof.Machine
end

