-- ==== Sys2Proof/Laws/Regs.lean ====
section
/-!
SUPPORT. Laws of the register file: read after write for words and fields, and the canonical form.
-/
set_option Elab.async false

namespace Sys2Proof.Machine

variable (s : State)

/-! ### Words -/

@[simp] theorem word_setWord (a : Nat) (w : Word) : (s.setWord a w).word a = w := tget_tset_self ..

theorem word_setWord_ne (a b : Nat) (w : Word) (h : b ≠ a) : (s.setWord a w).word b = s.word b := tget_tset_ne _ _ _ h

theorem word_put (f : Field) (v : Nat) : (s.put f v).word f.addr = setBits (s.word f.addr) f.lo f.wd v := word_setWord ..

theorem word_put_ne (f : Field) (v b : Nat) (h : b ≠ f.addr) : (s.put f v).word b = s.word b := word_setWord_ne _ _ _ _ h

theorem word_flag_ne (f : Field) (v : Bool) (b : Nat) (h : b ≠ f.addr) : (s.flag f v).word b = s.word b :=
  word_put_ne _ _ _ _ h

theorem word_inc_ne (f : Field) (b : Nat) (h : b ≠ f.addr) : (s.inc f).word b = s.word b := word_put_ne _ _ _ _ h

theorem word_incSat_ne (f : Field) (b : Nat) (h : b ≠ f.addr) : (s.incSat f).word b = s.word b := word_put_ne _ _ _ _ h

theorem word_sput_ne (f : Field) (v : Int) (b : Nat) (h : b ≠ f.addr) : (s.sput f v).word b = s.word b :=
  word_put_ne _ _ _ _ h

theorem word_dropRegs (lo hi a : Nat) :
    (s.dropRegs lo hi).word a = if lo ≤ a ∧ a < hi then resetWord a else s.word a := tget_tdrop ..

theorem word_keepRegs (p : Nat → Bool) (a : Nat) : (s.keepRegs p).word a = if p a then s.word a else resetWord a := by
  unfold State.word State.keepRegs
  by_cases h : p a = true
  · simp [h, tget_filter_of resetWord p h]
  · simp [h, tget_filter_of_not resetWord p (by simpa using h)]

/-- A register word is read from the register file alone. -/
theorem word_congr {s t : State} (h : t.regs = s.regs) (a : Nat) : t.word a = s.word a := by
  unfold State.word; rw [h]

theorem get_congr {s t : State} (h : t.regs = s.regs) (f : Field) : t.get f = s.get f := by
  unfold State.get; rw [word_congr h]

theorem on_congr {s t : State} (h : t.regs = s.regs) (f : Field) : t.on f = s.on f := by
  unfold State.on; rw [get_congr h]

/-! ### Fields -/

/-- A field written reads its value, modulo its width. -/
theorem get_put (f : Field) (v : Nat) (h : f.lo + f.wd ≤ 32) : (s.put f v).get f = v % 2 ^ f.wd := by
  unfold State.get; rw [word_put, bitsOf_setBits _ _ _ _ h]

/-- A field of another register reads as before. -/
theorem get_put_ne (f g : Field) (v : Nat) (h : g.addr ≠ f.addr) : (s.put f v).get g = s.get g := by
  unfold State.get; rw [word_put_ne _ _ _ _ h]

/-- A field of the same register, apart from the one written, reads as before. -/
theorem get_put_apart (f g : Field) (v : Nat) (hg : g.lo + g.wd ≤ 32)
    (h : g.lo + g.wd ≤ f.lo ∨ f.lo + f.wd ≤ g.lo) : (s.put f v).get g = s.get g := by
  by_cases e : g.addr = f.addr
  · unfold State.get; rw [e, word_put, bitsOf_setBits_ne _ _ _ _ _ _ hg h]
  · exact get_put_ne _ _ _ _ e

/-- A field apart from the one written: of another register, or of other bits. -/
theorem get_put_other (f g : Field) (v : Nat) (hg : g.lo + g.wd ≤ 32)
    (h : g.addr ≠ f.addr ∨ g.lo + g.wd ≤ f.lo ∨ f.lo + f.wd ≤ g.lo) : (s.put f v).get g = s.get g := by
  rcases h with h | h
  · exact get_put_ne _ _ _ _ h
  · exact get_put_apart _ _ _ _ hg h

theorem get_lt (f : Field) : s.get f < 2 ^ f.wd := Nat.mod_lt _ (by positivity)

theorem on_flag (f : Field) (b : Bool) (h : f.lo + f.wd ≤ 32) (hw : f.wd = 1) : (s.flag f b).on f = b := by
  unfold State.on State.flag; rw [get_put _ _ _ h, hw]; cases b <;> rfl

theorem on_put_other (f g : Field) (v : Nat) (hg : g.lo + g.wd ≤ 32)
    (h : g.addr ≠ f.addr ∨ g.lo + g.wd ≤ f.lo ∨ f.lo + f.wd ≤ g.lo) : (s.put f v).on g = s.on g := by
  unfold State.on; rw [get_put_other _ _ _ _ hg h]

theorem on_flag_other (f g : Field) (b : Bool) (hg : g.lo + g.wd ≤ 32)
    (h : g.addr ≠ f.addr ∨ g.lo + g.wd ≤ f.lo ∨ f.lo + f.wd ≤ g.lo) : (s.flag f b).on g = s.on g :=
  on_put_other _ _ _ _ hg h

theorem get_inc (f : Field) (h : f.lo + f.wd ≤ 32) : (s.inc f).get f = (s.get f + 1) % 2 ^ f.wd := get_put _ _ _ h

/-! ### The canonical form -/

theorem regsCanonical_congr {s t : State} (h : t.regs = s.regs) : regsCanonical t = regsCanonical s := by
  unfold regsCanonical; rw [h]

theorem regsCanonical_setWord (a : Nat) (w : Word) (h : regsCanonical s = true) : regsCanonical (s.setWord a w) = true :=
  canonical_tset _ _ _ _ h

theorem regsCanonical_keepRegs (p : Nat → Bool) (h : regsCanonical s = true) : regsCanonical (s.keepRegs p) = true :=
  canonical_filter _ _ _ h

theorem regsCanonical_dropRegs (lo hi : Nat) (h : regsCanonical s = true) : regsCanonical (s.dropRegs lo hi) = true :=
  canonical_tdrop _ _ _ _ h

end Sys2Proof.Machine
end

