-- ==== Sys2Proof/Laws/Onward.lean ====
section
/-!
SUPPORT. The calculus of `Onward`: the primitive updates, and sequencing, choice and iteration of updates.
-/
set_option Elab.async false

namespace Sys2Proof.Machine

theorem Onward.refl (s : State) : Onward s s := ⟨rfl, rfl, rfl, Nat.le_refl _, Nat.le_refl _, id⟩

theorem Onward.trans {s t u : State} (h : Onward s t) (k : Onward t u) : Onward s u :=
  ⟨k.1.trans h.1, k.2.1.trans h.2.1, k.2.2.1.trans h.2.2.1, h.2.2.2.1.trans k.2.2.2.1, h.2.2.2.2.1.trans k.2.2.2.2.1,
    fun c => k.2.2.2.2.2 (h.2.2.2.2.2 c)⟩

theorem onward_ite {s a b : State} {c : Prop} [Decidable c] (ha : Onward s a) (hb : Onward s b) :
    Onward s (if c then a else b) := by
  split
  · exact ha
  · exact hb

theorem onward_forL {s0 s : State} {α : Type} (l : List α) (f : α → State → State) (h : Onward s0 s)
    (hf : ∀ x a, Onward s0 a → Onward s0 (f x a)) : Onward s0 (forL l f s) := by
  unfold forL
  induction l generalizing s with
  | nil => exact h
  | cons x t ih => exact ih (hf x s h)

theorem onward_forN {s0 s : State} (n : Nat) (f : Nat → State → State) (h : Onward s0 s)
    (hf : ∀ x a, Onward s0 a → Onward s0 (f x a)) : Onward s0 (forN n f s) :=
  onward_forL (List.range n) f h hf

theorem onward_foldl {s0 s : State} {α : Type} (l : List α) (f : State → α → State) (h : Onward s0 s)
    (hf : ∀ a x, Onward s0 a → Onward s0 (f a x)) : Onward s0 (l.foldl f s) := by
  induction l generalizing s with
  | nil => exact h
  | cons x t ih => exact ih (hf s x h)

theorem onward_foldl_fst {s0 : State} {α β : Type} (l : List α) (f : State × β → α → State × β) (p : State × β)
    (h : Onward s0 p.1) (hf : ∀ a x, Onward s0 a.1 → Onward s0 (f a x).1) : Onward s0 (l.foldl f p).1 := by
  induction l generalizing p with
  | nil => exact h
  | cons x t ih => exact ih _ (hf p x h)

/-- A change of fields that `Onward` does not speak of. -/
theorem onward_mk {s0 s : State} (h : Onward s0 s) (a7 a8 a10 a11 a12 a13 a14 a15 a16 a17 a18 a19 a20 a21 a22 a23 a24 a25
    a26 a27 a28 a29 a30 a31 a32 a33 a34 a35 a36 a37 a38 a39) :
    Onward s0 ⟨s.pending, s.part, s.aq, s.regs, s.cyc, a7, a8, s.freeCtr, a10, a11, a12, a13, a14, a15, a16, a17, a18, a19,
      a20, a21, a22, a23, a24, a25, a26, a27, a28, a29, a30, a31, a32, a33, a34, a35, a36, a37, a38, a39⟩ := h

/-- A change that also moves engine time on. -/
theorem onward_mk_max {s0 s : State} (h : Onward s0 s) (k a7 a8 a10 a11 a12 a13 a14 a15 a16 a17 a18 a19 a20 a21 a22 a23
    a24 a25 a26 a27 a28 a29 a30 a31 a32 a33 a34 a35 a36 a37 a38 a39) :
    Onward s0 ⟨s.pending, s.part, s.aq, s.regs, max s.cyc k, a7, a8, s.freeCtr, a10, a11, a12, a13, a14, a15, a16, a17,
      a18, a19, a20, a21, a22, a23, a24, a25, a26, a27, a28, a29, a30, a31, a32, a33, a34, a35, a36, a37, a38, a39⟩ :=
  ⟨h.1, h.2.1, h.2.2.1, h.2.2.2.1.trans (Nat.le_max_left _ _), h.2.2.2.2⟩

/-- A change that also moves engine time on. -/
theorem onward_mk_add {s0 s : State} (h : Onward s0 s) (k a7 a8 a10 a11 a12 a13 a14 a15 a16 a17 a18 a19 a20 a21 a22 a23
    a24 a25 a26 a27 a28 a29 a30 a31 a32 a33 a34 a35 a36 a37 a38 a39) :
    Onward s0 ⟨s.pending, s.part, s.aq, s.regs, s.cyc + k, a7, a8, s.freeCtr, a10, a11, a12, a13, a14, a15, a16, a17,
      a18, a19, a20, a21, a22, a23, a24, a25, a26, a27, a28, a29, a30, a31, a32, a33, a34, a35, a36, a37, a38, a39⟩ :=
  ⟨h.1, h.2.1, h.2.2.1, h.2.2.2.1.trans (Nat.le_add_right _ _), h.2.2.2.2⟩

/-! ### The primitive updates -/

theorem onward_setWord {s0 s : State} (a : Nat) (w : Word) (h : Onward s0 s) : Onward s0 (s.setWord a w) :=
  ⟨h.1, h.2.1, h.2.2.1, h.2.2.2.1, h.2.2.2.2.1, fun c => regsCanonical_setWord _ _ _ (h.2.2.2.2.2 c)⟩

theorem onward_put {s0 s : State} (f : Field) (v : Nat) (h : Onward s0 s) : Onward s0 (s.put f v) := onward_setWord _ _ h

theorem onward_flag {s0 s : State} (f : Field) (b : Bool) (h : Onward s0 s) : Onward s0 (s.flag f b) := onward_put _ _ h

theorem onward_inc {s0 s : State} (f : Field) (h : Onward s0 s) : Onward s0 (s.inc f) := onward_put _ _ h

theorem onward_incSat {s0 s : State} (f : Field) (h : Onward s0 s) : Onward s0 (s.incSat f) := onward_put _ _ h

theorem onward_sput {s0 s : State} (f : Field) (i : Int) (h : Onward s0 s) : Onward s0 (s.sput f i) := onward_put _ _ h

theorem onward_keepRegs {s0 s : State} (p : Nat → Bool) (h : Onward s0 s) : Onward s0 (s.keepRegs p) :=
  ⟨h.1, h.2.1, h.2.2.1, h.2.2.2.1, h.2.2.2.2.1, fun c => regsCanonical_keepRegs _ _ (h.2.2.2.2.2 c)⟩

theorem onward_dropRegs {s0 s : State} (lo hi : Nat) (h : Onward s0 s) : Onward s0 (s.dropRegs lo hi) :=
  ⟨h.1, h.2.1, h.2.2.1, h.2.2.2.1, h.2.2.2.2.1, fun c => regsCanonical_dropRegs _ _ _ (h.2.2.2.2.2 c)⟩

theorem onward_pass {s0 s : State} (n : Nat) (h : Onward s0 s) : Onward s0 (pass s n) :=
  ⟨h.1, h.2.1, h.2.2.1, h.2.2.2.1.trans (Nat.le_add_right _ _), h.2.2.2.2⟩

theorem onward_freeNext {s0 s : State} (h : Onward s0 s) : Onward s0 (freeNext s) :=
  ⟨h.1, h.2.1, h.2.2.1, h.2.2.2.1, h.2.2.2.2.1.trans (Nat.le_add_right _ _), h.2.2.2.2.2⟩

/-! ### Commands -/

/-- A command that answers an onward state. -/
theorem goes_next {s t : State} (h : Onward s t) : Goes s (.next t) := ⟨t, rfl, h⟩

end Sys2Proof.Machine
end

