-- ==== Sys2Proof/Laws/OnwardOps.lean ====
section
/-!
SUPPORT. Every update of Machine/Ops.lean leads onward; every command of it is answered.
-/
set_option Elab.async false

namespace Sys2Proof.Machine

theorem onward_setLink {z : State} (s : State) (n : Nat) (l : LinkEnd)
    (hz : Onward z s) : Onward z (setLink s n l) := by
  unfold setLink
  repeat' first
    | with_reducible assumption
    | with_reducible exact Onward.refl _
    | intro _ _ _
    | intro _ _
    | dsimp only
    | fail_if_no_progress with_reducible apply onward_mk

theorem onward_setDielet {z : State} (s : State) (n : Nat) (d : Dielet)
    (hz : Onward z s) : Onward z (setDielet s n d) := by
  unfold setDielet
  repeat' first
    | with_reducible assumption
    | with_reducible exact Onward.refl _
    | intro _ _ _
    | intro _ _
    | dsimp only
    | fail_if_no_progress with_reducible apply onward_mk

theorem onward_setDetector {z : State} (s : State) (scope : Nat) (d : Detector)
    (hz : Onward z s) : Onward z (setDetector s scope d) := by
  unfold setDetector
  repeat' first
    | with_reducible assumption
    | (extract_lets +onlyGivenNames x; clear_value x)
    | with_reducible exact Onward.refl _
    | intro _ _ _
    | intro _ _
    | dsimp only
    | fail_if_no_progress with_reducible apply onward_mk

theorem onward_setBleedSt {z : State} (s : State) (n : Nat) (b : BleedSt)
    (hz : Onward z s) : Onward z (setBleedSt s n b) := by
  unfold setBleedSt
  repeat' first
    | with_reducible assumption
    | (extract_lets +onlyGivenNames x; clear_value x)
    | with_reducible exact Onward.refl _
    | intro _ _ _
    | intro _ _
    | dsimp only
    | fail_if_no_progress with_reducible apply onward_mk

theorem onward_setEpisode {z : State} (s : State) (k : Nat) (b : Bool)
    (hz : Onward z s) : Onward z (setEpisode s k b) := by
  unfold setEpisode
  repeat' first
    | with_reducible assumption
    | (extract_lets +onlyGivenNames x; clear_value x)
    | with_reducible exact Onward.refl _
    | intro _ _ _
    | intro _ _
    | dsimp only
    | fail_if_no_progress with_reducible apply onward_mk

theorem onward_setCtxSt {z : State} (s : State) (c : Nat) (x : CtxSt)
    (hz : Onward z s) : Onward z (setCtxSt s c x) := by
  unfold setCtxSt
  repeat' first
    | with_reducible assumption
    | with_reducible exact Onward.refl _
    | intro _ _ _
    | intro _ _
    | dsimp only
    | fail_if_no_progress with_reducible apply onward_mk

theorem onward_setPltSt {z : State} (s : State) (c : Nat) (x : PltSt)
    (hz : Onward z s) : Onward z (setPltSt s c x) := by
  unfold setPltSt
  repeat' first
    | with_reducible assumption
    | with_reducible exact Onward.refl _
    | intro _ _ _
    | intro _ _
    | dsimp only
    | fail_if_no_progress with_reducible apply onward_mk

theorem onward_addMirror {z : State} (s : State) (m : Mirror) (hz : Onward z s) : Onward z (addMirror s m) := by
  unfold addMirror
  repeat' first
    | with_reducible assumption
    | with_reducible exact Onward.refl _
    | with_reducible apply onward_ite
    | intro _ _ _
    | intro _ _
    | split
    | dsimp only
    | fail_if_no_progress with_reducible apply onward_mk

end Sys2Proof.Machine
end

