-- ==== Sys2Proof/Laws/OnwardFlags.lean ====
section
/-!
SUPPORT. Every update of Machine/Flags.lean leads onward; every command of it is answered.
-/
set_option Elab.async false

namespace Sys2Proof.Machine

theorem onward_hostFlag {z : State} (f : Field) (p a : Nat) (s : State)
    (hz : Onward z s) : Onward z (hostFlag f p a s) := by
  unfold hostFlag
  repeat' first
    | with_reducible assumption
    | with_reducible exact Onward.refl _
    | with_reducible apply onward_flag
    | with_reducible apply onward_put

theorem onward_discarded {z : State} (p a : Nat) (s : State) (hz : Onward z s) : Onward z (discarded p a s) := by
  unfold discarded
  repeat' first
    | with_reducible assumption
    | with_reducible exact Onward.refl _
    | with_reducible apply onward_hostFlag

theorem onward_errorResponse {z : State} (c a : Nat) (s : State)
    (hz : Onward z s) : Onward z (errorResponse c a s) := by
  unfold errorResponse
  repeat' first
    | with_reducible assumption
    | with_reducible exact Onward.refl _
    | with_reducible apply onward_flag
    | with_reducible apply onward_inc
    | with_reducible apply onward_put

theorem onward_syncQueue {z : State} (s : State) (hz : Onward z s) : Onward z (syncQueue s) := by
  unfold syncQueue
  repeat' first
    | with_reducible assumption
    | with_reducible exact Onward.refl _
    | with_reducible apply onward_flag

end Sys2Proof.Machine
end

