-- ==== Sys2Proof/Laws/OnwardTree.lean ====
section
/-!
SUPPORT. Every update of Machine/Tree.lean leads onward; every command of it is answered.
-/
set_option Elab.async false

namespace Sys2Proof.Machine

theorem onward_refreshCap {z : State} (n : Nat) (s : State) (hz : Onward z s) : Onward z (refreshCap n s) := by
  unfold refreshCap
  repeat' first
    | with_reducible assumption
    | (extract_lets +onlyGivenNames x; refine (fun hx : Onward z x => ?_) ?_; (on_goal 1 => clear_value x);
        (on_goal 2 => subst x))
    | (extract_lets +onlyGivenNames x; clear_value x)
    | with_reducible exact Onward.refl _
    | with_reducible apply onward_put
    | with_reducible apply onward_ite

theorem onward_refreshCaps {z : State} (s : State) (hz : Onward z s) : Onward z (refreshCaps s) := by
  unfold refreshCaps
  repeat' first
    | with_reducible assumption
    | with_reducible exact Onward.refl _
    | with_reducible apply onward_refreshCap
    | with_reducible apply onward_forL

end Sys2Proof.Machine
end

