-- ==== Sys2Proof/Laws/OnwardLinks.lean ====
section
/-!
SUPPORT. Every update of Machine/Links.lean leads onward; every command of it is answered.
-/
set_option Elab.async false

namespace Sys2Proof.Machine

theorem onward_queueFrame {z : State} (n ty reg data : Nat) (s : State)
    (hz : Onward z s) : Onward z (queueFrame n ty reg data s) := by
  unfold queueFrame
  repeat' first
    | with_reducible assumption
    | (extract_lets +onlyGivenNames x; clear_value x)
    | with_reducible exact Onward.refl _
    | with_reducible apply onward_setLink
    | with_reducible apply onward_ite

theorem onward_sendSettings {z : State} (n : Nat) (s : State) (hz : Onward z s) : Onward z (sendSettings n s) := by
  unfold sendSettings
  repeat' first
    | with_reducible assumption
    | (extract_lets +onlyGivenNames x; refine (fun hx : Onward z x => ?_) ?_; (on_goal 1 => clear_value x);
        (on_goal 2 => subst x))
    | (extract_lets +onlyGivenNames x; clear_value x)
    | with_reducible exact Onward.refl _
    | with_reducible apply onward_flag
    | with_reducible apply onward_queueFrame
    | with_reducible apply onward_setLink
    | with_reducible apply onward_ite
    | with_reducible apply onward_forL
    | intro _ _ _

theorem onward_checkSetok {z : State} (n : Nat) (s : State) (hz : Onward z s) : Onward z (checkSetok n s) := by
  unfold checkSetok
  repeat' first
    | with_reducible assumption
    | (extract_lets +onlyGivenNames x; clear_value x)
    | with_reducible exact Onward.refl _
    | with_reducible apply onward_flag
    | with_reducible apply onward_ite

theorem onward_checkPcdone {z : State} (s : State) (hz : Onward z s) : Onward z (checkPcdone s) := by
  unfold checkPcdone
  repeat' first
    | with_reducible assumption
    | with_reducible exact Onward.refl _
    | with_reducible apply onward_flag
    | with_reducible apply onward_ite

theorem onward_gatesOff {z : State} (n : Nat) (s : State) (hz : Onward z s) : Onward z (gatesOff n s) := by
  unfold gatesOff
  repeat' first
    | with_reducible assumption
    | with_reducible exact Onward.refl _
    | with_reducible apply onward_setDielet

theorem onward_hearOff {z : State} (n : Nat) (s : State) (hz : Onward z s) : Onward z (hearOff n s) := by
  unfold hearOff
  repeat' first
    | with_reducible assumption
    | with_reducible exact Onward.refl _
    | with_reducible apply onward_gatesOff
    | with_reducible apply onward_ite
    | intro _ _ _
    | intro _ _
    | split

theorem onward_putSymbol {z : State} (n c : Nat) (s : State) (hz : Onward z s) : Onward z (putSymbol n c s) := by
  unfold putSymbol
  repeat' first
    | with_reducible assumption
    | (extract_lets +onlyGivenNames x; refine (fun hx : Onward z x => ?_) ?_; (on_goal 1 => clear_value x);
        (on_goal 2 => subst x))
    | (extract_lets +onlyGivenNames x; clear_value x)
    | with_reducible exact Onward.refl _
    | with_reducible apply onward_hearOff
    | with_reducible apply onward_setDielet
    | with_reducible apply onward_setLink
    | with_reducible apply onward_ite

theorem onward_syncCmd {z : State} (n : Nat) (s : State) (hz : Onward z s) : Onward z (syncCmd n s) := by
  unfold syncCmd
  repeat' first
    | with_reducible assumption
    | (extract_lets +onlyGivenNames x; clear_value x)
    | with_reducible exact Onward.refl _
    | with_reducible apply onward_putSymbol
    | with_reducible apply onward_ite

theorem onward_driveOff {z : State} (n : Nat) (s : State) (hz : Onward z s) : Onward z (driveOff n s) := by
  unfold driveOff
  repeat' first
    | with_reducible assumption
    | (extract_lets +onlyGivenNames x; clear_value x)
    | with_reducible exact Onward.refl _
    | with_reducible apply onward_hearOff
    | with_reducible apply onward_setLink

theorem onward_setView {z : State} (n st cause : Nat) (s : State)
    (hz : Onward z s) : Onward z (setView n st cause s) := by
  unfold setView
  repeat' first
    | with_reducible assumption
    | with_reducible exact Onward.refl _
    | with_reducible apply onward_put

theorem onward_noteView {z : State} (n st cause : Nat) (s : State)
    (hz : Onward z s) : Onward z (noteView n st cause s) := by
  unfold noteView
  repeat' first
    | with_reducible assumption
    | (extract_lets +onlyGivenNames x; refine (fun hx : Onward z x => ?_) ?_; (on_goal 1 => clear_value x);
        (on_goal 2 => subst x))
    | (extract_lets +onlyGivenNames x; refine (fun hx : Onward z x.1 => ?_) ?_; (on_goal 1 => clear_value x);
        (on_goal 2 => subst x))
    | (extract_lets +onlyGivenNames x; clear_value x)
    | with_reducible exact Onward.refl _
    | with_reducible apply onward_setLink
    | with_reducible apply onward_setView
    | with_reducible apply onward_ite
    | intro _ _ _
    | intro _ _
    | split
    | dsimp only
    | fail_if_no_progress with_reducible apply onward_mk

theorem onward_syncEnables {z : State} (s : State) (hz : Onward z s) : Onward z (syncEnables s) := by
  unfold syncEnables
  repeat' first
    | with_reducible assumption
    | with_reducible exact Onward.refl _
    | with_reducible apply onward_flag
    | with_reducible apply onward_ite
    | with_reducible apply onward_forL
    | intro _ _ _
    | intro _ _
    | split
    | dsimp only
    | fail_if_no_progress with_reducible apply onward_mk

theorem onward_afterEnableFall {z : State} (s : State) (hz : Onward z s) : Onward z (afterEnableFall s) := by
  unfold afterEnableFall
  repeat' first
    | with_reducible assumption
    | (extract_lets +onlyGivenNames x; refine (fun hx : Onward z x => ?_) ?_; (on_goal 1 => clear_value x);
        (on_goal 2 => subst x))
    | (extract_lets +onlyGivenNames x; clear_value x)
    | with_reducible exact Onward.refl _
    | with_reducible apply onward_driveOff
    | with_reducible apply onward_setDielet
    | with_reducible apply onward_setView
    | with_reducible apply onward_syncEnables
    | with_reducible apply onward_ite
    | with_reducible apply onward_forL
    | intro _ _ _

theorem onward_dropEnable {z : State} (n : Nat) (s : State) (hz : Onward z s) : Onward z (dropEnable n s) := by
  unfold dropEnable
  repeat' first
    | with_reducible assumption
    | (extract_lets +onlyGivenNames x; refine (fun hx : Onward z x => ?_) ?_; (on_goal 1 => clear_value x);
        (on_goal 2 => subst x))
    | (extract_lets +onlyGivenNames x; refine (fun hx : Onward z x.1 => ?_) ?_; (on_goal 1 => clear_value x);
        (on_goal 2 => subst x))
    | (extract_lets +onlyGivenNames x; clear_value x)
    | with_reducible exact Onward.refl _
    | with_reducible apply onward_afterEnableFall
    | with_reducible apply onward_flag
    | intro _ _ _
    | intro _ _
    | dsimp only
    | fail_if_no_progress with_reducible apply onward_mk

theorem onward_sendAlert {z : State} (n c : Nat) (s : State) (hz : Onward z s) : Onward z (sendAlert n c s) := by
  unfold sendAlert
  repeat' first
    | with_reducible assumption
    | (extract_lets +onlyGivenNames x; clear_value x)
    | with_reducible exact Onward.refl _
    | with_reducible apply onward_setDielet

theorem onward_toHiz {z : State} (n cause : Nat) (s : State) (hz : Onward z s) : Onward z (toHiz n cause s) := by
  unfold toHiz
  repeat' first
    | with_reducible assumption
    | (extract_lets +onlyGivenNames x; clear_value x)
    | with_reducible exact Onward.refl _
    | with_reducible apply onward_sendAlert
    | with_reducible apply onward_setDielet

theorem onward_wakeLink {z : State} (n : Nat) (s : State) (hz : Onward z s) : Onward z (wakeLink n s) := by
  unfold wakeLink
  repeat' first
    | with_reducible assumption
    | (extract_lets +onlyGivenNames x; refine (fun hx : Onward z x => ?_) ?_; (on_goal 1 => clear_value x);
        (on_goal 2 => subst x))
    | (extract_lets +onlyGivenNames x; clear_value x)
    | with_reducible exact Onward.refl _
    | with_reducible apply onward_flag
    | with_reducible apply onward_put
    | with_reducible apply onward_setDielet
    | with_reducible apply onward_setLink
    | with_reducible apply onward_ite

theorem onward_mustWait {z : State} (n : Nat) (s : State) (hz : Onward z s) : Onward z (mustWait n s) := by
  unfold mustWait
  repeat' first
    | with_reducible assumption
    | with_reducible exact Onward.refl _
    | with_reducible apply onward_syncCmd
    | with_reducible apply onward_ite
    | intro _ _ _
    | intro _ _
    | split
    | dsimp only
    | fail_if_no_progress with_reducible apply onward_mk

theorem onward_syncHold {z : State} (n : Nat) (s : State) (hz : Onward z s) : Onward z (syncHold n s) := by
  unfold syncHold
  repeat' first
    | with_reducible assumption
    | (extract_lets +onlyGivenNames x; refine (fun hx : Onward z x => ?_) ?_; (on_goal 1 => clear_value x);
        (on_goal 2 => subst x))
    | (extract_lets +onlyGivenNames x; clear_value x)
    | with_reducible exact Onward.refl _
    | with_reducible apply onward_driveOff
    | with_reducible apply onward_mustWait
    | with_reducible apply onward_queueFrame
    | with_reducible apply onward_setLink
    | with_reducible apply onward_ite

theorem onward_syncStitch {z : State} (n : Nat) (s : State) (hz : Onward z s) : Onward z (syncStitch n s) := by
  unfold syncStitch
  repeat' first
    | with_reducible assumption
    | with_reducible exact Onward.refl _
    | with_reducible apply onward_syncCmd
    | with_reducible apply onward_syncHold

theorem onward_pleatSees {z : State} (c : Nat) (s : State) (hz : Onward z s) : Onward z (pleatSees c s) := by
  unfold pleatSees
  repeat' first
    | with_reducible assumption
    | (extract_lets +onlyGivenNames x; refine (fun hx : Onward z x => ?_) ?_; (on_goal 1 => clear_value x);
        (on_goal 2 => subst x))
    | (extract_lets +onlyGivenNames x; refine (fun hx : Onward z x.1 => ?_) ?_; (on_goal 1 => clear_value x);
        (on_goal 2 => subst x))
    | (extract_lets +onlyGivenNames x; clear_value x)
    | with_reducible exact Onward.refl _
    | with_reducible apply onward_flag
    | with_reducible apply onward_inc
    | with_reducible apply onward_setPltSt
    | with_reducible apply onward_ite
    | intro _ _ _
    | intro _ _
    | split
    | dsimp only
    | fail_if_no_progress with_reducible apply onward_mk

theorem onward_pleatsSee {z : State} (s : State) (hz : Onward z s) : Onward z (pleatsSee s) := by
  unfold pleatsSee
  repeat' first
    | with_reducible assumption
    | with_reducible exact Onward.refl _
    | with_reducible apply onward_pleatSees
    | with_reducible apply onward_forL
    | intro _ _ _
    | intro _ _
    | dsimp only
    | fail_if_no_progress with_reducible apply onward_mk

theorem onward_settleDep {z : State} (c : Nat) (s : State) (hz : Onward z s) : Onward z (settleDep c s) := by
  unfold settleDep
  repeat' first
    | with_reducible assumption
    | with_reducible exact Onward.refl _
    | intro _ _ _
    | intro _ _
    | dsimp only
    | fail_if_no_progress with_reducible apply onward_mk

theorem onward_parkSync {z : State} (c : Nat) (s : State) (hz : Onward z s) : Onward z (parkSync c s) := by
  unfold parkSync
  repeat' first
    | with_reducible assumption
    | (extract_lets +onlyGivenNames x; refine (fun hx : Onward z x => ?_) ?_; (on_goal 1 => clear_value x);
        (on_goal 2 => subst x))
    | (extract_lets +onlyGivenNames x; clear_value x)
    | with_reducible exact Onward.refl _
    | with_reducible apply onward_flag
    | with_reducible apply onward_setCtxSt
    | with_reducible apply onward_setPltSt
    | with_reducible apply onward_settleDep
    | with_reducible apply onward_ite
    | intro _ _ _
    | intro _ _
    | split

theorem onward_syncContext {z : State} (c : Nat) (s : State) (hz : Onward z s) : Onward z (syncContext c s) := by
  unfold syncContext
  repeat' first
    | with_reducible assumption
    | (extract_lets +onlyGivenNames x; clear_value x)
    | with_reducible exact Onward.refl _
    | with_reducible apply onward_flag
    | with_reducible apply onward_parkSync
    | with_reducible apply onward_ite

theorem onward_syncHeld {z : State} (s : State) (hz : Onward z s) : Onward z (syncHeld s) := by
  unfold syncHeld
  repeat' first
    | with_reducible assumption
    | (extract_lets +onlyGivenNames x; refine (fun hx : Onward z x => ?_) ?_; (on_goal 1 => clear_value x);
        (on_goal 2 => subst x))
    | (extract_lets +onlyGivenNames x; refine (fun hx : Onward z x.1 => ?_) ?_; (on_goal 1 => clear_value x);
        (on_goal 2 => subst x))
    | (extract_lets +onlyGivenNames x; clear_value x)
    | with_reducible exact Onward.refl _
    | with_reducible apply onward_flag
    | with_reducible apply onward_refreshCaps
    | with_reducible apply onward_syncContext
    | with_reducible apply onward_ite
    | with_reducible apply onward_forL
    | intro _ _ _
    | intro _ _
    | split
    | dsimp only
    | fail_if_no_progress with_reducible apply onward_mk

theorem onward_syncHolds {z : State} (s : State) (hz : Onward z s) : Onward z (syncHolds s) := by
  unfold syncHolds
  repeat' first
    | with_reducible assumption
    | with_reducible exact Onward.refl _
    | with_reducible apply onward_syncHeld
    | with_reducible apply onward_syncStitch
    | with_reducible apply onward_forL

theorem onward_liftOwn {z : State} (n : Nat) (s : State) (hz : Onward z s) : Onward z (liftOwn n s) := by
  unfold liftOwn
  repeat' first
    | with_reducible assumption
    | (extract_lets +onlyGivenNames x; refine (fun hx : Onward z x => ?_) ?_; (on_goal 1 => clear_value x);
        (on_goal 2 => subst x))
    | (extract_lets +onlyGivenNames x; clear_value x)
    | with_reducible exact Onward.refl _
    | with_reducible apply onward_mustWait
    | with_reducible apply onward_queueFrame
    | with_reducible apply onward_setLink
    | with_reducible apply onward_wakeLink
    | with_reducible apply onward_ite

end Sys2Proof.Machine
end

