-- ==== Sys2Proof/Laws/OnwardLane.lean ====
section
/-!
SUPPORT. Every update of Machine/Lane.lean leads onward; every command of it is answered.
-/
set_option Elab.async false

namespace Sys2Proof.Machine

theorem onward_setFabPort {z : State} (s : State) (p : Nat) (x : PortSt)
    (hz : Onward z s) : Onward z (setFabPort s p x) := by
  unfold setFabPort
  repeat' first
    | with_reducible assumption
    | (extract_lets +onlyGivenNames x; clear_value x)
    | with_reducible exact Onward.refl _
    | intro _ _ _
    | intro _ _
    | dsimp only
    | fail_if_no_progress with_reducible apply onward_mk

theorem onward_enqueue {z : State} (p inp : Nat) (m : FabMsg) (s : State)
    (hz : Onward z s) : Onward z (enqueue p inp m s) := by
  unfold enqueue
  repeat' first
    | with_reducible assumption
    | (extract_lets +onlyGivenNames x; clear_value x)
    | with_reducible exact Onward.refl _
    | with_reducible apply onward_setFabPort
    | with_reducible apply onward_ite

theorem onward_sendLocal {z : State} (p ty chunk : Nat) (bs : List Byte) (s : State)
    (hz : Onward z s) : Onward z (sendLocal p ty chunk bs s) := by
  unfold sendLocal
  repeat' first
    | with_reducible assumption
    | with_reducible exact Onward.refl _
    | with_reducible apply onward_enqueue
    | intro _ _ _
    | intro _ _
    | dsimp only
    | fail_if_no_progress with_reducible apply onward_mk

theorem onward_noRoute {z : State} (s : State) (hz : Onward z s) : Onward z (noRoute s) := by
  unfold noRoute
  repeat' first
    | with_reducible assumption
    | with_reducible exact Onward.refl _
    | with_reducible apply onward_inc

theorem onward_noteSent {z : State} (r e n : Nat) (s : State) (hz : Onward z s) : Onward z (noteSent r e n s) := by
  unfold noteSent
  repeat' first
    | with_reducible assumption
    | (extract_lets +onlyGivenNames x; refine (fun hx : Onward z x => ?_) ?_; (on_goal 1 => clear_value x);
        (on_goal 2 => subst x))
    | (extract_lets +onlyGivenNames x; refine (fun hx : Onward z x.1 => ?_) ?_; (on_goal 1 => clear_value x);
        (on_goal 2 => subst x))
    | (extract_lets +onlyGivenNames x; clear_value x)
    | with_reducible exact Onward.refl _
    | intro _ _ _
    | intro _ _
    | dsimp only
    | fail_if_no_progress with_reducible apply onward_mk

theorem onward_sendRouted {z : State} (ty r e chunk : Nat) (bs : List Byte) (s : State)
    (hz : Onward z s) : Onward z (sendRouted ty r e chunk bs s) := by
  unfold sendRouted
  repeat' first
    | with_reducible assumption
    | (extract_lets +onlyGivenNames x; refine (fun hx : Onward z x => ?_) ?_; (on_goal 1 => clear_value x);
        (on_goal 2 => subst x))
    | (extract_lets +onlyGivenNames x; refine (fun hx : Onward z x.1 => ?_) ?_; (on_goal 1 => clear_value x);
        (on_goal 2 => subst x))
    | (extract_lets +onlyGivenNames x; clear_value x)
    | with_reducible exact Onward.refl _
    | with_reducible apply onward_enqueue
    | with_reducible apply onward_noRoute
    | with_reducible apply onward_noteSent
    | with_reducible apply onward_ite
    | intro _ _ _
    | intro _ _
    | split
    | dsimp only
    | fail_if_no_progress with_reducible apply onward_mk

theorem onward_sendRrsp {z : State} (dst epoch status : Nat) (head : List Byte) (ws : List Word) (s : State)
    (hz : Onward z s) : Onward z (sendRrsp dst epoch status head ws s) := by
  unfold sendRrsp
  repeat' first
    | with_reducible assumption
    | with_reducible exact Onward.refl _
    | with_reducible apply onward_sendRouted

theorem onward_settleWrites {z : State} (s : State) (hz : Onward z s) : Onward z (settleWrites s) := by
  unfold settleWrites
  repeat' first
    | with_reducible assumption
    | (extract_lets +onlyGivenNames x; clear_value x)
    | with_reducible exact Onward.refl _
    | with_reducible apply onward_sendRrsp
    | with_reducible apply onward_forL
    | intro _ _ _
    | intro _ _
    | dsimp only
    | fail_if_no_progress with_reducible apply onward_mk

end Sys2Proof.Machine
end

