-- ==== Sys2Proof/Laws/OnwardEnergy.lean ====
section
/-!
SUPPORT. Every update of Machine/Energy.lean leads onward; every command of it is answered.
-/
set_option Elab.async false

namespace Sys2Proof.Machine

theorem onward_setMtrCh {z : State} (s : State) (c : Nat) (x : MtrCh)
    (hz : Onward z s) : Onward z (setMtrCh s c x) := by
  unfold setMtrCh
  repeat' first
    | with_reducible assumption
    | (extract_lets +onlyGivenNames x; clear_value x)
    | with_reducible exact Onward.refl _
    | intro _ _ _
    | intro _ _
    | dsimp only
    | fail_if_no_progress with_reducible apply onward_mk

theorem onward_setRingSlot {z : State} (s : State) (k : Nat) (x : RingSlot)
    (hz : Onward z s) : Onward z (setRingSlot s k x) := by
  unfold setRingSlot
  repeat' first
    | with_reducible assumption
    | (extract_lets +onlyGivenNames x; clear_value x)
    | with_reducible exact Onward.refl _
    | intro _ _ _
    | intro _ _
    | dsimp only
    | fail_if_no_progress with_reducible apply onward_mk

theorem onward_addEnergy {z : State} (c q e : Nat) (s : State) (hz : Onward z s) : Onward z (addEnergy c q e s) := by
  unfold addEnergy
  repeat' first
    | with_reducible assumption
    | (extract_lets +onlyGivenNames x; refine (fun hx : Onward z x => ?_) ?_; (on_goal 1 => clear_value x);
        (on_goal 2 => subst x))
    | (extract_lets +onlyGivenNames x; clear_value x)
    | with_reducible exact Onward.refl _
    | with_reducible apply onward_flag
    | with_reducible apply onward_put
    | with_reducible apply onward_ite
    | intro _ _ _
    | intro _ _
    | split
    | dsimp only
    | fail_if_no_progress with_reducible apply onward_mk

theorem onward_newEvent {z : State} (s : State) (hz : Onward z s) : Onward z (newEvent s) := by
  unfold newEvent
  repeat' first
    | with_reducible assumption
    | (extract_lets +onlyGivenNames x; clear_value x)
    | with_reducible exact Onward.refl _
    | intro _ _ _
    | intro _ _
    | dsimp only
    | fail_if_no_progress with_reducible apply onward_mk

theorem onward_meetAsk {z : State} (s : State) (hz : Onward z s) : Onward z (meetAsk s) := by
  unfold meetAsk
  repeat' first
    | with_reducible assumption
    | (extract_lets +onlyGivenNames x; clear_value x)
    | with_reducible exact Onward.refl _
    | with_reducible apply onward_ite
    | intro _ _ _
    | intro _ _
    | split
    | dsimp only
    | fail_if_no_progress with_reducible apply onward_mk

theorem onward_closeWindow {z : State} (c : Nat) (stop : Bool) (s : State)
    (hz : Onward z s) : Onward z (closeWindow c stop s) := by
  unfold closeWindow
  repeat' first
    | with_reducible assumption
    | (extract_lets +onlyGivenNames x; refine (fun hx : Onward z x => ?_) ?_; (on_goal 1 => clear_value x);
        (on_goal 2 => subst x))
    | (extract_lets +onlyGivenNames x; clear_value x)
    | with_reducible exact Onward.refl _
    | with_reducible apply onward_meetAsk
    | with_reducible apply onward_setMtrCh
    | with_reducible apply onward_ite
    | intro _ _ _
    | intro _ _
    | split
    | dsimp only
    | fail_if_no_progress with_reducible apply onward_mk

theorem onward_stopMetering {z : State} (s : State) (hz : Onward z s) : Onward z (stopMetering s) := by
  unfold stopMetering
  repeat' first
    | with_reducible assumption
    | (extract_lets +onlyGivenNames x; refine (fun hx : Onward z x => ?_) ?_; (on_goal 1 => clear_value x);
        (on_goal 2 => subst x))
    | (extract_lets +onlyGivenNames x; clear_value x)
    | with_reducible exact Onward.refl _
    | with_reducible apply onward_closeWindow
    | with_reducible apply onward_newEvent
    | with_reducible apply onward_ite
    | with_reducible apply onward_forL
    | intro _ _ _
    | intro _ _
    | split
    | dsimp only
    | fail_if_no_progress with_reducible apply onward_mk

theorem onward_addWindow {z : State} (c : Nat) (x : List Nat) (w : MtrWin) (s : State)
    (hz : Onward z s) : Onward z (addWindow c x w s) := by
  unfold addWindow
  repeat' first
    | with_reducible assumption
    | (extract_lets +onlyGivenNames x; refine (fun hx : Onward z x => ?_) ?_; (on_goal 1 => clear_value x);
        (on_goal 2 => subst x))
    | (extract_lets +onlyGivenNames x; clear_value x)
    | with_reducible exact Onward.refl _
    | with_reducible apply onward_addEnergy
    | with_reducible apply onward_flag
    | with_reducible apply onward_inc
    | with_reducible apply onward_put
    | with_reducible apply onward_sput
    | with_reducible apply onward_ite

theorem onward_takeWindow {z : State} (c : Nat) (w : MtrShut) (s : State)
    (hz : Onward z s) : Onward z (takeWindow c w s) := by
  unfold takeWindow
  repeat' first
    | with_reducible assumption
    | (extract_lets +onlyGivenNames x; refine (fun hx : Onward z x => ?_) ?_; (on_goal 1 => clear_value x);
        (on_goal 2 => subst x))
    | (extract_lets +onlyGivenNames x; clear_value x)
    | with_reducible exact Onward.refl _
    | with_reducible apply onward_addWindow
    | intro _ _ _
    | intro _ _
    | dsimp only
    | fail_if_no_progress with_reducible apply onward_mk

theorem onward_snapshot {z : State} (d : MtrDue) (s : State) (hz : Onward z s) : Onward z (snapshot d s) := by
  unfold snapshot
  repeat' first
    | with_reducible assumption
    | (extract_lets +onlyGivenNames x; refine (fun hx : Onward z x => ?_) ?_; (on_goal 1 => clear_value x);
        (on_goal 2 => subst x))
    | (extract_lets +onlyGivenNames x; clear_value x)
    | with_reducible exact Onward.refl _
    | with_reducible apply onward_addMirror
    | with_reducible apply onward_inc
    | with_reducible apply onward_ite
    | intro _ _ _
    | intro _ _
    | split
    | dsimp only
    | fail_if_no_progress with_reducible apply onward_mk

theorem onward_takeDues {z : State} (s : State) (hz : Onward z s) : Onward z (takeDues s) := by
  unfold takeDues
  repeat' first
    | with_reducible assumption
    | (extract_lets +onlyGivenNames x; clear_value x)
    | with_reducible exact Onward.refl _
    | with_reducible apply onward_snapshot
    | with_reducible apply onward_forL
    | intro _ _ _
    | intro _ _
    | dsimp only
    | fail_if_no_progress with_reducible apply onward_mk

theorem onward_closeMetering {z : State} (s : State) (hz : Onward z s) : Onward z (closeMetering s) := by
  unfold closeMetering
  repeat' first
    | with_reducible assumption
    | (extract_lets +onlyGivenNames x; refine (fun hx : Onward z x => ?_) ?_; (on_goal 1 => clear_value x);
        (on_goal 2 => subst x))
    | (extract_lets +onlyGivenNames x; clear_value x)
    | with_reducible exact Onward.refl _
    | with_reducible apply onward_meetAsk
    | with_reducible apply onward_setMtrCh
    | with_reducible apply onward_stopMetering
    | with_reducible apply onward_takeDues
    | with_reducible apply onward_takeWindow
    | with_reducible apply onward_ite
    | with_reducible apply onward_forL
    | intro _ _ _

end Sys2Proof.Machine
end

