-- ==== Sys2Proof/Laws/OnwardMode.lean ====
section
/-!
SUPPORT. Every update of Machine/Mode.lean leads onward; every command of it is answered.
-/
set_option Elab.async false

namespace Sys2Proof.Machine

theorem onward_showLedger {z : State} (n : Nat) (s : State) (hz : Onward z s) : Onward z (showLedger n s) := by
  unfold showLedger
  repeat' first
    | with_reducible assumption
    | (extract_lets +onlyGivenNames x; clear_value x)
    | with_reducible exact Onward.refl _
    | with_reducible apply onward_flag
    | with_reducible apply onward_put

theorem onward_putLedger {z : State} (n : Nat) (e : LedgerEntry) (s : State)
    (hz : Onward z s) : Onward z (putLedger n e s) := by
  unfold putLedger
  repeat' first
    | with_reducible assumption
    | (extract_lets +onlyGivenNames x; refine (fun hx : Onward z x => ?_) ?_; (on_goal 1 => clear_value x);
        (on_goal 2 => subst x))
    | with_reducible exact Onward.refl _
    | with_reducible apply onward_addMirror
    | with_reducible apply onward_flag
    | with_reducible apply onward_put
    | with_reducible apply onward_showLedger
    | intro _ _ _
    | intro _ _
    | dsimp only
    | fail_if_no_progress with_reducible apply onward_mk

theorem onward_leaveFault {z : State} (n : Nat) (s : State) (hz : Onward z s) : Onward z (leaveFault n s) := by
  unfold leaveFault
  repeat' first
    | with_reducible assumption
    | (extract_lets +onlyGivenNames x; clear_value x)
    | with_reducible exact Onward.refl _
    | with_reducible apply onward_setLink
    | with_reducible apply onward_ite

theorem onward_retire {z : State} (n cause : Nat) (s : State) (hz : Onward z s) : Onward z (retire n cause s) := by
  unfold retire
  repeat' first
    | with_reducible assumption
    | (extract_lets +onlyGivenNames x; refine (fun hx : Onward z x => ?_) ?_; (on_goal 1 => clear_value x);
        (on_goal 2 => subst x))
    | (extract_lets +onlyGivenNames x; refine (fun hx : Onward z x.1 => ?_) ?_; (on_goal 1 => clear_value x);
        (on_goal 2 => subst x))
    | (extract_lets +onlyGivenNames x; clear_value x)
    | with_reducible exact Onward.refl _
    | with_reducible apply onward_checkPcdone
    | with_reducible apply onward_flag
    | with_reducible apply onward_leaveFault
    | with_reducible apply onward_put
    | with_reducible apply onward_putLedger
    | with_reducible apply onward_queueFrame
    | with_reducible apply onward_refreshCaps
    | with_reducible apply onward_setLink
    | with_reducible apply onward_syncCmd
    | with_reducible apply onward_ite
    | intro _ _ _
    | intro _ _
    | split
    | dsimp only
    | fail_if_no_progress with_reducible apply onward_mk

theorem onward_unretire {z : State} (n : Nat) (s : State) (hz : Onward z s) : Onward z (unretire n s) := by
  unfold unretire
  repeat' first
    | with_reducible assumption
    | (extract_lets +onlyGivenNames x; refine (fun hx : Onward z x => ?_) ?_; (on_goal 1 => clear_value x);
        (on_goal 2 => subst x))
    | (extract_lets +onlyGivenNames x; refine (fun hx : Onward z x.1 => ?_) ?_; (on_goal 1 => clear_value x);
        (on_goal 2 => subst x))
    | (extract_lets +onlyGivenNames x; clear_value x)
    | with_reducible exact Onward.refl _
    | with_reducible apply onward_leaveFault
    | with_reducible apply onward_putLedger
    | with_reducible apply onward_queueFrame
    | with_reducible apply onward_refreshCaps
    | with_reducible apply onward_syncStitch
    | with_reducible apply onward_ite
    | intro _ _ _
    | intro _ _
    | split
    | dsimp only
    | fail_if_no_progress with_reducible apply onward_mk

theorem onward_logEvent {z : State} (ty cls tier : Nat) (shadow esc : Bool) (scope detail rcnt escn : Nat) (s : State)
    (hz : Onward z s) : Onward z (logEvent ty cls tier shadow esc scope detail rcnt escn s) := by
  unfold logEvent
  repeat' first
    | with_reducible assumption
    | (extract_lets +onlyGivenNames x; refine (fun hx : Onward z x => ?_) ?_; (on_goal 1 => clear_value x);
        (on_goal 2 => subst x))
    | (extract_lets +onlyGivenNames x; clear_value x)
    | with_reducible exact Onward.refl _
    | with_reducible apply onward_addMirror
    | with_reducible apply onward_incSat
    | with_reducible apply onward_put
    | with_reducible apply onward_ite

theorem onward_syncContactors {z : State} (s : State) (hz : Onward z s) : Onward z (syncContactors s) := by
  unfold syncContactors
  repeat' first
    | with_reducible assumption
    | (extract_lets +onlyGivenNames x; refine (fun hx : Onward z x => ?_) ?_; (on_goal 1 => clear_value x);
        (on_goal 2 => subst x))
    | (extract_lets +onlyGivenNames x; clear_value x)
    | with_reducible exact Onward.refl _
    | with_reducible apply onward_put
    | with_reducible apply onward_ite
    | with_reducible apply onward_foldl
    | with_reducible apply onward_foldl_fst
    | intro _ _ _
    | intro _ _
    | split
    | dsimp only
    | fail_if_no_progress with_reducible apply onward_mk

theorem onward_setMode {z : State} (m : Nat) (s : State) (hz : Onward z s) : Onward z (setMode m s) := by
  unfold setMode
  repeat' first
    | with_reducible assumption
    | (extract_lets +onlyGivenNames x; refine (fun hx : Onward z x => ?_) ?_; (on_goal 1 => clear_value x);
        (on_goal 2 => subst x))
    | (extract_lets +onlyGivenNames x; refine (fun hx : Onward z x.1 => ?_) ?_; (on_goal 1 => clear_value x);
        (on_goal 2 => subst x))
    | (extract_lets +onlyGivenNames x; clear_value x)
    | with_reducible exact Onward.refl _
    | with_reducible apply onward_flag
    | with_reducible apply onward_pleatsSee
    | with_reducible apply onward_put
    | with_reducible apply onward_syncContactors
    | with_reducible apply onward_ite
    | intro _ _ _
    | intro _ _
    | split
    | dsimp only
    | fail_if_no_progress with_reducible apply onward_mk

theorem onward_clearRoots {z : State} (s : State) (hz : Onward z s) : Onward z (clearRoots s) := by
  unfold clearRoots
  repeat' first
    | with_reducible assumption
    | with_reducible exact Onward.refl _
    | with_reducible apply onward_dropEnable
    | with_reducible apply onward_forL

theorem onward_syncBusy {z : State} (s : State) (hz : Onward z s) : Onward z (syncBusy s) := by
  unfold syncBusy
  repeat' first
    | with_reducible assumption
    | with_reducible exact Onward.refl _
    | with_reducible apply onward_flag

theorem onward_switchGroupOn {z : State} (s : State) (hz : Onward z s) : Onward z (switchGroupOn s) := by
  unfold switchGroupOn
  repeat' first
    | with_reducible assumption
    | (extract_lets +onlyGivenNames x; clear_value x)
    | with_reducible exact Onward.refl _
    | with_reducible apply onward_syncBusy
    | intro _ _ _
    | intro _ _
    | dsimp only
    | fail_if_no_progress with_reducible apply onward_mk

theorem onward_beginPowerDown {z : State} (m : Nat) (s : State)
    (hz : Onward z s) : Onward z (beginPowerDown m s) := by
  unfold beginPowerDown
  repeat' first
    | with_reducible assumption
    | (extract_lets +onlyGivenNames x; refine (fun hx : Onward z x => ?_) ?_; (on_goal 1 => clear_value x);
        (on_goal 2 => subst x))
    | (extract_lets +onlyGivenNames x; clear_value x)
    | with_reducible exact Onward.refl _
    | with_reducible apply onward_closeMetering
    | with_reducible apply onward_queueFrame
    | with_reducible apply onward_syncBusy
    | with_reducible apply onward_ite
    | with_reducible apply onward_forL
    | intro _ _ _
    | intro _ _
    | split
    | dsimp only
    | fail_if_no_progress with_reducible apply onward_mk

theorem onward_askBleed {z : State} (n : Nat) (s : State) (hz : Onward z s) : Onward z (askBleed n s) := by
  unfold askBleed
  repeat' first
    | with_reducible assumption
    | (extract_lets +onlyGivenNames x; clear_value x)
    | with_reducible exact Onward.refl _
    | with_reducible apply onward_queueFrame
    | with_reducible apply onward_setBleedSt
    | with_reducible apply onward_ite

theorem onward_enterDischarge {z : State} (s : State) (hz : Onward z s) : Onward z (enterDischarge s) := by
  unfold enterDischarge
  repeat' first
    | with_reducible assumption
    | (extract_lets +onlyGivenNames x; refine (fun hx : Onward z x => ?_) ?_; (on_goal 1 => clear_value x);
        (on_goal 2 => subst x))
    | (extract_lets +onlyGivenNames x; refine (fun hx : Onward z x.1 => ?_) ?_; (on_goal 1 => clear_value x);
        (on_goal 2 => subst x))
    | (extract_lets +onlyGivenNames x; clear_value x)
    | with_reducible exact Onward.refl _
    | with_reducible apply onward_askBleed
    | with_reducible apply onward_flag
    | with_reducible apply onward_put
    | with_reducible apply onward_setMode
    | with_reducible apply onward_switchGroupOn
    | with_reducible apply onward_syncBusy
    | with_reducible apply onward_ite
    | with_reducible apply onward_forL
    | intro _ _ _
    | intro _ _
    | split
    | dsimp only
    | fail_if_no_progress with_reducible apply onward_mk

theorem onward_syncDisreq {z : State} (s : State) (hz : Onward z s) : Onward z (syncDisreq s) := by
  unfold syncDisreq
  repeat' first
    | with_reducible assumption
    | (extract_lets +onlyGivenNames x; refine (fun hx : Onward z x => ?_) ?_; (on_goal 1 => clear_value x);
        (on_goal 2 => subst x))
    | (extract_lets +onlyGivenNames x; clear_value x)
    | with_reducible exact Onward.refl _
    | with_reducible apply onward_enterDischarge
    | with_reducible apply onward_flag
    | with_reducible apply onward_ite

theorem onward_hostDischarge {z : State} (s : State) (hz : Onward z s) : Onward z (hostDischarge s) := by
  unfold hostDischarge
  repeat' first
    | with_reducible assumption
    | (extract_lets +onlyGivenNames x; refine (fun hx : Onward z x => ?_) ?_; (on_goal 1 => clear_value x);
        (on_goal 2 => subst x))
    | (extract_lets +onlyGivenNames x; refine (fun hx : Onward z x.1 => ?_) ?_; (on_goal 1 => clear_value x);
        (on_goal 2 => subst x))
    | (extract_lets +onlyGivenNames x; clear_value x)
    | with_reducible exact Onward.refl _
    | with_reducible apply onward_enterDischarge
    | with_reducible apply onward_syncDisreq
    | with_reducible apply onward_ite
    | intro _ _ _
    | intro _ _
    | split
    | dsimp only
    | fail_if_no_progress with_reducible apply onward_mk

theorem onward_hemOn {z : State} (n : Nat) (s : State) (hz : Onward z s) : Onward z (hemOn n s) := by
  unfold hemOn
  repeat' first
    | with_reducible assumption
    | (extract_lets +onlyGivenNames x; refine (fun hx : Onward z x => ?_) ?_; (on_goal 1 => clear_value x);
        (on_goal 2 => subst x))
    | (extract_lets +onlyGivenNames x; clear_value x)
    | with_reducible exact Onward.refl _
    | with_reducible apply onward_flag
    | with_reducible apply onward_setDielet
    | with_reducible apply onward_setLink
    | with_reducible apply onward_ite

theorem onward_hemOff {z : State} (n : Nat) (s : State) (hz : Onward z s) : Onward z (hemOff n s) := by
  unfold hemOff
  repeat' first
    | with_reducible assumption
    | (extract_lets +onlyGivenNames x; refine (fun hx : Onward z x => ?_) ?_; (on_goal 1 => clear_value x);
        (on_goal 2 => subst x))
    | (extract_lets +onlyGivenNames x; clear_value x)
    | with_reducible exact Onward.refl _
    | with_reducible apply onward_flag
    | with_reducible apply onward_mustWait
    | with_reducible apply onward_setDielet
    | with_reducible apply onward_ite

theorem onward_hemDemand {z : State} (b : Nat) (s : State) (hz : Onward z s) : Onward z (hemDemand b s) := by
  unfold hemDemand
  repeat' first
    | with_reducible assumption
    | (extract_lets +onlyGivenNames x; refine (fun hx : Onward z x => ?_) ?_; (on_goal 1 => clear_value x);
        (on_goal 2 => subst x))
    | (extract_lets +onlyGivenNames x; clear_value x)
    | with_reducible exact Onward.refl _
    | with_reducible apply onward_flag
    | with_reducible apply onward_hemOn
    | with_reducible apply onward_put
    | with_reducible apply onward_setMode
    | with_reducible apply onward_syncContactors
    | with_reducible apply onward_syncDisreq
    | with_reducible apply onward_ite
    | with_reducible apply onward_forL

theorem onward_hemClear {z : State} (s : State) (hz : Onward z s) : Onward z (hemClear s) := by
  unfold hemClear
  repeat' first
    | with_reducible assumption
    | (extract_lets +onlyGivenNames x; refine (fun hx : Onward z x => ?_) ?_; (on_goal 1 => clear_value x);
        (on_goal 2 => subst x))
    | with_reducible exact Onward.refl _
    | with_reducible apply onward_flag
    | with_reducible apply onward_hemOff
    | with_reducible apply onward_setMode
    | with_reducible apply onward_syncDisreq
    | with_reducible apply onward_syncHolds
    | with_reducible apply onward_ite
    | with_reducible apply onward_forL

theorem onward_unload {z : State} (s : State) (hz : Onward z s) : Onward z (unload s) := by
  unfold unload
  repeat' first
    | with_reducible assumption
    | (extract_lets +onlyGivenNames x; refine (fun hx : Onward z x => ?_) ?_; (on_goal 1 => clear_value x);
        (on_goal 2 => subst x))
    | with_reducible exact Onward.refl _
    | with_reducible apply onward_clearRoots
    | with_reducible apply onward_dropRegs
    | with_reducible apply onward_flag
    | with_reducible apply onward_put

theorem onward_goBasting {z : State} (s : State) (hz : Onward z s) : Onward z (goBasting s) := by
  unfold goBasting
  repeat' first
    | with_reducible assumption
    | (extract_lets +onlyGivenNames x; refine (fun hx : Onward z x => ?_) ?_; (on_goal 1 => clear_value x);
        (on_goal 2 => subst x))
    | (extract_lets +onlyGivenNames x; clear_value x)
    | with_reducible exact Onward.refl _
    | with_reducible apply onward_beginPowerDown
    | with_reducible apply onward_flag
    | with_reducible apply onward_setMode
    | with_reducible apply onward_syncBusy
    | with_reducible apply onward_ite
    | intro _ _ _
    | intro _ _
    | split
    | dsimp only
    | fail_if_no_progress with_reducible apply onward_mk

theorem onward_endStart {z : State} (s : State) (hz : Onward z s) : Onward z (endStart s) := by
  unfold endStart
  repeat' first
    | with_reducible assumption
    | (extract_lets +onlyGivenNames x; refine (fun hx : Onward z x => ?_) ?_; (on_goal 1 => clear_value x);
        (on_goal 2 => subst x))
    | (extract_lets +onlyGivenNames x; clear_value x)
    | with_reducible exact Onward.refl _
    | with_reducible apply onward_flag
    | intro _ _ _
    | intro _ _
    | dsimp only
    | fail_if_no_progress with_reducible apply onward_mk

theorem onward_startFailed {z : State} (c : Nat) (s : State) (hz : Onward z s) : Onward z (startFailed c s) := by
  unfold startFailed
  repeat' first
    | with_reducible assumption
    | (extract_lets +onlyGivenNames x; refine (fun hx : Onward z x => ?_) ?_; (on_goal 1 => clear_value x);
        (on_goal 2 => subst x))
    | (extract_lets +onlyGivenNames x; clear_value x)
    | with_reducible exact Onward.refl _
    | with_reducible apply onward_endStart
    | with_reducible apply onward_flag
    | with_reducible apply onward_goBasting
    | with_reducible apply onward_put
    | with_reducible apply onward_unload
    | with_reducible apply onward_ite
    | intro _ _ _
    | intro _ _
    | split
    | dsimp only
    | fail_if_no_progress with_reducible apply onward_mk

theorem onward_startSucceeded {z : State} (s : State) (hz : Onward z s) : Onward z (startSucceeded s) := by
  unfold startSucceeded
  repeat' first
    | with_reducible assumption
    | (extract_lets +onlyGivenNames x; refine (fun hx : Onward z x => ?_) ?_; (on_goal 1 => clear_value x);
        (on_goal 2 => subst x))
    | (extract_lets +onlyGivenNames x; clear_value x)
    | with_reducible exact Onward.refl _
    | with_reducible apply onward_endStart
    | with_reducible apply onward_flag
    | with_reducible apply onward_put
    | with_reducible apply onward_ite
    | intro _ _ _
    | intro _ _
    | split
    | dsimp only
    | fail_if_no_progress with_reducible apply onward_mk

theorem onward_loadSucceeded {z : State} (s : State) (hz : Onward z s) : Onward z (loadSucceeded s) := by
  unfold loadSucceeded
  repeat' first
    | with_reducible assumption
    | (extract_lets +onlyGivenNames x; refine (fun hx : Onward z x => ?_) ?_; (on_goal 1 => clear_value x);
        (on_goal 2 => subst x))
    | (extract_lets +onlyGivenNames x; clear_value x)
    | with_reducible exact Onward.refl _
    | with_reducible apply onward_flag
    | with_reducible apply onward_put
    | with_reducible apply onward_setMode
    | with_reducible apply onward_startSucceeded
    | with_reducible apply onward_ite
    | intro _ _ _
    | intro _ _
    | split
    | dsimp only
    | fail_if_no_progress with_reducible apply onward_mk

end Sys2Proof.Machine
end

