-- ==== Sys2Proof/Laws/OnwardGate.lean ====
section
/-!
SUPPORT. Every update of Machine/Gate.lean leads onward; every command of it is answered.
-/
set_option Elab.async false

namespace Sys2Proof.Machine

theorem onward_endRun {z : State} (p : Nat) (s : State) (hz : Onward z s) : Onward z (endRun p s) := by
  unfold endRun
  repeat' first
    | with_reducible assumption
    | (extract_lets +onlyGivenNames x; clear_value x)
    | with_reducible exact Onward.refl _
    | intro _ _ _
    | intro _ _
    | dsimp only
    | fail_if_no_progress with_reducible apply onward_mk

theorem onward_takeWord {z : State} (p a : Nat) (d : Word) (s : State)
    (hz : Onward z s) : Onward z (takeWord p a d s) := by
  unfold takeWord
  repeat' first
    | with_reducible assumption
    | (extract_lets +onlyGivenNames x; refine (fun hx : Onward z x => ?_) ?_; (on_goal 1 => clear_value x);
        (on_goal 2 => subst x))
    | (extract_lets +onlyGivenNames x; refine (fun hx : Onward z x.1 => ?_) ?_; (on_goal 1 => clear_value x);
        (on_goal 2 => subst x))
    | (extract_lets +onlyGivenNames x; clear_value x)
    | with_reducible exact Onward.refl _
    | with_reducible apply onward_syncQueue
    | with_reducible apply onward_ite
    | intro _ _ _
    | intro _ _
    | split
    | dsimp only
    | fail_if_no_progress with_reducible apply onward_mk

theorem onward_guarded {z : State} (p a : Nat) (d : Word) (eff : State → State) (s : State) (h_eff : ∀ a, Onward z a → Onward z (eff a))
    (hz : Onward z s) : Onward z (guarded p a d eff s) := by
  unfold guarded
  repeat' first
    | with_reducible assumption
    | (extract_lets +onlyGivenNames x; refine (fun hx : Onward z x => ?_) ?_; (on_goal 1 => clear_value x);
        (on_goal 2 => subst x))
    | (extract_lets +onlyGivenNames x; refine (fun hx : Onward z x.1 => ?_) ?_; (on_goal 1 => clear_value x);
        (on_goal 2 => subst x))
    | (extract_lets +onlyGivenNames x; clear_value x)
    | with_reducible exact Onward.refl _
    | with_reducible apply h_eff
    | with_reducible apply onward_discarded
    | with_reducible apply onward_endRun
    | with_reducible apply onward_hostFlag
    | with_reducible apply onward_settleWrites
    | with_reducible apply onward_syncHeld
    | with_reducible apply onward_takeWord
    | with_reducible apply onward_ite
    | intro _ _ _
    | intro _ _
    | split
    | dsimp only
    | fail_if_no_progress with_reducible apply onward_mk

theorem onward_plainWrite {z : State} (a : Nat) (d : Word) (s : State)
    (hz : Onward z s) : Onward z (plainWrite a d s) := by
  unfold plainWrite
  repeat' first
    | with_reducible assumption
    | (extract_lets +onlyGivenNames x; clear_value x)
    | with_reducible exact Onward.refl _
    | with_reducible apply onward_setWord
    | intro _ _ _
    | intro _ _
    | split

end Sys2Proof.Machine
end

