-- ==== Sys2Proof/Laws/OnwardCarrier.lean ====
section
/-!
SUPPORT. Every update of Machine/Carrier.lean leads onward; every command of it is answered.
-/
set_option Elab.async false

namespace Sys2Proof.Machine

theorem onward_setCarrier {z : State} (s : State) (n : Nat) (c : Carrier)
    (hz : Onward z s) : Onward z (setCarrier s n c) := by
  unfold setCarrier
  repeat' first
    | with_reducible assumption
    | with_reducible exact Onward.refl _
    | intro _ _ _
    | intro _ _
    | dsimp only
    | fail_if_no_progress with_reducible apply onward_mk

theorem onward_setFraction {z : State} (s : State) (n : Nat) (f : Fraction)
    (hz : Onward z s) : Onward z (setFraction s n f) := by
  unfold setFraction
  repeat' first
    | with_reducible assumption
    | with_reducible exact Onward.refl _
    | intro _ _ _
    | intro _ _
    | dsimp only
    | fail_if_no_progress with_reducible apply onward_mk

theorem onward_setNext {z : State} (n f : Nat) (s : State) (hz : Onward z s) : Onward z (setNext n f s) := by
  unfold setNext
  repeat' first
    | with_reducible assumption
    | (extract_lets +onlyGivenNames x; clear_value x)
    | with_reducible exact Onward.refl _
    | with_reducible apply onward_setFraction

theorem onward_commitFraction {z : State} (n : Nat) (s : State)
    (hz : Onward z s) : Onward z (commitFraction n s) := by
  unfold commitFraction
  repeat' first
    | with_reducible assumption
    | (extract_lets +onlyGivenNames x; clear_value x)
    | with_reducible exact Onward.refl _
    | with_reducible apply onward_setFraction

theorem onward_hearBst {z : State} (n : Nat) (b : Bool) (at_ : Option Nat) (s : State)
    (hz : Onward z s) : Onward z (hearBst n b at_ s) := by
  unfold hearBst
  repeat' first
    | with_reducible assumption
    | (extract_lets +onlyGivenNames x; refine (fun hx : Onward z x => ?_) ?_; (on_goal 1 => clear_value x);
        (on_goal 2 => subst x))
    | (extract_lets +onlyGivenNames x; refine (fun hx : Onward z x.1 => ?_) ?_; (on_goal 1 => clear_value x);
        (on_goal 2 => subst x))
    | (extract_lets +onlyGivenNames x; clear_value x)
    | with_reducible exact Onward.refl _
    | with_reducible apply onward_flag
    | with_reducible apply onward_setFraction
    | with_reducible apply onward_ite
    | intro _ _ _
    | intro _ _
    | split
    | dsimp only
    | fail_if_no_progress with_reducible apply onward_mk

theorem onward_rephase {z : State} (n : Nat) (was : Int) (s : State)
    (hz : Onward z s) : Onward z (rephase n was s) := by
  unfold rephase
  repeat' first
    | with_reducible assumption
    | (extract_lets +onlyGivenNames x; clear_value x)
    | with_reducible exact Onward.refl _
    | with_reducible apply onward_flag
    | with_reducible apply onward_setCarrier

end Sys2Proof.Machine
end

