-- ==== Sys2Proof/Laws/OnwardPleat.lean ====
section
/-!
SUPPORT. Every update of Machine/Pleat.lean leads onward; every command of it is answered.
-/
set_option Elab.async false

namespace Sys2Proof.Machine

theorem onward_setPoolCell {z : State} (k v : Nat) (s : State) (hz : Onward z s) : Onward z (setPoolCell k v s) := by
  unfold setPoolCell
  repeat' first
    | with_reducible assumption
    | with_reducible exact Onward.refl _
    | intro _ _ _
    | intro _ _
    | dsimp only
    | fail_if_no_progress with_reducible apply onward_mk

theorem onward_setMemCell {z : State} (c i : Nat) (v : Int) (s : State)
    (hz : Onward z s) : Onward z (setMemCell c i v s) := by
  unfold setMemCell
  repeat' first
    | with_reducible assumption
    | with_reducible exact Onward.refl _
    | with_reducible apply onward_setPoolCell

theorem onward_clearCells {z : State} (c : Nat) (s : State) (hz : Onward z s) : Onward z (clearCells c s) := by
  unfold clearCells
  repeat' first
    | with_reducible assumption
    | with_reducible exact Onward.refl _
    | intro _ _ _
    | intro _ _
    | dsimp only
    | fail_if_no_progress with_reducible apply onward_mk

theorem onward_pleatRun {z : State} (c : Nat) (k : Capture) (ef : Int) (s : State)
    (hz : Onward z s) : Onward z (pleatRun c k ef s).1 := by
  unfold pleatRun
  repeat' first
    | with_reducible assumption
    | (extract_lets +onlyGivenNames x; refine (fun hx : Onward z x => ?_) ?_; (on_goal 1 => clear_value x);
        (on_goal 2 => subst x))
    | (extract_lets +onlyGivenNames x; refine (fun hx : Onward z x.1 => ?_) ?_; (on_goal 1 => clear_value x);
        (on_goal 2 => subst x))
    | (extract_lets +onlyGivenNames x; clear_value x)
    | with_reducible exact Onward.refl _
    | with_reducible apply onward_flag
    | with_reducible apply onward_inc
    | with_reducible apply onward_put
    | with_reducible apply onward_setMemCell
    | with_reducible apply onward_setPltSt
    | with_reducible apply onward_ite
    | with_reducible apply onward_forL
    | intro _ _ _
    | intro _ _
    | split
    | dsimp only
    | fail_if_no_progress with_reducible apply onward_mk

theorem onward_writePltQf {z : State} (c : Nat) (d : Word) (s : State)
    (hz : Onward z s) : Onward z (writePltQf c d s) := by
  unfold writePltQf
  repeat' first
    | with_reducible assumption
    | (extract_lets +onlyGivenNames x; clear_value x)
    | with_reducible exact Onward.refl _
    | with_reducible apply onward_flag
    | with_reducible apply onward_setWord
    | with_reducible apply onward_ite

theorem onward_writeWindow {z : State} (p i : Nat) (d : Word) (s : State)
    (hz : Onward z s) : Onward z (writeWindow p i d s) := by
  unfold writeWindow
  repeat' first
    | with_reducible assumption
    | (extract_lets +onlyGivenNames x; clear_value x)
    | with_reducible exact Onward.refl _
    | with_reducible apply onward_discarded
    | with_reducible apply onward_setPoolCell
    | with_reducible apply onward_ite

theorem goes_execPltQfWrite (c : Fin 64) (w : PortWrite) (s : State) : Goes s (execPltQfWrite c w s) := by
  unfold execPltQfWrite
  apply goes_next
  repeat' first
    | with_reducible assumption
    | with_reducible exact Onward.refl _
    | with_reducible apply onward_guarded
    | with_reducible apply onward_writePltQf

theorem goes_execPltWindowWrite (i : Fin 131072) (w : PortWrite) (s : State) :
    Goes s (execPltWindowWrite i w s) := by
  unfold execPltWindowWrite
  apply goes_next
  repeat' first
    | with_reducible assumption
    | with_reducible exact Onward.refl _
    | with_reducible apply onward_guarded
    | with_reducible apply onward_writeWindow

theorem goes_execPltClearDone (c : Fin 64) (s : State) : Goes s (execPltClearDone c s) := by
  unfold execPltClearDone
  apply goes_next
  repeat' first
    | with_reducible assumption
    | with_reducible exact Onward.refl _
    | with_reducible apply onward_clearCells
    | with_reducible apply onward_flag
    | with_reducible apply onward_parkSync
    | with_reducible apply onward_ite

end Sys2Proof.Machine
end

