-- ==== Sys2Proof/Laws/OnwardPorts.lean ====
section
/-!
SUPPORT. Every update of Machine/Ports.lean leads onward; every command of it is answered.
-/
set_option Elab.async false

namespace Sys2Proof.Machine

theorem onward_syncAgree {z : State} (s : State) (hz : Onward z s) : Onward z (syncAgree s) := by
  unfold syncAgree
  repeat' first
    | with_reducible assumption
    | (extract_lets +onlyGivenNames x; refine (fun hx : Onward z x => ?_) ?_; (on_goal 1 => clear_value x);
        (on_goal 2 => subst x))
    | (extract_lets +onlyGivenNames x; refine (fun hx : Onward z x.1 => ?_) ?_; (on_goal 1 => clear_value x);
        (on_goal 2 => subst x))
    | (extract_lets +onlyGivenNames x; clear_value x)
    | with_reducible exact Onward.refl _
    | with_reducible apply onward_flag
    | with_reducible apply onward_inc
    | with_reducible apply onward_put
    | with_reducible apply onward_ite
    | with_reducible apply onward_forL
    | intro _ _ _
    | intro _ _
    | split
    | dsimp only
    | fail_if_no_progress with_reducible apply onward_mk

theorem onward_runFree {z : State} (raise : Raise) (n : Nat) (s : State) (h_raise : ∀ c sc a, Onward z a → Onward z (raise c sc a))
    (hz : Onward z s) : Onward z (runFree raise n s) := by
  unfold runFree
  repeat' first
    | with_reducible assumption
    | (extract_lets +onlyGivenNames x; refine (fun hx : Onward z x => ?_) ?_; (on_goal 1 => clear_value x);
        (on_goal 2 => subst x))
    | (extract_lets +onlyGivenNames x; refine (fun hx : Onward z x.1 => ?_) ?_; (on_goal 1 => clear_value x);
        (on_goal 2 => subst x))
    | (extract_lets +onlyGivenNames x; clear_value x)
    | with_reducible exact Onward.refl _
    | with_reducible apply h_raise
    | with_reducible apply onward_flag
    | with_reducible apply onward_setCarrier
    | with_reducible apply onward_setEpisode
    | with_reducible apply onward_ite
    | intro _ _ _ _
    | intro _ _ _
    | intro _ _
    | split
    | dsimp only
    | fail_if_no_progress with_reducible apply onward_mk

theorem onward_clearTvalid {z : State} (raise : Raise) (s : State) (h_raise : ∀ c sc a, Onward z a → Onward z (raise c sc a))
    (hz : Onward z s) : Onward z (clearTvalid raise s) := by
  unfold clearTvalid
  repeat' first
    | with_reducible assumption
    | (extract_lets +onlyGivenNames x; refine (fun hx : Onward z x => ?_) ?_; (on_goal 1 => clear_value x);
        (on_goal 2 => subst x))
    | (extract_lets +onlyGivenNames x; refine (fun hx : Onward z x.1 => ?_) ?_; (on_goal 1 => clear_value x);
        (on_goal 2 => subst x))
    | (extract_lets +onlyGivenNames x; clear_value x)
    | with_reducible exact Onward.refl _
    | with_reducible apply h_raise
    | with_reducible apply onward_flag
    | with_reducible apply onward_runFree
    | with_reducible apply onward_ite
    | with_reducible apply onward_forL
    | intro _ _ _ _
    | intro _ _ _
    | intro _ _
    | split
    | dsimp only
    | fail_if_no_progress with_reducible apply onward_mk

theorem onward_setFabTime {z : State} (t : Nat) (s : State) (hz : Onward z s) : Onward z (setFabTime t s) := by
  unfold setFabTime
  repeat' first
    | with_reducible assumption
    | (extract_lets +onlyGivenNames x; clear_value x)
    | with_reducible exact Onward.refl _
    | intro _ _ _
    | intro _ _
    | dsimp only
    | fail_if_no_progress with_reducible apply onward_mk

theorem onward_syncSource {z : State} (raise : Raise) (s : State) (h_raise : ∀ c sc a, Onward z a → Onward z (raise c sc a))
    (hz : Onward z s) : Onward z (syncSource raise s) := by
  unfold syncSource
  repeat' first
    | with_reducible assumption
    | (extract_lets +onlyGivenNames x; refine (fun hx : Onward z x => ?_) ?_; (on_goal 1 => clear_value x);
        (on_goal 2 => subst x))
    | (extract_lets +onlyGivenNames x; refine (fun hx : Onward z x.1 => ?_) ?_; (on_goal 1 => clear_value x);
        (on_goal 2 => subst x))
    | (extract_lets +onlyGivenNames x; clear_value x)
    | with_reducible exact Onward.refl _
    | with_reducible apply h_raise
    | with_reducible apply onward_clearTvalid
    | with_reducible apply onward_flag
    | with_reducible apply onward_put
    | with_reducible apply onward_setFabTime
    | with_reducible apply onward_ite
    | intro _ _ _ _
    | intro _ _ _
    | intro _ _
    | split
    | dsimp only
    | fail_if_no_progress with_reducible apply onward_mk

theorem onward_putRoute {z : State} (r : Nat) (s : State) (hz : Onward z s) : Onward z (putRoute r s) := by
  unfold putRoute
  repeat' first
    | with_reducible assumption
    | (extract_lets +onlyGivenNames x; refine (fun hx : Onward z x => ?_) ?_; (on_goal 1 => clear_value x);
        (on_goal 2 => subst x))
    | (extract_lets +onlyGivenNames x; clear_value x)
    | with_reducible exact Onward.refl _
    | with_reducible apply onward_flag
    | with_reducible apply onward_put
    | with_reducible apply onward_ite

theorem onward_sendRoutes {z : State} (s : State) (hz : Onward z s) : Onward z (sendRoutes s) := by
  unfold sendRoutes
  repeat' first
    | with_reducible assumption
    | with_reducible exact Onward.refl _
    | with_reducible apply onward_sendLocal
    | with_reducible apply onward_forL
    | intro _ _ _

theorem onward_raisePort {z : State} (raise : Raise) (p : Nat) (s : State) (h_raise : ∀ c sc a, Onward z a → Onward z (raise c sc a))
    (hz : Onward z s) : Onward z (raisePort raise p s) := by
  unfold raisePort
  repeat' first
    | with_reducible assumption
    | (extract_lets +onlyGivenNames x; refine (fun hx : Onward z x => ?_) ?_; (on_goal 1 => clear_value x);
        (on_goal 2 => subst x))
    | (extract_lets +onlyGivenNames x; refine (fun hx : Onward z x.1 => ?_) ?_; (on_goal 1 => clear_value x);
        (on_goal 2 => subst x))
    | (extract_lets +onlyGivenNames x; clear_value x)
    | with_reducible exact Onward.refl _
    | with_reducible apply h_raise
    | with_reducible apply onward_flag
    | with_reducible apply onward_setFabPort
    | with_reducible apply onward_ite
    | intro _ _ _ _
    | intro _ _ _
    | intro _ _
    | split
    | dsimp only
    | fail_if_no_progress with_reducible apply onward_mk

theorem onward_dropPort {z : State} (p : Nat) (s : State) (hz : Onward z s) : Onward z (dropPort p s) := by
  unfold dropPort
  repeat' first
    | with_reducible assumption
    | (extract_lets +onlyGivenNames x; refine (fun hx : Onward z x => ?_) ?_; (on_goal 1 => clear_value x);
        (on_goal 2 => subst x))
    | (extract_lets +onlyGivenNames x; refine (fun hx : Onward z x.1 => ?_) ?_; (on_goal 1 => clear_value x);
        (on_goal 2 => subst x))
    | (extract_lets +onlyGivenNames x; clear_value x)
    | with_reducible exact Onward.refl _
    | with_reducible apply onward_put
    | with_reducible apply onward_setFabPort
    | intro _ _ _
    | intro _ _
    | dsimp only
    | fail_if_no_progress with_reducible apply onward_mk

theorem onward_judgeFabric {z : State} (raise : Raise) (s : State) (h_raise : ∀ c sc a, Onward z a → Onward z (raise c sc a))
    (hz : Onward z s) : Onward z (judgeFabric raise s) := by
  unfold judgeFabric
  repeat' first
    | with_reducible assumption
    | with_reducible exact Onward.refl _
    | with_reducible apply h_raise
    | with_reducible apply onward_putRoute
    | with_reducible apply onward_syncAgree
    | with_reducible apply onward_syncSource
    | with_reducible apply onward_forL
    | intro _ _ _ _
    | intro _ _ _
    | intro _ _
    | dsimp only
    | fail_if_no_progress with_reducible apply onward_mk

theorem onward_portsGoDown {z : State} (raise : Raise) (ps : List Nat) (s : State) (h_raise : ∀ c sc a, Onward z a → Onward z (raise c sc a))
    (hz : Onward z s) : Onward z (portsGoDown raise ps s) := by
  unfold portsGoDown
  repeat' first
    | with_reducible assumption
    | (extract_lets +onlyGivenNames x; refine (fun hx : Onward z x => ?_) ?_; (on_goal 1 => clear_value x);
        (on_goal 2 => subst x))
    | (extract_lets +onlyGivenNames x; refine (fun hx : Onward z x.1 => ?_) ?_; (on_goal 1 => clear_value x);
        (on_goal 2 => subst x))
    | (extract_lets +onlyGivenNames x; clear_value x)
    | with_reducible exact Onward.refl _
    | with_reducible apply h_raise
    | with_reducible apply onward_dropPort
    | with_reducible apply onward_judgeFabric
    | with_reducible apply onward_raisePort
    | with_reducible apply onward_forL
    | intro _ _ _ _
    | intro _ _ _
    | intro _ _
    | dsimp only
    | fail_if_no_progress with_reducible apply onward_mk

end Sys2Proof.Machine
end

