-- ==== Sys2Proof/Laws/OnwardOccur.lean ====
section
/-!
SUPPORT. Every update of Machine/Occur.lean leads onward; every command of it is answered.
-/
set_option Elab.async false

namespace Sys2Proof.Machine

theorem onward_holdQueue {z : State} (h : Nat) (s : State) (hz : Onward z s) : Onward z (holdQueue h s) := by
  unfold holdQueue
  repeat' first
    | with_reducible assumption
    | (extract_lets +onlyGivenNames x; refine (fun hx : Onward z x => ?_) ?_; (on_goal 1 => clear_value x);
        (on_goal 2 => subst x))
    | (extract_lets +onlyGivenNames x; refine (fun hx : Onward z x.1 => ?_) ?_; (on_goal 1 => clear_value x);
        (on_goal 2 => subst x))
    | (extract_lets +onlyGivenNames x; clear_value x)
    | with_reducible exact Onward.refl _
    | with_reducible apply onward_discarded
    | with_reducible apply onward_settleWrites
    | with_reducible apply onward_syncQueue
    | with_reducible apply onward_ite
    | intro _ _ _
    | intro _ _
    | split
    | dsimp only
    | fail_if_no_progress with_reducible apply onward_mk

theorem onward_recordCause {z : State} (c sc detail tier : Nat) (shadowed : Bool) (s : State)
    (hz : Onward z s) : Onward z (recordCause c sc detail tier shadowed s) := by
  unfold recordCause
  repeat' first
    | with_reducible assumption
    | (extract_lets +onlyGivenNames x; refine (fun hx : Onward z x => ?_) ?_; (on_goal 1 => clear_value x);
        (on_goal 2 => subst x))
    | (extract_lets +onlyGivenNames x; clear_value x)
    | with_reducible exact Onward.refl _
    | with_reducible apply onward_flag
    | with_reducible apply onward_incSat
    | with_reducible apply onward_put
    | with_reducible apply onward_ite

theorem onward_openShadow {z : State} (c sc tier t : Nat) (s : State)
    (hz : Onward z s) : Onward z (openShadow c sc tier t s) := by
  unfold openShadow
  repeat' first
    | with_reducible assumption
    | (extract_lets +onlyGivenNames x; clear_value x)
    | with_reducible exact Onward.refl _
    | with_reducible apply onward_ite
    | intro _ _ _
    | intro _ _
    | split
    | dsimp only
    | fail_if_no_progress with_reducible apply onward_mk

theorem onward_report {z : State} (r : Report) (s : State) (hz : Onward z s) : Onward z (report r s) := by
  unfold report
  repeat' first
    | with_reducible assumption
    | (extract_lets +onlyGivenNames x; refine (fun hx : Onward z x => ?_) ?_; (on_goal 1 => clear_value x);
        (on_goal 2 => subst x))
    | (extract_lets +onlyGivenNames x; refine (fun hx : Onward z x.1 => ?_) ?_; (on_goal 1 => clear_value x);
        (on_goal 2 => subst x))
    | (extract_lets +onlyGivenNames x; clear_value x)
    | with_reducible exact Onward.refl _
    | intro _ _ _
    | intro _ _
    | dsimp only
    | fail_if_no_progress with_reducible apply onward_mk

theorem onward_takeReports {z : State} (take : Report → State → State) (s : State) (h_take : ∀ r a, Onward z a → Onward z (take r a))
    (hz : Onward z s) : Onward z (takeReports take s) := by
  unfold takeReports
  repeat' first
    | with_reducible assumption
    | (extract_lets +onlyGivenNames x; refine (fun hx : Onward z x => ?_) ?_; (on_goal 1 => clear_value x);
        (on_goal 2 => subst x))
    | (extract_lets +onlyGivenNames x; refine (fun hx : Onward z x.1 => ?_) ?_; (on_goal 1 => clear_value x);
        (on_goal 2 => subst x))
    | (extract_lets +onlyGivenNames x; clear_value x)
    | with_reducible exact Onward.refl _
    | with_reducible apply h_take
    | with_reducible apply onward_forL
    | intro _ _ _
    | intro _ _
    | dsimp only
    | fail_if_no_progress with_reducible apply onward_mk

theorem onward_inCycle {z : State} (take f : State → State) (s : State) (h_take : ∀ a, Onward z a → Onward z (take a)) (h_f : ∀ a, Onward z a → Onward z (f a))
    (hz : Onward z s) : Onward z (inCycle take f s) := by
  unfold inCycle
  repeat' first
    | with_reducible assumption
    | (extract_lets +onlyGivenNames x; refine (fun hx : Onward z x => ?_) ?_; (on_goal 1 => clear_value x);
        (on_goal 2 => subst x))
    | (extract_lets +onlyGivenNames x; refine (fun hx : Onward z x.1 => ?_) ?_; (on_goal 1 => clear_value x);
        (on_goal 2 => subst x))
    | (extract_lets +onlyGivenNames x; clear_value x)
    | with_reducible exact Onward.refl _
    | with_reducible apply h_take
    | with_reducible apply h_f
    | with_reducible apply onward_ite
    | intro _ _ _
    | intro _ _
    | split
    | dsimp only
    | fail_if_no_progress with_reducible apply onward_mk

theorem onward_govern {z : State} (sc : Nat) (d : Detector) (s : State)
    (hz : Onward z s) : Onward z (govern sc d s) := by
  unfold govern
  repeat' first
    | with_reducible assumption
    | (extract_lets +onlyGivenNames x; refine (fun hx : Onward z x => ?_) ?_; (on_goal 1 => clear_value x);
        (on_goal 2 => subst x))
    | (extract_lets +onlyGivenNames x; clear_value x)
    | with_reducible exact Onward.refl _
    | with_reducible apply onward_flag
    | with_reducible apply onward_setDetector
    | with_reducible apply onward_ite

theorem onward_applyReaction {z : State} (c sc tier t : Nat) (latch : Bool) (s : State)
    (hz : Onward z s) : Onward z (applyReaction c sc tier t latch s) := by
  unfold applyReaction
  repeat' first
    | with_reducible assumption
    | (extract_lets +onlyGivenNames x; refine (fun hx : Onward z x => ?_) ?_; (on_goal 1 => clear_value x);
        (on_goal 2 => subst x))
    | (extract_lets +onlyGivenNames x; refine (fun hx : Onward z x.1 => ?_) ?_; (on_goal 1 => clear_value x);
        (on_goal 2 => subst x))
    | (extract_lets +onlyGivenNames x; clear_value x)
    | with_reducible exact Onward.refl _
    | with_reducible apply onward_flag
    | with_reducible apply onward_govern
    | with_reducible apply onward_hemDemand
    | with_reducible apply onward_holdQueue
    | with_reducible apply onward_startFailed
    | with_reducible apply onward_syncHolds
    | with_reducible apply onward_ite
    | intro _ _ _
    | intro _ _
    | split
    | dsimp only
    | fail_if_no_progress with_reducible apply onward_mk

theorem onward_occurOnce {z : State} (atTick : Bool) (force : Option Nat) (c sc detail : Nat) (s : State)
    (hz : Onward z s) : Onward z (occurOnce atTick force c sc detail s) := by
  unfold occurOnce
  repeat' first
    | with_reducible assumption
    | (extract_lets +onlyGivenNames x; refine (fun hx : Onward z x => ?_) ?_; (on_goal 1 => clear_value x);
        (on_goal 2 => subst x))
    | (extract_lets +onlyGivenNames x; refine (fun hx : Onward z x.1 => ?_) ?_; (on_goal 1 => clear_value x);
        (on_goal 2 => subst x))
    | (extract_lets +onlyGivenNames x; clear_value x)
    | with_reducible exact Onward.refl _
    | with_reducible apply onward_applyReaction
    | with_reducible apply onward_inc
    | with_reducible apply onward_logEvent
    | with_reducible apply onward_openShadow
    | with_reducible apply onward_recordCause
    | with_reducible apply onward_setDetector
    | with_reducible apply onward_ite
    | intro _ _ _
    | intro _ _
    | split
    | dsimp only
    | fail_if_no_progress with_reducible apply onward_mk

theorem onward_takeOnce {z : State} (r : Report) (s : State) (hz : Onward z s) : Onward z (takeOnce r s) := by
  unfold takeOnce
  exact onward_occurOnce _ _ _ _ _ _ hz

theorem onward_occurWith {z : State} (atTick : Bool) (force : Option Nat) (c sc detail : Nat) (s : State)
    (hz : Onward z s) : Onward z (occurWith atTick force c sc detail s) := by
  unfold occurWith
  repeat' first
    | with_reducible assumption
    | (extract_lets +onlyGivenNames x; refine (fun hx : Onward z x => ?_) ?_; (on_goal 1 => clear_value x);
        (on_goal 2 => subst x))
    | (extract_lets +onlyGivenNames x; refine (fun hx : Onward z x.1 => ?_) ?_; (on_goal 1 => clear_value x);
        (on_goal 2 => subst x))
    | (extract_lets +onlyGivenNames x; clear_value x)
    | with_reducible exact Onward.refl _
    | with_reducible apply onward_inCycle
    | with_reducible apply onward_occurOnce
    | with_reducible apply onward_portsGoDown
    | with_reducible apply onward_report
    | with_reducible apply onward_takeOnce
    | with_reducible apply onward_takeReports
    | with_reducible apply onward_ite
    | intro _ _ _ _
    | intro _ _ _
    | intro _ _
    | split
    | dsimp only
    | fail_if_no_progress with_reducible apply onward_mk

theorem onward_oneCycle {z : State} (f : State → State) (s : State) (h_f : ∀ a, Onward z a → Onward z (f a))
    (hz : Onward z s) : Onward z (oneCycle f s) := by
  unfold oneCycle
  repeat' first
    | with_reducible assumption
    | with_reducible exact Onward.refl _
    | with_reducible apply h_f
    | with_reducible apply onward_inCycle
    | with_reducible apply onward_occurWith
    | with_reducible apply onward_takeOnce
    | with_reducible apply onward_takeReports
    | intro _ _ _
    | intro _ _
    | dsimp only
    | fail_if_no_progress with_reducible apply onward_mk

theorem onward_raiseReport {z : State} (r : Report) (s : State) (hz : Onward z s) : Onward z (raiseReport r s) := by
  unfold raiseReport
  repeat' first
    | with_reducible assumption
    | with_reducible exact Onward.refl _
    | with_reducible apply onward_occurWith
    | with_reducible apply onward_report
    | with_reducible apply onward_ite
    | intro _ _ _
    | intro _ _
    | split
    | dsimp only
    | fail_if_no_progress with_reducible apply onward_mk

theorem onward_occur {z : State} (c sc detail : Nat) (s : State)
    (hz : Onward z s) : Onward z (occur c sc detail s) := by
  unfold occur
  repeat' first
    | with_reducible assumption
    | with_reducible exact Onward.refl _
    | with_reducible apply onward_raiseReport
    | intro _ _ _ _
    | intro _ _ _
    | intro _ _
    | dsimp only
    | fail_if_no_progress with_reducible apply onward_mk

theorem onward_occurAtTick {z : State} (c sc detail : Nat) (s : State)
    (hz : Onward z s) : Onward z (occurAtTick c sc detail s) := by
  unfold occurAtTick
  repeat' first
    | with_reducible assumption
    | with_reducible exact Onward.refl _
    | with_reducible apply onward_raiseReport
    | intro _ _ _ _
    | intro _ _ _
    | intro _ _
    | dsimp only
    | fail_if_no_progress with_reducible apply onward_mk

theorem onward_raiseNow {z : State} (c sc : Nat) (s : State) (hz : Onward z s) : Onward z (raiseNow c sc s) := by
  unfold raiseNow
  exact onward_occur _ _ _ _ hz

theorem onward_routesAfter {z : State} (f : State → State) (s : State) (h_f : ∀ a, Onward z a → Onward z (f a))
    (hz : Onward z s) : Onward z (routesAfter f s) := by
  unfold routesAfter
  repeat' first
    | with_reducible assumption
    | (extract_lets +onlyGivenNames x; refine (fun hx : Onward z x => ?_) ?_; (on_goal 1 => clear_value x);
        (on_goal 2 => subst x))
    | (extract_lets +onlyGivenNames x; refine (fun hx : Onward z x.1 => ?_) ?_; (on_goal 1 => clear_value x);
        (on_goal 2 => subst x))
    | (extract_lets +onlyGivenNames x; clear_value x)
    | with_reducible exact Onward.refl _
    | with_reducible apply h_f
    | with_reducible apply onward_oneCycle
    | with_reducible apply onward_sendRoutes
    | with_reducible apply onward_ite
    | intro _ _ _
    | intro _ _
    | split
    | dsimp only
    | fail_if_no_progress with_reducible apply onward_mk

theorem onward_refreshFabric {z : State} (s : State) (hz : Onward z s) : Onward z (refreshFabric s) := by
  unfold refreshFabric
  repeat' first
    | with_reducible assumption
    | with_reducible exact Onward.refl _
    | with_reducible apply onward_portsGoDown
    | with_reducible apply onward_raiseNow
    | with_reducible apply onward_routesAfter
    | with_reducible apply onward_ite
    | intro _ _ _ _
    | intro _ _ _
    | intro _ _
    | split
    | dsimp only
    | fail_if_no_progress with_reducible apply onward_mk

theorem onward_endReaction {z : State} (sc : Nat) (s : State) (hz : Onward z s) : Onward z (endReaction sc s) := by
  unfold endReaction
  repeat' first
    | with_reducible assumption
    | (extract_lets +onlyGivenNames x; refine (fun hx : Onward z x => ?_) ?_; (on_goal 1 => clear_value x);
        (on_goal 2 => subst x))
    | (extract_lets +onlyGivenNames x; clear_value x)
    | with_reducible exact Onward.refl _
    | with_reducible apply onward_flag
    | with_reducible apply onward_setDetector
    | with_reducible apply onward_syncHolds
    | with_reducible apply onward_ite

theorem onward_liftDetector {z : State} (sc : Nat) (s : State) (hz : Onward z s) : Onward z (liftDetector sc s) := by
  unfold liftDetector
  repeat' first
    | with_reducible assumption
    | (extract_lets +onlyGivenNames x; refine (fun hx : Onward z x => ?_) ?_; (on_goal 1 => clear_value x);
        (on_goal 2 => subst x))
    | (extract_lets +onlyGivenNames x; clear_value x)
    | with_reducible exact Onward.refl _
    | with_reducible apply onward_endReaction
    | with_reducible apply onward_liftOwn
    | with_reducible apply onward_wakeLink
    | with_reducible apply onward_ite

theorem onward_dueLift {z : State} (sc : Nat) (s : State) (hz : Onward z s) : Onward z (dueLift sc s) := by
  unfold dueLift
  repeat' first
    | with_reducible assumption
    | (extract_lets +onlyGivenNames x; refine (fun hx : Onward z x => ?_) ?_; (on_goal 1 => clear_value x);
        (on_goal 2 => subst x))
    | (extract_lets +onlyGivenNames x; clear_value x)
    | with_reducible exact Onward.refl _
    | with_reducible apply onward_endReaction
    | with_reducible apply onward_flag
    | with_reducible apply onward_inc
    | with_reducible apply onward_liftDetector
    | with_reducible apply onward_logEvent
    | with_reducible apply onward_retire
    | with_reducible apply onward_setDetector
    | with_reducible apply onward_ite

end Sys2Proof.Machine
end

