-- ==== Sys2Proof/Laws/OnwardControl.lean ====
section
/-!
SUPPORT. Every update of Machine/Control.lean leads onward; every command of it is answered.
-/
set_option Elab.async false

namespace Sys2Proof.Machine

theorem onward_triggerWith {z : State} (started : List (Nat × Option Nat)) (ls : Nat → Int) (n : Nat) (s : State)
    (hz : Onward z s) : Onward z (triggerWith started ls n s) := by
  unfold triggerWith
  repeat' first
    | with_reducible assumption
    | (extract_lets +onlyGivenNames x; clear_value x)
    | with_reducible exact Onward.refl _
    | with_reducible apply onward_setCtxSt
    | with_reducible apply onward_forL
    | intro _ _ _

theorem onward_roundDone {z : State} (q t : Nat) (s : State) (hz : Onward z s) : Onward z (roundDone q t s) := by
  unfold roundDone
  repeat' first
    | with_reducible assumption
    | with_reducible exact Onward.refl _
    | intro _ _ _
    | intro _ _
    | dsimp only
    | fail_if_no_progress with_reducible apply onward_mk

theorem onward_startExec {z : State} (c : Nat) (due part : Bool) (s : State)
    (hz : Onward z s) : Onward z (startExec c due part s) := by
  unfold startExec
  repeat' first
    | with_reducible assumption
    | (extract_lets +onlyGivenNames x; refine (fun hx : Onward z x => ?_) ?_; (on_goal 1 => clear_value x);
        (on_goal 2 => subst x))
    | (extract_lets +onlyGivenNames x; refine (fun hx : Onward z x.1 => ?_) ?_; (on_goal 1 => clear_value x);
        (on_goal 2 => subst x))
    | (extract_lets +onlyGivenNames x; clear_value x)
    | with_reducible exact Onward.refl _
    | with_reducible apply onward_pleatSees
    | with_reducible apply onward_setCtxSt
    | intro _ _ _
    | intro _ _
    | dsimp only
    | fail_if_no_progress with_reducible apply onward_mk

theorem onward_raiseFb {z : State} (c : Nat) (cause : Nat) (s : State)
    (hz : Onward z s) : Onward z (raiseFb c cause s) := by
  unfold raiseFb
  repeat' first
    | with_reducible assumption
    | with_reducible exact Onward.refl _
    | with_reducible apply onward_flag
    | with_reducible apply onward_inc
    | with_reducible apply onward_occur
    | with_reducible apply onward_put

theorem onward_putLawFlags {z : State} (c : Nat) (o : LawOut) (k : Capture) (x : CtxSt) (stale : Nat) (s : State)
    (hz : Onward z s) : Onward z (putLawFlags c o k x stale s) := by
  unfold putLawFlags
  repeat' first
    | with_reducible assumption
    | (extract_lets +onlyGivenNames x; refine (fun hx : Onward z x => ?_) ?_; (on_goal 1 => clear_value x);
        (on_goal 2 => subst x))
    | with_reducible exact Onward.refl _
    | with_reducible apply onward_flag
    | with_reducible apply onward_inc
    | with_reducible apply onward_put
    | with_reducible apply onward_sput

theorem onward_finishExec {z : State} (c : Nat) (k : Capture) (s : State)
    (hz : Onward z s) : Onward z (finishExec c k s) := by
  unfold finishExec
  repeat' first
    | with_reducible assumption
    | (extract_lets +onlyGivenNames x; refine (fun hx : Onward z x => ?_) ?_; (on_goal 1 => clear_value x);
        (on_goal 2 => subst x))
    | (extract_lets +onlyGivenNames x; refine (fun hx : Onward z x.1 => ?_) ?_; (on_goal 1 => clear_value x);
        (on_goal 2 => subst x))
    | (extract_lets +onlyGivenNames x; clear_value x)
    | with_reducible exact Onward.refl _
    | with_reducible apply onward_flag
    | with_reducible apply onward_inc
    | with_reducible apply onward_occur
    | with_reducible apply onward_oneCycle
    | with_reducible apply onward_pleatRun
    | with_reducible apply onward_putLawFlags
    | with_reducible apply onward_raiseFb
    | with_reducible apply onward_setCtxSt
    | with_reducible apply onward_settleDep
    | with_reducible apply onward_ite
    | with_reducible apply onward_forL
    | intro _ _ _ _
    | intro _ _ _
    | intro _ _
    | split

theorem onward_routeOutput {z : State} (c : Nat) (s : State) (hz : Onward z s) : Onward z (routeOutput c s) := by
  unfold routeOutput
  repeat' first
    | with_reducible assumption
    | (extract_lets +onlyGivenNames x; clear_value x)
    | with_reducible exact Onward.refl _
    | with_reducible apply onward_put
    | with_reducible apply onward_rephase
    | with_reducible apply onward_ite
    | intro _ _ _
    | intro _ _
    | split

theorem onward_applyOutputs {z : State} (n : Nat) (s : State) (hz : Onward z s) : Onward z (applyOutputs n s) := by
  unfold applyOutputs
  repeat' first
    | with_reducible assumption
    | (extract_lets +onlyGivenNames x; refine (fun hx : Onward z x => ?_) ?_; (on_goal 1 => clear_value x);
        (on_goal 2 => subst x))
    | (extract_lets +onlyGivenNames x; clear_value x)
    | with_reducible exact Onward.refl _
    | with_reducible apply onward_parkSync
    | with_reducible apply onward_put
    | with_reducible apply onward_routeOutput
    | with_reducible apply onward_setCtxSt
    | with_reducible apply onward_ite
    | with_reducible apply onward_forL
    | intro _ _ _

theorem onward_skipExec {z : State} (c : Nat) (s : State) (hz : Onward z s) : Onward z (skipExec c s) := by
  unfold skipExec
  repeat' first
    | with_reducible assumption
    | (extract_lets +onlyGivenNames x; refine (fun hx : Onward z x => ?_) ?_; (on_goal 1 => clear_value x);
        (on_goal 2 => subst x))
    | (extract_lets +onlyGivenNames x; clear_value x)
    | with_reducible exact Onward.refl _
    | with_reducible apply onward_flag
    | with_reducible apply onward_inc
    | with_reducible apply onward_occur
    | with_reducible apply onward_parkSync
    | with_reducible apply onward_setCtxSt
    | with_reducible apply onward_settleDep

theorem onward_resetContext {z : State} (c : Nat) (s : State) (hz : Onward z s) : Onward z (resetContext c s) := by
  unfold resetContext
  repeat' first
    | with_reducible assumption
    | (extract_lets +onlyGivenNames x; refine (fun hx : Onward z x => ?_) ?_; (on_goal 1 => clear_value x);
        (on_goal 2 => subst x))
    | (extract_lets +onlyGivenNames x; clear_value x)
    | with_reducible exact Onward.refl _
    | with_reducible apply onward_flag
    | with_reducible apply onward_put
    | with_reducible apply onward_setCtxSt
    | with_reducible apply onward_setPltSt
    | with_reducible apply onward_sput
    | with_reducible apply onward_ite

theorem onward_writeCtxCtl {z : State} (c : Nat) (d : Word) (s : State)
    (hz : Onward z s) : Onward z (writeCtxCtl c d s) := by
  unfold writeCtxCtl
  repeat' first
    | with_reducible assumption
    | (extract_lets +onlyGivenNames x; refine (fun hx : Onward z x => ?_) ?_; (on_goal 1 => clear_value x);
        (on_goal 2 => subst x))
    | with_reducible exact Onward.refl _
    | with_reducible apply onward_flag
    | with_reducible apply onward_parkSync
    | with_reducible apply onward_put
    | with_reducible apply onward_resetContext
    | with_reducible apply onward_ite

theorem onward_writeCtxSp {z : State} (c : Nat) (d : Word) (s : State)
    (hz : Onward z s) : Onward z (writeCtxSp c d s) := by
  unfold writeCtxSp
  repeat' first
    | with_reducible assumption
    | with_reducible exact Onward.refl _
    | with_reducible apply onward_put
    | with_reducible apply onward_ite

theorem goes_execCtxEligible (c : Fin 64) (s : State) : Goes s (execCtxEligible c s) := by
  unfold execCtxEligible
  apply goes_next
  repeat' first
    | with_reducible assumption
    | (extract_lets +onlyGivenNames x; clear_value x)
    | with_reducible exact Onward.refl _
    | with_reducible apply onward_setCtxSt
    | with_reducible apply onward_ite

theorem goes_execCtxExecStart (c : Fin 64) (due : Bool) (s : State) : Goes s (execCtxExecStart c due s) := by
  unfold execCtxExecStart
  apply goes_next
  repeat' first
    | with_reducible assumption
    | with_reducible exact Onward.refl _
    | with_reducible apply onward_startExec
    | with_reducible apply onward_ite

theorem goes_execCtxExecDone (c : Fin 64) (s : State) : Goes s (execCtxExecDone c s) := by
  unfold execCtxExecDone
  apply goes_next
  repeat' first
    | with_reducible assumption
    | with_reducible exact Onward.refl _
    | with_reducible apply onward_finishExec
    | intro _ _ _
    | intro _ _
    | split

theorem goes_execCtxLatestStart (c : Fin 64) (due : Bool) (s : State) : Goes s (execCtxLatestStart c due s) := by
  unfold execCtxLatestStart
  apply goes_next
  repeat' first
    | with_reducible assumption
    | with_reducible exact Onward.refl _
    | with_reducible apply onward_skipExec
    | with_reducible apply onward_startExec
    | with_reducible apply onward_ite
    | intro _ _ _
    | intro _ _
    | split
    | dsimp only
    | fail_if_no_progress with_reducible apply onward_mk

theorem goes_execCtxParkWrite (c : Fin 64) (port : Nat) (park : Bool) (s : State) :
    Goes s (execCtxParkWrite c port park s) := by
  unfold execCtxParkWrite
  apply goes_next
  repeat' first
    | with_reducible assumption
    | with_reducible exact Onward.refl _
    | with_reducible apply onward_guarded
    | with_reducible apply onward_writeCtxCtl

theorem goes_execCtxReset (c : Fin 64) (port : Nat) (park : Bool) (s : State) :
    Goes s (execCtxReset c port park s) := by
  unfold execCtxReset
  apply goes_next
  repeat' first
    | with_reducible assumption
    | with_reducible exact Onward.refl _
    | with_reducible apply onward_guarded
    | with_reducible apply onward_writeCtxCtl

theorem goes_execCtxSpWrite (c : Fin 64) (w : PortWrite) (s : State) : Goes s (execCtxSpWrite c w s) := by
  unfold execCtxSpWrite
  apply goes_next
  repeat' first
    | with_reducible assumption
    | with_reducible exact Onward.refl _
    | with_reducible apply onward_guarded
    | with_reducible apply onward_writeCtxSp

end Sys2Proof.Machine
end

