-- ==== Sys2Proof/Laws/OnwardAcquisition.lean ====
section
/-!
SUPPORT. Every update of Machine/Acquisition.lean leads onward; every command of it is answered.
-/
set_option Elab.async false

namespace Sys2Proof.Machine

theorem onward_setSeqSt {z : State} (s : State) (q : Nat) (x : SeqSt)
    (hz : Onward z s) : Onward z (setSeqSt s q x) := by
  unfold setSeqSt
  repeat' first
    | with_reducible assumption
    | (extract_lets +onlyGivenNames x; clear_value x)
    | with_reducible exact Onward.refl _
    | intro _ _ _
    | intro _ _
    | dsimp only
    | fail_if_no_progress with_reducible apply onward_mk

theorem onward_setConv {z : State} (s : State) (v : Nat) (x : ConvSt)
    (hz : Onward z s) : Onward z (setConv s v x) := by
  unfold setConv
  repeat' first
    | with_reducible assumption
    | (extract_lets +onlyGivenNames x; clear_value x)
    | with_reducible exact Onward.refl _
    | intro _ _ _
    | intro _ _
    | dsimp only
    | fail_if_no_progress with_reducible apply onward_mk

theorem onward_setBit {z : State} (f : Field) (k : Nat) (s : State) (hz : Onward z s) : Onward z (setBit f k s) := by
  unfold setBit
  repeat' first
    | with_reducible assumption
    | with_reducible exact Onward.refl _
    | with_reducible apply onward_put
    | with_reducible apply onward_ite

theorem onward_noteResult {z : State} (ix : Nat) (v : Int) (s : State)
    (hz : Onward z s) : Onward z (noteResult ix v s) := by
  unfold noteResult
  repeat' first
    | with_reducible assumption
    | (extract_lets +onlyGivenNames x; refine (fun hx : Onward z x => ?_) ?_; (on_goal 1 => clear_value x);
        (on_goal 2 => subst x))
    | (extract_lets +onlyGivenNames x; clear_value x)
    | with_reducible exact Onward.refl _
    | with_reducible apply onward_checkPcdone
    | with_reducible apply onward_flag
    | with_reducible apply onward_ite
    | intro _ _ _
    | intro _ _
    | split
    | dsimp only
    | fail_if_no_progress with_reducible apply onward_mk

theorem onward_writeEntry {z : State} (q e : Nat) (sum : Int) (orng part : Bool) (s : State)
    (hz : Onward z s) : Onward z (writeEntry q e sum orng part s) := by
  unfold writeEntry
  repeat' first
    | with_reducible assumption
    | (extract_lets +onlyGivenNames x; refine (fun hx : Onward z x => ?_) ?_; (on_goal 1 => clear_value x);
        (on_goal 2 => subst x))
    | (extract_lets +onlyGivenNames x; clear_value x)
    | with_reducible exact Onward.refl _
    | with_reducible apply onward_flag
    | with_reducible apply onward_inc
    | with_reducible apply onward_noteResult
    | with_reducible apply onward_occur
    | with_reducible apply onward_put
    | with_reducible apply onward_setSeqSt
    | with_reducible apply onward_sput
    | with_reducible apply onward_ite

theorem onward_grant {z : State} (v : Nat) (s : State) (hz : Onward z s) : Onward z (grant v s) := by
  unfold grant
  repeat' first
    | with_reducible assumption
    | (extract_lets +onlyGivenNames x; refine (fun hx : Onward z x => ?_) ?_; (on_goal 1 => clear_value x);
        (on_goal 2 => subst x))
    | (extract_lets +onlyGivenNames x; clear_value x)
    | with_reducible exact Onward.refl _
    | with_reducible apply onward_inc
    | with_reducible apply onward_setConv
    | with_reducible apply onward_setSeqSt
    | with_reducible apply onward_ite
    | with_reducible apply onward_forL
    | intro _ _ _
    | intro _ _
    | split
    | dsimp only
    | fail_if_no_progress with_reducible apply onward_mk

theorem onward_grantAll {z : State} (s : State) (hz : Onward z s) : Onward z (grantAll s) := by
  unfold grantAll
  repeat' first
    | with_reducible assumption
    | with_reducible exact Onward.refl _
    | with_reducible apply onward_grant
    | with_reducible apply onward_forL

theorem onward_startRound {z : State} (q : Nat) (s : State) (hz : Onward z s) : Onward z (startRound q s) := by
  unfold startRound
  repeat' first
    | with_reducible assumption
    | (extract_lets +onlyGivenNames x; refine (fun hx : Onward z x => ?_) ?_; (on_goal 1 => clear_value x);
        (on_goal 2 => subst x))
    | (extract_lets +onlyGivenNames x; clear_value x)
    | with_reducible exact Onward.refl _
    | with_reducible apply onward_flag
    | with_reducible apply onward_put
    | with_reducible apply onward_setSeqSt
    | with_reducible apply onward_forL
    | intro _ _ _

theorem onward_abandon {z : State} (q : Nat) (s : State) (hz : Onward z s) : Onward z (abandon q s) := by
  unfold abandon
  repeat' first
    | with_reducible assumption
    | (extract_lets +onlyGivenNames x; refine (fun hx : Onward z x => ?_) ?_; (on_goal 1 => clear_value x);
        (on_goal 2 => subst x))
    | (extract_lets +onlyGivenNames x; clear_value x)
    | with_reducible exact Onward.refl _
    | with_reducible apply onward_flag
    | with_reducible apply onward_put
    | with_reducible apply onward_setConv
    | with_reducible apply onward_setSeqSt
    | with_reducible apply onward_writeEntry
    | with_reducible apply onward_ite
    | with_reducible apply onward_forL
    | intro _ _ _
    | intro _ _
    | split

theorem onward_overrun {z : State} (q : Nat) (s : State) (hz : Onward z s) : Onward z (overrun q s).1 := by
  unfold overrun
  repeat' first
    | with_reducible assumption
    | (extract_lets +onlyGivenNames x; refine (fun hx : Onward z x => ?_) ?_; (on_goal 1 => clear_value x);
        (on_goal 2 => subst x))
    | (extract_lets +onlyGivenNames x; clear_value x)
    | with_reducible exact Onward.refl _
    | with_reducible apply onward_flag
    | with_reducible apply onward_inc
    | with_reducible apply onward_setBit
    | with_reducible apply onward_setSeqSt
    | with_reducible apply onward_ite
    | intro _ _ _
    | intro _ _
    | split

theorem onward_trigger {z : State} (q : Nat) (s : State) (hz : Onward z s) : Onward z (trigger q s).st := by
  have ho : Onward z (overrun q s).1 := onward_overrun q s hz
  unfold trigger
  dsimp only
  repeat' first
    | with_reducible assumption
    | with_reducible apply onward_startRound
    | with_reducible apply onward_abandon
    | with_reducible apply onward_flag
    | with_reducible apply onward_inc
    | with_reducible apply onward_setSeqSt
    | split

theorem onward_triggerAll {z : State} (qs : List Nat) (s : State)
    (hz : Onward z s) : Onward z (triggerAll qs s).1 := by
  unfold triggerAll
  repeat' first
    | with_reducible assumption
    | (extract_lets +onlyGivenNames x; refine (fun hx : Onward z x.1 => ?_) ?_; (on_goal 1 => clear_value x);
        (on_goal 2 => subst x))
    | with_reducible exact Onward.refl _
    | with_reducible apply onward_occur
    | with_reducible apply onward_trigger
    | with_reducible apply onward_ite
    | with_reducible apply onward_forL
    | with_reducible apply onward_foldl
    | with_reducible apply onward_foldl_fst
    | intro _ _ _

theorem onward_gridRound {z : State} (q tag : Nat) (s : State) (hz : Onward z s) : Onward z (gridRound q tag s) := by
  unfold gridRound
  repeat' first
    | with_reducible assumption
    | (extract_lets +onlyGivenNames x; refine (fun hx : Onward z x => ?_) ?_; (on_goal 1 => clear_value x);
        (on_goal 2 => subst x))
    | (extract_lets +onlyGivenNames x; refine (fun hx : Onward z x.1 => ?_) ?_; (on_goal 1 => clear_value x);
        (on_goal 2 => subst x))
    | (extract_lets +onlyGivenNames x; clear_value x)
    | with_reducible exact Onward.refl _
    | with_reducible apply onward_ite
    | intro _ _ _
    | intro _ _
    | split
    | dsimp only
    | fail_if_no_progress with_reducible apply onward_mk

theorem onward_completeRound {z : State} (q : Nat) (s : State) (hz : Onward z s) : Onward z (completeRound q s) := by
  unfold completeRound
  repeat' first
    | with_reducible assumption
    | (extract_lets +onlyGivenNames x; refine (fun hx : Onward z x => ?_) ?_; (on_goal 1 => clear_value x);
        (on_goal 2 => subst x))
    | (extract_lets +onlyGivenNames x; refine (fun hx : Onward z x.1 => ?_) ?_; (on_goal 1 => clear_value x);
        (on_goal 2 => subst x))
    | (extract_lets +onlyGivenNames x; clear_value x)
    | with_reducible exact Onward.refl _
    | with_reducible apply onward_flag
    | with_reducible apply onward_gridRound
    | with_reducible apply onward_put
    | with_reducible apply onward_roundDone
    | with_reducible apply onward_setBit
    | with_reducible apply onward_setSeqSt
    | with_reducible apply onward_startRound
    | with_reducible apply onward_triggerAll
    | with_reducible apply onward_ite
    | intro _ _ _
    | intro _ _
    | split
    | dsimp only
    | fail_if_no_progress with_reducible apply onward_mk

theorem onward_urgentRequest {z : State} (k : Nat) (s : State) (hz : Onward z s) : Onward z (urgentRequest k s) := by
  unfold urgentRequest
  repeat' first
    | with_reducible assumption
    | (extract_lets +onlyGivenNames x; refine (fun hx : Onward z x => ?_) ?_; (on_goal 1 => clear_value x);
        (on_goal 2 => subst x))
    | (extract_lets +onlyGivenNames x; clear_value x)
    | with_reducible exact Onward.refl _
    | with_reducible apply onward_inc
    | with_reducible apply onward_setConv
    | with_reducible apply onward_ite
    | intro _ _ _
    | intro _ _
    | split
    | dsimp only
    | fail_if_no_progress with_reducible apply onward_mk

theorem onward_writeUrgent {z : State} (k : Nat) (code : Int) (orng : Bool) (s : State)
    (hz : Onward z s) : Onward z (writeUrgent k code orng s) := by
  unfold writeUrgent
  repeat' first
    | with_reducible assumption
    | (extract_lets +onlyGivenNames x; refine (fun hx : Onward z x => ?_) ?_; (on_goal 1 => clear_value x);
        (on_goal 2 => subst x))
    | with_reducible exact Onward.refl _
    | with_reducible apply onward_flag
    | with_reducible apply onward_inc
    | with_reducible apply onward_put
    | with_reducible apply onward_setBit
    | with_reducible apply onward_sput

theorem onward_acqSeamTrigger {z : State} (n : Nat) (s : State)
    (hz : Onward z s) : Onward z (acqSeamTrigger n s).1 := by
  unfold acqSeamTrigger
  repeat' first
    | with_reducible assumption
    | (extract_lets +onlyGivenNames x; refine (fun hx : Onward z x.1 => ?_) ?_; (on_goal 1 => clear_value x);
        (on_goal 2 => subst x))
    | (extract_lets +onlyGivenNames x; clear_value x)
    | with_reducible exact Onward.refl _
    | with_reducible apply onward_grantAll
    | with_reducible apply onward_triggerAll
    | with_reducible apply onward_urgentRequest
    | with_reducible apply onward_forL

theorem onward_writeSqctl {z : State} (q : Nat) (d : Word) (s : State)
    (hz : Onward z s) : Onward z (writeSqctl q d s) := by
  unfold writeSqctl
  repeat' first
    | with_reducible assumption
    | (extract_lets +onlyGivenNames x; refine (fun hx : Onward z x => ?_) ?_; (on_goal 1 => clear_value x);
        (on_goal 2 => subst x))
    | (extract_lets +onlyGivenNames x; refine (fun hx : Onward z x.1 => ?_) ?_; (on_goal 1 => clear_value x);
        (on_goal 2 => subst x))
    | (extract_lets +onlyGivenNames x; clear_value x)
    | with_reducible exact Onward.refl _
    | with_reducible apply onward_abandon
    | with_reducible apply onward_flag
    | with_reducible apply onward_grantAll
    | with_reducible apply onward_oneCycle
    | with_reducible apply onward_setSeqSt
    | with_reducible apply onward_triggerAll
    | with_reducible apply onward_ite
    | intro _ _ _
    | intro _ _
    | split
    | dsimp only
    | fail_if_no_progress with_reducible apply onward_mk

theorem onward_writeUgctl {z : State} (k : Nat) (d : Word) (s : State)
    (hz : Onward z s) : Onward z (writeUgctl k d s) := by
  unfold writeUgctl
  repeat' first
    | with_reducible assumption
    | (extract_lets +onlyGivenNames x; refine (fun hx : Onward z x => ?_) ?_; (on_goal 1 => clear_value x);
        (on_goal 2 => subst x))
    | with_reducible exact Onward.refl _
    | with_reducible apply onward_flag
    | with_reducible apply onward_grantAll
    | with_reducible apply onward_urgentRequest
    | with_reducible apply onward_ite

theorem goes_execAcqTrig (q : Fin 16) (port : Nat) (en : Bool) (s : State) : Goes s (execAcqTrig q port en s) := by
  unfold execAcqTrig
  apply goes_next
  repeat' first
    | with_reducible assumption
    | with_reducible exact Onward.refl _
    | with_reducible apply onward_guarded
    | with_reducible apply onward_writeSqctl

theorem goes_execAcqEnWrite (q : Fin 16) (port : Nat) (en : Bool) (s : State) :
    Goes s (execAcqEnWrite q port en s) := by
  unfold execAcqEnWrite
  apply goes_next
  repeat' first
    | with_reducible assumption
    | with_reducible exact Onward.refl _
    | with_reducible apply onward_guarded
    | with_reducible apply onward_writeSqctl

theorem onward_endConversion {z : State} (v : Nat) (code : Int) (orng : Bool) (s : State)
    (hz : Onward z s) : Onward z (endConversion v code orng s) := by
  unfold endConversion
  repeat' first
    | with_reducible assumption
    | (extract_lets +onlyGivenNames x; refine (fun hx : Onward z x => ?_) ?_; (on_goal 1 => clear_value x);
        (on_goal 2 => subst x))
    | (extract_lets +onlyGivenNames x; clear_value x)
    | with_reducible exact Onward.refl _
    | with_reducible apply onward_completeRound
    | with_reducible apply onward_put
    | with_reducible apply onward_setConv
    | with_reducible apply onward_setSeqSt
    | with_reducible apply onward_writeEntry
    | with_reducible apply onward_writeUrgent
    | with_reducible apply onward_ite
    | intro _ _ _
    | intro _ _
    | split

theorem onward_urgentGo {z : State} (k port : Nat) (en : Bool) (s : State)
    (hz : Onward z s) : Onward z (urgentGo k port en s) := by
  unfold urgentGo
  repeat' first
    | with_reducible assumption
    | (extract_lets +onlyGivenNames x; clear_value x)
    | with_reducible exact Onward.refl _
    | with_reducible apply onward_guarded
    | with_reducible apply onward_writeUgctl

theorem goes_execUrgentGo (k : Fin 8) (port : Nat) (en : Bool) (s : State) : Goes s (execUrgentGo k port en s) := by
  unfold execUrgentGo
  apply goes_next
  repeat' first
    | with_reducible assumption
    | with_reducible exact Onward.refl _
    | with_reducible apply onward_urgentGo

end Sys2Proof.Machine
end

