-- ==== Sys2Proof/Laws/OnwardWindow.lean ====
section
/-!
SUPPORT. Every update of Machine/Window.lean leads onward; every command of it is answered.
-/
set_option Elab.async false

namespace Sys2Proof.Machine

theorem onward_setWinSt {z : State} (s : State) (w : Nat) (x : WinSt)
    (hz : Onward z s) : Onward z (setWinSt s w x) := by
  unfold setWinSt
  repeat' first
    | with_reducible assumption
    | with_reducible exact Onward.refl _
    | intro _ _ _
    | intro _ _
    | dsimp only
    | fail_if_no_progress with_reducible apply onward_mk

theorem onward_winShow {z : State} (w : Nat) (s : State) (hz : Onward z s) : Onward z (winShow w s) := by
  unfold winShow
  repeat' first
    | with_reducible assumption
    | (extract_lets +onlyGivenNames x; clear_value x)
    | with_reducible exact Onward.refl _
    | with_reducible apply onward_flag

theorem onward_syncRouted {z : State} (s : State) (hz : Onward z s) : Onward z (syncRouted s) := by
  unfold syncRouted
  repeat' first
    | with_reducible assumption
    | with_reducible exact Onward.refl _
    | with_reducible apply onward_syncStitch
    | with_reducible apply onward_forL

theorem onward_winTrip {z : State} (w : Nat) (s : State) (hz : Onward z s) : Onward z (winTrip w s) := by
  unfold winTrip
  repeat' first
    | with_reducible assumption
    | with_reducible exact Onward.refl _
    | with_reducible apply onward_flag
    | with_reducible apply onward_inc
    | with_reducible apply onward_occur
    | with_reducible apply onward_syncRouted
    | with_reducible apply onward_ite

theorem onward_newTrip {z : State} (w : Nat) (s : State) (hz : Onward z s) : Onward z (newTrip w s) := by
  unfold newTrip
  repeat' first
    | with_reducible assumption
    | with_reducible exact Onward.refl _
    | with_reducible apply onward_inc
    | with_reducible apply onward_occur

theorem onward_winHit {z : State} (w : Nat) (s : State) (hz : Onward z s) : Onward z (winHit w s) := by
  unfold winHit
  repeat' first
    | with_reducible assumption
    | (extract_lets +onlyGivenNames x; clear_value x)
    | with_reducible exact Onward.refl _
    | with_reducible apply onward_inc
    | with_reducible apply onward_setWinSt
    | with_reducible apply onward_ite

theorem onward_winClear {z : State} (w : Nat) (s : State) (hz : Onward z s) : Onward z (winClear w s) := by
  unfold winClear
  repeat' first
    | with_reducible assumption
    | with_reducible exact Onward.refl _
    | with_reducible apply onward_flag
    | with_reducible apply onward_syncRouted

theorem onward_winStart {z : State} (w : Nat) (s : State) (hz : Onward z s) : Onward z (winStart w s) := by
  unfold winStart
  repeat' first
    | with_reducible assumption
    | (extract_lets +onlyGivenNames x; refine (fun hx : Onward z x => ?_) ?_; (on_goal 1 => clear_value x);
        (on_goal 2 => subst x))
    | (extract_lets +onlyGivenNames x; clear_value x)
    | with_reducible exact Onward.refl _
    | with_reducible apply onward_inc
    | with_reducible apply onward_setWinSt
    | with_reducible apply onward_winHit
    | with_reducible apply onward_winShow
    | with_reducible apply onward_ite

theorem onward_winInput {z : State} (w : Nat) (x : Int) (s : State)
    (hz : Onward z s) : Onward z (winInput w x s) := by
  unfold winInput
  repeat' first
    | with_reducible assumption
    | (extract_lets +onlyGivenNames x; refine (fun hx : Onward z x => ?_) ?_; (on_goal 1 => clear_value x);
        (on_goal 2 => subst x))
    | (extract_lets +onlyGivenNames x; refine (fun hx : Onward z x.1 => ?_) ?_; (on_goal 1 => clear_value x);
        (on_goal 2 => subst x))
    | (extract_lets +onlyGivenNames x; clear_value x)
    | with_reducible exact Onward.refl _
    | with_reducible apply onward_setWinSt
    | with_reducible apply onward_winHit
    | with_reducible apply onward_winShow
    | with_reducible apply onward_ite
    | intro _ _ _
    | intro _ _
    | split
    | dsimp only
    | fail_if_no_progress with_reducible apply onward_mk

theorem onward_endBlank {z : State} (w : Nat) (s : State) (hz : Onward z s) : Onward z (endBlank w s) := by
  unfold endBlank
  repeat' first
    | with_reducible assumption
    | with_reducible exact Onward.refl _
    | with_reducible apply onward_flag
    | intro _ _ _
    | intro _ _
    | dsimp only
    | fail_if_no_progress with_reducible apply onward_mk

theorem onward_endDset {z : State} (w : Nat) (high : Bool) (s : State)
    (hz : Onward z s) : Onward z (endDset w high s) := by
  unfold endDset
  repeat' first
    | with_reducible assumption
    | (extract_lets +onlyGivenNames x; refine (fun hx : Onward z x => ?_) ?_; (on_goal 1 => clear_value x);
        (on_goal 2 => subst x))
    | (extract_lets +onlyGivenNames x; refine (fun hx : Onward z x.1 => ?_) ?_; (on_goal 1 => clear_value x);
        (on_goal 2 => subst x))
    | (extract_lets +onlyGivenNames x; clear_value x)
    | with_reducible exact Onward.refl _
    | with_reducible apply onward_setWinSt
    | with_reducible apply onward_ite
    | intro _ _ _
    | intro _ _
    | split
    | dsimp only
    | fail_if_no_progress with_reducible apply onward_mk

theorem onward_winMeet {z : State} (w : Nat) (m : WinMeet) (s : State)
    (hz : Onward z s) : Onward z (winMeet w m s) := by
  unfold winMeet
  repeat' first
    | with_reducible assumption
    | with_reducible exact Onward.refl _
    | with_reducible apply onward_endBlank
    | with_reducible apply onward_endDset
    | with_reducible apply onward_winInput
    | intro _ _ _
    | intro _ _
    | split
    | dsimp only
    | fail_if_no_progress with_reducible apply onward_mk

theorem onward_tryClear {z : State} (w : Nat) (ms : List WinMeet) (s : State)
    (hz : Onward z s) : Onward z (tryClear w ms s).1 := by
  unfold tryClear
  repeat' first
    | with_reducible assumption
    | (extract_lets +onlyGivenNames x; refine (fun hx : Onward z x => ?_) ?_; (on_goal 1 => clear_value x);
        (on_goal 2 => subst x))
    | (extract_lets +onlyGivenNames x; refine (fun hx : Onward z x.1 => ?_) ?_; (on_goal 1 => clear_value x);
        (on_goal 2 => subst x))
    | (extract_lets +onlyGivenNames x; clear_value x)
    | with_reducible exact Onward.refl _
    | with_reducible apply onward_newTrip
    | with_reducible apply onward_winClear
    | with_reducible apply onward_winMeet
    | with_reducible apply onward_ite
    | with_reducible apply onward_forL
    | intro _ _ _
    | intro _ _
    | split
    | dsimp only
    | fail_if_no_progress with_reducible apply onward_mk

theorem onward_winMeets {z : State} (w : Nat) (ms : List WinMeet) (s : State)
    (hz : Onward z s) : Onward z (winMeets w ms s) := by
  unfold winMeets
  repeat' first
    | with_reducible assumption
    | with_reducible exact Onward.refl _
    | with_reducible apply onward_winMeet
    | with_reducible apply onward_winTrip
    | with_reducible apply onward_ite
    | with_reducible apply onward_forL
    | intro _ _ _
    | intro _ _
    | split
    | dsimp only
    | fail_if_no_progress with_reducible apply onward_mk

theorem onward_writeWinCtl {z : State} (w : Nat) (d : Word) (s : State)
    (hz : Onward z s) : Onward z (writeWinCtl w d s) := by
  unfold writeWinCtl
  repeat' first
    | with_reducible assumption
    | (extract_lets +onlyGivenNames x; clear_value x)
    | with_reducible exact Onward.refl _
    | with_reducible apply onward_flag
    | with_reducible apply onward_setWinSt
    | with_reducible apply onward_winShow
    | with_reducible apply onward_winStart
    | with_reducible apply onward_ite

theorem onward_writeWinThr {z : State} (w : Nat) (d : Word) (s : State)
    (hz : Onward z s) : Onward z (writeWinThr w d s) := by
  unfold writeWinThr
  repeat' first
    | with_reducible assumption
    | (extract_lets +onlyGivenNames x; refine (fun hx : Onward z x => ?_) ?_; (on_goal 1 => clear_value x);
        (on_goal 2 => subst x))
    | (extract_lets +onlyGivenNames x; clear_value x)
    | with_reducible exact Onward.refl _
    | with_reducible apply onward_flag
    | with_reducible apply onward_put
    | with_reducible apply onward_setWinSt
    | with_reducible apply onward_ite

theorem onward_writeWinStat {z : State} (w : Nat) (d : Word) (ms : List WinMeet) (s : State)
    (hz : Onward z s) : Onward z (writeWinStat w d ms s) := by
  unfold writeWinStat
  repeat' first
    | with_reducible assumption
    | (extract_lets +onlyGivenNames x; refine (fun hx : Onward z x => ?_) ?_; (on_goal 1 => clear_value x);
        (on_goal 2 => subst x))
    | (extract_lets +onlyGivenNames x; refine (fun hx : Onward z x.1 => ?_) ?_; (on_goal 1 => clear_value x);
        (on_goal 2 => subst x))
    | (extract_lets +onlyGivenNames x; clear_value x)
    | with_reducible exact Onward.refl _
    | with_reducible apply onward_flag
    | with_reducible apply onward_tryClear
    | with_reducible apply onward_winMeets
    | with_reducible apply onward_ite
    | intro _ _ _
    | intro _ _
    | split
    | dsimp only
    | fail_if_no_progress with_reducible apply onward_mk

theorem onward_winPeriodClear {z : State} (n : Nat) (met : List (Fin 64 × WinMeet)) (s : State)
    (hz : Onward z s) : Onward z (winPeriodClear n met s) := by
  unfold winPeriodClear
  repeat' first
    | with_reducible assumption
    | with_reducible exact Onward.refl _
    | with_reducible apply onward_tryClear
    | with_reducible apply onward_winMeets
    | with_reducible apply onward_ite
    | with_reducible apply onward_forL
    | intro _ _ _
    | intro _ _
    | split
    | dsimp only
    | fail_if_no_progress with_reducible apply onward_mk

theorem onward_winBlankOpen {z : State} (k : Nat) (s : State) (hz : Onward z s) : Onward z (winBlankOpen k s) := by
  unfold winBlankOpen
  repeat' first
    | with_reducible assumption
    | (extract_lets +onlyGivenNames x; clear_value x)
    | with_reducible exact Onward.refl _
    | with_reducible apply onward_flag
    | with_reducible apply onward_setWinSt
    | with_reducible apply onward_winHit
    | with_reducible apply onward_ite
    | with_reducible apply onward_forL
    | intro _ _ _

theorem goes_execWinComparatorChange (w : Fin 64) (x : Int) (s : State) :
    Goes s (execWinComparatorChange w x s) := by
  unfold execWinComparatorChange
  apply goes_next
  repeat' first
    | with_reducible assumption
    | with_reducible exact Onward.refl _
    | with_reducible apply onward_winInput
    | with_reducible apply onward_winTrip
    | with_reducible apply onward_ite

theorem goes_execWinBlankEnd (w : Fin 64) (s : State) : Goes s (execWinBlankEnd w s) := by
  unfold execWinBlankEnd
  apply goes_next
  repeat' first
    | with_reducible assumption
    | with_reducible exact Onward.refl _
    | with_reducible apply onward_endBlank
    | with_reducible apply onward_winTrip
    | with_reducible apply onward_ite
    | intro _ _ _
    | intro _ _
    | split
    | dsimp only
    | fail_if_no_progress with_reducible apply onward_mk

theorem goes_execWinDsetEnd (w : Fin 64) (high : Bool) (s : State) : Goes s (execWinDsetEnd w high s) := by
  unfold execWinDsetEnd
  apply goes_next
  repeat' first
    | with_reducible assumption
    | with_reducible exact Onward.refl _
    | with_reducible apply onward_endDset
    | with_reducible apply onward_winTrip
    | intro _ _ _
    | intro _ _
    | dsimp only
    | fail_if_no_progress with_reducible apply onward_mk

theorem goes_execWinThrWrite (w : Fin 64) (d : PortWrite) (s : State) : Goes s (execWinThrWrite w d s) := by
  unfold execWinThrWrite
  apply goes_next
  repeat' first
    | with_reducible assumption
    | with_reducible exact Onward.refl _
    | with_reducible apply onward_guarded
    | with_reducible apply onward_writeWinThr

theorem goes_execWinLatchClear (w : Fin 64) (d : PortWrite) (met : List WinMeet) (s : State) :
    Goes s (execWinLatchClear w d met s) := by
  unfold execWinLatchClear
  apply goes_next
  repeat' first
    | with_reducible assumption
    | with_reducible exact Onward.refl _
    | with_reducible apply onward_guarded
    | with_reducible apply onward_writeWinStat
    | intro _ _ _
    | intro _ _
    | dsimp only
    | fail_if_no_progress with_reducible apply onward_mk

theorem goes_execWinEnWrite (w : Fin 64) (port : Nat) (en : Bool) (s : State) :
    Goes s (execWinEnWrite w port en s) := by
  unfold execWinEnWrite
  apply goes_next
  repeat' first
    | with_reducible assumption
    | with_reducible exact Onward.refl _
    | with_reducible apply onward_guarded
    | with_reducible apply onward_writeWinCtl

end Sys2Proof.Machine
end

