-- ==== Sys2Proof/Laws/OnwardGrid.lean ====
section
/-!
SUPPORT. Every update of Machine/Grid.lean leads onward; every command of it is answered.
-/
set_option Elab.async false

namespace Sys2Proof.Machine

theorem onward_syncGridHold {z : State} (s : State) (hz : Onward z s) : Onward z (syncGridHold s) := by
  unfold syncGridHold
  repeat' first
    | with_reducible assumption
    | (extract_lets +onlyGivenNames x; refine (fun hx : Onward z x => ?_) ?_; (on_goal 1 => clear_value x);
        (on_goal 2 => subst x))
    | (extract_lets +onlyGivenNames x; clear_value x)
    | with_reducible exact Onward.refl _
    | with_reducible apply onward_flag
    | with_reducible apply onward_holdQueue
    | with_reducible apply onward_syncHolds
    | with_reducible apply onward_ite

theorem onward_dropEntok {z : State} (s : State) (hz : Onward z s) : Onward z (dropEntok s) := by
  unfold dropEntok
  repeat' first
    | with_reducible assumption
    | (extract_lets +onlyGivenNames x; refine (fun hx : Onward z x => ?_) ?_; (on_goal 1 => clear_value x);
        (on_goal 2 => subst x))
    | (extract_lets +onlyGivenNames x; clear_value x)
    | with_reducible exact Onward.refl _
    | with_reducible apply onward_flag
    | with_reducible apply onward_put
    | intro _ _ _
    | intro _ _
    | dsimp only
    | fail_if_no_progress with_reducible apply onward_mk

theorem onward_fireIsl {z : State} (cause : Nat) (s : State) (hz : Onward z s) : Onward z (fireIsl cause s) := by
  unfold fireIsl
  repeat' first
    | with_reducible assumption
    | (extract_lets +onlyGivenNames x; refine (fun hx : Onward z x => ?_) ?_; (on_goal 1 => clear_value x);
        (on_goal 2 => subst x))
    | with_reducible exact Onward.refl _
    | with_reducible apply onward_dropEntok
    | with_reducible apply onward_flag
    | with_reducible apply onward_inc
    | with_reducible apply onward_occur
    | with_reducible apply onward_put
    | with_reducible apply onward_syncGridHold
    | with_reducible apply onward_ite

theorem onward_judgeLock {z : State} (dt : Nat) (s : State) (hz : Onward z s) : Onward z (judgeLock dt s) := by
  unfold judgeLock
  repeat' first
    | with_reducible assumption
    | (extract_lets +onlyGivenNames x; refine (fun hx : Onward z x => ?_) ?_; (on_goal 1 => clear_value x);
        (on_goal 2 => subst x))
    | (extract_lets +onlyGivenNames x; refine (fun hx : Onward z x.1 => ?_) ?_; (on_goal 1 => clear_value x);
        (on_goal 2 => subst x))
    | (extract_lets +onlyGivenNames x; clear_value x)
    | with_reducible exact Onward.refl _
    | with_reducible apply onward_flag
    | with_reducible apply onward_pleatsSee
    | with_reducible apply onward_ite
    | intro _ _ _
    | intro _ _
    | split
    | dsimp only
    | fail_if_no_progress with_reducible apply onward_mk

theorem onward_putOutp {z : State} (k : Nat) (v : Int) (s : State) (hz : Onward z s) : Onward z (putOutp k v s) := by
  unfold putOutp
  repeat' first
    | with_reducible assumption
    | with_reducible exact Onward.refl _
    | with_reducible apply onward_put

theorem onward_publishAngle {z : State} (dt : Nat) (s : State) (hz : Onward z s) : Onward z (publishAngle dt s) := by
  unfold publishAngle
  repeat' first
    | with_reducible assumption
    | (extract_lets +onlyGivenNames x; clear_value x)
    | with_reducible exact Onward.refl _
    | with_reducible apply onward_put
    | with_reducible apply onward_putOutp

theorem onward_publishSequences {z : State} (dt : Nat) (s : State)
    (hz : Onward z s) : Onward z (publishSequences dt s) := by
  unfold publishSequences
  repeat' first
    | with_reducible assumption
    | (extract_lets +onlyGivenNames x; clear_value x)
    | with_reducible exact Onward.refl _
    | with_reducible apply onward_putOutp

theorem onward_publish {z : State} (dt : Nat) (passed : Bool) (s : State)
    (hz : Onward z s) : Onward z (publish dt passed s) := by
  unfold publish
  repeat' first
    | with_reducible assumption
    | (extract_lets +onlyGivenNames x; refine (fun hx : Onward z x => ?_) ?_; (on_goal 1 => clear_value x);
        (on_goal 2 => subst x))
    | (extract_lets +onlyGivenNames x; clear_value x)
    | with_reducible exact Onward.refl _
    | with_reducible apply onward_publishAngle
    | with_reducible apply onward_publishSequences
    | with_reducible apply onward_put
    | with_reducible apply onward_putOutp
    | with_reducible apply onward_sput

theorem onward_stepPoint {z : State} (dt i : Nat) (s : State) (hz : Onward z s) : Onward z (stepPoint dt i s) := by
  unfold stepPoint
  repeat' first
    | with_reducible assumption
    | (extract_lets +onlyGivenNames x; clear_value x)
    | with_reducible exact Onward.refl _
    | with_reducible apply onward_ite
    | intro _ _ _
    | intro _ _
    | split
    | dsimp only
    | fail_if_no_progress with_reducible apply onward_mk

theorem onward_stepCurves {z : State} (dt : Nat) (s : State) (hz : Onward z s) : Onward z (stepCurves dt s) := by
  unfold stepCurves
  repeat' first
    | with_reducible assumption
    | (extract_lets +onlyGivenNames x; refine (fun hx : Onward z x => ?_) ?_; (on_goal 1 => clear_value x);
        (on_goal 2 => subst x))
    | (extract_lets +onlyGivenNames x; clear_value x)
    | with_reducible exact Onward.refl _
    | with_reducible apply onward_flag
    | with_reducible apply onward_stepPoint
    | with_reducible apply onward_syncGridHold
    | with_reducible apply onward_ite
    | with_reducible apply onward_forL
    | intro _ _ _
    | intro _ _
    | split
    | dsimp only
    | fail_if_no_progress with_reducible apply onward_mk

theorem onward_stepInjection {z : State} (dt : Nat) (s : State)
    (hz : Onward z s) : Onward z (stepInjection dt s) := by
  unfold stepInjection
  repeat' first
    | with_reducible assumption
    | (extract_lets +onlyGivenNames x; refine (fun hx : Onward z x => ?_) ?_; (on_goal 1 => clear_value x);
        (on_goal 2 => subst x))
    | (extract_lets +onlyGivenNames x; clear_value x)
    | with_reducible exact Onward.refl _
    | with_reducible apply onward_flag
    | with_reducible apply onward_putOutp
    | with_reducible apply onward_ite
    | intro _ _ _
    | intro _ _
    | split
    | dsimp only
    | fail_if_no_progress with_reducible apply onward_mk

theorem onward_stepActive {z : State} (dt : Nat) (s : State) (hz : Onward z s) : Onward z (stepActive dt s) := by
  unfold stepActive
  repeat' first
    | with_reducible assumption
    | (extract_lets +onlyGivenNames x; refine (fun hx : Onward z x => ?_) ?_; (on_goal 1 => clear_value x);
        (on_goal 2 => subst x))
    | (extract_lets +onlyGivenNames x; clear_value x)
    | with_reducible exact Onward.refl _
    | with_reducible apply onward_fireIsl
    | with_reducible apply onward_putOutp
    | with_reducible apply onward_ite
    | intro _ _ _
    | intro _ _
    | split
    | dsimp only
    | fail_if_no_progress with_reducible apply onward_mk

theorem onward_stepIslanding {z : State} (dt : Nat) (s : State)
    (hz : Onward z s) : Onward z (stepIslanding dt s) := by
  unfold stepIslanding
  repeat' first
    | with_reducible assumption
    | (extract_lets +onlyGivenNames x; refine (fun hx : Onward z x => ?_) ?_; (on_goal 1 => clear_value x);
        (on_goal 2 => subst x))
    | (extract_lets +onlyGivenNames x; clear_value x)
    | with_reducible exact Onward.refl _
    | with_reducible apply onward_fireIsl
    | with_reducible apply onward_putOutp
    | with_reducible apply onward_stepActive
    | with_reducible apply onward_ite
    | intro _ _ _
    | intro _ _
    | split
    | dsimp only
    | fail_if_no_progress with_reducible apply onward_mk

theorem onward_stepEntry {z : State} (dt : Nat) (s : State) (hz : Onward z s) : Onward z (stepEntry dt s) := by
  unfold stepEntry
  repeat' first
    | with_reducible assumption
    | (extract_lets +onlyGivenNames x; refine (fun hx : Onward z x => ?_) ?_; (on_goal 1 => clear_value x);
        (on_goal 2 => subst x))
    | (extract_lets +onlyGivenNames x; clear_value x)
    | with_reducible exact Onward.refl _
    | with_reducible apply onward_dropEntok
    | with_reducible apply onward_put
    | with_reducible apply onward_ite
    | intro _ _ _
    | intro _ _
    | split
    | dsimp only
    | fail_if_no_progress with_reducible apply onward_mk

theorem onward_stepPowers {z : State} (dt : Nat) (s : State) (hz : Onward z s) : Onward z (stepPowers dt s) := by
  unfold stepPowers
  repeat' first
    | with_reducible assumption
    | (extract_lets +onlyGivenNames x; clear_value x)
    | with_reducible exact Onward.refl _
    | with_reducible apply onward_putOutp
    | with_reducible apply onward_ite
    | intro _ _ _
    | intro _ _
    | split
    | dsimp only
    | fail_if_no_progress with_reducible apply onward_mk

theorem onward_startForming {z : State} (s : State) (hz : Onward z s) : Onward z (startForming s) := by
  unfold startForming
  repeat' first
    | with_reducible assumption
    | (extract_lets +onlyGivenNames x; refine (fun hx : Onward z x => ?_) ?_; (on_goal 1 => clear_value x);
        (on_goal 2 => subst x))
    | (extract_lets +onlyGivenNames x; refine (fun hx : Onward z x.1 => ?_) ?_; (on_goal 1 => clear_value x);
        (on_goal 2 => subst x))
    | (extract_lets +onlyGivenNames x; clear_value x)
    | with_reducible exact Onward.refl _
    | with_reducible apply onward_flag
    | with_reducible apply onward_pleatsSee
    | with_reducible apply onward_ite
    | intro _ _ _
    | intro _ _
    | split
    | dsimp only
    | fail_if_no_progress with_reducible apply onward_mk

theorem onward_stepForming {z : State} (dt : Nat) (s : State) (hz : Onward z s) : Onward z (stepForming dt s) := by
  unfold stepForming
  repeat' first
    | with_reducible assumption
    | (extract_lets +onlyGivenNames x; refine (fun hx : Onward z x => ?_) ?_; (on_goal 1 => clear_value x);
        (on_goal 2 => subst x))
    | (extract_lets +onlyGivenNames x; clear_value x)
    | with_reducible exact Onward.refl _
    | with_reducible apply onward_put
    | with_reducible apply onward_putOutp
    | with_reducible apply onward_startForming
    | with_reducible apply onward_ite
    | with_reducible apply onward_forL
    | intro _ _ _
    | intro _ _
    | split
    | dsimp only
    | fail_if_no_progress with_reducible apply onward_mk

theorem onward_stepFunctions {z : State} (dt : Nat) (s : State)
    (hz : Onward z s) : Onward z (stepFunctions dt s) := by
  unfold stepFunctions
  repeat' first
    | with_reducible assumption
    | with_reducible exact Onward.refl _
    | with_reducible apply onward_stepCurves
    | with_reducible apply onward_stepEntry
    | with_reducible apply onward_stepForming
    | with_reducible apply onward_stepInjection
    | with_reducible apply onward_stepIslanding

theorem onward_judgeRocof {z : State} (s : State) (hz : Onward z s) : Onward z (judgeRocof s) := by
  unfold judgeRocof
  repeat' first
    | with_reducible assumption
    | (extract_lets +onlyGivenNames x; clear_value x)
    | with_reducible exact Onward.refl _
    | intro _ _ _
    | intro _ _
    | dsimp only
    | fail_if_no_progress with_reducible apply onward_mk

theorem onward_gridStep {z : State} (s : State) (hz : Onward z s) : Onward z (gridStep s) := by
  unfold gridStep
  repeat' first
    | with_reducible assumption
    | (extract_lets +onlyGivenNames x; refine (fun hx : Onward z x => ?_) ?_; (on_goal 1 => clear_value x);
        (on_goal 2 => subst x))
    | (extract_lets +onlyGivenNames x; clear_value x)
    | with_reducible exact Onward.refl _
    | with_reducible apply onward_flag
    | with_reducible apply onward_judgeLock
    | with_reducible apply onward_judgeRocof
    | with_reducible apply onward_publish
    | with_reducible apply onward_stepFunctions
    | with_reducible apply onward_stepPowers
    | with_reducible apply onward_ite
    | intro _ _ _
    | intro _ _
    | split
    | dsimp only
    | fail_if_no_progress with_reducible apply onward_mk

theorem onward_gridPredict {z : State} (s : State) (hz : Onward z s) : Onward z (gridPredict s) := by
  unfold gridPredict
  repeat' first
    | with_reducible assumption
    | (extract_lets +onlyGivenNames x; refine (fun hx : Onward z x => ?_) ?_; (on_goal 1 => clear_value x);
        (on_goal 2 => subst x))
    | (extract_lets +onlyGivenNames x; clear_value x)
    | with_reducible exact Onward.refl _
    | with_reducible apply onward_inc
    | with_reducible apply onward_judgeLock
    | with_reducible apply onward_publishAngle
    | with_reducible apply onward_put
    | with_reducible apply onward_stepFunctions
    | with_reducible apply onward_ite
    | intro _ _ _
    | intro _ _
    | split
    | dsimp only
    | fail_if_no_progress with_reducible apply onward_mk

theorem onward_gridSample {z : State} (n : Nat) (started : List (Nat × Option Nat)) (s : State)
    (hz : Onward z s) : Onward z (gridSample n started s) := by
  unfold gridSample
  repeat' first
    | with_reducible assumption
    | (extract_lets +onlyGivenNames x; refine (fun hx : Onward z x => ?_) ?_; (on_goal 1 => clear_value x);
        (on_goal 2 => subst x))
    | (extract_lets +onlyGivenNames x; refine (fun hx : Onward z x.1 => ?_) ?_; (on_goal 1 => clear_value x);
        (on_goal 2 => subst x))
    | (extract_lets +onlyGivenNames x; clear_value x)
    | with_reducible exact Onward.refl _
    | with_reducible apply onward_gridPredict
    | with_reducible apply onward_ite
    | intro _ _ _
    | intro _ _
    | split
    | dsimp only
    | fail_if_no_progress with_reducible apply onward_mk

theorem onward_writeGrdStat {z : State} (d : Word) (s : State) (hz : Onward z s) : Onward z (writeGrdStat d s) := by
  unfold writeGrdStat
  repeat' first
    | with_reducible assumption
    | (extract_lets +onlyGivenNames x; refine (fun hx : Onward z x => ?_) ?_; (on_goal 1 => clear_value x);
        (on_goal 2 => subst x))
    | with_reducible exact Onward.refl _
    | with_reducible apply onward_flag
    | with_reducible apply onward_syncGridHold
    | with_reducible apply onward_ite

theorem goes_execGridUpdate (s : State) : Goes s (execGridUpdate s) := by
  unfold execGridUpdate
  apply goes_next
  repeat' first
    | with_reducible assumption
    | (extract_lets +onlyGivenNames x; clear_value x)
    | with_reducible exact Onward.refl _
    | with_reducible apply onward_gridStep
    | with_reducible apply onward_ite
    | intro _ _ _
    | intro _ _
    | split
    | dsimp only
    | fail_if_no_progress with_reducible apply onward_mk

theorem onward_actPoint {z : State} (i : Nat) (s : State) (hz : Onward z s) : Onward z (actPoint i s) := by
  unfold actPoint
  repeat' first
    | with_reducible assumption
    | (extract_lets +onlyGivenNames x; refine (fun hx : Onward z x => ?_) ?_; (on_goal 1 => clear_value x);
        (on_goal 2 => subst x))
    | (extract_lets +onlyGivenNames x; refine (fun hx : Onward z x.1 => ?_) ?_; (on_goal 1 => clear_value x);
        (on_goal 2 => subst x))
    | (extract_lets +onlyGivenNames x; clear_value x)
    | with_reducible exact Onward.refl _
    | with_reducible apply onward_dropEntok
    | with_reducible apply onward_flag
    | with_reducible apply onward_inc
    | with_reducible apply onward_occur
    | with_reducible apply onward_put
    | with_reducible apply onward_syncGridHold
    | with_reducible apply onward_ite
    | intro _ _ _
    | intro _ _
    | split
    | dsimp only
    | fail_if_no_progress with_reducible apply onward_mk

theorem goes_execCurvePointAct (freq : Bool) (p : Fin 16) (s : State) : Goes s (execCurvePointAct freq p s) := by
  unfold execCurvePointAct
  apply goes_next
  repeat' first
    | with_reducible assumption
    | with_reducible exact Onward.refl _
    | with_reducible apply onward_actPoint
    | with_reducible apply onward_ite

theorem goes_execCeaseReturn (s : State) : Goes s (execCeaseReturn s) := by
  unfold execCeaseReturn
  apply goes_next
  repeat' first
    | with_reducible assumption
    | (extract_lets +onlyGivenNames x; refine (fun hx : Onward s x => ?_) ?_; (on_goal 1 => clear_value x);
        (on_goal 2 => subst x))
    | with_reducible exact Onward.refl _
    | with_reducible apply onward_actPoint
    | with_reducible apply onward_flag
    | with_reducible apply onward_syncGridHold
    | with_reducible apply onward_ite
    | with_reducible apply onward_forL
    | intro _ _ _

theorem goes_execInjPostEnd (s : State) : Goes s (execInjPostEnd s) := by
  unfold execInjPostEnd
  apply goes_next
  repeat' first
    | with_reducible assumption
    | with_reducible exact Onward.refl _
    | with_reducible apply onward_flag
    | with_reducible apply onward_putOutp
    | with_reducible apply onward_ite

theorem goes_execEntokSet (s : State) : Goes s (execEntokSet s) := by
  unfold execEntokSet
  apply goes_next
  repeat' first
    | with_reducible assumption
    | with_reducible exact Onward.refl _
    | with_reducible apply onward_flag
    | with_reducible apply onward_ite

theorem goes_execGrdTrippedClear (d : PortWrite) (s : State) : Goes s (execGrdTrippedClear d s) := by
  unfold execGrdTrippedClear
  apply goes_next
  repeat' first
    | with_reducible assumption
    | with_reducible exact Onward.refl _
    | with_reducible apply onward_guarded
    | with_reducible apply onward_writeGrdStat

theorem goes_execGrdIslClear (d : PortWrite) (s : State) : Goes s (execGrdIslClear d s) := by
  unfold execGrdIslClear
  apply goes_next
  repeat' first
    | with_reducible assumption
    | with_reducible exact Onward.refl _
    | with_reducible apply onward_guarded
    | with_reducible apply onward_writeGrdStat

end Sys2Proof.Machine
end

