-- ==== Sys2Proof/Laws/OnwardSign.lean ====
section
/-!
SUPPORT. Every update of Machine/Sign.lean leads onward; every command of it is answered.
-/
set_option Elab.async false

namespace Sys2Proof.Machine

theorem onward_syncSign {z : State} (s : State) (hz : Onward z s) : Onward z (syncSign s) := by
  unfold syncSign
  repeat' first
    | with_reducible assumption
    | (extract_lets +onlyGivenNames x; clear_value x)
    | with_reducible exact Onward.refl _
    | with_reducible apply onward_put

theorem onward_addSign {z : State} (r : SignReq) (s : State) (hz : Onward z s) : Onward z (addSign r s) := by
  unfold addSign
  repeat' first
    | with_reducible assumption
    | (extract_lets +onlyGivenNames x; clear_value x)
    | with_reducible exact Onward.refl _
    | with_reducible apply onward_syncSign
    | with_reducible apply onward_ite
    | intro _ _ _
    | intro _ _
    | split
    | dsimp only
    | fail_if_no_progress with_reducible apply onward_mk

theorem onward_countSignature {z : State} (s : State) (hz : Onward z s) : Onward z (countSignature s) := by
  unfold countSignature
  repeat' first
    | with_reducible assumption
    | with_reducible exact Onward.refl _
    | with_reducible apply onward_freeNext
    | with_reducible apply onward_inc

theorem onward_syncVerify {z : State} (want : Bool) (s : State)
    (hz : Onward z s) : Onward z (syncVerify want s) := by
  unfold syncVerify
  repeat' first
    | with_reducible assumption
    | (extract_lets +onlyGivenNames x; refine (fun hx : Onward z x => ?_) ?_; (on_goal 1 => clear_value x);
        (on_goal 2 => subst x))
    | (extract_lets +onlyGivenNames x; clear_value x)
    | with_reducible exact Onward.refl _
    | with_reducible apply onward_addSign
    | with_reducible apply onward_syncSign
    | with_reducible apply onward_ite
    | intro _ _ _
    | intro _ _
    | split
    | dsimp only
    | fail_if_no_progress with_reducible apply onward_mk

end Sys2Proof.Machine
end

