-- ==== Sys2Proof/Laws/OnwardMeter.lean ====
section
/-!
SUPPORT. Every update of Machine/Meter.lean leads onward; every command of it is answered.
-/
set_option Elab.async false

namespace Sys2Proof.Machine

theorem onward_mtrInt {z : State} (cause : Nat) (s : State) (hz : Onward z s) : Onward z (mtrInt cause s) := by
  unfold mtrInt
  repeat' first
    | with_reducible assumption
    | with_reducible exact Onward.refl _
    | with_reducible apply onward_inc
    | with_reducible apply onward_occur
    | with_reducible apply onward_put

theorem onward_meterLost {z : State} (s : State) (hz : Onward z s) : Onward z (meterLost s) := by
  unfold meterLost
  repeat' first
    | with_reducible assumption
    | (extract_lets +onlyGivenNames x; clear_value x)
    | with_reducible exact Onward.refl _
    | with_reducible apply onward_flag
    | with_reducible apply onward_mtrInt
    | intro _ _ _
    | intro _ _
    | dsimp only
    | fail_if_no_progress with_reducible apply onward_mk

theorem onward_judgeKept {z : State} (s : State) (hz : Onward z s) : Onward z (judgeKept s) := by
  unfold judgeKept
  repeat' first
    | with_reducible assumption
    | (extract_lets +onlyGivenNames x; clear_value x)
    | with_reducible exact Onward.refl _
    | with_reducible apply onward_flag
    | with_reducible apply onward_meterLost
    | with_reducible apply onward_mtrInt
    | with_reducible apply onward_ite
    | intro _ _ _
    | intro _ _
    | split
    | dsimp only
    | fail_if_no_progress with_reducible apply onward_mk

theorem onward_loadRunning {z : State} (s : State) (hz : Onward z s) : Onward z (loadRunning s) := by
  unfold loadRunning
  repeat' first
    | with_reducible assumption
    | (extract_lets +onlyGivenNames x; refine (fun hx : Onward z x => ?_) ?_; (on_goal 1 => clear_value x);
        (on_goal 2 => subst x))
    | (extract_lets +onlyGivenNames x; clear_value x)
    | with_reducible exact Onward.refl _
    | with_reducible apply onward_judgeKept
    | intro _ _ _
    | intro _ _
    | dsimp only
    | fail_if_no_progress with_reducible apply onward_mk

theorem onward_loadKept {z : State} (s : State) (hz : Onward z s) : Onward z (loadKept s) := by
  unfold loadKept
  repeat' first
    | with_reducible assumption
    | (extract_lets +onlyGivenNames x; refine (fun hx : Onward z x => ?_) ?_; (on_goal 1 => clear_value x);
        (on_goal 2 => subst x))
    | (extract_lets +onlyGivenNames x; clear_value x)
    | with_reducible exact Onward.refl _
    | with_reducible apply onward_meterLost
    | with_reducible apply onward_ite
    | intro _ _ _
    | intro _ _
    | split
    | dsimp only
    | fail_if_no_progress with_reducible apply onward_mk

theorem onward_startChannel {z : State} (c : Nat) (s : State) (hz : Onward z s) : Onward z (startChannel c s) := by
  unfold startChannel
  repeat' first
    | with_reducible assumption
    | (extract_lets +onlyGivenNames x; clear_value x)
    | with_reducible exact Onward.refl _
    | with_reducible apply onward_setMtrCh

theorem onward_addSample {z : State} (c : Nat) (v i : Int) (s : State)
    (hz : Onward z s) : Onward z (addSample c v i s) := by
  unfold addSample
  repeat' first
    | with_reducible assumption
    | (extract_lets +onlyGivenNames x; clear_value x)
    | with_reducible exact Onward.refl _
    | with_reducible apply onward_setMtrCh

theorem onward_sampleChannel {z : State} (c : Nat) (v i : Int) (s : State)
    (hz : Onward z s) : Onward z (sampleChannel c v i s) := by
  unfold sampleChannel
  repeat' first
    | with_reducible assumption
    | (extract_lets +onlyGivenNames x; refine (fun hx : Onward z x => ?_) ?_; (on_goal 1 => clear_value x);
        (on_goal 2 => subst x))
    | (extract_lets +onlyGivenNames x; clear_value x)
    | with_reducible exact Onward.refl _
    | with_reducible apply onward_addSample
    | with_reducible apply onward_closeWindow
    | with_reducible apply onward_flag
    | with_reducible apply onward_setMtrCh
    | with_reducible apply onward_startChannel
    | with_reducible apply onward_ite

theorem onward_syncRing {z : State} (s : State) (hz : Onward z s) : Onward z (syncRing s) := by
  unfold syncRing
  repeat' first
    | with_reducible assumption
    | with_reducible exact Onward.refl _
    | with_reducible apply onward_put

theorem onward_askMeterSign {z : State} (s : State) (hz : Onward z s) : Onward z (askMeterSign s) := by
  unfold askMeterSign
  repeat' first
    | with_reducible assumption
    | (extract_lets +onlyGivenNames x; clear_value x)
    | with_reducible exact Onward.refl _
    | with_reducible apply onward_addSign
    | with_reducible apply onward_mtrInt
    | with_reducible apply onward_ite
    | with_reducible apply onward_forN
    | intro _ _ _

theorem onward_draftsDone {z : State} (s : State) (hz : Onward z s) : Onward z (draftsDone s) := by
  unfold draftsDone
  repeat' first
    | with_reducible assumption
    | (extract_lets +onlyGivenNames x; refine (fun hx : Onward z x => ?_) ?_; (on_goal 1 => clear_value x);
        (on_goal 2 => subst x))
    | (extract_lets +onlyGivenNames x; clear_value x)
    | with_reducible exact Onward.refl _
    | with_reducible apply onward_askMeterSign
    | with_reducible apply onward_put
    | with_reducible apply onward_setRingSlot
    | with_reducible apply onward_syncRing
    | with_reducible apply onward_forL
    | intro _ _ _
    | intro _ _
    | dsimp only
    | fail_if_no_progress with_reducible apply onward_mk

theorem onward_signSlot {z : State} (k : Nat) (sig : List Byte) (s : State)
    (hz : Onward z s) : Onward z (signSlot k sig s) := by
  unfold signSlot
  repeat' first
    | with_reducible assumption
    | (extract_lets +onlyGivenNames x; clear_value x)
    | with_reducible exact Onward.refl _
    | with_reducible apply onward_flag
    | with_reducible apply onward_setRingSlot
    | with_reducible apply onward_syncRing

theorem onward_clearInterval {z : State} (c : Nat) (s : State) (hz : Onward z s) : Onward z (clearInterval c s) := by
  unfold clearInterval
  repeat' first
    | with_reducible assumption
    | (extract_lets +onlyGivenNames x; clear_value x)
    | with_reducible exact Onward.refl _
    | with_reducible apply onward_setMtrCh
    | with_reducible apply onward_setWord
    | with_reducible apply onward_forL
    | intro _ _ _

theorem onward_writeMtrCtl {z : State} (d : Word) (s : State) (hz : Onward z s) : Onward z (writeMtrCtl d s) := by
  unfold writeMtrCtl
  repeat' first
    | with_reducible assumption
    | (extract_lets +onlyGivenNames x; refine (fun hx : Onward z x => ?_) ?_; (on_goal 1 => clear_value x);
        (on_goal 2 => subst x))
    | (extract_lets +onlyGivenNames x; clear_value x)
    | with_reducible exact Onward.refl _
    | with_reducible apply onward_clearInterval
    | with_reducible apply onward_flag
    | with_reducible apply onward_stopMetering
    | with_reducible apply onward_ite
    | with_reducible apply onward_forL
    | intro _ _ _
    | intro _ _
    | split
    | dsimp only
    | fail_if_no_progress with_reducible apply onward_mk

theorem onward_writeSeal {z : State} (a : Nat) (d : Word) (s : State)
    (hz : Onward z s) : Onward z (writeSeal a d s) := by
  unfold writeSeal
  repeat' first
    | with_reducible assumption
    | with_reducible exact Onward.refl _
    | with_reducible apply onward_flag
    | with_reducible apply onward_plainWrite
    | with_reducible apply onward_ite

theorem goes_execMtrSample (xs : List (BitVec 24 × BitVec 24)) (s : State) : Goes s (execMtrSample xs s) := by
  unfold execMtrSample
  apply goes_next
  repeat' first
    | with_reducible assumption
    | with_reducible exact Onward.refl _
    | with_reducible apply onward_newEvent
    | with_reducible apply onward_sampleChannel
    | with_reducible apply onward_ite
    | with_reducible apply onward_forL
    | intro _ _ _

theorem goes_execMtrZcTimeout (ch : Fin 4) (s : State) : Goes s (execMtrZcTimeout ch s) := by
  unfold execMtrZcTimeout
  apply goes_next
  repeat' first
    | with_reducible assumption
    | (extract_lets +onlyGivenNames x; refine (fun hx : Onward s x => ?_) ?_; (on_goal 1 => clear_value x);
        (on_goal 2 => subst x))
    | (extract_lets +onlyGivenNames x; clear_value x)
    | with_reducible exact Onward.refl _
    | with_reducible apply onward_closeWindow
    | with_reducible apply onward_flag
    | with_reducible apply onward_inc
    | with_reducible apply onward_newEvent
    | with_reducible apply onward_ite
    | intro _ _ _
    | intro _ _
    | split
    | dsimp only
    | fail_if_no_progress with_reducible apply onward_mk

theorem goes_execMtrWindowUpdate (ch : Fin 4) (differ : Bool) (s : State) :
    Goes s (execMtrWindowUpdate ch differ s) := by
  unfold execMtrWindowUpdate
  apply goes_next
  repeat' first
    | with_reducible assumption
    | (extract_lets +onlyGivenNames x; refine (fun hx : Onward s x => ?_) ?_; (on_goal 1 => clear_value x);
        (on_goal 2 => subst x))
    | (extract_lets +onlyGivenNames x; clear_value x)
    | with_reducible exact Onward.refl _
    | with_reducible apply onward_askMeterSign
    | with_reducible apply onward_mtrInt
    | with_reducible apply onward_setMtrCh
    | with_reducible apply onward_takeDues
    | with_reducible apply onward_takeWindow
    | with_reducible apply onward_ite
    | intro _ _ _
    | intro _ _
    | split
    | dsimp only
    | fail_if_no_progress with_reducible apply onward_mk

theorem goes_execMeterIntervalBoundary (s : State) : Goes s (execMeterIntervalBoundary s) := by
  unfold execMeterIntervalBoundary
  apply goes_next
  repeat' first
    | with_reducible assumption
    | (extract_lets +onlyGivenNames x; refine (fun hx : Onward s x => ?_) ?_; (on_goal 1 => clear_value x);
        (on_goal 2 => subst x))
    | (extract_lets +onlyGivenNames x; refine (fun hx : Onward s x.1 => ?_) ?_; (on_goal 1 => clear_value x);
        (on_goal 2 => subst x))
    | (extract_lets +onlyGivenNames x; clear_value x)
    | with_reducible exact Onward.refl _
    | with_reducible apply onward_ite
    | intro _ _ _
    | intro _ _
    | split
    | dsimp only
    | fail_if_no_progress with_reducible apply onward_mk

theorem goes_execMtrIclr (chs : BitVec 4) (port : Nat) (en : Bool) (s : State) :
    Goes s (execMtrIclr chs port en s) := by
  unfold execMtrIclr
  apply goes_next
  repeat' first
    | with_reducible assumption
    | with_reducible exact Onward.refl _
    | with_reducible apply onward_guarded
    | with_reducible apply onward_writeMtrCtl

theorem goes_execMtrNow (port : Nat) (en : Bool) (s : State) : Goes s (execMtrNow port en s) := by
  unfold execMtrNow
  apply goes_next
  repeat' first
    | with_reducible assumption
    | with_reducible exact Onward.refl _
    | with_reducible apply onward_guarded
    | with_reducible apply onward_writeMtrCtl

theorem goes_execMtrEnWrite (port : Nat) (en : Bool) (s : State) : Goes s (execMtrEnWrite port en s) := by
  unfold execMtrEnWrite
  apply goes_next
  repeat' first
    | with_reducible assumption
    | with_reducible exact Onward.refl _
    | with_reducible apply onward_guarded
    | with_reducible apply onward_writeMtrCtl

theorem goes_execMtrSealFieldWrite (a : BitVec 16) (d : PortWrite) (s : State) :
    Goes s (execMtrSealFieldWrite a d s) := by
  unfold execMtrSealFieldWrite
  apply goes_next
  repeat' first
    | with_reducible assumption
    | with_reducible exact Onward.refl _
    | with_reducible apply onward_guarded
    | with_reducible apply onward_writeSeal
    | with_reducible apply onward_ite
    | intro _ _ _
    | intro _ _

end Sys2Proof.Machine
end

