-- ==== Sys2Proof/Laws/OnwardOverlock.lean ====
section
/-!
SUPPORT. Every update of Machine/Overlock.lean leads onward; every command of it is answered.
-/
set_option Elab.async false

namespace Sys2Proof.Machine

theorem onward_setOvlSt {z : State} (s : State) (u : Nat) (x : OvlSt)
    (hz : Onward z s) : Onward z (setOvlSt s u x) := by
  unfold setOvlSt
  repeat' first
    | with_reducible assumption
    | with_reducible exact Onward.refl _
    | intro _ _ _
    | intro _ _
    | dsimp only
    | fail_if_no_progress with_reducible apply onward_mk

theorem onward_ovlDiscard {z : State} (u p a : Nat) (s : State)
    (hz : Onward z s) : Onward z (ovlDiscard u p a s) := by
  unfold ovlDiscard
  repeat' first
    | with_reducible assumption
    | with_reducible exact Onward.refl _
    | with_reducible apply onward_discarded
    | with_reducible apply onward_flag

theorem onward_writeOvlCmd {z : State} (u p : Nat) (d : Word) (s : State)
    (hz : Onward z s) : Onward z (writeOvlCmd u p d s) := by
  unfold writeOvlCmd
  repeat' first
    | with_reducible assumption
    | (extract_lets +onlyGivenNames x; refine (fun hx : Onward z x => ?_) ?_; (on_goal 1 => clear_value x);
        (on_goal 2 => subst x))
    | (extract_lets +onlyGivenNames x; clear_value x)
    | with_reducible exact Onward.refl _
    | with_reducible apply onward_flag
    | with_reducible apply onward_ovlDiscard
    | with_reducible apply onward_put
    | with_reducible apply onward_setOvlSt
    | with_reducible apply onward_ite
    | intro _ _ _
    | intro _ _
    | split

theorem onward_feedOvl {z : State} (u p a : Nat) (bs : List Byte) (s : State)
    (hz : Onward z s) : Onward z (feedOvl u p a bs s) := by
  unfold feedOvl
  repeat' first
    | with_reducible assumption
    | (extract_lets +onlyGivenNames x; clear_value x)
    | with_reducible exact Onward.refl _
    | with_reducible apply onward_ovlDiscard
    | with_reducible apply onward_put
    | with_reducible apply onward_setOvlSt
    | with_reducible apply onward_ite

theorem onward_writeOvlDin4 {z : State} (u p : Nat) (d : Word) (s : State)
    (hz : Onward z s) : Onward z (writeOvlDin4 u p d s) := by
  unfold writeOvlDin4
  repeat' first
    | with_reducible assumption
    | with_reducible exact Onward.refl _
    | with_reducible apply onward_feedOvl

theorem onward_writeOvlDin1 {z : State} (u p : Nat) (d : Word) (s : State)
    (hz : Onward z s) : Onward z (writeOvlDin1 u p d s) := by
  unfold writeOvlDin1
  repeat' first
    | with_reducible assumption
    | with_reducible exact Onward.refl _
    | with_reducible apply onward_feedOvl

theorem onward_writeOvlPar {z : State} (u a : Nat) (d : Word) (s : State)
    (hz : Onward z s) : Onward z (writeOvlPar u a d s) := by
  unfold writeOvlPar
  repeat' first
    | with_reducible assumption
    | (extract_lets +onlyGivenNames x; refine (fun hx : Onward z x => ?_) ?_; (on_goal 1 => clear_value x);
        (on_goal 2 => subst x))
    | with_reducible exact Onward.refl _
    | with_reducible apply onward_flag
    | with_reducible apply onward_plainWrite
    | with_reducible apply onward_ite

theorem onward_writeOvlAcfg {z : State} (u : Nat) (d : Word) (s : State)
    (hz : Onward z s) : Onward z (writeOvlAcfg u d s) := by
  unfold writeOvlAcfg
  repeat' first
    | with_reducible assumption
    | (extract_lets +onlyGivenNames x; refine (fun hx : Onward z x => ?_) ?_; (on_goal 1 => clear_value x);
        (on_goal 2 => subst x))
    | (extract_lets +onlyGivenNames x; clear_value x)
    | with_reducible exact Onward.refl _
    | with_reducible apply onward_flag
    | with_reducible apply onward_plainWrite
    | with_reducible apply onward_setOvlSt
    | with_reducible apply onward_ite

theorem onward_writeOvlAfeed {z : State} (u : Nat) (d : Word) (s : State)
    (hz : Onward z s) : Onward z (writeOvlAfeed u d s) := by
  unfold writeOvlAfeed
  repeat' first
    | with_reducible assumption
    | (extract_lets +onlyGivenNames x; refine (fun hx : Onward z x => ?_) ?_; (on_goal 1 => clear_value x);
        (on_goal 2 => subst x))
    | (extract_lets +onlyGivenNames x; clear_value x)
    | with_reducible exact Onward.refl _
    | with_reducible apply onward_flag
    | with_reducible apply onward_inc
    | with_reducible apply onward_put
    | with_reducible apply onward_setOvlSt
    | with_reducible apply onward_ite

theorem onward_writeOvl {z : State} (u p a : Nat) (d : Word) (s : State)
    (hz : Onward z s) : Onward z (writeOvl u p a d s) := by
  unfold writeOvl
  repeat' first
    | with_reducible assumption
    | with_reducible exact Onward.refl _
    | with_reducible apply onward_plainWrite
    | with_reducible apply onward_writeOvlAcfg
    | with_reducible apply onward_writeOvlAfeed
    | with_reducible apply onward_writeOvlCmd
    | with_reducible apply onward_writeOvlDin1
    | with_reducible apply onward_writeOvlDin4
    | with_reducible apply onward_writeOvlPar
    | with_reducible apply onward_ite
    | intro _ _ _
    | intro _ _
    | split

theorem goes_execOvlStart (u : Fin 16) (port : Nat) (s : State) : Goes s (execOvlStart u port s) := by
  unfold execOvlStart
  apply goes_next
  repeat' first
    | with_reducible assumption
    | with_reducible exact Onward.refl _
    | with_reducible apply onward_guarded
    | with_reducible apply onward_writeOvlCmd

theorem goes_execOvlEnd (u : Fin 16) (port : Nat) (s : State) : Goes s (execOvlEnd u port s) := by
  unfold execOvlEnd
  apply goes_next
  repeat' first
    | with_reducible assumption
    | with_reducible exact Onward.refl _
    | with_reducible apply onward_guarded
    | with_reducible apply onward_writeOvlCmd

theorem goes_execOvlDin4 (u : Fin 16) (w : PortWrite) (s : State) : Goes s (execOvlDin4 u w s) := by
  unfold execOvlDin4
  apply goes_next
  repeat' first
    | with_reducible assumption
    | with_reducible exact Onward.refl _
    | with_reducible apply onward_guarded
    | with_reducible apply onward_writeOvlDin4

theorem goes_execOvlDin1 (u : Fin 16) (w : PortWrite) (s : State) : Goes s (execOvlDin1 u w s) := by
  unfold execOvlDin1
  apply goes_next
  repeat' first
    | with_reducible assumption
    | with_reducible exact Onward.refl _
    | with_reducible apply onward_guarded
    | with_reducible apply onward_writeOvlDin1

theorem goes_execOvlParamWrite (u : Fin 16) (k : Fin 7) (w : PortWrite) (s : State) :
    Goes s (execOvlParamWrite u k w s) := by
  unfold execOvlParamWrite
  apply goes_next
  repeat' first
    | with_reducible assumption
    | with_reducible exact Onward.refl _
    | with_reducible apply onward_guarded
    | with_reducible apply onward_writeOvlPar

theorem goes_execOvlAcfgWrite (u : Fin 16) (w : PortWrite) (s : State) : Goes s (execOvlAcfgWrite u w s) := by
  unfold execOvlAcfgWrite
  apply goes_next
  repeat' first
    | with_reducible assumption
    | with_reducible exact Onward.refl _
    | with_reducible apply onward_guarded
    | with_reducible apply onward_writeOvlAcfg

theorem goes_execOvlAfeed (u : Fin 16) (w : PortWrite) (s : State) : Goes s (execOvlAfeed u w s) := by
  unfold execOvlAfeed
  apply goes_next
  repeat' first
    | with_reducible assumption
    | with_reducible exact Onward.refl _
    | with_reducible apply onward_guarded
    | with_reducible apply onward_writeOvlAfeed

theorem onward_putWindow {z : State} (base : Nat) (bs : List Byte) (s : State)
    (hz : Onward z s) : Onward z (putWindow base bs s) := by
  unfold putWindow
  repeat' first
    | with_reducible assumption
    | with_reducible exact Onward.refl _
    | with_reducible apply onward_setWord
    | with_reducible apply onward_forL
    | intro _ _ _

theorem onward_writeIdnCmd {z : State} (d : Word) (s : State) (hz : Onward z s) : Onward z (writeIdnCmd d s) := by
  unfold writeIdnCmd
  repeat' first
    | with_reducible assumption
    | (extract_lets +onlyGivenNames x; refine (fun hx : Onward z x => ?_) ?_; (on_goal 1 => clear_value x);
        (on_goal 2 => subst x))
    | (extract_lets +onlyGivenNames x; clear_value x)
    | with_reducible exact Onward.refl _
    | with_reducible apply onward_addSign
    | with_reducible apply onward_flag
    | with_reducible apply onward_put
    | with_reducible apply onward_ite
    | intro _ _ _
    | intro _ _
    | split
    | dsimp only
    | fail_if_no_progress with_reducible apply onward_mk

theorem onward_idnDone {z : State} (s : State) (hz : Onward z s) : Onward z (idnDone s) := by
  unfold idnDone
  repeat' first
    | with_reducible assumption
    | with_reducible exact Onward.refl _
    | with_reducible apply onward_flag

theorem goes_execAttest (c : PortCmd) (s : State) : Goes s (execAttest c s) := by
  unfold execAttest
  apply goes_next
  repeat' first
    | with_reducible assumption
    | with_reducible exact Onward.refl _
    | with_reducible apply onward_guarded
    | with_reducible apply onward_writeIdnCmd

theorem goes_execFuseKey (c : PortCmd) (s : State) : Goes s (execFuseKey c s) := by
  unfold execFuseKey
  apply goes_next
  repeat' first
    | with_reducible assumption
    | with_reducible exact Onward.refl _
    | with_reducible apply onward_guarded
    | with_reducible apply onward_writeIdnCmd

theorem goes_execFuseKeyDone (fused : BitVec 256) (s : State) : Goes s (execFuseKeyDone fused s) := by
  unfold execFuseKeyDone
  apply goes_next
  repeat' first
    | with_reducible assumption
    | (extract_lets +onlyGivenNames x; refine (fun hx : Onward s x => ?_) ?_; (on_goal 1 => clear_value x);
        (on_goal 2 => subst x))
    | (extract_lets +onlyGivenNames x; clear_value x)
    | with_reducible exact Onward.refl _
    | with_reducible apply onward_flag
    | with_reducible apply onward_idnDone
    | with_reducible apply onward_setWord
    | with_reducible apply onward_ite
    | with_reducible apply onward_forL
    | intro _ _ _
    | intro _ _
    | split
    | dsimp only
    | fail_if_no_progress with_reducible apply onward_mk

theorem goes_execKeyCheckDone (keyOk rngOk : Bool) (s : State) : Goes s (execKeyCheckDone keyOk rngOk s) := by
  unfold execKeyCheckDone
  apply goes_next
  repeat' first
    | with_reducible assumption
    | (extract_lets +onlyGivenNames x; refine (fun hx : Onward s x => ?_) ?_; (on_goal 1 => clear_value x);
        (on_goal 2 => subst x))
    | (extract_lets +onlyGivenNames x; clear_value x)
    | with_reducible exact Onward.refl _
    | with_reducible apply onward_flag
    | with_reducible apply onward_syncSign
    | with_reducible apply onward_ite
    | intro _ _ _
    | intro _ _
    | split
    | dsimp only
    | fail_if_no_progress with_reducible apply onward_mk

theorem goes_execRngHealthFail (s : State) : Goes s (execRngHealthFail s) := by
  unfold execRngHealthFail
  apply goes_next
  repeat' first
    | with_reducible assumption
    | with_reducible exact Onward.refl _
    | with_reducible apply onward_flag
    | with_reducible apply onward_ite

end Sys2Proof.Machine
end

