-- ==== Sys2Proof/Laws/OnwardHem.lean ====
section
/-!
SUPPORT. Every update of Machine/Hem.lean leads onward; every command of it is answered.
-/
set_option Elab.async false

namespace Sys2Proof.Machine

theorem onward_setWireSt {z : State} (s : State) (i : Nat) (w : WireSt)
    (hz : Onward z s) : Onward z (setWireSt s i w) := by
  unfold setWireSt
  repeat' first
    | with_reducible assumption
    | (extract_lets +onlyGivenNames x; clear_value x)
    | with_reducible exact Onward.refl _
    | intro _ _ _
    | intro _ _
    | dsimp only
    | fail_if_no_progress with_reducible apply onward_mk

theorem onward_markDisc {z : State} (p : Nat) (s : State) (hz : Onward z s) : Onward z (markDisc p s) := by
  unfold markDisc
  repeat' first
    | with_reducible assumption
    | with_reducible exact Onward.refl _
    | with_reducible apply onward_flag
    | with_reducible apply onward_inc
    | with_reducible apply onward_put

theorem onward_pairTick {z : State} (wires : Nat) (p : Nat) (s : State)
    (hz : Onward z s) : Onward z (pairTick wires p s) := by
  unfold pairTick
  repeat' first
    | with_reducible assumption
    | (extract_lets +onlyGivenNames x; refine (fun hx : Onward z x => ?_) ?_; (on_goal 1 => clear_value x);
        (on_goal 2 => subst x))
    | (extract_lets +onlyGivenNames x; clear_value x)
    | with_reducible exact Onward.refl _
    | with_reducible apply onward_flag
    | with_reducible apply onward_markDisc
    | with_reducible apply onward_put
    | with_reducible apply onward_setWireSt
    | with_reducible apply onward_ite

theorem onward_hvilBit {z : State} (i : Nat) (s : State) (hz : Onward z s) : Onward z (hvilBit i s) := by
  unfold hvilBit
  repeat' first
    | with_reducible assumption
    | (extract_lets +onlyGivenNames x; refine (fun hx : Onward z x => ?_) ?_; (on_goal 1 => clear_value x);
        (on_goal 2 => subst x))
    | (extract_lets +onlyGivenNames x; refine (fun hx : Onward z x.1 => ?_) ?_; (on_goal 1 => clear_value x);
        (on_goal 2 => subst x))
    | (extract_lets +onlyGivenNames x; clear_value x)
    | with_reducible exact Onward.refl _
    | with_reducible apply onward_flag
    | with_reducible apply onward_inc
    | with_reducible apply onward_put
    | with_reducible apply onward_ite
    | intro _ _ _
    | intro _ _
    | split
    | dsimp only
    | fail_if_no_progress with_reducible apply onward_mk

theorem onward_hvilStart {z : State} (was s : State) (hz : Onward z s) : Onward z (hvilStart was s) := by
  unfold hvilStart
  repeat' first
    | with_reducible assumption
    | (extract_lets +onlyGivenNames x; refine (fun hx : Onward z x => ?_) ?_; (on_goal 1 => clear_value x);
        (on_goal 2 => subst x))
    | (extract_lets +onlyGivenNames x; clear_value x)
    | with_reducible exact Onward.refl _
    | with_reducible apply onward_flag
    | with_reducible apply onward_ite
    | intro _ _ _
    | intro _ _
    | split
    | dsimp only
    | fail_if_no_progress with_reducible apply onward_mk

theorem onward_hvilTick {z : State} (s : State) (hz : Onward z s) : Onward z (hvilTick s) := by
  unfold hvilTick
  repeat' first
    | with_reducible assumption
    | (extract_lets +onlyGivenNames x; refine (fun hx : Onward z x => ?_) ?_; (on_goal 1 => clear_value x);
        (on_goal 2 => subst x))
    | (extract_lets +onlyGivenNames x; clear_value x)
    | with_reducible exact Onward.refl _
    | with_reducible apply onward_flag
    | with_reducible apply onward_ite
    | intro _ _ _
    | intro _ _
    | split
    | dsimp only
    | fail_if_no_progress with_reducible apply onward_mk

theorem onward_putFb {z : State} (k : Nat) (level : Bool) (s : State)
    (hz : Onward z s) : Onward z (putFb k level s) := by
  unfold putFb
  repeat' first
    | with_reducible assumption
    | (extract_lets +onlyGivenNames x; clear_value x)
    | with_reducible exact Onward.refl _
    | with_reducible apply onward_put
    | with_reducible apply onward_ite

theorem onward_markFb {z : State} (k : Nat) (s : State) (hz : Onward z s) : Onward z (markFb k s) := by
  unfold markFb
  repeat' first
    | with_reducible assumption
    | with_reducible exact Onward.refl _
    | with_reducible apply onward_put
    | with_reducible apply onward_ite

theorem onward_setStreamSt {z : State} (s : State) (k : Nat) (x : StreamSt)
    (hz : Onward z s) : Onward z (setStreamSt s k x) := by
  unfold setStreamSt
  repeat' first
    | with_reducible assumption
    | (extract_lets +onlyGivenNames x; clear_value x)
    | with_reducible exact Onward.refl _
    | intro _ _ _
    | intro _ _
    | dsimp only
    | fail_if_no_progress with_reducible apply onward_mk

theorem onward_streamError {z : State} (k e : Nat) (s : State) (hz : Onward z s) : Onward z (streamError k e s) := by
  unfold streamError
  repeat' first
    | with_reducible assumption
    | (extract_lets +onlyGivenNames x; refine (fun hx : Onward z x => ?_) ?_; (on_goal 1 => clear_value x);
        (on_goal 2 => subst x))
    | (extract_lets +onlyGivenNames x; clear_value x)
    | with_reducible exact Onward.refl _
    | with_reducible apply onward_flag
    | with_reducible apply onward_inc
    | with_reducible apply onward_put
    | with_reducible apply onward_setStreamSt

theorem onward_closeStream {z : State} (k : Nat) (s : State) (hz : Onward z s) : Onward z (closeStream k s) := by
  unfold closeStream
  repeat' first
    | with_reducible assumption
    | (extract_lets +onlyGivenNames x; clear_value x)
    | with_reducible exact Onward.refl _
    | with_reducible apply onward_flag
    | with_reducible apply onward_setStreamSt

theorem onward_openStream {z : State} (k : Nat) (bus : Nat) (bs : List Byte) (s : State)
    (hz : Onward z s) : Onward z (openStream k bus bs s) := by
  unfold openStream
  repeat' first
    | with_reducible assumption
    | (extract_lets +onlyGivenNames x; clear_value x)
    | with_reducible exact Onward.refl _
    | with_reducible apply onward_flag
    | with_reducible apply onward_setStreamSt
    | with_reducible apply onward_streamError
    | with_reducible apply onward_ite

theorem onward_deliverPair {z : State} (k c : Nat) (bs : List Byte) (s : State)
    (hz : Onward z s) : Onward z (deliverPair k c bs s) := by
  unfold deliverPair
  repeat' first
    | with_reducible assumption
    | (extract_lets +onlyGivenNames x; refine (fun hx : Onward z x => ?_) ?_; (on_goal 1 => clear_value x);
        (on_goal 2 => subst x))
    | (extract_lets +onlyGivenNames x; clear_value x)
    | with_reducible exact Onward.refl _
    | with_reducible apply onward_inc
    | with_reducible apply onward_put
    | with_reducible apply onward_setStreamSt
    | with_reducible apply onward_setWord

theorem onward_acceptPair {z : State} (k c : Nat) (bs : List Byte) (s : State)
    (hz : Onward z s) : Onward z (acceptPair k c bs s) := by
  unfold acceptPair
  repeat' first
    | with_reducible assumption
    | (extract_lets +onlyGivenNames x; refine (fun hx : Onward z x => ?_) ?_; (on_goal 1 => clear_value x);
        (on_goal 2 => subst x))
    | (extract_lets +onlyGivenNames x; clear_value x)
    | with_reducible exact Onward.refl _
    | with_reducible apply onward_deliverPair
    | with_reducible apply onward_inc
    | with_reducible apply onward_setStreamSt
    | with_reducible apply onward_streamError
    | with_reducible apply onward_ite

theorem onward_streamCopy {z : State} (k bus : Nat) (bs : List Byte) (s : State)
    (hz : Onward z s) : Onward z (streamCopy k bus bs s) := by
  unfold streamCopy
  repeat' first
    | with_reducible assumption
    | (extract_lets +onlyGivenNames x; refine (fun hx : Onward z x => ?_) ?_; (on_goal 1 => clear_value x);
        (on_goal 2 => subst x))
    | with_reducible exact Onward.refl _
    | with_reducible apply onward_acceptPair
    | with_reducible apply onward_closeStream
    | with_reducible apply onward_openStream
    | with_reducible apply onward_streamError
    | with_reducible apply onward_ite
    | intro _ _ _
    | intro _ _
    | split

theorem onward_hemFrame {z : State} (k bus : Nat) (bs : List Byte) (s : State)
    (hz : Onward z s) : Onward z (hemFrame k bus bs s) := by
  unfold hemFrame
  repeat' first
    | with_reducible assumption
    | with_reducible exact Onward.refl _
    | with_reducible apply onward_inc
    | with_reducible apply onward_streamCopy
    | with_reducible apply onward_ite

theorem onward_streamExpire {z : State} (k : Nat) (s : State) (hz : Onward z s) : Onward z (streamExpire k s) := by
  unfold streamExpire
  repeat' first
    | with_reducible assumption
    | with_reducible exact Onward.refl _
    | with_reducible apply onward_closeStream
    | with_reducible apply onward_streamError
    | with_reducible apply onward_ite
    | intro _ _ _
    | intro _ _
    | split

theorem onward_streamLost {z : State} (k : Nat) (s : State) (hz : Onward z s) : Onward z (streamLost k s) := by
  unfold streamLost
  repeat' first
    | with_reducible assumption
    | (extract_lets +onlyGivenNames x; clear_value x)
    | with_reducible exact Onward.refl _
    | with_reducible apply onward_setStreamSt
    | with_reducible apply onward_streamError
    | with_reducible apply onward_ite

theorem onward_formDemands {z : State} (s : State) (hz : Onward z s) : Onward z (formDemands s) := by
  unfold formDemands
  repeat' first
    | with_reducible assumption
    | (extract_lets +onlyGivenNames x; refine (fun hx : Onward z x => ?_) ?_; (on_goal 1 => clear_value x);
        (on_goal 2 => subst x))
    | with_reducible exact Onward.refl _
    | with_reducible apply onward_flag
    | with_reducible apply onward_put
    | with_reducible apply onward_forL
    | intro _ _ _

theorem onward_resetFaults {z : State} (s : State) (hz : Onward z s) : Onward z (resetFaults s) := by
  unfold resetFaults
  repeat' first
    | with_reducible assumption
    | (extract_lets +onlyGivenNames x; refine (fun hx : Onward z x => ?_) ?_; (on_goal 1 => clear_value x);
        (on_goal 2 => subst x))
    | (extract_lets +onlyGivenNames x; clear_value x)
    | with_reducible exact Onward.refl _
    | with_reducible apply onward_flag
    | with_reducible apply onward_put
    | with_reducible apply onward_ite
    | with_reducible apply onward_forL
    | intro _ _ _
    | intro _ _
    | split

theorem onward_validReset {z : State} (s : State) (hz : Onward z s) : Onward z (validReset s) := by
  unfold validReset
  repeat' first
    | with_reducible assumption
    | (extract_lets +onlyGivenNames x; refine (fun hx : Onward z x => ?_) ?_; (on_goal 1 => clear_value x);
        (on_goal 2 => subst x))
    | with_reducible exact Onward.refl _
    | with_reducible apply onward_flag
    | with_reducible apply onward_formDemands
    | with_reducible apply onward_hemClear
    | with_reducible apply onward_inc
    | with_reducible apply onward_resetFaults
    | with_reducible apply onward_ite

theorem onward_markStuck {z : State} (s : State) (hz : Onward z s) : Onward z (markStuck s) := by
  unfold markStuck
  repeat' first
    | with_reducible assumption
    | with_reducible exact Onward.refl _
    | with_reducible apply onward_flag
    | with_reducible apply onward_ite

theorem onward_srstTick {z : State} (level : Bool) (s : State) (hz : Onward z s) : Onward z (srstTick level s) := by
  unfold srstTick
  repeat' first
    | with_reducible assumption
    | (extract_lets +onlyGivenNames x; refine (fun hx : Onward z x => ?_) ?_; (on_goal 1 => clear_value x);
        (on_goal 2 => subst x))
    | (extract_lets +onlyGivenNames x; clear_value x)
    | with_reducible exact Onward.refl _
    | with_reducible apply onward_flag
    | with_reducible apply onward_inc
    | with_reducible apply onward_markStuck
    | with_reducible apply onward_validReset
    | with_reducible apply onward_ite
    | intro _ _ _
    | intro _ _
    | split
    | dsimp only
    | fail_if_no_progress with_reducible apply onward_mk

theorem onward_latchTick {z : State} (s : State) (hz : Onward z s) : Onward z (latchTick s) := by
  unfold latchTick
  repeat' first
    | with_reducible assumption
    | (extract_lets +onlyGivenNames x; clear_value x)
    | with_reducible exact Onward.refl _
    | with_reducible apply onward_hemClear
    | with_reducible apply onward_hemDemand
    | with_reducible apply onward_ite
    | with_reducible apply onward_forL

theorem onward_payStreams {z : State} (s : State) (hz : Onward z s) : Onward z (payStreams s) := by
  unfold payStreams
  repeat' first
    | with_reducible assumption
    | (extract_lets +onlyGivenNames x; clear_value x)
    | with_reducible exact Onward.refl _
    | with_reducible apply onward_setStreamSt
    | with_reducible apply onward_ite
    | with_reducible apply onward_forL
    | intro _ _ _

theorem onward_judgeTick {z : State} (wires fb : Nat) (s : State)
    (hz : Onward z s) : Onward z (judgeTick wires fb s) := by
  unfold judgeTick
  repeat' first
    | with_reducible assumption
    | (extract_lets +onlyGivenNames x; refine (fun hx : Onward z x => ?_) ?_; (on_goal 1 => clear_value x);
        (on_goal 2 => subst x))
    | with_reducible exact Onward.refl _
    | with_reducible apply onward_hvilTick
    | with_reducible apply onward_markFb
    | with_reducible apply onward_pairTick
    | with_reducible apply onward_putFb
    | with_reducible apply onward_streamExpire
    | with_reducible apply onward_streamLost
    | with_reducible apply onward_forL
    | intro _ _ _

theorem goes_execSafetyTick (wires : BitVec 8) (srst : Bool) (fb : BitVec 4) (s : State) :
    Goes s (execSafetyTick wires srst fb s) := by
  unfold execSafetyTick
  apply goes_next
  repeat' first
    | with_reducible assumption
    | (extract_lets +onlyGivenNames x; refine (fun hx : Onward s x => ?_) ?_; (on_goal 1 => clear_value x);
        (on_goal 2 => subst x))
    | (extract_lets +onlyGivenNames x; clear_value x)
    | with_reducible exact Onward.refl _
    | with_reducible apply onward_formDemands
    | with_reducible apply onward_judgeTick
    | with_reducible apply onward_latchTick
    | with_reducible apply onward_occurAtTick
    | with_reducible apply onward_oneCycle
    | with_reducible apply onward_payStreams
    | with_reducible apply onward_srstTick
    | with_reducible apply onward_ite
    | with_reducible apply onward_forL
    | intro _ _ _
    | intro _ _
    | split
    | with_reducible apply onward_mk_max

theorem goes_execDiscrepancyLimit (p : Fin 4) (s : State) : Goes s (execDiscrepancyLimit p s) := by
  unfold execDiscrepancyLimit
  apply goes_next
  repeat' first
    | with_reducible assumption
    | with_reducible exact Onward.refl _
    | with_reducible apply onward_markDisc
    | with_reducible apply onward_occurAtTick
    | with_reducible apply onward_ite

theorem goes_execSrstStuck (s : State) : Goes s (execSrstStuck s) := by
  unfold execSrstStuck
  apply goes_next
  repeat' first
    | with_reducible assumption
    | with_reducible exact Onward.refl _
    | with_reducible apply onward_flag
    | with_reducible apply onward_occurAtTick
    | with_reducible apply onward_ite

theorem goes_execHvilBit (iret : BitVec 12) (s : State) : Goes s (execHvilBit iret s) := by
  unfold execHvilBit
  apply goes_next
  repeat' first
    | with_reducible assumption
    | with_reducible exact Onward.refl _
    | with_reducible apply onward_hvilBit
    | with_reducible apply onward_ite

theorem goes_execCtrFbCheck (k : Fin 4) (level : Bool) (s : State) : Goes s (execCtrFbCheck k level s) := by
  unfold execCtrFbCheck
  apply goes_next
  repeat' first
    | with_reducible assumption
    | (extract_lets +onlyGivenNames x; refine (fun hx : Onward s x => ?_) ?_; (on_goal 1 => clear_value x);
        (on_goal 2 => subst x))
    | with_reducible exact Onward.refl _
    | with_reducible apply onward_markFb
    | with_reducible apply onward_occurAtTick
    | with_reducible apply onward_putFb
    | with_reducible apply onward_ite

theorem goes_execHemCopyRx (busB xid : Bool) (id : BitVec 29) (bytes : List Byte) (s : State) :
    Goes s (execHemCopyRx busB xid id bytes s) := by
  unfold execHemCopyRx
  apply goes_next
  repeat' first
    | with_reducible assumption
    | with_reducible exact Onward.refl _
    | with_reducible apply onward_hemFrame
    | with_reducible apply onward_ite
    | intro _ _ _
    | intro _ _
    | split

theorem goes_execHemWindowExpire (k : Fin 4) (s : State) : Goes s (execHemWindowExpire k s) := by
  unfold execHemWindowExpire
  apply goes_next
  repeat' first
    | with_reducible assumption
    | with_reducible exact Onward.refl _
    | with_reducible apply onward_streamExpire
    | with_reducible apply onward_ite

theorem goes_execHemStreamLost (k : Fin 4) (s : State) : Goes s (execHemStreamLost k s) := by
  unfold execHemStreamLost
  apply goes_next
  repeat' first
    | with_reducible assumption
    | with_reducible exact Onward.refl _
    | with_reducible apply onward_streamLost
    | with_reducible apply onward_ite

theorem goes_execSpoNChange (high : Bool) (s : State) : Goes s (execSpoNChange high s) := by
  unfold execSpoNChange
  apply goes_next
  repeat' first
    | with_reducible assumption
    | (extract_lets +onlyGivenNames x; refine (fun hx : Onward s x => ?_) ?_; (on_goal 1 => clear_value x);
        (on_goal 2 => subst x))
    | (extract_lets +onlyGivenNames x; clear_value x)
    | with_reducible exact Onward.refl _
    | with_reducible apply onward_inc
    | with_reducible apply onward_ite
    | intro _ _ _
    | intro _ _
    | split
    | dsimp only
    | fail_if_no_progress with_reducible apply onward_mk

theorem goes_execSpoFilterExpire (s : State) : Goes s (execSpoFilterExpire s) := by
  unfold execSpoFilterExpire
  apply goes_next
  repeat' first
    | with_reducible assumption
    | (extract_lets +onlyGivenNames x; refine (fun hx : Onward s x => ?_) ?_; (on_goal 1 => clear_value x);
        (on_goal 2 => subst x))
    | (extract_lets +onlyGivenNames x; clear_value x)
    | with_reducible exact Onward.refl _
    | with_reducible apply onward_flag
    | with_reducible apply onward_hemDemand
    | with_reducible apply onward_inc
    | with_reducible apply onward_ite
    | intro _ _ _
    | intro _ _
    | split
    | dsimp only
    | fail_if_no_progress with_reducible apply onward_mk

theorem goes_execHemTxDue (s : State) : Goes s (execHemTxDue s) := by
  unfold execHemTxDue
  apply goes_next
  repeat' first
    | with_reducible assumption
    | (extract_lets +onlyGivenNames x; refine (fun hx : Onward s x => ?_) ?_; (on_goal 1 => clear_value x);
        (on_goal 2 => subst x))
    | (extract_lets +onlyGivenNames x; clear_value x)
    | with_reducible exact Onward.refl _
    | with_reducible apply onward_inc
    | with_reducible apply onward_ite
    | intro _ _ _
    | intro _ _
    | split
    | dsimp only
    | fail_if_no_progress with_reducible apply onward_mk

theorem onward_writeSafCtl {z : State} (d : Word) (s : State) (hz : Onward z s) : Onward z (writeSafCtl d s) := by
  unfold writeSafCtl
  repeat' first
    | with_reducible assumption
    | (extract_lets +onlyGivenNames x; refine (fun hx : Onward z x => ?_) ?_; (on_goal 1 => clear_value x);
        (on_goal 2 => subst x))
    | (extract_lets +onlyGivenNames x; refine (fun hx : Onward z x.1 => ?_) ?_; (on_goal 1 => clear_value x);
        (on_goal 2 => subst x))
    | (extract_lets +onlyGivenNames x; clear_value x)
    | with_reducible exact Onward.refl _
    | with_reducible apply onward_flag
    | with_reducible apply onward_hemOn
    | with_reducible apply onward_hostDischarge
    | with_reducible apply onward_put
    | with_reducible apply onward_syncContactors
    | with_reducible apply onward_ite
    | with_reducible apply onward_forL
    | intro _ _ _
    | intro _ _
    | split
    | dsimp only
    | fail_if_no_progress with_reducible apply onward_mk

theorem goes_execStest (c : PortCmd) (s : State) : Goes s (execStest c s) := by
  unfold execStest
  apply goes_next
  repeat' first
    | with_reducible assumption
    | with_reducible exact Onward.refl _
    | with_reducible apply onward_guarded
    | with_reducible apply onward_writeSafCtl

theorem goes_execSafDisreq (c : PortCmd) (s : State) : Goes s (execSafDisreq c s) := by
  unfold execSafDisreq
  apply goes_next
  repeat' first
    | with_reducible assumption
    | with_reducible exact Onward.refl _
    | with_reducible apply onward_guarded
    | with_reducible apply onward_writeSafCtl

theorem onward_endSelfTest {z : State} (s : State) (hz : Onward z s) : Onward z (endSelfTest s) := by
  unfold endSelfTest
  repeat' first
    | with_reducible assumption
    | (extract_lets +onlyGivenNames x; refine (fun hx : Onward z x => ?_) ?_; (on_goal 1 => clear_value x);
        (on_goal 2 => subst x))
    | with_reducible exact Onward.refl _
    | with_reducible apply onward_flag
    | with_reducible apply onward_hemOff
    | with_reducible apply onward_syncContactors
    | with_reducible apply onward_syncHolds
    | with_reducible apply onward_ite
    | with_reducible apply onward_forL

theorem goes_execStestDone (pass : Bool) (s : State) : Goes s (execStestDone pass s) := by
  unfold execStestDone
  apply goes_next
  repeat' first
    | with_reducible assumption
    | (extract_lets +onlyGivenNames x; refine (fun hx : Onward s x => ?_) ?_; (on_goal 1 => clear_value x);
        (on_goal 2 => subst x))
    | (extract_lets +onlyGivenNames x; clear_value x)
    | with_reducible exact Onward.refl _
    | with_reducible apply onward_endSelfTest
    | with_reducible apply onward_flag
    | with_reducible apply onward_hemDemand
    | with_reducible apply onward_occur
    | with_reducible apply onward_pass
    | with_reducible apply onward_ite
    | intro _ _ _
    | intro _ _
    | split
    | dsimp only
    | fail_if_no_progress with_reducible apply onward_mk

theorem onward_writeSafCtr {z : State} (p : Nat) (d : Word) (s : State)
    (hz : Onward z s) : Onward z (writeSafCtr p d s) := by
  unfold writeSafCtr
  repeat' first
    | with_reducible assumption
    | (extract_lets +onlyGivenNames x; clear_value x)
    | with_reducible exact Onward.refl _
    | with_reducible apply onward_discarded
    | with_reducible apply onward_put
    | with_reducible apply onward_syncContactors
    | with_reducible apply onward_ite

theorem goes_execSafCtrReqWrite (w : PortWrite) (s : State) : Goes s (execSafCtrReqWrite w s) := by
  unfold execSafCtrReqWrite
  apply goes_next
  repeat' first
    | with_reducible assumption
    | with_reducible exact Onward.refl _
    | with_reducible apply onward_guarded
    | with_reducible apply onward_writeSafCtr

end Sys2Proof.Machine
end

