-- ==== Sys2Proof/Laws/OnwardCan.lean ====
section
/-!
SUPPORT. Every update of Machine/Can.lean leads onward; every command of it is answered.
-/
set_option Elab.async false

namespace Sys2Proof.Machine

theorem onward_setCanBus {z : State} (s : State) (b : Nat) (x : CanBus)
    (hz : Onward z s) : Onward z (setCanBus s b x) := by
  unfold setCanBus
  repeat' first
    | with_reducible assumption
    | with_reducible exact Onward.refl _
    | intro _ _ _
    | intro _ _
    | dsimp only
    | fail_if_no_progress with_reducible apply onward_mk

theorem onward_errorState {z : State} (b : Nat) (s : State) (hz : Onward z s) : Onward z (errorState b s) := by
  unfold errorState
  repeat' first
    | with_reducible assumption
    | (extract_lets +onlyGivenNames x; clear_value x)
    | with_reducible exact Onward.refl _
    | with_reducible apply onward_flag
    | with_reducible apply onward_put
    | with_reducible apply onward_ite
    | intro _ _ _
    | intro _ _
    | split

theorem onward_setLock {z : State} (b m : Nat) (p : Option Nat) (s : State)
    (hz : Onward z s) : Onward z (setLock b m p s) := by
  unfold setLock
  repeat' first
    | with_reducible assumption
    | (extract_lets +onlyGivenNames x; clear_value x)
    | with_reducible exact Onward.refl _
    | with_reducible apply onward_flag
    | with_reducible apply onward_setCanBus

theorem onward_endMailbox {z : State} (b m res : Nat) (s : State)
    (hz : Onward z s) : Onward z (endMailbox b m res s) := by
  unfold endMailbox
  repeat' first
    | with_reducible assumption
    | (extract_lets +onlyGivenNames x; refine (fun hx : Onward z x => ?_) ?_; (on_goal 1 => clear_value x);
        (on_goal 2 => subst x))
    | with_reducible exact Onward.refl _
    | with_reducible apply onward_flag
    | with_reducible apply onward_put
    | with_reducible apply onward_ite

theorem onward_abortMailbox {z : State} (b m : Nat) (s : State)
    (hz : Onward z s) : Onward z (abortMailbox b m s) := by
  unfold abortMailbox
  repeat' first
    | with_reducible assumption
    | (extract_lets +onlyGivenNames x; clear_value x)
    | with_reducible exact Onward.refl _
    | with_reducible apply onward_endMailbox
    | with_reducible apply onward_setCanBus
    | with_reducible apply onward_ite

theorem onward_writeMbCtl {z : State} (b m p : Nat) (d : Word) (s : State)
    (hz : Onward z s) : Onward z (writeMbCtl b m p d s) := by
  unfold writeMbCtl
  repeat' first
    | with_reducible assumption
    | (extract_lets +onlyGivenNames x; refine (fun hx : Onward z x => ?_) ?_; (on_goal 1 => clear_value x);
        (on_goal 2 => subst x))
    | with_reducible exact Onward.refl _
    | with_reducible apply onward_abortMailbox
    | with_reducible apply onward_discarded
    | with_reducible apply onward_flag
    | with_reducible apply onward_plainWrite
    | with_reducible apply onward_put
    | with_reducible apply onward_ite

theorem onward_writeMbStat {z : State} (b m p : Nat) (d : Word) (s : State)
    (hz : Onward z s) : Onward z (writeMbStat b m p d s) := by
  unfold writeMbStat
  repeat' first
    | with_reducible assumption
    | (extract_lets +onlyGivenNames x; refine (fun hx : Onward z x => ?_) ?_; (on_goal 1 => clear_value x);
        (on_goal 2 => subst x))
    | with_reducible exact Onward.refl _
    | with_reducible apply onward_flag
    | with_reducible apply onward_setLock
    | with_reducible apply onward_ite

theorem onward_writeMbWord {z : State} (b m p a : Nat) (d : Word) (s : State)
    (hz : Onward z s) : Onward z (writeMbWord b m p a d s) := by
  unfold writeMbWord
  repeat' first
    | with_reducible assumption
    | with_reducible exact Onward.refl _
    | with_reducible apply onward_discarded
    | with_reducible apply onward_plainWrite
    | with_reducible apply onward_ite

theorem onward_writeCanCtl {z : State} (b : Nat) (d : Word) (s : State)
    (hz : Onward z s) : Onward z (writeCanCtl b d s) := by
  unfold writeCanCtl
  repeat' first
    | with_reducible assumption
    | (extract_lets +onlyGivenNames x; clear_value x)
    | with_reducible exact Onward.refl _
    | with_reducible apply onward_setCanBus
    | with_reducible apply onward_ite

theorem onward_writeCan {z : State} (b o p a : Nat) (d : Word) (s : State)
    (hz : Onward z s) : Onward z (writeCan b o p a d s) := by
  unfold writeCan
  repeat' first
    | with_reducible assumption
    | (extract_lets +onlyGivenNames x; clear_value x)
    | with_reducible exact Onward.refl _
    | with_reducible apply onward_plainWrite
    | with_reducible apply onward_writeCanCtl
    | with_reducible apply onward_writeMbCtl
    | with_reducible apply onward_writeMbStat
    | with_reducible apply onward_writeMbWord
    | with_reducible apply onward_ite
    | intro _ _ _
    | intro _ _
    | split

theorem goes_execMbFullClear (b : Fin 2) (m : Fin 32) (w : PortWrite) (s : State) :
    Goes s (execMbFullClear b m w s) := by
  unfold execMbFullClear
  apply goes_next
  repeat' first
    | with_reducible assumption
    | with_reducible exact Onward.refl _
    | with_reducible apply onward_guarded
    | with_reducible apply onward_writeMbStat

theorem goes_execMbTxreq (b : Fin 2) (m : Fin 32) (w : PortWrite) (s : State) : Goes s (execMbTxreq b m w s) := by
  unfold execMbTxreq
  apply goes_next
  repeat' first
    | with_reducible assumption
    | with_reducible exact Onward.refl _
    | with_reducible apply onward_guarded
    | with_reducible apply onward_writeMbCtl

theorem goes_execMbAbort (b : Fin 2) (m : Fin 32) (w : PortWrite) (s : State) : Goes s (execMbAbort b m w s) := by
  unfold execMbAbort
  apply goes_next
  repeat' first
    | with_reducible assumption
    | with_reducible exact Onward.refl _
    | with_reducible apply onward_guarded
    | with_reducible apply onward_writeMbCtl

theorem onward_canLeave {z : State} (b : Nat) (s : State) (hz : Onward z s) : Onward z (canLeave b s) := by
  unfold canLeave
  repeat' first
    | with_reducible assumption
    | (extract_lets +onlyGivenNames x; refine (fun hx : Onward z x => ?_) ?_; (on_goal 1 => clear_value x);
        (on_goal 2 => subst x))
    | (extract_lets +onlyGivenNames x; refine (fun hx : Onward z x.1 => ?_) ?_; (on_goal 1 => clear_value x);
        (on_goal 2 => subst x))
    | (extract_lets +onlyGivenNames x; clear_value x)
    | with_reducible exact Onward.refl _
    | with_reducible apply onward_endMailbox
    | with_reducible apply onward_flag
    | with_reducible apply onward_setCanBus
    | with_reducible apply onward_ite
    | with_reducible apply onward_forL
    | intro _ _ _
    | intro _ _
    | split
    | dsimp only
    | fail_if_no_progress with_reducible apply onward_mk

theorem onward_canJoin {z : State} (b : Nat) (s : State) (hz : Onward z s) : Onward z (canJoin b s) := by
  unfold canJoin
  repeat' first
    | with_reducible assumption
    | (extract_lets +onlyGivenNames x; clear_value x)
    | with_reducible exact Onward.refl _
    | with_reducible apply onward_flag
    | with_reducible apply onward_put

theorem onward_canGo {z : State} (b : Nat) (s : State) (hz : Onward z s) : Onward z (canGo b s) := by
  unfold canGo
  repeat' first
    | with_reducible assumption
    | (extract_lets +onlyGivenNames x; refine (fun hx : Onward z x => ?_) ?_; (on_goal 1 => clear_value x);
        (on_goal 2 => subst x))
    | (extract_lets +onlyGivenNames x; refine (fun hx : Onward z x.1 => ?_) ?_; (on_goal 1 => clear_value x);
        (on_goal 2 => subst x))
    | (extract_lets +onlyGivenNames x; clear_value x)
    | with_reducible exact Onward.refl _
    | with_reducible apply onward_canLeave
    | with_reducible apply onward_setCanBus
    | with_reducible apply onward_ite
    | intro _ _ _
    | intro _ _
    | split
    | dsimp only
    | fail_if_no_progress with_reducible apply onward_mk

theorem onward_canCome {z : State} (b : Nat) (s : State) (hz : Onward z s) : Onward z (canCome b s) := by
  unfold canCome
  repeat' first
    | with_reducible assumption
    | (extract_lets +onlyGivenNames x; clear_value x)
    | with_reducible exact Onward.refl _
    | with_reducible apply onward_canJoin
    | with_reducible apply onward_setCanBus
    | with_reducible apply onward_ite

theorem onward_canIdle {z : State} (b : Nat) (s : State) (hz : Onward z s) : Onward z (canIdle b s) := by
  unfold canIdle
  repeat' first
    | with_reducible assumption
    | with_reducible exact Onward.refl _
    | with_reducible apply onward_canJoin
    | with_reducible apply onward_canLeave
    | with_reducible apply onward_ite

theorem goes_execCanArbitration (b : Fin 2) (s : State) : Goes s (execCanArbitration b s) := by
  unfold execCanArbitration
  apply goes_next
  repeat' first
    | with_reducible assumption
    | (extract_lets +onlyGivenNames x; refine (fun hx : Onward s x => ?_) ?_; (on_goal 1 => clear_value x);
        (on_goal 2 => subst x))
    | (extract_lets +onlyGivenNames x; refine (fun hx : Onward s x.1 => ?_) ?_; (on_goal 1 => clear_value x);
        (on_goal 2 => subst x))
    | (extract_lets +onlyGivenNames x; clear_value x)
    | with_reducible exact Onward.refl _
    | with_reducible apply onward_canIdle
    | with_reducible apply onward_setCanBus
    | with_reducible apply onward_ite
    | intro _ _ _
    | intro _ _
    | split
    | dsimp only
    | fail_if_no_progress with_reducible apply onward_mk

theorem onward_endJob {z : State} (b : Nat) (j : CanJob) (ok abort : Bool) (s : State)
    (hz : Onward z s) : Onward z (endJob b j ok abort s) := by
  unfold endJob
  repeat' first
    | with_reducible assumption
    | (extract_lets +onlyGivenNames x; refine (fun hx : Onward z x => ?_) ?_; (on_goal 1 => clear_value x);
        (on_goal 2 => subst x))
    | (extract_lets +onlyGivenNames x; clear_value x)
    | with_reducible exact Onward.refl _
    | with_reducible apply onward_endMailbox
    | with_reducible apply onward_flag
    | with_reducible apply onward_inc
    | with_reducible apply onward_setCanBus
    | with_reducible apply onward_ite
    | intro _ _ _
    | intro _ _
    | split
    | dsimp only
    | fail_if_no_progress with_reducible apply onward_mk

theorem goes_execCanTxDone (b : Fin 2) (ok : Bool) (tec : BitVec 8) (s : State) :
    Goes s (execCanTxDone b ok tec s) := by
  unfold execCanTxDone
  apply goes_next
  repeat' first
    | with_reducible assumption
    | (extract_lets +onlyGivenNames x; refine (fun hx : Onward s x => ?_) ?_; (on_goal 1 => clear_value x);
        (on_goal 2 => subst x))
    | (extract_lets +onlyGivenNames x; clear_value x)
    | with_reducible exact Onward.refl _
    | with_reducible apply onward_canIdle
    | with_reducible apply onward_endJob
    | with_reducible apply onward_errorState
    | with_reducible apply onward_put
    | with_reducible apply onward_setCanBus
    | intro _ _ _
    | intro _ _
    | split

theorem goes_execCanBusOff (b : Fin 2) (s : State) : Goes s (execCanBusOff b s) := by
  unfold execCanBusOff
  apply goes_next
  repeat' first
    | with_reducible assumption
    | (extract_lets +onlyGivenNames x; refine (fun hx : Onward s x => ?_) ?_; (on_goal 1 => clear_value x);
        (on_goal 2 => subst x))
    | (extract_lets +onlyGivenNames x; clear_value x)
    | with_reducible exact Onward.refl _
    | with_reducible apply onward_canIdle
    | with_reducible apply onward_endMailbox
    | with_reducible apply onward_flag
    | with_reducible apply onward_put
    | with_reducible apply onward_setCanBus
    | with_reducible apply onward_ite
    | intro _ _ _
    | intro _ _
    | split

theorem goes_execCanRecover (b : Fin 2) (port : Nat) (s : State) : Goes s (execCanRecover b port s) := by
  unfold execCanRecover
  apply goes_next
  repeat' first
    | with_reducible assumption
    | with_reducible exact Onward.refl _
    | with_reducible apply onward_guarded
    | with_reducible apply onward_writeCanCtl

theorem goes_execCanRecoveryDone (b : Fin 2) (s : State) : Goes s (execCanRecoveryDone b s) := by
  unfold execCanRecoveryDone
  apply goes_next
  repeat' first
    | with_reducible assumption
    | (extract_lets +onlyGivenNames x; refine (fun hx : Onward s x => ?_) ?_; (on_goal 1 => clear_value x);
        (on_goal 2 => subst x))
    | (extract_lets +onlyGivenNames x; clear_value x)
    | with_reducible exact Onward.refl _
    | with_reducible apply onward_put
    | with_reducible apply onward_setCanBus
    | with_reducible apply onward_ite

theorem onward_storeFrame {z : State} (b m : Nat) (f : CanFrame) (s : State)
    (hz : Onward z s) : Onward z (storeFrame b m f s) := by
  unfold storeFrame
  repeat' first
    | with_reducible assumption
    | (extract_lets +onlyGivenNames x; refine (fun hx : Onward z x => ?_) ?_; (on_goal 1 => clear_value x);
        (on_goal 2 => subst x))
    | (extract_lets +onlyGivenNames x; clear_value x)
    | with_reducible exact Onward.refl _
    | with_reducible apply onward_flag
    | with_reducible apply onward_put
    | with_reducible apply onward_setWord
    | with_reducible apply onward_forL
    | intro _ _ _

theorem onward_offerMailboxes {z : State} (b : Nat) (f : CanFrame) (s : State)
    (hz : Onward z s) : Onward z (offerMailboxes b f s) := by
  unfold offerMailboxes
  repeat' first
    | with_reducible assumption
    | (extract_lets +onlyGivenNames x; clear_value x)
    | with_reducible exact Onward.refl _
    | with_reducible apply onward_flag
    | with_reducible apply onward_inc
    | with_reducible apply onward_storeFrame
    | with_reducible apply onward_ite
    | intro _ _ _
    | intro _ _
    | split

end Sys2Proof.Machine
end

