-- ==== Sys2Proof/Laws/OnwardFaultManager.lean ====
section
/-!
SUPPORT. Every update of Machine/FaultManager.lean leads onward; every command of it is answered.
-/
set_option Elab.async false

namespace Sys2Proof.Machine

theorem goes_execFaultOccurrence (cls : Fin 24) (scope : BitVec 16) (detail : BitVec 8) (s : State) :
    Goes s (execFaultOccurrence cls scope detail s) := by
  unfold execFaultOccurrence
  apply goes_next
  repeat' first
    | with_reducible assumption
    | with_reducible exact Onward.refl _
    | with_reducible apply onward_occur
    | with_reducible apply onward_ite

theorem goes_execDueLift (scope : BitVec 16) (s : State) : Goes s (execDueLift scope s) := by
  unfold execDueLift
  apply goes_next
  repeat' first
    | with_reducible assumption
    | with_reducible exact Onward.refl _
    | with_reducible apply onward_dueLift
    | with_reducible apply onward_ite

theorem onward_unlatchDetector {z : State} (sc : Nat) (s : State)
    (hz : Onward z s) : Onward z (unlatchDetector sc s) := by
  unfold unlatchDetector
  repeat' first
    | with_reducible assumption
    | (extract_lets +onlyGivenNames x; refine (fun hx : Onward z x => ?_) ?_; (on_goal 1 => clear_value x);
        (on_goal 2 => subst x))
    | (extract_lets +onlyGivenNames x; clear_value x)
    | with_reducible exact Onward.refl _
    | with_reducible apply onward_liftDetector
    | with_reducible apply onward_logEvent
    | with_reducible apply onward_setDetector

theorem onward_writeFltCmd {z : State} (d : Word) (s : State) (hz : Onward z s) : Onward z (writeFltCmd d s) := by
  unfold writeFltCmd
  repeat' first
    | with_reducible assumption
    | (extract_lets +onlyGivenNames x; clear_value x)
    | with_reducible exact Onward.refl _
    | with_reducible apply onward_dueLift
    | with_reducible apply onward_flag
    | with_reducible apply onward_unlatchDetector
    | with_reducible apply onward_ite

theorem goes_execFltRelease (c : PortCmd) (s : State) : Goes s (execFltRelease c s) := by
  unfold execFltRelease
  apply goes_next
  repeat' first
    | with_reducible assumption
    | with_reducible exact Onward.refl _
    | with_reducible apply onward_guarded
    | with_reducible apply onward_writeFltCmd

theorem goes_execUnlatch (c : PortCmd) (s : State) : Goes s (execUnlatch c s) := by
  unfold execUnlatch
  apply goes_next
  repeat' first
    | with_reducible assumption
    | with_reducible exact Onward.refl _
    | with_reducible apply onward_guarded
    | with_reducible apply onward_writeFltCmd

theorem onward_clearRecord {z : State} (c : Nat) (s : State) (hz : Onward z s) : Onward z (clearRecord c s) := by
  unfold clearRecord
  repeat' first
    | with_reducible assumption
    | (extract_lets +onlyGivenNames x; refine (fun hx : Onward z x => ?_) ?_; (on_goal 1 => clear_value x);
        (on_goal 2 => subst x))
    | (extract_lets +onlyGivenNames x; clear_value x)
    | with_reducible exact Onward.refl _
    | with_reducible apply onward_dropRegs
    | with_reducible apply onward_ite
    | intro _ _ _
    | intro _ _
    | split
    | dsimp only
    | fail_if_no_progress with_reducible apply onward_mk

theorem onward_writeCrstat {z : State} (c : Nat) (d : Word) (met : Bool) (s : State)
    (hz : Onward z s) : Onward z (writeCrstat c d met s) := by
  unfold writeCrstat
  repeat' first
    | with_reducible assumption
    | with_reducible exact Onward.refl _
    | with_reducible apply onward_clearRecord
    | with_reducible apply onward_flag
    | with_reducible apply onward_ite

theorem goes_execCauseRecordClear (cls : Fin 24) (w : PortWrite) (met : Bool) (s : State) :
    Goes s (execCauseRecordClear cls w met s) := by
  unfold execCauseRecordClear
  apply goes_next
  repeat' first
    | with_reducible assumption
    | with_reducible exact Onward.refl _
    | with_reducible apply onward_guarded
    | with_reducible apply onward_writeCrstat

theorem goes_execShadowClose (s : State) : Goes s (execShadowClose s) := by
  unfold execShadowClose
  apply goes_next
  repeat' first
    | with_reducible assumption
    | (extract_lets +onlyGivenNames x; clear_value x)
    | with_reducible exact Onward.refl _
    | with_reducible apply onward_ite
    | intro _ _ _
    | intro _ _
    | split
    | dsimp only
    | fail_if_no_progress with_reducible apply onward_mk

theorem goes_execPatCheck (differs : Bool) (s : State) : Goes s (execPatCheck differs s) := by
  unfold execPatCheck
  apply goes_next
  repeat' first
    | with_reducible assumption
    | (extract_lets +onlyGivenNames x; clear_value x)
    | with_reducible exact Onward.refl _
    | with_reducible apply onward_occur
    | with_reducible apply onward_ite
    | intro _ _ _
    | intro _ _
    | split
    | dsimp only
    | fail_if_no_progress with_reducible apply onward_mk

theorem onward_faultsAtApply {z : State} (s : State) (hz : Onward z s) : Onward z (faultsAtApply s) := by
  unfold faultsAtApply
  repeat' first
    | with_reducible assumption
    | (extract_lets +onlyGivenNames x; refine (fun hx : Onward z x => ?_) ?_; (on_goal 1 => clear_value x);
        (on_goal 2 => subst x))
    | (extract_lets +onlyGivenNames x; clear_value x)
    | with_reducible exact Onward.refl _
    | with_reducible apply onward_liftDetector
    | with_reducible apply onward_logEvent
    | with_reducible apply onward_syncHolds
    | with_reducible apply onward_forL
    | intro _ _ _
    | intro _ _
    | dsimp only
    | fail_if_no_progress with_reducible apply onward_mk

theorem onward_faultsAtPowerDown {z : State} (s : State) (hz : Onward z s) : Onward z (faultsAtPowerDown s) := by
  unfold faultsAtPowerDown
  repeat' first
    | with_reducible assumption
    | (extract_lets +onlyGivenNames x; refine (fun hx : Onward z x => ?_) ?_; (on_goal 1 => clear_value x);
        (on_goal 2 => subst x))
    | (extract_lets +onlyGivenNames x; refine (fun hx : Onward z x.1 => ?_) ?_; (on_goal 1 => clear_value x);
        (on_goal 2 => subst x))
    | (extract_lets +onlyGivenNames x; clear_value x)
    | with_reducible exact Onward.refl _
    | intro _ _ _
    | intro _ _
    | dsimp only
    | fail_if_no_progress with_reducible apply onward_mk

theorem onward_faultsAtPowerUp {z : State} (s : State) (hz : Onward z s) : Onward z (faultsAtPowerUp s) := by
  unfold faultsAtPowerUp
  repeat' first
    | with_reducible assumption
    | (extract_lets +onlyGivenNames x; refine (fun hx : Onward z x => ?_) ?_; (on_goal 1 => clear_value x);
        (on_goal 2 => subst x))
    | (extract_lets +onlyGivenNames x; clear_value x)
    | with_reducible exact Onward.refl _
    | with_reducible apply onward_flag
    | with_reducible apply onward_hemDemand
    | with_reducible apply onward_syncHolds
    | with_reducible apply onward_ite
    | intro _ _ _
    | intro _ _
    | split
    | dsimp only
    | fail_if_no_progress with_reducible apply onward_mk

end Sys2Proof.Machine
end

