-- ==== Sys2Proof/Laws/OnwardImage.lean ====
section
/-!
SUPPORT. Every update of Machine/Image.lean leads onward; every command of it is answered.
-/
set_option Elab.async false

namespace Sys2Proof.Machine

theorem onward_loadWord {z : State} (e : Nat × Word) (s : State) (hz : Onward z s) : Onward z (loadWord e s) := by
  unfold loadWord
  repeat' first
    | with_reducible assumption
    | (extract_lets +onlyGivenNames x; clear_value x)
    | with_reducible exact Onward.refl _
    | with_reducible apply onward_setWord
    | with_reducible apply onward_ite

end Sys2Proof.Machine
end

