-- ==== Sys2Proof/Laws/OnwardStepOne.lean ====
section
/-!
SUPPORT. Every update of Machine/StepOne.lean leads onward; every command of it is answered.
-/
set_option Elab.async false

namespace Sys2Proof.Machine

theorem onward_clearContext {z : State} (c : Nat) (s : State) (hz : Onward z s) : Onward z (clearContext c s) := by
  unfold clearContext
  repeat' first
    | with_reducible assumption
    | (extract_lets +onlyGivenNames x; refine (fun hx : Onward z x => ?_) ?_; (on_goal 1 => clear_value x);
        (on_goal 2 => subst x))
    | (extract_lets +onlyGivenNames x; clear_value x)
    | with_reducible exact Onward.refl _
    | with_reducible apply onward_flag
    | with_reducible apply onward_put
    | with_reducible apply onward_setCtxSt
    | with_reducible apply onward_setPltSt

theorem onward_stopSampling {z : State} (s : State) (hz : Onward z s) : Onward z (stopSampling s) := by
  unfold stopSampling
  repeat' first
    | with_reducible assumption
    | (extract_lets +onlyGivenNames x; refine (fun hx : Onward z x => ?_) ?_; (on_goal 1 => clear_value x);
        (on_goal 2 => subst x))
    | (extract_lets +onlyGivenNames x; clear_value x)
    | with_reducible exact Onward.refl _
    | with_reducible apply onward_dropRegs
    | intro _ _ _
    | intro _ _
    | dsimp only
    | fail_if_no_progress with_reducible apply onward_mk

theorem onward_stopCarriers {z : State} (s : State) (hz : Onward z s) : Onward z (stopCarriers s) := by
  unfold stopCarriers
  repeat' first
    | with_reducible assumption
    | (extract_lets +onlyGivenNames x; refine (fun hx : Onward z x => ?_) ?_; (on_goal 1 => clear_value x);
        (on_goal 2 => subst x))
    | (extract_lets +onlyGivenNames x; clear_value x)
    | with_reducible exact Onward.refl _
    | with_reducible apply onward_keepRegs
    | intro _ _ _
    | intro _ _
    | dsimp only
    | fail_if_no_progress with_reducible apply onward_mk

theorem onward_resetNoneUnits {z : State} (s : State) (hz : Onward z s) : Onward z (resetNoneUnits s) := by
  unfold resetNoneUnits
  repeat' first
    | with_reducible assumption
    | with_reducible exact Onward.refl _
    | with_reducible apply onward_dropRegs
    | with_reducible apply onward_setOvlSt
    | with_reducible apply onward_ite
    | with_reducible apply onward_forL
    | intro _ _ _

theorem onward_leaveBuses {z : State} (t : State) (s : State) (hz : Onward z s) : Onward z (leaveBuses t s) := by
  unfold leaveBuses
  repeat' first
    | with_reducible assumption
    | with_reducible exact Onward.refl _
    | with_reducible apply onward_canGo
    | with_reducible apply onward_keepRegs
    | with_reducible apply onward_ite
    | with_reducible apply onward_forL
    | intro _ _ _

theorem onward_unbind {z : State} (s : State) (hz : Onward z s) : Onward z (unbind s) := by
  unfold unbind
  repeat' first
    | with_reducible assumption
    | (extract_lets +onlyGivenNames x; refine (fun hx : Onward z x => ?_) ?_; (on_goal 1 => clear_value x);
        (on_goal 2 => subst x))
    | (extract_lets +onlyGivenNames x; clear_value x)
    | with_reducible exact Onward.refl _
    | with_reducible apply onward_flag
    | with_reducible apply onward_put
    | with_reducible apply onward_ite
    | intro _ _ _
    | intro _ _
    | split
    | dsimp only
    | fail_if_no_progress with_reducible apply onward_mk

theorem onward_fabricStops {z : State} (t s : State) (hz : Onward z s) : Onward z (fabricStops t s) := by
  unfold fabricStops
  repeat' first
    | with_reducible assumption
    | (extract_lets +onlyGivenNames x; refine (fun hx : Onward z x => ?_) ?_; (on_goal 1 => clear_value x);
        (on_goal 2 => subst x))
    | with_reducible exact Onward.refl _
    | with_reducible apply onward_keepRegs
    | with_reducible apply onward_unbind
    | with_reducible apply onward_ite

theorem onward_stepOne {z : State} (bs : List Byte) (s : State) (hz : Onward z s) : Onward z (stepOne bs s) := by
  unfold stepOne
  generalize scratch s bs = t
  dsimp only
  repeat' first
    | with_reducible assumption
    | (extract_lets +onlyGivenNames x; refine (fun hx : Onward z x => ?_) ?_; (on_goal 1 => clear_value x);
        (on_goal 2 => subst x))
    | (extract_lets +onlyGivenNames x; refine (fun hx : Onward z x.1 => ?_) ?_; (on_goal 1 => clear_value x);
        (on_goal 2 => subst x))
    | (extract_lets +onlyGivenNames x; clear_value x)
    | with_reducible exact Onward.refl _
    | with_reducible apply onward_afterEnableFall
    | with_reducible apply onward_clearContext
    | with_reducible apply onward_fabricStops
    | with_reducible apply onward_faultsAtApply
    | with_reducible apply onward_flag
    | with_reducible apply onward_keepRegs
    | with_reducible apply onward_leaveBuses
    | with_reducible apply onward_refreshFabric
    | with_reducible apply onward_resetNoneUnits
    | with_reducible apply onward_setLink
    | with_reducible apply onward_stopCarriers
    | with_reducible apply onward_stopSampling
    | with_reducible apply onward_syncHolds
    | with_reducible apply onward_forL
    | intro _ _ _
    | intro _ _
    | dsimp only
    | fail_if_no_progress with_reducible apply onward_mk

end Sys2Proof.Machine
end

