-- ==== Sys2Proof/Laws/OnwardPattern.lean ====
section
/-!
SUPPORT. Every update of Machine/Pattern.lean leads onward; every command of it is answered.
-/
set_option Elab.async false

namespace Sys2Proof.Machine

theorem onward_putSlot {z : State} (k : Nat) (m : ImageMem) (s : State)
    (hz : Onward z s) : Onward z (putSlot k m s) := by
  unfold putSlot
  repeat' first
    | with_reducible assumption
    | (extract_lets +onlyGivenNames x; refine (fun hx : Onward z x => ?_) ?_; (on_goal 1 => clear_value x);
        (on_goal 2 => subst x))
    | (extract_lets +onlyGivenNames x; clear_value x)
    | with_reducible exact Onward.refl _
    | with_reducible apply onward_flag
    | with_reducible apply onward_put
    | with_reducible apply onward_ite
    | intro _ _ _
    | intro _ _
    | split
    | dsimp only
    | fail_if_no_progress with_reducible apply onward_mk

theorem onward_emptyStaging {z : State} (s : State) (hz : Onward z s) : Onward z (emptyStaging s) := by
  unfold emptyStaging
  repeat' first
    | with_reducible assumption
    | (extract_lets +onlyGivenNames x; refine (fun hx : Onward z x => ?_) ?_; (on_goal 1 => clear_value x);
        (on_goal 2 => subst x))
    | (extract_lets +onlyGivenNames x; clear_value x)
    | with_reducible exact Onward.refl _
    | with_reducible apply onward_flag
    | intro _ _ _
    | intro _ _
    | dsimp only
    | fail_if_no_progress with_reducible apply onward_mk

theorem onward_setWork {z : State} (w : PatWork) (s : State) (hz : Onward z s) : Onward z (setWork w s) := by
  unfold setWork
  repeat' first
    | with_reducible assumption
    | (extract_lets +onlyGivenNames x; refine (fun hx : Onward z x => ?_) ?_; (on_goal 1 => clear_value x);
        (on_goal 2 => subst x))
    | (extract_lets +onlyGivenNames x; clear_value x)
    | with_reducible exact Onward.refl _
    | with_reducible apply onward_flag
    | with_reducible apply onward_syncVerify
    | with_reducible apply onward_ite
    | intro _ _ _
    | intro _ _
    | split
    | dsimp only
    | fail_if_no_progress with_reducible apply onward_mk

theorem onward_patDone {z : State} (s : State) (hz : Onward z s) : Onward z (patDone s) := by
  unfold patDone
  repeat' first
    | with_reducible assumption
    | with_reducible exact Onward.refl _
    | with_reducible apply onward_flag

theorem onward_putPatErr {z : State} (c o : Nat) (s : State) (hz : Onward z s) : Onward z (putPatErr c o s) := by
  unfold putPatErr
  repeat' first
    | with_reducible assumption
    | with_reducible exact Onward.refl _
    | with_reducible apply onward_put

theorem onward_beginStart {z : State} (s : State) (hz : Onward z s) : Onward z (beginStart s) := by
  unfold beginStart
  repeat' first
    | with_reducible assumption
    | (extract_lets +onlyGivenNames x; refine (fun hx : Onward z x => ?_) ?_; (on_goal 1 => clear_value x);
        (on_goal 2 => subst x))
    | (extract_lets +onlyGivenNames x; clear_value x)
    | with_reducible exact Onward.refl _
    | with_reducible apply onward_endStart
    | with_reducible apply onward_flag
    | with_reducible apply onward_goBasting
    | with_reducible apply onward_put
    | with_reducible apply onward_setWork
    | with_reducible apply onward_ite
    | intro _ _ _
    | intro _ _
    | split
    | dsimp only
    | fail_if_no_progress with_reducible apply onward_mk

theorem onward_startAfterExpiry {z : State} (s : State) (hz : Onward z s) : Onward z (startAfterExpiry s) := by
  unfold startAfterExpiry
  repeat' first
    | with_reducible assumption
    | (extract_lets +onlyGivenNames x; clear_value x)
    | with_reducible exact Onward.refl _
    | with_reducible apply onward_beginStart
    | intro _ _ _
    | intro _ _
    | dsimp only
    | fail_if_no_progress with_reducible apply onward_mk

theorem onward_endWork {z : State} (s : State) (hz : Onward z s) : Onward z (endWork s) := by
  unfold endWork
  repeat' first
    | with_reducible assumption
    | (extract_lets +onlyGivenNames x; refine (fun hx : Onward z x => ?_) ?_; (on_goal 1 => clear_value x);
        (on_goal 2 => subst x))
    | with_reducible exact Onward.refl _
    | with_reducible apply onward_patDone
    | with_reducible apply onward_setWork
    | with_reducible apply onward_startAfterExpiry
    | with_reducible apply onward_ite

theorem onward_loadExpired {z : State} (s : State) (hz : Onward z s) : Onward z (loadExpired s) := by
  unfold loadExpired
  repeat' first
    | with_reducible assumption
    | (extract_lets +onlyGivenNames x; refine (fun hx : Onward z x => ?_) ?_; (on_goal 1 => clear_value x);
        (on_goal 2 => subst x))
    | (extract_lets +onlyGivenNames x; refine (fun hx : Onward z x.1 => ?_) ?_; (on_goal 1 => clear_value x);
        (on_goal 2 => subst x))
    | (extract_lets +onlyGivenNames x; clear_value x)
    | with_reducible exact Onward.refl _
    | with_reducible apply onward_beginPowerDown
    | with_reducible apply onward_emptyStaging
    | with_reducible apply onward_endWork
    | with_reducible apply onward_put
    | with_reducible apply onward_startAfterExpiry
    | with_reducible apply onward_unload
    | with_reducible apply onward_ite
    | intro _ _ _
    | intro _ _
    | split
    | dsimp only
    | fail_if_no_progress with_reducible apply onward_mk

theorem onward_patRefuse {z : State} (e : Nat) (s : State) (hz : Onward z s) : Onward z (patRefuse e s) := by
  unfold patRefuse
  repeat' first
    | with_reducible assumption
    | with_reducible exact Onward.refl _
    | with_reducible apply onward_patDone
    | with_reducible apply onward_put

theorem onward_patStreamBegin {z : State} (s : State) (hz : Onward z s) : Onward z (patStreamBegin s) := by
  unfold patStreamBegin
  repeat' first
    | with_reducible assumption
    | with_reducible exact Onward.refl _
    | with_reducible apply onward_emptyStaging
    | with_reducible apply onward_setWork

theorem onward_supersede {z : State} (s : State) (hz : Onward z s) : Onward z (supersede s) := by
  unfold supersede
  repeat' first
    | with_reducible assumption
    | (extract_lets +onlyGivenNames x; clear_value x)
    | with_reducible exact Onward.refl _
    | with_reducible apply onward_endStart
    | with_reducible apply onward_ite
    | intro _ _ _
    | intro _ _
    | split
    | dsimp only
    | fail_if_no_progress with_reducible apply onward_mk

theorem onward_beginApply {z : State} (src : Source) (s : State)
    (hz : Onward z s) : Onward z (beginApply src s) := by
  unfold beginApply
  repeat' first
    | with_reducible assumption
    | (extract_lets +onlyGivenNames x; refine (fun hx : Onward z x => ?_) ?_; (on_goal 1 => clear_value x);
        (on_goal 2 => subst x))
    | (extract_lets +onlyGivenNames x; refine (fun hx : Onward z x.1 => ?_) ?_; (on_goal 1 => clear_value x);
        (on_goal 2 => subst x))
    | (extract_lets +onlyGivenNames x; clear_value x)
    | with_reducible exact Onward.refl _
    | with_reducible apply onward_setWork
    | with_reducible apply onward_stepOne
    | with_reducible apply onward_switchGroupOn
    | with_reducible apply onward_ite
    | intro _ _ _
    | intro _ _
    | split
    | dsimp only
    | fail_if_no_progress with_reducible apply onward_mk

theorem onward_patLoadStaged {z : State} (s : State) (hz : Onward z s) : Onward z (patLoadStaged s) := by
  unfold patLoadStaged
  repeat' first
    | with_reducible assumption
    | (extract_lets +onlyGivenNames x; refine (fun hx : Onward z x => ?_) ?_; (on_goal 1 => clear_value x);
        (on_goal 2 => subst x))
    | (extract_lets +onlyGivenNames x; clear_value x)
    | with_reducible exact Onward.refl _
    | with_reducible apply onward_beginApply
    | with_reducible apply onward_patDone
    | with_reducible apply onward_putPatErr
    | with_reducible apply onward_supersede
    | intro _ _ _
    | intro _ _
    | split

theorem onward_patCommit {z : State} (k : Nat) (s : State) (hz : Onward z s) : Onward z (patCommit k s) := by
  unfold patCommit
  repeat' first
    | with_reducible assumption
    | with_reducible exact Onward.refl _
    | with_reducible apply onward_putSlot
    | with_reducible apply onward_setWork

theorem onward_patSelect {z : State} (k : Nat) (s : State) (hz : Onward z s) : Onward z (patSelect k s) := by
  unfold patSelect
  repeat' first
    | with_reducible assumption
    | with_reducible exact Onward.refl _
    | with_reducible apply onward_patDone
    | with_reducible apply onward_put

theorem onward_patConfirm {z : State} (s : State) (hz : Onward z s) : Onward z (patConfirm s) := by
  unfold patConfirm
  repeat' first
    | with_reducible assumption
    | with_reducible exact Onward.refl _
    | with_reducible apply onward_loadSucceeded
    | with_reducible apply onward_patDone
    | with_reducible apply onward_startSucceeded
    | with_reducible apply onward_ite

theorem onward_patSeal {z : State} (s : State) (hz : Onward z s) : Onward z (patSeal s) := by
  unfold patSeal
  repeat' first
    | with_reducible assumption
    | (extract_lets +onlyGivenNames x; refine (fun hx : Onward z x => ?_) ?_; (on_goal 1 => clear_value x);
        (on_goal 2 => subst x))
    | with_reducible exact Onward.refl _
    | with_reducible apply onward_addMirror
    | with_reducible apply onward_inc
    | with_reducible apply onward_patDone
    | with_reducible apply onward_put
    | intro _ _ _
    | intro _ _
    | split

theorem onward_patAbort {z : State} (s : State) (hz : Onward z s) : Onward z (patAbort s) := by
  unfold patAbort
  repeat' first
    | with_reducible assumption
    | with_reducible exact Onward.refl _
    | with_reducible apply onward_emptyStaging
    | with_reducible apply onward_endWork

theorem onward_patCommand {z : State} (c : Nat) (s : State) (hz : Onward z s) : Onward z (patCommand c s) := by
  unfold patCommand
  repeat' first
    | with_reducible assumption
    | with_reducible exact Onward.refl _
    | with_reducible apply onward_patAbort
    | with_reducible apply onward_patCommit
    | with_reducible apply onward_patConfirm
    | with_reducible apply onward_patLoadStaged
    | with_reducible apply onward_patSeal
    | with_reducible apply onward_patSelect
    | with_reducible apply onward_patStreamBegin
    | with_reducible apply onward_setWork
    | with_reducible apply onward_supersede
    | intro _ _ _
    | intro _ _
    | split

theorem onward_writePatCtl {z : State} (d : Word) (s : State) (hz : Onward z s) : Onward z (writePatCtl d s) := by
  unfold writePatCtl
  repeat' first
    | with_reducible assumption
    | (extract_lets +onlyGivenNames x; clear_value x)
    | with_reducible exact Onward.refl _
    | with_reducible apply onward_patCommand
    | with_reducible apply onward_patRefuse
    | with_reducible apply onward_put
    | intro _ _ _
    | intro _ _
    | split

theorem onward_writePatStream {z : State} (p : Nat) (d : Word) (s : State)
    (hz : Onward z s) : Onward z (writePatStream p d s) := by
  unfold writePatStream
  repeat' first
    | with_reducible assumption
    | (extract_lets +onlyGivenNames x; refine (fun hx : Onward z x => ?_) ?_; (on_goal 1 => clear_value x);
        (on_goal 2 => subst x))
    | (extract_lets +onlyGivenNames x; clear_value x)
    | with_reducible exact Onward.refl _
    | with_reducible apply onward_discarded
    | with_reducible apply onward_setWork
    | with_reducible apply onward_ite
    | intro _ _ _
    | intro _ _
    | split
    | dsimp only
    | fail_if_no_progress with_reducible apply onward_mk

theorem goes_execPatCommitDone (s : State) : Goes s (execPatCommitDone s) := by
  unfold execPatCommitDone
  apply goes_next
  repeat' first
    | with_reducible assumption
    | with_reducible exact Onward.refl _
    | with_reducible apply onward_endWork
    | with_reducible apply onward_putSlot
    | intro _ _ _
    | intro _ _
    | split

theorem goes_execStartBegin (s : State) : Goes s (execStartBegin s) := by
  unfold execStartBegin
  apply goes_next
  repeat' first
    | with_reducible assumption
    | (extract_lets +onlyGivenNames x; clear_value x)
    | with_reducible exact Onward.refl _
    | with_reducible apply onward_beginStart
    | with_reducible apply onward_ite
    | intro _ _ _
    | intro _ _
    | split
    | dsimp only
    | fail_if_no_progress with_reducible apply onward_mk

end Sys2Proof.Machine
end

