-- ==== Sys2Proof/Laws/OnwardStitch.lean ====
section
/-!
SUPPORT. Every update of Machine/Stitch.lean leads onward; every command of it is answered.
-/
set_option Elab.async false

namespace Sys2Proof.Machine

theorem onward_onDielet {z : State} (n : Nat) (f : Dielet → Dielet) (s : State)
    (hz : Onward z s) : Onward z (onDielet n f s) := by
  unfold onDielet
  repeat' first
    | with_reducible assumption
    | with_reducible exact Onward.refl _
    | with_reducible apply onward_setDielet

theorem onward_glStarts {z : State} (n : Nat) (s : State) (hz : Onward z s) : Onward z (glStarts n s) := by
  unfold glStarts
  repeat' first
    | with_reducible assumption
    | with_reducible exact Onward.refl _
    | with_reducible apply onward_onDielet

theorem onward_ghStarts {z : State} (n bst : Nat) (s : State) (hz : Onward z s) : Onward z (ghStarts n bst s) := by
  unfold ghStarts
  repeat' first
    | with_reducible assumption
    | with_reducible exact Onward.refl _
    | with_reducible apply onward_onDielet
    | with_reducible apply onward_toHiz
    | with_reducible apply onward_ite

theorem onward_sleepDielet {z : State} (n : Nat) (s : State) (hz : Onward z s) : Onward z (sleepDielet n s) := by
  unfold sleepDielet
  repeat' first
    | with_reducible assumption
    | (extract_lets +onlyGivenNames x; refine (fun hx : Onward z x => ?_) ?_; (on_goal 1 => clear_value x);
        (on_goal 2 => subst x))
    | (extract_lets +onlyGivenNames x; refine (fun hx : Onward z x.1 => ?_) ?_; (on_goal 1 => clear_value x);
        (on_goal 2 => subst x))
    | (extract_lets +onlyGivenNames x; clear_value x)
    | with_reducible exact Onward.refl _
    | with_reducible apply onward_onDielet
    | intro _ _ _
    | intro _ _
    | dsimp only
    | fail_if_no_progress with_reducible apply onward_mk

theorem onward_retireDielet {z : State} (n : Nat) (opn : Bool) (s : State)
    (hz : Onward z s) : Onward z (retireDielet n opn s) := by
  unfold retireDielet
  repeat' first
    | with_reducible assumption
    | (extract_lets +onlyGivenNames x; refine (fun hx : Onward z x => ?_) ?_; (on_goal 1 => clear_value x);
        (on_goal 2 => subst x))
    | (extract_lets +onlyGivenNames x; refine (fun hx : Onward z x.1 => ?_) ?_; (on_goal 1 => clear_value x);
        (on_goal 2 => subst x))
    | (extract_lets +onlyGivenNames x; clear_value x)
    | with_reducible exact Onward.refl _
    | with_reducible apply onward_setDielet
    | with_reducible apply onward_ite
    | intro _ _ _
    | intro _ _
    | split
    | dsimp only
    | fail_if_no_progress with_reducible apply onward_mk

theorem onward_endBleed {z : State} (n : Nat) (s : State) (hz : Onward z s) : Onward z (endBleed n s) := by
  unfold endBleed
  repeat' first
    | with_reducible assumption
    | (extract_lets +onlyGivenNames x; refine (fun hx : Onward z x => ?_) ?_; (on_goal 1 => clear_value x);
        (on_goal 2 => subst x))
    | (extract_lets +onlyGivenNames x; clear_value x)
    | with_reducible exact Onward.refl _
    | with_reducible apply onward_onDielet
    | with_reducible apply onward_setBleedSt
    | with_reducible apply onward_ite

theorem onward_loseDownlink {z : State} (n : Nat) (s : State) (hz : Onward z s) : Onward z (loseDownlink n s) := by
  unfold loseDownlink
  repeat' first
    | with_reducible assumption
    | with_reducible exact Onward.refl _
    | with_reducible apply onward_onDielet
    | with_reducible apply onward_toHiz

theorem onward_frameIn {z : State} (n : Nat) (f : MgmtRx) (act : State → State) (s : State) (h_act : ∀ a, Onward z a → Onward z (act a))
    (hz : Onward z s) : Onward z (frameIn n f act s) := by
  unfold frameIn
  repeat' first
    | with_reducible assumption
    | (extract_lets +onlyGivenNames x; refine (fun hx : Onward z x => ?_) ?_; (on_goal 1 => clear_value x);
        (on_goal 2 => subst x))
    | (extract_lets +onlyGivenNames x; clear_value x)
    | with_reducible exact Onward.refl _
    | with_reducible apply h_act
    | with_reducible apply onward_incSat
    | with_reducible apply onward_loseDownlink
    | with_reducible apply onward_onDielet
    | with_reducible apply onward_ite

theorem onward_frameWrite {z : State} (n reg : Nat) (data : Word) (s : State)
    (hz : Onward z s) : Onward z (frameWrite n reg data s) := by
  unfold frameWrite
  repeat' first
    | with_reducible assumption
    | (extract_lets +onlyGivenNames x; refine (fun hx : Onward z x => ?_) ?_; (on_goal 1 => clear_value x);
        (on_goal 2 => subst x))
    | with_reducible exact Onward.refl _
    | with_reducible apply onward_onDielet
    | with_reducible apply onward_ite

theorem onward_frameHold {z : State} (n : Nat) (s : State) (hz : Onward z s) : Onward z (frameHold n s) := by
  unfold frameHold
  repeat' first
    | with_reducible assumption
    | with_reducible exact Onward.refl _
    | with_reducible apply onward_toHiz
    | with_reducible apply onward_ite
    | intro _ _ _
    | intro _ _
    | split

theorem onward_frameRelease {z : State} (n : Nat) (present : Bool) (s : State)
    (hz : Onward z s) : Onward z (frameRelease n present s) := by
  unfold frameRelease
  repeat' first
    | with_reducible assumption
    | (extract_lets +onlyGivenNames x; refine (fun hx : Onward z x => ?_) ?_; (on_goal 1 => clear_value x);
        (on_goal 2 => subst x))
    | (extract_lets +onlyGivenNames x; refine (fun hx : Onward z x.1 => ?_) ?_; (on_goal 1 => clear_value x);
        (on_goal 2 => subst x))
    | (extract_lets +onlyGivenNames x; clear_value x)
    | with_reducible exact Onward.refl _
    | with_reducible apply onward_sendAlert
    | with_reducible apply onward_setDielet
    | with_reducible apply onward_ite
    | intro _ _ _
    | intro _ _
    | split
    | dsimp only
    | fail_if_no_progress with_reducible apply onward_mk

theorem onward_frameUnretire {z : State} (n : Nat) (s : State) (hz : Onward z s) : Onward z (frameUnretire n s) := by
  unfold frameUnretire
  repeat' first
    | with_reducible assumption
    | (extract_lets +onlyGivenNames x; refine (fun hx : Onward z x => ?_) ?_; (on_goal 1 => clear_value x);
        (on_goal 2 => subst x))
    | (extract_lets +onlyGivenNames x; refine (fun hx : Onward z x.1 => ?_) ?_; (on_goal 1 => clear_value x);
        (on_goal 2 => subst x))
    | (extract_lets +onlyGivenNames x; clear_value x)
    | with_reducible exact Onward.refl _
    | with_reducible apply onward_setDielet
    | with_reducible apply onward_ite
    | intro _ _ _
    | intro _ _
    | split
    | dsimp only
    | fail_if_no_progress with_reducible apply onward_mk

theorem onward_frameBleed {z : State} (n : Nat) (data : Word) (s : State)
    (hz : Onward z s) : Onward z (frameBleed n data s) := by
  unfold frameBleed
  repeat' first
    | with_reducible assumption
    | (extract_lets +onlyGivenNames x; clear_value x)
    | with_reducible exact Onward.refl _
    | with_reducible apply onward_endBleed
    | with_reducible apply onward_onDielet
    | with_reducible apply onward_ite

theorem onward_viewAsleep {z : State} (n : Nat) (s : State) (hz : Onward z s) : Onward z (viewAsleep n s) := by
  unfold viewAsleep
  repeat' first
    | with_reducible assumption
    | (extract_lets +onlyGivenNames x; refine (fun hx : Onward z x => ?_) ?_; (on_goal 1 => clear_value x);
        (on_goal 2 => subst x))
    | (extract_lets +onlyGivenNames x; clear_value x)
    | with_reducible exact Onward.refl _
    | with_reducible apply onward_flag
    | with_reducible apply onward_refreshCaps
    | with_reducible apply onward_setLink
    | with_reducible apply onward_setView
    | with_reducible apply onward_syncCmd

theorem onward_viewWakes {z : State} (n : Nat) (s : State) (hz : Onward z s) : Onward z (viewWakes n s) := by
  unfold viewWakes
  repeat' first
    | with_reducible assumption
    | (extract_lets +onlyGivenNames x; refine (fun hx : Onward z x => ?_) ?_; (on_goal 1 => clear_value x);
        (on_goal 2 => subst x))
    | (extract_lets +onlyGivenNames x; refine (fun hx : Onward z x.1 => ?_) ?_; (on_goal 1 => clear_value x);
        (on_goal 2 => subst x))
    | (extract_lets +onlyGivenNames x; clear_value x)
    | with_reducible exact Onward.refl _
    | with_reducible apply onward_incSat
    | with_reducible apply onward_queueFrame
    | with_reducible apply onward_sendSettings
    | with_reducible apply onward_setLink
    | with_reducible apply onward_ite
    | intro _ _ _
    | intro _ _
    | split
    | dsimp only
    | fail_if_no_progress with_reducible apply onward_mk

theorem onward_heard {z : State} (n was : Nat) (s : State) (hz : Onward z s) : Onward z (heard n was s) := by
  unfold heard
  repeat' first
    | with_reducible assumption
    | with_reducible exact Onward.refl _
    | with_reducible apply onward_sendSettings
    | with_reducible apply onward_viewWakes
    | with_reducible apply onward_ite
    | intro _ _ _
    | intro _ _
    | split
    | dsimp only
    | fail_if_no_progress with_reducible apply onward_mk

theorem onward_uplinkFault {z : State} (n : Nat) (s : State) (hz : Onward z s) : Onward z (uplinkFault n s) := by
  unfold uplinkFault
  repeat' first
    | with_reducible assumption
    | (extract_lets +onlyGivenNames x; refine (fun hx : Onward z x => ?_) ?_; (on_goal 1 => clear_value x);
        (on_goal 2 => subst x))
    | (extract_lets +onlyGivenNames x; refine (fun hx : Onward z x.1 => ?_) ?_; (on_goal 1 => clear_value x);
        (on_goal 2 => subst x))
    | (extract_lets +onlyGivenNames x; clear_value x)
    | with_reducible exact Onward.refl _
    | with_reducible apply onward_noteView
    | with_reducible apply onward_occur
    | with_reducible apply onward_put
    | with_reducible apply onward_refreshCaps
    | with_reducible apply onward_syncCmd
    | intro _ _ _
    | intro _ _
    | dsimp only
    | fail_if_no_progress with_reducible apply onward_mk

theorem onward_stickCause {z : State} (n c : Nat) (s : State) (hz : Onward z s) : Onward z (stickCause n c s) := by
  unfold stickCause
  repeat' first
    | with_reducible assumption
    | with_reducible exact Onward.refl _
    | with_reducible apply onward_put

theorem onward_causeOccurs {z : State} (n c : Nat) (s : State) (hz : Onward z s) : Onward z (causeOccurs n c s) := by
  unfold causeOccurs
  repeat' first
    | with_reducible assumption
    | with_reducible exact Onward.refl _
    | with_reducible apply onward_occur
    | with_reducible apply onward_ite

theorem onward_viewRises {z : State} (n was : Nat) (s : State) (hz : Onward z s) : Onward z (viewRises n was s) := by
  unfold viewRises
  repeat' first
    | with_reducible assumption
    | (extract_lets +onlyGivenNames x; refine (fun hx : Onward z x => ?_) ?_; (on_goal 1 => clear_value x);
        (on_goal 2 => subst x))
    | (extract_lets +onlyGivenNames x; refine (fun hx : Onward z x.1 => ?_) ?_; (on_goal 1 => clear_value x);
        (on_goal 2 => subst x))
    | (extract_lets +onlyGivenNames x; clear_value x)
    | with_reducible exact Onward.refl _
    | with_reducible apply onward_askBleed
    | with_reducible apply onward_checkPcdone
    | with_reducible apply onward_flag
    | with_reducible apply onward_syncStitch
    | with_reducible apply onward_ite
    | intro _ _ _
    | intro _ _
    | split
    | dsimp only
    | fail_if_no_progress with_reducible apply onward_mk

theorem onward_alertIn {z : State} (n c at_ : Nat) (s : State) (hz : Onward z s) : Onward z (alertIn n c at_ s) := by
  unfold alertIn
  repeat' first
    | with_reducible assumption
    | (extract_lets +onlyGivenNames x; refine (fun hx : Onward z x => ?_) ?_; (on_goal 1 => clear_value x);
        (on_goal 2 => subst x))
    | (extract_lets +onlyGivenNames x; refine (fun hx : Onward z x.1 => ?_) ?_; (on_goal 1 => clear_value x);
        (on_goal 2 => subst x))
    | (extract_lets +onlyGivenNames x; clear_value x)
    | with_reducible exact Onward.refl _
    | with_reducible apply onward_causeOccurs
    | with_reducible apply onward_flag
    | with_reducible apply onward_hearBst
    | with_reducible apply onward_heard
    | with_reducible apply onward_noteView
    | with_reducible apply onward_refreshCaps
    | with_reducible apply onward_stickCause
    | with_reducible apply onward_syncCmd
    | with_reducible apply onward_viewAsleep
    | with_reducible apply onward_viewRises
    | with_reducible apply onward_ite
    | intro _ _ _
    | intro _ _
    | split
    | dsimp only
    | fail_if_no_progress with_reducible apply onward_mk

theorem onward_ackIn {z : State} (n seq : Nat) (s : State) (hz : Onward z s) : Onward z (ackIn n seq s) := by
  unfold ackIn
  repeat' first
    | with_reducible assumption
    | (extract_lets +onlyGivenNames x; refine (fun hx : Onward z x => ?_) ?_; (on_goal 1 => clear_value x);
        (on_goal 2 => subst x))
    | (extract_lets +onlyGivenNames x; clear_value x)
    | with_reducible exact Onward.refl _
    | with_reducible apply onward_checkSetok
    | with_reducible apply onward_setLink
    | with_reducible apply onward_viewAsleep
    | with_reducible apply onward_ite

theorem onward_uplinkIn {z : State} (n : Nat) (u : UplinkFrame) (s : State)
    (hz : Onward z s) : Onward z (uplinkIn n u s) := by
  unfold uplinkIn
  repeat' first
    | with_reducible assumption
    | (extract_lets +onlyGivenNames x; refine (fun hx : Onward z x => ?_) ?_; (on_goal 1 => clear_value x);
        (on_goal 2 => subst x))
    | (extract_lets +onlyGivenNames x; refine (fun hx : Onward z x.1 => ?_) ?_; (on_goal 1 => clear_value x);
        (on_goal 2 => subst x))
    | (extract_lets +onlyGivenNames x; clear_value x)
    | with_reducible exact Onward.refl _
    | with_reducible apply onward_ackIn
    | with_reducible apply onward_checkPcdone
    | with_reducible apply onward_flag
    | with_reducible apply onward_hearBst
    | with_reducible apply onward_heard
    | with_reducible apply onward_noteView
    | with_reducible apply onward_put
    | with_reducible apply onward_refreshCaps
    | with_reducible apply onward_setLink
    | with_reducible apply onward_syncCmd
    | with_reducible apply onward_viewRises
    | with_reducible apply onward_ite
    | intro _ _ _
    | intro _ _
    | split
    | dsimp only
    | fail_if_no_progress with_reducible apply onward_mk

theorem onward_writeStiCmd {z : State} (n : Nat) (d : Word) (s : State)
    (hz : Onward z s) : Onward z (writeStiCmd n d s) := by
  unfold writeStiCmd
  repeat' first
    | with_reducible assumption
    | (extract_lets +onlyGivenNames x; clear_value x)
    | with_reducible exact Onward.refl _
    | with_reducible apply onward_flag
    | with_reducible apply onward_retire
    | with_reducible apply onward_unretire
    | with_reducible apply onward_ite

theorem onward_writeStiUcmd {z : State} (d : Word) (s : State) (hz : Onward z s) : Onward z (writeStiUcmd d s) := by
  unfold writeStiUcmd
  repeat' first
    | with_reducible assumption
    | with_reducible exact Onward.refl _
    | with_reducible apply onward_flag
    | with_reducible apply onward_unretire
    | with_reducible apply onward_ite
    | with_reducible apply onward_forL

theorem onward_writeStiStr {z : State} (n : Nat) (d : Word) (s : State)
    (hz : Onward z s) : Onward z (writeStiStr n d s) := by
  unfold writeStiStr
  repeat' first
    | with_reducible assumption
    | (extract_lets +onlyGivenNames x; refine (fun hx : Onward z x => ?_) ?_; (on_goal 1 => clear_value x);
        (on_goal 2 => subst x))
    | (extract_lets +onlyGivenNames x; clear_value x)
    | with_reducible exact Onward.refl _
    | with_reducible apply onward_queueFrame
    | with_reducible apply onward_setLink
    | with_reducible apply onward_ite

theorem onward_writeStiAdctl {z : State} (n : Nat) (d : Word) (s : State)
    (hz : Onward z s) : Onward z (writeStiAdctl n d s) := by
  unfold writeStiAdctl
  repeat' first
    | with_reducible assumption
    | (extract_lets +onlyGivenNames x; refine (fun hx : Onward z x => ?_) ?_; (on_goal 1 => clear_value x);
        (on_goal 2 => subst x))
    | with_reducible exact Onward.refl _
    | with_reducible apply onward_plainWrite
    | with_reducible apply onward_queueFrame
    | with_reducible apply onward_ite

theorem goes_atStitch (n : Nat) (s t : State) (h : Onward s t) : Goes s (atStitch n s t) := by
  unfold atStitch
  apply goes_next
  split
  · exact h
  · exact Onward.refl s


theorem goes_execCellWake (n : Fin 96) (s : State) : Goes s (execCellWake n s) := by
  unfold execCellWake
  apply goes_atStitch
  repeat' first
    | with_reducible assumption
    | (extract_lets +onlyGivenNames x; refine (fun hx : Onward s x => ?_) ?_; (on_goal 1 => clear_value x);
        (on_goal 2 => subst x))
    | with_reducible exact Onward.refl _
    | with_reducible apply onward_endBleed
    | with_reducible apply onward_onDielet
    | with_reducible apply onward_ite

theorem goes_execDieletIdleWake (n : Fin 96) (s : State) : Goes s (execDieletIdleWake n s) := by
  unfold execDieletIdleWake
  apply goes_atStitch
  repeat' first
    | with_reducible assumption
    | with_reducible exact Onward.refl _
    | with_reducible apply onward_onDielet
    | with_reducible apply onward_ite

theorem goes_execStitchWakeDone (n : Fin 96) (pass : Bool) (s : State) : Goes s (execStitchWakeDone n pass s) := by
  unfold execStitchWakeDone
  apply goes_atStitch
  repeat' first
    | with_reducible assumption
    | (extract_lets +onlyGivenNames x; refine (fun hx : Onward s x => ?_) ?_; (on_goal 1 => clear_value x);
        (on_goal 2 => subst x))
    | with_reducible exact Onward.refl _
    | with_reducible apply onward_onDielet
    | with_reducible apply onward_pass
    | with_reducible apply onward_retireDielet
    | with_reducible apply onward_sendAlert
    | with_reducible apply onward_ite
    | intro _ _ _
    | intro _ _
    | split

theorem goes_execCellUvlo (n : Fin 96) (s : State) : Goes s (execCellUvlo n s) := by
  unfold execCellUvlo
  apply goes_atStitch
  repeat' first
    | with_reducible assumption
    | (extract_lets +onlyGivenNames x; clear_value x)
    | with_reducible exact Onward.refl _
    | with_reducible apply onward_sendAlert
    | with_reducible apply onward_sleepDielet
    | with_reducible apply onward_ite

theorem goes_execSymbolOff (n : Fin 96) (s : State) : Goes s (execSymbolOff n s) := by
  unfold execSymbolOff
  apply goes_atStitch
  repeat' first
    | with_reducible assumption
    | (extract_lets +onlyGivenNames x; clear_value x)
    | with_reducible exact Onward.refl _
    | with_reducible apply onward_gatesOff
    | with_reducible apply onward_ite

theorem goes_execSymbolLow (n : Fin 96) (s : State) : Goes s (execSymbolLow n s) := by
  unfold execSymbolLow
  apply goes_atStitch
  repeat' first
    | with_reducible assumption
    | with_reducible exact Onward.refl _
    | with_reducible apply onward_onDielet

theorem goes_execSymbolHigh (n : Fin 96) (bst : BitVec 7) (s : State) : Goes s (execSymbolHigh n bst s) := by
  unfold execSymbolHigh
  apply goes_atStitch
  repeat' first
    | with_reducible assumption
    | (extract_lets +onlyGivenNames x; clear_value x)
    | with_reducible exact Onward.refl _
    | with_reducible apply onward_ghStarts
    | with_reducible apply onward_onDielet
    | with_reducible apply onward_setDielet
    | with_reducible apply onward_ite

theorem goes_execSymbolInvalid (n : Fin 96) (s : State) : Goes s (execSymbolInvalid n s) := by
  unfold execSymbolInvalid
  apply goes_atStitch
  repeat' first
    | with_reducible assumption
    | (extract_lets +onlyGivenNames x; clear_value x)
    | with_reducible exact Onward.refl _
    | with_reducible apply onward_sendAlert
    | with_reducible apply onward_toHiz
    | with_reducible apply onward_ite

theorem goes_execGateTurnOn (n : Fin 96) (bst : BitVec 7) (s : State) : Goes s (execGateTurnOn n bst s) := by
  unfold execGateTurnOn
  apply goes_atStitch
  repeat' first
    | with_reducible assumption
    | (extract_lets +onlyGivenNames x; clear_value x)
    | with_reducible exact Onward.refl _
    | with_reducible apply onward_ghStarts
    | with_reducible apply onward_glStarts
    | with_reducible apply onward_ite
    | intro _ _ _
    | intro _ _
    | split

theorem goes_execHandshakeTimeout (n : Fin 96) (s : State) : Goes s (execHandshakeTimeout n s) := by
  unfold execHandshakeTimeout
  apply goes_atStitch
  repeat' first
    | with_reducible assumption
    | with_reducible exact Onward.refl _
    | with_reducible apply onward_toHiz
    | with_reducible apply onward_ite

theorem goes_execEdgeComplete (n : Fin 96) (early : Bool) (t : BitVec 8) (s : State) :
    Goes s (execEdgeComplete n early t s) := by
  unfold execEdgeComplete
  apply goes_atStitch
  repeat' first
    | with_reducible assumption
    | (extract_lets +onlyGivenNames x; clear_value x)
    | with_reducible exact Onward.refl _
    | with_reducible apply onward_inc
    | with_reducible apply onward_setDielet
    | with_reducible apply onward_ite
    | intro _ _ _
    | intro _ _
    | split

theorem goes_execEdgeIncomplete (n : Fin 96) (s : State) : Goes s (execEdgeIncomplete n s) := by
  unfold execEdgeIncomplete
  apply goes_atStitch
  repeat' first
    | with_reducible assumption
    | with_reducible exact Onward.refl _
    | with_reducible apply onward_inc
    | with_reducible apply onward_ite

theorem goes_execStiStrWrite (n : Fin 96) (w : PortWrite) (s : State) : Goes s (execStiStrWrite n w s) := by
  unfold execStiStrWrite
  apply goes_next
  repeat' first
    | with_reducible assumption
    | with_reducible exact Onward.refl _
    | with_reducible apply onward_guarded
    | with_reducible apply onward_writeStiStr

theorem goes_execBstWarnCross (n : Fin 96) (s : State) : Goes s (execBstWarnCross n s) := by
  unfold execBstWarnCross
  apply goes_atStitch
  repeat' first
    | with_reducible assumption
    | with_reducible exact Onward.refl _
    | with_reducible apply onward_onDielet
    | with_reducible apply onward_sendAlert
    | with_reducible apply onward_ite

theorem goes_execBstreqClear (n : Fin 96) (low : Bool) (s : State) : Goes s (execBstreqClear n low s) := by
  unfold execBstreqClear
  apply goes_atStitch
  repeat' first
    | with_reducible assumption
    | (extract_lets +onlyGivenNames x; clear_value x)
    | with_reducible exact Onward.refl _
    | with_reducible apply onward_onDielet
    | with_reducible apply onward_sendAlert
    | with_reducible apply onward_ite

theorem goes_execStitchDetector (n : Fin 96) (c : DieletCause) (s : State) : Goes s (execStitchDetector n c s) := by
  unfold execStitchDetector
  apply goes_atStitch
  repeat' first
    | with_reducible assumption
    | (extract_lets +onlyGivenNames x; refine (fun hx : Onward s x => ?_) ?_; (on_goal 1 => clear_value x);
        (on_goal 2 => subst x))
    | (extract_lets +onlyGivenNames x; refine (fun hx : Onward s x.1 => ?_) ?_; (on_goal 1 => clear_value x);
        (on_goal 2 => subst x))
    | (extract_lets +onlyGivenNames x; clear_value x)
    | with_reducible exact Onward.refl _
    | with_reducible apply onward_onDielet
    | with_reducible apply onward_sendAlert
    | with_reducible apply onward_toHiz
    | with_reducible apply onward_ite
    | intro _ _ _
    | intro _ _
    | split
    | dsimp only
    | fail_if_no_progress with_reducible apply onward_mk

theorem goes_execCovClamp (n : Fin 96) (s : State) : Goes s (execCovClamp n s) := by
  unfold execCovClamp
  apply goes_atStitch
  repeat' first
    | with_reducible assumption
    | (extract_lets +onlyGivenNames x; refine (fun hx : Onward s x => ?_) ?_; (on_goal 1 => clear_value x);
        (on_goal 2 => subst x))
    | (extract_lets +onlyGivenNames x; refine (fun hx : Onward s x.1 => ?_) ?_; (on_goal 1 => clear_value x);
        (on_goal 2 => subst x))
    | (extract_lets +onlyGivenNames x; clear_value x)
    | with_reducible exact Onward.refl _
    | with_reducible apply onward_sendAlert
    | with_reducible apply onward_setDielet
    | with_reducible apply onward_ite
    | intro _ _ _
    | intro _ _
    | split
    | dsimp only
    | fail_if_no_progress with_reducible apply onward_mk

theorem goes_execWriteFrame (n : Fin 96) (reg : BitVec 8) (f : MgmtRx) (s : State) :
    Goes s (execWriteFrame n reg f s) := by
  unfold execWriteFrame
  apply goes_next
  repeat' first
    | with_reducible assumption
    | with_reducible exact Onward.refl _
    | with_reducible apply onward_frameIn
    | with_reducible apply onward_frameWrite

theorem goes_execTickFrame (n : Fin 96) (f : MgmtRx) (s : State) : Goes s (execTickFrame n f s) := by
  unfold execTickFrame
  apply goes_next
  repeat' first
    | with_reducible assumption
    | with_reducible exact Onward.refl _
    | with_reducible apply onward_frameIn
    | with_reducible apply onward_onDielet

theorem goes_execHoldFrame (n : Fin 96) (f : MgmtRx) (s : State) : Goes s (execHoldFrame n f s) := by
  unfold execHoldFrame
  apply goes_next
  repeat' first
    | with_reducible assumption
    | with_reducible exact Onward.refl _
    | with_reducible apply onward_frameHold
    | with_reducible apply onward_frameIn

theorem goes_execReleaseFrame (n : Fin 96) (f : MgmtRx) (present : Bool) (s : State) :
    Goes s (execReleaseFrame n f present s) := by
  unfold execReleaseFrame
  apply goes_next
  repeat' first
    | with_reducible assumption
    | with_reducible exact Onward.refl _
    | with_reducible apply onward_frameIn
    | with_reducible apply onward_frameRelease

theorem goes_execRetireFrame (n : Fin 96) (f : MgmtRx) (s : State) : Goes s (execRetireFrame n f s) := by
  unfold execRetireFrame
  apply goes_next
  repeat' first
    | with_reducible assumption
    | with_reducible exact Onward.refl _
    | with_reducible apply onward_frameIn
    | with_reducible apply onward_retireDielet

theorem goes_execUnretireFrame (n : Fin 96) (f : MgmtRx) (s : State) : Goes s (execUnretireFrame n f s) := by
  unfold execUnretireFrame
  apply goes_next
  repeat' first
    | with_reducible assumption
    | with_reducible exact Onward.refl _
    | with_reducible apply onward_frameIn
    | with_reducible apply onward_frameUnretire

theorem goes_execBleedFrame (n : Fin 96) (f : MgmtRx) (s : State) : Goes s (execBleedFrame n f s) := by
  unfold execBleedFrame
  apply goes_next
  repeat' first
    | with_reducible assumption
    | with_reducible exact Onward.refl _
    | with_reducible apply onward_frameBleed
    | with_reducible apply onward_frameIn

theorem goes_execSleepFrame (n : Fin 96) (f : MgmtRx) (s : State) : Goes s (execSleepFrame n f s) := by
  unfold execSleepFrame
  apply goes_next
  repeat' first
    | with_reducible assumption
    | with_reducible exact Onward.refl _
    | with_reducible apply onward_frameIn
    | with_reducible apply onward_sleepDielet

theorem goes_execMgmtFrameLaunch (n : Fin 96) (s : State) : Goes s (execMgmtFrameLaunch n s) := by
  unfold execMgmtFrameLaunch
  apply goes_atStitch
  repeat' first
    | with_reducible assumption
    | (extract_lets +onlyGivenNames x; clear_value x)
    | with_reducible exact Onward.refl _
    | with_reducible apply onward_setLink
    | with_reducible apply onward_ite
    | intro _ _ _
    | intro _ _
    | split

theorem goes_execMgmtFrameResend (n : Fin 96) (s : State) : Goes s (execMgmtFrameResend n s) := by
  unfold execMgmtFrameResend
  apply goes_atStitch
  repeat' first
    | with_reducible assumption
    | (extract_lets +onlyGivenNames x; refine (fun hx : Onward s x => ?_) ?_; (on_goal 1 => clear_value x);
        (on_goal 2 => subst x))
    | (extract_lets +onlyGivenNames x; clear_value x)
    | with_reducible exact Onward.refl _
    | with_reducible apply onward_incSat
    | with_reducible apply onward_setLink
    | with_reducible apply onward_uplinkFault
    | with_reducible apply onward_ite
    | intro _ _ _
    | intro _ _
    | split

theorem goes_execTelemetryTick (cells : List (Fin 96 × BitVec 12 × BitVec 12)) (s : State) :
    Goes s (execTelemetryTick cells s) := by
  unfold execTelemetryTick
  apply goes_next
  repeat' first
    | with_reducible assumption
    | (extract_lets +onlyGivenNames x; clear_value x)
    | with_reducible exact Onward.refl _
    | with_reducible apply onward_onDielet
    | with_reducible apply onward_setDielet
    | with_reducible apply onward_ite
    | with_reducible apply onward_forL
    | intro _ _ _
    | intro _ _
    | split
    | dsimp only
    | fail_if_no_progress with_reducible apply onward_mk

theorem goes_execUplinkFrame (n : Fin 96) (u : UplinkFrame) (s : State) : Goes s (execUplinkFrame n u s) := by
  unfold execUplinkFrame
  apply goes_atStitch
  repeat' first
    | with_reducible assumption
    | with_reducible exact Onward.refl _
    | with_reducible apply onward_incSat
    | with_reducible apply onward_uplinkIn
    | with_reducible apply onward_ite

theorem goes_execUplinkAlert (n : Fin 96) (c : Alert) (s : State) : Goes s (execUplinkAlert n c s) := by
  unfold execUplinkAlert
  apply goes_atStitch
  repeat' first
    | with_reducible assumption
    | (extract_lets +onlyGivenNames x; refine (fun hx : Onward s x => ?_) ?_; (on_goal 1 => clear_value x);
        (on_goal 2 => subst x))
    | (extract_lets +onlyGivenNames x; refine (fun hx : Onward s x.1 => ?_) ?_; (on_goal 1 => clear_value x);
        (on_goal 2 => subst x))
    | (extract_lets +onlyGivenNames x; clear_value x)
    | with_reducible exact Onward.refl _
    | with_reducible apply onward_alertIn
    | with_reducible apply onward_onDielet
    | with_reducible apply onward_ite
    | intro _ _ _
    | intro _ _
    | split
    | dsimp only
    | fail_if_no_progress with_reducible apply onward_mk

theorem goes_execDownlinkLoss (n : Fin 96) (s : State) : Goes s (execDownlinkLoss n s) := by
  unfold execDownlinkLoss
  apply goes_atStitch
  repeat' first
    | with_reducible assumption
    | with_reducible exact Onward.refl _
    | with_reducible apply onward_loseDownlink
    | with_reducible apply onward_ite

theorem goes_execDownlinkAbsentSleep (n : Fin 96) (s : State) : Goes s (execDownlinkAbsentSleep n s) := by
  unfold execDownlinkAbsentSleep
  apply goes_atStitch
  repeat' first
    | with_reducible assumption
    | (extract_lets +onlyGivenNames x; clear_value x)
    | with_reducible exact Onward.refl _
    | with_reducible apply onward_sleepDielet
    | with_reducible apply onward_ite

theorem goes_execLinkRetrained (n : Fin 96) (s : State) : Goes s (execLinkRetrained n s) := by
  unfold execLinkRetrained
  apply goes_atStitch
  repeat' first
    | with_reducible assumption
    | (extract_lets +onlyGivenNames x; refine (fun hx : Onward s x => ?_) ?_; (on_goal 1 => clear_value x);
        (on_goal 2 => subst x))
    | (extract_lets +onlyGivenNames x; refine (fun hx : Onward s x.1 => ?_) ?_; (on_goal 1 => clear_value x);
        (on_goal 2 => subst x))
    | (extract_lets +onlyGivenNames x; clear_value x)
    | with_reducible exact Onward.refl _
    | with_reducible apply onward_setDielet
    | with_reducible apply onward_ite
    | intro _ _ _
    | intro _ _
    | split
    | dsimp only
    | fail_if_no_progress with_reducible apply onward_mk

theorem goes_execUplinkLoss (n : Fin 96) (tenMs : Bool) (s : State) : Goes s (execUplinkLoss n tenMs s) := by
  unfold execUplinkLoss
  apply goes_atStitch
  repeat' first
    | with_reducible assumption
    | (extract_lets +onlyGivenNames x; clear_value x)
    | with_reducible exact Onward.refl _
    | with_reducible apply onward_uplinkFault
    | with_reducible apply onward_viewAsleep
    | with_reducible apply onward_ite

theorem goes_execStiRetire (n : Fin 96) (c : PortCmd) (s : State) : Goes s (execStiRetire n c s) := by
  unfold execStiRetire
  apply goes_next
  repeat' first
    | with_reducible assumption
    | with_reducible exact Onward.refl _
    | with_reducible apply onward_guarded
    | with_reducible apply onward_writeStiCmd

theorem goes_execStiClear (n : Fin 96) (c : PortCmd) (s : State) : Goes s (execStiClear n c s) := by
  unfold execStiClear
  apply goes_next
  repeat' first
    | with_reducible assumption
    | with_reducible exact Onward.refl _
    | with_reducible apply onward_guarded
    | with_reducible apply onward_writeStiCmd

theorem goes_execClearAll (c : PortCmd) (s : State) : Goes s (execClearAll c s) := by
  unfold execClearAll
  apply goes_next
  repeat' first
    | with_reducible assumption
    | with_reducible exact Onward.refl _
    | with_reducible apply onward_guarded
    | with_reducible apply onward_writeStiUcmd

theorem onward_mirrorLedger {z : State} (n : Nat) (s : State) (hz : Onward z s) : Onward z (mirrorLedger n s) := by
  unfold mirrorLedger
  repeat' first
    | with_reducible assumption
    | (extract_lets +onlyGivenNames x; refine (fun hx : Onward z x => ?_) ?_; (on_goal 1 => clear_value x);
        (on_goal 2 => subst x))
    | (extract_lets +onlyGivenNames x; clear_value x)
    | with_reducible exact Onward.refl _
    | with_reducible apply onward_flag
    | with_reducible apply onward_ite
    | intro _ _ _
    | intro _ _
    | split
    | dsimp only
    | fail_if_no_progress with_reducible apply onward_mk

theorem onward_countMirror {z : State} (s : State) (hz : Onward z s) : Onward z (countMirror s) := by
  unfold countMirror
  repeat' first
    | with_reducible assumption
    | with_reducible exact Onward.refl _
    | with_reducible apply onward_inc
    | with_reducible apply onward_ite

theorem goes_execLedgerMirrorDone (n : Fin 96) (s : State) : Goes s (execLedgerMirrorDone n s) := by
  unfold execLedgerMirrorDone
  apply goes_next
  repeat' first
    | with_reducible assumption
    | with_reducible exact Onward.refl _
    | with_reducible apply onward_countMirror
    | with_reducible apply onward_mirrorLedger
    | with_reducible apply onward_ite

theorem goes_execBypassVerify (n : Fin 96) (ok : Bool) (s : State) : Goes s (execBypassVerify n ok s) := by
  unfold execBypassVerify
  apply goes_atStitch
  repeat' first
    | with_reducible assumption
    | (extract_lets +onlyGivenNames x; clear_value x)
    | with_reducible exact Onward.refl _
    | with_reducible apply onward_sendAlert
    | with_reducible apply onward_setDielet
    | with_reducible apply onward_ite

theorem goes_execBypTopupStart (n : Fin 96) (s : State) : Goes s (execBypTopupStart n s) := by
  unfold execBypTopupStart
  apply goes_atStitch
  repeat' first
    | with_reducible assumption
    | (extract_lets +onlyGivenNames x; refine (fun hx : Onward s x => ?_) ?_; (on_goal 1 => clear_value x);
        (on_goal 2 => subst x))
    | (extract_lets +onlyGivenNames x; refine (fun hx : Onward s x.1 => ?_) ?_; (on_goal 1 => clear_value x);
        (on_goal 2 => subst x))
    | (extract_lets +onlyGivenNames x; clear_value x)
    | with_reducible exact Onward.refl _
    | with_reducible apply onward_setDielet
    | with_reducible apply onward_ite
    | intro _ _ _
    | intro _ _
    | split
    | dsimp only
    | fail_if_no_progress with_reducible apply onward_mk

theorem goes_execBypTopupEnd (n : Fin 96) (s : State) : Goes s (execBypTopupEnd n s) := by
  unfold execBypTopupEnd
  apply goes_atStitch
  repeat' first
    | with_reducible assumption
    | (extract_lets +onlyGivenNames x; refine (fun hx : Onward s x => ?_) ?_; (on_goal 1 => clear_value x);
        (on_goal 2 => subst x))
    | (extract_lets +onlyGivenNames x; refine (fun hx : Onward s x.1 => ?_) ?_; (on_goal 1 => clear_value x);
        (on_goal 2 => subst x))
    | (extract_lets +onlyGivenNames x; clear_value x)
    | with_reducible exact Onward.refl _
    | with_reducible apply onward_setDielet
    | with_reducible apply onward_ite
    | intro _ _ _
    | intro _ _
    | split
    | dsimp only
    | fail_if_no_progress with_reducible apply onward_mk

theorem goes_execBleedRelease (n : Fin 96) (s : State) : Goes s (execBleedRelease n s) := by
  unfold execBleedRelease
  apply goes_atStitch
  repeat' first
    | with_reducible assumption
    | with_reducible exact Onward.refl _
    | with_reducible apply onward_endBleed

end Sys2Proof.Machine
end

