-- ==== Sys2Proof/Laws/OnwardPower.lean ====
section
/-!
SUPPORT. Every update of Machine/Power.lean leads onward; every command of it is answered.
-/
set_option Elab.async false

namespace Sys2Proof.Machine

theorem onward_setDom {z : State} (n : Nat) (b : Bool) (s : State) (hz : Onward z s) : Onward z (setDom n b s) := by
  unfold setDom
  repeat' first
    | with_reducible assumption
    | with_reducible exact Onward.refl _
    | with_reducible apply onward_put

theorem onward_syncClocks {z : State} (s : State) (hz : Onward z s) : Onward z (syncClocks s) := by
  unfold syncClocks
  repeat' first
    | with_reducible assumption
    | (extract_lets +onlyGivenNames x; refine (fun hx : Onward z x => ?_) ?_; (on_goal 1 => clear_value x);
        (on_goal 2 => subst x))
    | (extract_lets +onlyGivenNames x; clear_value x)
    | with_reducible exact Onward.refl _
    | with_reducible apply onward_flag
    | with_reducible apply onward_ite

theorem onward_groupOff {z : State} (s : State) (hz : Onward z s) : Onward z (groupOff s) := by
  unfold groupOff
  repeat' first
    | with_reducible assumption
    | (extract_lets +onlyGivenNames x; refine (fun hx : Onward z x => ?_) ?_; (on_goal 1 => clear_value x);
        (on_goal 2 => subst x))
    | (extract_lets +onlyGivenNames x; clear_value x)
    | with_reducible exact Onward.refl _
    | with_reducible apply onward_keepRegs
    | with_reducible apply onward_setDom
    | with_reducible apply onward_syncClocks
    | with_reducible apply onward_forL
    | intro _ _ _
    | intro _ _
    | dsimp only
    | fail_if_no_progress with_reducible apply onward_mk

theorem onward_patternOff {z : State} (s : State) (hz : Onward z s) : Onward z (patternOff s) := by
  unfold patternOff
  repeat' first
    | with_reducible assumption
    | (extract_lets +onlyGivenNames x; refine (fun hx : Onward z x => ?_) ?_; (on_goal 1 => clear_value x);
        (on_goal 2 => subst x))
    | (extract_lets +onlyGivenNames x; clear_value x)
    | with_reducible exact Onward.refl _
    | with_reducible apply onward_keepRegs
    | with_reducible apply onward_put
    | with_reducible apply onward_setDom
    | with_reducible apply onward_syncClocks
    | with_reducible apply onward_ite
    | intro _ _ _
    | intro _ _
    | split
    | dsimp only
    | fail_if_no_progress with_reducible apply onward_mk

theorem onward_hostOff {z : State} (s : State) (hz : Onward z s) : Onward z (hostOff s) := by
  unfold hostOff
  repeat' first
    | with_reducible assumption
    | (extract_lets +onlyGivenNames x; refine (fun hx : Onward z x => ?_) ?_; (on_goal 1 => clear_value x);
        (on_goal 2 => subst x))
    | with_reducible exact Onward.refl _
    | with_reducible apply onward_keepRegs
    | with_reducible apply onward_setDom
    | with_reducible apply onward_syncClocks
    | intro _ _ _
    | intro _ _
    | dsimp only
    | fail_if_no_progress with_reducible apply onward_mk

theorem onward_hemPowerOff {z : State} (s : State) (hz : Onward z s) : Onward z (hemPowerOff s) := by
  unfold hemPowerOff
  repeat' first
    | with_reducible assumption
    | (extract_lets +onlyGivenNames x; refine (fun hx : Onward z x => ?_) ?_; (on_goal 1 => clear_value x);
        (on_goal 2 => subst x))
    | (extract_lets +onlyGivenNames x; clear_value x)
    | with_reducible exact Onward.refl _
    | with_reducible apply onward_faultsAtPowerDown
    | with_reducible apply onward_keepRegs
    | with_reducible apply onward_setDom
    | with_reducible apply onward_ite
    | intro _ _ _
    | intro _ _
    | split
    | dsimp only
    | fail_if_no_progress with_reducible apply onward_mk

theorem onward_endTransitions {z : State} (s : State) (hz : Onward z s) : Onward z (endTransitions s) := by
  unfold endTransitions
  repeat' first
    | with_reducible assumption
    | (extract_lets +onlyGivenNames x; clear_value x)
    | with_reducible exact Onward.refl _
    | with_reducible apply onward_syncBusy
    | intro _ _ _
    | intro _ _
    | dsimp only
    | fail_if_no_progress with_reducible apply onward_mk

theorem onward_completeMirror {z : State} (m : Mirror) (s : State)
    (hz : Onward z s) : Onward z (completeMirror m s) := by
  unfold completeMirror
  repeat' first
    | with_reducible assumption
    | (extract_lets +onlyGivenNames x; refine (fun hx : Onward z x => ?_) ?_; (on_goal 1 => clear_value x);
        (on_goal 2 => subst x))
    | (extract_lets +onlyGivenNames x; clear_value x)
    | with_reducible exact Onward.refl _
    | with_reducible apply onward_countMirror
    | with_reducible apply onward_draftsDone
    | with_reducible apply onward_mirrorLedger
    | with_reducible apply onward_ite
    | intro _ _ _
    | intro _ _
    | split
    | dsimp only
    | fail_if_no_progress with_reducible apply onward_mk

theorem goes_execMramMirrorDone (m : Mirror) (s : State) : Goes s (execMramMirrorDone m s) := by
  unfold execMramMirrorDone
  apply goes_next
  repeat' first
    | with_reducible assumption
    | with_reducible exact Onward.refl _
    | with_reducible apply onward_completeMirror
    | with_reducible apply onward_ite

theorem onward_takeWake {z : State} (src : Nat) (s : State) (hz : Onward z s) : Onward z (takeWake src s) := by
  unfold takeWake
  repeat' first
    | with_reducible assumption
    | (extract_lets +onlyGivenNames x; refine (fun hx : Onward z x => ?_) ?_; (on_goal 1 => clear_value x);
        (on_goal 2 => subst x))
    | (extract_lets +onlyGivenNames x; clear_value x)
    | with_reducible exact Onward.refl _
    | with_reducible apply onward_flag
    | with_reducible apply onward_inc
    | with_reducible apply onward_put
    | with_reducible apply onward_syncBusy
    | intro _ _ _
    | intro _ _
    | dsimp only
    | fail_if_no_progress with_reducible apply onward_mk

theorem onward_lateWake {z : State} (m : Nat) (s : State) (hz : Onward z s) : Onward z (lateWake m s) := by
  unfold lateWake
  repeat' first
    | with_reducible assumption
    | (extract_lets +onlyGivenNames x; clear_value x)
    | with_reducible exact Onward.refl _
    | with_reducible apply onward_takeWake
    | with_reducible apply onward_ite
    | intro _ _ _
    | intro _ _
    | split
    | dsimp only
    | fail_if_no_progress with_reducible apply onward_mk

theorem onward_applyWaits {z : State} (s : State) (hz : Onward z s) : Onward z (applyWaits s) := by
  unfold applyWaits
  repeat' first
    | with_reducible assumption
    | with_reducible exact Onward.refl _
    | with_reducible apply onward_switchGroupOn
    | with_reducible apply onward_ite
    | intro _ _ _
    | intro _ _
    | split

theorem onward_finishPowerDown {z : State} (m : Nat) (s : State)
    (hz : Onward z s) : Onward z (finishPowerDown m s) := by
  unfold finishPowerDown
  repeat' first
    | with_reducible assumption
    | (extract_lets +onlyGivenNames x; refine (fun hx : Onward z x => ?_) ?_; (on_goal 1 => clear_value x);
        (on_goal 2 => subst x))
    | (extract_lets +onlyGivenNames x; refine (fun hx : Onward z x.1 => ?_) ?_; (on_goal 1 => clear_value x);
        (on_goal 2 => subst x))
    | (extract_lets +onlyGivenNames x; clear_value x)
    | with_reducible exact Onward.refl _
    | with_reducible apply onward_applyWaits
    | with_reducible apply onward_completeMirror
    | with_reducible apply onward_endTransitions
    | with_reducible apply onward_flag
    | with_reducible apply onward_groupOff
    | with_reducible apply onward_hemPowerOff
    | with_reducible apply onward_hostOff
    | with_reducible apply onward_lateWake
    | with_reducible apply onward_patternOff
    | with_reducible apply onward_setMode
    | with_reducible apply onward_syncBusy
    | with_reducible apply onward_ite
    | with_reducible apply onward_forL
    | intro _ _ _
    | intro _ _
    | split
    | dsimp only
    | fail_if_no_progress with_reducible apply onward_mk

theorem goes_execPowerDownDone (s : State) : Goes s (execPowerDownDone s) := by
  unfold execPowerDownDone
  apply goes_next
  repeat' first
    | with_reducible assumption
    | with_reducible exact Onward.refl _
    | with_reducible apply onward_finishPowerDown
    | intro _ _ _
    | intro _ _
    | split

theorem goes_execBrownout (s : State) : Goes s (execBrownout s) := by
  unfold execBrownout
  apply goes_next
  repeat' first
    | with_reducible assumption
    | (extract_lets +onlyGivenNames x; refine (fun hx : Onward s x => ?_) ?_; (on_goal 1 => clear_value x);
        (on_goal 2 => subst x))
    | (extract_lets +onlyGivenNames x; clear_value x)
    | with_reducible exact Onward.refl _
    | with_reducible apply onward_endTransitions
    | with_reducible apply onward_flag
    | with_reducible apply onward_groupOff
    | with_reducible apply onward_hemPowerOff
    | with_reducible apply onward_hostOff
    | with_reducible apply onward_patternOff
    | with_reducible apply onward_setMode
    | with_reducible apply onward_ite
    | intro _ _ _
    | intro _ _
    | split
    | dsimp only
    | fail_if_no_progress with_reducible apply onward_mk

theorem onward_selvedgeLost {z : State} (s : State) (hz : Onward z s) : Onward z (selvedgeLost s) := by
  unfold selvedgeLost
  have h : Onward s (s.keepRegs fuseAddr) := onward_keepRegs _ (Onward.refl s)
  refine onward_put _ _ (onward_put _ _ (onward_put _ _ (Onward.trans hz ?_)))
  exact ⟨rfl, rfl, rfl, Nat.le_refl _, Nat.le_refl _, h.2.2.2.2.2⟩


theorem goes_execVaonReset (s : State) : Goes s (execVaonReset s) := by
  unfold execVaonReset
  apply goes_next
  repeat' first
    | with_reducible assumption
    | with_reducible exact Onward.refl _
    | with_reducible apply onward_selvedgeLost

theorem goes_execSelvedgePowerUp (s : State) : Goes s (execSelvedgePowerUp s) := by
  unfold execSelvedgePowerUp
  apply goes_next
  repeat' first
    | with_reducible assumption
    | (extract_lets +onlyGivenNames x; refine (fun hx : Onward s x => ?_) ?_; (on_goal 1 => clear_value x);
        (on_goal 2 => subst x))
    | (extract_lets +onlyGivenNames x; clear_value x)
    | with_reducible exact Onward.refl _
    | with_reducible apply onward_flag
    | with_reducible apply onward_put
    | with_reducible apply onward_selvedgeLost
    | with_reducible apply onward_ite
    | intro _ _ _
    | intro _ _
    | split
    | dsimp only
    | fail_if_no_progress with_reducible apply onward_mk

theorem onward_showLedgers {z : State} (s : State) (hz : Onward z s) : Onward z (showLedgers s) := by
  unfold showLedgers
  repeat' first
    | with_reducible assumption
    | (extract_lets +onlyGivenNames x; refine (fun hx : Onward z x => ?_) ?_; (on_goal 1 => clear_value x);
        (on_goal 2 => subst x))
    | with_reducible exact Onward.refl _
    | with_reducible apply onward_flag
    | with_reducible apply onward_put
    | with_reducible apply onward_showLedger
    | with_reducible apply onward_forL

theorem goes_execRestoreDone (s : State) : Goes s (execRestoreDone s) := by
  unfold execRestoreDone
  apply goes_next
  repeat' first
    | with_reducible assumption
    | (extract_lets +onlyGivenNames x; refine (fun hx : Onward s x => ?_) ?_; (on_goal 1 => clear_value x);
        (on_goal 2 => subst x))
    | (extract_lets +onlyGivenNames x; clear_value x)
    | with_reducible exact Onward.refl _
    | with_reducible apply onward_addMirror
    | with_reducible apply onward_flag
    | with_reducible apply onward_loadKept
    | with_reducible apply onward_put
    | with_reducible apply onward_refreshCaps
    | with_reducible apply onward_showLedgers
    | with_reducible apply onward_ite
    | intro _ _ _
    | intro _ _
    | split
    | dsimp only
    | fail_if_no_progress with_reducible apply onward_mk

theorem onward_reachAlarm {z : State} (s : State) (hz : Onward z s) : Onward z (reachAlarm s) := by
  unfold reachAlarm
  repeat' first
    | with_reducible assumption
    | with_reducible exact Onward.refl _
    | intro _ _ _
    | intro _ _
    | with_reducible apply onward_mk_max
    | with_reducible apply onward_mk_add

theorem goes_execWakeTaken (src : Fin 8) (s : State) : Goes s (execWakeTaken src s) := by
  unfold execWakeTaken
  apply goes_next
  repeat' first
    | with_reducible assumption
    | (extract_lets +onlyGivenNames x; refine (fun hx : Onward s x => ?_) ?_; (on_goal 1 => clear_value x);
        (on_goal 2 => subst x))
    | (extract_lets +onlyGivenNames x; refine (fun hx : Onward s x.1 => ?_) ?_; (on_goal 1 => clear_value x);
        (on_goal 2 => subst x))
    | (extract_lets +onlyGivenNames x; clear_value x)
    | with_reducible exact Onward.refl _
    | with_reducible apply onward_reachAlarm
    | with_reducible apply onward_takeWake
    | with_reducible apply onward_ite
    | intro _ _ _
    | intro _ _
    | split
    | dsimp only
    | fail_if_no_progress with_reducible apply onward_mk

theorem goes_execRailtoExpire (s : State) : Goes s (execRailtoExpire s) := by
  unfold execRailtoExpire
  apply goes_next
  repeat' first
    | with_reducible assumption
    | (extract_lets +onlyGivenNames x; refine (fun hx : Onward s x => ?_) ?_; (on_goal 1 => clear_value x);
        (on_goal 2 => subst x))
    | (extract_lets +onlyGivenNames x; clear_value x)
    | with_reducible exact Onward.refl _
    | with_reducible apply onward_flag
    | with_reducible apply onward_syncBusy
    | with_reducible apply onward_ite
    | intro _ _ _
    | intro _ _
    | split
    | dsimp only
    | fail_if_no_progress with_reducible apply onward_mk

theorem onward_hemUp {z : State} (s : State) (hz : Onward z s) : Onward z (hemUp s) := by
  unfold hemUp
  repeat' first
    | with_reducible assumption
    | (extract_lets +onlyGivenNames x; refine (fun hx : Onward z x => ?_) ?_; (on_goal 1 => clear_value x);
        (on_goal 2 => subst x))
    | (extract_lets +onlyGivenNames x; clear_value x)
    | with_reducible exact Onward.refl _
    | with_reducible apply onward_faultsAtPowerUp
    | with_reducible apply onward_put
    | with_reducible apply onward_setDom
    | with_reducible apply onward_setMode
    | intro _ _ _
    | intro _ _
    | dsimp only
    | fail_if_no_progress with_reducible apply onward_mk

theorem onward_patternUp {z : State} (s : State) (hz : Onward z s) : Onward z (patternUp s) := by
  unfold patternUp
  repeat' first
    | with_reducible assumption
    | (extract_lets +onlyGivenNames x; refine (fun hx : Onward z x => ?_) ?_; (on_goal 1 => clear_value x);
        (on_goal 2 => subst x))
    | (extract_lets +onlyGivenNames x; clear_value x)
    | with_reducible exact Onward.refl _
    | with_reducible apply onward_askMeterSign
    | with_reducible apply onward_putSlot
    | with_reducible apply onward_setDom
    | intro _ _ _
    | intro _ _
    | dsimp only
    | fail_if_no_progress with_reducible apply onward_mk

theorem onward_afterWake {z : State} (s : State) (hz : Onward z s) : Onward z (afterWake s) := by
  unfold afterWake
  repeat' first
    | with_reducible assumption
    | (extract_lets +onlyGivenNames x; clear_value x)
    | with_reducible exact Onward.refl _
    | with_reducible apply onward_switchGroupOn
    | with_reducible apply onward_ite
    | intro _ _ _
    | intro _ _
    | split
    | dsimp only
    | fail_if_no_progress with_reducible apply onward_mk

theorem onward_groupUp {z : State} (s : State) (hz : Onward z s) : Onward z (groupUp s) := by
  unfold groupUp
  repeat' first
    | with_reducible assumption
    | (extract_lets +onlyGivenNames x; refine (fun hx : Onward z x => ?_) ?_; (on_goal 1 => clear_value x);
        (on_goal 2 => subst x))
    | (extract_lets +onlyGivenNames x; clear_value x)
    | with_reducible exact Onward.refl _
    | with_reducible apply onward_beginApply
    | with_reducible apply onward_clearInterval
    | with_reducible apply onward_flag
    | with_reducible apply onward_loadRunning
    | with_reducible apply onward_put
    | with_reducible apply onward_setDom
    | with_reducible apply onward_setMode
    | with_reducible apply onward_showLedgers
    | with_reducible apply onward_syncBusy
    | with_reducible apply onward_syncRing
    | with_reducible apply onward_ite
    | with_reducible apply onward_forL
    | intro _ _ _
    | intro _ _
    | split
    | dsimp only
    | fail_if_no_progress with_reducible apply onward_mk

theorem goes_execDomainOutOfReset (n : Fin 8) (s : State) : Goes s (execDomainOutOfReset n s) := by
  unfold execDomainOutOfReset
  apply goes_next
  repeat' first
    | with_reducible assumption
    | with_reducible exact Onward.refl _
    | with_reducible apply onward_afterWake
    | with_reducible apply onward_groupUp
    | with_reducible apply onward_hemUp
    | with_reducible apply onward_patternUp
    | with_reducible apply onward_setDom
    | with_reducible apply onward_ite
    | intro _ _ _
    | intro _ _
    | split

theorem goes_execRailMonitor (rail : Fin 5) (low high : Bool) (s : State) :
    Goes s (execRailMonitor rail low high s) := by
  unfold execRailMonitor
  apply goes_next
  repeat' first
    | with_reducible assumption
    | (extract_lets +onlyGivenNames x; refine (fun hx : Onward s x => ?_) ?_; (on_goal 1 => clear_value x);
        (on_goal 2 => subst x))
    | (extract_lets +onlyGivenNames x; clear_value x)
    | with_reducible exact Onward.refl _
    | with_reducible apply onward_occur
    | with_reducible apply onward_put
    | with_reducible apply onward_setEpisode
    | with_reducible apply onward_ite

theorem goes_execCpPpMeasure (pilot : Fin 6) (pwm : Option (BitVec 10)) (r hv : BitVec 12) (s : State) :
    Goes s (execCpPpMeasure pilot pwm r hv s) := by
  unfold execCpPpMeasure
  apply goes_next
  repeat' first
    | with_reducible assumption
    | (extract_lets +onlyGivenNames x; refine (fun hx : Onward s x => ?_) ?_; (on_goal 1 => clear_value x);
        (on_goal 2 => subst x))
    | (extract_lets +onlyGivenNames x; clear_value x)
    | with_reducible exact Onward.refl _
    | with_reducible apply onward_flag
    | with_reducible apply onward_put
    | with_reducible apply onward_ite
    | intro _ _ _
    | intro _ _
    | split
    | dsimp only
    | fail_if_no_progress with_reducible apply onward_mk

theorem goes_execXaonOk (s : State) : Goes s (execXaonOk s) := by
  unfold execXaonOk
  apply goes_next
  repeat' first
    | with_reducible assumption
    | with_reducible exact Onward.refl _
    | with_reducible apply onward_flag
    | with_reducible apply onward_ite

theorem goes_execXaonLoss (s : State) : Goes s (execXaonLoss s) := by
  unfold execXaonLoss
  apply goes_next
  repeat' first
    | with_reducible assumption
    | with_reducible exact Onward.refl _
    | with_reducible apply onward_flag
    | with_reducible apply onward_occur
    | with_reducible apply onward_ite

theorem goes_execXrefValid (s : State) : Goes s (execXrefValid s) := by
  unfold execXrefValid
  apply goes_next
  repeat' first
    | with_reducible assumption
    | with_reducible exact Onward.refl _
    | with_reducible apply onward_flag
    | with_reducible apply onward_setEpisode
    | with_reducible apply onward_ite

theorem onward_edgeLost {z : State} (s : State) (hz : Onward z s) : Onward z (edgeLost s) := by
  unfold edgeLost
  repeat' first
    | with_reducible assumption
    | with_reducible exact Onward.refl _
    | with_reducible apply onward_flag
    | with_reducible apply onward_putSymbol
    | with_reducible apply onward_forL
    | intro _ _ _

theorem goes_execClockFail (clk : Clock) (s : State) : Goes s (execClockFail clk s) := by
  unfold execClockFail
  apply goes_next
  repeat' first
    | with_reducible assumption
    | (extract_lets +onlyGivenNames x; refine (fun hx : Onward s x => ?_) ?_; (on_goal 1 => clear_value x);
        (on_goal 2 => subst x))
    | (extract_lets +onlyGivenNames x; clear_value x)
    | with_reducible exact Onward.refl _
    | with_reducible apply onward_edgeLost
    | with_reducible apply onward_flag
    | with_reducible apply onward_occur
    | with_reducible apply onward_setEpisode
    | with_reducible apply onward_ite
    | intro _ _ _
    | intro _ _
    | split

theorem onward_restartRoots {z : State} (s : State) (hz : Onward z s) : Onward z (restartRoots s) := by
  unfold restartRoots
  repeat' first
    | with_reducible assumption
    | (extract_lets +onlyGivenNames x; refine (fun hx : Onward z x => ?_) ?_; (on_goal 1 => clear_value x);
        (on_goal 2 => subst x))
    | (extract_lets +onlyGivenNames x; refine (fun hx : Onward z x.1 => ?_) ?_; (on_goal 1 => clear_value x);
        (on_goal 2 => subst x))
    | (extract_lets +onlyGivenNames x; clear_value x)
    | with_reducible exact Onward.refl _
    | with_reducible apply onward_rephase
    | with_reducible apply onward_setCarrier
    | with_reducible apply onward_forL
    | intro _ _ _
    | intro _ _
    | dsimp only
    | fail_if_no_progress with_reducible apply onward_mk

theorem goes_execPllRelock (edge : Bool) (s : State) : Goes s (execPllRelock edge s) := by
  unfold execPllRelock
  apply goes_next
  repeat' first
    | with_reducible assumption
    | (extract_lets +onlyGivenNames x; refine (fun hx : Onward s x => ?_) ?_; (on_goal 1 => clear_value x);
        (on_goal 2 => subst x))
    | with_reducible exact Onward.refl _
    | with_reducible apply onward_flag
    | with_reducible apply onward_mustWait
    | with_reducible apply onward_restartRoots
    | with_reducible apply onward_setEpisode
    | with_reducible apply onward_ite
    | with_reducible apply onward_forL

theorem onward_freshPre {z : State} (s : State) (hz : Onward z s) : Onward z (freshPre s) := by
  unfold freshPre
  repeat' first
    | with_reducible assumption
    | (extract_lets +onlyGivenNames x; clear_value x)
    | with_reducible exact Onward.refl _
    | intro _ _ _
    | intro _ _
    | dsimp only
    | fail_if_no_progress with_reducible apply onward_mk

theorem onward_freshDis {z : State} (s : State) (hz : Onward z s) : Onward z (freshDis s) := by
  unfold freshDis
  repeat' first
    | with_reducible assumption
    | (extract_lets +onlyGivenNames x; clear_value x)
    | with_reducible exact Onward.refl _
    | intro _ _ _
    | intro _ _
    | dsimp only
    | fail_if_no_progress with_reducible apply onward_mk

theorem onward_enterMode {z : State} (r : Nat) (s : State) (hz : Onward z s) : Onward z (enterMode r s) := by
  unfold enterMode
  repeat' first
    | with_reducible assumption
    | (extract_lets +onlyGivenNames x; refine (fun hx : Onward z x => ?_) ?_; (on_goal 1 => clear_value x);
        (on_goal 2 => subst x))
    | (extract_lets +onlyGivenNames x; clear_value x)
    | with_reducible exact Onward.refl _
    | with_reducible apply onward_beginPowerDown
    | with_reducible apply onward_freshPre
    | with_reducible apply onward_setMode
    | with_reducible apply onward_switchGroupOn
    | with_reducible apply onward_ite
    | intro _ _ _
    | intro _ _
    | split
    | dsimp only
    | fail_if_no_progress with_reducible apply onward_mk

theorem onward_writeModectl {z : State} (d : Word) (s : State) (hz : Onward z s) : Onward z (writeModectl d s) := by
  unfold writeModectl
  repeat' first
    | with_reducible assumption
    | (extract_lets +onlyGivenNames x; refine (fun hx : Onward z x => ?_) ?_; (on_goal 1 => clear_value x);
        (on_goal 2 => subst x))
    | (extract_lets +onlyGivenNames x; clear_value x)
    | with_reducible exact Onward.refl _
    | with_reducible apply onward_enterMode
    | with_reducible apply onward_flag
    | with_reducible apply onward_put
    | with_reducible apply onward_ite

theorem onward_modeReq {z : State} (r : Nat) (c : PortCmd) (s : State)
    (hz : Onward z s) : Onward z (modeReq r c s) := by
  unfold modeReq
  repeat' first
    | with_reducible assumption
    | with_reducible exact Onward.refl _
    | with_reducible apply onward_guarded
    | with_reducible apply onward_writeModectl

theorem goes_execModeReqPrecharge (c : PortCmd) (s : State) : Goes s (execModeReqPrecharge c s) := by
  unfold execModeReqPrecharge
  apply goes_next
  repeat' first
    | with_reducible assumption
    | with_reducible exact Onward.refl _
    | with_reducible apply onward_modeReq

theorem goes_execModeReqCharge (c : PortCmd) (s : State) : Goes s (execModeReqCharge c s) := by
  unfold execModeReqCharge
  apply goes_next
  repeat' first
    | with_reducible assumption
    | with_reducible exact Onward.refl _
    | with_reducible apply onward_modeReq

theorem goes_execModeReqFeed (c : PortCmd) (s : State) : Goes s (execModeReqFeed c s) := by
  unfold execModeReqFeed
  apply goes_next
  repeat' first
    | with_reducible assumption
    | with_reducible exact Onward.refl _
    | with_reducible apply onward_modeReq

theorem goes_execModeReqIsland (c : PortCmd) (s : State) : Goes s (execModeReqIsland c s) := by
  unfold execModeReqIsland
  apply goes_next
  repeat' first
    | with_reducible assumption
    | with_reducible exact Onward.refl _
    | with_reducible apply onward_modeReq

theorem goes_execModeReqAuxiliary (c : PortCmd) (s : State) : Goes s (execModeReqAuxiliary c s) := by
  unfold execModeReqAuxiliary
  apply goes_next
  repeat' first
    | with_reducible assumption
    | with_reducible exact Onward.refl _
    | with_reducible apply onward_modeReq

theorem goes_execModeReqReady (c : PortCmd) (s : State) : Goes s (execModeReqReady c s) := by
  unfold execModeReqReady
  apply goes_next
  repeat' first
    | with_reducible assumption
    | with_reducible exact Onward.refl _
    | with_reducible apply onward_modeReq

theorem goes_execModeReqFitting (c : PortCmd) (s : State) : Goes s (execModeReqFitting c s) := by
  unfold execModeReqFitting
  apply goes_next
  repeat' first
    | with_reducible assumption
    | with_reducible exact Onward.refl _
    | with_reducible apply onward_modeReq

theorem goes_execModeReqWatch (c : PortCmd) (s : State) : Goes s (execModeReqWatch c s) := by
  unfold execModeReqWatch
  apply goes_next
  repeat' first
    | with_reducible assumption
    | with_reducible exact Onward.refl _
    | with_reducible apply onward_modeReq

theorem goes_execModeReqDormant (c : PortCmd) (s : State) : Goes s (execModeReqDormant c s) := by
  unfold execModeReqDormant
  apply goes_next
  repeat' first
    | with_reducible assumption
    | with_reducible exact Onward.refl _
    | with_reducible apply onward_modeReq

theorem goes_execPrechargeTimeout (s : State) : Goes s (execPrechargeTimeout s) := by
  unfold execPrechargeTimeout
  apply goes_next
  repeat' first
    | with_reducible assumption
    | with_reducible exact Onward.refl _
    | with_reducible apply onward_put
    | with_reducible apply onward_setMode
    | with_reducible apply onward_ite

theorem onward_backToBasting {z : State} (s : State) (hz : Onward z s) : Onward z (backToBasting s) := by
  unfold backToBasting
  repeat' first
    | with_reducible assumption
    | (extract_lets +onlyGivenNames x; refine (fun hx : Onward z x => ?_) ?_; (on_goal 1 => clear_value x);
        (on_goal 2 => subst x))
    | (extract_lets +onlyGivenNames x; refine (fun hx : Onward z x.1 => ?_) ?_; (on_goal 1 => clear_value x);
        (on_goal 2 => subst x))
    | (extract_lets +onlyGivenNames x; clear_value x)
    | with_reducible exact Onward.refl _
    | with_reducible apply onward_beginPowerDown
    | with_reducible apply onward_refreshFabric
    | with_reducible apply onward_setMode
    | with_reducible apply onward_syncBusy
    | with_reducible apply onward_unload
    | with_reducible apply onward_ite
    | intro _ _ _
    | intro _ _
    | split
    | dsimp only
    | fail_if_no_progress with_reducible apply onward_mk

theorem goes_execDischargeComplete (s : State) : Goes s (execDischargeComplete s) := by
  unfold execDischargeComplete
  apply goes_next
  repeat' first
    | with_reducible assumption
    | (extract_lets +onlyGivenNames x; refine (fun hx : Onward s x => ?_) ?_; (on_goal 1 => clear_value x);
        (on_goal 2 => subst x))
    | (extract_lets +onlyGivenNames x; refine (fun hx : Onward s x.1 => ?_) ?_; (on_goal 1 => clear_value x);
        (on_goal 2 => subst x))
    | (extract_lets +onlyGivenNames x; clear_value x)
    | with_reducible exact Onward.refl _
    | with_reducible apply onward_backToBasting
    | with_reducible apply onward_flag
    | with_reducible apply onward_put
    | with_reducible apply onward_queueFrame
    | with_reducible apply onward_setMode
    | with_reducible apply onward_syncDisreq
    | with_reducible apply onward_ite
    | with_reducible apply onward_forL
    | intro _ _ _
    | intro _ _
    | split
    | dsimp only
    | fail_if_no_progress with_reducible apply onward_mk

theorem goes_execDischargeTimeout (s : State) : Goes s (execDischargeTimeout s) := by
  unfold execDischargeTimeout
  apply goes_next
  repeat' first
    | with_reducible assumption
    | with_reducible exact Onward.refl _
    | with_reducible apply onward_flag
    | with_reducible apply onward_occurWith
    | with_reducible apply onward_ite

theorem goes_execBleedWaitEnd (n : Fin 96) (s : State) : Goes s (execBleedWaitEnd n s) := by
  unfold execBleedWaitEnd
  apply goes_next
  repeat' first
    | with_reducible assumption
    | (extract_lets +onlyGivenNames x; refine (fun hx : Onward s x => ?_) ?_; (on_goal 1 => clear_value x);
        (on_goal 2 => subst x))
    | (extract_lets +onlyGivenNames x; clear_value x)
    | with_reducible exact Onward.refl _
    | with_reducible apply onward_queueFrame
    | with_reducible apply onward_setBleedSt
    | with_reducible apply onward_ite

theorem onward_setRtc {z : State} (lo : Nat) (s : State) (hz : Onward z s) : Onward z (setRtc lo s) := by
  unfold setRtc
  repeat' first
    | with_reducible assumption
    | (extract_lets +onlyGivenNames x; refine (fun hx : Onward z x => ?_) ?_; (on_goal 1 => clear_value x);
        (on_goal 2 => subst x))
    | (extract_lets +onlyGivenNames x; clear_value x)
    | with_reducible exact Onward.refl _
    | with_reducible apply onward_flag
    | intro _ _ _
    | intro _ _
    | dsimp only
    | fail_if_no_progress with_reducible apply onward_mk

theorem onward_armAlarm {z : State} (d : Word) (s : State) (hz : Onward z s) : Onward z (armAlarm d s) := by
  unfold armAlarm
  repeat' first
    | with_reducible assumption
    | (extract_lets +onlyGivenNames x; refine (fun hx : Onward z x => ?_) ?_; (on_goal 1 => clear_value x);
        (on_goal 2 => subst x))
    | (extract_lets +onlyGivenNames x; refine (fun hx : Onward z x.1 => ?_) ?_; (on_goal 1 => clear_value x);
        (on_goal 2 => subst x))
    | (extract_lets +onlyGivenNames x; clear_value x)
    | with_reducible exact Onward.refl _
    | with_reducible apply onward_plainWrite
    | intro _ _ _
    | intro _ _
    | dsimp only
    | fail_if_no_progress with_reducible apply onward_mk

theorem onward_unlessMode {z : State} (m : Nat) (eff : State → State) (s : State) (h_eff : ∀ a, Onward z a → Onward z (eff a))
    (hz : Onward z s) : Onward z (unlessMode m eff s) := by
  unfold unlessMode
  repeat' first
    | with_reducible assumption
    | with_reducible exact Onward.refl _
    | with_reducible apply h_eff
    | with_reducible apply onward_flag
    | with_reducible apply onward_ite

theorem onward_writeCperm {z : State} (d : Word) (s : State) (hz : Onward z s) : Onward z (writeCperm d s) := by
  unfold writeCperm
  repeat' first
    | with_reducible assumption
    | with_reducible exact Onward.refl _
    | with_reducible apply onward_flag
    | with_reducible apply onward_plainWrite
    | with_reducible apply onward_syncContactors
    | with_reducible apply onward_ite

theorem onward_writePwr {z : State} (a : Nat) (d : Word) (s : State)
    (hz : Onward z s) : Onward z (writePwr a d s) := by
  unfold writePwr
  repeat' first
    | with_reducible assumption
    | (extract_lets +onlyGivenNames x; clear_value x)
    | with_reducible exact Onward.refl _
    | with_reducible apply onward_armAlarm
    | with_reducible apply onward_freshDis
    | with_reducible apply onward_freshPre
    | with_reducible apply onward_plainWrite
    | with_reducible apply onward_setRtc
    | with_reducible apply onward_unlessMode
    | with_reducible apply onward_writeCperm
    | with_reducible apply onward_writeModectl
    | with_reducible apply onward_ite
    | intro _ _ _
    | intro _ _
    | split
    | dsimp only
    | fail_if_no_progress with_reducible apply onward_mk

theorem goes_execRtcSet (w : PortWrite) (s : State) : Goes s (execRtcSet w s) := by
  unfold execRtcSet
  apply goes_next
  repeat' first
    | with_reducible assumption
    | with_reducible exact Onward.refl _
    | with_reducible apply onward_guarded
    | with_reducible apply onward_setRtc

theorem goes_execAlarmArm (w : PortWrite) (s : State) : Goes s (execAlarmArm w s) := by
  unfold execAlarmArm
  apply goes_next
  repeat' first
    | with_reducible assumption
    | with_reducible exact Onward.refl _
    | with_reducible apply onward_armAlarm
    | with_reducible apply onward_guarded

theorem goes_execCpermWrite (w : PortWrite) (s : State) : Goes s (execCpermWrite w s) := by
  unfold execCpermWrite
  apply goes_next
  repeat' first
    | with_reducible assumption
    | with_reducible exact Onward.refl _
    | with_reducible apply onward_guarded
    | with_reducible apply onward_writeCperm

end Sys2Proof.Machine
end

