-- ==== Sys2Proof/Laws/OnwardFabric.lean ====
section
/-!
SUPPORT. Every update of Machine/Fabric.lean leads onward; every command of it is answered.
-/
set_option Elab.async false

namespace Sys2Proof.Machine

theorem onward_syncRoutes {z : State} (s : State) (hz : Onward z s) : Onward z (syncRoutes s) := by
  unfold syncRoutes
  repeat' first
    | with_reducible assumption
    | with_reducible exact Onward.refl _
    | with_reducible apply onward_judgeFabric
    | with_reducible apply onward_raiseNow
    | with_reducible apply onward_routesAfter
    | intro _ _ _ _
    | intro _ _ _
    | intro _ _
    | dsimp only
    | fail_if_no_progress with_reducible apply onward_mk

theorem onward_endRequest {z : State} (st : Nat) (s : State) (hz : Onward z s) : Onward z (endRequest st s) := by
  unfold endRequest
  repeat' first
    | with_reducible assumption
    | (extract_lets +onlyGivenNames x; refine (fun hx : Onward z x => ?_) ?_; (on_goal 1 => clear_value x);
        (on_goal 2 => subst x))
    | (extract_lets +onlyGivenNames x; clear_value x)
    | with_reducible exact Onward.refl _
    | with_reducible apply onward_flag
    | with_reducible apply onward_put
    | intro _ _ _
    | intro _ _
    | split
    | dsimp only
    | fail_if_no_progress with_reducible apply onward_mk

theorem onward_issueRequest {z : State} (s : State) (hz : Onward z s) : Onward z (issueRequest s) := by
  unfold issueRequest
  repeat' first
    | with_reducible assumption
    | (extract_lets +onlyGivenNames x; refine (fun hx : Onward z x => ?_) ?_; (on_goal 1 => clear_value x);
        (on_goal 2 => subst x))
    | (extract_lets +onlyGivenNames x; clear_value x)
    | with_reducible exact Onward.refl _
    | with_reducible apply onward_endRequest
    | with_reducible apply onward_flag
    | with_reducible apply onward_noRoute
    | with_reducible apply onward_sendRouted
    | with_reducible apply onward_ite
    | intro _ _ _
    | intro _ _
    | split
    | dsimp only
    | fail_if_no_progress with_reducible apply onward_mk

theorem onward_writeFabRctl {z : State} (d : Word) (s : State) (hz : Onward z s) : Onward z (writeFabRctl d s) := by
  unfold writeFabRctl
  repeat' first
    | with_reducible assumption
    | with_reducible exact Onward.refl _
    | with_reducible apply onward_flag
    | with_reducible apply onward_issueRequest
    | with_reducible apply onward_plainWrite
    | with_reducible apply onward_ite

theorem onward_fabRow {z : State} (port op : Nat) (dst : BitVec 6) (n : BitVec 3) (tag : BitVec 8) (s : State)
    (hz : Onward z s) : Onward z (fabRow port op dst n tag s) := by
  unfold fabRow
  repeat' first
    | with_reducible assumption
    | (extract_lets +onlyGivenNames x; clear_value x)
    | with_reducible exact Onward.refl _
    | with_reducible apply onward_guarded
    | with_reducible apply onward_writeFabRctl

theorem goes_execFabReqRead (port : Nat) (dst : BitVec 6) (n : BitVec 3) (tag : BitVec 8) (s : State) :
    Goes s (execFabReqRead port dst n tag s) := by
  unfold execFabReqRead
  apply goes_next
  repeat' first
    | with_reducible assumption
    | with_reducible exact Onward.refl _
    | with_reducible apply onward_fabRow

theorem goes_execFabReqWrite (port : Nat) (dst : BitVec 6) (n : BitVec 3) (tag : BitVec 8) (s : State) :
    Goes s (execFabReqWrite port dst n tag s) := by
  unfold execFabReqWrite
  apply goes_next
  repeat' first
    | with_reducible assumption
    | with_reducible exact Onward.refl _
    | with_reducible apply onward_fabRow

theorem goes_execFabAttest (port : Nat) (dst : BitVec 6) (n : BitVec 3) (tag : BitVec 8) (s : State) :
    Goes s (execFabAttest port dst n tag s) := by
  unfold execFabAttest
  apply goes_next
  repeat' first
    | with_reducible assumption
    | with_reducible exact Onward.refl _
    | with_reducible apply onward_fabRow

theorem goes_execFabReqTimeout (s : State) : Goes s (execFabReqTimeout s) := by
  unfold execFabReqTimeout
  apply goes_next
  repeat' first
    | with_reducible assumption
    | with_reducible exact Onward.refl _
    | with_reducible apply onward_endRequest

theorem onward_claimRole {z : State} (s : State) (hz : Onward z s) : Onward z (claimRole s) := by
  unfold claimRole
  repeat' first
    | with_reducible assumption
    | (extract_lets +onlyGivenNames x; refine (fun hx : Onward z x => ?_) ?_; (on_goal 1 => clear_value x);
        (on_goal 2 => subst x))
    | (extract_lets +onlyGivenNames x; refine (fun hx : Onward z x.1 => ?_) ?_; (on_goal 1 => clear_value x);
        (on_goal 2 => subst x))
    | (extract_lets +onlyGivenNames x; clear_value x)
    | with_reducible exact Onward.refl _
    | with_reducible apply onward_sendLocal
    | with_reducible apply onward_ite
    | intro _ _ _
    | intro _ _
    | split
    | dsimp only
    | fail_if_no_progress with_reducible apply onward_mk

theorem onward_portsDown {z : State} (ps : List Nat) (s : State) (hz : Onward z s) : Onward z (portsDown ps s) := by
  unfold portsDown
  repeat' first
    | with_reducible assumption
    | with_reducible exact Onward.refl _
    | with_reducible apply onward_claimRole
    | with_reducible apply onward_portsGoDown
    | with_reducible apply onward_raiseNow
    | with_reducible apply onward_routesAfter
    | intro _ _ _ _
    | intro _ _ _
    | intro _ _
    | dsimp only
    | fail_if_no_progress with_reducible apply onward_mk

theorem onward_failPort {z : State} (p e : Nat) (s : State) (hz : Onward z s) : Onward z (failPort p e s) := by
  unfold failPort
  repeat' first
    | with_reducible assumption
    | (extract_lets +onlyGivenNames x; refine (fun hx : Onward z x => ?_) ?_; (on_goal 1 => clear_value x);
        (on_goal 2 => subst x))
    | (extract_lets +onlyGivenNames x; refine (fun hx : Onward z x.1 => ?_) ?_; (on_goal 1 => clear_value x);
        (on_goal 2 => subst x))
    | (extract_lets +onlyGivenNames x; clear_value x)
    | with_reducible exact Onward.refl _
    | with_reducible apply onward_dropPort
    | with_reducible apply onward_put
    | with_reducible apply onward_raiseNow
    | with_reducible apply onward_raisePort
    | intro _ _ _ _
    | intro _ _ _
    | intro _ _
    | dsimp only
    | fail_if_no_progress with_reducible apply onward_mk

theorem onward_sendChunks {z : State} (p ty : Nat) (bs : List Byte) (s : State)
    (hz : Onward z s) : Onward z (sendChunks p ty bs s) := by
  unfold sendChunks
  repeat' first
    | with_reducible assumption
    | with_reducible exact Onward.refl _
    | with_reducible apply onward_sendLocal
    | with_reducible apply onward_forN
    | intro _ _ _

theorem onward_sendHello {z : State} (p : Nat) (s : State) (hz : Onward z s) : Onward z (sendHello p s) := by
  unfold sendHello
  repeat' first
    | with_reducible assumption
    | (extract_lets +onlyGivenNames x; refine (fun hx : Onward z x => ?_) ?_; (on_goal 1 => clear_value x);
        (on_goal 2 => subst x))
    | (extract_lets +onlyGivenNames x; clear_value x)
    | with_reducible exact Onward.refl _
    | with_reducible apply onward_freeNext
    | with_reducible apply onward_sendChunks
    | with_reducible apply onward_sendLocal
    | with_reducible apply onward_setFabPort

theorem goes_execFabTrainStart (p : Fin 4) (s : State) : Goes s (execFabTrainStart p s) := by
  unfold execFabTrainStart
  apply goes_next
  repeat' first
    | with_reducible assumption
    | with_reducible exact Onward.refl _
    | with_reducible apply onward_put
    | with_reducible apply onward_ite

theorem goes_execFabAligned (p : Fin 4) (s : State) : Goes s (execFabAligned p s) := by
  unfold execFabAligned
  apply goes_next
  repeat' first
    | with_reducible assumption
    | with_reducible exact Onward.refl _
    | with_reducible apply onward_put
    | with_reducible apply onward_sendHello
    | with_reducible apply onward_ite

theorem goes_execFabHelloTimeout (p : Fin 4) (s : State) : Goes s (execFabHelloTimeout p s) := by
  unfold execFabHelloTimeout
  apply goes_next
  repeat' first
    | with_reducible assumption
    | with_reducible exact Onward.refl _
    | with_reducible apply onward_failPort
    | with_reducible apply onward_ite

theorem goes_execFabFailedEnd (p : Fin 4) (s : State) : Goes s (execFabFailedEnd p s) := by
  unfold execFabFailedEnd
  apply goes_next
  repeat' first
    | with_reducible assumption
    | with_reducible exact Onward.refl _
    | with_reducible apply onward_put
    | with_reducible apply onward_ite

theorem onward_goUp {z : State} (p : Nat) (s : State) (hz : Onward z s) : Onward z (goUp p s) := by
  unfold goUp
  repeat' first
    | with_reducible assumption
    | (extract_lets +onlyGivenNames x; refine (fun hx : Onward z x => ?_) ?_; (on_goal 1 => clear_value x);
        (on_goal 2 => subst x))
    | (extract_lets +onlyGivenNames x; refine (fun hx : Onward z x.1 => ?_) ?_; (on_goal 1 => clear_value x);
        (on_goal 2 => subst x))
    | (extract_lets +onlyGivenNames x; clear_value x)
    | with_reducible exact Onward.refl _
    | with_reducible apply onward_claimRole
    | with_reducible apply onward_flag
    | with_reducible apply onward_inc
    | with_reducible apply onward_put
    | with_reducible apply onward_sendRoutes
    | with_reducible apply onward_setFabPort
    | with_reducible apply onward_syncRoutes
    | intro _ _ _
    | intro _ _
    | dsimp only
    | fail_if_no_progress with_reducible apply onward_mk

theorem onward_checkCert {z : State} (p : Nat) (s : State) (hz : Onward z s) : Onward z (checkCert p s) := by
  unfold checkCert
  repeat' first
    | with_reducible assumption
    | (extract_lets +onlyGivenNames x; clear_value x)
    | with_reducible exact Onward.refl _
    | with_reducible apply onward_failPort
    | with_reducible apply onward_setFabPort
    | with_reducible apply onward_ite

theorem onward_askReport {z : State} (p : Nat) (s : State) (hz : Onward z s) : Onward z (askReport p s) := by
  unfold askReport
  repeat' first
    | with_reducible assumption
    | (extract_lets +onlyGivenNames x; clear_value x)
    | with_reducible exact Onward.refl _
    | with_reducible apply onward_addSign
    | with_reducible apply onward_setFabPort
    | with_reducible apply onward_ite
    | intro _ _ _
    | intro _ _
    | split

theorem onward_checkReport {z : State} (p : Nat) (s : State) (hz : Onward z s) : Onward z (checkReport p s) := by
  unfold checkReport
  repeat' first
    | with_reducible assumption
    | (extract_lets +onlyGivenNames x; clear_value x)
    | with_reducible exact Onward.refl _
    | with_reducible apply onward_failPort
    | with_reducible apply onward_setFabPort
    | with_reducible apply onward_ite

theorem onward_joinStep {z : State} (p : Nat) (s : State) (hz : Onward z s) : Onward z (joinStep p s) := by
  unfold joinStep
  repeat' first
    | with_reducible assumption
    | (extract_lets +onlyGivenNames x; refine (fun hx : Onward z x => ?_) ?_; (on_goal 1 => clear_value x);
        (on_goal 2 => subst x))
    | (extract_lets +onlyGivenNames x; clear_value x)
    | with_reducible exact Onward.refl _
    | with_reducible apply onward_askReport
    | with_reducible apply onward_checkCert
    | with_reducible apply onward_checkReport
    | with_reducible apply onward_goUp
    | with_reducible apply onward_ite

theorem onward_sendReport {z : State} (r : SignReq) (bs : List Byte) (s : State)
    (hz : Onward z s) : Onward z (sendReport r bs s) := by
  unfold sendReport
  repeat' first
    | with_reducible assumption
    | (extract_lets +onlyGivenNames x; refine (fun hx : Onward z x => ?_) ?_; (on_goal 1 => clear_value x);
        (on_goal 2 => subst x))
    | (extract_lets +onlyGivenNames x; clear_value x)
    | with_reducible exact Onward.refl _
    | with_reducible apply onward_idnDone
    | with_reducible apply onward_joinStep
    | with_reducible apply onward_putWindow
    | with_reducible apply onward_sendChunks
    | with_reducible apply onward_sendRouted
    | with_reducible apply onward_setFabPort
    | with_reducible apply onward_ite
    | with_reducible apply onward_forN
    | intro _ _ _
    | intro _ _
    | split

theorem onward_completeSign {z : State} (r : SignReq) (s : State)
    (hz : Onward z s) : Onward z (completeSign r s) := by
  unfold completeSign
  repeat' first
    | with_reducible assumption
    | (extract_lets +onlyGivenNames x; refine (fun hx : Onward z x => ?_) ?_; (on_goal 1 => clear_value x);
        (on_goal 2 => subst x))
    | (extract_lets +onlyGivenNames x; clear_value x)
    | with_reducible exact Onward.refl _
    | with_reducible apply onward_countSignature
    | with_reducible apply onward_inc
    | with_reducible apply onward_sendReport
    | with_reducible apply onward_signSlot
    | with_reducible apply onward_ite
    | intro _ _ _
    | intro _ _
    | split

theorem goes_execSignComplete (s : State) : Goes s (execSignComplete s) := by
  unfold execSignComplete
  apply goes_next
  repeat' first
    | with_reducible assumption
    | (extract_lets +onlyGivenNames x; refine (fun hx : Onward s x => ?_) ?_; (on_goal 1 => clear_value x);
        (on_goal 2 => subst x))
    | (extract_lets +onlyGivenNames x; clear_value x)
    | with_reducible exact Onward.refl _
    | with_reducible apply onward_completeSign
    | with_reducible apply onward_idnDone
    | with_reducible apply onward_mtrInt
    | with_reducible apply onward_put
    | with_reducible apply onward_syncSign
    | with_reducible apply onward_ite
    | intro _ _ _
    | intro _ _
    | split
    | dsimp only
    | fail_if_no_progress with_reducible apply onward_mk

theorem onward_setLinkX {z : State} (s : State) (n : Nat) (x : LinkX)
    (hz : Onward z s) : Onward z (setLinkX s n x) := by
  unfold setLinkX
  repeat' first
    | with_reducible assumption
    | (extract_lets +onlyGivenNames x; clear_value x)
    | with_reducible exact Onward.refl _
    | intro _ _ _
    | intro _ _
    | dsimp only
    | fail_if_no_progress with_reducible apply onward_mk

theorem onward_setRemoteX {z : State} (s : State) (n : Nat) (x : RemoteX)
    (hz : Onward z s) : Onward z (setRemoteX s n x) := by
  unfold setRemoteX
  repeat' first
    | with_reducible assumption
    | (extract_lets +onlyGivenNames x; clear_value x)
    | with_reducible exact Onward.refl _
    | intro _ _ _
    | intro _ _
    | dsimp only
    | fail_if_no_progress with_reducible apply onward_mk

theorem onward_linkMissed {z : State} (n : Nat) (s : State) (hz : Onward z s) : Onward z (linkMissed n s) := by
  unfold linkMissed
  repeat' first
    | with_reducible assumption
    | (extract_lets +onlyGivenNames x; refine (fun hx : Onward z x => ?_) ?_; (on_goal 1 => clear_value x);
        (on_goal 2 => subst x))
    | (extract_lets +onlyGivenNames x; clear_value x)
    | with_reducible exact Onward.refl _
    | with_reducible apply onward_flag
    | with_reducible apply onward_occur
    | with_reducible apply onward_setLinkX
    | with_reducible apply onward_ite

theorem onward_sendLinkref {z : State} (n start : Nat) (s : State)
    (hz : Onward z s) : Onward z (sendLinkref n start s) := by
  unfold sendLinkref
  repeat' first
    | with_reducible assumption
    | (extract_lets +onlyGivenNames x; refine (fun hx : Onward z x => ?_) ?_; (on_goal 1 => clear_value x);
        (on_goal 2 => subst x))
    | (extract_lets +onlyGivenNames x; clear_value x)
    | with_reducible exact Onward.refl _
    | with_reducible apply onward_linkMissed
    | with_reducible apply onward_sendRouted
    | with_reducible apply onward_setLinkX
    | with_reducible apply onward_ite

theorem onward_remoteMissed {z : State} (n : Nat) (s : State) (hz : Onward z s) : Onward z (remoteMissed n s) := by
  unfold remoteMissed
  repeat' first
    | with_reducible assumption
    | (extract_lets +onlyGivenNames x; refine (fun hx : Onward z x => ?_) ?_; (on_goal 1 => clear_value x);
        (on_goal 2 => subst x))
    | (extract_lets +onlyGivenNames x; clear_value x)
    | with_reducible exact Onward.refl _
    | with_reducible apply onward_flag
    | with_reducible apply onward_occur
    | with_reducible apply onward_setRemoteX
    | with_reducible apply onward_ite

theorem onward_remoteApply {z : State} (n : Nat) (w : WaitRef) (s : State)
    (hz : Onward z s) : Onward z (remoteApply n w s) := by
  unfold remoteApply
  repeat' first
    | with_reducible assumption
    | (extract_lets +onlyGivenNames x; refine (fun hx : Onward z x => ?_) ?_; (on_goal 1 => clear_value x);
        (on_goal 2 => subst x))
    | (extract_lets +onlyGivenNames x; refine (fun hx : Onward z x.1 => ?_) ?_; (on_goal 1 => clear_value x);
        (on_goal 2 => subst x))
    | (extract_lets +onlyGivenNames x; clear_value x)
    | with_reducible exact Onward.refl _
    | with_reducible apply onward_flag
    | with_reducible apply onward_put
    | with_reducible apply onward_setRemoteX
    | intro _ _ _
    | intro _ _
    | dsimp only
    | fail_if_no_progress with_reducible apply onward_mk

theorem onward_remoteReport {z : State} (n : Nat) (s : State) (hz : Onward z s) : Onward z (remoteReport n s) := by
  unfold remoteReport
  repeat' first
    | with_reducible assumption
    | (extract_lets +onlyGivenNames x; refine (fun hx : Onward z x => ?_) ?_; (on_goal 1 => clear_value x);
        (on_goal 2 => subst x))
    | (extract_lets +onlyGivenNames x; refine (fun hx : Onward z x.1 => ?_) ?_; (on_goal 1 => clear_value x);
        (on_goal 2 => subst x))
    | (extract_lets +onlyGivenNames x; clear_value x)
    | with_reducible exact Onward.refl _
    | with_reducible apply onward_sendRouted
    | with_reducible apply onward_setRemoteX
    | with_reducible apply onward_forL
    | intro _ _ _
    | intro _ _
    | split
    | dsimp only
    | fail_if_no_progress with_reducible apply onward_mk

theorem onward_remotePeriod {z : State} (n : Nat) (s : State) (hz : Onward z s) : Onward z (remotePeriod n s) := by
  unfold remotePeriod
  repeat' first
    | with_reducible assumption
    | (extract_lets +onlyGivenNames x; refine (fun hx : Onward z x => ?_) ?_; (on_goal 1 => clear_value x);
        (on_goal 2 => subst x))
    | (extract_lets +onlyGivenNames x; clear_value x)
    | with_reducible exact Onward.refl _
    | with_reducible apply onward_remoteMissed
    | with_reducible apply onward_setRemoteX
    | with_reducible apply onward_ite

theorem onward_syncFabric {z : State} (s : State) (hz : Onward z s) : Onward z (syncFabric s) := by
  unfold syncFabric
  repeat' first
    | with_reducible assumption
    | with_reducible exact Onward.refl _
    | with_reducible apply onward_claimRole
    | with_reducible apply onward_refreshFabric
    | with_reducible apply onward_syncAgree
    | with_reducible apply onward_ite
    | intro _ _ _
    | intro _ _
    | split
    | dsimp only
    | fail_if_no_progress with_reducible apply onward_mk

theorem onward_hostPatCtl {z : State} (d : Word) (s : State) (hz : Onward z s) : Onward z (hostPatCtl d s) := by
  unfold hostPatCtl
  repeat' first
    | with_reducible assumption
    | with_reducible exact Onward.refl _
    | with_reducible apply onward_syncFabric
    | with_reducible apply onward_writePatCtl

theorem goes_execRouteSend (s : State) : Goes s (execRouteSend s) := by
  unfold execRouteSend
  apply goes_next
  repeat' first
    | with_reducible assumption
    | with_reducible exact Onward.refl _
    | with_reducible apply onward_sendRoutes
    | with_reducible apply onward_syncFabric
    | with_reducible apply onward_syncRoutes
    | with_reducible apply onward_ite

theorem goes_execRoleFree (r : Fin 32) (s : State) : Goes s (execRoleFree r s) := by
  unfold execRoleFree
  apply goes_next
  repeat' first
    | with_reducible assumption
    | (extract_lets +onlyGivenNames x; refine (fun hx : Onward s x => ?_) ?_; (on_goal 1 => clear_value x);
        (on_goal 2 => subst x))
    | (extract_lets +onlyGivenNames x; refine (fun hx : Onward s x.1 => ?_) ?_; (on_goal 1 => clear_value x);
        (on_goal 2 => subst x))
    | (extract_lets +onlyGivenNames x; clear_value x)
    | with_reducible exact Onward.refl _
    | with_reducible apply onward_flag
    | with_reducible apply onward_oneCycle
    | with_reducible apply onward_put
    | with_reducible apply onward_raiseNow
    | with_reducible apply onward_syncAgree
    | with_reducible apply onward_syncSource
    | with_reducible apply onward_ite
    | intro _ _ _ _
    | intro _ _ _
    | intro _ _
    | split
    | dsimp only
    | fail_if_no_progress with_reducible apply onward_mk

theorem onward_loseTime {z : State} (s : State) (hz : Onward z s) : Onward z (loseTime s) := by
  unfold loseTime
  repeat' first
    | with_reducible assumption
    | with_reducible exact Onward.refl _
    | with_reducible apply onward_clearTvalid
    | with_reducible apply onward_oneCycle
    | with_reducible apply onward_raiseNow
    | intro _ _ _ _
    | intro _ _ _
    | intro _ _
    | dsimp only
    | fail_if_no_progress with_reducible apply onward_mk

theorem onward_followTime {z : State} (off : Int) (s : State) (hz : Onward z s) : Onward z (followTime off s) := by
  unfold followTime
  repeat' first
    | with_reducible assumption
    | (extract_lets +onlyGivenNames x; refine (fun hx : Onward z x => ?_) ?_; (on_goal 1 => clear_value x);
        (on_goal 2 => subst x))
    | (extract_lets +onlyGivenNames x; refine (fun hx : Onward z x.1 => ?_) ?_; (on_goal 1 => clear_value x);
        (on_goal 2 => subst x))
    | (extract_lets +onlyGivenNames x; clear_value x)
    | with_reducible exact Onward.refl _
    | with_reducible apply onward_flag
    | with_reducible apply onward_inc
    | with_reducible apply onward_loseTime
    | with_reducible apply onward_put
    | with_reducible apply onward_setFabTime
    | with_reducible apply onward_ite
    | intro _ _ _
    | intro _ _
    | split
    | dsimp only
    | fail_if_no_progress with_reducible apply onward_mk

theorem goes_execTimeExchange (p : Fin 4) (t : TimeStamps) (source : Fin 33) (s : State) :
    Goes s (execTimeExchange p t source s) := by
  unfold execTimeExchange
  apply goes_next
  repeat' first
    | with_reducible assumption
    | (extract_lets +onlyGivenNames x; refine (fun hx : Onward s x => ?_) ?_; (on_goal 1 => clear_value x);
        (on_goal 2 => subst x))
    | (extract_lets +onlyGivenNames x; refine (fun hx : Onward s x.1 => ?_) ?_; (on_goal 1 => clear_value x);
        (on_goal 2 => subst x))
    | (extract_lets +onlyGivenNames x; clear_value x)
    | with_reducible exact Onward.refl _
    | with_reducible apply onward_followTime
    | with_reducible apply onward_heard
    | with_reducible apply onward_oneCycle
    | with_reducible apply onward_put
    | with_reducible apply onward_raiseNow
    | with_reducible apply onward_setFabPort
    | with_reducible apply onward_syncSource
    | with_reducible apply onward_ite
    | intro _ _ _ _
    | intro _ _ _
    | intro _ _
    | split
    | dsimp only
    | fail_if_no_progress with_reducible apply onward_mk

theorem goes_execTvalidLoss (s : State) : Goes s (execTvalidLoss s) := by
  unfold execTvalidLoss
  apply goes_next
  repeat' first
    | with_reducible assumption
    | with_reducible exact Onward.refl _
    | with_reducible apply onward_loseTime
    | with_reducible apply onward_ite
    | intro _ _ _
    | intro _ _
    | split
    | dsimp only
    | fail_if_no_progress with_reducible apply onward_mk

theorem goes_execDigestSend (s : State) : Goes s (execDigestSend s) := by
  unfold execDigestSend
  apply goes_next
  repeat' first
    | with_reducible assumption
    | with_reducible exact Onward.refl _
    | with_reducible apply onward_sendRouted
    | with_reducible apply onward_ite
    | with_reducible apply onward_forL
    | intro _ _ _

theorem goes_execAgreeTimeout (r : Fin 32) (s : State) : Goes s (execAgreeTimeout r s) := by
  unfold execAgreeTimeout
  apply goes_next
  repeat' first
    | with_reducible assumption
    | (extract_lets +onlyGivenNames x; clear_value x)
    | with_reducible exact Onward.refl _
    | with_reducible apply onward_syncAgree
    | with_reducible apply onward_ite
    | intro _ _ _
    | intro _ _
    | split
    | dsimp only
    | fail_if_no_progress with_reducible apply onward_mk

end Sys2Proof.Machine
end

