-- ==== Sys2Proof/Laws/OnwardModulation.lean ====
section
/-!
SUPPORT. Every update of Machine/Modulation.lean leads onward; every command of it is answered.
-/
set_option Elab.async false

namespace Sys2Proof.Machine

theorem onward_countSuppressed {z : State} (n : Nat) (of : Fraction → Nat) (ks : List Nat) (s : State)
    (hz : Onward z s) : Onward z (countSuppressed n of ks s) := by
  unfold countSuppressed
  repeat' first
    | with_reducible assumption
    | (extract_lets +onlyGivenNames x; refine (fun hx : Onward z x => ?_) ?_; (on_goal 1 => clear_value x);
        (on_goal 2 => subst x))
    | (extract_lets +onlyGivenNames x; refine (fun hx : Onward z x.1 => ?_) ?_; (on_goal 1 => clear_value x);
        (on_goal 2 => subst x))
    | (extract_lets +onlyGivenNames x; clear_value x)
    | with_reducible exact Onward.refl _
    | with_reducible apply onward_inc
    | with_reducible apply onward_setCarrier
    | with_reducible apply onward_ite
    | with_reducible apply onward_forL
    | intro _ _ _
    | intro _ _
    | split
    | dsimp only
    | fail_if_no_progress with_reducible apply onward_mk

theorem onward_putOut {z : State} (n : Nat) (sum : Int) (s : State)
    (hz : Onward z s) : Onward z (putOut n sum s) := by
  unfold putOut
  repeat' first
    | with_reducible assumption
    | with_reducible exact Onward.refl _
    | with_reducible apply onward_flag
    | with_reducible apply onward_put

theorem onward_composeBelow {z : State} (f n : Nat) (s : State) (hz : Onward z s) : Onward z (composeBelow f n s) := by
  induction f generalizing n s with
  | zero => exact hz
  | succ f ih =>
    unfold composeBelow
    refine onward_forL _ _ hz (fun k a h => ?_)
    dsimp only
    repeat' first
      | with_reducible assumption
      | with_reducible apply ih
      | with_reducible apply onward_setNext
      | with_reducible apply onward_putOut
      | with_reducible apply onward_put
      | with_reducible apply onward_ite


theorem onward_compose {z : State} (n : Nat) (s : State) (hz : Onward z s) : Onward z (compose n s) := by
  unfold compose
  repeat' first
    | with_reducible assumption
    | (extract_lets +onlyGivenNames x; refine (fun hx : Onward z x => ?_) ?_; (on_goal 1 => clear_value x);
        (on_goal 2 => subst x))
    | (extract_lets +onlyGivenNames x; clear_value x)
    | with_reducible exact Onward.refl _
    | with_reducible apply onward_composeBelow
    | with_reducible apply onward_put
    | with_reducible apply onward_putOut
    | with_reducible apply onward_ite

theorem onward_driveChild {z : State} (c f : Nat) (s : State) (hz : Onward z s) : Onward z (driveChild c f s) := by
  unfold driveChild
  repeat' first
    | with_reducible assumption
    | (extract_lets +onlyGivenNames x; clear_value x)
    | with_reducible exact Onward.refl _
    | with_reducible apply onward_composeBelow
    | with_reducible apply onward_put
    | with_reducible apply onward_setNext
    | with_reducible apply onward_ite

theorem onward_sortSelect {z : State} (n : Nat) (due : Bool) (s : State)
    (hz : Onward z s) : Onward z (sortSelect n due s).1 := by
  unfold sortSelect
  repeat' first
    | with_reducible assumption
    | (extract_lets +onlyGivenNames x; refine (fun hx : Onward z x => ?_) ?_; (on_goal 1 => clear_value x);
        (on_goal 2 => subst x))
    | (extract_lets +onlyGivenNames x; clear_value x)
    | with_reducible exact Onward.refl _
    | with_reducible apply onward_driveChild
    | with_reducible apply onward_flag
    | with_reducible apply onward_put
    | with_reducible apply onward_setCarrier
    | with_reducible apply onward_ite
    | with_reducible apply onward_forL
    | with_reducible apply onward_foldl
    | with_reducible apply onward_foldl_fst
    | intro _ _ _ _
    | intro _ _ _

theorem onward_enterRun {z : State} (n k : Nat) (s : State) (hz : Onward z s) : Onward z (enterRun n k s) := by
  unfold enterRun
  repeat' first
    | with_reducible assumption
    | (extract_lets +onlyGivenNames x; refine (fun hx : Onward z x => ?_) ?_; (on_goal 1 => clear_value x);
        (on_goal 2 => subst x))
    | (extract_lets +onlyGivenNames x; clear_value x)
    | with_reducible exact Onward.refl _
    | with_reducible apply onward_setCarrier
    | with_reducible apply onward_setDielet
    | with_reducible apply onward_setView
    | with_reducible apply onward_ite

theorem onward_latchLevels {z : State} (n : Nat) (s : State) (hz : Onward z s) : Onward z (latchLevels n s) := by
  unfold latchLevels
  repeat' first
    | with_reducible assumption
    | (extract_lets +onlyGivenNames x; clear_value x)
    | with_reducible exact Onward.refl _
    | with_reducible apply onward_inc
    | with_reducible apply onward_put
    | with_reducible apply onward_setCarrier
    | with_reducible apply onward_ite

theorem onward_judgeAlign {z : State} (n : Nat) (err : Int) (s : State)
    (hz : Onward z s) : Onward z (judgeAlign n err s) := by
  unfold judgeAlign
  repeat' first
    | with_reducible assumption
    | (extract_lets +onlyGivenNames x; refine (fun hx : Onward z x => ?_) ?_; (on_goal 1 => clear_value x);
        (on_goal 2 => subst x))
    | (extract_lets +onlyGivenNames x; clear_value x)
    | with_reducible exact Onward.refl _
    | with_reducible apply onward_flag
    | with_reducible apply onward_setCarrier
    | with_reducible apply onward_setEpisode
    | with_reducible apply onward_ite

theorem onward_latchEnable {z : State} (n : Nat) (s : State) (hz : Onward z s) : Onward z (latchEnable n s) := by
  unfold latchEnable
  repeat' first
    | with_reducible assumption
    | with_reducible exact Onward.refl _
    | with_reducible apply onward_syncEnables
    | with_reducible apply onward_ite
    | intro _ _ _
    | intro _ _
    | split
    | dsimp only
    | fail_if_no_progress with_reducible apply onward_mk

theorem onward_latchPeriod {z : State} (n : Nat) (s : State) (hz : Onward z s) : Onward z (latchPeriod n s) := by
  unfold latchPeriod
  repeat' first
    | with_reducible assumption
    | (extract_lets +onlyGivenNames x; refine (fun hx : Onward z x => ?_) ?_; (on_goal 1 => clear_value x);
        (on_goal 2 => subst x))
    | (extract_lets +onlyGivenNames x; refine (fun hx : Onward z x.1 => ?_) ?_; (on_goal 1 => clear_value x);
        (on_goal 2 => subst x))
    | (extract_lets +onlyGivenNames x; clear_value x)
    | with_reducible exact Onward.refl _
    | with_reducible apply onward_flag
    | with_reducible apply onward_setCarrier
    | with_reducible apply onward_ite
    | intro _ _ _
    | intro _ _
    | split
    | dsimp only
    | fail_if_no_progress with_reducible apply onward_mk

theorem onward_turnPeriod {z : State} (n t p k : Nat) (s : State)
    (hz : Onward z s) : Onward z (turnPeriod n t p k s) := by
  unfold turnPeriod
  repeat' first
    | with_reducible assumption
    | (extract_lets +onlyGivenNames x; refine (fun hx : Onward z x => ?_) ?_; (on_goal 1 => clear_value x);
        (on_goal 2 => subst x))
    | (extract_lets +onlyGivenNames x; refine (fun hx : Onward z x.1 => ?_) ?_; (on_goal 1 => clear_value x);
        (on_goal 2 => subst x))
    | (extract_lets +onlyGivenNames x; clear_value x)
    | with_reducible exact Onward.refl _
    | with_reducible apply onward_setFraction
    | intro _ _ _
    | intro _ _
    | dsimp only
    | fail_if_no_progress with_reducible apply onward_mk

theorem onward_assignJoins {z : State} (n : Nat) (ks : List Nat) (s : State)
    (hz : Onward z s) : Onward z (assignJoins n ks s) := by
  unfold assignJoins
  repeat' first
    | with_reducible assumption
    | (extract_lets +onlyGivenNames x; refine (fun hx : Onward z x => ?_) ?_; (on_goal 1 => clear_value x);
        (on_goal 2 => subst x))
    | (extract_lets +onlyGivenNames x; refine (fun hx : Onward z x.1 => ?_) ?_; (on_goal 1 => clear_value x);
        (on_goal 2 => subst x))
    | (extract_lets +onlyGivenNames x; clear_value x)
    | with_reducible exact Onward.refl _
    | with_reducible apply onward_setFraction
    | with_reducible apply onward_ite
    | with_reducible apply onward_forL
    | intro _ _ _
    | intro _ _
    | split
    | dsimp only
    | fail_if_no_progress with_reducible apply onward_mk

theorem onward_startTimed {z : State} (n t : Nat) (ks : List Nat) (s : State)
    (hz : Onward z s) : Onward z (startTimed n t ks s) := by
  unfold startTimed
  repeat' first
    | with_reducible assumption
    | (extract_lets +onlyGivenNames x; refine (fun hx : Onward z x => ?_) ?_; (on_goal 1 => clear_value x);
        (on_goal 2 => subst x))
    | (extract_lets +onlyGivenNames x; refine (fun hx : Onward z x.1 => ?_) ?_; (on_goal 1 => clear_value x);
        (on_goal 2 => subst x))
    | (extract_lets +onlyGivenNames x; clear_value x)
    | with_reducible exact Onward.refl _
    | with_reducible apply onward_assignJoins
    | with_reducible apply onward_countSuppressed
    | with_reducible apply onward_enterRun
    | with_reducible apply onward_setCarrier
    | with_reducible apply onward_turnPeriod
    | with_reducible apply onward_forL
    | intro _ _ _
    | intro _ _
    | dsimp only
    | fail_if_no_progress with_reducible apply onward_mk

theorem onward_alignRoot {z : State} (n t : Nat) (s : State) (hz : Onward z s) : Onward z (alignRoot n t s) := by
  unfold alignRoot
  repeat' first
    | with_reducible assumption
    | (extract_lets +onlyGivenNames x; refine (fun hx : Onward z x => ?_) ?_; (on_goal 1 => clear_value x);
        (on_goal 2 => subst x))
    | (extract_lets +onlyGivenNames x; refine (fun hx : Onward z x.1 => ?_) ?_; (on_goal 1 => clear_value x);
        (on_goal 2 => subst x))
    | (extract_lets +onlyGivenNames x; clear_value x)
    | with_reducible exact Onward.refl _
    | with_reducible apply onward_judgeAlign
    | with_reducible apply onward_setRemoteX
    | with_reducible apply onward_ite
    | intro _ _ _
    | intro _ _
    | split
    | dsimp only
    | fail_if_no_progress with_reducible apply onward_mk

theorem onward_pulseSync {z : State} (n t : Nat) (s : State) (hz : Onward z s) : Onward z (pulseSync n t s) := by
  unfold pulseSync
  repeat' first
    | with_reducible assumption
    | with_reducible exact Onward.refl _
    | with_reducible apply onward_ite
    | intro _ _ _
    | intro _ _
    | split
    | dsimp only
    | fail_if_no_progress with_reducible apply onward_mk

theorem onward_startPeriod {z : State} (n t : Nat) (s : State) (hz : Onward z s) : Onward z (startPeriod n t s) := by
  unfold startPeriod
  repeat' first
    | with_reducible assumption
    | (extract_lets +onlyGivenNames x; refine (fun hx : Onward z x => ?_) ?_; (on_goal 1 => clear_value x);
        (on_goal 2 => subst x))
    | (extract_lets +onlyGivenNames x; refine (fun hx : Onward z x.1 => ?_) ?_; (on_goal 1 => clear_value x);
        (on_goal 2 => subst x))
    | (extract_lets +onlyGivenNames x; clear_value x)
    | with_reducible exact Onward.refl _
    | with_reducible apply onward_alignRoot
    | with_reducible apply onward_flag
    | with_reducible apply onward_inc
    | with_reducible apply onward_latchEnable
    | with_reducible apply onward_latchLevels
    | with_reducible apply onward_latchPeriod
    | with_reducible apply onward_pulseSync
    | with_reducible apply onward_refreshCap
    | with_reducible apply onward_remotePeriod
    | with_reducible apply onward_setCarrier
    | with_reducible apply onward_ite
    | intro _ _ _
    | intro _ _
    | split
    | dsimp only
    | fail_if_no_progress with_reducible apply onward_mk

theorem goes_execCarrierPeriodStart (n : Fin 64) (slot : Option (Fin 16)) (t : Nat) (met : List (Fin 64 × WinMeet)) (s : State) :
    Goes s (execCarrierPeriodStart n slot t met s) := by
  unfold execCarrierPeriodStart
  apply goes_next
  repeat' first
    | with_reducible assumption
    | (extract_lets +onlyGivenNames x; refine (fun hx : Onward s x => ?_) ?_; (on_goal 1 => clear_value x);
        (on_goal 2 => subst x))
    | (extract_lets +onlyGivenNames x; refine (fun hx : Onward s x.1 => ?_) ?_; (on_goal 1 => clear_value x);
        (on_goal 2 => subst x))
    | (extract_lets +onlyGivenNames x; clear_value x)
    | with_reducible exact Onward.refl _
    | with_reducible apply onward_oneCycle
    | with_reducible apply onward_startPeriod
    | with_reducible apply onward_startTimed
    | with_reducible apply onward_winPeriodClear
    | with_reducible apply onward_ite
    | intro _ _ _
    | intro _ _
    | split
    | with_reducible apply onward_mk_max
    | with_reducible apply onward_mk_add
    | dsimp only
    | fail_if_no_progress with_reducible apply onward_mk

theorem onward_joinTimed {z : State} (n : Nat) (ks : List Nat) (s : State)
    (hz : Onward z s) : Onward z (joinTimed n ks s) := by
  unfold joinTimed
  repeat' first
    | with_reducible assumption
    | (extract_lets +onlyGivenNames x; clear_value x)
    | with_reducible exact Onward.refl _
    | with_reducible apply onward_setCarrier
    | with_reducible apply onward_ite

theorem onward_takeRef {z : State} (n : Nat) (s : State) (hz : Onward z s) : Onward z (takeRef n s) := by
  unfold takeRef
  repeat' first
    | with_reducible assumption
    | (extract_lets +onlyGivenNames x; refine (fun hx : Onward z x => ?_) ?_; (on_goal 1 => clear_value x);
        (on_goal 2 => subst x))
    | (extract_lets +onlyGivenNames x; refine (fun hx : Onward z x.1 => ?_) ?_; (on_goal 1 => clear_value x);
        (on_goal 2 => subst x))
    | (extract_lets +onlyGivenNames x; clear_value x)
    | with_reducible exact Onward.refl _
    | with_reducible apply onward_remoteApply
    | with_reducible apply onward_setRemoteX
    | with_reducible apply onward_ite
    | with_reducible apply onward_forL
    | intro _ _ _
    | intro _ _
    | split
    | dsimp only
    | fail_if_no_progress with_reducible apply onward_mk

theorem onward_updateOutputs {z : State} (u : Update) (s : State)
    (hz : Onward z s) : Onward z (updateOutputs u s) := by
  unfold updateOutputs
  repeat' first
    | with_reducible assumption
    | (extract_lets +onlyGivenNames x; refine (fun hx : Onward z x => ?_) ?_; (on_goal 1 => clear_value x);
        (on_goal 2 => subst x))
    | (extract_lets +onlyGivenNames x; refine (fun hx : Onward z x.1 => ?_) ?_; (on_goal 1 => clear_value x);
        (on_goal 2 => subst x))
    | (extract_lets +onlyGivenNames x; clear_value x)
    | with_reducible exact Onward.refl _
    | with_reducible apply onward_applyOutputs
    | with_reducible apply onward_flag
    | with_reducible apply onward_setCarrier
    | with_reducible apply onward_takeRef
    | with_reducible apply onward_ite
    | intro _ _ _
    | intro _ _
    | split
    | dsimp only
    | fail_if_no_progress with_reducible apply onward_mk

theorem onward_updateSort {z : State} (n : Nat) (due : Bool) (s : State)
    (hz : Onward z s) : Onward z (updateSort n due s).1 := by
  unfold updateSort
  repeat' first
    | with_reducible assumption
    | with_reducible exact Onward.refl _
    | with_reducible apply onward_sortSelect
    | with_reducible apply onward_ite
    | intro _ _ _
    | intro _ _
    | split

theorem onward_updateLink {z : State} (ns : List Nat) (m : Nat) (s : State)
    (hz : Onward z s) : Onward z (updateLink ns m s) := by
  unfold updateLink
  repeat' first
    | with_reducible assumption
    | with_reducible exact Onward.refl _
    | with_reducible apply onward_inc
    | with_reducible apply onward_sendLinkref
    | with_reducible apply onward_ite
    | intro _ _ _
    | intro _ _
    | split
    | dsimp only
    | fail_if_no_progress with_reducible apply onward_mk

theorem onward_updateAt {z : State} (due : Bool) (us : List Update) (s : State)
    (hz : Onward z s) : Onward z (updateAt due us s) := by
  unfold updateAt
  repeat' first
    | with_reducible assumption
    | (extract_lets +onlyGivenNames x; refine (fun hx : Onward z x => ?_) ?_; (on_goal 1 => clear_value x);
        (on_goal 2 => subst x))
    | (extract_lets +onlyGivenNames x; refine (fun hx : Onward z x.1 => ?_) ?_; (on_goal 1 => clear_value x);
        (on_goal 2 => subst x))
    | (extract_lets +onlyGivenNames x; clear_value x)
    | with_reducible exact Onward.refl _
    | with_reducible apply onward_compose
    | with_reducible apply onward_occur
    | with_reducible apply onward_remoteReport
    | with_reducible apply onward_updateLink
    | with_reducible apply onward_updateOutputs
    | with_reducible apply onward_updateSort
    | with_reducible apply onward_ite
    | with_reducible apply onward_forL
    | with_reducible apply onward_foldl
    | with_reducible apply onward_foldl_fst
    | intro _ _ _
    | intro _ _
    | split
    | dsimp only
    | fail_if_no_progress with_reducible apply onward_mk

theorem onward_takeFractions {z : State} (u : Update) (s : State)
    (hz : Onward z s) : Onward z (takeFractions u s) := by
  unfold takeFractions
  repeat' first
    | with_reducible assumption
    | (extract_lets +onlyGivenNames x; refine (fun hx : Onward z x => ?_) ?_; (on_goal 1 => clear_value x);
        (on_goal 2 => subst x))
    | (extract_lets +onlyGivenNames x; refine (fun hx : Onward z x.1 => ?_) ?_; (on_goal 1 => clear_value x);
        (on_goal 2 => subst x))
    | (extract_lets +onlyGivenNames x; clear_value x)
    | with_reducible exact Onward.refl _
    | with_reducible apply onward_countSuppressed
    | with_reducible apply onward_setFraction
    | with_reducible apply onward_forL
    | intro _ _ _
    | intro _ _
    | dsimp only
    | fail_if_no_progress with_reducible apply onward_mk

theorem goes_execUpdateInstant (due : Bool) (us : List Update) (s : State) :
    Goes s (execUpdateInstant due us s) := by
  unfold execUpdateInstant
  apply goes_next
  repeat' first
    | with_reducible assumption
    | (extract_lets +onlyGivenNames x; refine (fun hx : Onward s x => ?_) ?_; (on_goal 1 => clear_value x);
        (on_goal 2 => subst x))
    | (extract_lets +onlyGivenNames x; clear_value x)
    | with_reducible exact Onward.refl _
    | with_reducible apply onward_joinTimed
    | with_reducible apply onward_oneCycle
    | with_reducible apply onward_takeFractions
    | with_reducible apply onward_updateAt
    | with_reducible apply onward_ite
    | with_reducible apply onward_forL
    | intro _ _ _

theorem onward_sampleAt {z : State} (n t : Nat) (s : State) (hz : Onward z s) : Onward z (sampleAt n t s) := by
  unfold sampleAt
  repeat' first
    | with_reducible assumption
    | (extract_lets +onlyGivenNames x; refine (fun hx : Onward z x => ?_) ?_; (on_goal 1 => clear_value x);
        (on_goal 2 => subst x))
    | (extract_lets +onlyGivenNames x; refine (fun hx : Onward z x.1 => ?_) ?_; (on_goal 1 => clear_value x);
        (on_goal 2 => subst x))
    | (extract_lets +onlyGivenNames x; clear_value x)
    | with_reducible exact Onward.refl _
    | with_reducible apply onward_acqSeamTrigger
    | with_reducible apply onward_gridSample
    | with_reducible apply onward_triggerWith
    | with_reducible apply onward_ite
    | intro _ _ _
    | intro _ _
    | split
    | with_reducible apply onward_mk_max
    | with_reducible apply onward_mk_add
    | dsimp only
    | fail_if_no_progress with_reducible apply onward_mk

theorem goes_execSampleInstant (n : Fin 64) (t : Nat) (s : State) : Goes s (execSampleInstant n t s) := by
  unfold execSampleInstant
  apply goes_next
  repeat' first
    | with_reducible assumption
    | with_reducible exact Onward.refl _
    | with_reducible apply onward_oneCycle
    | with_reducible apply onward_sampleAt

theorem onward_convEnds {z : State} (v : Nat) (x peak : Int) (s : State)
    (hz : Onward z s) : Onward z (convEnds v x peak s) := by
  unfold convEnds
  repeat' first
    | with_reducible assumption
    | with_reducible exact Onward.refl _
    | with_reducible apply onward_endConversion
    | intro _ _ _
    | intro _ _
    | dsimp only
    | fail_if_no_progress with_reducible apply onward_mk

theorem onward_meetEnd {z : State} (m : ConvMeet) (s : State) (hz : Onward z s) : Onward z (meetEnd m s) := by
  unfold meetEnd
  repeat' first
    | with_reducible assumption
    | with_reducible exact Onward.refl _
    | with_reducible apply onward_convEnds
    | intro _ _ _
    | intro _ _
    | split
    | dsimp only
    | fail_if_no_progress with_reducible apply onward_mk

theorem onward_meetConversion {z : State} (m : ConvMeet) (s : State)
    (hz : Onward z s) : Onward z (meetConversion m s) := by
  unfold meetConversion
  repeat' first
    | with_reducible assumption
    | with_reducible exact Onward.refl _
    | with_reducible apply onward_sampleAt
    | with_reducible apply onward_urgentGo
    | intro _ _ _
    | intro _ _
    | split
    | dsimp only
    | fail_if_no_progress with_reducible apply onward_mk

theorem goes_execConversionDone (v : Fin 4) (x peak : Int) (met : List ConvMeet) (s : State) :
    Goes s (execConversionDone v x peak met s) := by
  unfold execConversionDone
  apply goes_next
  repeat' first
    | with_reducible assumption
    | with_reducible exact Onward.refl _
    | with_reducible apply onward_convEnds
    | with_reducible apply onward_grantAll
    | with_reducible apply onward_meetConversion
    | with_reducible apply onward_meetEnd
    | with_reducible apply onward_oneCycle
    | with_reducible apply onward_ite
    | with_reducible apply onward_forL
    | intro _ _ _
    | intro _ _
    | split
    | dsimp only
    | fail_if_no_progress with_reducible apply onward_mk

theorem onward_launch {z : State} (n m : Nat) (q : Nat) (s : State)
    (hz : Onward z s) : Onward z (launch n m q s) := by
  unfold launch
  repeat' first
    | with_reducible assumption
    | (extract_lets +onlyGivenNames x; clear_value x)
    | with_reducible exact Onward.refl _
    | with_reducible apply onward_setFraction
    | with_reducible apply onward_setLink

theorem onward_noteLow {z : State} (n q : Nat) (s : State) (hz : Onward z s) : Onward z (noteLow n q s) := by
  unfold noteLow
  repeat' first
    | with_reducible assumption
    | (extract_lets +onlyGivenNames x; clear_value x)
    | with_reducible exact Onward.refl _
    | with_reducible apply onward_setFraction

theorem goes_execEdgeInstant (n : Fin 96) (k : EdgeKind) (q : Nat) (s : State) :
    Goes s (execEdgeInstant n k q s) := by
  unfold execEdgeInstant
  apply goes_next
  repeat' first
    | with_reducible assumption
    | (extract_lets +onlyGivenNames x; refine (fun hx : Onward s x => ?_) ?_; (on_goal 1 => clear_value x);
        (on_goal 2 => subst x))
    | (extract_lets +onlyGivenNames x; refine (fun hx : Onward s x.1 => ?_) ?_; (on_goal 1 => clear_value x);
        (on_goal 2 => subst x))
    | (extract_lets +onlyGivenNames x; clear_value x)
    | with_reducible exact Onward.refl _
    | with_reducible apply onward_commitFraction
    | with_reducible apply onward_inc
    | with_reducible apply onward_launch
    | with_reducible apply onward_noteLow
    | with_reducible apply onward_setCarrier
    | with_reducible apply onward_setFraction
    | with_reducible apply onward_winBlankOpen
    | with_reducible apply onward_ite
    | intro _ _ _
    | intro _ _
    | split
    | dsimp only
    | fail_if_no_progress with_reducible apply onward_mk

theorem onward_spreadPer {z : State} (r v : Nat) (s : State) (hz : Onward z s) : Onward z (spreadPer r v s) := by
  unfold spreadPer
  repeat' first
    | with_reducible assumption
    | with_reducible exact Onward.refl _
    | with_reducible apply onward_put
    | with_reducible apply onward_ite
    | with_reducible apply onward_forL
    | intro _ _ _

theorem onward_writeModCar {z : State} (n : Nat) (d : Word) (s : State)
    (hz : Onward z s) : Onward z (writeModCar n d s) := by
  unfold writeModCar
  repeat' first
    | with_reducible assumption
    | (extract_lets +onlyGivenNames x; clear_value x)
    | with_reducible exact Onward.refl _
    | with_reducible apply onward_flag
    | with_reducible apply onward_spreadPer
    | with_reducible apply onward_ite

theorem onward_writeModPh {z : State} (n : Nat) (d : Word) (s : State)
    (hz : Onward z s) : Onward z (writeModPh n d s) := by
  unfold writeModPh
  repeat' first
    | with_reducible assumption
    | with_reducible exact Onward.refl _
    | with_reducible apply onward_flag
    | with_reducible apply onward_put
    | with_reducible apply onward_rephase
    | with_reducible apply onward_ite

theorem goes_execModCarPerWrite (n : Fin 64) (w : PortWrite) (s : State) : Goes s (execModCarPerWrite n w s) := by
  unfold execModCarPerWrite
  apply goes_next
  repeat' first
    | with_reducible assumption
    | with_reducible exact Onward.refl _
    | with_reducible apply onward_guarded
    | with_reducible apply onward_writeModCar

theorem goes_execModPhWrite (n : Fin 64) (w : PortWrite) (s : State) : Goes s (execModPhWrite n w s) := by
  unfold execModPhWrite
  apply goes_next
  repeat' first
    | with_reducible assumption
    | with_reducible exact Onward.refl _
    | with_reducible apply onward_guarded
    | with_reducible apply onward_writeModPh

theorem goes_execModSyncInEdge (q : Nat) (s : State) : Goes s (execModSyncInEdge q s) := by
  unfold execModSyncInEdge
  apply goes_next
  repeat' first
    | with_reducible assumption
    | (extract_lets +onlyGivenNames x; refine (fun hx : Onward s x => ?_) ?_; (on_goal 1 => clear_value x);
        (on_goal 2 => subst x))
    | (extract_lets +onlyGivenNames x; clear_value x)
    | with_reducible exact Onward.refl _
    | with_reducible apply onward_flag
    | with_reducible apply onward_judgeAlign
    | with_reducible apply onward_ite

theorem goes_execSyncInTimeout (s : State) : Goes s (execSyncInTimeout s) := by
  unfold execSyncInTimeout
  apply goes_next
  repeat' first
    | with_reducible assumption
    | (extract_lets +onlyGivenNames x; refine (fun hx : Onward s x => ?_) ?_; (on_goal 1 => clear_value x);
        (on_goal 2 => subst x))
    | (extract_lets +onlyGivenNames x; clear_value x)
    | with_reducible exact Onward.refl _
    | with_reducible apply onward_flag
    | with_reducible apply onward_occur
    | with_reducible apply onward_setCarrier
    | with_reducible apply onward_ite

end Sys2Proof.Machine
end

