-- ==== Sys2Proof/Laws/OnwardSeam.lean ====
section
/-!
SUPPORT. Every update of Machine/Seam.lean leads onward; every command of it is answered.
-/
set_option Elab.async false

namespace Sys2Proof.Machine

theorem onward_writeSeamRef {z : State} (n : Nat) (d : Word) (s : State)
    (hz : Onward z s) : Onward z (writeSeamRef n d s) := by
  unfold writeSeamRef
  repeat' first
    | with_reducible assumption
    | with_reducible exact Onward.refl _
    | with_reducible apply onward_put
    | with_reducible apply onward_ite

theorem onward_writeSeamOfs {z : State} (n : Nat) (d : Word) (s : State)
    (hz : Onward z s) : Onward z (writeSeamOfs n d s) := by
  unfold writeSeamOfs
  repeat' first
    | with_reducible assumption
    | with_reducible exact Onward.refl _
    | with_reducible apply onward_put
    | with_reducible apply onward_ite

theorem onward_writeSeamCtl {z : State} (p n : Nat) (d : Word) (s : State)
    (hz : Onward z s) : Onward z (writeSeamCtl p n d s) := by
  unfold writeSeamCtl
  repeat' first
    | with_reducible assumption
    | with_reducible exact Onward.refl _
    | with_reducible apply onward_discarded
    | with_reducible apply onward_dropEnable
    | with_reducible apply onward_flag
    | with_reducible apply onward_ite

theorem goes_execSeamRefWrite (n : Fin 64) (w : PortWrite) (s : State) : Goes s (execSeamRefWrite n w s) := by
  unfold execSeamRefWrite
  apply goes_next
  repeat' first
    | with_reducible assumption
    | with_reducible exact Onward.refl _
    | with_reducible apply onward_guarded
    | with_reducible apply onward_writeSeamRef

theorem goes_execSeamOfsWrite (n : Fin 64) (w : PortWrite) (s : State) : Goes s (execSeamOfsWrite n w s) := by
  unfold execSeamOfsWrite
  apply goes_next
  repeat' first
    | with_reducible assumption
    | with_reducible exact Onward.refl _
    | with_reducible apply onward_guarded
    | with_reducible apply onward_writeSeamOfs

theorem goes_execSeamEnWrite (n : Fin 64) (w : PortWrite) (s : State) : Goes s (execSeamEnWrite n w s) := by
  unfold execSeamEnWrite
  apply goes_next
  repeat' first
    | with_reducible assumption
    | with_reducible exact Onward.refl _
    | with_reducible apply onward_guarded
    | with_reducible apply onward_writeSeamCtl

end Sys2Proof.Machine
end

