-- ==== Sys2Proof/Laws/OnwardHarvest.lean ====
section
/-!
SUPPORT. Every update of Machine/Harvest.lean leads onward; every command of it is answered.
-/
set_option Elab.async false

namespace Sys2Proof.Machine

theorem onward_syncBoost {z : State} (s : State) (hz : Onward z s) : Onward z (syncBoost s) := by
  unfold syncBoost
  repeat' first
    | with_reducible assumption
    | with_reducible exact Onward.refl _
    | with_reducible apply onward_flag

theorem goes_execTrackCycle (s : State) : Goes s (execTrackCycle s) := by
  unfold execTrackCycle
  apply goes_next
  repeat' first
    | with_reducible assumption
    | (extract_lets +onlyGivenNames x; refine (fun hx : Onward s x => ?_) ?_; (on_goal 1 => clear_value x);
        (on_goal 2 => subst x))
    | (extract_lets +onlyGivenNames x; clear_value x)
    | with_reducible exact Onward.refl _
    | with_reducible apply onward_flag
    | with_reducible apply onward_ite
    | intro _ _ _
    | intro _ _
    | split
    | dsimp only
    | fail_if_no_progress with_reducible apply onward_mk

theorem goes_execVocSampleEnd (voc : BitVec 13) (s : State) : Goes s (execVocSampleEnd voc s) := by
  unfold execVocSampleEnd
  apply goes_next
  repeat' first
    | with_reducible assumption
    | (extract_lets +onlyGivenNames x; refine (fun hx : Onward s x => ?_) ?_; (on_goal 1 => clear_value x);
        (on_goal 2 => subst x))
    | with_reducible exact Onward.refl _
    | with_reducible apply onward_flag
    | with_reducible apply onward_put
    | with_reducible apply onward_syncBoost
    | with_reducible apply onward_ite

theorem goes_execStoreFull (s : State) : Goes s (execStoreFull s) := by
  unfold execStoreFull
  apply goes_next
  repeat' first
    | with_reducible assumption
    | with_reducible exact Onward.refl _
    | with_reducible apply onward_flag
    | with_reducible apply onward_syncBoost
    | with_reducible apply onward_ite

theorem goes_execStoreBelowVstmax (s : State) : Goes s (execStoreBelowVstmax s) := by
  unfold execStoreBelowVstmax
  apply goes_next
  repeat' first
    | with_reducible assumption
    | with_reducible exact Onward.refl _
    | with_reducible apply onward_flag
    | with_reducible apply onward_syncBoost
    | with_reducible apply onward_ite

theorem goes_execHinOv (s : State) : Goes s (execHinOv s) := by
  unfold execHinOv
  apply goes_next
  repeat' first
    | with_reducible assumption
    | with_reducible exact Onward.refl _
    | with_reducible apply onward_flag
    | with_reducible apply onward_syncBoost
    | with_reducible apply onward_ite

theorem goes_execHinovClear (s : State) : Goes s (execHinovClear s) := by
  unfold execHinovClear
  apply goes_next
  repeat' first
    | with_reducible assumption
    | with_reducible exact Onward.refl _
    | with_reducible apply onward_flag
    | with_reducible apply onward_syncBoost
    | with_reducible apply onward_ite

theorem goes_execColdStart (s : State) : Goes s (execColdStart s) := by
  unfold execColdStart
  apply goes_next
  repeat' first
    | with_reducible assumption
    | (extract_lets +onlyGivenNames x; clear_value x)
    | with_reducible exact Onward.refl _
    | with_reducible apply onward_ite
    | intro _ _ _
    | intro _ _
    | split
    | dsimp only
    | fail_if_no_progress with_reducible apply onward_mk

theorem goes_execExtsupChange (ext : Bool) (s : State) : Goes s (execExtsupChange ext s) := by
  unfold execExtsupChange
  apply goes_next
  repeat' first
    | with_reducible assumption
    | with_reducible exact Onward.refl _
    | with_reducible apply onward_flag
    | with_reducible apply onward_ite

theorem onward_grantModes {z : State} (old : Nat) (s : State) (hz : Onward z s) : Onward z (grantModes old s) := by
  unfold grantModes
  repeat' first
    | with_reducible assumption
    | (extract_lets +onlyGivenNames x; refine (fun hx : Onward z x => ?_) ?_; (on_goal 1 => clear_value x);
        (on_goal 2 => subst x))
    | (extract_lets +onlyGivenNames x; refine (fun hx : Onward z x.1 => ?_) ?_; (on_goal 1 => clear_value x);
        (on_goal 2 => subst x))
    | (extract_lets +onlyGivenNames x; clear_value x)
    | with_reducible exact Onward.refl _
    | with_reducible apply onward_flag
    | with_reducible apply onward_setMode
    | with_reducible apply onward_ite
    | intro _ _ _
    | intro _ _
    | split
    | dsimp only
    | fail_if_no_progress with_reducible apply onward_mk

theorem onward_askBurst {z : State} (s : State) (hz : Onward z s) : Onward z (askBurst s) := by
  unfold askBurst
  repeat' first
    | with_reducible assumption
    | (extract_lets +onlyGivenNames x; refine (fun hx : Onward z x => ?_) ?_; (on_goal 1 => clear_value x);
        (on_goal 2 => subst x))
    | (extract_lets +onlyGivenNames x; clear_value x)
    | with_reducible exact Onward.refl _
    | with_reducible apply onward_inc
    | with_reducible apply onward_put
    | with_reducible apply onward_ite
    | intro _ _ _
    | intro _ _
    | split
    | dsimp only
    | fail_if_no_progress with_reducible apply onward_mk

theorem goes_execGaugeMeasure (vst : BitVec 13) (s : State) : Goes s (execGaugeMeasure vst s) := by
  unfold execGaugeMeasure
  apply goes_next
  repeat' first
    | with_reducible assumption
    | (extract_lets +onlyGivenNames x; refine (fun hx : Onward s x => ?_) ?_; (on_goal 1 => clear_value x);
        (on_goal 2 => subst x))
    | (extract_lets +onlyGivenNames x; clear_value x)
    | with_reducible exact Onward.refl _
    | with_reducible apply onward_askBurst
    | with_reducible apply onward_grantModes
    | with_reducible apply onward_put
    | with_reducible apply onward_ite
    | intro _ _ _
    | intro _ _
    | split
    | dsimp only
    | fail_if_no_progress with_reducible apply onward_mk

theorem onward_endBurst {z : State} (r : Nat) (s : State) (hz : Onward z s) : Onward z (endBurst r s) := by
  unfold endBurst
  repeat' first
    | with_reducible assumption
    | (extract_lets +onlyGivenNames x; refine (fun hx : Onward z x => ?_) ?_; (on_goal 1 => clear_value x);
        (on_goal 2 => subst x))
    | (extract_lets +onlyGivenNames x; clear_value x)
    | with_reducible exact Onward.refl _
    | with_reducible apply onward_afterWake
    | with_reducible apply onward_inc
    | with_reducible apply onward_patternOff
    | with_reducible apply onward_put
    | with_reducible apply onward_ite
    | intro _ _ _
    | intro _ _
    | split
    | dsimp only
    | fail_if_no_progress with_reducible apply onward_mk

theorem goes_execBurstCheckpoint (s : State) : Goes s (execBurstCheckpoint s) := by
  unfold execBurstCheckpoint
  apply goes_next
  repeat' first
    | with_reducible assumption
    | with_reducible exact Onward.refl _
    | with_reducible apply onward_endBurst
    | with_reducible apply onward_ite
    | intro _ _ _
    | intro _ _
    | split

theorem goes_execBurstStop (s : State) : Goes s (execBurstStop s) := by
  unfold execBurstStop
  apply goes_next
  repeat' first
    | with_reducible assumption
    | with_reducible exact Onward.refl _
    | with_reducible apply onward_endBurst
    | with_reducible apply onward_inc
    | with_reducible apply onward_ite

theorem goes_execBurstTimeout (s : State) : Goes s (execBurstTimeout s) := by
  unfold execBurstTimeout
  apply goes_next
  repeat' first
    | with_reducible assumption
    | with_reducible exact Onward.refl _
    | with_reducible apply onward_endBurst
    | with_reducible apply onward_inc
    | with_reducible apply onward_ite

theorem onward_writeHrv {z : State} (a : Nat) (d : Word) (s : State)
    (hz : Onward z s) : Onward z (writeHrv a d s) := by
  unfold writeHrv
  repeat' first
    | with_reducible assumption
    | (extract_lets +onlyGivenNames x; refine (fun hx : Onward z x => ?_) ?_; (on_goal 1 => clear_value x);
        (on_goal 2 => subst x))
    | with_reducible exact Onward.refl _
    | with_reducible apply onward_flag
    | with_reducible apply onward_plainWrite
    | with_reducible apply onward_syncBoost
    | with_reducible apply onward_ite

theorem goes_execHrvWrite (k : Fin 9) (w : PortWrite) (s : State) : Goes s (execHrvWrite k w s) := by
  unfold execHrvWrite
  apply goes_next
  repeat' first
    | with_reducible assumption
    | with_reducible exact Onward.refl _
    | with_reducible apply onward_guarded
    | with_reducible apply onward_writeHrv

end Sys2Proof.Machine
end

