-- ==== Sys2Proof/Laws/OnwardAccess.lean ====
section
/-!
SUPPORT. Every update of Machine/Access.lean leads onward; every command of it is answered.
-/
set_option Elab.async false

namespace Sys2Proof.Machine

theorem onward_setSnapRun {z : State} (p : Nat) (r : Option SnapRun) (s : State)
    (hz : Onward z s) : Onward z (setSnapRun p r s) := by
  unfold setSnapRun
  repeat' first
    | with_reducible assumption
    | (extract_lets +onlyGivenNames x; clear_value x)
    | with_reducible exact Onward.refl _
    | intro _ _ _
    | intro _ _
    | dsimp only
    | fail_if_no_progress with_reducible apply onward_mk

theorem onward_snapRead {z : State} (p a : Nat) (s : State) (hz : Onward z s) : Onward z (snapRead p a s).1 := by
  unfold snapRead
  repeat' first
    | with_reducible assumption
    | (extract_lets +onlyGivenNames x; clear_value x)
    | with_reducible exact Onward.refl _
    | with_reducible apply onward_setSnapRun
    | with_reducible apply onward_ite
    | intro _ _ _
    | intro _ _
    | split

theorem onward_lockOnRead {z : State} (p a : Nat) (s : State) (hz : Onward z s) : Onward z (lockOnRead p a s) := by
  unfold lockOnRead
  repeat' first
    | with_reducible assumption
    | with_reducible exact Onward.refl _
    | with_reducible apply onward_setLock
    | with_reducible apply onward_ite
    | intro _ _ _
    | intro _ _
    | split

theorem onward_hostRead {z : State} (p a : Nat) (s : State) (hz : Onward z s) : Onward z (hostRead p a s).1 := by
  unfold hostRead
  repeat' first
    | with_reducible assumption
    | (extract_lets +onlyGivenNames x; refine (fun hx : Onward z x.1 => ?_) ?_; (on_goal 1 => clear_value x);
        (on_goal 2 => subst x))
    | with_reducible exact Onward.refl _
    | with_reducible apply onward_endRun
    | with_reducible apply onward_hostFlag
    | with_reducible apply onward_lockOnRead
    | with_reducible apply onward_snapRead
    | with_reducible apply onward_ite
    | intro _ _ _
    | intro _ _
    | split

theorem onward_writeSeam {z : State} (p a : Nat) (d : Word) (s : State)
    (hz : Onward z s) : Onward z (writeSeam p a d s) := by
  unfold writeSeam
  repeat' first
    | with_reducible assumption
    | (extract_lets +onlyGivenNames x; clear_value x)
    | with_reducible exact Onward.refl _
    | with_reducible apply onward_plainWrite
    | with_reducible apply onward_writeSeamCtl
    | with_reducible apply onward_writeSeamOfs
    | with_reducible apply onward_writeSeamRef
    | with_reducible apply onward_ite
    | intro _ _ _
    | intro _ _
    | split

theorem onward_writeSti {z : State} (a : Nat) (d : Word) (s : State)
    (hz : Onward z s) : Onward z (writeSti a d s) := by
  unfold writeSti
  repeat' first
    | with_reducible assumption
    | (extract_lets +onlyGivenNames x; clear_value x)
    | with_reducible exact Onward.refl _
    | with_reducible apply onward_plainWrite
    | with_reducible apply onward_writeStiAdctl
    | with_reducible apply onward_writeStiCmd
    | with_reducible apply onward_writeStiStr
    | with_reducible apply onward_writeStiUcmd
    | with_reducible apply onward_ite
    | intro _ _ _
    | intro _ _
    | split

theorem onward_writeMod {z : State} (a : Nat) (d : Word) (s : State)
    (hz : Onward z s) : Onward z (writeMod a d s) := by
  unfold writeMod
  repeat' first
    | with_reducible assumption
    | (extract_lets +onlyGivenNames x; clear_value x)
    | with_reducible exact Onward.refl _
    | with_reducible apply onward_plainWrite
    | with_reducible apply onward_writeModCar
    | with_reducible apply onward_writeModPh
    | with_reducible apply onward_ite
    | intro _ _ _
    | intro _ _
    | split

theorem onward_writeCtx {z : State} (a : Nat) (d : Word) (s : State)
    (hz : Onward z s) : Onward z (writeCtx a d s) := by
  unfold writeCtx
  repeat' first
    | with_reducible assumption
    | (extract_lets +onlyGivenNames x; clear_value x)
    | with_reducible exact Onward.refl _
    | with_reducible apply onward_plainWrite
    | with_reducible apply onward_writeCtxCtl
    | with_reducible apply onward_writeCtxSp
    | with_reducible apply onward_ite
    | intro _ _ _
    | intro _ _
    | split

theorem onward_writePlt {z : State} (a : Nat) (d : Word) (s : State)
    (hz : Onward z s) : Onward z (writePlt a d s) := by
  unfold writePlt
  repeat' first
    | with_reducible assumption
    | with_reducible exact Onward.refl _
    | with_reducible apply onward_plainWrite
    | with_reducible apply onward_writePltQf
    | with_reducible apply onward_ite

theorem onward_writeAcq {z : State} (a : Nat) (d : Word) (s : State)
    (hz : Onward z s) : Onward z (writeAcq a d s) := by
  unfold writeAcq
  repeat' first
    | with_reducible assumption
    | with_reducible exact Onward.refl _
    | with_reducible apply onward_plainWrite
    | with_reducible apply onward_writeSqctl
    | with_reducible apply onward_writeUgctl
    | with_reducible apply onward_ite

theorem onward_writeWin {z : State} (a : Nat) (d : Word) (s : State)
    (hz : Onward z s) : Onward z (writeWin a d s) := by
  unfold writeWin
  repeat' first
    | with_reducible assumption
    | (extract_lets +onlyGivenNames x; refine (fun hx : Onward z x => ?_) ?_; (on_goal 1 => clear_value x);
        (on_goal 2 => subst x))
    | (extract_lets +onlyGivenNames x; refine (fun hx : Onward z x.1 => ?_) ?_; (on_goal 1 => clear_value x);
        (on_goal 2 => subst x))
    | (extract_lets +onlyGivenNames x; clear_value x)
    | with_reducible exact Onward.refl _
    | with_reducible apply onward_plainWrite
    | with_reducible apply onward_writeWinCtl
    | with_reducible apply onward_writeWinStat
    | with_reducible apply onward_writeWinThr
    | with_reducible apply onward_ite
    | intro _ _ _
    | intro _ _
    | split
    | dsimp only
    | fail_if_no_progress with_reducible apply onward_mk

theorem onward_writeMtr {z : State} (p a : Nat) (d : Word) (s : State)
    (hz : Onward z s) : Onward z (writeMtr p a d s) := by
  unfold writeMtr
  repeat' first
    | with_reducible assumption
    | with_reducible exact Onward.refl _
    | with_reducible apply onward_discarded
    | with_reducible apply onward_plainWrite
    | with_reducible apply onward_writeMtrCtl
    | with_reducible apply onward_writeSeal
    | with_reducible apply onward_ite

theorem onward_writeFlt {z : State} (a : Nat) (d : Word) (met : Bool) (s : State)
    (hz : Onward z s) : Onward z (writeFlt a d met s) := by
  unfold writeFlt
  repeat' first
    | with_reducible assumption
    | with_reducible exact Onward.refl _
    | with_reducible apply onward_plainWrite
    | with_reducible apply onward_writeCrstat
    | with_reducible apply onward_writeFltCmd
    | with_reducible apply onward_ite

theorem onward_writeHst {z : State} (p a : Nat) (d : Word) (s : State)
    (hz : Onward z s) : Onward z (writeHst p a d s) := by
  unfold writeHst
  repeat' first
    | with_reducible assumption
    | with_reducible exact Onward.refl _
    | with_reducible apply onward_plainWrite
    | with_reducible apply onward_writeCan
    | with_reducible apply onward_ite

theorem onward_writeEffect {z : State} (p a : Nat) (d : Word) (met : Bool) (s : State)
    (hz : Onward z s) : Onward z (writeEffect p a d met s) := by
  unfold writeEffect
  repeat' first
    | with_reducible assumption
    | with_reducible exact Onward.refl _
    | with_reducible apply onward_hostPatCtl
    | with_reducible apply onward_plainWrite
    | with_reducible apply onward_writeAcq
    | with_reducible apply onward_writeCtx
    | with_reducible apply onward_writeFabRctl
    | with_reducible apply onward_writeFlt
    | with_reducible apply onward_writeGrdStat
    | with_reducible apply onward_writeHrv
    | with_reducible apply onward_writeHst
    | with_reducible apply onward_writeIdnCmd
    | with_reducible apply onward_writeMod
    | with_reducible apply onward_writeMtr
    | with_reducible apply onward_writeOvl
    | with_reducible apply onward_writePatStream
    | with_reducible apply onward_writePlt
    | with_reducible apply onward_writePwr
    | with_reducible apply onward_writeSafCtl
    | with_reducible apply onward_writeSafCtr
    | with_reducible apply onward_writeSeam
    | with_reducible apply onward_writeSti
    | with_reducible apply onward_writeWin
    | with_reducible apply onward_writeWindow
    | with_reducible apply onward_ite
    | intro _ _ _
    | intro _ _
    | split

theorem onward_hostWrite {z : State} (p a : Nat) (d : Word) (s : State)
    (hz : Onward z s) : Onward z (hostWrite p a d s) := by
  unfold hostWrite
  repeat' first
    | with_reducible assumption
    | with_reducible exact Onward.refl _
    | with_reducible apply onward_guarded
    | with_reducible apply onward_writeEffect

theorem onward_meetWrite {z : State} (p a : Nat) (d hw : Word) (s : State)
    (hz : Onward z s) : Onward z (meetWrite p a d hw s) := by
  unfold meetWrite
  repeat' first
    | with_reducible assumption
    | (extract_lets +onlyGivenNames x; refine (fun hx : Onward z x => ?_) ?_; (on_goal 1 => clear_value x);
        (on_goal 2 => subst x))
    | (extract_lets +onlyGivenNames x; clear_value x)
    | with_reducible exact Onward.refl _
    | with_reducible apply onward_hostFlag
    | with_reducible apply onward_newTrip
    | with_reducible apply onward_writeEffect
    | with_reducible apply onward_ite

end Sys2Proof.Machine
end

