-- ==== Sys2Proof/Laws/Gate.lean ====
section
/-!
SUPPORT. Laws of the ports: what a word that is accepted does, what ending a SNAP run leaves, and what a read answers.
-/
set_option Elab.async false

namespace Sys2Proof.Machine

variable (s : State) (p a : Nat)

/-! ### The end of a SNAP run touches nothing else -/

@[simp] theorem endRun_regs : (endRun p s).regs = s.regs := rfl
@[simp] theorem endRun_word : (endRun p s).word a = s.word a := rfl
@[simp] theorem endRun_get (f : Field) : (endRun p s).get f = s.get f := rfl
@[simp] theorem endRun_on (f : Field) : (endRun p s).on f = s.on f := rfl
@[simp] theorem endRun_part : (endRun p s).part = s.part := rfl
@[simp] theorem endRun_queue : (endRun p s).host.queue = s.host.queue := rfl
@[simp] theorem endRun_holdWait : (endRun p s).host.holdWait = s.host.holdWait := rfl
@[simp] theorem endRun_domOn (n : Nat) : domOn (endRun p s) n = domOn s n := rfl
@[simp] theorem endRun_absent : absent (endRun p s) a = absent s a := rfl

/-- A word that is not the front of its port's queue leaves the queue alone. -/
theorem takeWord_none (d : Word) (h : s.host.queue.find? (fun w => w.port == p) = none) : takeWord p a d s = s := by
  unfold takeWord; rw [h]

/-- A word that is accepted has its register's effect, after the SNAP run of its port has ended. -/
theorem guarded_accepts (d : Word) (eff : State → State) (h : Accepts s p a) :
    guarded p a d eff s = eff (endRun p s) := by
  obtain ⟨h1, h2, h3, h4, h5, h6⟩ := h
  have e : takeWord p a d (endRun p s) = endRun p s := takeWord_none _ _ _ _ h6
  simp only [guarded, h1, e, if_true, endRun_absent, h2, endRun_domOn, h3, endRun_on, h4, h5]
  simp

end Sys2Proof.Machine
end

