-- ==== Sys2Proof/Laws/Frames.lean ====
section
/-!
SUPPORT. What the shared operations on the links and the seams leave alone: the words of registers they do not name.
-/
set_option Elab.async false

namespace Sys2Proof.Machine

/-! ### Building a frame, write by write -/

theorem RegsOutside.refl (as : List Nat) (s : State) : RegsOutside as s s := fun _ _ => rfl

theorem RegsOutside.setWord {as : List Nat} {s t : State} (h : RegsOutside as s t) (a : Nat) (w : Word) (ha : a ∈ as) :
    RegsOutside as s (t.setWord a w) := fun b hb =>
  (word_setWord_ne t a b w (fun e => hb (e ▸ ha))).trans (h b hb)

theorem RegsOutside.put {as : List Nat} {s t : State} (h : RegsOutside as s t) (f : Field) (v : Nat) (ha : f.addr ∈ as) :
    RegsOutside as s (t.put f v) := h.setWord _ _ ha

theorem RegsOutside.flag {as : List Nat} {s t : State} (h : RegsOutside as s t) (f : Field) (v : Bool) (ha : f.addr ∈ as) :
    RegsOutside as s (t.flag f v) := h.put _ _ ha

theorem RegsOutside.inc {as : List Nat} {s t : State} (h : RegsOutside as s t) (f : Field) (ha : f.addr ∈ as) :
    RegsOutside as s (t.inc f) := h.put _ _ ha

theorem RegsOutside.of_regs {as : List Nat} {s t u : State} (h : RegsOutside as s t) (e : u.regs = t.regs) :
    RegsOutside as s u := fun a ha => (word_congr e a).trans (h a ha)

theorem PortRegs.refl (p : Nat) (as : List Nat) (s : State) : PortRegs p as s (endRun p s) := ⟨rfl, fun _ _ => rfl⟩

theorem PortRegs.setWord {p : Nat} {as : List Nat} {s t : State} (h : PortRegs p as s t) (a : Nat) (w : Word) (ha : a ∈ as) :
    PortRegs p as s (t.setWord a w) := by
  refine ⟨?_, h.2.setWord a w ha⟩
  conv_lhs => rw [h.1]
  rfl

theorem PortRegs.put {p : Nat} {as : List Nat} {s t : State} (h : PortRegs p as s t) (f : Field) (v : Nat)
    (ha : f.addr ∈ as) : PortRegs p as s (t.put f v) := h.setWord _ _ ha

theorem PortRegs.flag {p : Nat} {as : List Nat} {s t : State} (h : PortRegs p as s t) (f : Field) (v : Bool)
    (ha : f.addr ∈ as) : PortRegs p as s (t.flag f v) := h.put _ _ ha

theorem PortRegs.inc {p : Nat} {as : List Nat} {s t : State} (h : PortRegs p as s t) (f : Field)
    (ha : f.addr ∈ as) : PortRegs p as s (t.inc f) := h.put _ _ ha

theorem OnlyRegs.refl (as : List Nat) (s : State) : OnlyRegs as s s := ⟨rfl, fun _ _ => rfl⟩

theorem OnlyRegs.setWord {as : List Nat} {s t : State} (h : OnlyRegs as s t) (a : Nat) (w : Word) (ha : a ∈ as) :
    OnlyRegs as s (t.setWord a w) := by
  refine ⟨?_, h.2.setWord a w ha⟩
  conv_lhs => rw [h.1]
  rfl

theorem OnlyRegs.put {as : List Nat} {s t : State} (h : OnlyRegs as s t) (f : Field) (v : Nat)
    (ha : f.addr ∈ as) : OnlyRegs as s (t.put f v) := h.setWord _ _ ha

theorem OnlyRegs.flag {as : List Nat} {s t : State} (h : OnlyRegs as s t) (f : Field) (v : Bool)
    (ha : f.addr ∈ as) : OnlyRegs as s (t.flag f v) := h.put _ _ ha

theorem OnlyRegs.inc {as : List Nat} {s t : State} (h : OnlyRegs as s t) (f : Field)
    (ha : f.addr ∈ as) : OnlyRegs as s (t.inc f) := h.put _ _ ha

/-! ### Loops and choices -/

/-- What every round of a loop leaves alone, the loop leaves alone. -/
theorem forL_keeps {α β : Type} (g : State → β) (l : List α) (f : α → State → State) (s : State)
    (h : ∀ x b, g (f x b) = g b) : g (forL l f s) = g s := by
  unfold forL
  induction l generalizing s with
  | nil => rfl
  | cons x t ih => rw [List.foldl_cons, ih, h]

theorem regs_setDielet (s : State) (n : Nat) (d : Dielet) : (setDielet s n d).regs = s.regs := rfl
theorem regs_setLink (s : State) (n : Nat) (l : LinkEnd) : (setLink s n l).regs = s.regs := rfl

/-- OFF on one link touches that link and its dielet alone. -/
theorem driveOff_keeps {β : Type} (g : State → β) (n : Nat) (b : State) (hd : ∀ x d, g (setDielet x n d) = g x)
    (hl : ∀ x l, g (setLink x n l) = g x) : g (driveOff n b) = g b := by
  unfold driveOff hearOff gatesOff
  refine Eq.trans ?_ (hl b { link b n with cmd := 0 })
  split
  · rfl
  · split <;> first | exact hd _ _ | rfl

theorem regs_driveOff (n : Nat) (s : State) : (driveOff n s).regs = s.regs :=
  driveOff_keeps State.regs n s (fun _ _ => rfl) (fun _ _ => rfl)

theorem word_setView (n st c a : Nat) (s : State) (h : a ≠ R.STI_STATE n) : (setView n st c s).word a = s.word a := by
  unfold setView; rw [word_put_ne _ _ _ _ h, word_put_ne _ _ _ _ h]

theorem keeps_ite {β : Type} (g : State → β) {c : Prop} [Decidable c] {x y : State} {v : β} (hx : g x = v) (hy : g y = v) :
    g (if c then x else y) = v := by split <;> assumption

/-- SEAM_STATE apart, the enables in effect show in no register. -/
theorem word_syncEnables (a : Nat) (s : State) (h : ∀ n, a ≠ R.SEAM_STATE n) : (syncEnables s).word a = s.word a := by
  unfold syncEnables
  exact forL_keeps (State.word · a) _ _ _ (fun n _ => keeps_ite (State.word · a) rfl (word_flag_ne _ _ _ _ (h n)))


theorem enabled_setView (n st c : Nat) (s : State) : (setView n st c s).enabled = s.enabled := by
  unfold setView; simp only [put_enabled]
theorem enabled_setDielet (s : State) (n : Nat) (d : Dielet) : (setDielet s n d).enabled = s.enabled := by
  unfold setDielet; rfl

theorem enabled_syncEnables (s : State) : (syncEnables s).enabled = s.enabled := by
  unfold syncEnables
  exact forL_keeps State.enabled _ _ _ (fun _ _ => keeps_ite State.enabled rfl (flag_enabled _ _ _))

/-- A seam that is no longer enabled in effect: what its stitch keeps. -/
theorem leaveRun_keeps {β : Type} (g : State → β) (n : Nat) (b : State) (hd : ∀ x d, g (setDielet x n d) = g x)
    (hl : ∀ x l, g (setLink x n l) = g x) (hv : ∀ x st c, g (setView n st c x) = g x) :
    g (let b1 := driveOff n b
       let d := dielet b1 n
       let c := if d.st = .run then setDielet b1 n { d with st := .idle } else b1
       if c.get (R.STI_STATE_STATE n) = stRUN then setView n stIDLE 0 c else c) = g b := by
  have e1 : g (driveOff n b) = g b := driveOff_keeps g n b hd hl
  have e2 : g (if (dielet (driveOff n b) n).st = .run then
      setDielet (driveOff n b) n { dielet (driveOff n b) n with st := .idle } else driveOff n b) = g b :=
    keeps_ite g ((hd _ _).trans e1) e1
  exact keeps_ite g ((hv _ _ _).trans e2) e2

/-- An enable that falls touches SEAM_STATE and STI_STATE words alone. -/
theorem word_afterEnableFall (a : Nat) (s : State) (h : ∀ n, a ≠ R.SEAM_STATE n) (h' : ∀ n, a ≠ R.STI_STATE n) :
    (afterEnableFall s).word a = s.word a := by
  unfold afterEnableFall
  refine Eq.trans (forL_keeps (State.word · a) _ _ _ (fun n b => keeps_ite (State.word · a) rfl ?_)) (word_syncEnables a s h)
  exact leaveRun_keeps (State.word · a) n b (fun _ _ => rfl) (fun _ _ => rfl) (fun _ _ _ => word_setView _ _ _ _ _ (h' n))

theorem enabled_afterEnableFall (s : State) : (afterEnableFall s).enabled = s.enabled := by
  unfold afterEnableFall
  refine Eq.trans (forL_keeps State.enabled _ _ _ (fun n b => keeps_ite State.enabled rfl ?_)) (enabled_syncEnables s)
  exact leaveRun_keeps State.enabled n b (fun _ _ => enabled_setDielet _ _ _) (fun _ _ => rfl) (fun _ _ _ => enabled_setView _ _ _ _)

end Sys2Proof.Machine
end

