-- ==== Sys2Proof/Laws/Meter.lean ====
section
/-!
SUPPORT. Laws of metering: the square root, and the exact judgement of a no-load window.
-/
set_option Elab.async false

namespace Sys2Proof.Machine

/-- With the root between `r` and `r + 2^k`, the lower `k` bits are found one after another. -/
theorem rootBits_bounds (n : Nat) : ∀ k r, r * r ≤ n → n < (r + 2 ^ k) * (r + 2 ^ k) →
    rootBits n k r * rootBits n k r ≤ n ∧ n < (rootBits n k r + 1) * (rootBits n k r + 1)
  | 0, r, h, g => by simpa [rootBits] using ⟨h, g⟩
  | k + 1, r, h, g => by
    unfold rootBits
    split
    · rename_i c
      refine rootBits_bounds n k _ c ?_
      have e : r + 2 ^ k + 2 ^ k = r + 2 ^ (k + 1) := by rw [pow_succ]; ring
      rw [e]; exact g
    · rename_i c
      exact rootBits_bounds n k r h (by omega)

/-- What a square root is: the greatest whole number whose square is at most `n`. -/
theorem rootFloor_bounds (n : Nat) : rootFloor n * rootFloor n ≤ n ∧ n < (rootFloor n + 1) * (rootFloor n + 1) := by
  refine rootBits_bounds n _ 0 (by simp) ?_
  have h := @Nat.lt_log2_self n
  have e : n.log2 + 1 ≤ (n.log2 / 2 + 1) + (n.log2 / 2 + 1) := by omega
  calc n < 2 ^ (n.log2 + 1) := h
    _ ≤ 2 ^ ((n.log2 / 2 + 1) + (n.log2 / 2 + 1)) := Nat.pow_le_pow_right (by norm_num) e
    _ = _ := by rw [pow_add]; simp
/-- R209 as an inequality of squares. -/
theorem noLoad_iff (w : MtrWin) (g : Int) (nlth : Nat) : noLoad w g nlth = true ↔
    (524288 + g) ^ 2 * (w.vv * w.ii) * 3600 ^ 2 < ((nlth : Int) * 25 * 2 ^ 97 * w.n) ^ 2 := by
  unfold noLoad
  rw [decide_eq_true_eq]
  push_cast
  constructor <;> intro h <;> linarith [h]

/-- Without a phase correction the series is exact: cos 0 = 1 and sin 0 = 0. -/
theorem trig_zero : cosNum 0 = trigDen ∧ sinNum 0 = 0 := by decide +kernel

end Sys2Proof.Machine
end

