-- ==== Sys2Proof/Laws/OnwardHost.lean ====
section
/-!
SUPPORT. Every update of Machine/Host.lean leads onward; every command of it is answered.
-/
set_option Elab.async false

namespace Sys2Proof.Machine

theorem onward_frameEnd {z : State} (errs : List FrameError) (words : List Word) (trailer : Option Nat) (s : State)
    (hz : Onward z s) : Onward z (frameEnd errs words trailer s) := by
  unfold frameEnd
  repeat' first
    | with_reducible assumption
    | (extract_lets +onlyGivenNames x; refine (fun hx : Onward z x => ?_) ?_; (on_goal 1 => clear_value x);
        (on_goal 2 => subst x))
    | (extract_lets +onlyGivenNames x; clear_value x)
    | with_reducible exact Onward.refl _
    | with_reducible apply onward_errorResponse
    | intro _ _ _
    | intro _ _
    | split
    | dsimp only
    | fail_if_no_progress with_reducible apply onward_mk

theorem onward_readBurst {z : State} (p a n : Nat) (s : State)
    (hz : Onward z s) : Onward z (readBurst p a n s).1 := by
  unfold readBurst
  repeat' first
    | with_reducible assumption
    | (extract_lets +onlyGivenNames x; refine (fun hx : Onward z x.1 => ?_) ?_; (on_goal 1 => clear_value x);
        (on_goal 2 => subst x))
    | with_reducible exact Onward.refl _
    | with_reducible apply onward_hostRead
    | with_reducible apply onward_foldl
    | with_reducible apply onward_foldl_fst
    | intro _ _ _

theorem onward_readFrame {z : State} (sent : List Byte) (out : Nat) (s : State)
    (hz : Onward z s) : Onward z (readFrame sent out s) := by
  unfold readFrame
  repeat' first
    | with_reducible assumption
    | (extract_lets +onlyGivenNames x; refine (fun hx : Onward z x.1 => ?_) ?_; (on_goal 1 => clear_value x);
        (on_goal 2 => subst x))
    | (extract_lets +onlyGivenNames x; clear_value x)
    | with_reducible exact Onward.refl _
    | with_reducible apply onward_frameEnd
    | with_reducible apply onward_readBurst
    | with_reducible apply onward_ite
    | intro _ _ _
    | intro _ _
    | split

theorem onward_readCrcFrame {z : State} (sent : List Byte) (out : Nat) (s : State)
    (hz : Onward z s) : Onward z (readCrcFrame sent out s) := by
  unfold readCrcFrame
  repeat' first
    | with_reducible assumption
    | (extract_lets +onlyGivenNames x; refine (fun hx : Onward z x => ?_) ?_; (on_goal 1 => clear_value x);
        (on_goal 2 => subst x))
    | (extract_lets +onlyGivenNames x; refine (fun hx : Onward z x.1 => ?_) ?_; (on_goal 1 => clear_value x);
        (on_goal 2 => subst x))
    | (extract_lets +onlyGivenNames x; clear_value x)
    | with_reducible exact Onward.refl _
    | with_reducible apply onward_frameEnd
    | with_reducible apply onward_hostFlag
    | with_reducible apply onward_readBurst
    | with_reducible apply onward_ite
    | intro _ _ _
    | intro _ _
    | split
    | dsimp only
    | fail_if_no_progress with_reducible apply onward_mk

theorem onward_queueWord {z : State} (p a : Nat) (d : Word) (s : State)
    (hz : Onward z s) : Onward z (queueWord p a d s).1 := by
  unfold queueWord
  repeat' first
    | with_reducible assumption
    | (extract_lets +onlyGivenNames x; clear_value x)
    | with_reducible exact Onward.refl _
    | with_reducible apply onward_discarded
    | with_reducible apply onward_syncQueue
    | with_reducible apply onward_ite
    | intro _ _ _
    | intro _ _
    | split
    | dsimp only
    | fail_if_no_progress with_reducible apply onward_mk

theorem onward_queueWords {z : State} (fixed : Bool) (a : Nat) (ws : List Word) (s : State)
    (hz : Onward z s) : Onward z (queueWords fixed a ws s).1 := by
  unfold queueWords
  repeat' first
    | with_reducible assumption
    | (extract_lets +onlyGivenNames x; refine (fun hx : Onward z x.1 => ?_) ?_; (on_goal 1 => clear_value x);
        (on_goal 2 => subst x))
    | (extract_lets +onlyGivenNames x; clear_value x)
    | with_reducible exact Onward.refl _
    | with_reducible apply onward_queueWord
    | with_reducible apply onward_ite
    | with_reducible apply onward_foldl
    | with_reducible apply onward_foldl_fst
    | intro _ _ _

theorem onward_writeFrame {z : State} (fixed : Bool) (sent : List Byte) (half : Bool) (s : State)
    (hz : Onward z s) : Onward z (writeFrame fixed sent half s) := by
  unfold writeFrame
  repeat' first
    | with_reducible assumption
    | (extract_lets +onlyGivenNames x; refine (fun hx : Onward z x.1 => ?_) ?_; (on_goal 1 => clear_value x);
        (on_goal 2 => subst x))
    | (extract_lets +onlyGivenNames x; clear_value x)
    | with_reducible exact Onward.refl _
    | with_reducible apply onward_frameEnd
    | with_reducible apply onward_queueWords
    | with_reducible apply onward_ite
    | intro _ _ _
    | intro _ _
    | split

theorem onward_writeCrcFrame {z : State} (fixed : Bool) (op : Byte) (sent : List Byte) (half : Bool) (s : State)
    (hz : Onward z s) : Onward z (writeCrcFrame fixed op sent half s) := by
  unfold writeCrcFrame
  repeat' first
    | with_reducible assumption
    | (extract_lets +onlyGivenNames x; refine (fun hx : Onward z x.1 => ?_) ?_; (on_goal 1 => clear_value x);
        (on_goal 2 => subst x))
    | (extract_lets +onlyGivenNames x; clear_value x)
    | with_reducible exact Onward.refl _
    | with_reducible apply onward_frameEnd
    | with_reducible apply onward_hostFlag
    | with_reducible apply onward_queueWords
    | with_reducible apply onward_ite
    | intro _ _ _
    | intro _ _
    | split

theorem goes_onPort (s t : State) (h : Onward s t) : Goes s (onPort s t) := by
  unfold onPort
  apply goes_next
  split
  · exact h
  · exact Onward.refl s


theorem goes_execRead (sent : List Byte) (out : Nat) (s : State) : Goes s (execRead sent out s) := by
  unfold execRead
  apply goes_onPort
  repeat' first
    | with_reducible assumption
    | with_reducible exact Onward.refl _
    | with_reducible apply onward_readFrame

theorem goes_execReadCrc (sent : List Byte) (out : Nat) (s : State) : Goes s (execReadCrc sent out s) := by
  unfold execReadCrc
  apply goes_onPort
  repeat' first
    | with_reducible assumption
    | with_reducible exact Onward.refl _
    | with_reducible apply onward_readCrcFrame

theorem goes_execWrite (sent : List Byte) (half : Bool) (s : State) : Goes s (execWrite sent half s) := by
  unfold execWrite
  apply goes_onPort
  repeat' first
    | with_reducible assumption
    | with_reducible exact Onward.refl _
    | with_reducible apply onward_writeFrame

theorem goes_execWriteCrc (sent : List Byte) (half : Bool) (s : State) : Goes s (execWriteCrc sent half s) := by
  unfold execWriteCrc
  apply goes_onPort
  repeat' first
    | with_reducible assumption
    | with_reducible exact Onward.refl _
    | with_reducible apply onward_writeCrcFrame

theorem goes_execWriteFixed (sent : List Byte) (half : Bool) (s : State) : Goes s (execWriteFixed sent half s) := by
  unfold execWriteFixed
  apply goes_onPort
  repeat' first
    | with_reducible assumption
    | with_reducible exact Onward.refl _
    | with_reducible apply onward_writeFrame

theorem goes_execWriteFixedCrc (sent : List Byte) (half : Bool) (s : State) :
    Goes s (execWriteFixedCrc sent half s) := by
  unfold execWriteFixedCrc
  apply goes_onPort
  repeat' first
    | with_reducible assumption
    | with_reducible exact Onward.refl _
    | with_reducible apply onward_writeCrcFrame

theorem onward_statusFrame {z : State} (s : State) (hz : Onward z s) : Onward z (statusFrame s) := by
  unfold statusFrame
  repeat' first
    | with_reducible assumption
    | with_reducible exact Onward.refl _
    | with_reducible apply onward_frameEnd

theorem onward_statusCrcFrame {z : State} (s : State) (hz : Onward z s) : Onward z (statusCrcFrame s) := by
  unfold statusCrcFrame
  repeat' first
    | with_reducible assumption
    | (extract_lets +onlyGivenNames x; clear_value x)
    | with_reducible exact Onward.refl _
    | with_reducible apply onward_frameEnd

theorem onward_wholeFrame {z : State} (f : HostFrame) (s : State) (hz : Onward z s) : Onward z (wholeFrame f s) := by
  unfold wholeFrame
  repeat' first
    | with_reducible assumption
    | with_reducible exact Onward.refl _
    | with_reducible apply onward_frameEnd
    | with_reducible apply onward_readCrcFrame
    | with_reducible apply onward_readFrame
    | with_reducible apply onward_statusCrcFrame
    | with_reducible apply onward_statusFrame
    | with_reducible apply onward_writeCrcFrame
    | with_reducible apply onward_writeFrame
    | intro _ _ _
    | intro _ _
    | split
    | dsimp only
    | fail_if_no_progress with_reducible apply onward_mk

theorem goes_execStatus (op : Option HostFrame) (s : State) : Goes s (execStatus op s) := by
  unfold execStatus
  apply goes_onPort
  repeat' first
    | with_reducible assumption
    | with_reducible exact Onward.refl _
    | with_reducible apply onward_frameEnd
    | with_reducible apply onward_wholeFrame
    | intro _ _ _
    | intro _ _
    | split
    | dsimp only
    | fail_if_no_progress with_reducible apply onward_mk

theorem goes_execStatusCrc (s : State) : Goes s (execStatusCrc s) := by
  unfold execStatusCrc
  apply goes_onPort
  repeat' first
    | with_reducible assumption
    | with_reducible exact Onward.refl _
    | with_reducible apply onward_statusCrcFrame

theorem onward_performOldest {z : State} (s : State) (hz : Onward z s) : Onward z (performOldest s) := by
  unfold performOldest
  repeat' first
    | with_reducible assumption
    | (extract_lets +onlyGivenNames x; refine (fun hx : Onward z x => ?_) ?_; (on_goal 1 => clear_value x);
        (on_goal 2 => subst x))
    | (extract_lets +onlyGivenNames x; refine (fun hx : Onward z x.1 => ?_) ?_; (on_goal 1 => clear_value x);
        (on_goal 2 => subst x))
    | (extract_lets +onlyGivenNames x; clear_value x)
    | with_reducible exact Onward.refl _
    | with_reducible apply onward_hostWrite
    | with_reducible apply onward_settleWrites
    | with_reducible apply onward_takeWord
    | with_reducible apply onward_ite
    | intro _ _ _
    | intro _ _
    | split
    | dsimp only
    | fail_if_no_progress with_reducible apply onward_mk

theorem onward_idleCycle {z : State} (s : State) (hz : Onward z s) : Onward z (idleCycle s) := by
  unfold idleCycle
  repeat' first
    | with_reducible assumption
    | with_reducible exact Onward.refl _
    | with_reducible apply onward_pass
    | with_reducible apply onward_performOldest

theorem goes_execHostRegisterWrite (addr : BitVec 24) (w : PortWrite) (hw : Word) (s : State) :
    Goes s (execHostRegisterWrite addr w hw s) := by
  unfold execHostRegisterWrite
  apply goes_next
  repeat' first
    | with_reducible assumption
    | with_reducible exact Onward.refl _
    | with_reducible apply onward_guarded
    | with_reducible apply onward_meetWrite
    | intro _ _ _
    | intro _ _
    | dsimp only
    | fail_if_no_progress with_reducible apply onward_mk

theorem onward_portRead {z : State} (p a : Nat) (s : State) (hz : Onward z s) : Onward z (portRead p a s) := by
  unfold portRead
  repeat' first
    | with_reducible assumption
    | (extract_lets +onlyGivenNames x; refine (fun hx : Onward z x => ?_) ?_; (on_goal 1 => clear_value x);
        (on_goal 2 => subst x))
    | (extract_lets +onlyGivenNames x; refine (fun hx : Onward z x.1 => ?_) ?_; (on_goal 1 => clear_value x);
        (on_goal 2 => subst x))
    | (extract_lets +onlyGivenNames x; clear_value x)
    | with_reducible exact Onward.refl _
    | with_reducible apply onward_hostRead
    | with_reducible apply onward_ite
    | intro _ _ _
    | intro _ _
    | split
    | dsimp only
    | fail_if_no_progress with_reducible apply onward_mk

theorem goes_execSeamStateRead (n : Fin 64) (port : Nat) (s : State) : Goes s (execSeamStateRead n port s) := by
  unfold execSeamStateRead
  apply goes_next
  repeat' first
    | with_reducible assumption
    | with_reducible exact Onward.refl _
    | with_reducible apply onward_portRead

theorem goes_execStiTel0Read (n : Fin 96) (port : Nat) (s : State) : Goes s (execStiTel0Read n port s) := by
  unfold execStiTel0Read
  apply goes_next
  repeat' first
    | with_reducible assumption
    | with_reducible exact Onward.refl _
    | with_reducible apply onward_portRead

theorem goes_execMtrLongLoRead (ch : Fin 4) (q : Fin 7) (port : Nat) (s : State) :
    Goes s (execMtrLongLoRead ch q port s) := by
  unfold execMtrLongLoRead
  apply goes_next
  repeat' first
    | with_reducible assumption
    | with_reducible exact Onward.refl _
    | with_reducible apply onward_portRead

theorem goes_execMtrIntRead (ch : Fin 4) (q : Fin 7) (port : Nat) (s : State) :
    Goes s (execMtrIntRead ch q port s) := by
  unfold execMtrIntRead
  apply goes_next
  repeat' first
    | with_reducible assumption
    | with_reducible exact Onward.refl _
    | with_reducible apply onward_portRead

theorem goes_execFltLogRead (k : Fin 256) (port : Nat) (s : State) : Goes s (execFltLogRead k port s) := by
  unfold execFltLogRead
  apply goes_next
  repeat' first
    | with_reducible assumption
    | with_reducible exact Onward.refl _
    | with_reducible apply onward_portRead

theorem goes_execOvlResLoRead (u : Fin 16) (port : Nat) (s : State) : Goes s (execOvlResLoRead u port s) := by
  unfold execOvlResLoRead
  apply goes_next
  repeat' first
    | with_reducible assumption
    | with_reducible exact Onward.refl _
    | with_reducible apply onward_portRead

theorem goes_execRtcRead (port : Nat) (s : State) : Goes s (execRtcRead port s) := by
  unfold execRtcRead
  apply goes_next
  repeat' first
    | with_reducible assumption
    | with_reducible exact Onward.refl _
    | with_reducible apply onward_portRead

theorem goes_execMbStatRead (b : Fin 2) (m : Fin 32) (port : Nat) (s : State) :
    Goes s (execMbStatRead b m port s) := by
  unfold execMbStatRead
  apply goes_next
  repeat' first
    | with_reducible assumption
    | with_reducible exact Onward.refl _
    | with_reducible apply onward_portRead

theorem goes_execFabAgreeRead (port : Nat) (s : State) : Goes s (execFabAgreeRead port s) := by
  unfold execFabAgreeRead
  apply goes_next
  repeat' first
    | with_reducible assumption
    | with_reducible exact Onward.refl _
    | with_reducible apply onward_portRead

theorem onward_svcRequest {z : State} (b : Nat) (fdf : Bool) (bytes : List Byte) (s : State)
    (hz : Onward z s) : Onward z (svcRequest b fdf bytes s) := by
  unfold svcRequest
  repeat' first
    | with_reducible assumption
    | (extract_lets +onlyGivenNames x; refine (fun hx : Onward z x => ?_) ?_; (on_goal 1 => clear_value x);
        (on_goal 2 => subst x))
    | (extract_lets +onlyGivenNames x; refine (fun hx : Onward z x.1 => ?_) ?_; (on_goal 1 => clear_value x);
        (on_goal 2 => subst x))
    | (extract_lets +onlyGivenNames x; clear_value x)
    | with_reducible exact Onward.refl _
    | with_reducible apply onward_inc
    | with_reducible apply onward_readBurst
    | with_reducible apply onward_setCanBus
    | with_reducible apply onward_ite
    | intro _ _ _
    | intro _ _
    | split

theorem goes_execCanSvcRequest (b : Fin 2) (fdf : Bool) (bytes : List Byte) (s : State) :
    Goes s (execCanSvcRequest b fdf bytes s) := by
  unfold execCanSvcRequest
  apply goes_next
  repeat' first
    | with_reducible assumption
    | with_reducible exact Onward.refl _
    | with_reducible apply onward_svcRequest
    | with_reducible apply onward_ite
    | intro _ _ _
    | intro _ _
    | split
    | dsimp only
    | fail_if_no_progress with_reducible apply onward_mk

theorem onward_offerFrame {z : State} (b : Nat) (f : CanFrame) (s : State)
    (hz : Onward z s) : Onward z (offerFrame b f s) := by
  unfold offerFrame
  repeat' first
    | with_reducible assumption
    | (extract_lets +onlyGivenNames x; clear_value x)
    | with_reducible exact Onward.refl _
    | with_reducible apply onward_hemFrame
    | with_reducible apply onward_inc
    | with_reducible apply onward_offerMailboxes
    | with_reducible apply onward_setCanBus
    | with_reducible apply onward_svcRequest
    | with_reducible apply onward_ite
    | intro _ _ _
    | intro _ _
    | split

theorem goes_execCanFrameRx (b : Fin 2) (f : CanFrame) (s : State) : Goes s (execCanFrameRx b f s) := by
  unfold execCanFrameRx
  apply goes_next
  repeat' first
    | with_reducible assumption
    | (extract_lets +onlyGivenNames x; refine (fun hx : Onward s x => ?_) ?_; (on_goal 1 => clear_value x);
        (on_goal 2 => subst x))
    | (extract_lets +onlyGivenNames x; refine (fun hx : Onward s x.1 => ?_) ?_; (on_goal 1 => clear_value x);
        (on_goal 2 => subst x))
    | (extract_lets +onlyGivenNames x; clear_value x)
    | with_reducible exact Onward.refl _
    | with_reducible apply onward_canIdle
    | with_reducible apply onward_errorState
    | with_reducible apply onward_offerFrame
    | with_reducible apply onward_put
    | with_reducible apply onward_setCanBus
    | with_reducible apply onward_ite
    | intro _ _ _
    | intro _ _
    | split
    | dsimp only
    | fail_if_no_progress with_reducible apply onward_mk

end Sys2Proof.Machine
end

