-- ==== Sys2Proof/Laws/OnwardFabricRx.lean ====
section
/-!
SUPPORT. Every update of Machine/FabricRx.lean leads onward; every command of it is answered.
-/
set_option Elab.async false

namespace Sys2Proof.Machine

theorem onward_sendNack {z : State} (reason : Nat) (m : FabMsg) (s : State)
    (hz : Onward z s) : Onward z (sendNack reason m s) := by
  unfold sendNack
  repeat' first
    | with_reducible assumption
    | with_reducible exact Onward.refl _
    | with_reducible apply onward_sendRouted
    | with_reducible apply onward_ite
    | intro _ _ _
    | intro _ _
    | split
    | dsimp only
    | fail_if_no_progress with_reducible apply onward_mk

theorem onward_notePeer {z : State} (p : Nat) (m : FabMsg) (s : State)
    (hz : Onward z s) : Onward z (notePeer p m s) := by
  unfold notePeer
  repeat' first
    | with_reducible assumption
    | with_reducible exact Onward.refl _
    | with_reducible apply onward_put

theorem onward_takeBind {z : State} (p : Nat) (m : FabMsg) (s : State)
    (hz : Onward z s) : Onward z (takeBind p m s) := by
  unfold takeBind
  repeat' first
    | with_reducible assumption
    | (extract_lets +onlyGivenNames x; refine (fun hx : Onward z x => ?_) ?_; (on_goal 1 => clear_value x);
        (on_goal 2 => subst x))
    | (extract_lets +onlyGivenNames x; clear_value x)
    | with_reducible exact Onward.refl _
    | with_reducible apply onward_put
    | with_reducible apply onward_sendLocal
    | with_reducible apply onward_ite

theorem onward_takeBack {z : State} (p : Nat) (m : FabMsg) (s : State)
    (hz : Onward z s) : Onward z (takeBack p m s) := by
  unfold takeBack
  repeat' first
    | with_reducible assumption
    | (extract_lets +onlyGivenNames x; refine (fun hx : Onward z x => ?_) ?_; (on_goal 1 => clear_value x);
        (on_goal 2 => subst x))
    | (extract_lets +onlyGivenNames x; clear_value x)
    | with_reducible exact Onward.refl _
    | with_reducible apply onward_flag
    | with_reducible apply onward_put
    | with_reducible apply onward_sendRoutes
    | with_reducible apply onward_syncRoutes
    | with_reducible apply onward_ite
    | intro _ _ _
    | intro _ _
    | split
    | dsimp only
    | fail_if_no_progress with_reducible apply onward_mk

theorem onward_takeLocal {z : State} (p : Nat) (m : FabMsg) (s : State)
    (hz : Onward z s) : Onward z (takeLocal p m s) := by
  unfold takeLocal
  repeat' first
    | with_reducible assumption
    | (extract_lets +onlyGivenNames x; refine (fun hx : Onward z x => ?_) ?_; (on_goal 1 => clear_value x);
        (on_goal 2 => subst x))
    | (extract_lets +onlyGivenNames x; refine (fun hx : Onward z x.1 => ?_) ?_; (on_goal 1 => clear_value x);
        (on_goal 2 => subst x))
    | (extract_lets +onlyGivenNames x; clear_value x)
    | with_reducible exact Onward.refl _
    | with_reducible apply onward_claimRole
    | with_reducible apply onward_joinStep
    | with_reducible apply onward_notePeer
    | with_reducible apply onward_setFabPort
    | with_reducible apply onward_syncRoutes
    | with_reducible apply onward_takeBack
    | with_reducible apply onward_takeBind
    | with_reducible apply onward_ite
    | intro _ _ _
    | intro _ _
    | split
    | dsimp only
    | fail_if_no_progress with_reducible apply onward_mk

theorem onward_noteSeq {z : State} (m : FabMsg) (s : State) (hz : Onward z s) : Onward z (noteSeq m s) := by
  unfold noteSeq
  repeat' first
    | with_reducible assumption
    | (extract_lets +onlyGivenNames x; clear_value x)
    | with_reducible exact Onward.refl _
    | intro _ _ _
    | intro _ _
    | dsimp only
    | fail_if_no_progress with_reducible apply onward_mk

theorem onward_takeDigest {z : State} (m : FabMsg) (s : State) (hz : Onward z s) : Onward z (takeDigest m s) := by
  unfold takeDigest
  repeat' first
    | with_reducible assumption
    | (extract_lets +onlyGivenNames x; clear_value x)
    | with_reducible exact Onward.refl _
    | with_reducible apply onward_syncAgree
    | intro _ _ _
    | intro _ _
    | dsimp only
    | fail_if_no_progress with_reducible apply onward_mk

theorem onward_takeLinkref {z : State} (m : FabMsg) (s : State) (hz : Onward z s) : Onward z (takeLinkref m s) := by
  unfold takeLinkref
  repeat' first
    | with_reducible assumption
    | (extract_lets +onlyGivenNames x; refine (fun hx : Onward z x => ?_) ?_; (on_goal 1 => clear_value x);
        (on_goal 2 => subst x))
    | (extract_lets +onlyGivenNames x; refine (fun hx : Onward z x.1 => ?_) ?_; (on_goal 1 => clear_value x);
        (on_goal 2 => subst x))
    | (extract_lets +onlyGivenNames x; clear_value x)
    | with_reducible exact Onward.refl _
    | with_reducible apply onward_remoteMissed
    | with_reducible apply onward_sendNack
    | with_reducible apply onward_setRemoteX
    | with_reducible apply onward_ite
    | intro _ _ _
    | intro _ _
    | split
    | dsimp only
    | fail_if_no_progress with_reducible apply onward_mk

theorem onward_takeLinkst {z : State} (m : FabMsg) (s : State) (hz : Onward z s) : Onward z (takeLinkst m s) := by
  unfold takeLinkst
  repeat' first
    | with_reducible assumption
    | (extract_lets +onlyGivenNames x; refine (fun hx : Onward z x => ?_) ?_; (on_goal 1 => clear_value x);
        (on_goal 2 => subst x))
    | (extract_lets +onlyGivenNames x; refine (fun hx : Onward z x.1 => ?_) ?_; (on_goal 1 => clear_value x);
        (on_goal 2 => subst x))
    | (extract_lets +onlyGivenNames x; clear_value x)
    | with_reducible exact Onward.refl _
    | with_reducible apply onward_flag
    | with_reducible apply onward_put
    | with_reducible apply onward_refreshCaps
    | with_reducible apply onward_setLinkX
    | with_reducible apply onward_ite
    | intro _ _ _
    | intro _ _
    | split
    | dsimp only
    | fail_if_no_progress with_reducible apply onward_mk

theorem onward_takeRreq {z : State} (m : FabMsg) (s : State) (hz : Onward z s) : Onward z (takeRreq m s) := by
  unfold takeRreq
  dsimp only
  repeat' first
    | with_reducible assumption
    | with_reducible apply hf
    | with_reducible exact Onward.refl _
    | with_reducible apply onward_queueWord
    | with_reducible apply onward_readBurst
    | with_reducible apply onward_sendRrsp
    | with_reducible apply onward_settleWrites
    | with_reducible apply onward_ite
    | with_reducible apply onward_forN
    | intro _ _ _
    | intro _ _
    | split
    | dsimp only
    | fail_if_no_progress with_reducible apply onward_mk

theorem onward_takeRrsp {z : State} (m : FabMsg) (s : State) (hz : Onward z s) : Onward z (takeRrsp m s) := by
  unfold takeRrsp
  repeat' first
    | with_reducible assumption
    | (extract_lets +onlyGivenNames x; refine (fun hx : Onward z x => ?_) ?_; (on_goal 1 => clear_value x);
        (on_goal 2 => subst x))
    | with_reducible exact Onward.refl _
    | with_reducible apply onward_endRequest
    | with_reducible apply onward_setWord
    | with_reducible apply onward_ite
    | with_reducible apply onward_forN
    | intro _ _ _
    | intro _ _
    | split

theorem onward_takeAttreq {z : State} (m : FabMsg) (s : State) (hz : Onward z s) : Onward z (takeAttreq m s) := by
  unfold takeAttreq
  repeat' first
    | with_reducible assumption
    | with_reducible exact Onward.refl _
    | with_reducible apply onward_addSign
    | with_reducible apply onward_sendNack
    | with_reducible apply onward_ite

theorem onward_takeAttrsp {z : State} (m : FabMsg) (s : State) (hz : Onward z s) : Onward z (takeAttrsp m s) := by
  unfold takeAttrsp
  repeat' first
    | with_reducible assumption
    | (extract_lets +onlyGivenNames x; clear_value x)
    | with_reducible exact Onward.refl _
    | with_reducible apply onward_endRequest
    | with_reducible apply onward_putWindow
    | with_reducible apply onward_ite
    | intro _ _ _
    | intro _ _
    | split
    | dsimp only
    | fail_if_no_progress with_reducible apply onward_mk

theorem onward_takeNack {z : State} (m : FabMsg) (s : State) (hz : Onward z s) : Onward z (takeNack m s) := by
  unfold takeNack
  repeat' first
    | with_reducible assumption
    | (extract_lets +onlyGivenNames x; refine (fun hx : Onward z x => ?_) ?_; (on_goal 1 => clear_value x);
        (on_goal 2 => subst x))
    | (extract_lets +onlyGivenNames x; clear_value x)
    | with_reducible exact Onward.refl _
    | with_reducible apply onward_endRequest
    | with_reducible apply onward_flag
    | with_reducible apply onward_ite
    | intro _ _ _
    | intro _ _
    | split

theorem onward_deliver {z : State} (m : FabMsg) (s : State) (hz : Onward z s) : Onward z (deliver m s) := by
  unfold deliver
  repeat' first
    | with_reducible assumption
    | with_reducible exact Onward.refl _
    | with_reducible apply onward_takeAttreq
    | with_reducible apply onward_takeAttrsp
    | with_reducible apply onward_takeDigest
    | with_reducible apply onward_takeLinkref
    | with_reducible apply onward_takeLinkst
    | with_reducible apply onward_takeNack
    | with_reducible apply onward_takeRreq
    | with_reducible apply onward_takeRrsp
    | intro _ _ _
    | intro _ _
    | split

theorem onward_atHolder {z : State} (m : FabMsg) (s : State) (hz : Onward z s) : Onward z (atHolder m s) := by
  unfold atHolder
  repeat' first
    | with_reducible assumption
    | (extract_lets +onlyGivenNames x; refine (fun hx : Onward z x => ?_) ?_; (on_goal 1 => clear_value x);
        (on_goal 2 => subst x))
    | (extract_lets +onlyGivenNames x; clear_value x)
    | with_reducible exact Onward.refl _
    | with_reducible apply onward_deliver
    | with_reducible apply onward_inc
    | with_reducible apply onward_noteSeq
    | with_reducible apply onward_put
    | with_reducible apply onward_sendNack
    | with_reducible apply onward_ite

theorem onward_forward {z : State} (p : Nat) (m : FabMsg) (s : State)
    (hz : Onward z s) : Onward z (forward p m s) := by
  unfold forward
  repeat' first
    | with_reducible assumption
    | (extract_lets +onlyGivenNames x; clear_value x)
    | with_reducible exact Onward.refl _
    | with_reducible apply onward_enqueue
    | with_reducible apply onward_inc
    | with_reducible apply onward_sendNack
    | with_reducible apply onward_ite

theorem onward_takeFrame {z : State} (p : Nat) (m : FabMsg) (s : State)
    (hz : Onward z s) : Onward z (takeFrame p m s) := by
  unfold takeFrame
  repeat' first
    | with_reducible assumption
    | with_reducible exact Onward.refl _
    | with_reducible apply onward_atHolder
    | with_reducible apply onward_forward
    | with_reducible apply onward_sendNack
    | with_reducible apply onward_takeLocal
    | with_reducible apply onward_ite

theorem onward_drainPort {z : State} (p : Nat) (s : State) (hz : Onward z s) : Onward z (drainPort p s) := by
  unfold drainPort
  repeat' first
    | with_reducible assumption
    | (extract_lets +onlyGivenNames x; clear_value x)
    | with_reducible exact Onward.refl _
    | with_reducible apply onward_setFabPort
    | with_reducible apply onward_takeFrame
    | with_reducible apply onward_ite
    | with_reducible apply onward_forN
    | intro _ _ _
    | intro _ _
    | split

theorem onward_receive {z : State} (p : Nat) (m : FabMsg) (s : State)
    (hz : Onward z s) : Onward z (receive p m s) := by
  unfold receive
  repeat' first
    | with_reducible assumption
    | (extract_lets +onlyGivenNames x; refine (fun hx : Onward z x => ?_) ?_; (on_goal 1 => clear_value x);
        (on_goal 2 => subst x))
    | (extract_lets +onlyGivenNames x; refine (fun hx : Onward z x.1 => ?_) ?_; (on_goal 1 => clear_value x);
        (on_goal 2 => subst x))
    | (extract_lets +onlyGivenNames x; clear_value x)
    | with_reducible exact Onward.refl _
    | with_reducible apply onward_drainPort
    | with_reducible apply onward_setFabPort
    | with_reducible apply onward_ite
    | intro _ _ _
    | intro _ _
    | split
    | dsimp only
    | fail_if_no_progress with_reducible apply onward_mk

theorem onward_drainAll {z : State} (s : State) (hz : Onward z s) : Onward z (drainAll s) := by
  unfold drainAll
  repeat' first
    | with_reducible assumption
    | with_reducible exact Onward.refl _
    | with_reducible apply onward_drainPort
    | with_reducible apply onward_forL
    | intro _ _ _
    | intro _ _
    | dsimp only
    | fail_if_no_progress with_reducible apply onward_mk

theorem onward_acknowledge {z : State} (p lseq : Nat) (s : State)
    (hz : Onward z s) : Onward z (acknowledge p lseq s) := by
  unfold acknowledge
  repeat' first
    | with_reducible assumption
    | (extract_lets +onlyGivenNames x; refine (fun hx : Onward z x => ?_) ?_; (on_goal 1 => clear_value x);
        (on_goal 2 => subst x))
    | (extract_lets +onlyGivenNames x; refine (fun hx : Onward z x.1 => ?_) ?_; (on_goal 1 => clear_value x);
        (on_goal 2 => subst x))
    | (extract_lets +onlyGivenNames x; clear_value x)
    | with_reducible exact Onward.refl _
    | with_reducible apply onward_drainAll
    | with_reducible apply onward_setFabPort
    | with_reducible apply onward_ite
    | intro _ _ _
    | intro _ _
    | split
    | dsimp only
    | fail_if_no_progress with_reducible apply onward_mk

theorem goes_execFabAck (p : Fin 4) (lseq : BitVec 8) (s : State) : Goes s (execFabAck p lseq s) := by
  unfold execFabAck
  apply goes_next
  repeat' first
    | with_reducible assumption
    | with_reducible exact Onward.refl _
    | with_reducible apply onward_acknowledge
    | with_reducible apply onward_ite

theorem goes_execFabSymbolLoss (p : Fin 4) (s : State) : Goes s (execFabSymbolLoss p s) := by
  unfold execFabSymbolLoss
  apply goes_next
  repeat' first
    | with_reducible assumption
    | with_reducible exact Onward.refl _
    | with_reducible apply onward_drainAll
    | with_reducible apply onward_portsDown
    | with_reducible apply onward_ite
    | intro _ _ _
    | intro _ _
    | split
    | dsimp only
    | fail_if_no_progress with_reducible apply onward_mk

theorem goes_execFabResendTimeout (p : Fin 4) (s : State) : Goes s (execFabResendTimeout p s) := by
  unfold execFabResendTimeout
  apply goes_next
  repeat' first
    | with_reducible assumption
    | (extract_lets +onlyGivenNames x; refine (fun hx : Onward s x => ?_) ?_; (on_goal 1 => clear_value x);
        (on_goal 2 => subst x))
    | (extract_lets +onlyGivenNames x; refine (fun hx : Onward s x.1 => ?_) ?_; (on_goal 1 => clear_value x);
        (on_goal 2 => subst x))
    | (extract_lets +onlyGivenNames x; clear_value x)
    | with_reducible exact Onward.refl _
    | with_reducible apply onward_drainAll
    | with_reducible apply onward_portsDown
    | with_reducible apply onward_put
    | with_reducible apply onward_setFabPort
    | with_reducible apply onward_ite
    | intro _ _ _
    | intro _ _
    | split
    | dsimp only
    | fail_if_no_progress with_reducible apply onward_mk

theorem goes_execHello (p : Fin 4) (f : FabFrame) (s : State) : Goes s (execHello p f s) := by
  unfold execHello
  apply goes_next
  repeat' first
    | with_reducible assumption
    | with_reducible exact Onward.refl _
    | with_reducible apply onward_receive
    | intro _ _ _
    | intro _ _
    | dsimp only
    | fail_if_no_progress with_reducible apply onward_mk

theorem goes_execHdig (p : Fin 4) (f : FabFrame) (s : State) : Goes s (execHdig p f s) := by
  unfold execHdig
  apply goes_next
  repeat' first
    | with_reducible assumption
    | with_reducible exact Onward.refl _
    | with_reducible apply onward_receive
    | intro _ _ _
    | intro _ _
    | dsimp only
    | fail_if_no_progress with_reducible apply onward_mk

theorem goes_execCert (p : Fin 4) (f : FabFrame) (s : State) : Goes s (execCert p f s) := by
  unfold execCert
  apply goes_next
  repeat' first
    | with_reducible assumption
    | with_reducible exact Onward.refl _
    | with_reducible apply onward_receive
    | intro _ _ _
    | intro _ _
    | dsimp only
    | fail_if_no_progress with_reducible apply onward_mk

theorem goes_execChal (p : Fin 4) (f : FabFrame) (s : State) : Goes s (execChal p f s) := by
  unfold execChal
  apply goes_next
  repeat' first
    | with_reducible assumption
    | with_reducible exact Onward.refl _
    | with_reducible apply onward_receive
    | intro _ _ _
    | intro _ _
    | dsimp only
    | fail_if_no_progress with_reducible apply onward_mk

theorem goes_execReport (p : Fin 4) (f : FabFrame) (s : State) : Goes s (execReport p f s) := by
  unfold execReport
  apply goes_next
  repeat' first
    | with_reducible assumption
    | with_reducible exact Onward.refl _
    | with_reducible apply onward_receive
    | intro _ _ _
    | intro _ _
    | dsimp only
    | fail_if_no_progress with_reducible apply onward_mk

theorem goes_execBind (p : Fin 4) (f : FabFrame) (s : State) : Goes s (execBind p f s) := by
  unfold execBind
  apply goes_next
  repeat' first
    | with_reducible assumption
    | with_reducible exact Onward.refl _
    | with_reducible apply onward_receive
    | intro _ _ _
    | intro _ _
    | dsimp only
    | fail_if_no_progress with_reducible apply onward_mk

theorem goes_execBack (p : Fin 4) (f : FabFrame) (s : State) : Goes s (execBack p f s) := by
  unfold execBack
  apply goes_next
  repeat' first
    | with_reducible assumption
    | with_reducible exact Onward.refl _
    | with_reducible apply onward_receive
    | intro _ _ _
    | intro _ _
    | dsimp only
    | fail_if_no_progress with_reducible apply onward_mk

theorem goes_execRoute (p : Fin 4) (f : FabFrame) (s : State) : Goes s (execRoute p f s) := by
  unfold execRoute
  apply goes_next
  repeat' first
    | with_reducible assumption
    | with_reducible exact Onward.refl _
    | with_reducible apply onward_receive
    | intro _ _ _
    | intro _ _
    | dsimp only
    | fail_if_no_progress with_reducible apply onward_mk

theorem goes_execDigest (p : Fin 4) (f : FabFrame) (s : State) : Goes s (execDigest p f s) := by
  unfold execDigest
  apply goes_next
  repeat' first
    | with_reducible assumption
    | with_reducible exact Onward.refl _
    | with_reducible apply onward_receive
    | intro _ _ _
    | intro _ _
    | dsimp only
    | fail_if_no_progress with_reducible apply onward_mk

theorem goes_execLinkref (p : Fin 4) (f : Linkref) (s : State) : Goes s (execLinkref p f s) := by
  unfold execLinkref
  apply goes_next
  repeat' first
    | with_reducible assumption
    | (extract_lets +onlyGivenNames x; refine (fun hx : Onward s x => ?_) ?_; (on_goal 1 => clear_value x);
        (on_goal 2 => subst x))
    | (extract_lets +onlyGivenNames x; refine (fun hx : Onward s x.1 => ?_) ?_; (on_goal 1 => clear_value x);
        (on_goal 2 => subst x))
    | (extract_lets +onlyGivenNames x; clear_value x)
    | with_reducible exact Onward.refl _
    | with_reducible apply onward_receive
    | intro _ _ _
    | intro _ _
    | dsimp only
    | fail_if_no_progress with_reducible apply onward_mk

theorem goes_execLinkst (p : Fin 4) (f : FabFrame) (s : State) : Goes s (execLinkst p f s) := by
  unfold execLinkst
  apply goes_next
  repeat' first
    | with_reducible assumption
    | with_reducible exact Onward.refl _
    | with_reducible apply onward_receive
    | intro _ _ _
    | intro _ _
    | dsimp only
    | fail_if_no_progress with_reducible apply onward_mk

theorem goes_execRreq (p : Fin 4) (f : FabFrame) (s : State) : Goes s (execRreq p f s) := by
  unfold execRreq
  apply goes_next
  repeat' first
    | with_reducible assumption
    | with_reducible exact Onward.refl _
    | with_reducible apply onward_receive
    | intro _ _ _
    | intro _ _
    | dsimp only
    | fail_if_no_progress with_reducible apply onward_mk

theorem goes_execRrsp (p : Fin 4) (f : FabFrame) (s : State) : Goes s (execRrsp p f s) := by
  unfold execRrsp
  apply goes_next
  repeat' first
    | with_reducible assumption
    | with_reducible exact Onward.refl _
    | with_reducible apply onward_receive
    | intro _ _ _
    | intro _ _
    | dsimp only
    | fail_if_no_progress with_reducible apply onward_mk

theorem goes_execAttreq (p : Fin 4) (f : FabFrame) (s : State) : Goes s (execAttreq p f s) := by
  unfold execAttreq
  apply goes_next
  repeat' first
    | with_reducible assumption
    | with_reducible exact Onward.refl _
    | with_reducible apply onward_receive
    | intro _ _ _
    | intro _ _
    | dsimp only
    | fail_if_no_progress with_reducible apply onward_mk

theorem goes_execAttrsp (p : Fin 4) (f : FabFrame) (s : State) : Goes s (execAttrsp p f s) := by
  unfold execAttrsp
  apply goes_next
  repeat' first
    | with_reducible assumption
    | with_reducible exact Onward.refl _
    | with_reducible apply onward_receive
    | intro _ _ _
    | intro _ _
    | dsimp only
    | fail_if_no_progress with_reducible apply onward_mk

theorem goes_execNack (p : Fin 4) (f : FabFrame) (s : State) : Goes s (execNack p f s) := by
  unfold execNack
  apply goes_next
  repeat' first
    | with_reducible assumption
    | with_reducible exact Onward.refl _
    | with_reducible apply onward_receive
    | intro _ _ _
    | intro _ _
    | dsimp only
    | fail_if_no_progress with_reducible apply onward_mk

theorem goes_execFabOtherType (p : Fin 4) (bs : List Byte) (s : State) : Goes s (execFabOtherType p bs s) := by
  unfold execFabOtherType
  apply goes_next
  repeat' first
    | with_reducible assumption
    | (extract_lets +onlyGivenNames x; refine (fun hx : Onward s x => ?_) ?_; (on_goal 1 => clear_value x);
        (on_goal 2 => subst x))
    | (extract_lets +onlyGivenNames x; refine (fun hx : Onward s x.1 => ?_) ?_; (on_goal 1 => clear_value x);
        (on_goal 2 => subst x))
    | (extract_lets +onlyGivenNames x; clear_value x)
    | with_reducible exact Onward.refl _
    | with_reducible apply onward_inc
    | with_reducible apply onward_receive
    | with_reducible apply onward_ite
    | intro _ _ _
    | intro _ _
    | split
    | dsimp only
    | fail_if_no_progress with_reducible apply onward_mk

end Sys2Proof.Machine
end

