-- ==== Sys2Proof/Laws/OnwardApply.lean ====
section
/-!
SUPPORT. Every update of Machine/Apply.lean leads onward; every command of it is answered.
-/
set_option Elab.async false

namespace Sys2Proof.Machine

theorem onward_showVerdict {z : State} (v : Verdict) (s : State) (hz : Onward z s) : Onward z (showVerdict v s) := by
  unfold showVerdict
  repeat' first
    | with_reducible assumption
    | (extract_lets +onlyGivenNames x; refine (fun hx : Onward z x => ?_) ?_; (on_goal 1 => clear_value x);
        (on_goal 2 => subst x))
    | (extract_lets +onlyGivenNames x; clear_value x)
    | with_reducible exact Onward.refl _
    | with_reducible apply onward_put
    | with_reducible apply onward_putPatErr
    | with_reducible apply onward_ite

theorem onward_markStaged {z : State} (s : State) (hz : Onward z s) : Onward z (markStaged s) := by
  unfold markStaged
  repeat' first
    | with_reducible assumption
    | (extract_lets +onlyGivenNames x; refine (fun hx : Onward z x => ?_) ?_; (on_goal 1 => clear_value x);
        (on_goal 2 => subst x))
    | (extract_lets +onlyGivenNames x; clear_value x)
    | with_reducible exact Onward.refl _
    | with_reducible apply onward_flag
    | intro _ _ _
    | intro _ _
    | dsimp only
    | fail_if_no_progress with_reducible apply onward_mk

theorem onward_putAttempt {z : State} (src : Source) (c : Nat) (s : State)
    (hz : Onward z s) : Onward z (putAttempt src c s) := by
  unfold putAttempt
  repeat' first
    | with_reducible assumption
    | with_reducible exact Onward.refl _
    | with_reducible apply onward_put
    | with_reducible apply onward_ite

theorem onward_attemptFailed {z : State} (src : Source) (s : State)
    (hz : Onward z s) : Onward z (attemptFailed src s) := by
  unfold attemptFailed
  repeat' first
    | with_reducible assumption
    | (extract_lets +onlyGivenNames x; refine (fun hx : Onward z x => ?_) ?_; (on_goal 1 => clear_value x);
        (on_goal 2 => subst x))
    | (extract_lets +onlyGivenNames x; refine (fun hx : Onward z x.1 => ?_) ?_; (on_goal 1 => clear_value x);
        (on_goal 2 => subst x))
    | (extract_lets +onlyGivenNames x; clear_value x)
    | with_reducible exact Onward.refl _
    | with_reducible apply onward_setWork
    | with_reducible apply onward_startFailed
    | with_reducible apply onward_ite
    | intro _ _ _
    | intro _ _
    | split
    | dsimp only
    | fail_if_no_progress with_reducible apply onward_mk

theorem onward_verified {z : State} (v : Verdict) (s : State) (hz : Onward z s) : Onward z (verified v s) := by
  unfold verified
  repeat' first
    | with_reducible assumption
    | (extract_lets +onlyGivenNames x; refine (fun hx : Onward z x => ?_) ?_; (on_goal 1 => clear_value x);
        (on_goal 2 => subst x))
    | with_reducible exact Onward.refl _
    | with_reducible apply onward_attemptFailed
    | with_reducible apply onward_beginApply
    | with_reducible apply onward_endWork
    | with_reducible apply onward_markStaged
    | with_reducible apply onward_putAttempt
    | with_reducible apply onward_showVerdict
    | with_reducible apply onward_ite
    | intro _ _ _
    | intro _ _
    | split

theorem onward_patRow {z : State} (c : PortCmd) (code : Nat) (s : State)
    (hz : Onward z s) : Onward z (patRow c code s) := by
  unfold patRow
  repeat' first
    | with_reducible assumption
    | with_reducible exact Onward.refl _
    | with_reducible apply onward_guarded
    | with_reducible apply onward_hostPatCtl

theorem goes_execStreamBegin (c : PortCmd) (s : State) : Goes s (execStreamBegin c s) := by
  unfold execStreamBegin
  apply goes_next
  repeat' first
    | with_reducible assumption
    | with_reducible exact Onward.refl _
    | with_reducible apply onward_patRow

theorem goes_execPatStreamWrite (w : PortWrite) (s : State) : Goes s (execPatStreamWrite w s) := by
  unfold execPatStreamWrite
  apply goes_next
  repeat' first
    | with_reducible assumption
    | with_reducible exact Onward.refl _
    | with_reducible apply onward_guarded
    | with_reducible apply onward_writePatStream

theorem goes_execVerifyA (c : PortCmd) (s : State) : Goes s (execVerifyA c s) := by
  unfold execVerifyA
  apply goes_next
  repeat' first
    | with_reducible assumption
    | with_reducible exact Onward.refl _
    | with_reducible apply onward_patRow

theorem goes_execVerifyB (c : PortCmd) (s : State) : Goes s (execVerifyB c s) := by
  unfold execVerifyB
  apply goes_next
  repeat' first
    | with_reducible assumption
    | with_reducible exact Onward.refl _
    | with_reducible apply onward_patRow

theorem goes_execLoadStaged (c : PortCmd) (s : State) : Goes s (execLoadStaged c s) := by
  unfold execLoadStaged
  apply goes_next
  repeat' first
    | with_reducible assumption
    | with_reducible exact Onward.refl _
    | with_reducible apply onward_patRow

theorem goes_execLoadA (c : PortCmd) (s : State) : Goes s (execLoadA c s) := by
  unfold execLoadA
  apply goes_next
  repeat' first
    | with_reducible assumption
    | with_reducible exact Onward.refl _
    | with_reducible apply onward_patRow

theorem goes_execLoadB (c : PortCmd) (s : State) : Goes s (execLoadB c s) := by
  unfold execLoadB
  apply goes_next
  repeat' first
    | with_reducible assumption
    | with_reducible exact Onward.refl _
    | with_reducible apply onward_patRow

theorem goes_execCommitA (c : PortCmd) (s : State) : Goes s (execCommitA c s) := by
  unfold execCommitA
  apply goes_next
  repeat' first
    | with_reducible assumption
    | with_reducible exact Onward.refl _
    | with_reducible apply onward_patRow

theorem goes_execCommitB (c : PortCmd) (s : State) : Goes s (execCommitB c s) := by
  unfold execCommitB
  apply goes_next
  repeat' first
    | with_reducible assumption
    | with_reducible exact Onward.refl _
    | with_reducible apply onward_patRow

theorem goes_execSelectA (c : PortCmd) (s : State) : Goes s (execSelectA c s) := by
  unfold execSelectA
  apply goes_next
  repeat' first
    | with_reducible assumption
    | with_reducible exact Onward.refl _
    | with_reducible apply onward_patRow

theorem goes_execSelectB (c : PortCmd) (s : State) : Goes s (execSelectB c s) := by
  unfold execSelectB
  apply goes_next
  repeat' first
    | with_reducible assumption
    | with_reducible exact Onward.refl _
    | with_reducible apply onward_patRow

theorem goes_execConfirm (c : PortCmd) (s : State) : Goes s (execConfirm c s) := by
  unfold execConfirm
  apply goes_next
  repeat' first
    | with_reducible assumption
    | with_reducible exact Onward.refl _
    | with_reducible apply onward_patRow

theorem goes_execSealMtr (c : PortCmd) (s : State) : Goes s (execSealMtr c s) := by
  unfold execSealMtr
  apply goes_next
  repeat' first
    | with_reducible assumption
    | with_reducible exact Onward.refl _
    | with_reducible apply onward_patRow

theorem goes_execAbort (c : PortCmd) (s : State) : Goes s (execAbort c s) := by
  unfold execAbort
  apply goes_next
  repeat' first
    | with_reducible assumption
    | with_reducible exact Onward.refl _
    | with_reducible apply onward_patRow

theorem goes_execPatVerifyDone (s : State) : Goes s (execPatVerifyDone s) := by
  unfold execPatVerifyDone
  apply goes_next
  repeat' first
    | with_reducible assumption
    | with_reducible exact Onward.refl _
    | with_reducible apply onward_syncFabric
    | with_reducible apply onward_verified
    | with_reducible apply onward_ite
    | intro _ _ _
    | intro _ _
    | split

theorem goes_execConfirmWinExpire (s : State) : Goes s (execConfirmWinExpire s) := by
  unfold execConfirmWinExpire
  apply goes_next
  repeat' first
    | with_reducible assumption
    | with_reducible exact Onward.refl _
    | with_reducible apply onward_loadExpired
    | with_reducible apply onward_startFailed
    | with_reducible apply onward_syncFabric
    | with_reducible apply onward_ite

theorem onward_streamChange {z : State} (old : State) (k : Nat) (s : State)
    (hz : Onward z s) : Onward z (streamChange old k s) := by
  unfold streamChange
  repeat' first
    | with_reducible assumption
    | (extract_lets +onlyGivenNames x; clear_value x)
    | with_reducible exact Onward.refl _
    | with_reducible apply onward_flag
    | with_reducible apply onward_setStreamSt
    | with_reducible apply onward_ite

theorem onward_stepTwo {z : State} (bs : List Byte) (s : State) (hz : Onward z s) : Onward z (stepTwo bs s) := by
  unfold stepTwo
  generalize scratch s bs = t
  extract_lets +onlyGivenNames u
  clear_value u
  repeat' first
    | with_reducible assumption
    | (extract_lets +onlyGivenNames x; refine (fun hx : Onward z x => ?_) ?_; (on_goal 1 => clear_value x);
        (on_goal 2 => subst x))
    | (extract_lets +onlyGivenNames x; refine (fun hx : Onward z x.1 => ?_) ?_; (on_goal 1 => clear_value x);
        (on_goal 2 => subst x))
    | (extract_lets +onlyGivenNames x; clear_value x)
    | with_reducible exact Onward.refl _
    | with_reducible apply onward_hvilStart
    | with_reducible apply onward_keepRegs
    | with_reducible apply onward_loadWord
    | with_reducible apply onward_put
    | with_reducible apply onward_streamChange
    | with_reducible apply onward_syncContactors
    | with_reducible apply onward_syncDisreq
    | with_reducible apply onward_ite
    | with_reducible apply onward_forL
    | intro _ _ _
    | intro _ _
    | split
    | dsimp only
    | fail_if_no_progress with_reducible apply onward_mk

theorem onward_deriveSeam {z : State} (n : Nat) (s : State) (hz : Onward z s) : Onward z (deriveSeam n s) := by
  unfold deriveSeam
  repeat' first
    | with_reducible assumption
    | (extract_lets +onlyGivenNames x; refine (fun hx : Onward z x => ?_) ?_; (on_goal 1 => clear_value x);
        (on_goal 2 => subst x))
    | (extract_lets +onlyGivenNames x; clear_value x)
    | with_reducible exact Onward.refl _
    | with_reducible apply onward_flag
    | with_reducible apply onward_put
    | with_reducible apply onward_ite

theorem onward_deriveContext {z : State} (c : Nat) (s : State) (hz : Onward z s) : Onward z (deriveContext c s) := by
  unfold deriveContext
  repeat' first
    | with_reducible assumption
    | (extract_lets +onlyGivenNames x; refine (fun hx : Onward z x => ?_) ?_; (on_goal 1 => clear_value x);
        (on_goal 2 => subst x))
    | (extract_lets +onlyGivenNames x; clear_value x)
    | with_reducible exact Onward.refl _
    | with_reducible apply onward_put
    | intro _ _ _
    | intro _ _
    | split

theorem onward_deriveMaps {z : State} (s : State) (hz : Onward z s) : Onward z (deriveMaps s) := by
  unfold deriveMaps
  repeat' first
    | with_reducible assumption
    | (extract_lets +onlyGivenNames x; refine (fun hx : Onward z x => ?_) ?_; (on_goal 1 => clear_value x);
        (on_goal 2 => subst x))
    | (extract_lets +onlyGivenNames x; clear_value x)
    | with_reducible exact Onward.refl _
    | with_reducible apply onward_flag
    | with_reducible apply onward_put
    | with_reducible apply onward_forL
    | intro _ _ _

theorem onward_stepThree {z : State} (s : State) (hz : Onward z s) : Onward z (stepThree s) := by
  unfold stepThree
  repeat' first
    | with_reducible assumption
    | (extract_lets +onlyGivenNames x; refine (fun hx : Onward z x => ?_) ?_; (on_goal 1 => clear_value x);
        (on_goal 2 => subst x))
    | with_reducible exact Onward.refl _
    | with_reducible apply onward_deriveContext
    | with_reducible apply onward_deriveMaps
    | with_reducible apply onward_deriveSeam
    | with_reducible apply onward_put
    | with_reducible apply onward_forL

theorem onward_freshCarrier {z : State} (n : Nat) (s : State) (hz : Onward z s) : Onward z (freshCarrier n s) := by
  unfold freshCarrier
  repeat' first
    | with_reducible assumption
    | (extract_lets +onlyGivenNames x; clear_value x)
    | with_reducible exact Onward.refl _
    | with_reducible apply onward_setCarrier
    | with_reducible apply onward_ite

theorem onward_startCarriers {z : State} (s : State) (hz : Onward z s) : Onward z (startCarriers s) := by
  unfold startCarriers
  repeat' first
    | with_reducible assumption
    | (extract_lets +onlyGivenNames x; refine (fun hx : Onward z x => ?_) ?_; (on_goal 1 => clear_value x);
        (on_goal 2 => subst x))
    | with_reducible exact Onward.refl _
    | with_reducible apply onward_freshCarrier
    | with_reducible apply onward_refreshCaps
    | with_reducible apply onward_rephase
    | with_reducible apply onward_forL
    | intro _ _ _
    | intro _ _
    | dsimp only
    | fail_if_no_progress with_reducible apply onward_mk

theorem onward_notePeriods {z : State} (s : State) (hz : Onward z s) : Onward z (notePeriods s) := by
  unfold notePeriods
  repeat' first
    | with_reducible assumption
    | with_reducible exact Onward.refl _
    | intro _ _ _
    | intro _ _
    | dsimp only
    | fail_if_no_progress with_reducible apply onward_mk

theorem onward_startWindow {z : State} (w : Nat) (s : State) (hz : Onward z s) : Onward z (startWindow w s) := by
  unfold startWindow
  repeat' first
    | with_reducible assumption
    | with_reducible exact Onward.refl _
    | with_reducible apply onward_winStart
    | with_reducible apply onward_ite

theorem onward_settle {z : State} (n : Nat) (s : State) (hz : Onward z s) : Onward z (settle n s) := by
  unfold settle
  repeat' first
    | with_reducible assumption
    | (extract_lets +onlyGivenNames x; refine (fun hx : Onward z x => ?_) ?_; (on_goal 1 => clear_value x);
        (on_goal 2 => subst x))
    | (extract_lets +onlyGivenNames x; clear_value x)
    | with_reducible exact Onward.refl _
    | with_reducible apply onward_sendSettings
    | with_reducible apply onward_setLink
    | with_reducible apply onward_ite

theorem onward_startUnits {z : State} (s : State) (hz : Onward z s) : Onward z (startUnits s) := by
  unfold startUnits
  repeat' first
    | with_reducible assumption
    | (extract_lets +onlyGivenNames x; refine (fun hx : Onward z x => ?_) ?_; (on_goal 1 => clear_value x);
        (on_goal 2 => subst x))
    | (extract_lets +onlyGivenNames x; clear_value x)
    | with_reducible exact Onward.refl _
    | with_reducible apply onward_notePeriods
    | with_reducible apply onward_parkSync
    | with_reducible apply onward_settle
    | with_reducible apply onward_startCarriers
    | with_reducible apply onward_startWindow
    | with_reducible apply onward_syncHolds
    | with_reducible apply onward_forL
    | intro _ _ _
    | intro _ _
    | dsimp only
    | fail_if_no_progress with_reducible apply onward_mk

theorem onward_stepFour {z : State} (bs : List Byte) (s : State) (hz : Onward z s) : Onward z (stepFour bs s) := by
  unfold stepFour
  repeat' first
    | with_reducible assumption
    | with_reducible exact Onward.refl _
    | with_reducible apply onward_hostWrite
    | with_reducible apply onward_forL
    | intro _ _ _

theorem onward_syncSeal {z : State} (bs : List Byte) (s : State) (hz : Onward z s) : Onward z (syncSeal bs s) := by
  unfold syncSeal
  repeat' first
    | with_reducible assumption
    | with_reducible exact Onward.refl _
    | with_reducible apply onward_addMirror
    | with_reducible apply onward_put
    | with_reducible apply onward_ite

theorem onward_stepFive {z : State} (src : Source) (bs : List Byte) (s : State)
    (hz : Onward z s) : Onward z (stepFive src bs s) := by
  unfold stepFive
  repeat' first
    | with_reducible assumption
    | (extract_lets +onlyGivenNames x; refine (fun hx : Onward z x => ?_) ?_; (on_goal 1 => clear_value x);
        (on_goal 2 => subst x))
    | (extract_lets +onlyGivenNames x; clear_value x)
    | with_reducible exact Onward.refl _
    | with_reducible apply onward_flag
    | with_reducible apply onward_put
    | with_reducible apply onward_setWord
    | with_reducible apply onward_syncSeal
    | with_reducible apply onward_forL
    | intro _ _ _
    | intro _ _
    | dsimp only
    | fail_if_no_progress with_reducible apply onward_mk

theorem onward_joinBuses {z : State} (old : State) (s : State) (hz : Onward z s) : Onward z (joinBuses old s) := by
  unfold joinBuses
  repeat' first
    | with_reducible assumption
    | with_reducible exact Onward.refl _
    | with_reducible apply onward_canCome
    | with_reducible apply onward_ite
    | with_reducible apply onward_forL
    | intro _ _ _

theorem onward_finishApply {z : State} (src : Source) (s : State)
    (hz : Onward z s) : Onward z (finishApply src s) := by
  unfold finishApply
  repeat' first
    | with_reducible assumption
    | (extract_lets +onlyGivenNames x; refine (fun hx : Onward z x => ?_) ?_; (on_goal 1 => clear_value x);
        (on_goal 2 => subst x))
    | (extract_lets +onlyGivenNames x; refine (fun hx : Onward z x.1 => ?_) ?_; (on_goal 1 => clear_value x);
        (on_goal 2 => subst x))
    | (extract_lets +onlyGivenNames x; clear_value x)
    | with_reducible exact Onward.refl _
    | with_reducible apply onward_drainAll
    | with_reducible apply onward_joinBuses
    | with_reducible apply onward_startCarriers
    | with_reducible apply onward_startUnits
    | with_reducible apply onward_stepFive
    | with_reducible apply onward_stepFour
    | with_reducible apply onward_stepThree
    | with_reducible apply onward_stepTwo
    | with_reducible apply onward_syncFabric
    | with_reducible apply onward_syncRoutes
    | intro _ _ _
    | intro _ _
    | dsimp only
    | fail_if_no_progress with_reducible apply onward_mk

theorem onward_applied {z : State} (src : Source) (win : Nat) (s : State)
    (hz : Onward z s) : Onward z (applied src win s) := by
  unfold applied
  repeat' first
    | with_reducible assumption
    | (extract_lets +onlyGivenNames x; refine (fun hx : Onward z x => ?_) ?_; (on_goal 1 => clear_value x);
        (on_goal 2 => subst x))
    | (extract_lets +onlyGivenNames x; refine (fun hx : Onward z x.1 => ?_) ?_; (on_goal 1 => clear_value x);
        (on_goal 2 => subst x))
    | (extract_lets +onlyGivenNames x; clear_value x)
    | with_reducible exact Onward.refl _
    | with_reducible apply onward_flag
    | with_reducible apply onward_loadSucceeded
    | with_reducible apply onward_patDone
    | with_reducible apply onward_put
    | with_reducible apply onward_setWork
    | with_reducible apply onward_startAfterExpiry
    | with_reducible apply onward_startSucceeded
    | with_reducible apply onward_ite
    | intro _ _ _
    | intro _ _
    | split
    | dsimp only
    | fail_if_no_progress with_reducible apply onward_mk

theorem goes_execPatApplyDone (s : State) : Goes s (execPatApplyDone s) := by
  unfold execPatApplyDone
  apply goes_next
  repeat' first
    | with_reducible assumption
    | with_reducible exact Onward.refl _
    | with_reducible apply onward_applied
    | with_reducible apply onward_finishApply
    | with_reducible apply onward_ite
    | intro _ _ _
    | intro _ _
    | split

end Sys2Proof.Machine
end

