-- ==== Sys2Proof/Tests/Slice0.lean ====
section
/-!
SUPPORT. Tests on small states: the smoke test of WellFormed, worked examples of the spec, and for every statement with
hypotheses a concrete state and operands that meet them (`meets_<statement>`), clause by clause.
-/
set_option Elab.async false

namespace Sys2Proof.Tests
open Sys2Proof Sys2Proof.Machine

/-! ### Well-formedness: each check refuses an ill-formed command -/

theorem test_wf_port : (Instr.verifyA ⟨5, 0x5A7E⟩).wf = false ∧ (Instr.verifyA ⟨3, 0x5A7E⟩).wf = true
    ∧ (Instr.rtcRead 4).wf = false := by decide +kernel

/-- A fabric frame of 32 zero bytes. -/
def frame : FabFrame := ⟨2, 1, 0, 31, 0, 1, 1, 1, List.replicate 32 0⟩

theorem test_wf_fabric : (Instr.hello 0 frame).wf = true ∧ (Instr.hello 0 { frame with src := 33 }).wf = false
    ∧ (Instr.digest 0 { frame with dst := 256 }).wf = false ∧ (Instr.nack 0 { frame with lseq := 256 }).wf = false
    ∧ (Instr.rreq 0 { frame with ttl := 256 }).wf = false ∧ (Instr.cert 0 { frame with chunk := 32 }).wf = false
    ∧ (Instr.rrsp 0 { frame with sepoch := 65536 }).wf = false ∧ (Instr.linkst 0 { frame with depoch := 65536 }).wf = false
    ∧ (Instr.linkref 0 ⟨{ frame with seq := 65536 }, 0⟩).wf = false
    ∧ (Instr.route 0 { frame with payload := [] }).wf = false := by decide +kernel

theorem test_wf_can : (Instr.canFrameRx 0 ⟨false, 0x7FF, false, false, false, false, 8, List.replicate 8 0, true, 0⟩).wf = true
    ∧ (Instr.canFrameRx 0 ⟨false, 0x7FF, false, false, false, false, 9, List.replicate 9 0, true, 0⟩).wf = false
    ∧ (Instr.canFrameRx 0 ⟨false, 0x800, false, false, false, false, 0, [], true, 0⟩).wf = false
    ∧ (Instr.canFrameRx 0 ⟨true, 0x800, true, true, false, false, 15, List.replicate 64 0, true, 0⟩).wf = true
    ∧ (Instr.canFrameRx 0 ⟨true, 0x800, true, true, false, false, 15, List.replicate 65 0, true, 0⟩).wf = false := by decide +kernel

/-- The table gives no row bits, so no word spells a command. -/
theorem test_no_words : decodeTableWord 32 0xFFFFFFFF = none ∧ State.reset.withFetchWord 32 7 = State.reset := by decide +kernel

/-! ### States -/

/-- After reset, with every domain on and the mode FITTING. -/
def base : State := (State.reset.put R.PWR_DOM_ON 255).put R.PWR_MODE_MODE mFITTING

/-- With a Pattern in force. -/
def loaded : State := base.flag R.PAT_STAT_LOADED true

/-- In a mode. -/
def inMode (m : Nat) : State := base.put R.PWR_MODE_MODE m

/-- With the state of dielet 5. -/
def withDielet (d : Dielet) : State := setDielet base 5 d

/-- With the work of the Pattern manager. -/
def withPat (w : PatWork) (st : StartPhase) : State := { base with pat := { base.pat with work := w, start := st } }

/-- A word of port 0, a command with the right GUARD, a command of a wrong one. -/
def w0 : PortWrite := ⟨0, 1⟩
def c0 : PortCmd := ⟨0, 0x5A7E⟩
def bad0 : PortCmd := ⟨0, 0x1234⟩

/-- Do the conditions of `Accepts` hold? -/
def acceptsAt (s : State) (p a : Nat) : Bool :=
  portWrites s p && !absent s a && domOn s (domainOf a) && !(s.on R.PAT_STAT_APPLYING && p != 7 && applyRange a)
    && s.host.holdWait == [] && (s.host.queue.find? (fun w => w.port == p)).isNone

theorem accepts_of {s : State} {p a : Nat} (h : acceptsAt s p a = true) : Accepts s p a := by
  simp only [acceptsAt, Bool.and_eq_true, Bool.not_eq_true', beq_iff_eq, Option.isNone_iff_eq_none] at h
  exact ⟨h.1.1.1.1.1, h.1.1.1.1.2, h.1.1.1.2, h.1.1.2, h.1.2, h.2⟩

/-- Do the conditions of `Answers` hold? -/
def answersAt (s : State) (p a : Nat) : Bool := portReads s p && !absent s a && domOn s (domainOf a)

theorem answers_of {s : State} {p a : Nat} (h : answersAt s p a = true) : Answers s p a := by
  simp [answersAt] at h
  exact ⟨h.1.1, h.1.2, h.2⟩

/-! ### The whole machine -/

theorem meets_StepKeepsInvariant : regsCanonical State.reset = true := by decide +kernel

theorem meets_IdleStep : State.reset.pending = [] ∧ State.reset.host.queue = [] ∧ State.reset.fab.writes = [] := by decide +kernel

/-- A word of port 0 in the queue. -/
def queued (s : State) (a : Nat) : State := { s with host := { s.host with queue := [⟨0, a, 1⟩] } }

theorem meets_QueuedWordTakesEffect :
    (∀ s ∈ [queued base 0x1A0000, queued (base.put R.PWR_DOM_ON 4) 0x050000, queued (base.flag R.PAT_STAT_APPLYING true) 0x050000,
        queued base R.PAT_LEN],
      s.pending = [] ∧ (nextWord s).map (·.port) = some 0 ∧ s.fab.writes = [] ∧ s.host.holdWait = [] ∧ portWrites s 0 = true)
    ∧ nextWord { base with host := { base.host with queue := [⟨3, R.PAT_LEN, 1⟩, ⟨0, R.PAT_LEN, 2⟩] } } = some ⟨0, R.PAT_LEN, 2⟩
    ∧ nextWord { base with host := { base.host with queue := [⟨3, R.PAT_LEN, 1⟩, ⟨0, R.HST_CFG, 2⟩] } } = some ⟨3, R.PAT_LEN, 1⟩
    ∧ absent base 0x1A0000 = true ∧ absent base 0x19FFFC = false
    ∧ absent base 0x050000 = false ∧ domOn (base.put R.PWR_DOM_ON 4) (domainOf 0x050000) = false
    ∧ (applyRange 0x050000 && absent base 0x050000 == false && domOn base (domainOf 0x050000)) = true
    ∧ absent base R.PAT_LEN = false ∧ domOn base (domainOf R.PAT_LEN) = true := by decide +kernel

theorem meets_plain : PlainAddr R.PAT_LEN := fun _ _ _ _ => rfl

/-! ### The host port -/

/-- A READ of HST_CFG. -/
def readSent : List Byte := [0x18, 0x00, 0x00]

theorem meets_ReadFrames : domOn base 2 = true ∧ portQueueEmpty base 0 = true ∧ beNat (readSent.take 3) % 4 = 0
    ∧ base.on R.HST_CFG_CRCREQ = false ∧ accessError base (beNat (readSent.take 3)) = none
    ∧ snapRun base 0 = none ∧ (∀ k, k < 2 → accessError base (burstAddr (beNat ([9, 0, 0] : List Byte)) k) = none
        ∧ snapGroup (burstAddr (beNat ([9, 0, 0] : List Byte)) k) = []
        ∧ mbStatAt (burstAddr (beNat ([9, 0, 0] : List Byte)) k) = none)
    ∧ crc8 (0x8B :: [0x18, 0, 0, 0]) = crc8 [0x8B, 0x18, 0, 0, 0] := by decide +kernel

theorem meets_WriteFrames : domOn base 2 = true ∧ (base.host.queue.filter (fun w => w.port == 0)).length + 256 ≤ 1024
    ∧ beNat ([0x18, 0, 4, 0, 0, 0, 1].take 3) % 4 = 0 ∧ [0x18, 0, 4, 0, 0, 0, 1].length = 3 + 4 * 1
    ∧ accessError base 0x180004 = none ∧ (accessError base 0x1A0000).isSome = true := by decide +kernel

theorem meets_StatusFrames : domOn base 2 = true ∧ base.on R.HST_CFG_CRCREQ = false
    ∧ (base.flag R.HST_CFG_CRCREQ true).on R.HST_CFG_CRCREQ = true
    ∧ (∀ op ∈ [none, some (⟨0x11, [], false, 0⟩ : HostFrame)],
        op.all (fun f => !([0x02, 0x82, 0x06, 0x86, 0x0B, 0x8B, 0x05, 0x85] : List Nat).contains f.op.toNat) = true) := by
  decide +kernel

theorem meets_RegisterWrite : Accepts base 0 R.PAT_LEN ∧ ownMeeting R.PAT_LEN = false ∧ regAt 0x000008 = none
    ∧ (regAt R.PAT_LEN).any (fun r => tb r.rw 0 && !tb r.rw 31 && !tb r.wo 31 && !tb r.w1c 31) = true
    ∧ (1 : Word).getLsbD 0 = true ∧ (∀ i, i < 32 → (0x80000000 : Word).getLsbD i = true → i = 31) :=
  ⟨accepts_of (by decide +kernel), by decide +kernel⟩

theorem meets_SnapReads : ∀ a ∈ [R.SEAM_STATE 1, R.SEAM_STATE 63, R.STI_TEL0 0, R.STI_TEL0 95, R.MTR_LONG_LO 0 0,
    R.MTR_LONG_LO 3 6, R.MTR_INT 3 6, R.FLT_LOG 255 0, R.OVL_RES_LO 15, R.PWR_RTC_LO, R.FAB_AGREE, R.MB_STAT 1 31],
    answersAt base 0 a = true ∧ snapRun base 0 = none := by decide +kernel

/-- A run of port 0 with a latched word. -/
def inRun : State := setSnapRun 0 (some ⟨[(R.FLT_LOG 0 1, 7)], R.FLT_LOG 0 0⟩) base

theorem meets_SnapReads_run : snapRun inRun 0 = some ⟨[(R.FLT_LOG 0 0 + 4, 7)], R.FLT_LOG 0 0⟩
    ∧ accessError inRun (R.FLT_LOG 0 0 + 4) = none ∧ R.FLT_LOG 0 0 / 0x10000 ≠ 0x0A := by decide +kernel

/-! ### Seams and the Pattern manager -/

/-- A root with no context, and the same outside a mode that takes its enable. -/
def rootRef : State := (base.flag (R.SEAM_REF_ROOT 1) true)

theorem meets_SeamWrites : acceptsAt base 0 (R.SEAM_REF 63) = true ∧ acceptsAt base 0 (R.SEAM_OFS 63) = true
    ∧ acceptsAt base 0 (R.SEAM_CTL 63) = true ∧ acceptsAt base 0 (R.SEAM_CTL 0) = true
    ∧ bitsOf w0.data 0 1 = 1 ∧ bitsOf (0 : Word) 0 1 = 0 ∧ base.on (R.SEAM_REF_ROOT 1) = false
    ∧ rootRef.on (R.SEAM_REF_ROOT 1) = true ∧ rootEnableAccepted rootRef 1 = true
    ∧ rootEnableAccepted (rootRef.put R.PWR_MODE_MODE mREADY) 1 = false := by decide +kernel

theorem meets_PatternRefusals : acceptsAt base 0 R.PAT_CTL = true ∧ bad0.guard.toNat ≠ 0x5A7E ∧ c0.guard.toNat = 0x5A7E
    ∧ (base.flag R.PAT_STAT_BUSY true).on R.PAT_STAT_BUSY = true ∧ abortable base.pat.work = false
    ∧ base.on R.PAT_STAT_BUSY = false ∧ mode (inMode mCHARGE) ≠ mREADY ∧ mode (inMode mCHARGE) ≠ mFITTING
    ∧ mode (inMode mCHARGE) ≠ mBASTING ∧ acceptsAt (inMode mCHARGE) 0 R.PAT_CTL = true
    ∧ mode base = mFITTING ∧ base.on R.PAT_STAT_STAGED = false ∧ base.part.isM = true ∧ base.pat.mtr = none
    ∧ (base.put R.PAT_LEN_LENGTH 260).get R.PAT_LEN_LENGTH < 264
    ∧ 1048576 < (base.put R.PAT_LEN_LENGTH 1048580).get R.PAT_LEN_LENGTH ∧ agreed (base.flag R.FAB_STAT_ALL true) = true
    ∧ (∀ p ∈ fabPorts base, portState base p ≠ pDOWN → portRuns base p = true) := by decide +kernel

/-- A staged image without an MTR section, in BASTING with the group off. -/
def staged : State :=
  { (((base.put R.PWR_MODE_MODE mBASTING).put R.PWR_DOM_ON 0x0F).flag R.PAT_STAT_STAGED true) with
    pat := { base.pat with staging := ⟨true, List.replicate 64 0⟩ } }

theorem meets_PatternCommands : acceptsAt staged 0 R.PAT_CTL = true ∧ c0.guard.toNat = 0x5A7E
    ∧ staged.on R.PAT_STAT_BUSY = false ∧ staged.idn.queue.any (·.isVerify) = false
    ∧ (base.put R.PAT_LEN_LENGTH 264).get R.PAT_LEN_LENGTH = 264
    ∧ (base.put R.PAT_LEN_LENGTH 1048576).get R.PAT_LEN_LENGTH = 1048576
    ∧ mode staged = mBASTING ∧ staged.pat.start ≠ .await ∧ staged.on R.PAT_STAT_STAGED = true
    ∧ step8 staged staged.pat.staging.bytes = none ∧ groupOn staged = false ∧ groupOn (staged.put R.PWR_DOM_ON 255) = true
    ∧ staged.pat.loadWait = false ∧ mode base = mFITTING ∧ base.part.isM = true
    ∧ base.on R.MTR_STAT_CALDIRTY = false ∧ acceptsAt base 0 R.PAT_CTL = true
    ∧ abortable (.stream 264) = true ∧ base.pat.late = false ∧ staged.pwr.downTo = none
    ∧ ({ staged with pat := { staged.pat with loadWait := true } } : State).pat.loadWait = true
    ∧ (withPat .idle .await).pat.start = .await ∧ base.pat.start ≠ .await := by decide +kernel

/-- A stream of 264 bytes of which `n` have come. -/
def streaming (n : Nat) : State :=
  { base with pat := { base.pat with work := .stream 264, staging := ⟨false, List.replicate n 0⟩ } }

/-- A start in progress. -/
def starting (w : PatWork) (st : StartPhase) : State := withPat w st

theorem meets_PatternStreams : acceptsAt base 0 R.PAT_STREAM = true ∧ acceptsAt (streaming 0) 0 R.PAT_STREAM = true
    ∧ (streaming 0).pat.work = .stream 264 ∧ (streaming 256).pat.staging.bytes.length + 4 < 264
    ∧ (streaming 260).pat.staging.bytes.length + 4 = 264
    ∧ (withPat (.commit .slotA) .none).pat.work = .commit .slotA ∧ (withPat (.commit .slotB) .none).pat.work = .commit .slotB
    ∧ base.pat.work = .idle := by decide +kernel

theorem meets_PatternVerifications : domOn base 3 = true ∧ (withPat (.verifyOnly .slotA) .none).pat.work = .verifyOnly .slotA
    ∧ (withPat (.verifyLoad .staging) .none).pat.work = .verifyLoad .staging
    ∧ (withPat (.verifyStart .slotA) .tryActive).pat.start = .tryActive
    ∧ (withPat (.verifyStart .slotB) .tryActive).pat.work = .verifyStart .slotB
    ∧ (verdictOf .slotA base).code ≠ 0 ∧ (verdictOf .slotB base).code ≠ 0
    ∧ (∀ src ∈ [Source.slotA, .slotB], (verdictOf src (withPat (.verifyStart src) .tryOther)).code ≠ 0
        ∧ (withPat (.verifyStart src) .tryOther).pat.start = .tryOther)
    ∧ (∀ k, k < 3 → (base.put R.PWR_BOOT_CAUSE_FAILS k).get R.PWR_BOOT_CAUSE_FAILS = k)
    ∧ groupOn base = true ∧ groupOn (base.put R.PWR_DOM_ON 15) = false ∧ mode (inMode mSAFEOFF) = mSAFEOFF
    ∧ mode (inMode mDISCHARGE) = mDISCHARGE := by decide +kernel

/-- The work of a load whose confirmation is awaited. -/
def loadWaits (w : PatWork) (m : Nat) : State :=
  { inMode m with pat := { base.pat with loadWait := true, work := w } }

/-- A start that awaits its confirmation. -/
def awaiting : State := (starting .idle .await).flag R.PAT_STAT_LOADED true

/-- A start that is due. -/
def due : State := ({ base.put R.PWR_DOM_ON 0x0F with pwr := { base.pwr with startDue := true } } : State).flag R.PWR_STAT_RESTPEND false

theorem meets_PatternStarts :
    ((withPat (.apply .slotA) .none).flag R.PAT_STAT_APPLYING true).on R.PAT_STAT_APPLYING = true
    ∧ (withPat (.apply .slotA) .none).pat.work = .apply .slotA ∧ groupOn base = true
    ∧ (withPat .idle .tryOther).pat.start = .tryOther ∧ base.pat.start = .none ∧ base.pat.late = false
    ∧ (∀ w ∈ [PatWork.idle, .stream 264, .verifyOnly .slotA, .verifyLoad .slotA, .commit .slotA],
        (loadWaits w mFITTING).pat.loadWait = true ∧ inBasting (loadWaits w mFITTING) = false
          ∧ (loadWaits w mFITTING).pat.work = w ∧ mode (loadWaits w mBASTING) = mBASTING)
    ∧ groupOn (loadWaits .idle mBASTING) = true ∧ (loadWaits .idle mBASTING).pwr.downTo = none
    ∧ (let s := { loadWaits .idle mDISCHARGE with pwr := { base.pwr with disFrom := mBASTING } }
       s.pat.loadWait = true ∧ mode s = mDISCHARGE ∧ s.pwr.disFrom = mBASTING) := by decide +kernel

theorem meets_PatternStarts_start : awaiting.pat.loadWait = false ∧ awaiting.pat.start = .await
    ∧ awaiting.on R.PAT_STAT_LOADED = true ∧ awaiting.get R.PWR_BOOT_CAUSE_FAILS < 2
    ∧ (awaiting.put R.PWR_BOOT_CAUSE_FAILS 2).get R.PWR_BOOT_CAUSE_FAILS = 2 ∧ due.pwr.startDue = true ∧ domOn due 1 = true ∧ domOn due 3 = true
    ∧ due.on R.PWR_STAT_RESTPEND = false ∧ (due.flag R.IDN_STAT_KEYSET true).on R.IDN_STAT_KEYSET = true
    ∧ due.pat.openMark = false ∧ due.get R.PWR_BOOT_CAUSE_FAILS ≠ 3 ∧ due.on R.IDN_STAT_KEYSET = false
    ∧ due.on R.IDN_STAT_KFAIL = false ∧ groupOn due = false ∧ mode due ≠ mDISCHARGE := by decide +kernel

/-! ### Stitches -/

/-- A dielet in a state, no gate on. -/
def dl (st : StitchState) : Dielet := { Dielet.zero with st := st }

theorem meets_GateSymbols : stitchThere base 95 = true
    ∧ (dielet (withDielet (dl .idle)) 5).st = .idle ∧ (dielet (withDielet (dl .idle)) 5).mode = none
    ∧ drives (dielet (withDielet (dl .run)) 5) = true ∧ bstLow (dl .run) 127 = false
    ∧ (∀ g ∈ [Gate.high, Gate.low], (dielet (withDielet { dl .run with incoming := some g }) 5).incoming = some g)
    ∧ (dielet (withDielet (dl .run)) 5).hemoff = false := by decide +kernel

theorem meets_DieletMonitors :
    (dielet (withDielet { dl .run with incoming := some .low }) 5).incoming ≠ none
    ∧ (dielet (withDielet (dl .run)) 5).awake = true
    ∧ (dielet (withDielet { dl .run with gh := true }) 5).gh = true ∧ (dielet (withDielet { dl .run with gl := true }) 5).gl = true
    ∧ (let d := dielet (withDielet { dl .run with gl := true, bstreq := true }) 5; d.bstreq = true ∧ d.gl = true)
    ∧ (let d := dielet (withDielet { dl .hiz with cause := 0x10, settings := [(0, 0xFFFFFFFF)] }) 5
       d.st = .hiz ∧ d.gl = false ∧ d.clamp = false ∧ d.hemoff = false ∧ dieletField d (R.STI_CFG_COVCLAMP 0) = 1
         ∧ causeClass d.cause ≠ kDSAT ∧ causeClass d.cause ≠ kGUV)
    ∧ dieletField (dielet (withDielet { dl .run with settings := (List.range 16).map (fun k => (4 * k, 0xFFFFFFFF)) }) 5) (R.STI_GATE_VNEG 0) ≠ 0
    ∧ (let d := dielet (withDielet { dl .bypass with mode := some false, gl := true }) 5
       d.awake = true ∧ d.mode ≠ none ∧ d.gl = true) := by decide +kernel

theorem meets_StrengthLaw : stitchThere base 0 = true ∧ (dielet (withDielet (dl .idle)) 5).awake = true
    ∧ (let d := dl .idle
       tb (dieletField d (R.STI_ADCTL_FRZ 0)) 0 = false ∧ dieletField d (R.STI_ADCTL_DB 0) < 255
         ∧ tb (dieletField { d with settings := [(0x28, 0xFFFFFFFF), (0x24, 0xFFFFFFFF)] } (R.STI_ADCTL_FRZ 0)) 3 = true)
    ∧ (∀ g ∈ [Gate.high, .low], let d := dielet (withDielet { dl .run with inG := some g, outG := some .high }) 5
        d.inG = some g ∧ d.incoming ≠ some g ∧ d.awake = true ∧ attributed d false = some (if g = .high then 0 else 2))
    ∧ (∀ g ∈ [Gate.high, .low], ∀ early ∈ [true, false], let d := dielet (withDielet { dl .run with outG := some g }) 5
        d.outG = some g ∧ d.inG = none ∧ attributed d early = some (if g = .high then 1 else 3)) := by decide +kernel

/-- A retired stitch in a mode. -/
def retiredAs (m : Bool) : State := { withDielet (dl .waking) with ledger := [(5, ⟨true, m, 0xF0, 1, 0⟩)] }

theorem meets_DieletWaking : domOn base 5 = true ∧ (dielet base 5).st = .asleep ∧ (dielet base 5).bleed = false
    ∧ (dielet (withDielet { dl .asleep with bleed := true }) 5).bleed = true
    ∧ (dielet (withDielet (dl .waking)) 5).st = .waking ∧ retired (withDielet (dl .waking)) 5 = false
    ∧ retired (retiredAs true) 5 = true ∧ (ledgerOf (retiredAs true) 5).mode = true
    ∧ (dielet (withDielet (dl .hiz)) 5).awake = true
    ∧ (∀ m ∈ [true, false], let d := dielet (withDielet { dl .hiz with cause := 0x0E, mode := some m }) 5
        d.st = .hiz ∧ d.cause = 0x0E ∧ d.mode = some m)
    ∧ (∀ m ∈ [none, some true, some false], let d := dielet (withDielet { dl .waking with mode := m }) 5
        d.st = .waking ∧ d.mode = m ∧ d.clamp = false ∧ d.gh = false ∧ d.incoming = none) ∧ hemActive ((retiredAs true).flag R.SAF_STAT_LATCH false) = false := by
  decide +kernel

theorem meets_DieletWaking_retrained :
    (∀ m ∈ [none, some true, some false], ∀ c ∈ [true, false], ∀ g ∈ [true, false],
        let d := dielet (withDielet { dl .hiz with lost := true, mode := m, clamp := c, gl := g }) 5
        d.lost = true ∧ d.st = .hiz ∧ d.mode = m ∧ d.clamp = c ∧ d.gl = g)
    ∧ hemActive ((base.flag R.SAF_STAT_LATCH true)) = true ∧ hemActive (base.flag R.SAF_STAT_LATCH false) = false := by decide +kernel

theorem meets_ManagementFrames :
    (∀ st ∈ [StitchState.waking, .idle, .run, .hiz, .bypass, .opened, .fault], (dielet (withDielet (dl st)) 5).st ≠ .asleep)
    ∧ domOn base 5 = true ∧ (⟨0, 1, true⟩ : MgmtRx).crcOk = true ∧ (⟨0, 0, false⟩ : MgmtRx).crcOk = false
    ∧ (10 : BitVec 8).toNat < 11 ∧ bitsOf (1 : Word) 0 1 = 1 ∧ bitsOf (0 : Word) 0 1 = 0
    ∧ (dl .run).mode = none ∧ (dl .hiz).mode = none ∧ (dl .idle).mode ≠ some true ∧ (dl .idle).mode ≠ some false
    ∧ (dl .idle).clamp = false ∧ (dl .idle).hemoff = false
    ∧ (dielet (withDielet { dl .bypass with mode := some false }) 5).mode ≠ none ∧ (bleedSt base 5).ended = none
    ∧ (dielet (withDielet { dl .idle with bleed := true }) 5).bleed = true ∧ (dielet (withDielet (dl .idle)) 5).bad ≠ 2
    ∧ (let d := dielet (withDielet { dl .idle with bad := 2 }) 5; d.bad = 2 ∧ d.awake = true)
    ∧ (∀ m ∈ [some true, some false], (dl .idle).mode ≠ m) ∧ (dl .idle).lost = false
    ∧ (∀ d ∈ [{ dl .hiz with clamp := true, gl := true }, { dl .run with gh := true }, { dl .run with incoming := some .low }, dl .opened],
        (dielet (withDielet d) 5) = d ∧ d.mode ≠ some false ∧ d.st ≠ .waking ∧ d.hemoff = false)
    ∧ ({ dl .hiz with hemoff := true } : Dielet).hemoff = true ∧ (dl .waking).st = .waking
    ∧ (∀ m ∈ [some true, some false], (dielet (withDielet { dl .opened with mode := m }) 5).mode ≠ none)
    ∧ bitsOf (0 : Word) 0 1 = 0 := by decide +kernel

theorem meets_DieletBypass : stitchThere base 5 = true
    ∧ (dielet (withDielet { dl .opened with verify := true }) 5).verify = true
    ∧ (let d := dielet (withDielet { dl .bypass with settings := [(0, 0xFFFFFFFF)] }) 5
       d.st = .bypass ∧ dieletField d (R.STI_CFG_BYPTOP 0) = 1 ∧ d.topup = false ∧ d.hemoff = false)
    ∧ (∀ h ∈ [true, false], let d := dielet (withDielet { dl .bypass with topup := true, hemoff := h }) 5; d.topup = true ∧ d.hemoff = h)
    ∧ (dielet (withDielet { dl .idle with bleed := true }) 5).bleed = true := by decide +kernel

/-- A frame due, and one out. -/
def hold : MgmtFrame := ⟨frHOLD, 0, 0, 3, 1⟩
def withLink (l : LinkEnd) : State := setLink base 5 l

/-- The stitch as seen in a state. -/
def seen (s : State) (st : Nat) : State := s.put (R.STI_STATE_STATE 5) st

/-- In DISCHARGE a stitch waits for its bleed. -/
def waitsBleed : State := setBleedSt (seen (inMode mDISCHARGE) 2) 5 ⟨none, true⟩

theorem meets_LinkFrames : (link (withLink { LinkEnd.zero with due := [hold] }) 5).due = hold :: []
    ∧ (link (withLink { LinkEnd.zero with out := [hold] }) 5).out = hold :: [] ∧ hold.sent < 4
    ∧ 4 ≤ ({ hold with sent := 4 } : MgmtFrame).sent
    ∧ (link (withLink { LinkEnd.zero with out := [{ hold with sent := 4 }] }) 5).out = { hold with sent := 4 } :: []
    ∧ (seen base 1).get (R.STI_STATE_STATE 5) ≠ 0 ∧ (seen base 1).get (R.STI_STATE_STATE 5) ≠ 7 ∧ domOn base 5 = true
    ∧ seenAwake (seen base 2) 5 = true ∧ (seen base 2).get (R.STI_STATE_STATE 5) ≠ 7
    ∧ mode waitsBleed = mDISCHARGE ∧ (bleedSt waitsBleed 5).waiting = true ∧ seenAwake waitsBleed 5 = true := by decide +kernel

theorem meets_Telemetry : ([(5, 300, 0x190), (6, 300, 0)] : List (Fin 96 × BitVec 12 × BitVec 12)).map (·.1) |>.Nodup := by
  decide +kernel

theorem meets_Telemetry_uplink : 2 ≤ (seen base 2).get (R.STI_STATE_STATE 5) ∧ (seen base 2).get (R.STI_STATE_STATE 5) ≠ 7
    ∧ (link base 5).out = [] ∧ (seen base 3).get (R.STI_STATE_STATE 5) = 3 ∧ retired (seen base 3) 5 = false
    ∧ base.get (R.STI_TEL0_VCELL 5) ≤ 340 ∧ (link base 5).silent = false
    ∧ 340 < (base.put (R.STI_TEL0_VCELL 5) 341).get (R.STI_TEL0_VCELL 5)
    ∧ (link (withLink { LinkEnd.zero with silent := true }) 5).silent = true ∧ domOn base 5 = true
    ∧ (dielet (withDielet (dl .run)) 5).awake = true ∧ (dielet base 5).awake = false := by decide +kernel

theorem meets_Retirement : acceptsAt base 0 (R.STI_CMD 95) = true ∧ acceptsAt base 0 R.STI_UCMD = true
    ∧ acceptsAt base 0 (R.STI_STR 95) = true ∧ c0.guard.toNat = 0x5A7E ∧ bad0.guard.toNat ≠ 0x5A7E ∧ retired base 5 = false
    ∧ mode base = mFITTING ∧ mode (inMode mFEED) ≠ mFITTING ∧ retired (retiredAs false) 5 = true ∧ domOn base 3 = true
    ∧ Mirror.ledger 5 ∈ ({ base with mirrors := [.ledger 5] } : State).mirrors := by decide +kernel

/-! ### Seams and carriers -/

/-- A root SINGLE (seam 1) of stitch 5, period 64,000 steps, its carrier running; the hem latch clear. -/
def tree : State :=
  let s := ((loaded.put (R.SEAM_DESC_TYPE 1) tSINGLE).put (R.SEAM_DESC_NCHILD 1) 1).setWord (R.SEAM_CHILD 1 0) 5
  let t := (((s.put (R.MOD_CAR_PER 1) 64000).flag R.MOD_STAT_EDGE_LOCK true).flag R.SAF_STAT_LATCH false)
  setCarrier { t with loadedPer := [(1, 64000)] } 1 { Carrier.zero with per := 64000, periods := 1 }

/-- The same as a SHIFT whose stitch is IDLE with its settings, its enable in effect. -/
def shifted : State :=
  let s := ((tree.put (R.SEAM_DESC_TYPE 1) tSHIFT).flag (R.SEAM_CTL_EN 1) true).flag (R.STI_STATE_SETOK 5) true
  { s.put (R.STI_STATE_STATE 5) 2 with enabled := [1] }

/-- Two children below seam 1, of a type; a SINGLE of a stitch, below it. -/
def two (ty a b : Nat) (s : State) : State :=
  ((s.put (R.SEAM_DESC_TYPE 1) ty).put (R.SEAM_DESC_NCHILD 1) 2).setWord (R.SEAM_CHILD 1 0) (BitVec.ofNat 32 (a + 256 * b))
def single (m k : Nat) (s : State) : State :=
  (((s.put (R.SEAM_DESC_TYPE m) tSINGLE).put (R.SEAM_DESC_NCHILD m) 1).put (R.SEAM_DESC_PARENT m) 1).setWord (R.SEAM_CHILD m 0)
    (BitVec.ofNat 32 k)

/-- The conditions that every statement about an update instant of root 1 has. -/
def rootReady (s : State) : Bool :=
  seamUsed s 1 && carriersRun s && s.get (R.SEAM_DESC_PARENT 1) == 0 && contextsOf s 1 == [] && (remoteX s 1).reply == []
    && decide ((children s 1).Nodup) && decide (s.get (R.SEAM_DESC_NCHILD 1) ≤ 16)

/-- Is every seam a LINK only where it is `m`, with no other LINK below root 1? -/
def onlyLink (s : State) (m : Nat) : Bool :=
  seams.all (fun k => seamType s k != tLINK || (s.get (R.SEAM_DESC_PARENT k) == 1) == (k == m))

theorem meets_CarrierInstants : seamUsed tree 1 = true ∧ carriersRun tree = true ∧ tree.get (R.MOD_CAR_PER 1) = (carrier tree 1).per
    ∧ tree.get (R.SEAM_DESC_PARENT 1) = 0 ∧ tree.on (R.SEAM_DESC_REMOTE 1) = false ∧ (∀ w, w < 64 → tree.on (R.WIN_STAT_LATCHED w) = false)
    ∧ shifted.on (R.SEAM_CTL_EN 1) = true ∧ seamType shifted 1 = tSHIFT ∧ (children shifted 1)[0]? = some 5
    ∧ isStitchCode 5 = true ∧ mayRun shifted 5 = true
    ∧ ((carrier tree 1).periods - 1) % (tree.get (R.MOD_OPT_SMPDIV 1) + 1) = 0
    ∧ ((carrier (setCarrier tree 1 { carrier tree 1 with periods := 2 }) 1).periods - 1)
        % ((tree.put (R.MOD_OPT_SMPDIV 1) 1).get (R.MOD_OPT_SMPDIV 1) + 1) ≠ 0
    ∧ ({ tree with syncOut := some 9 } : State).syncOut = some 9 := by decide +kernel

theorem meets_CarrierInstants_update : rootReady tree = true ∧ (children tree 1).all isStitchCode = true ∧ seamType tree 1 = tSINGLE
    ∧ onlyLink tree 0 = true
    ∧ (∀ ty ∈ [tBRIDGE, tSHIFT, tTRIAD, tSTACK], let s := two ty 5 6 tree
        rootReady s = true ∧ onlyLink s 0 = true ∧ seamType s 1 = ty ∧ children s 1 = [5, 6]
          ∧ s.on (R.SEAM_DESC_REMOTE 1) = false)
    ∧ (∀ ty ∈ [tBRIDGE, tSHIFT, tTRIAD], let s := single 2 5 (single 3 6 (two ty 0x82 0x83 tree))
        rootReady s = true ∧ onlyLink s 0 = true ∧ children s 1 = [0x82, 0x83]
          ∧ (∀ m ∈ [2, 3], seamType s m = tSINGLE ∧ s.get (R.SEAM_DESC_NCHILD m) = 1)
          ∧ (children s 1).map (fun c => childCode s (c - 0x80) 0) = [5, 6]) := by decide +kernel

/-- A STACK of stitches 5 and 6, both joined in RUN, that asks for half of its two levels; the current and the voltages of
the cells. -/
def stacked (pol : Bool) (v5 v6 : Nat) : State :=
  let s := ((two tSTACK 5 6 tree).put (R.SEAM_REF_REF 1) 16384).put (R.MOD_STK_SWAPMAX 1) 2
  let t := ((s.put (R.STI_STATE_STATE 5) 3).put (R.STI_STATE_STATE 6) 3).flag (R.MOD_STK_IPOL 1) pol
  let u := ((t.put (R.STI_TEL0_VCELL 5) v5).put (R.STI_TEL0_VCELL 6) v6).put (R.ACQ_RES_VALUE (t.get (R.MOD_STK_ISRC 1))) 1000
  setCarrier u 1 { carrier u 1 with levels := 2, joined := [5, 6], balOpen := true }

/-- What a command makes of a state. -/
def after (i : Instr) (s : State) : State :=
  match exec i s with
  | .next t => t
  | .fault _ => s
  | .refused _ => s

theorem meets_CarrierInstants_stack : (∀ p ∈ [true, false], let s := stacked p 300 310
      rootReady s = true ∧ onlyLink s 0 = true ∧ children s 1 = [5, 6] ∧ (carrier s 1).balOpen = true
        ∧ s.get (R.MOD_STK_SWAPHYS 1) = 0 ∧ s.get (R.SEAM_DESC_NCHILD 1) ≤ s.get (R.MOD_STK_SWAPMAX 1)
        ∧ s.get (R.MOD_REF_IDB 1) < (s.sget (R.ACQ_RES_VALUE (s.get (R.MOD_STK_ISRC 1)))).natAbs
        ∧ s.on (R.MOD_STK_IPOL 1) = p ∧ capable s 5 = true ∧ capable s 6 = true
        ∧ (freshV s 5 true).map (·.1) = some 300 ∧ (freshV s 6 true).map (·.1) = some 310)
    ∧ (carrier (after (.updateInstant true [⟨1, none⟩]) (stacked false 300 310)) 1).full = [5]
    ∧ (carrier (after (.updateInstant true [⟨1, none⟩]) (stacked true 300 310)) 1).full = [6] := by decide +kernel

/-- A BRIDGE of stitch 5 and LINK 2, whose exchange goes to seam 7 of role 2 through port 3, or does not. -/
def linkBelow (there : Bool) : State :=
  let s := (two tBRIDGE 5 0x82 tree).put (R.SEAM_DESC_TYPE 2) tLINK
  let t := ((s.put (R.SEAM_DESC_PARENT 2) 1).put (R.SEAM_LINK_ROLE 2) 2).put (R.SEAM_LINK_RSEAM 2) 7
  let u := (((t.flag R.FAB_STAT_BOUND true).put R.FAB_STAT_ROLE 1).put (R.FAB_PEER_METRIC 2) (if there then 1 else 255)).put
    (R.FAB_PEER_PORT 2) 3
  let v := ((u.put R.FAB_MEMBERS_MAP 3).put R.FAB_AGREE_MAP 3).flag (R.SEAM_CTL_EN 2) true
  { v.flag (R.SEAM_CTL_EN 1) true with enabled := [1, 2], fab := { v.fab with links := [(2, ⟨4, [], true⟩)] } }

/-- Root 1 as a REMOTE seam on which reference 100 waits, due at an instant of fabric time. -/
def remoteWaits (due : Int) : State :=
  let s := tree.flag (R.SEAM_DESC_REMOTE 1) true
  { s with fab := { s.fab with remotes := [(1, { RemoteX.zero with wait := [⟨100, 3, due⟩] })] } }

theorem meets_CarrierInstants_far : (∀ b ∈ [true, false], let s := linkBelow b
      rootReady s = true ∧ onlyLink s 2 = true ∧ children s 1 = [5, 0x82] ∧ seamType s 2 = tLINK
        ∧ s.get (R.SEAM_DESC_NCHILD 2) = 0 ∧ (linkX s 2).sent = [] ∧ linkSends s 2 = b ∧ (linkX s 2).ep = true)
    ∧ (let s := remoteWaits 0
       rootReady s = true ∧ onlyLink s 0 = true ∧ s.on (R.SEAM_DESC_REMOTE 1) = true ∧ seamType s 1 = tSINGLE
         ∧ (remoteX s 1).wait = [⟨100, 3, 0⟩] ∧ (0 : Int) ≤ fabricAt s (updateStep s 1)
         ∧ fabricAt (remoteWaits (10 ^ 12)) (updateStep (remoteWaits (10 ^ 12)) 1) < 10 ^ 12) := by decide +kernel

/-- With a context of seam 1 that always executes. -/
def ctxTree : State := (tree.put (R.CTX_CFG_TRIG 3) 1).flag (R.CTX_CFG_ALWAYS 3) true

theorem meets_CarrierInstants_context : ctxTree.get (R.CTX_CFG_TRIG 3) = 1 ∧ takes ctxTree 3 = true
    ∧ carriersRun ctxTree = true ∧ seamUsed ctxTree 1 = true := by decide +kernel

/-- `tree` with its stitch joined (`j`) or joining, and a fraction for it. -/
def fractioned (j : Bool) (x : Fraction) : State :=
  setFraction (setCarrier tree 1 (if j then { carrier tree 1 with joined := [5] } else { carrier tree 1 with joining := [5] })) 5 x

/-- Its stitch in RUN, joined, HIGH for the whole period, with a request for a refresh taken at step 300. -/
def refreshing : State :=
  let f : Fraction := { Fraction.zero with was := 65536, cur := 65536, due := 65536, next := 65536, per := 64000, asked := some 300 }
  ((fractioned true f).flag (R.STI_STATE_BSTREQ 5) true).put (R.STI_STATE_STATE 5) 3

theorem meets_EdgeInstants_slots : (fraction (fractioned true Fraction.zero) 5).edge = none
    ∧ (fraction (fractioned true { Fraction.zero with edge := some 0 }) 5).edge = some 0 ∧ (76 : Int) < 0 + 77
    ∧ 5 ∈ (carrier (fractioned false { Fraction.zero with join := some 100, low := some 100 }) 1).joining
    ∧ (fraction (fractioned false { Fraction.zero with join := some 100, low := some 100 }) 5).join = some 100
    ∧ assigned (fractioned false { Fraction.zero with join := some 100, edge := some 50 }) 5 100 = 127
    ∧ (fraction (fractioned false { Fraction.zero with join := some 100, low := some 100 }) 5).low = some ((868 : Int) - 768)
    ∧ stitchThere refreshing 5 = true ∧ carriersRun refreshing = true ∧ ownerOf refreshing 5 = 1
    ∧ 5 ∈ (carrier refreshing 1).joined ∧ refreshing.on (R.STI_STATE_BSTREQ 5) = true
    ∧ refreshing.get (R.STI_STATE_STATE 5) = 3 ∧ (fraction refreshing 5).asked ≠ none ∧ refreshAt refreshing 1 5 = some 32000
    ∧ refreshAt refreshing 1 5 ≠ some 0 ∧ assigned refreshing 5 32000 = 32000 ∧ refreshSlot refreshing 1 5 [0] = some 32000
    ∧ ownerOf tree 6 = 0 := by decide +kernel

/-- `tree` with its stitch joined and in RUN, its seam in effect, a fraction of one half in force. -/
def driving : State :=
  let s := fractioned true { Fraction.zero with cur := 32768, due := 32768, per := 64000 }
  { (s.put (R.STI_STATE_STATE 5) 3).flag (R.SEAM_CTL_EN 1) true with enabled := [1] }

/-- As `driving`, with a hold of its seam, or a reaction of its own. -/
def heldSeam1 : State := { driving with flt := { driving.flt with dets := [(0x2001, { Detector.zero with tier := 2, reach := 1 })] } }
def ownFault : State := { driving with flt := { driving.flt with dets := [(0x1005, { Detector.zero with tier := 1 })] } }

/-- As `driving`, with a latched window on its stitch. -/
def windowed : State := ((driving.put (R.WIN_CFG_TGT 0) 5).flag (R.WIN_STAT_LATCHED 0) true).flag (R.WIN_CTL_EN 0) true

theorem meets_EdgeInstants : stitchThere driving 5 = true ∧ carriersRun driving = true ∧ ownerOf driving 5 = 1
    ∧ 5 ∈ (carrier driving 1).joined ∧ 5 ∉ (carrier tree 1).joined ∧ (fraction driving 5).edge = none
    ∧ 5 ∈ (carrier (fractioned false Fraction.zero) 1).joining ∧ 5 ∉ (carrier (fractioned false Fraction.zero) 1).joined
    ∧ hemActive (driving.flag R.SAF_STAT_LATCH true) = true ∧ hemActive driving = false ∧ retired driving 5 = false
    ∧ (∀ b ∈ [true, false], let s := { driving with ledger := [(5, ⟨true, b, 0xF0, 1, 0⟩)] }
        retired s 5 = true ∧ (ledgerOf s 5).mode = b ∧ hemActive s = false)
    ∧ holdCovers heldSeam1 1 = true ∧ winCovers windowed 5 = true ∧ ownCovers ownFault 5 = true
    ∧ (driving.put (R.STI_STATE_STATE 5) 7).get (R.STI_STATE_STATE 5) ≠ 3 ∧ effEnabled { driving with enabled := [] } 1 = false
    ∧ 5 ∈ ({ driving with waits := [5] } : State).waits
    ∧ (holdCovers driving 1 = false ∧ winCovers driving 5 = false ∧ ownCovers driving 5 = false
        ∧ driving.get (R.STI_STATE_STATE 5) = 3 ∧ effEnabled driving 1 = true ∧ 5 ∉ driving.waits) := by decide +kernel

theorem meets_ModulatorWrites : acceptsAt tree 0 (R.MOD_CAR 1) = true ∧ acceptsAt tree 0 (R.MOD_PH 1) = true
    ∧ seamUsed tree 1 = true ∧ tree.get (R.SEAM_DESC_PARENT 1) = 0 ∧ tget (fun _ => 0) tree.loadedPer 1 ≤ 64000
    ∧ bitsOf (6400000 : Word) 0 23 = 6400000 ∧ tree.get (R.MOD_CAR_SYNC 1) ≠ 3
    ∧ (tree.put (R.MOD_CAR_SYNC 1) 2).get (R.MOD_CAR_SYNC 1) = 2 ∧ 6400000 % 32 = 0
    ∧ ¬ 64000 ≤ bitsOf (63999 : Word) 0 23 ∧ tree.get (R.MOD_PH_SRC_CTX 1) = 0
    ∧ (tree.put (R.MOD_PH_SRC_CTX 1) 63).get (R.MOD_PH_SRC_CTX 1) ≠ 0 := by decide +kernel

theorem meets_ModulatorWrites_sync : domOn tree 5 = true ∧ syncInRoot tree = 0
    ∧ syncInRoot (tree.put (R.MOD_CAR_SYNC 1) 1) = 1 ∧ carriersRun (tree.put (R.MOD_CAR_SYNC 1) 1) = true
    ∧ 1 ≤ (carrier (setCarrier tree 1 { carrier tree 1 with aligned := 1 }) 1).aligned
    ∧ 64 < (wrapPhase (nominal tree 1) 65).natAbs ∧ (wrapPhase (nominal tree 1) 4).natAbs ≤ 4 := by decide +kernel

/-! ### Contexts -/

/-- Context `c` in a state. -/
def withCtx (c : Nat) (x : CtxSt) : State := setCtxSt base c x

theorem meets_SetPointWrites : acceptsAt base 0 (R.CTX_SP 63) = true ∧ base.get (R.CTX_CFG_SPSRC 63) = 0
    ∧ (base.put (R.CTX_CFG_SPSRC 63) 3).get (R.CTX_CFG_SPSRC 63) ≠ 0 := by decide +kernel

/-- Context 3 of seam 1 has its output for the set-point of context 4. -/
def routed : State :=
  setCtxSt ((((ctxTree.put (R.CTX_ROUTE_DEST 3) 4).put (R.CTX_ROUTE_NUM 3) 4).put (R.CTX_CFG_SPSRC 4) 3)) 3
    { CtxSt.zero with ex := .done }

theorem meets_SetPointWrites_route : seamUsed routed 1 = true ∧ carriersRun routed = true ∧ seamType routed 1 ≠ tSTACK
    ∧ (∀ m ∈ seams, seamType routed m = tLINK → routed.get (R.SEAM_DESC_PARENT m) ≠ 1) ∧ (remoteX routed 1).reply = []
    ∧ (routed.flag (R.CTX_CTL_PARK 3) true).on (R.CTX_CTL_PARK 3) = true
    ∧ (routed.flag (R.CTX_STAT_HPARK 3) true).on (R.CTX_STAT_HPARK 3) = true
    ∧ (routed.put (R.CTX_CFG_SPSRC 4) 5).get (R.CTX_CFG_SPSRC 4) ≠ 3 ∧ contextsOf routed 1 = [3] ∧ (ctxSt routed 3).ex = .done ∧ (ctxSt routed 3).noOut = false
    ∧ routed.get (R.CTX_ROUTE_DEST 3) = 4 ∧ routed.get (R.CTX_ROUTE_NUM 3) = 4 ∧ routed.get (R.CTX_CFG_SPSRC 4) = 3 := by
  decide +kernel

/-- A capture of six sources that read nothing. -/
def cap : Capture := ⟨[], false, [], 0, 0, 0, 1, 5, false, 0, false, 0, 0, 0⟩

/-- Contexts 1 to 8 run. -/
def lanesFull : State := { base with ctxs := (List.range 8).map (fun c => (c + 1, { CtxSt.zero with ex := .running })) }

/-- Contexts 3 and 4 wait settled for no round; 4 has the later latest start. -/
def twoWait : State :=
  let w : CtxSt := { CtxSt.zero with ex := .waiting, eligible := true, ls := 7 }
  setCtxSt (withCtx 3 w) 4 { w with ls := 8 }

theorem meets_ContextExecution_order : settled twoWait 3 = true ∧ settled twoWait 4 = true ∧ (ctxSt twoWait 3).rounds = []
    ∧ (ctxSt twoWait 4).rounds = [] ∧ (ctxSt twoWait 3).ls < (ctxSt twoWait 4).ls ∧ lanesBusy twoWait < 8
    ∧ (∀ d, 1 ≤ d → d < 64 → d ≠ 3 → settled twoWait d = true → (ctxSt twoWait d).rounds = [] →
        (ctxSt twoWait 3).ls < (ctxSt twoWait d).ls) := by decide +kernel

theorem meets_ContextExecution :
    (ctxSt (withCtx 63 { CtxSt.zero with ex := .waiting }) 63).ex = .waiting
    ∧ settled (withCtx 63 { CtxSt.zero with ex := .waiting, eligible := true }) 63 = true
    ∧ (ctxSt (withCtx 63 { CtxSt.zero with ex := .waiting, eligible := true }) 63).rounds = [] ∧ lanesBusy base < 8
    ∧ settled (withCtx 63 { CtxSt.zero with ex := .waiting }) 63 = false
    ∧ lanesBusy twoWait + readyBefore twoWait 3 < 8 ∧ readyBefore twoWait 3 = 0 ∧ readyBefore twoWait 4 = 1
    ∧ 8 ≤ lanesBusy lanesFull + readyBefore lanesFull 63 ∧ (ctxSt (setCtxSt lanesFull 63 (ctxSt twoWait 3)) 63).ex = .waiting
    ∧ tb (base.get (R.CTX_CFG_STG 63)) 5 = false
    ∧ (let s := withCtx 63 { CtxSt.zero with ex := .running, cap := some cap }
       let stg := s.get (R.CTX_CFG_STG 63)
       let f := lawFront stg cap (ctxSt s 63)
       let p := lawPi (tb stg 4) cap (ctxSt s 63) f.ef
       let o := lawBack stg cap (ctxSt s 63) f p 0
       (ctxSt s 63).ex = .running ∧ (ctxSt s 63).cap = some cap ∧ tb stg 5 = false
         ∧ (freezeCheck (s.word (R.CTX_FRZ 63)).toNat 0 o.y o.x).2 = false
         ∧ (sourceChecks (ctxSt s 63).used cap.srcs (ctxSt s 63).checks).2.2 = [] ∧ s.get (R.CTX_LIM1_SATN 63) = 0) := by
  decide +kernel

/-- Context 3, parked, with 4 cells of pleat memory. -/
def parked : State :=
  setCtxSt (((base.put (R.PLT_MEM_LEN 3) 4).flag (R.CTX_STAT_PARKED 3) true).flag (R.PLT_CTL_RSTMEM 3) true) 3
    { CtxSt.zero with ex := .parked }

theorem meets_ContextWrites : acceptsAt base 0 (R.CTX_CTL 63) = true ∧ (ctxSt base 63).ex = .idle
    ∧ (ctxSt parked 3).ex = .parked ∧ parked.on (R.CTX_STAT_HPARK 3) = false ∧ parked.on (R.PLT_STAT_CLEARING 3) = false
    ∧ parked.on (R.CTX_STAT_PARKED 3) = true ∧ parked.on (R.PLT_CTL_RSTMEM 3) = true ∧ plen parked 3 ≠ 0
    ∧ base.on (R.CTX_STAT_PARKED 3) = false ∧ (ctxSt (withCtx 3 { CtxSt.zero with ex := .running }) 3).ex = .running
    ∧ acceptsAt base 0 (R.PLT_QF 63) = true ∧ q15 0x4000 + 2 * q15 0x2000 ≤ 32768 ∧ 32768 < q15 0x4000 + 2 * q15 0x2001
    ∧ acceptsAt base 0 (0x100000 + 4 * 131071) = true ∧ cellOwner parked 0 = 3 ∧ cellOwner base 0 = 0 := by decide +kernel

/-! ### Acquisition and windows -/

/-- Sequence 15 of two entries, enabled; `x` its own state. -/
def seqAt (x : SeqSt) : State :=
  let s := (base.put (R.ACQ_SQCFG_NENT 15) 2).flag (R.ACQ_SQCTL_EN 15) true
  { s with acq := { s.acq with seqs := [(15, x)] } }

/-- The same with a round running and a conversion of its entry `e` at converter 0. -/
def converting (left : List Nat) (e : Nat) : State :=
  let s := (seqAt ⟨left, [], 0, [], []⟩).flag (R.ACQ_SQSTAT_RUN 15) true
  { s with acq := { s.acq with convs := [(0, ⟨some (.seq 15 e), none⟩)] } }

/-- An urgent conversion at converter 3. -/
def urging : State := { base with acq := { base.acq with convs := [(3, ⟨some (.urgent 7), none⟩)] } }

theorem meets_AcquisitionRounds_seq : acceptsAt (seqAt SeqSt.zero) 0 (R.ACQ_SQCTL 15) = true
    ∧ seqOn (seqAt SeqSt.zero) 15 = true ∧ seqRuns (seqAt SeqSt.zero) 15 = false
    ∧ (seqAt SeqSt.zero).on (R.ACQ_SQCTL_EN 15) = true ∧ seqRuns (converting [0] 0) 15 = true
    ∧ (converting [0] 0).get (R.ACQ_SQCFG_POLICY 15) = 0 ∧ (converting [0] 0).get (R.ACQ_SQCFG_STALN 15) = 0
    ∧ base.on (R.ACQ_SQCTL_EN 15) = false ∧ (seqSt (converting [0] 0) 15).prog = [] := by decide +kernel

theorem meets_AcquisitionRounds_urgent : acceptsAt base 0 (R.ACQ_UGCTL 7) = true ∧ ugBusy urging 7 = true ∧ ugBusy base 7 = false
    ∧ base.acq.urgent = [] ∧ (conv base (base.get (R.ACQ_UGCFG_CONV 7))).job = none ∧ base.get (R.ACQ_UGCFG_CONV 7) < 4
    ∧ (conv urging 3).job = some (.urgent 7) := by decide +kernel

theorem meets_AcquisitionRounds_done :
    (∀ l ∈ [[0, 1], [1]], let s := converting l 1
      (conv s 0).job = some (.seq 15 1) ∧ entAvg s 15 1 ≤ 1 ∧ 1 ∉ (seqSt s 15).orngEp ∧ s.on (R.ACQ_SQSTAT_PEND 15) = false
        ∧ (tget (fun _ => Progress.zero) (seqSt s 15).prog 1).orng = false
        ∧ ∀ r, r < 16 → s.get (R.ACQ_SQCFG_TSRC r) = 2 → s.get (R.ACQ_SQCFG_TNUM r) ≠ 15)
    ∧ (seqSt (converting [0, 1] 1) 15).left.filter (· != 1) ≠ [] ∧ (seqSt (converting [1] 1) 15).left.filter (· != 1) = []
    ∧ 0 + 1 < entAvg ((converting [1] 1).put (R.ACQ_ENT_AVG (32 * 15 + 1)) 1) 15 1 := by decide +kernel

/-- Window 63 on OUTSIDE, enabled, with its own state. -/
def winAt (x : WinSt) : State :=
  let s := (base.put (R.WIN_CFG_MODE 63) 3).flag (R.WIN_CTL_EN 63) true
  { s with wins := [(63, x)] }

/-- Its upper comparator settled and active. -/
def active : WinSt := { WinSt.zero with hi := true, setHi := true }

theorem meets_AcquisitionRounds_code : ((-1200000000 : Int) ≤ 0 ∧ (0 : Int) ≤ 1199963378) ∧ (1200000000 : Int) < 1200000001
    ∧ (-1200000001 : Int) < -1200000000 ∧ (conv base 3).job = none ∧ (conv urging 3).job ≠ none
    ∧ (base.flag (R.ACQ_UGCTL_EN 7) false).on (R.ACQ_UGCTL_EN 7) = false := by decide +kernel

theorem meets_WindowTrips_more : winReports (winAt active) 63 true = true ∧ (winSt (winAt active) 63).setHi = true
    ∧ (winSt (winAt WinSt.zero) 63).dsetLo = false
    ∧ (let s := (winAt WinSt.zero).flag (R.WIN_STAT_LATCHED 63) true
       s.on (R.WIN_STAT_LATCHED 63) = true ∧ winCondition s 63 = false ∧ s.on (R.WIN_STAT_BLANKED 63) = false ∧ winOn s 63 = true
         ∧ winUses s 63 true = true ∧ (winSt s 63).dsetHi = false)
    ∧ (let s := (winAt active).flag (R.WIN_STAT_LATCHED 63) true
       s.on (R.WIN_STAT_LATCHED 63) = true ∧ winCondition s 63 = true) := by decide +kernel

theorem meets_WindowTrips : winOn (winAt WinSt.zero) 63 = true ∧ (winAt WinSt.zero).on (R.WIN_STAT_LATCHED 63) = false
    ∧ (winAt WinSt.zero).on (R.WIN_STAT_BLANKED 63) = false ∧ winUses (winAt WinSt.zero) 63 true = true
    ∧ winUses (winAt WinSt.zero) 63 false = true ∧ (winSt (winAt WinSt.zero) 63).dsetHi = false
    ∧ winArmed ((winAt active).flag (R.WIN_STAT_BLANKED 63) true) 63 true = true
    ∧ ((winAt active).flag (R.WIN_STAT_BLANKED 63) true).on (R.WIN_STAT_BLANKED 63) = true
    ∧ ((winAt active).flag (R.WIN_STAT_LATCHED 63) true).on (R.WIN_STAT_LATCHED 63) = true := by decide +kernel

theorem meets_WindowWrites : acceptsAt base 0 (R.WIN_THR 63) = true ∧ acceptsAt base 0 (R.WIN_STAT 63) = true
    ∧ acceptsAt base 0 (R.WIN_CTL 63) = true ∧ (winAt active).get (R.WIN_CFG_MODE 63) = 3 ∧ base.get (R.WIN_CFG_MODE 63) ≠ 3
    ∧ bitsOf (0x00010001 : Word) 16 10 ≤ bitsOf (0x00010001 : Word) 0 10
    ∧ bitsOf (0x00020001 : Word) 0 10 < bitsOf (0x00020001 : Word) 16 10
    ∧ winOn (winAt active) 63 = true ∧ winOn base 63 = false ∧ (0x80000000 : Word).getLsbD 31 = true
    ∧ winCondition (winAt active) 63 = true ∧ winCondition (winAt WinSt.zero) 63 = false
    ∧ ((winAt active).flag (R.WIN_STAT_LATCHED 63) true).on (R.WIN_STAT_LATCHED 63) = true
    ∧ (let s := ((winAt active).flag (R.WIN_STAT_LATCHED 63) true).flag (R.WIN_STAT_BLANKED 63) true
       s.on (R.WIN_STAT_LATCHED 63) = true ∧ s.on (R.WIN_STAT_BLANKED 63) = true ∧ winArmed s 63 true = true)
    ∧ base.on (R.WIN_CTL_EN 63) = false ∧ (winAt active).on (R.WIN_CTL_EN 63) = true
    ∧ (winAt active).on (R.WIN_STAT_LATCHED 63) = false := by decide +kernel

/-! ### The grid unit and the meter -/

/-- The grid unit in a mode, a round ready. -/
def gridIn (m : Nat) : State :=
  let s := loaded.put R.PWR_MODE_MODE m
  { s with grd := { s.grd with ready := true } }

/-- A curve point of the given action (frequency curve: index 31) with TIME 0 whose timer runs. -/
def pointAt (a : Nat) : State :=
  let s := (gridIn mFEED).setWord (R.GRD_FCRV 15) (BitVec.ofNat 32 (a * 2 ^ 30))
  { s with grd := { s.grd with timers := [(31, 1)] } }

theorem meets_GridActs : (gridIn mFEED).grd.ready = true ∧ gridRuns (gridIn mFEED) = true ∧ gPLL (gridIn mAUXILIARY) = false
    ∧ gPLL (gridIn mREADY) = true ∧ (gridIn mFEED).on R.GRD_STAT_HOLD = false
    ∧ ((gridIn mFEED).flag R.GRD_STAT_ISL true).on R.GRD_STAT_ISL = true ∧ base.on R.FLT_CFG_QPOL = false
    ∧ tget (fun _ => 0) base.grd.timers 31 = 0
    ∧ (∀ a ∈ [1, 2], tget (fun _ => 0) (pointAt a).grd.timers 31 = 1 ∧ ptTIME (pointWord (pointAt a) 31) ≤ 1
        ∧ ptACT (pointWord (pointAt a) 31) = a ∧ 31 ∉ (pointAt a).grd.acting ∧ gridRuns (pointAt a) = true
        ∧ gTRIP (pointAt a) = true ∧ gCEASE (pointAt a) = true
        ∧ gTRIP ((pointAt a).flag R.GRD_STAT_TRIPPED true) = true ∧ (pointAt a).on R.GRD_STAT_TRIPPED = false
        ∧ (pointAt a).on R.GRD_STAT_CEASE = false) := by decide +kernel

theorem meets_GridActs_ends : ((gridIn mFEED).flag R.GRD_STAT_CEASE true).on R.GRD_STAT_CEASE = true
    ∧ ceaseActs (gridIn mFEED) = false ∧ (gridIn mFEED).get R.GRD_CRVCTL_RETDLY * steps1ms ≤ (gridIn mFEED).grd.ceaseT
    ∧ ceaseActs { pointAt 2 with grd := { (pointAt 2).grd with acting := [31] } } = true
    ∧ ((gridIn mFEED).flag R.GRD_STAT_INJ true).on R.GRD_STAT_INJ = true
    ∧ (gridIn mFEED).get R.GRD_RT_POST * steps10ms ≤ 1
    ∧ (let s := ((gridIn mFEED).flag R.GRD_STAT_INJ true); 0 < { s.grd with injT := 1 }.injT)
    ∧ (∀ i, i < 32 → ptACT (pointWord (gridIn mFEED) i) = 1 → pointDue (gridIn mFEED) i = false) ∧ gPLL (gridIn mFEED) = true
    ∧ (let s := ((pointAt 1).flag R.GRD_STAT_TRIPPED true).flag R.GRD_STAT_HOLD true
       s.on R.GRD_STAT_TRIPPED = true ∧ tripRuns s = true ∧ s.on R.GRD_STAT_HOLD = true)
    ∧ ((gridIn mFEED).on R.GRD_STAT_HOLD = false ∧ (gridIn mFEED).on R.GRD_STAT_ISL = false)
    ∧ gENTER ((gridIn mFEED).flag R.GRD_STAT_LOCK true) = true
    ∧ entryHolds (((gridIn mFEED).flag R.GRD_STAT_LOCK true).put R.GRD_ENTV_VHI 1) = true
    ∧ (gridIn mFEED).on R.GRD_STAT_TRIPPED = false ∧ (gridIn mFEED).on R.GRD_STAT_ISL = false
    ∧ (gridIn mFEED).get R.GRD_ENTD_DLY * stepsPerSecond ≤ (gridIn mFEED).grd.entT := by decide +kernel

/-- TRIPPED, or ISL, with the hold that follows. -/
def gridHeld (f : Field) : State := ((gridIn mFEED).flag f true).flag R.GRD_STAT_HOLD true

theorem meets_GridActs_clear : acceptsAt (gridHeld R.GRD_STAT_TRIPPED) 0 R.GRD_STAT = true
    ∧ (0x80000000 : Word).getLsbD 31 = true ∧ (0x80000000 : Word).getLsbD 30 = false ∧ (0x80000000 : Word).getLsbD 21 = false
    ∧ (0x40000000 : Word).getLsbD 30 = true
    ∧ (gridHeld R.GRD_STAT_TRIPPED).on R.GRD_STAT_TRIPPED = true ∧ (gridHeld R.GRD_STAT_TRIPPED).on R.GRD_STAT_HOLD = true
    ∧ tripRuns (gridHeld R.GRD_STAT_TRIPPED) = false ∧ tripRuns (pointAt 1) = true
    ∧ (gridHeld R.GRD_STAT_ISL).on R.GRD_STAT_ISL = true
    ∧ islPresent { ((gridHeld R.GRD_STAT_ISL).flag R.GRD_ISL_AISEN true).put R.GRD_AIS_ADN 1 with
        grd := { (gridIn mFEED).grd with aisCnt := 1 } } = true := by decide +kernel

/-- Metering with channel 3 in a state. -/
def metering (x : MtrCh) : State :=
  setMtrCh (((base.flag R.MTR_CTL_EN true).flag (R.MTR_CHCFG_CHEN 3) true)) 3 x

/-- A channel that meters, and the same armed after a negative sample, 1,920 samples after its last crossing. -/
def runs : MtrCh := { MtrCh.zero with run := true }
def armed : MtrCh := { runs with armed := true, since := 1920, win := ⟨639, 0, 0, 0, 0⟩ }

theorem meets_MeterSamples : mtrRuns (metering runs) = true
    ∧ (∀ c, c < 4 → (mtrCh (metering runs) c).run = true → (mtrCh (metering runs) c).armed = false
        ∧ (mtrCh (metering runs) c).win.n + 1 < 640)
    ∧ (∀ c, c < 4 → (mtrCh (metering runs) c).run = false → (metering runs).on (R.MTR_CHCFG_CHEN c) = false)
    ∧ (mtrCh (metering armed) 3).isDc = false ∧ (mtrCh (metering armed) 3).armed = true ∧ (mtrCh (metering armed) 3).crossed = false
    ∧ (metering armed).on R.PAT_STAT_APPLYING = false ∧ (metering armed).on (R.MTR_CHCFG_CHEN 3) = true
    ∧ (mtrCh (metering runs) 3).since < 1920 ∧ (mtrCh (metering armed) 3).run = true
    ∧ (metering armed).on (R.MTR_CHSTAT_ZCTO 3) = false ∧ 1920 ≤ (mtrCh (metering armed) 3).since := by decide +kernel

/-- A closed window to add, a snapshot due; ring slot 1 PENDING. -/
def closing : State :=
  let s := metering { runs with closed := [⟨⟨384, 0, 0, 0, 0⟩, [], 7⟩] }
  { s with mtr := { s.mtr with dues := [⟨7, false, false⟩] } }
def pending : State := { base with mtr := { base.mtr with ring := [(1, ⟨1, [], []⟩)] } }

theorem meets_MeterSamples_window : (mtrCh closing 3).closed = ⟨⟨384, 0, 0, 0, 0⟩, [], 7⟩ :: []
    ∧ closing.mtr.dues = [⟨7, false, false⟩] ∧ (metering runs).mtr.dues = []
    ∧ asked (metering armed) = false ∧ asked { metering armed with mtr := { (metering armed).mtr with askNow := true } } = true
    ∧ (∀ k, k < 16 → (ringSlot closing k).st ≠ 1) ∧ (∀ c, c < 4 → c ≠ 3 → (mtrCh closing c).closed = [])
    ∧ base.part.isM = true ∧ domOn base 7 = true ∧ (ringSlot pending ((pending.mtr.rcnt + 1) % 16)).st = 1 ∧ (ringSlot base 1).st ≠ 1 ∧ base.mtr.drafts = [] := by
  decide +kernel

theorem meets_MeterWrites : acceptsAt base 0 R.MTR_CTL = true ∧ base.on R.MTR_CTL_EN = false
    ∧ (metering runs).on R.MTR_CTL_EN = true ∧ (∀ c, c < 4 → (mtrCh base c).run = false) ∧ (mtrCh (metering runs) 3).run = true
    ∧ (3 : Nat) < 4 ∧ (metering runs).mtr.dues = [] ∧ sealAddr 0x0A1000 = true ∧ (regAt 0x0A1000).isSome = true
    ∧ acceptsAt base 0 0x0A1000 = true ∧ base.get R.PAT_STAT_SEAL ≠ 2
    ∧ (base.put R.PAT_STAT_SEAL 2).get R.PAT_STAT_SEAL = 2 ∧ sealAddr 0x0A1050 = false
    ∧ acceptsAt base 0 0x0A1050 = true := by decide +kernel

/-! ### Faults -/

/-- A detector of stitch 95 with its reaction. -/
def reacting (d : Detector) : State := { base with flt := { base.flt with dets := [(0x105F, d)] } }

/-- An occurrence's shadow over every scope. -/
def shadowing : State := { base with flt := { base.flt with shadows := [⟨1, 0x1000, 10, 0xFFFFFF, true, 0⟩] } }

theorem meets_FaultOccurrences : domOn base 1 = true ∧ detectorThere base 0x105F = true ∧ (classKinds 1).contains (scopeKind 0x105F) = true
    ∧ detectorThere base 0xE003 = true ∧ (classKinds 24).contains (scopeKind 0xE003) = true
    ∧ shadowing.flt.shadows.any (fun w => shadowCovers shadowing w 1 0x105F) = true
    ∧ base.flt.shadows.any (fun w => shadowCovers base w 1 0x105F) = false
    ∧ (base.flag (R.FLT_CRSTAT_UNCL 1) true).on (R.FLT_CRSTAT_UNCL 1) = true ∧ base.on (R.FLT_CRSTAT_UNCL 1) = false := by
  decide +kernel

theorem meets_FaultOccurrences_reaction :
    (detector (reacting { Detector.zero with latched := true }) 0x105F).latched = true ∧ (detector base 0x105F).latched = false
    ∧ base.on R.FLT_CFG_QPOL = false ∧ (detector base 0x105F).tier = 0
    ∧ (base.put (R.FLT_MAP_SHLEN 1) 1).get (R.FLT_MAP_SHLEN 1) ≠ 0 ∧ domOn loaded 3 = true
    ∧ loaded.on R.PAT_STAT_LOADED = true ∧ loaded.pat.checked = false
    ∧ (base.on R.PAT_STAT_LOADED && domOn base 2) = false ∧ base.flt.opening = none ∧ ({ base with flt := { base.flt with opening := some [] } } : State).flt.opening = some [] := by decide +kernel

/-- A reaction of class 1 whose lift is due, lifted `n` times before. -/
def lifting (n : Nat) : State :=
  { (reacting { Detector.zero with tier := 1, gcls := 1, rcnt := n }).put (R.FLT_TIME_QPER 1) 1 with tick := 10 }

/-- The same of grid detector, for a reaction that becomes permanent without a stitch. -/
def liftingGrid : State :=
  { (base.put (R.FLT_TIME_QPER 15) 1) with tick := 10, flt := { base.flt with dets := [(0x6000, { Detector.zero with tier := 1, gcls := 15 })] } }

theorem meets_FaultReleases : liftDue base 0x105F = false ∧ liftDue (lifting 0) 0x105F = true
    ∧ 0 < ((lifting 0).put (R.FLT_MAP_RLIM 1) 1).get (R.FLT_MAP_RLIM 1)
    ∧ (lifting 0).get (R.FLT_MAP_RLIM 1) ≤ 0 ∧ scopeKind 0x105F = 1 ∧ scopeKind 0x6000 ≠ 1
    ∧ liftDue liftingGrid 0x6000 = true ∧ liftingGrid.get (R.FLT_MAP_RLIM 15) ≤ 0 := by decide +kernel

theorem meets_FaultReleases_commands : acceptsAt base 0 R.FLT_CMD = true
    ∧ 1 ≤ (detector (reacting { Detector.zero with tier := 1 }) 0x105F).tier
    ∧ (detector (reacting { Detector.zero with tier := 3, latched := true }) 0x105F).latched = true
    ∧ mode base = mFITTING
    ∧ (∀ m ∈ [mPRECHARGE, mCHARGE, mFEED, mISLAND, mAUXILIARY, mDISCHARGE], mode (inMode m) ∉ [mREADY, mFITTING, mBASTING, mSAFEOFF]
        ∧ acceptsAt (inMode m) 0 R.FLT_CMD = true) ∧ (detector base 0x105F).tier = 0
    ∧ acceptsAt base 0 (R.FLT_CRSTAT 24) = true ∧ (0x80000000 : Word).getLsbD 31 = true
    ∧ classActs (lifting 0) 1 = true ∧ classActs base 24 = false ∧ base.on (R.FLT_CRSTAT_LATCH 24) = false
    ∧ (base.flag (R.FLT_CRSTAT_LATCH 24) true).on (R.FLT_CRSTAT_LATCH 24) = true := by decide +kernel

/-! ### The hem -/

/-- Pair 3 enabled with DISC 1, its wires differing, `n` ticks counted. -/
def pairAt (n : Nat) : State :=
  (((base.flag (R.SAF_PCFG_EN 3) true).put (R.SAF_PCFG_DISC 3) 1).flag (R.SAF_PSTAT_PA 3) true).put (R.SAF_PSTAT_DCNT 3) n

/-- SRST, high for `n` ticks, is low or high. -/
def srstAt (lev : Bool) (n : Nat) : State :=
  { base with saf := { base.saf with srst := { WireSt.zero with sample := lev }, high := n } }

theorem meets_HemTicks : (pairAt 0).on (R.SAF_PCFG_EN 3) = true ∧ (pairAt 0).on (R.SAF_PSTAT_DISCF 3) = false
    ∧ (pairAt 8).get (R.SAF_PSTAT_DCNT 3) + 1 < pairN (pairAt 8) 3 ∧ pairN (pairAt 9) 3 = (pairAt 9).get (R.SAF_PSTAT_DCNT 3) + 1
    ∧ (pairAt 10).on (R.SAF_PSTAT_PA 3) ≠ (pairAt 10).on (R.SAF_PSTAT_PB 3)
    ∧ pairN (pairAt 10) 3 ≤ (pairAt 10).get (R.SAF_PSTAT_DCNT 3)
    ∧ (∀ n ∈ [1, 499, 500], (srstAt false n).saf.srst.sample = false ∧ (srstAt false n).saf.high = n
        ∧ (srstAt false n).on R.SAF_RSTS_STUCK = false)
    ∧ (srstAt true 20000).saf.srst.sample = true ∧ (srstAt true 20000).saf.high = 20000
    ∧ demands (base.flag R.SAF_STAT_SPO true) ≠ [] ∧ demands base = [] ∧ base.on R.SAF_STAT_LATCH = true
    ∧ base.get R.SAF_LCAUSE_CAUSE = 1 ∧ (base.flag R.SAF_CFG_AUTOPU true).on R.SAF_CFG_AUTOPU = true
    ∧ base.on R.SAF_CFG_AUTOPU = false ∧ 20001 ≤ (srstAt true 20001).saf.high ∧ base.saf.high < 20001
    ∧ base.on R.SAF_HVIL_HVEN = false ∧ (base.flag R.SAF_HVIL_HVEN true).on R.SAF_HVIL_HVEN = true := by decide +kernel

/-- Contactor 3 whose enable changed at tick 0 and whose read-back is late. -/
def contactor : State :=
  let s := (base.flag (R.SAF_CCFG_EN 3) true).put R.SAF_CTR_EN 8
  { s with tick := 100, saf := { s.saf with ctrs := [(3, ⟨some 0⟩)] } }

theorem meets_HemTicks_contactor : base.on (R.SAF_CCFG_EN 3) = false ∧ contactor.on (R.SAF_CCFG_EN 3) = true
    ∧ (tget (fun _ => CtrSt.zero) contactor.saf.ctrs 3).changedAt = some 0
    ∧ 0 + 10 * contactor.get (R.SAF_CCFG_TFB 3) < contactor.tick ∧ fbClosed contactor 3 true ≠ tb (contactor.get R.SAF_CTR_EN) 3
    ∧ tb (contactor.get R.SAF_CTR_FBERR) 3 = false := by decide +kernel

/-- The latch clear; the filter of SPO_N running at a level. -/
def clear : State := base.flag R.SAF_STAT_LATCH false
def filtering (low : Bool) : State := { base with saf := { base.saf with spoLow := low, spoSet := true } }

/-- A self-test running; an enabled seam; an enabled root. -/
def testing : State := base.flag R.SAF_STAT_STRUN true

theorem meets_HemDemands : domOn base 1 = true ∧ base.saf.spoLow = !false ∧ base.saf.spoSet = false
    ∧ (filtering true).saf.spoSet = true ∧ (filtering true).saf.spoLow = true ∧ (filtering false).saf.spoLow = false
    ∧ clear.on R.SAF_STAT_LATCH = false ∧ clear.get R.SAF_CFG_DISEN = 0 ∧ clear.pwr.disHost = false ∧ mode clear = mFITTING
    ∧ acceptsAt base 0 R.SAF_CTR = true ∧ base.on R.SAF_STAT_LATCH = true ∧ bitsOf w0.data 0 4 ≠ 0 ∧ bitsOf (0 : Word) 0 4 = 0
    ∧ acceptsAt base 0 R.SAF_CTL = true ∧ bad0.guard.toNat ≠ 0x5A7E ∧ c0.guard.toNat = 0x5A7E
    ∧ (∃ n ∈ seams, effEnabled driving n = true) ∧ (∀ n ∈ seams, effEnabled base n = false) ∧ anyRootEn (tree.flag (R.SEAM_CTL_EN 1) true) = true
    ∧ anyRootEn base = false ∧ base.on R.SAF_STAT_DISREQ = false ∧ base.on R.SAF_STAT_STRUN = false
    ∧ testing.on R.SAF_STAT_STRUN = true
    ∧ (dielet (withDielet (dl .run)) 5).awake = true ∧ (dielet (withDielet (dl .run)) 5).lost = false := by decide +kernel

/-- Stream 3 enabled, with its own state; a copy for bus A with its check. -/
def streamAt (x : StreamSt) : State :=
  let s := base.flag (R.SAF_HRXCFG_EN 3) true
  { s with tick := 1, saf := { s.saf with streams := [(3, x)] } }
def copy (bus : Nat) : List Byte :=
  let b := [1, 2, 3, 4, 5, 6, 7, 8, 9, 0, 0, 0]
  b ++ leBytes 4 (hemCrc (streamAt StreamSt.zero) bus (b ++ [0, 0, 0, 0]))

/-- A window that the copy of bus B has opened at tick 0. -/
def opened : StreamSt := { StreamSt.zero with window := some (9, 1, (copy 0).take 10, 0) }

theorem meets_HemStreams : domOn base 1 = true ∧ hemStream base false 0 = none ∧ hemStream (streamAt StreamSt.zero) false 0 = some 3
    ∧ (copy 0).length = 16 ∧ leNat (slice (copy 0) 9 1) = (streamAt StreamSt.zero).get (R.SAF_HRXCFG_FID 3)
    ∧ slice (copy 0) 10 2 = [0, 0] ∧ leNat (slice (copy 0) 12 4) = hemCrc (streamAt StreamSt.zero) (bit false) (copy 0)
    ∧ leNat (slice (copy 0) 8 1) = 9 ∧ (streamSt (streamAt StreamSt.zero) 3).window = none
    ∧ (streamSt (streamAt { StreamSt.zero with seen := true, counter := 9 }) 3).counter = 9
    ∧ (streamSt (streamAt opened) 3).window = some (9, 1, (copy 0).take 10, 0) ∧ bit false ≠ 1 ∧ opened.seen = false
    ∧ (copy 0).take 10 ≠ [] := by decide +kernel

theorem meets_HemStreams_time : (streamSt base 3).window = none ∧ (streamAt opened).tick = 1
    ∧ 1 ≤ 0 + 10 * ((streamAt opened).put (R.SAF_HRXTIM_WIN 3) 1).get (R.SAF_HRXTIM_WIN 3)
    ∧ 0 + 10 * ((streamAt opened).put (R.SAF_HRXTIM_WIN 3) 0).get (R.SAF_HRXTIM_WIN 3) < 1
    ∧ base.on (R.SAF_HRXCFG_EN 3) = false ∧ (streamAt StreamSt.zero).on (R.SAF_HRXCFG_EN 3) = true
    ∧ (let s := ((streamAt StreamSt.zero).put (R.SAF_HRXTIM_WIN 3) 0).put (R.SAF_HRXTIM_PER 3) 0
       (streamSt s 3).lost = false
         ∧ (streamSt s 3).openedAt + 10 * (s.get (R.SAF_HRXTIM_PER 3) + s.get (R.SAF_HRXTIM_WIN 3)) < s.tick)
    ∧ base.on R.SAF_HTXCFG_EN = false ∧ (base.flag R.SAF_HTXCFG_EN true).on R.SAF_HTXCFG_EN = true := by decide +kernel

/-! ### Overlock units and identity -/

/-- Unit 0 with a stream of port 0 open; armed with AW = 0, INC = 1, last value 15; unit 15 has a role. -/
def unitOpen : State := base.flag (R.OVL_STAT_OPEN 0) true
def unitArmed (x : OvlSt) : State :=
  let s := (base.flag (R.OVL_ACFG_AEN 0) true).put (R.OVL_ASTAT_LAST 0) 15
  { s with ovl := [(0, x)] }

theorem meets_OverlockUnits : acceptsAt base 0 (R.OVL_CMD 0) = true ∧ acceptsAt base 0 (R.OVL_DIN4 0) = true
    ∧ acceptsAt base 0 (R.OVL_DIN1 0) = true ∧ base.get (R.OVL_CFG_ROLE 15) ≠ 0 ∧ base.get (R.OVL_CFG_ROLE 0) = 0
    ∧ unitOpen.on (R.OVL_STAT_OPEN 0) = true ∧ unitOpen.get (R.OVL_STAT_OWNER 0) = 0 ∧ base.on (R.OVL_STAT_OPEN 0) = false
    ∧ (∀ k ∈ [0, 6], acceptsAt base 0 (ovlParReg 0 k) = true)
    ∧ (ovlParOf (plainWrite (ovlParReg 0 1) 1 base) 0).valid = true
    ∧ (ovlParOf (plainWrite (ovlParReg 0 1) 2 base) 0).valid = false := by decide +kernel

theorem meets_OverlockUnits_alive : acceptsAt base 0 (R.OVL_ACFG 0) = true ∧ acceptsAt base 0 (R.OVL_AFEED 0) = true
    ∧ bitsOf (0xC0000000 : Word) 30 2 = 3 ∧ bitsOf (0x80000000 : Word) 30 2 ≠ 3 ∧ base.on (R.OVL_ACFG_AEN 0) = false
    ∧ (unitArmed OvlSt.zero).on (R.OVL_ACFG_AEN 0) = true ∧ (ovlSt (unitArmed { OvlSt.zero with fresh := true }) 0).fresh = true
    ∧ (ovlSt (unitArmed OvlSt.zero) 0).fresh = false
    ∧ (let s := (unitArmed OvlSt.zero).put (R.OVL_ACFG_TOL 0) 2
       let d := fun (v : Nat) => (v + 256 - s.get (R.OVL_ASTAT_LAST 0) % 256) % 256
       2 ^ aliveBits (s.get (R.OVL_ACFG_AW 0)) = 256 ∧ s.get (R.OVL_ACFG_INC 0) ≤ 1 ∧ s.get (R.OVL_ACFG_TOL 0) = 2
         ∧ d 16 = 1 ∧ d 17 = 2 * 1 ∧ d 18 = (2 + 1) * 1 ∧ d 15 = 0 ∧ ∀ k, 2 ≤ k → k ≤ 3 → d 19 ≠ k * 1)
    ∧ max 1 ((unitArmed OvlSt.zero).get (R.OVL_ACFG_INC 0)) < 2 ^ aliveBits ((unitArmed OvlSt.zero).get (R.OVL_ACFG_AW 0)) := by
  decide +kernel

/-- Requests at the signing engine; a PENDING record in slot 1. -/
def signing (r : SignReq) : State :=
  { base with idn := { base.idn with queue := [r] }, mtr := { base.mtr with ring := [(1, ⟨1, List.replicate 192 0, []⟩)] } }

theorem meets_IdentityCommands : acceptsAt base 0 R.IDN_CMD = true ∧ bad0.guard.toNat ≠ 0x5A7E ∧ c0.guard.toNat = 0x5A7E
    ∧ (base.flag R.IDN_STAT_BUSY true).on R.IDN_STAT_BUSY = true ∧ base.on R.IDN_STAT_BUSY = false
    ∧ (base.flag R.IDN_STAT_KEYERR true).on R.IDN_STAT_KEYERR = true ∧ base.on R.IDN_STAT_KEYERR = false
    ∧ (base.flag R.IDN_STAT_RNGERR true).on R.IDN_STAT_RNGERR = true ∧ base.on R.IDN_STAT_RNGERR = false
    ∧ mode base ≠ mBASTING ∧ mode (inMode mBASTING) = mBASTING ∧ (base.flag R.IDN_STAT_KEYSET true).on R.IDN_STAT_KEYSET = true
    ∧ base.on R.IDN_STAT_KEYSET = false ∧ base.on R.IDN_STAT_KFAIL = false ∧ stagedHash base = 0
    ∧ stagedHash (base.setWord (R.IDN_KSTAGE 7) 1) ≠ 0 ∧ stagedHash (base.setWord (R.IDN_KSTAGE 7) 1) ≠ 2 ^ 256 - 1
    ∧ base.idn.fusing = none ∧ ({ base with idn := { base.idn with fusing := some 5 } } : State).idn.fusing = some 5
    ∧ base.idn.checking = false ∧ ({ base with idn := { base.idn with checking := true } } : State).idn.checking = true
    ∧ (signing (.host (List.replicate 128 0))).idn.queue = .host (List.replicate 128 0) :: [] ∧ signerOk base = true
    ∧ signerOk (base.flag R.IDN_STAT_KEYERR true) = false ∧ (signing .meter).idn.queue = .meter :: []
    ∧ oldestPending (signing .meter) = some 1 ∧ (signing .meter).hrv.burst ≠ 2 := by decide +kernel

/-! ### Power -/

/-- With a Pattern in force and confirmed, precharged, entry permitted, no latch, in a mode. -/
def readyIn (m : Nat) : State :=
  ((((clear.put R.PWR_MODE_MODE m).flag R.PAT_STAT_LOADED true).flag R.PAT_STAT_CONFIRMED true).flag R.PWR_STAT_PCDONE true).flag
    R.GRD_STAT_ENTOK true

theorem meets_ModeRequests : acceptsAt base 0 R.PWR_MODECTL = true ∧ (base.flag R.PWR_MODE_BUSY true).on R.PWR_MODE_BUSY = true
    ∧ base.on R.PWR_MODE_BUSY = false ∧ listed mFITTING mCHARGE = false ∧ listed mFITTING mREADY = true
    ∧ modeCondition base mREADY ≠ 0 ∧ mode (inMode mREADY) = mREADY ∧ patternReady (inMode mREADY) = false
    ∧ mode (inMode mPRECHARGE) = mPRECHARGE ∧ (inMode mPRECHARGE).on R.PWR_STAT_PCDONE = false
    ∧ (∀ m ∈ [mREADY, mPRECHARGE, mCHARGE, mFEED, mISLAND, mAUXILIARY], let s := readyIn m
        mode s = m ∧ acceptsAt s 0 R.PWR_MODECTL = true ∧ s.on R.PWR_MODE_BUSY = false ∧ s.on R.PWR_STAT_PCDONE = true
          ∧ s.on R.SAF_STAT_LATCH = false ∧ s.on R.PWR_STAT_SFAIL = false ∧ patternReady s = true ∧ anyRootEn s = false
          ∧ s.on R.GRD_STAT_ENTOK = true ∧ s.on (R.SEAM_CTL_EN (s.get R.GRD_CFG_ROOT)) = false)
    ∧ ((readyIn mPRECHARGE).flag R.GRD_STAT_ENTOK false).on R.GRD_STAT_ENTOK = false
    ∧ mode (readyIn mFITTING) = mFITTING ∧ groupOn (inMode mREADY) = true
    ∧ groupOn ((inMode mREADY).put R.PWR_DOM_ON 0xF) = false ∧ acceptsAt ((inMode mREADY).put R.PWR_DOM_ON 0xF) 0 R.PWR_MODECTL = true
    ∧ mode (inMode mSAFEOFF) = mSAFEOFF ∧ anyRootEn (inMode mSAFEOFF) = false ∧ base.get R.SAF_CTR_EN = 0
    ∧ base.get R.SAF_CTR_FB = 0 := by decide +kernel

theorem meets_ModeRequests_rest : (base.put R.PWR_PTIM_PTMAX 0).get R.PWR_PTIM_PTMAX = 0
    ∧ ((inMode mPRECHARGE).put R.PWR_PTIM_PTMAX 1).get R.PWR_PTIM_PTMAX ≠ 0 ∧ mode base ≠ mPRECHARGE
    ∧ acceptsAt base 0 R.PWR_CPERM = true ∧ (base.put R.SAF_CTR_EN 8).get R.SAF_CTR_EN ≠ 0 ∧ base.get R.SAF_CTR_EN = 0 := by
  decide +kernel

/-- The Selvedge domain alone, in WATCH, a wake source enabled; rails that are up or awaited; a power-down under way. -/
def watch : State := (State.reset.put R.PWR_WCFG_EN 0xFF)
def railsUp : State := (watch.put R.PWR_STAT_RAILOK 0xF).flag R.PWR_CLK_SYSLOCK true
def waking : State := { railsUp with pwr := { watch.pwr with railWait := true } }
def downTo (m : Nat) : State := { base.put R.PWR_WCFG_EN 0xFF with pwr := { base.pwr with downTo := some m } }

theorem meets_PowerDomains_wake : domOn watch 0 = true ∧ tb (watch.get R.PWR_WCFG_EN) 0 = true ∧ wakeCond watch 0 = true
    ∧ wakeCond { watch with pwr := { watch.pwr with alarmArmed := true } } 5 = true
    ∧ wakeCond railsUp 7 = true ∧ wakeCond watch 7 = false ∧ watch.pwr.downTo = none ∧ takenIn (mode watch) 0 = true
    ∧ watch.pwr.railWait = false ∧ (downTo mWATCH).pwr.downTo = some mWATCH ∧ wakeCond (downTo mWATCH) 0 = true
    ∧ (∀ m ∈ [mWATCH, mDORMANT], (downTo m).pwr.downTo = some m ∧ (downTo m).pwr.wakeLate = none)
    ∧ takenIn mWATCH 0 = true ∧ takenIn mDORMANT 4 = false ∧ mBASTING ≠ mWATCH ∧ mBASTING ≠ mDORMANT
    ∧ (let s : State := { downTo mWATCH with pwr := { (downTo mWATCH).pwr with wakeLate := some 5 } }
       s.pwr.downTo = some mWATCH ∧ s.pwr.wakeLate = some 5 ∧ takenIn mWATCH 5 = true)
    ∧ ({ watch with pwr := { watch.pwr with railWait := true } } : State).pwr.railWait = true
    ∧ watch.get R.PWR_STAT_RAILOK ≠ 0xF ∧ domOn watch 1 = false := by decide +kernel

/-- All of PD1 to PD3 on, the group wanted, its clock locked. -/
def groupWanted : State :=
  let s := ((base.put R.PWR_DOM_ON 0xF).flag R.PWR_CLK_EDGELOCK true).flag R.PWR_STAT_RESTPEND false
  { s with pwr := { s.pwr with groupOn := true, upTo := some mFITTING } }

theorem meets_PowerDomains_reset : domOn waking 0 = true ∧ (∀ n ∈ [1, 2, 3], domOn waking n = false ∧ wanted waking n = true)
    ∧ waking.on R.PWR_CLK_SYSLOCK = true ∧ (waking.flag R.PWR_CLK_SYSLOCK false).on R.PWR_CLK_SYSLOCK = false
    ∧ domOn groupWanted 4 = false ∧ domOn groupWanted 7 = false ∧ groupWanted.pwr.groupOn = true ∧ domOn groupWanted 1 = true
    ∧ domOn groupWanted 2 = true ∧ domOn groupWanted 3 = true ∧ groupWanted.on R.PWR_CLK_EDGELOCK = true
    ∧ groupWanted.pat.work = .idle ∧ groupWanted.pwr.upTo = some mFITTING ∧ groupWanted.on R.PWR_STAT_RESTPEND = false
    ∧ groupWanted.mtr.kept.ok = true
    ∧ (let s : State := { groupWanted with pwr := { groupWanted.pwr with railWait := true } }
       s.pwr.railWait = true ∧ domOn s 1 = true ∧ domOn s 2 = true ∧ domOn s 3 = true) := by decide +kernel

theorem meets_PowerDomains_down : watch.pwr.downTo = none ∧ (downTo mBASTING).pwr.downTo = some mBASTING
    ∧ (downTo mDORMANT).pwr.downTo = some mDORMANT ∧ domOn watch 1 = false ∧ domOn base 1 = true ∧ fuseAddr R.IDN_SERIAL_LO = true
    ∧ fuseAddr R.IDN_CMD = false ∧ domOn (State.reset.put R.PWR_DOM_ON 0) 0 = false
    ∧ (∀ c ∈ [MtrCopy.zero, ⟨[(0, 1)], 0⟩], let s : State := { (base.put R.PWR_DOM_ON 0xF).flag R.PWR_STAT_RESTPEND true with mram := { base.mram with meter := c } }
        domOn s 3 = true ∧ s.on R.PWR_STAT_RESTPEND = true ∧ groupOn s = false ∧ s.part.isM = true ∧ s.mram.meter = c)
    ∧ (∀ c ∈ [MtrCopy.zero, ⟨[(0, 1)], 0⟩], let s : State := { base with mtr := { base.mtr with kept := ⟨[(0, 1)], 0⟩ }, mram := { base.mram with meter := c } }
        s.mtr.kept.ok = false ∧ s.mram.meter = c) ∧ base.mtr.kept.ok = true
    ∧ MtrCopy.zero.ok = true ∧ (⟨[(0, 1)], 0⟩ : MtrCopy).ok = false
    ∧ (∀ m ∈ [Mirror.seal, .meter, .logMark], m ∈ ({ base with mirrors := [.seal, .meter, .logMark] } : State).mirrors)
    ∧ Mirror.seal ∉ base.mirrors := by decide +kernel

/-- Every clock good. -/
def clocked : State :=
  (((base.flag R.PWR_CLK_XREFOK true).flag R.PWR_CLK_SYSLOCK true).flag R.PWR_CLK_EDGELOCK true).flag R.PWR_CLK_SRC true

theorem meets_PowerMonitors : domOn base 1 = true ∧ mode base ≠ mWATCH ∧ mode base ≠ mDORMANT ∧ episode base 0 = false
    ∧ episode (setEpisode base 4 true) 4 = true ∧ domOn base 0 = true ∧ domOn base 2 = true
    ∧ (base.flag R.PWR_CLK_SRC false).on R.PWR_CLK_SRC = false ∧ clocked.on R.PWR_CLK_SRC = true ∧ xrefWanted base = true
    ∧ (base.flag R.PWR_CLK_XREFOK false).on R.PWR_CLK_XREFOK = false ∧ clocked.on R.PWR_CLK_XREFOK = true
    ∧ groupOn groupWanted = false ∧ groupWanted.pwr.groupOn = true ∧ groupOn clocked = true
    ∧ clocked.on R.MOD_STAT_EDGE_LOCK = false
    ∧ (∀ f ∈ [R.PWR_CLK_XREFOK, R.PWR_CLK_SYSLOCK, R.PWR_CLK_EDGELOCK], clocked.on f = true ∧ (base.flag f false).on f = false)
    ∧ (∀ k, k < 3 → episode clocked (8 + k) = false ∧ episode (setEpisode clocked (8 + k) true) (8 + k) = true)
    ∧ acceptsAt base 0 R.PWR_RTCW_LO = true ∧ acceptsAt base 0 R.PWR_ALARM_LO = true := by decide +kernel

/-- DISCHARGE with no Pattern in force and every cell asleep. -/
def discharging : State := inMode mDISCHARGE

theorem meets_PowerMonitors_discharge : mode base ≠ mDISCHARGE ∧ mode discharging = mDISCHARGE ∧ dischargeMet discharging = true
    ∧ dischargeMet (discharging.flag R.PAT_STAT_LOADED true) = false ∧ discharging.pwr.disBase < 16
    ∧ ({ discharging with pwr := { discharging.pwr with disFrom := mBASTING } } : State).pwr.disFrom = mBASTING
    ∧ ({ discharging with pwr := { discharging.pwr with disFrom := mREADY } } : State).pwr.disFrom ≠ mBASTING
    ∧ discharging.pwr.disBasting = false ∧ (discharging.put R.PWR_DISTIM_TMAX 0).get R.PWR_DISTIM_TMAX = 0
    ∧ (discharging.put R.PWR_DISTIM_TMAX 1).get R.PWR_DISTIM_TMAX ≠ 0 := by decide +kernel

/-! ### Harvest -/

/-- Sampling; a burst of record signatures or mirrors under way; work for a burst. -/
def sampling : State := ((base.flag R.HRV_CFG_EN true).flag R.HRV_CFG_TRKEN true).flag R.HRV_STAT_SAMPLING true
def bursting (hand : Bool) (ms : List Mirror) : State :=
  { base with hrv := { base.hrv with burst := 1, hand := hand }, mirrors := ms }
def burstAsked : State := { State.reset with mirrors := [.seal] }

theorem meets_Harvesting : hrvOn base = true ∧ sampling.on R.HRV_CFG_EN = true ∧ sampling.on R.HRV_CFG_TRKEN = true
    ∧ (base.flag R.HRV_CFG_EN false).on R.HRV_CFG_EN = false ∧ sampling.on R.HRV_STAT_SAMPLING = true
    ∧ base.on R.HRV_STAT_SAMPLING = false ∧ usable 5000 2400 = 0
    ∧ (let s := (base.put R.HRV_GTH_GTH 8).put R.HRV_GTH_ATH 1
       s.get R.HRV_GTH_GTH + s.get R.HRV_GTH_GTH / 8 = 9 ∧ 0 < s.get R.HRV_GTH_ATH ∧ s.get R.HRV_GTH_ATH ≤ s.get R.HRV_GTH_GTH)
    ∧ base.part.isM = true ∧ domOn (State.reset.put R.PWR_DOM_ON 0) 0 = false
    ∧ (State.reset.flag R.HRV_STAT_EXTSUP false).on R.HRV_STAT_EXTSUP = false ∧ State.reset.pwr.railWait = false
    ∧ mode State.reset = mWATCH ∧ 1 < (State.reset.put R.HRV_GAUGE_GRANT 2).get R.HRV_GAUGE_GRANT ∧ (State.reset.put R.HRV_GAUGE_GRANT 0).get R.HRV_GAUGE_GRANT = 0
    ∧ mode ((State.reset.put R.PWR_MODE_MODE mDORMANT).flag R.HRV_STAT_REDDORM true) = mDORMANT
    ∧ (State.reset.put R.HRV_GAUGE_GRANT 2).get R.HRV_GAUGE_GRANT ≠ 0 := by decide +kernel

theorem meets_Harvesting_burst : burstWork burstAsked = 1 ∧ burstAsked.hrv.burst = 0 ∧ domOn burstAsked 3 = false
    ∧ burstAsked.pwr.railWait = false ∧ burstAsked.pwr.downTo = none
    ∧ admitted (burstAsked.flag R.HRV_STAT_EXTSUP true) (firstCost 1) = true
    ∧ admitted ((burstAsked.flag R.HRV_STAT_EXTSUP false).put R.HRV_GAUGE_GRANT 0) (firstCost 1) = false
    ∧ hrvOn (bursting true []) = true ∧ (bursting true []).hrv.burst ≠ 0 ∧ domOn (bursting true []) 3 = true
    ∧ (bursting true []).hrv.hand = true ∧ (bursting false []).hrv.hand = false ∧ nextCost (bursting false []) = none
    ∧ nextCost (bursting false [.seal]) = some 45 ∧ (bursting false [.seal]).hrv.red = false
    ∧ admitted ((bursting false [.seal]).flag R.HRV_STAT_EXTSUP true) 45 = true
    ∧ admitted (((bursting false [.seal]).flag R.HRV_STAT_EXTSUP false).put R.HRV_GAUGE_GRANT 0) 45 = false := by decide +kernel

theorem meets_Harvesting_writes : (∀ k, k < 9 → acceptsAt base 0 (R.HRV_CFG + 4 * k) = true)
    ∧ hrvAllowed R.HRV_CFG 0 = false ∧ hrvAllowed R.HRV_CFG 0x20100000 = true ∧ hrvAllowed R.HRV_CAP 1 = true := by decide +kernel

/-! ### CAN -/

/-- Controller 1 running, its mailbox 31 enabled for reception of any standard identifier, its service on. -/
def canOn : State := (base.flag (R.CAN_CFG_EN 1) true).flag (R.CAN_STAT_RUN 1) true
def canBox : State := (canOn.flag (R.MB_CTL_EN 1 31) true).put (R.MB_MASK_M 1 31) 0
def canSvc : State := canOn.flag (R.CAN_SVC_EN 1) true
def canFrame : CanFrame := ⟨false, 0, false, false, false, false, 0, [], true, 0⟩

/-- The own state of controller 1. -/
def busAt (s : State) (x : CanBus) : State := { s with can := ⟨[(1, x)]⟩ }

theorem meets_CanReception : canRuns canOn 1 = true ∧ canOn.get (R.CAN_STAT_STATE 1) ≠ 2 ∧ canFrame.remote = false
    ∧ canFrame.good = true ∧ canFrame.fdf = false ∧ ({ canFrame with good := false } : CanFrame).good = false
    ∧ ({ canFrame with remote := true } : CanFrame).remote = true ∧ hemStream canOn false 0 = none ∧ isService canOn 1 canFrame = false
    ∧ mbMatches canBox 1 canFrame 31 = true ∧ (∀ k, k < 31 → mbMatches canBox 1 canFrame k = false) ∧ lockOf canBox 1 31 = none
    ∧ canBox.on (R.MB_STAT_FULL 1 31) = false ∧ (canBox.flag (R.MB_STAT_FULL 1 31) true).on (R.MB_STAT_FULL 1 31) = true
    ∧ lockOf (busAt canBox { CanBus.zero with locks := [(31, some 2)] }) 1 31 = some 2
    ∧ (∀ m, m < 32 → mbMatches canOn 1 canFrame m = false)
    ∧ (let s := canOn.flag (R.CAN_CFG_FDEN 1) true
       let x := canBus (busAt s { CanBus.zero with leaving := true }) 1
       s.on (R.CAN_CFG_FDEN 1) = true ∧ x.leaving = true ∧ x.rejoin = false ∧ x.job = none)
    ∧ (canOn.flag (R.CAN_CFG_FDEN 1) false).on (R.CAN_CFG_FDEN 1) = false
    ∧ domOn canOn 1 = true ∧ hemStream (canOn.flag (R.SAF_HRXCFG_EN 3) true) false 0 = some 3
    ∧ isService canSvc 1 canFrame = true := by decide +kernel

theorem meets_CanReception_service : canRuns canSvc 1 = true ∧ canSvc.on (R.CAN_SVC_EN 1) = true
    ∧ (canBus (busAt canSvc { CanBus.zero with service := some [] }) 1).service.isSome = true ∧ (canBus canSvc 1).service = none
    ∧ svcStatus false [] canSvc ≠ 0 ∧ svcStatus true [0x01, 0, 0x00, 0x00, 0x18, 1, 0, 0] canSvc = 0 := by decide +kernel

theorem meets_CanReception_clear : acceptsAt base 0 (R.MB_STAT 1 31) = true ∧ (0 : Word).getLsbD 31 = false
    ∧ (0x80000000 : Word).getLsbD 31 = true ∧ lockOf (busAt canOn { CanBus.zero with locks := [(31, some 0)] }) 1 31 = some 0
    ∧ lockOf canOn 1 31 ≠ some 0 := by decide +kernel

/-- Mailbox 31 pending. -/
def txPend : State := canOn.flag (R.MB_STAT_TXPEND 1 31) true

theorem meets_CanTransmission : acceptsAt base 0 (R.MB_CTL 1 31) = true ∧ txPend.on (R.MB_STAT_TXPEND 1 31) = true
    ∧ (0xC0000000 : Word).getLsbD 9 = false ∧ base.on (R.MB_STAT_TXPEND 1 31) = false ∧ (0xC0000000 : Word).getLsbD 31 = true
    ∧ (0xC0000000 : Word).getLsbD 30 = true ∧ (canBus txPend 1).job ≠ some (.mailbox 31)
    ∧ (canBus (busAt txPend { CanBus.zero with job := some (.mailbox 31) }) 1).job = some (.mailbox 31)
    ∧ canRuns canOn 1 = true ∧ canOn.on (R.CAN_CFG_MODE 1) = false ∧ canOn.get (R.CAN_STAT_STATE 1) ≠ 2
    ∧ (canBus canOn 1).job = none ∧ hemWaits canOn 1 = none ∧ (canBus canOn 1).service = none
    ∧ (canBus (busAt canOn { CanBus.zero with service := some [] }) 1).service.isSome = true
    ∧ (∀ m, m < 32 → canOn.on (R.MB_STAT_TXPEND 1 m) = false)
    ∧ (∀ k, k < 32 → k ≠ 31 → txPend.on (R.MB_STAT_TXPEND 1 k) = true → mbRank txPend 1 31 < mbRank txPend 1 k)
    ∧ (canBus (busAt txPend { CanBus.zero with job := some (.mailbox 31), abort := true }) 1).abort = true
    ∧ (canBus (busAt canOn { CanBus.zero with job := some (.hem [1]) }) 1).job = some (.hem [1])
    ∧ (canBus (busAt canOn { CanBus.zero with job := some .service }) 1).job = some .service
    ∧ (canBus (busAt canOn { CanBus.zero with job := some .service }) 1).abort = false
    ∧ (canBus canOn 1).leaving = false ∧ (canOn.flag (R.CAN_CFG_MODE 1) true).on (R.CAN_CFG_MODE 1) = true
    ∧ canRuns (canOn.flag (R.CAN_CFG_MODE 1) true) 1 = true
    ∧ (∀ b ∈ [true, false], (canOn.flag (R.CAN_CFG_FDEN 1) b).on (R.CAN_CFG_FDEN 1) = b
        ∧ (canOn.flag R.SAF_HTXCFG_EN b).on R.SAF_HTXCFG_EN = b)
    ∧ (let x := canBus (busAt canOn { CanBus.zero with leaving := true }) 1
       x.job = none ∧ x.leaving = true ∧ x.rejoin = false)
    ∧ (let x := canBus (busAt canOn { CanBus.zero with job := some .service, leaving := true }) 1
       x.job.isSome = true ∧ x.leaving = true ∧ x.rejoin = false)
    ∧ acceptsAt canOn 0 (R.CAN_CTL 1) = true ∧ (canBus canOn 1).recover = false
    ∧ (canBus (busAt canOn { CanBus.zero with recover := true }) 1).recover = true
    ∧ (canOn.put (R.CAN_STAT_STATE 1) 2).get (R.CAN_STAT_STATE 1) = 2
    ∧ acceptsAt (canOn.put (R.CAN_STAT_STATE 1) 2) 0 (R.CAN_CTL 1) = true ∧ canRuns (canOn.put (R.CAN_STAT_STATE 1) 2) 1 = true := by decide +kernel

/-- A hem frame waits for controller 1. -/
def hemDue : State := { canOn with saf := { canOn.saf with tx := [(1, some [1, 2])] } }

theorem meets_CanTransmission_hem : hemWaits hemDue 1 = some [1, 2] ∧ canRuns hemDue 1 = true
    ∧ (let s := (hemDue.flag R.SAF_HTXCFG_EN true).flag (R.CAN_CFG_FDEN 1) true
       hemWaits s 1 = some [1, 2] ∧ s.on R.SAF_HTXCFG_EN = true ∧ s.on (R.CAN_CFG_FDEN 1) = true) := by decide +kernel

/-! ### Fabric -/

/-- Port `p` may run, in state `st`. -/
def portAt (p st : Nat) : State := ((loaded.flag R.FAB_CFG_EN true).flag (R.FAB_PCFG_EN p) true).put (R.FAB_PSTAT_STATE p) st
def portWith (p st : Nat) (x : PortSt) : State := setFabPort (portAt p st) p x

/-- A routed message of type `ty` to role 1 from role 2; frames sent by a port. -/
def msg (ty : Nat) (bs : List Byte) : FabMsg := message ty ⟨2, 1, 0, 31, 0, 7, 9, 1, padPayload bs⟩
def sentFrames (n tries : Nat) (acked : Bool) : List FabMsg := (List.range n).map (fun k =>
  { msg 0x10 [] with f := { (msg 0x10 []).f with lseq := k }, tries := tries, acked := acked && k != 0 })

theorem meets_FabricPorts : portRuns (portAt 3 pDOWN) 3 = true ∧ portState (portAt 3 pDOWN) 3 = pDOWN
    ∧ portRuns loaded 3 = false ∧ portState (portAt 3 pTRAIN) 3 = pTRAIN ∧ portRuns (portAt 3 pTRAIN) 3 = true
    ∧ (fabPort (portAt 3 pTRAIN) 3).out = [] ∧ (fabPort (portAt 3 pTRAIN) 3).queue = [] ∧ (fabPort (portAt 3 pTRAIN) 3).wait = []
    ∧ domOn (portAt 3 pFAILED) 2 = true ∧ portState (portAt 3 pFAILED) 3 = pFAILED ∧ portState (portAt 3 pHELLO) 3 = pHELLO
    ∧ (fabPort (portAt 3 pHELLO) 3).ep = false ∧ (fabPort (portWith 3 pHELLO { PortSt.zero with ep := true }) 3).ep = true
    ∧ portUp (portAt 3 pUP) 3 = true ∧ portUp (portAt 3 pHELLO) 3 = false ∧ portTalks (portAt 3 pTRAIN) 3 = false
    ∧ (let s := portWith 3 pUP { PortSt.zero with out := sentFrames 8 3 false }
       portTalks s 3 = true ∧ (fabPort s 3).out ≠ [] ∧ ∀ m ∈ (fabPort s 3).out, m.acked = true ∨ m.tries < 4)
    ∧ ([] : List Byte).length ≠ 48 := by decide +kernel

/-- A port in a state, with frames out; PD1 off, or its episode running without fabric time. -/
def lossAt (st : Nat) (ep : Bool) (out : List FabMsg) : State := portWith 3 st { PortSt.zero with out := out, ep := ep }

theorem meets_FabricPorts_loss :
    (∀ out ∈ [sentFrames 1 4 false, sentFrames 8 4 true], let s := lossAt pUP true out
      portTalks s 3 = true ∧ portUp s 3 = true ∧ (∃ m ∈ (fabPort s 3).out, m.acked = false ∧ 4 ≤ m.tries)
        ∧ s.on R.FAB_TSTAT_TVALID = false ∧ (fabPort s 3).ep = true ∧ ∀ q ∈ fabPorts s, (fabPort s q).inbox = [])
    ∧ portState (lossAt pHELLO false (sentFrames 1 4 false)) 3 ≠ pUP ∧ portTalks (lossAt pHELLO false (sentFrames 1 4 false)) 3 = true
    ∧ (let s := (lossAt pUP false []).put R.PWR_DOM_ON 0xFD
       domOn s 1 = false ∧ domOn s 2 = true ∧ portUp s 3 = true ∧ portState s 3 = pUP)
    ∧ ((lossAt pUP false []).flag R.FAB_TSTAT_TVALID true).on R.FAB_TSTAT_TVALID = true := by decide +kernel

theorem meets_FabricPorts_ack :
    (let s := lossAt pUP false (sentFrames 8 0 true)
     portTalks s 3 = true ∧ (∀ q ∈ fabPorts s, (fabPort s q).inbox = []) ∧ (fabPort s 3).queue = [] ∧ (fabPort s 3).wait = []
       ∧ ((fabPort s 3).out.head?.map (fun m => (m.acked, m.f.lseq))) = some (false, 0)
       ∧ (((fabPort s 3).out.map (fun m => if m.f.lseq = (0 : BitVec 8).toNat then { m with acked := true } else m)).dropWhile
           (·.acked)) = [])
    ∧ (((fabPort (lossAt pUP false (sentFrames 8 0 false)) 3).out.map (fun m =>
        if m.f.lseq = (0 : BitVec 8).toNat then { m with acked := true } else m)).dropWhile (·.acked)).length = 7 := by decide +kernel

/-- A message that a full queue holds back keeps input 3. -/
def heldInput : State := portWith 3 pUP { PortSt.zero with wait := [(3, msg 0x10 [])] }

theorem meets_FabricJoining_lane : portTalks (portAt 3 pUP) 3 = true ∧ frame.lseq % 256 = (fabPort (portAt 3 pUP) 3).rxNext
    ∧ ({ frame with lseq := 255 } : FabFrame).lseq % 256 = (fabPort (portWith 3 pUP { PortSt.zero with rxNext := 255 }) 3).rxNext
    ∧ ({ frame with lseq := 1 } : FabFrame).lseq % 256 ≠ (fabPort (portAt 3 pUP) 3).rxNext
    ∧ inputHeld heldInput 3 = true ∧ portTalks heldInput 3 = true ∧ inputHeld (portAt 3 pUP) 3 = false
    ∧ (fabPort (portAt 3 pUP) 3).inbox = [] ∧ portTalks (portAt 3 pFAILED) 3 = false := by decide +kernel

/-- The table gives role 32 to the neighbour on port 3 of role 1, which the module holds. -/
def anchored : State :=
  (((((portAt 3 pUP).flag R.FAB_STAT_BOUND true).put R.FAB_STAT_ROLE 1).put (R.FAB_ROLE_BIND 32) 2).put (R.FAB_ROLE_ANCHOR 32) 1).put
    (R.FAB_ROLE_PORT 32) 3 |>.put (R.FAB_PEER_METRIC 32) 0xFF

/-- The module claims role 32 at port 3. -/
def claiming : State := { portAt 3 pUP with fab := { (portAt 3 pUP).fab with claim := some (3, 32) } }

theorem meets_FabricJoining_roles : portState (portAt 3 pUP) 3 ≠ pHELLO ∧ portState (portAt 3 pHELLO) 3 = pHELLO
    ∧ (fabPort (portAt 3 pHELLO) 3).certOk = false ∧ (fabPort (portAt 3 pHELLO) 3).repOk = false
    ∧ portUp (portAt 3 pHELLO) 3 = false ∧ portUp anchored 3 = true ∧ (msg 6 [32]).num 0 1 = 32
    ∧ givenRole anchored 3 = 32 ∧ 32 ≠ ownRole anchored ∧ metricTo anchored 32 = 0xFF
    ∧ knownEpoch anchored 32 ≠ 65535 ∧ knownEpoch (anchored.put (R.FAB_PEER_EPOCH 32) 65535) 32 = 65535
    ∧ givenRole anchored 3 ≠ (msg 6 [31]).num 0 1 ∧ portUp claiming 3 = true ∧ claiming.fab.claim = some (3, 32)
    ∧ (msg 7 [1, 0, 5, 0]).num 0 1 = 1 ∧ (msg 7 [1, 0, 5, 0]).num 2 2 = 5 ∧ (msg 7 []).num 0 1 ≠ 1 := by decide +kernel

/-- A port in HELLO with a certificate of 4 bytes, DER length 2, and a fingerprint. -/
def certPort (h : List Byte) : PortSt := { PortSt.zero with fpr := some h, cert := [0x30, 2, 5, 0] }

/-- A good certificate, and a whole report. -/
def repPort (r : List Byte) : PortSt := { certPort [] with certOk := true, dig := some [], report := r }

/-- Both checks are good, the own report asked for and sent. -/
def readyPort : PortSt := { repPort [] with repOk := true, asked := true, reported := true }

/-- As `readyPort`, and the table gives role 9 to the neighbour of role 2 at its port `q`; role 2 is at port 3. -/
def readyToJoin (q : Nat) : State :=
  ((((portWith 3 pHELLO readyPort).put (R.FAB_ROLE_BIND 9) 2).put (R.FAB_PSTAT_PEER 3) 2).put (R.FAB_ROLE_ANCHOR 9) 2).put (R.FAB_ROLE_PORT 9) q

theorem meets_FabricJoining_checks : (certPort []).certOk = false ∧ (certPort []).fpr = some [] ∧ 4 ≤ (certPort []).cert.length
    ∧ derLen (certPort []).cert ≤ (certPort []).cert.length
    ∧ beBytes 32 (sha256 ((certPort []).cert.take (derLen (certPort []).cert))) ≠ []
    ∧ (repPort []).certOk = true ∧ (repPort []).repOk = false ∧ (repPort []).dig.isSome = true
    ∧ 192 ≤ (repPort (List.replicate 192 0)).report.length
    ∧ (∀ q, q < 4 → let s := readyToJoin q
        portState s 3 = pHELLO ∧ (fabPort s 3).certOk = true ∧ (fabPort s 3).repOk = true ∧ (fabPort s 3).asked = true
          ∧ (fabPort s 3).reported = true) := by
  decide +kernel

/-- The same with its port the first of those that are UP; a claim refused there, or under way. -/
def joined (q : Nat) : State := let s := readyToJoin q; { s with fab := { s.fab with ups := [3] } }

theorem meets_FabricJoining_claim_conditions : (∀ q, q < 4 → let s := joined q
      s.fab.ups.head? = some 3 ∧ s.on R.FAB_STAT_BOUND = false ∧ s.fab.claim = none ∧ s.get (R.FAB_PSTAT_AERR 3) ≠ 8)
    ∧ (readyToJoin 0).fab.ups.head? = none ∧ ((joined 0).put (R.FAB_PSTAT_AERR 3) 8).get (R.FAB_PSTAT_AERR 3) = 8
    ∧ ((joined 0).flag R.FAB_STAT_BOUND true).on R.FAB_STAT_BOUND = true
    ∧ (∀ r ∈ roles, (portAt 3 pUP).get (R.FAB_ROLE_BIND r) ≠ 1 ∧ (portAt 3 pUP).get (R.FAB_ROLE_BIND r) ≠ 2)
    ∧ claiming.fab.ups.head? ≠ some 3 ∧ ({ claiming with fab := { claiming.fab with ups := [3] } } : State).fab.ups.head? = some 3 := by
  decide +kernel

/-- The board's wiring of port 3 decides which port of role 2 that is: in one of these states the table gives the role. -/
theorem meets_FabricJoining_claim : ∃ q, q < 4 ∧ claimAt (joined q) 3 ≠ 0 := by
  have near : ∀ q : Fin 4, (∀ r ∈ roles, (joined q).get (R.FAB_ROLE_BIND r) ≠ 1)
      ∧ roles.find? (fun r => (joined q).get (R.FAB_ROLE_BIND r) == 2 && (joined q).get (R.FAB_PSTAT_PEER 3) != 0
        && (joined q).get (R.FAB_ROLE_ANCHOR r) == (joined q).get (R.FAB_PSTAT_PEER 3)
        && (joined q).get (R.FAB_ROLE_PORT r) == q.val) = some 9 := by decide +kernel
  refine ⟨(Config.farPort 3).val, (Config.farPort 3).isLt, ?_⟩
  have h := near (Config.farPort 3)
  have none : roles.find? (fun r => (joined (Config.farPort 3).val).get (R.FAB_ROLE_BIND r) == 1
      && roleFpr (joined (Config.farPort 3).val) r == ownFpr) = none :=
    List.find?_eq_none.mpr (fun r m => by simp [h.1 r m])
  simp only [claimAt, none, h.2]
  decide

/-- A signature with R = 0 is no good one, whatever the key. -/
theorem meets_FabricJoining_bad (kx ky m : Nat) : ecdsaVerify kx ky m 0 0 = false := by simp [ecdsaVerify]

/-- Role 1, epoch 9, with a route to role 2 through port 3. -/
def roleOne : State :=
  ((((portAt 3 pUP).flag R.FAB_STAT_BOUND true).put R.FAB_STAT_ROLE 1).put R.FAB_STAT_EPOCH 9).put (R.FAB_PEER_PORT 2) 3
    |>.put (R.FAB_PEER_METRIC 2) 4

/-- The last frame delivered from role 2 has an epoch and a number. -/
def heardBefore (ep n : Nat) : State := { roleOne with fab := { roleOne.fab with got := [(2, ep, n)] } }

theorem meets_FabricFrames_transit : portTalks roleOne 3 = true ∧ (fabPort roleOne 3).wait = [] ∧ (fabPort roleOne 3).queue = []
    ∧ (fabPort (setFabPort roleOne 3 { PortSt.zero with out := sentFrames 7 0 false }) 3).out.length < 8
    ∧ reachable roleOne 2 = true ∧ reachable (roleOne.put (R.FAB_PEER_METRIC 2) 255) 2 = false ∧ reachable roleOne 33 = false
    ∧ ({ (msg 0x1F []).f with src := 0 } : FabFrame).src = 0 ∧ (msg 0x1F []).f.src ≠ 0 ∧ ({ (msg 0x10 []).f with dst := 0 } : FabFrame).dst = 0
    ∧ ({ (msg 0x10 []).f with ttl := 1 } : FabFrame).ttl ≤ 1 ∧ 1 < (msg 0x10 []).f.ttl
    ∧ (∀ ty ∈ [0x10, 0x16, 0x1F], listedType ty = true) ∧ portUp (portAt 3 pHELLO) 3 = false ∧ portUp roleOne 3 = true
    ∧ (2 : Nat) ≠ ownRole roleOne ∧ (1 : Nat) = ownRole roleOne
    ∧ (msg 0x10 []).f.depoch = roleOne.get R.FAB_STAT_EPOCH ∧ (msg 0x10 []).f.depoch ≠ (roleOne.put R.FAB_STAT_EPOCH 8).get R.FAB_STAT_EPOCH
    ∧ roleOne.fab.got.find? (fun e => e.1 == 2) = none
    ∧ (∀ ep ∈ [0, 7, 65535], ∀ n ∈ [0, 65535], (heardBefore ep n).fab.got.find? (fun e => e.1 == 2) = some (2, ep, n)) := by
  decide +kernel

/-- Roles' numbers wrap: differences 0, 1, 32767 and 32768 from 65535. -/
theorem meets_FabricFrames_order : ∀ k ∈ [0, 1, 32767, 32768, 65535], ∃ v, v < 65536 ∧ v = (65535 + k) % 65536 := fun k _ =>
  ⟨(65535 + k) % 65536, Nat.mod_lt _ (by decide), rfl⟩

/-- Seam 1 of `tree` as a REMOTE root, its exchange with seam 5 of role 2; the same enabled, with an owner. -/
def remoteRoot : State := (tree.flag (R.SEAM_DESC_REMOTE 1) true)
def remoteOn : State := { remoteRoot.flag (R.SEAM_CTL_EN 1) true with enabled := [1] }
def ownedBy (r l : Nat) : State := setRemoteX remoteOn 1 { RemoteX.zero with owner := some (r, l), ep := true }
def refBytes (n : Nat) (per : Nat) : List Byte := leBytes 1 n ++ leBytes 1 5 ++ leBytes 2 99 ++ leBytes 4 per ++ leBytes 8 0 ++ leBytes 2 3

/-- Seam 63 as a LINK to seam 7 of role 2, with exchange 3 sent; LINKST of its exchange. -/
def linked : State := setLinkX (((base.put (R.SEAM_DESC_TYPE 63) tLINK).put (R.SEAM_LINK_ROLE 63) 2).put (R.SEAM_LINK_RSEAM 63) 7) 63
  { LinkX.zero with sent := [3], ep := true }
def linkstOf (k : Nat) : FabMsg := msg 0x12 (leBytes 1 7 ++ leBytes 1 63 ++ leBytes 2 k ++ leBytes 4 0 ++ leBytes 4 5)

/-- A LINKST of exchange 3 whose SEAM_STATE reports HELD. -/
def heldLinkst : FabMsg := msg 0x12 (leBytes 1 7 ++ leBytes 1 63 ++ leBytes 2 3 ++ leBytes 4 (2 ^ 30) ++ leBytes 4 5)

/-- R356: the LINK shows the HELD of its remote seam, and its EN_EFF, REWOVE and SAT. -/
theorem test_linkst_state : ∀ f ∈ [R.SEAM_STATE_EN_EFF 63, R.SEAM_STATE_REWOVE 63, R.SEAM_STATE_SAT 63],
    (deliver (msg 0x12 (leBytes 1 7 ++ leBytes 1 63 ++ leBytes 2 3 ++ leBytes 4 0xB0000000 ++ leBytes 4 5)) linked).on f = true
      ∧ (deliver (linkstOf 3) linked).on f = false := by decide +kernel

theorem test_linkst_held : (deliver heldLinkst linked).on (R.SEAM_STATE_HELD 63) = true
    ∧ (deliver (linkstOf 4) (deliver heldLinkst linked)).on (R.SEAM_STATE_HELD 63) = false := by decide +kernel

theorem meets_FabricFrames_links : (∀ n ∈ [0, 2, 64], (msg 0x11 (refBytes n 0)).num 0 1 = n) ∧ seamUsed remoteRoot 2 = false
    ∧ seamUsed remoteRoot 1 = true ∧ remoteRoot.on (R.SEAM_DESC_REMOTE 1) = true ∧ tree.on (R.SEAM_DESC_REMOTE 1) = false
    ∧ effEnabled { remoteRoot with enabled := [] } 1 = false ∧ effEnabled remoteOn 1 = true ∧ (remoteX remoteOn 1).owner = none
    ∧ (remoteX (ownedBy 2 5) 1).owner = some ((msg 0x11 (refBytes 1 0)).f.src, (msg 0x11 (refBytes 1 0)).num 1 1)
    ∧ (remoteX (ownedBy 2 6) 1).owner = some (2, 6)
    ∧ (msg 0x11 (refBytes 1 (remoteOn.get (R.MOD_CAR_PER 1)))).num 4 4 = remoteOn.get (R.MOD_CAR_PER 1)
    ∧ (msg 0x11 (refBytes 1 (remoteOn.get (R.MOD_CAR_PER 1) + 1))).num 4 4 ≠ remoteOn.get (R.MOD_CAR_PER 1)
    ∧ (remoteX (ownedBy 2 5) 1).last = none
    ∧ (∀ v ∈ [(63999 : Int), 64000], (remoteX (setRemoteX remoteOn 1 { RemoteX.zero with owner := some (2, 5), last := some v }) 1).last = some v)
    ∧ (msg 0x11 []).sent + 64000 ≤ 64000 ∧ ¬(msg 0x11 []).sent + 64000 ≤ 63999
    ∧ (remoteX (ownedBy 2 5) 1).ep = true ∧ (remoteX remoteOn 1).ep = false
    ∧ (linkstOf 3).num 1 1 = 63 ∧ seamType linked 63 = tLINK ∧ linked.get (R.SEAM_LINK_ROLE 63) = (linkstOf 3).f.src
    ∧ linked.get (R.SEAM_LINK_RSEAM 63) = (linkstOf 3).num 0 1 ∧ (linkstOf 3).num 2 2 ∈ (linkX linked 63).sent
    ∧ (linkstOf 4).num 2 2 ∉ (linkX linked 63).sent ∧ seamType linked 62 ≠ tLINK 
    ∧ (BitVec.ofNat 32 (heldLinkst.num 4 4) : Word).getLsbD 30 = true := by decide +kernel

/-- An RREQ; role 2 with both rights; a pending request. -/
def rreqOf (op a n : Nat) : FabMsg := msg 0x13 (leBytes 1 op ++ [7] ++ leBytes 3 a ++ leBytes 1 n)
def trusted : State := (roleOne.flag (R.FAB_ROLE_RD 2) true).flag (R.FAB_ROLE_WR 2) true
def asking (ty n : Nat) (bs : List Byte) : State := { roleOne with fab := { roleOne.fab with req := some ⟨ty, 2, 5, 7, n⟩, chunks := bs } }

theorem meets_FabricFrames_access : (∀ n ∈ [1, 6], ∀ op ∈ [1, 2], (rreqOf op 0x180000 n).num 0 1 = op ∧ (rreqOf op 0x180000 n).num 5 1 = n
      ∧ (rreqOf op 0x180000 n).num 2 3 % 4 = 0)
    ∧ (rreqOf 3 0 1).num 0 1 = 3 ∧ (rreqOf 1 0 0).num 5 1 = 0 ∧ (rreqOf 1 0 7).num 5 1 = 7 ∧ (rreqOf 1 2 1).num 2 3 % 4 ≠ 0
    ∧ trusted.on (R.FAB_ROLE_RD 2) = true ∧ trusted.on (R.FAB_ROLE_WR 2) = true ∧ roleOne.on (R.FAB_ROLE_RD 2) = false
    ∧ remoteStatus trusted 0x180000 6 = 0 ∧ remoteStatus trusted 0x1A0000 1 = 1 ∧ trusted.host.queue = [] ∧ trusted.fab.writes = []
    ∧ (msg 0x14 [0, 7]).num 1 1 = 7 ∧ (msg 0x14 [0, 8]).num 1 1 ≠ 7 ∧ (msg 0x14 [4, 7]).num 0 1 = 4
    ∧ (asking 0x13 6 []).fab.req = some ⟨0x13, 2, 5, 7, 6⟩ ∧ (asking 0x13 0 []).fab.req = some ⟨0x13, 2, 5, 7, 0⟩
    ∧ signerOk roleOne = true ∧ signerOk (roleOne.flag R.IDN_STAT_KEYERR true) = false
    ∧ (asking 0x15 0 (List.replicate 128 0)).fab.chunks.length = 4 * 32 ∧ (asking 0x15 0 (List.replicate 160 0)).fab.chunks.length = 5 * 32
    ∧ (msg 0x1F [1, 0x13, 5, 0]).num 0 1 = 1 ∧ (msg 0x1F [1, 0x13, 5, 0]).num 1 1 = 0x13 ∧ (msg 0x1F [1, 0x13, 5, 0]).num 2 2 = 5
    ∧ (msg 0x1F [1, 0x13, 6, 0]).num 2 2 ≠ 5 ∧ (msg 0x1F [2, 0x13, 5, 0]).num 0 1 = 2 ∧ roleOne.fab.req = none := by decide +kernel

/-- Role 32 is a member without a route; it holds a digest. -/
def gone : State := ((roleOne.put R.FAB_MEMBERS_MAP 0x80000001).put (R.FAB_PEER_METRIC 32) 255)

/-- Port 3 hears of source role 2, which is a member and is followed through it. -/
def followed : State := ((setFabPort (roleOne.put R.FAB_MEMBERS_MAP 3) 3 { PortSt.zero with heard := 2 }).put R.FAB_TSTAT_SRCROLE 2).put
  R.FAB_TSTAT_PORT 3

/-- Eight good exchanges less one; TVALID. -/
def nearlyGood (n : Nat) : State := { followed with fab := { followed.fab with good := n } }
def timed : State := followed.flag R.FAB_TSTAT_TVALID true

theorem meets_FabricTimeAndRequests : domOn roleOne 2 = true ∧ roleOne.on R.FAB_TSTAT_TVALID = false
    ∧ (∀ p ∈ fabPorts roleOne, portState roleOne p ≠ pDOWN → portRuns roleOne p = true)
    ∧ member gone 32 = true ∧ metricTo gone 32 = 255 ∧ domOn gone 2 = true ∧ member roleOne 32 = false
    ∧ agreeMap roleOne % 2 ^ 32 = agreeMap roleOne ∧ agreeMap roleOne ≠ roleOne.get R.FAB_AGREE_MAP
    ∧ (let s := roleOne.put R.FAB_AGREE_MAP 1
       agreeMap s = s.get R.FAB_AGREE_MAP ∧ agreeMap s % 2 ^ 32 = agreeMap s)
    ∧ roleOne.on R.FAB_STAT_BOUND = true ∧ roleOne.on R.PAT_STAT_LOADED = true ∧ base.on R.FAB_STAT_BOUND = false
    ∧ portUp followed 3 = true ∧ timeSource followed = 2 ∧ 2 ≠ ownRole followed ∧ followed.get R.FAB_TSTAT_SRCROLE = 2
    ∧ (let v := setFabPort followed 3 { fabPort followed 3 with heard := 2 }
       timeSource v = 2 ∧ followed.get (R.FAB_PEER_PORT (timeSource v)) = 3)
    ∧ followed.on R.FAB_TSTAT_SOURCE = false ∧ portUp base 3 = false
    ∧ 7 ≤ (nearlyGood 7).fab.good ∧ (nearlyGood 6).fab.good < 7 ∧ followed.on R.FAB_TSTAT_TVALID = false
    ∧ timed.on R.FAB_TSTAT_TVALID = true ∧ timed.on R.FAB_TSTAT_SOURCE = false ∧ domOn timed 2 = true ∧ roots timed = []
    ∧ (∀ off ∈ ([4, -4, 5, 16, -16, 17, 25, 26, -26, 1000, -1000, 1001, -1001] : List Int), off.natAbs ≤ 1001)
    ∧ (timed.flag R.FAB_TSTAT_SOURCE true).on R.FAB_TSTAT_SOURCE = true
    ∧ (tree.put (R.MOD_CAR_SYNC 1) 2).get (R.MOD_CAR_SYNC 1) = 2 ∧ tree.get (R.MOD_CAR_SYNC 1) < 2 ∧ domOn tree 5 = true
    ∧ episode tree (256 + 1) = false ∧ episode (setEpisode tree 257 true) (256 + 1) = true
    ∧ acceptsAt roleOne 0 R.FAB_RCTL = true ∧ (roleOne.flag R.FAB_RSTAT_BUSY true).on R.FAB_RSTAT_BUSY = true
    ∧ roleOne.on R.FAB_RSTAT_BUSY = false ∧ ownRole base = 0 ∧ acceptsAt base 0 R.FAB_RCTL = true
    ∧ reachable roleOne 3 = false ∧ reachable roleOne 2 = true ∧ ownRole roleOne ≠ 0
    ∧ (asking 0x13 6 []).fab.req = some ⟨0x13, 2, 5, 7, 6⟩ := by decide +kernel

/-! ### Rules stated on their own -/

theorem meets_CrcRequired : domOn base 2 = true ∧ (base.flag R.HST_CFG_CRCREQ true).on R.HST_CFG_CRCREQ = true := by decide +kernel

/-- Channel 0 with the points of Table 11.12, and its window: 230 V, 32 A, −7,300 W and 150 var over 640 samples. -/
def meterL1 : State := setMtrCh base 0 { MtrCh.zero with
  work := [0x8000010F, 0x014D5555, 0x00355555, 0x1F4, 0, 0, 0, 1600, 4000, 5000, 6000, 7000, 0, 0, 0, 0x020000C8, 0x01000068, 0, 0, 0] }
def cycleOfL1 : MtrWin :=
  let v : Nat := 230 * 5 * 2 ^ 39 / 6 + 1
  let i : Nat := 32 * 5 * 2 ^ 39 / 6 + 1
  ⟨640, 640 * (v * v), 640 * (i * i), 640 * (-7300 * 25 * 2 ^ 78 / 36), 640 * (150 * 25 * 2 ^ 78 / 36)⟩

/-- The window is no no-load one at 5.00 VA. One with S = 180 VA exactly, at the threshold of 18,000 × 10 mVA, is
not, and one a little smaller is. -/
theorem meets_NoLoadWindows : cycleOfL1.n ≠ 0 ∧ noLoad cycleOfL1 341 500 = false
    ∧ noLoad ⟨1, 125 * 2 ^ 78, 125 * 2 ^ 78, 0, 0⟩ 0 18000 = false ∧ noLoad ⟨1, 125 * 2 ^ 78, 125 * 2 ^ 78 - 1, 0, 0⟩ 0 18000 = true
    ∧ noLoad ⟨1, 0, 0, 0, 0⟩ 0 0 = false := by decide +kernel

theorem meets_LogOverflow : acceptsAt base 0 R.FLT_LOGACK = true 
    ∧ (base.put (R.FLT_LOG_W 0 0) 5).get R.FLT_LOGACK_SEQ < (base.put (R.FLT_LOG_W 0 0) 5).get (R.FLT_LOG_W 0 0)
    ∧ base.get (R.FLT_LOG_W 0 0) ≤ base.get R.FLT_LOGACK_SEQ
    ∧ (base.put R.FLT_LOGINFO_OVF 65535).get R.FLT_LOGINFO_OVF = 65535 := by decide +kernel

/-! ### Worked examples of the spec -/

/-- Table 14.3: the check values of "123456789". -/
theorem test_crc_check_values :
    let bs : List Byte := [0x31, 0x32, 0x33, 0x34, 0x35, 0x36, 0x37, 0x38, 0x39]
    crc32 bs = 0xCBF43926 ∧ crc32cPar.check bs = 0xE3069283
    ∧ crcOf 64 0x42F0E1EBA9EA3693 0xFFFFFFFFFFFFFFFF true true 0xFFFFFFFFFFFFFFFF bs = 0x995DC9BBDF1939FA := by decide +kernel

/-- spec/17, the worked example: the frame with 0xA1 is queued; with 0xA0, HST_STAT reads 0x0E04_0001. -/
theorem test_write_crc_example :
    let s := base.flag R.HST_CFG_CRCREQ true
    let good := writeCrcFrame false 0x82 [0x0C, 0x04, 0x20, 0x80, 0, 0, 0, 0xA1] false s
    let bad := writeCrcFrame false 0x82 [0x0C, 0x04, 0x20, 0x80, 0, 0, 0, 0xA0] false s
    good.host.queue = [⟨0, 0x0C0420, 0x80000000⟩] ∧ bad.host.queue = [] ∧ bad.word R.HST_STAT = 0x0E040001 := by decide +kernel

/-- spec/16, the worked example: usable energy of 1.5 F at 4.5 V and at 2.509 V. -/
theorem test_usable_energy : usable 1500 4500 = 10867 ∧ usable 1500 2509 = 401 := by decide +kernel

/-- Tables 11.12 and 11.13: the segment and its codes, and what the cycle of L1 adds, in LSB of the long registers. -/
theorem test_meter_cycle :
    let e := energyOf 341 136 cycleOfL1
    let lsb := ((energyDen * trigDen * 65536 : Nat) : Int)
    segment (mtrCh meterL1 0).work 32000 = (3, 341, 136) ∧ e.1 < 0 ∧ 0 ≤ e.2.1
    ∧ -e.1 / lsb = 680859 ∧ e.2.1 / lsb = 13636 ∧ e.2.2 / 65536 = 686447 := by decide +kernel

/-- C01 of spec/06 with its pleat of spec/07, at the first cycle of the execution of Table 6.23. -/
def loopL1 : State :=
  let ws : List (Nat × Word) :=
    [(R.CTX_CFG 1, 0x08F30162), (R.CTX_SRC 1 0, 0x10C00020), (R.CTX_SRC 1 4, 0x10400021), (R.CTX_ROUTE 1, 0x20020000),
     (R.CTX_RAMP 1, 0x100), (R.CTX_LIM0 1, 0x79998667), (R.CTX_ILIM 1, 0x73338CCD), (R.CTX_COEF 1 0, 0x14000),
     (R.CTX_COEF 1 4, 0x14000), (R.CTX_COEF 1 15, 0x4000), (R.CTX_COEF 1 16, 0xC4000), (R.CTX_COEF 1 17, 0x5000),
     (R.CTX_COEF 1 19, 0x14000), (R.PLT_MEM 1, 0x3E800000), (R.PLT_CFG 1, 0x00120000), (R.PLT_GAIN 1, 0x20000010),
     (R.PLT_QF 1, 0x40002000), (R.PLT_CTL 1, 0x303)]
  let s := ws.foldl (fun a e => a.setWord e.1 e.2) loaded
  let t := ((((s.put (R.CTX_SP_SP 1) 11000).put (R.ACQ_RES_VALUE 32) 10812).put (R.ACQ_RES_VALUE 33) 14864).put (R.GRD_OUT_OUT 0) 12296).flag
    R.GRD_STAT_LOCK true
  let p := setPltSt { t with pool := [(374, 40), (375, 48), (376, 56), (378, 60), (379, 80)] } 1 ⟨true, 374, 12263, 33, some true, true, false, true, 0⟩
  setCtxSt p 1 { CtxSt.zero with i := 318767104, r := 10952, used := true }

/-- Tables 6.23 and 7.9: the execution, its output, error, ramp and integrator, and the pleat's write and position. -/
theorem test_execution_of_C01 :
    let t := finishExec 1 (captureOf loopL1 1 false false) loopL1
    t.sget (R.CTX_Y_YC 1) = 0x4AEF ∧ t.word (R.CTX_SIG 1) = 0x00BC2AF8 ∧ t.word (R.CTX_INT 1) = 0x001302F0
    ∧ windowWord t 187 = 0x005F0028 ∧ t.word (R.PLT_POS 1) = 0x30080177 := by decide +kernel

/-- Table 14.4 with INC 1 and a tolerance: FIRST, OK, SKIPPED, REPEAT, BAD. -/
theorem test_alive_results : aliveResult true 0 1 2 = 1 ∧ aliveResult false 1 1 2 = 2 ∧ aliveResult false 2 1 2 = 3
    ∧ aliveResult false 0 1 2 = 4 ∧ aliveResult false 9 1 2 = 5 := by decide +kernel

/-- spec/18, the worked example: FAB_PEER[2] with REACH, AGREE, STALE, port 0, metric 2, epoch 4. -/
theorem test_fab_peer :
    (((((State.reset.flag (R.FAB_PEER_REACH 2) true).flag (R.FAB_PEER_AGREE 2) true).flag (R.FAB_PEER_STALE 2) true).put
      (R.FAB_PEER_METRIC 2) 2).put (R.FAB_PEER_EPOCH 2) 4).word (R.FAB_PEER 2) = 0xE0020004 := by decide +kernel

/-- Table 5.11 at 210°: after two full levels the remainder is 49,152. -/
theorem test_walk_at_210 :
    (walk ((List.range 4).map (fun k => ⟨k, k, 1, 0, 0, false⟩)) 180224).2 = 49152 := by decide +kernel

end Sys2Proof.Tests
end

section
/-!
PROOFS of the statements about the whole block: what it holds after reset, and what a word written through a port does at a
register with no effect of its own.
-/
namespace Sys2Proof.Machine

/-! ### The reset state -/

/-- The reset state lists no register. -/
@[simp] theorem word_reset (a : Nat) : State.reset.word a = resetWord a := rfl

theorem canonical_nil {α : Type} [DecidableEq α] (d : Nat → α) : canonical d ([] : List (Nat × α)) = true :=
  (canonical_iff d []).2 ⟨List.Pairwise.nil, by simp⟩

/-- PWR_DOM leaves reset with PD0 on alone (R293). -/
theorem get_reset_dom : State.reset.get R.PWR_DOM_ON = 1 := by decide +kernel

theorem domOn_reset (n : Nat) : domOn State.reset n = decide (n = 0) := by
  rw [domOn, get_reset_dom, tb_eq_testBit, Bool.eq_iff_iff, Nat.testBit_one_eq_true_iff_self_eq_zero, decide_eq_true_eq]

/-! ### A plain write (R9) -/

section
variable (s : State) (p a : Nat) (d hw : Word) (r : RegRow)

theorem plainWrite_of_none (h : regAt a = none) : plainWrite a d s = s := by
  unfold plainWrite; rw [h]

theorem plainWrite_of_some (h : regAt a = some r) :
    plainWrite a d s = s.setWord a (((s.word a &&& ~~~BitVec.ofNat 32 r.rw) ||| (d &&& BitVec.ofNat 32 r.rw))
      &&& ~~~(d &&& BitVec.ofNat 32 r.w1c)) := by
  unfold plainWrite; rw [h]

variable {s p a d hw r}

/-- Bit `i` of a mask of the register map, as a word. -/
theorem getLsbD_mask (m : Nat) {i : Nat} (hi : i < 32) : (BitVec.ofNat 32 m).getLsbD i = tb m i := by
  rw [BitVec.getLsbD_ofNat, tb_eq_testBit, decide_eq_true hi, Bool.true_and]

/-- The bits of a register after a plain write, by their access code. -/
theorem getLsbD_plainWrite (h : regAt a = some r) {i : Nat} (hi : i < 32) :
    ((plainWrite a d s).word a).getLsbD i =
      if tb r.w1c i && d.getLsbD i then false else if tb r.rw i then d.getLsbD i else (s.word a).getLsbD i := by
  rw [plainWrite_of_some _ _ _ _ h, word_setWord]
  simp only [BitVec.getLsbD_and, BitVec.getLsbD_or, BitVec.getLsbD_not, getLsbD_mask _ hi, hi, decide_true, Bool.true_and]
  cases tb r.w1c i <;> cases tb r.rw i <;> cases d.getLsbD i <;> simp

/-- A plain write changes its own register alone. -/
theorem PortRegs.plainWrite {as : List Nat} {t : State} (h : PortRegs p as s t) (d : Word) (ha : a ∈ as) :
    PortRegs p as s (plainWrite a d t) := by
  cases hr : regAt a with
  | none => rwa [plainWrite_of_none _ _ _ hr]
  | some r => rw [plainWrite_of_some _ _ _ _ hr]; exact h.setWord _ _ ha

/-- No bit of the register map is host-writable and W1C at once. -/
theorem rw_and_w1c_of_mem_unitRows : ∀ r ∈ unitRows a, r.rw &&& r.w1c = 0 := by
  unfold unitRows
  split <;> decide

theorem rw_false_of_w1c (h : regAt a = some r) {i : Nat} (hi : tb r.w1c i = true) : tb r.rw i = false := by
  have h0 : (r.rw &&& r.w1c).testBit i = false := by
    rw [rw_and_w1c_of_mem_unitRows r (List.mem_of_find?_eq_some h), Nat.zero_testBit]
  rw [tb_eq_testBit] at hi ⊢
  simpa [Nat.testBit_and, hi] using h0

/-! ### A plain write that meets a hardware update (R328) -/

/-- The word `d` writes a bit that the hardware updates in the same cycle: a host-writable or write-only bit of `hw`, or a
W1C bit of `hw` that `d` writes 1. -/
def MeetsHardware (r : RegRow) (d hw : Word) : Prop :=
  ∃ i, i < 32 ∧ hw.getLsbD i = true ∧ (tb r.rw i || tb r.wo i || (tb r.w1c i && d.getLsbD i)) = true

/-- `meetWrite` tests with masks what `MeetsHardware` says bit by bit. -/
theorem masks_ne_zero_iff_meetsHardware :
    hw &&& (BitVec.ofNat 32 (r.rw ||| r.wo) ||| (BitVec.ofNat 32 r.w1c &&& d)) ≠ 0 ↔ MeetsHardware r d hw := by
  have bits : ∀ i < 32, (hw &&& (BitVec.ofNat 32 (r.rw ||| r.wo) ||| (BitVec.ofNat 32 r.w1c &&& d))).getLsbD i
      = (hw.getLsbD i && (tb r.rw i || tb r.wo i || (tb r.w1c i && d.getLsbD i))) := fun i hi => by
    simp only [BitVec.getLsbD_and, BitVec.getLsbD_or, getLsbD_mask _ hi, tb_eq_testBit, Nat.testBit_or]
  constructor
  · intro hne
    by_contra hnone
    refine hne (BitVec.eq_of_getLsbD_eq fun i hi => ?_)
    rw [bits i hi, BitVec.ofNat_eq_ofNat, BitVec.getLsbD_zero, Bool.eq_false_iff]
    exact fun hb => hnone ⟨i, hi, (Bool.and_eq_true_iff).1 hb⟩
  · rintro ⟨i, hi, hhw, hb⟩ hzero
    have hbit := bits i hi
    rw [hzero, hhw, hb, BitVec.ofNat_eq_ofNat, BitVec.getLsbD_zero] at hbit
    exact Bool.false_ne_true hbit

/-- The word that a plain register takes where the hardware updates the bits `hw`: a flag that the hardware sets is not cleared. -/
def metWord (r : RegRow) (d hw : Word) : Word := d &&& ~~~(hw &&& BitVec.ofNat 32 r.w1c)

theorem getLsbD_metWord {i : Nat} (hi : i < 32) :
    (metWord r d hw).getLsbD i = (d.getLsbD i && !(hw.getLsbD i && tb r.w1c i)) := by
  simp only [metWord, BitVec.getLsbD_and, BitVec.getLsbD_not, getLsbD_mask _ hi, hi, decide_true, Bool.true_and]

/-- With no bit updated by the hardware, a plain address takes a plain write. -/
theorem meetWrite_zero (ha : PlainAddr a) : meetWrite p a d 0 s = plainWrite a d s := by
  have hd : d &&& ~~~0#32 = d := by rw [BitVec.not_zero, BitVec.and_allOnes]
  have hbit : tb (0#32 : Word).toNat 31 = false := rfl
  simp only [meetWrite, BitVec.ofNat_eq_ofNat, hd, hbit, ha _ _ _ _, BitVec.zero_and, ite_self, Bool.and_false,
    Bool.false_and, Bool.false_eq_true, if_false, ne_eq, not_true_eq_false, and_false]

/-- At a plain address whose unit has no rule of its own, the register takes `metWord`, and LATE sets where `d` meets the hardware. -/
theorem meetWrite_plain (ha : PlainAddr a) (hown : ownMeeting a = false) (hr : regAt a = some r) :
    (MeetsHardware r d hw → meetWrite p a d hw s = hostFlag R.HST_STAT_LATE p a (plainWrite a (metWord r d hw) s))
    ∧ (¬ MeetsHardware r d hw → meetWrite p a d hw s = plainWrite a (metWord r d hw) s) := by
  have noTrip : (decide (0x081000 ≤ a) && decide (a < 0x081800) && a % 0x20 == 0x10) = false := by
    simp [ownMeeting] at hown ⊢; omega
  unfold meetWrite
  rw [hr]
  simp only [hown, noTrip, ha _ _ _ _, Option.getD_some, Bool.false_and, Bool.false_eq_true, if_false, true_and]
  exact ⟨fun hmet => if_pos (masks_ne_zero_iff_meetsHardware.2 hmet),
    fun hfree => if_neg (mt masks_ne_zero_iff_meetsHardware.1 hfree)⟩

/-- The bits of a plain register after `metWord`, by their access code: a W1C bit that the hardware updates stays (R328). -/
theorem getLsbD_plainWrite_metWord (hr : regAt a = some r) {i : Nat} (hi : i < 32) :
    ((plainWrite a (metWord r d hw) s).word a).getLsbD i =
      if tb r.w1c i && d.getLsbD i && !hw.getLsbD i then false
      else if tb r.rw i && !(tb r.w1c i && hw.getLsbD i) then d.getLsbD i else (s.word a).getLsbD i := by
  rw [getLsbD_plainWrite hr hi, getLsbD_metWord hi]
  cases hc : tb r.w1c i with
  | false => simp
  | true => cases hw.getLsbD i <;> simp [rw_false_of_w1c hr hc]

/-- HOST_REGISTER_WRITE of a word that is accepted. -/
theorem exec_hostRegisterWrite_of_accepts {addr : BitVec 24} {w : PortWrite} (h : Accepts s w.port addr.toNat) :
    exec (.hostRegisterWrite addr w hw) s
      = .next (meetWrite w.port addr.toNat w.data hw (endRun w.port s)) :=
  congrArg Host.Outcome.next (guarded_accepts s w.port addr.toNat w.data _ h)

end

/-! ### Plain addresses -/

/-- The host-port block outside the CAN controllers has no write with an effect of its own. -/
theorem plainAddr_hst {a : Nat} (h0 : 0x180000 ≤ a) (h1 : a < 0x184000) : PlainAddr a := by
  intro p d met s
  have hu : a / 0x10000 = 0x18 := by omega
  have hc : writeHst p a d s = plainWrite a d s := by
    unfold writeHst
    rw [if_neg (by omega), if_neg (by omega)]
  simp only [writeEffect, hu, hc]

/-- The fault manager's registers below the class status words have no write with an effect of their own, FLT_CMD apart. -/
theorem plainAddr_flt {a : Nat} (h0 : 0x0C0000 ≤ a) (h1 : a < 0x0C0420) (hcmd : a ≠ R.FLT_CMD) : PlainAddr a := by
  intro p d met s
  have hu : a / 0x10000 = 0x0C := by omega
  have hc : writeFlt a d met s = plainWrite a d s := by
    unfold writeFlt
    rw [if_neg hcmd, if_neg (by omega)]
  simp only [writeEffect, hu, hc]

/-- The fabric's registers have no write with an effect of their own, FAB_RCTL apart. -/
theorem plainAddr_fab {a : Nat} (h0 : 0x190000 ≤ a) (h1 : a < 0x1A0000) (hctl : a ≠ R.FAB_RCTL) : PlainAddr a := by
  intro p d met s
  have hu : a / 0x10000 = 0x19 := by omega
  simp only [writeEffect, hu, if_neg hctl]

theorem plainAddr_FLT_MAP {k : Nat} (hk : k < 25) : PlainAddr (R.FLT_MAP k) := by
  apply plainAddr_flt <;> simp only [R.FLT_MAP, R.FLT_CMD] <;> omega

/-! ### The obligations -/

/-- Settles O4: the register file of the reset state is the empty table. -/
theorem resetMeetsInvariant : Obligations.ResetMeetsInvariant := canonical_nil resetWord

/-- Settles O5: the tables of the reset state list nothing, and its fields are read off the reset words. -/
theorem resetValues : Obligations.ResetValues := by
  have hdom : ∀ n, 1 ≤ n → n ≤ 7 → domOn State.reset n = false := fun n h1 _ => by
    rw [domOn_reset, decide_eq_false_iff_not]; omega
  have hmode : mode State.reset = mWATCH := by decide +kernel
  have hlatch : State.reset.on R.SAF_STAT_LATCH = true := by decide +kernel
  have hqempty : State.reset.on R.HST_STAT_QEMPTY = true := by decide +kernel
  have hloaded : State.reset.on R.PAT_STAT_LOADED = false := by decide +kernel
  have hseq : State.reset.get R.FLT_NEXTSEQ_SEQ = 1 := by decide +kernel
  exact ⟨rfl, rfl, rfl, word_reset, domOn_reset 0, hdom, hmode, hlatch, rfl, hqempty, hloaded, hseq, rfl,
    fun _ => ⟨rfl, rfl, rfl, rfl, rfl⟩⟩

/-- Settles O11: an accepted word at a plain address is one plain write, of the word itself or, where the hardware updates
bits of the register, of `metWord`. -/
theorem registerWrite : Obligations.RegisterWrite := by
  refine ⟨fun s addr w hacc hplain => ?_, fun s addr w hw r hacc hplain hown hr => ?_,
    plainAddr_hst (by decide) (by decide), plainAddr_hst (by decide) (by decide),
    plainAddr_fab (by decide) (by decide) (by decide), plainAddr_hst (by decide) (by decide),
    plainAddr_fab (by decide) (by decide) (by decide), fun k => plainAddr_FLT_MAP⟩
  · have hframe := (PortRegs.refl w.port [addr.toNat] s).plainWrite w.data (List.mem_singleton_self _)
    refine ⟨_, (exec_hostRegisterWrite_of_accepts hacc).trans (congrArg _ (meetWrite_zero hplain)), hframe.1, hframe.2,
      fun hnone => ?_, fun r i hr hi => getLsbD_plainWrite hr hi⟩
    rw [plainWrite_of_none _ _ _ hnone, endRun_word]
  · have hframe := (PortRegs.refl w.port [addr.toNat] s).plainWrite (metWord r w.data hw) (List.mem_singleton_self _)
    obtain ⟨hmet, hapart⟩ := meetWrite_plain (p := w.port) (d := w.data) (hw := hw) (s := endRun w.port s) hplain hown hr
    refine ⟨_, hframe.1, hframe.2, fun i hi => getLsbD_plainWrite_metWord hr hi, fun hlate => ?_, fun hfree => ?_⟩
    · rw [exec_hostRegisterWrite_of_accepts hacc, hmet hlate]
    · rw [exec_hostRegisterWrite_of_accepts hacc, hapart]
      rintro ⟨i, hi, hbit, hwritten⟩
      simp [hfree i hi hbit] at hwritten

end Sys2Proof.Machine
end

section
/-!
PROOFS of what a host write of a reference, an offset and an enable of a seam does.
-/
namespace Sys2Proof.Machine

/-! ### A word that is discarded (Table 17.3) -/

theorem PortRegs.discarded {p : Nat} {as : List Nat} {s t : State} (h : PortRegs p as s t) (a : Nat)
    (hst : R.HST_STAT ∈ as) (herr : R.HST_ERRADDR ∈ as) : PortRegs p as s (discarded p a t) :=
  ((h.flag R.HST_STAT_DISCARDED true hst).put R.HST_STAT_LPORT p hst).put R.HST_ERRADDR_ADDR a herr

theorem on_discarded (p a : Nat) (s : State) : (discarded p a s).on R.HST_STAT_DISCARDED = true := by
  unfold discarded hostFlag
  rw [on_put_other _ _ _ _ (by decide) (by decide), on_put_other _ _ _ _ (by decide) (by decide),
    on_flag _ _ _ (by decide) rfl]

theorem get_discarded_port (p a : Nat) (s : State) : (discarded p a s).get R.HST_STAT_LPORT = p % 8 := by
  unfold discarded hostFlag
  rw [get_put_other _ _ _ _ (by decide) (by decide), get_put _ _ _ (by decide)]
  rfl

theorem get_discarded_addr (p : Nat) {a : Nat} (s : State) (ha : a < 2 ^ 24) :
    (discarded p a s).get R.HST_ERRADDR_ADDR = a := by
  unfold discarded hostFlag
  rw [get_put _ _ _ (by decide)]
  exact Nat.mod_eq_of_lt ha

/-! ### SEAM_REF, SEAM_OFS and SEAM_CTL (R24, R25, R298) -/

section
variable {s t : State} {p n : Nat} {d : Word} {as : List Nat}

theorem PortRegs.writeSeamRef (h : PortRegs p as s t) (ha : R.SEAM_REF n ∈ as) : PortRegs p as s (writeSeamRef n d t) := by
  unfold Machine.writeSeamRef
  split
  · exact h.put _ _ ha
  · exact h

theorem word_writeSeamRef (n : Nat) (d : Word) (s : State) : (writeSeamRef n d s).word (R.SEAM_REF n) =
    if n ≠ 0 ∧ s.on (R.SEAM_REF_ROOT n) = true ∧ s.get (R.SEAM_REF_SRC_CTX n) = 0 ∧ s.on (R.SEAM_DESC_REMOTE n) = false
    then setBits (s.word (R.SEAM_REF n)) 0 16 (bitsOf d 0 16) else s.word (R.SEAM_REF n) := by
  unfold writeSeamRef
  split
  · exact word_put s (R.SEAM_REF_REF n) _
  · rfl

theorem PortRegs.writeSeamOfs (h : PortRegs p as s t) (ha : R.SEAM_OFS n ∈ as) : PortRegs p as s (writeSeamOfs n d t) := by
  unfold Machine.writeSeamOfs
  split
  · exact h.put _ _ ha
  · exact h

theorem word_writeSeamOfs (n : Nat) (d : Word) (s : State) : (writeSeamOfs n d s).word (R.SEAM_OFS n) =
    if n ≠ 0 ∧ s.get (R.SEAM_OFS_SRC_CTX n) = 0
    then setBits (s.word (R.SEAM_OFS n)) 0 16 (bitsOf d 0 16) else s.word (R.SEAM_OFS n) := by
  unfold writeSeamOfs
  split
  · exact word_put s (R.SEAM_OFS_OFS n) _
  · rfl

/-- An enable written 1 that the mode accepts, or that is not a root's, sets EN. -/
theorem writeSeamCtl_set (hn : n ≠ 0) (hd : bitsOf d 0 1 = 1)
    (hok : s.on (R.SEAM_REF_ROOT n) = false ∨ rootEnableAccepted s n = true) :
    writeSeamCtl p n d s = s.flag (R.SEAM_CTL_EN n) true := by
  rw [writeSeamCtl, if_neg hn, if_pos hd, if_neg]
  rcases hok with h | h <;> simp [h]

/-- An enable of a root written 1 where the mode does not accept it is discarded. -/
theorem writeSeamCtl_refused (hn : n ≠ 0) (hd : bitsOf d 0 1 = 1) (hroot : s.on (R.SEAM_REF_ROOT n) = true)
    (hno : rootEnableAccepted s n = false) : writeSeamCtl p n d s = discarded p (R.SEAM_CTL n) s := by
  rw [writeSeamCtl, if_neg hn, if_pos hd, if_pos (by simp [hroot, hno])]

theorem writeSeamCtl_clear (hn : n ≠ 0) (hd : bitsOf d 0 1 = 0) : writeSeamCtl p n d s = dropEnable n s := by
  rw [writeSeamCtl, if_neg hn, if_neg (by omega)]

/-- Block 00 holds no seam (R18). -/
theorem writeSeamCtl_block0 (hn : n = 0) : writeSeamCtl p n d s = s := if_pos hn

/-- An enable that falls reads 0: what follows its fall touches SEAM_STATE and STI_STATE alone. -/
theorem on_dropEnable (n : Nat) (s : State) : (dropEnable n s).on (R.SEAM_CTL_EN n) = false := by
  have hstate : ∀ m, R.SEAM_CTL n ≠ R.SEAM_STATE m := by
    intro m; simp only [R.SEAM_CTL, R.SEAM_STATE]; omega
  have hsti : ∀ m, R.SEAM_CTL n ≠ R.STI_STATE m := by
    intro m; simp only [R.SEAM_CTL, R.STI_STATE]; omega
  have hfell : (s.flag (R.SEAM_CTL_EN n) false).on (R.SEAM_CTL_EN n) = false := on_flag _ _ _ (by simp [R.SEAM_CTL_EN]) rfl
  refine Eq.trans ?_ hfell
  unfold dropEnable State.on State.get
  rw [show (R.SEAM_CTL_EN n).addr = R.SEAM_CTL n from rfl, word_afterEnableFall _ _ hstate hsti]
  rfl

/-- An enable that falls is no longer in effect. -/
theorem notMem_enabled_dropEnable (n : Nat) (s : State) : n ∉ (dropEnable n s).enabled := by
  unfold dropEnable
  rw [enabled_afterEnableFall]
  simp

end

/-! ### The commands of a seam's host writes -/

section
variable {s : State} {n : Fin 64} {w : PortWrite}

theorem exec_seamRefWrite_of_accepts (h : Accepts s w.port (R.SEAM_REF n)) :
    exec (.seamRefWrite n w) s = .next (writeSeamRef n w.data (endRun w.port s)) :=
  congrArg Host.Outcome.next (guarded_accepts s w.port _ w.data _ h)

theorem exec_seamOfsWrite_of_accepts (h : Accepts s w.port (R.SEAM_OFS n)) :
    exec (.seamOfsWrite n w) s = .next (writeSeamOfs n w.data (endRun w.port s)) :=
  congrArg Host.Outcome.next (guarded_accepts s w.port _ w.data _ h)

theorem exec_seamEnWrite_of_accepts (h : Accepts s w.port (R.SEAM_CTL n)) :
    exec (.seamEnWrite n w) s = .next (writeSeamCtl w.port n w.data (endRun w.port s)) :=
  congrArg Host.Outcome.next (guarded_accepts s w.port _ w.data _ h)

end

/-- Settles O13: an accepted word is one write of its register, after the SNAP run of its port has ended. -/
theorem seamWrites : Obligations.SeamWrites := by
  intro s n w
  have hrun := fun as => PortRegs.refl w.port as s
  have hval : n ≠ 0 ↔ n.val ≠ 0 := not_congr Fin.ext_iff
  refine ⟨fun hacc => ?ref, fun hacc => ?ofs, fun hacc hn hd => ⟨fun hok => ?set, fun hroot hno => ?refused⟩,
    fun hacc hn hd => ?clear, fun hacc => ?block0⟩
  case ref =>
    refine ⟨_, exec_seamRefWrite_of_accepts hacc, (hrun _).writeSeamRef (List.mem_singleton_self _), ?_⟩
    exact (word_writeSeamRef ..).trans (if_congr (and_congr_left' hval.symm) rfl rfl)
  case ofs =>
    refine ⟨_, exec_seamOfsWrite_of_accepts hacc, (hrun _).writeSeamOfs (List.mem_singleton_self _), ?_⟩
    exact (word_writeSeamOfs ..).trans (if_congr (and_congr_left' hval.symm) rfl rfl)
  case set =>
    refine ⟨_, (exec_seamEnWrite_of_accepts hacc).trans (congrArg _ (writeSeamCtl_set (hval.1 hn) hd hok)),
      (hrun _).flag _ _ (List.mem_singleton_self _), on_flag _ _ _ (by simp [R.SEAM_CTL_EN]) rfl⟩
  case refused =>
    have hlt : R.SEAM_CTL n < 2 ^ 24 := by simp only [R.SEAM_CTL]; omega
    exact ⟨_, (exec_seamEnWrite_of_accepts hacc).trans (congrArg _ (writeSeamCtl_refused (hval.1 hn) hd hroot hno)),
      (hrun _).discarded _ (by simp) (by simp), on_discarded .., get_discarded_port .., get_discarded_addr _ _ hlt⟩
  case clear =>
    exact ⟨(exec_seamEnWrite_of_accepts hacc).trans (congrArg _ (writeSeamCtl_clear (hval.1 hn) hd)),
      on_dropEnable .., notMem_enabled_dropEnable _ _⟩
  case block0 => exact (exec_seamEnWrite_of_accepts (n := 0) hacc).trans (congrArg _ (writeSeamCtl_block0 rfl))

end Sys2Proof.Machine
end

section
/-!
PROOFS of what a link carries after an edge, a join pulse and a refresh pulse, by the ranks of R14.
-/
namespace Sys2Proof.Machine

/-! ### The multiplexer of a link (R14, Table 1.2) -/

/-- What R14 asks, the hem and retirement apart, for the modulator's command to reach stitch `n`. -/
structure Driven (s : State) (n : Nat) : Prop where
  hold    : holdCovers s (ownerOf s n) = false
  window  : winCovers s n = false
  own     : ownCovers s n = false
  run     : s.get (R.STI_STATE_STATE n) = 3
  enabled : effEnabled s (ownerOf s n) = true
  waits   : n ∉ s.waits

section
variable {s : State} {n m : Nat}

theorem linkCommand_unclaimed (ho : ownerOf s n = 0) : linkCommand s n m = (0, false) := by
  rw [linkCommand, if_pos (by simp [ho])]

theorem linkCommand_hemActive (hhem : hemActive s = true) : linkCommand s n m = (0, false) := by
  rw [linkCommand, if_pos (by simp [hhem])]

variable (hhem : hemActive s = false) (ho : ownerOf s n ≠ 0)
include hhem ho

/-- No hold, window or detector of rank 2 reaches a retired stitch. -/
theorem linkCommand_retired (hr : retired s n = true) :
    linkCommand s n m = (if (ledgerOf s n).mode = true then 0 else 1, false) := by
  rw [linkCommand, if_neg (by simp [hhem, ho]), if_neg (by simp [rank2, hr]), if_pos hr]

theorem linkCommand_driven (hr : retired s n = false) (hd : Driven s n) : linkCommand s n m = (m, true) := by
  rw [linkCommand, if_neg (by simp [hhem, ho]), if_neg (by simp [rank2, hd.hold, hd.window, hd.own]),
    if_neg (by simp [hr]), if_pos ⟨hd.run, hd.enabled, by simpa using hd.waits⟩]

theorem linkCommand_not_driven (hr : retired s n = false) (hd : ¬Driven s n) : linkCommand s n m = (0, false) := by
  rw [linkCommand, if_neg (by simp [hhem, ho])]
  split
  · rfl
  · next hfree =>
    simp only [rank2, hr, Bool.not_false, Bool.true_and, Bool.and_true, Bool.or_eq_true, not_or, Bool.not_eq_true] at hfree
    obtain ⟨⟨hhold, hwin⟩, hown⟩ := hfree
    rw [if_neg (by simp [hr]), if_neg]
    rintro ⟨hrun, hen, hwait⟩
    exact hd ⟨hhold, hwin, hown, hrun, hen, by simpa using hwait⟩

end

/-! ### What a link carries -/

/-- Link `n` carries command `c` from step `q` of the period on, and the windows that blank its seams open their intervals. -/
def carries (n c q : Nat) (s : State) : State :=
  winBlankOpen n (setFraction (setLink s n { link s n with cmd := c }) n
    { fraction s n with now := q, edge := if c = (link s n).cmd then (fraction s n).edge else some (q : Int) })

/-- Link `n` carries what its multiplexer selects when the modulator commands `m`. -/
def sends (n m q : Nat) (s : State) : State := carries n (linkCommand s n m).1 q s

section
variable {s : State} {n m c q : Nat}

theorem sends_of_linkCommand {b : Bool} (h : linkCommand s n m = (c, b)) : sends n m q s = carries n c q s := by
  rw [sends, h]

theorem winBlankOpen_launch (hlock : s.on R.MOD_STAT_EDGE_LOCK = true) : winBlankOpen n (launch n m q s) = sends n m q s := by
  unfold launch
  rw [if_pos hlock]
  rfl

/-! ### The step to which R103 assigns an edge -/

theorem assigned_of_edge_none (h : (fraction s n).edge = none) : assigned s n q = q := by
  unfold assigned; rw [h]

theorem assigned_of_edge_some {e : Int} (h : (fraction s n).edge = some e) : assigned s n q = max (q : Int) (e + 77) := by
  unfold assigned; rw [h]; rfl

/-- Step `q` comes less than 12.0 ns after the last edge of stitch `n`. -/
def EdgeSoon (s : State) (n q : Nat) : Prop := ∃ e : Int, (fraction s n).edge = some e ∧ (q : Int) < e + 77

theorem assigned_eq_iff : assigned s n q = q ↔ ¬EdgeSoon s n q := by
  unfold EdgeSoon
  cases h : (fraction s n).edge with
  | none => simp [assigned_of_edge_none h]
  | some e => simp [assigned_of_edge_some h]

/-- A pulse that takes `slot` is assigned to step `q`. -/
def Falls (s : State) (n q : Nat) (slot : Option Nat) : Prop := ∃ j, slot = some j ∧ assigned s n j = q

theorem any_assigned_iff {slot : Option Nat} : slot.any (fun j => assigned s n j == q) = true ↔ Falls s n q slot := by
  simp only [Option.any_eq_true, beq_iff_eq, Falls]

end

/-! ### EDGE_INSTANT (R102, R113, R114) -/

/-- Stitch `n` of the part stands under a seam, and carriers run. -/
structure Timed (s : State) (n : Nat) : Prop where
  there : stitchThere s n = true
  runs  : carriersRun s = true
  owned : ownerOf s n ≠ 0

theorem Timed.guard {s : State} {n : Nat} (h : Timed s n) : (stitchThere s n && carriersRun s && ownerOf s n != 0) = true := by
  simp [h.there, h.runs, h.owned]

theorem Timed.lock {s : State} {n : Nat} (h : Timed s n) : s.on R.MOD_STAT_EDGE_LOCK = true := by
  have hruns := h.runs
  simp only [carriersRun, Bool.and_eq_true] at hruns
  exact hruns.2

/-- The level that an edge asks for under the fraction `f`: OFF for a stitch that has not joined. -/
def edgeLevel (s : State) (n f q : Nat) : Nat :=
  if (carrier s (ownerOf s n)).joined.contains n then levelAt s (ownerOf s n) (fraction s n).per f q else 0

section
variable {s : State} {n : Fin 96} {q : Nat}

theorem edgeLevel_joined {f : Nat} (hj : n.val ∈ (carrier s (ownerOf s n)).joined) :
    edgeLevel s n f q = levelAt s (ownerOf s n) (fraction s n).per f q := if_pos (List.contains_iff_mem.2 hj)

theorem edgeLevel_not_joined {f : Nat} (hj : n.val ∉ (carrier s (ownerOf s n)).joined) : edgeLevel s n f q = 0 :=
  if_neg (mt List.contains_iff_mem.1 hj)

theorem fraction_setFraction (s : State) (k : Nat) (f : Fraction) : fraction (setFraction s k f) k = f := tget_tset_self ..

theorem edgeSoon_commitFraction : EdgeSoon (commitFraction n s) n q ↔ EdgeSoon s n q := by
  simp only [EdgeSoon, commitFraction, fraction_setFraction]

theorem contains_and_iff {l : List Nat} {k : Nat} {b : Bool} : (l.contains k && b) = true ↔ k ∈ l ∧ b = true := by
  rw [Bool.and_eq_true, List.contains_iff_mem]

theorem lowEnds_iff : lowEnds s n q = true ↔ (fraction s n).low = some ((q : Int) - 768) := by
  rw [lowEnds, beq_iff_eq]; rfl

@[simp] theorem on_setFraction (s : State) (k : Nat) (f : Fraction) (g : Field) : (setFraction s k f).on g = s.on g := rfl
theorem fraction_inc (s : State) (g : Field) (k : Nat) : fraction (s.inc g) k = fraction s k := rfl

/-- A refresh that counts leaves MOD_STAT as it is. -/
theorem edgeLock_countRefresh (s : State) (o : Nat) :
    (s.inc (R.MOD_CNT_REFRESH o)).on R.MOD_STAT_EDGE_LOCK = s.on R.MOD_STAT_EDGE_LOCK := by
  have hother : R.MOD_STAT ≠ R.MOD_CNT o := by simp only [R.MOD_STAT, R.MOD_CNT]; omega
  simp only [State.on, State.get, show R.MOD_STAT_EDGE_LOCK.addr = R.MOD_STAT from rfl,
    word_inc_ne s (R.MOD_CNT_REFRESH o) _ hother]

variable (h : Timed s n)
include h

theorem exec_edge (hs : ¬EdgeSoon s n q) :
    exec (.edgeInstant n (.edge false) q) s = .next (sends n (edgeLevel s n (fraction s n).cur q) q s) :=
  congrArg Host.Outcome.next <| (if_pos h.guard).trans <| (if_pos (assigned_eq_iff.2 hs)).trans (winBlankOpen_launch h.lock)

theorem exec_edge_carries {c : Nat} {b : Bool} (hs : ¬EdgeSoon s n q)
    (hcmd : linkCommand s n (edgeLevel s n (fraction s n).cur q) = (c, b)) :
    exec (.edgeInstant n (.edge false) q) s = .next (carries n c q s) := by
  rw [exec_edge h hs, sends_of_linkCommand hcmd]

theorem exec_edge_soon (hs : EdgeSoon s n q) : exec (.edgeInstant n (.edge false) q) s = .next s :=
  congrArg Host.Outcome.next <| (if_pos h.guard).trans <| if_neg (mt assigned_eq_iff.1 (not_not_intro hs))

theorem exec_effectiveEdge (hs : ¬EdgeSoon s n q) :
    exec (.edgeInstant n (.edge true) q) s
      = .next (sends n (edgeLevel s n (fraction s n).due q) q (commitFraction n s)) := by
  have hfrac : fraction (commitFraction n s) n = { fraction s n with cur := (fraction s n).due } := fraction_setFraction ..
  have hlevel : edgeLevel (commitFraction n s) n (fraction (commitFraction n s) n).cur q
      = edgeLevel s n (fraction s n).due q := by
    unfold edgeLevel; rw [hfrac]; rfl
  rw [← hlevel]
  exact congrArg Host.Outcome.next <| (if_pos h.guard).trans <|
    (if_pos (assigned_eq_iff.2 (mt edgeSoon_commitFraction.1 hs))).trans (winBlankOpen_launch (s := commitFraction n s) h.lock)

theorem exec_effectiveEdge_soon (hs : EdgeSoon s n q) :
    exec (.edgeInstant n (.edge true) q) s = .next (commitFraction n s) :=
  congrArg Host.Outcome.next <| (if_pos h.guard).trans <|
    if_neg (mt assigned_eq_iff.1 (not_not_intro (edgeSoon_commitFraction.2 hs)))

/-! ### Join pulses (R113) -/

theorem exec_joinLow (hj : n.val ∈ (carrier s (ownerOf s n)).joining) (hf : Falls s n q (fraction s n).join) :
    exec (.edgeInstant n .joinLow q) s = .next (sends n 1 q (setFraction s n { fraction s n with low := some (q : Int) })) :=
  congrArg Host.Outcome.next <| (if_pos h.guard).trans <|
    (if_pos (contains_and_iff.2 ⟨hj, any_assigned_iff.2 hf⟩)).trans (winBlankOpen_launch (s := setFraction s n _) h.lock)

theorem exec_joinLow_elsewhere (hf : ¬Falls s n q (fraction s n).join) : exec (.edgeInstant n .joinLow q) s = .next s :=
  congrArg Host.Outcome.next <| (if_pos h.guard).trans <| if_neg fun hb => hf (any_assigned_iff.1 (Bool.and_eq_true_iff.1 hb).2)

theorem exec_joinEnd (hj : n.val ∈ (carrier s (ownerOf s n)).joining) (hlow : (fraction s n).low = some ((q : Int) - 768)) :
    exec (.edgeInstant n .joinEnd q) s = .next (sends n 0 q (setCarrier s (ownerOf s n)
      { carrier s (ownerOf s n) with
        joining := (carrier s (ownerOf s n)).joining.filter (· != n.val)
        lowDone := (carrier s (ownerOf s n)).lowDone ++ [n.val] })) :=
  congrArg Host.Outcome.next <| (if_pos h.guard).trans <|
    (if_pos (contains_and_iff.2 ⟨hj, lowEnds_iff.2 hlow⟩)).trans (winBlankOpen_launch (s := setCarrier s _ _) h.lock)

/-! ### Refresh pulses (R114) -/

theorem exec_refreshLow (hj : n.val ∈ (carrier s (ownerOf s n)).joined) (hw : wantsRefresh s n = true)
    (hf : Falls s n q (refreshAt s (ownerOf s n) n)) :
    exec (.edgeInstant n .refreshLow q) s = .next (sends n 1 q
      (if obeyed s n then setFraction (s.inc (R.MOD_CNT_REFRESH (ownerOf s n))) n
        { fraction s n with low := some (q : Int), asked := none } else s)) := by
  have hlock : (if obeyed s n then noteLow n q (s.inc (R.MOD_CNT_REFRESH (ownerOf s n))) else s).on R.MOD_STAT_EDGE_LOCK
      = true := by
    split
    · rw [noteLow, on_setFraction, edgeLock_countRefresh, h.lock]
    · exact h.lock
  rw [← fraction_inc s (R.MOD_CNT_REFRESH (ownerOf s n))]
  exact congrArg Host.Outcome.next <| (if_pos h.guard).trans <|
    (if_pos (Bool.and_eq_true_iff.2 ⟨contains_and_iff.2 ⟨hj, hw⟩, any_assigned_iff.2 hf⟩)).trans (winBlankOpen_launch hlock)

theorem exec_refreshLow_elsewhere (hf : ¬Falls s n q (refreshAt s (ownerOf s n) n)) :
    exec (.edgeInstant n .refreshLow q) s = .next s :=
  congrArg Host.Outcome.next <| (if_pos h.guard).trans <| if_neg fun hb => hf (any_assigned_iff.1 (Bool.and_eq_true_iff.1 hb).2)

theorem exec_refreshEnd (hj : n.val ∈ (carrier s (ownerOf s n)).joined)
    (hlow : (fraction s n).low = some ((q : Int) - 768)) :
    exec (.edgeInstant n .refreshEnd q) s = .next (sends n 2 q s) :=
  congrArg Host.Outcome.next <| (if_pos h.guard).trans <|
    (if_pos (contains_and_iff.2 ⟨hj, lowEnds_iff.2 hlow⟩)).trans (winBlankOpen_launch h.lock)

end

/-! ### Refresh slots (R114) -/

section
variable {s : State} {o n p q : Nat}

theorem wantsRefresh_of (hreq : s.on (R.STI_STATE_BSTREQ n) = true) (hrun : s.get (R.STI_STATE_STATE n) = 3)
    (hasked : (fraction s n).asked ≠ none) : wantsRefresh s n = true := by
  rw [wantsRefresh, hreq, hrun, Option.isSome_iff_ne_none.2 hasked]
  rfl

/-- The slots of a period lie on the grid of REFPH and t_rslot, and within the period. -/
theorem of_mem_refreshGrid (hq : q ∈ refreshGrid s o p) :
    (∃ i : Nat, q = s.get (R.MOD_REF_REFPH o) * p / 65536 + i * 1280) ∧ q < p := by
  simp only [refreshGrid, rslotSteps, List.mem_map, List.mem_range] at hq
  obtain ⟨i, hi, rfl⟩ := hq
  exact ⟨⟨i, rfl⟩, by omega⟩

/-- The slot that a refresh takes is a slot of the period at which nothing stands against it. -/
theorem of_refreshSlot {held : List Int} (hslot : refreshSlot s o n held = some q) :
    ∃ r, (fraction s n).asked = some r ∧ q ∈ refreshGrid s o (fraction s n).per ∧ r ≤ q
      ∧ effStep s o (fraction s n).per ≤ q ∧ highAround s o n q = true
      ∧ (∀ h ∈ held, refwSteps ≤ (h - (q : Int)).natAbs) ∧ lowBefore s o n q r = false := by
  unfold refreshSlot at hslot
  split at hslot
  · cases hslot
  · next r hr =>
    obtain ⟨hfound, hlow⟩ := Option.filter_eq_some_iff.1 hslot
    have hfree := List.find?_some hfound
    simp only [Bool.and_eq_true, decide_eq_true_eq, List.all_eq_true] at hfree
    obtain ⟨⟨⟨hreq, heff⟩, hhigh⟩, hheld⟩ := hfree
    exact ⟨r, hr, List.mem_of_find?_eq_some hfound, hreq, heff, hhigh, hheld, by simpa using hlow⟩

theorem highAround_iff : highAround s o n q = true ↔ ∃ x ∈ highSpans s o n, x.1 + 77 ≤ q ∧ q + 768 + 77 ≤ x.2 := by
  simp only [highAround, List.any_eq_true, Bool.and_eq_true, decide_eq_true_eq]
  rfl

end

/-- Settles O30: the command of each edge and pulse is one `sends`, and what the link then carries is the case of R14 that
`linkCommand` meets. -/
theorem edgeInstants : Obligations.EdgeInstants := by
  refine ⟨fun n m s ho => linkCommand_unclaimed ho,
    fun n j s => ⟨assigned_of_edge_none, fun e => assigned_of_edge_some⟩, fun n q s hthere hruns howned => ?_⟩
  have h : Timed s n := ⟨hthere, hruns, howned⟩
  refine ⟨fun hj => ⟨fun hs => ?edge, exec_edge_soon h, fun hs => ?effective, exec_effectiveEdge_soon h⟩,
    fun hj hs => ?notJoined, fun hj => ⟨exec_joinLow h hj, exec_joinLow_elsewhere h, exec_joinEnd h hj⟩,
    fun hj => ⟨fun hreq hrun hasked => ⟨exec_refreshLow h hj (wantsRefresh_of hreq hrun hasked), exec_refreshLow_elsewhere h⟩,
      exec_refreshEnd h hj⟩,
    fun held hslot => ?slot, fun hj hs => ?carried⟩
  case edge => rw [exec_edge h hs, edgeLevel_joined hj]; rfl
  case effective => rw [exec_effectiveEdge h hs, edgeLevel_joined hj]; rfl
  case notJoined => rw [exec_edge h hs, edgeLevel_not_joined hj]; rfl
  case slot =>
    obtain ⟨r, hr, hgrid, hreq, heff, hhigh, hheld, hlow⟩ := of_refreshSlot hslot
    obtain ⟨hon, hlt⟩ := of_mem_refreshGrid hgrid
    exact ⟨hon, hlt, heff, hheld, highAround_iff.1 hhigh, r, hr, hreq, hlow⟩
  case carried =>
    refine ⟨fun hhem => exec_edge_carries h hs (linkCommand_hemActive hhem), fun hhem =>
      ⟨fun hr => exec_edge_carries h hs (linkCommand_retired hhem howned hr), fun hr => ?_⟩⟩
    have hoff : ¬Driven s n → exec (.edgeInstant n (.edge false) q) s = .next (carries n 0 q s) := fun hd =>
      exec_edge_carries h hs (linkCommand_not_driven hhem howned hr hd)
    refine ⟨fun hcov => hoff fun hd => ?covered, fun hown => hoff fun hd => ne_true_of_eq_false hd.own hown,
      fun hst => hoff fun hd => hst hd.run, fun hen => hoff fun hd => ne_true_of_eq_false hen hd.enabled,
      fun hwait => hoff fun hd => hd.waits hwait, fun hhold hwin hown hst hen hwait => ?driven⟩
    case covered => exact hcov.elim (ne_true_of_eq_false hd.hold) (ne_true_of_eq_false hd.window)
    case driven =>
      rw [exec_edge_carries h hs (linkCommand_driven hhem howned hr ⟨hhold, hwin, hown, hst, hen, hwait⟩),
        edgeLevel_joined hj]
      rfl

end Sys2Proof.Machine
end

section
/-!
PROOFS of what a read of the first word of a SNAP group latches, and what a read of MB_STAT locks (R32, R335).
-/
namespace Sys2Proof.Machine

/-! ### The words of a SNAP group (R32) -/

theorem snapGroup_SEAM_STATE {n : Nat} (h0 : n ≠ 0) (hn : n < 64) : snapGroup (R.SEAM_STATE n) = [R.SEAM_CAP n] := by
  simp only [snapGroup, R.SEAM_STATE, R.SEAM_CAP]
  exact (if_pos (by omega)).trans <| (if_pos (by omega)).trans (by congr 1; omega)

theorem snapGroup_STI_TEL0 {n : Nat} (hn : n < 96) : snapGroup (R.STI_TEL0 n) = [R.STI_TEL1 n] := by
  simp only [snapGroup, R.STI_TEL0, R.STI_TEL1]
  exact (if_neg (by omega)).trans <| (if_pos (by omega)).trans <| (if_pos (by omega)).trans (by congr 1; omega)

/-- The low word of each energy register in the metering block heads a group of two words. -/
theorem snapGroup_energy {a : Nat} (hblock : a / 0x10000 = 0x0A) (hlo : 0x0A1000 ≤ a) (hhi : a < 0x0A1400)
    (henergy : 0x80 ≤ a % 0x100) (hlow : a % 8 = 0) (hq : a % 0x40 / 8 < 7) : snapGroup a = [a + 4] := by
  simp only [snapGroup]
  exact (if_neg (by omega)).trans <| (if_neg (by omega)).trans <| (if_pos (by omega)).trans (if_pos (by omega))

theorem snapGroup_MTR_LONG_LO {c q : Nat} (hc : c < 4) (hq : q < 7) :
    snapGroup (R.MTR_LONG_LO c q) = [R.MTR_LONG_HI c q] := by
  simp only [R.MTR_LONG_LO, R.MTR_LONG_HI]
  exact (snapGroup_energy (by omega) (by omega) (by omega) (by omega) (by omega) (by omega)).trans (by congr 1; omega)

theorem snapGroup_MTR_INT {c q : Nat} (hc : c < 4) (hq : q < 7) : snapGroup (R.MTR_INT c q) = [R.MTR_IWRAP c q] := by
  simp only [R.MTR_INT, R.MTR_IWRAP]
  exact (snapGroup_energy (by omega) (by omega) (by omega) (by omega) (by omega) (by omega)).trans (by congr 1; omega)

theorem snapGroup_FLT_LOG {k : Nat} (hk : k < 256) :
    snapGroup (R.FLT_LOG k 0) = [R.FLT_LOG k 1, R.FLT_LOG k 2, R.FLT_LOG k 3] := by
  simp only [snapGroup, R.FLT_LOG]
  exact (if_neg (by omega)).trans <| (if_neg (by omega)).trans <| (if_neg (by omega)).trans <| (if_neg (by omega)).trans <|
    (if_pos (by omega)).trans (if_pos (by omega))

theorem snapGroup_OVL_RES_LO {u : Nat} (hu : u < 16) : snapGroup (R.OVL_RES_LO u) = [R.OVL_RES_HI u] := by
  simp only [snapGroup, R.OVL_RES_LO, R.OVL_RES_HI]
  exact (if_neg (by omega)).trans <| (if_neg (by omega)).trans <| (if_neg (by omega)).trans <| (if_neg (by omega)).trans <|
    (if_neg (by omega)).trans <| (if_pos (by omega)).trans <| (if_pos (by omega)).trans (by congr 1; omega)

theorem snapGroup_PWR_RTC_LO : snapGroup R.PWR_RTC_LO = [R.PWR_RTC_HI] := by decide

theorem snapGroup_FAB_AGREE : snapGroup R.FAB_AGREE = [R.FAB_AGREE_EPOCH] := by decide

/-- Mailbox registers belong to no group. -/
theorem snapGroup_MB_STAT {b m : Nat} (hb : b < 2) (hm : m < 32) : snapGroup (R.MB_STAT b m) = [] := by
  simp only [snapGroup, R.MB_STAT, R.PWR_RTC_LO, R.FAB_AGREE, R.FAB_TIME_LO]
  exact (if_neg (by omega)).trans <| (if_neg (by omega)).trans <| (if_neg (by omega)).trans <| (if_neg (by omega)).trans <|
    (if_neg (by omega)).trans <| (if_neg (by omega)).trans (if_neg (by omega))

/-! ### A read through a port -/

section
variable {s : State} {p a : Nat}

theorem accessError_of_answers (h : Answers s p a) : accessError s a = none := by
  obtain ⟨_, hthere, hon⟩ := h
  simp [accessError, hthere, hon]

/-- No shadow of the port holds word `a`. -/
def Unshadowed (s : State) (p a : Nat) : Prop := ∀ r, snapRun s p = some r → ∀ e ∈ r.words, e.1 ≠ a

/-- A word that no shadow of the port holds reads as it stands, and ends the run or starts that of its group. -/
theorem snapRead_of_unshadowed (h : Unshadowed s p a) : snapRead p a s =
    (setSnapRun p (if snapGroup a = [] then none else some ⟨(snapGroup a).map (fun x => (x, readWord x s)), a⟩) s,
      readWord a s) := by
  unfold snapRead
  cases hrun : snapRun s p with
  | none => rfl
  | some r =>
    have hmiss : r.words.find? (fun e => e.1 == a) = none :=
      List.find?_eq_none.2 fun e he => by simpa using h r hrun e he
    simp only [hmiss, Option.map_none, ite_self]

/-- A read locks nothing outside the host-port block. -/
theorem lockOnRead_elsewhere (h : a / 0x10000 ≠ 0x18) : lockOnRead p a s = s := if_neg h

/-- What a read of `a` through port `p` leaves where it latches the words `more`: the run of the port, and what was sent. -/
def latchedRead (p a : Nat) (more : List Nat) (s : State) : State :=
  { s with host := { s.host with
    snaps := (setSnapRun p (some ⟨more.map (fun x => (x, readWord x s)), a⟩) s).host.snaps
    sent := [readWord a s], trailer := none, after := 0 } }

/-- A read of the head of a group latches the rest of the group, and changes nothing else. -/
theorem portRead_head {more : List Nat} (hans : Answers s p a) (hfree : Unshadowed s p a) (hmore : snapGroup a = more)
    (hsome : more ≠ []) (hblock : a / 0x10000 ≠ 0x18) : portRead p a s = latchedRead p a more s := by
  simp only [portRead, if_pos hans.1, hostRead, accessError_of_answers hans, snapRead_of_unshadowed hfree, hmore,
    if_neg hsome, lockOnRead_elsewhere hblock]
  rfl

/-- While a run latches the word behind the last one read, that word reads as latched. -/
theorem hostRead_latched {w : Word} (hrun : snapRun s p = some ⟨[(a + 4, w)], a⟩) (hok : accessError s (a + 4) = none)
    (hblock : a / 0x10000 ≠ 0x0A) : (hostRead p (a + 4) s).2.1 = w := by
  have hplain : shadowed (a + 4) w s = w := if_neg (by omega)
  simp [hostRead, hok, snapRead, hrun, hplain]

/-! ### MB_STAT (R335) -/

variable {b m : Nat}

theorem mbStatAt_MB_STAT (b : Fin 2) (m : Fin 32) : mbStatAt (R.MB_STAT b m) = some (b.val, m.val) := by
  revert b m; decide

/-- MB_STAT reads as its register stands. -/
theorem readWord_MB_STAT (s : State) (hb : b < 2) (hm : m < 32) : readWord (R.MB_STAT b m) s = s.word (R.MB_STAT b m) := by
  have hblock : R.MB_STAT b m / 0x10000 = 0x18 := by simp only [R.MB_STAT]; omega
  have hview : hstWord (R.MB_STAT b m) s = s.word (R.MB_STAT b m) := by
    simp only [hstWord, R.MB_STAT, R.HST_ISRC, R.HST_WLAT, R.CAN_RXMAP, R.CAN_TXMAP, R.CAN_TS]
    exact (if_neg (by omega)).trans <| (if_neg (by omega)).trans <| (if_neg (by omega)).trans <|
      (if_neg (by omega)).trans <| (if_neg (by omega)).trans <| (if_neg (by omega)).trans (if_neg (by omega))
  simp only [readWord, hblock, hview]

theorem lockOf_setLock (s : State) (b m : Nat) (q : Option Nat) : lockOf (setLock b m q s) b m = q := by
  simp [lockOf, setLock, canBus, setCanBus]

theorem lockOf_setLock_ne (s : State) {b m b' m' : Nat} (q : Option Nat) (h : (b', m') ≠ (b, m)) :
    lockOf (setLock b m q s) b' m' = lockOf s b' m' := by
  simp only [lockOf, setLock, canBus, setCanBus, flag_can]
  by_cases hb : b' = b
  · subst hb
    rw [tget_tset_self, tget_tset_ne _ _ _ fun hm => h (by rw [hm])]
  · rw [tget_tset_ne _ _ _ hb]

/-- A lock shows in MB_STAT alone. -/
theorem regsOutside_setLock (s : State) (b m : Nat) (q : Option Nat) : RegsOutside [R.MB_STAT b m] s (setLock b m q s) :=
  fun _ ha => (word_flag_ne _ _ _ _ (List.ne_of_not_mem_cons ha)).trans rfl

/-- A read of MB_STAT locks its mailbox, unless a port holds it already. -/
theorem lockOnRead_MB_STAT (s : State) (p : Nat) (b : Fin 2) (m : Fin 32) :
    lockOnRead p (R.MB_STAT b m) s = if (lockOf s b m).isSome then s else setLock b m (some p) s := by
  rw [lockOnRead, if_pos (by simp only [R.MB_STAT]; omega), mbStatAt_MB_STAT]

/-- The word `w` has been sent, and nothing behind it. -/
def sentWord (w : Word) (s : State) : State := { s with host := { s.host with sent := [w], trailer := none, after := 0 } }

theorem lockOf_sentWord (w : Word) (s : State) (b m : Nat) : lockOf (sentWord w s) b m = lockOf s b m := rfl

/-- A read of MB_STAT ends the SNAP run of the port, locks the mailbox, and returns the register. -/
theorem portRead_MB_STAT {b : Fin 2} {m : Fin 32} (hans : Answers s p (R.MB_STAT b m))
    (hfree : Unshadowed s p (R.MB_STAT b m)) : portRead p (R.MB_STAT b m) s =
      sentWord (s.word (R.MB_STAT b m)) (lockOnRead p (R.MB_STAT b m) (setSnapRun p none s)) := by
  simp only [portRead, if_pos hans.1, hostRead, accessError_of_answers hans, snapRead_of_unshadowed hfree,
    snapGroup_MB_STAT b.isLt m.isLt, if_true, readWord_MB_STAT _ b.isLt m.isLt, sentWord]

end

/-- Settles O12: a read at the head of a group is one `latchedRead`, and one of MB_STAT locks its mailbox. -/
theorem snapReads : Obligations.SnapReads := by
  refine ⟨fun s p => ?_, fun t p a w => hostRead_latched⟩
  have head : ∀ a more, (Answers s p a ∧ Unshadowed s p a) → snapGroup a = more → more ≠ [] → a / 0x10000 ≠ 0x18 →
      Host.Outcome.next (portRead p a s) = (.next (latchedRead p a more s) : Host.Outcome State Fault Refusal) :=
    fun a more hfresh hmore hsome hblock => congrArg _ (portRead_head hfresh.1 hfresh.2 hmore hsome hblock)
  refine ⟨fun n hn hfresh => ?seam, fun n hfresh => ?sti, fun c q hfresh => ?long, fun c q hfresh => ?interval,
    fun k hfresh => ?log, fun u hfresh => ?ovl, fun hfresh => head _ _ hfresh snapGroup_PWR_RTC_LO (by simp) (by decide),
    fun hfresh => head _ _ hfresh snapGroup_FAB_AGREE (by simp) (by decide), fun b m hfresh => ?mailbox⟩
  case seam =>
    exact head _ _ hfresh (snapGroup_SEAM_STATE (fun h => hn (Fin.ext h)) n.isLt) (by simp)
      (by simp only [R.SEAM_STATE]; omega)
  case sti => exact head _ _ hfresh (snapGroup_STI_TEL0 n.isLt) (by simp) (by simp only [R.STI_TEL0]; omega)
  case long =>
    exact head _ _ hfresh (snapGroup_MTR_LONG_LO c.isLt q.isLt) (by simp) (by simp only [R.MTR_LONG_LO]; omega)
  case interval =>
    exact head _ _ hfresh (snapGroup_MTR_INT c.isLt q.isLt) (by simp) (by simp only [R.MTR_INT]; omega)
  case log => exact head _ _ hfresh (snapGroup_FLT_LOG k.isLt) (by simp) (by simp only [R.FLT_LOG]; omega)
  case ovl => exact head _ _ hfresh (snapGroup_OVL_RES_LO u.isLt) (by simp) (by simp only [R.OVL_RES_LO]; omega)
  case mailbox =>
    refine ⟨_, congrArg Host.Outcome.next (portRead_MB_STAT hfresh.1 hfresh.2), ?_⟩
    have hsame : ∀ b' m', lockOf (setSnapRun p none s) b' m' = lockOf s b' m' := fun _ _ => rfl
    rw [lockOnRead_MB_STAT, hsame]
    simp only [lockOf_sentWord]
    by_cases hheld : (lockOf s b m).isSome
    · rw [if_pos hheld, if_pos hheld]
      exact ⟨(RegsOutside.refl _ s).of_regs rfl, rfl, rfl, fun _ _ _ _ _ => rfl⟩
    · rw [if_neg hheld, if_neg hheld]
      exact ⟨(regsOutside_setLock (setSnapRun p none s) b m _).of_regs rfl, rfl, lockOf_setLock ..,
        fun b' m' hne _ _ => (lockOf_setLock_ne _ _ hne).trans (hsame b' m')⟩

end Sys2Proof.Machine
end

section
/-!
PROOFS of the counterexample to the statement about carrier instants: a STACK that asks for 65,535 of the 65,536 parts of a
level.
-/
namespace Sys2Proof.Machine

/-! ### UPDATE_INSTANT of one carrier (R108) -/

/-- What the update instant of carrier `u` alone makes of `s`. -/
def updated (due : Bool) (u : Update) (s : State) : State :=
  takeFractions u (oneCycle (updateAt due ([u].filter (·.slot.isNone))) (joinTimed u.seam (timed s u.seam u.slot) s))

theorem exec_updateInstant {s : State} {u : Update} (hused : seamUsed s u.seam = true) (hruns : carriersRun s = true)
    (due : Bool) : exec (.updateInstant due [u]) s = .next (updated due u s) := by
  have hone : [u].filter (fun v => seamUsed s v.seam) = [u] := by simp [hused]
  refine congrArg Host.Outcome.next ((if_pos hruns).trans ?_)
  rw [hone]
  rfl

/-! ### The counterexample -/

/-- Root 1 runs as a STACK of stitches 5, 6 and 7, all joined and in RUN, and asks for a third of its three levels: the f16 of
REF is 21,845, so that the request is 65,535 parts of a level. -/
def thirdOfThree : State :=
  let lit := ((State.reset.put R.PWR_DOM_ON 255).flag R.PAT_STAT_LOADED true).flag R.MOD_STAT_EDGE_LOCK true
  let stack := ((lit.put (R.SEAM_DESC_TYPE 1) tSTACK).put (R.SEAM_DESC_NCHILD 1) 3).setWord (R.SEAM_CHILD 1 0) 0x070605
  let asked := (stack.put (R.SEAM_REF_REF 1) (code 16 (21845 - 32768))).put (R.MOD_OPT_BALN 1) 4
  setCarrier (forL [5, 6, 7] (fun k a => a.put (R.STI_STATE_STATE k) stRUN) asked) 1
    { Carrier.zero with per := 64000, levels := 3, joined := [5, 6, 7] }

/-- Its seam is a root in use, with no context, no LINK and no REMOTE reference. -/
theorem thirdOfThree_root : seamUsed thirdOfThree 1 = true ∧ carriersRun thirdOfThree = true
    ∧ thirdOfThree.get (R.SEAM_DESC_PARENT 1) = 0 ∧ contextsOf thirdOfThree 1 = [] ∧ (remoteX thirdOfThree 1).reply = []
    ∧ thirdOfThree.on (R.SEAM_DESC_REMOTE 1) = false
    ∧ ∀ m ∈ seams, seamType thirdOfThree m = tLINK → thirdOfThree.get (R.SEAM_DESC_PARENT m) ≠ 1 := by decide +kernel

/-- It is a STACK of stitches whose update instant raises no SEAM-BAL. -/
theorem thirdOfThree_stack : seamType thirdOfThree 1 = tSTACK ∧ (children thirdOfThree 1).Nodup
    ∧ thirdOfThree.get (R.SEAM_DESC_NCHILD 1) ≤ 16 ∧ (∀ c ∈ children thirdOfThree 1, isStitchCode c = true)
    ∧ thirdOfThree.get (R.MOD_OPT_BALN 1) ≠ 0
    ∧ thirdOfThree.get (R.MOD_OPT_BALN 1) ≠ (carrier thirdOfThree 1).balRun + 1 := by decide +kernel

/-- No child is inserted fully and stitch 5 has what remains, for which it is driven as a full child is: the reference that
R110 gives 65,535 parts is 0x7FFF, and R102 reads that as 65,536. -/
theorem updated_thirdOfThree : let t := updated true ⟨1, none⟩ thirdOfThree
    5 ∈ children thirdOfThree 1 ∧ (carrier t 1).full = [] ∧ (carrier t 1).frac = some 5
      ∧ (fraction t 5).due = 65536 := by decide +kernel

/-- Refutes O28: a STACK that asks for 65,535 parts of a level (`thirdOfThree`) selects a child for them, but the fraction of
that child is a whole level, where the statement has it less than one. -/
theorem not_carrierInstants : ¬ Obligations.CarrierInstants := by
  intro h
  obtain ⟨hused, hruns, hparent, hctx, hreply, hremote, hlink⟩ := thirdOfThree_root
  obtain ⟨htype, hnodup, hcount, hstitches, hbal⟩ := thirdOfThree_stack
  obtain ⟨-, -, -, -, -, -, -, -, -, -, hstack, -⟩ := h 1 thirdOfThree hused hruns
  obtain ⟨t, r, hexec, -, hr, -, -, hdue, -⟩ :=
    hstack ⟨⟨hparent, hctx, hreply, hnodup, hcount⟩, hremote⟩ hlink hstitches htype (.inr hbal) true
  obtain rfl : updated true ⟨1, none⟩ thirdOfThree = t :=
    Host.Outcome.next.inj ((exec_updateInstant hused hruns true).symm.trans hexec)
  obtain ⟨hchild, hfull, hfrac, hwhole⟩ := updated_thirdOfThree
  have hpart : (fraction (updated true ⟨1, none⟩ thirdOfThree) 5).due = r :=
    (hdue 5 hchild).trans ((if_neg (hfull ▸ List.not_mem_nil)).trans (if_pos hfrac))
  omega

end Sys2Proof.Machine
end

section
/-!
PROOFS of what PAT_CTL refuses: the judgement of a command, and a fabric that does not follow the reason shown in PAT_STAT.
-/
namespace Sys2Proof.Machine

/-! ### The fabric after a change of PAT_STAT (Table 18.3, R353) -/

/-- Nothing follows where every port that is not DOWN may run and FAB_AGREE stands as R353 has it. -/
theorem syncFabric_eq_self {s : State} (hrun : ∀ p ∈ fabPorts s, portState s p ≠ pDOWN → portRuns s p = true)
    (hagree : agreed s = true) : syncFabric s = s := by
  have hnone : stoppedPorts s = [] := by
    refine List.filter_eq_nil_iff.2 fun p hp hstop => ?_
    simp only [Bool.and_eq_true, bne_iff_ne, ne_eq, Bool.not_eq_true'] at hstop
    exact Bool.false_ne_true (hstop.2.symm.trans (hrun p hp hstop.1.2))
  have hstands : syncAgree s = s := if_pos hagree
  simp only [syncFabric, hnone, if_true, hstands, ite_self]

section
variable {s t : State} (hfab : t.fab = s.fab) (hpart : t.part = s.part) (hword : ∀ a, a ≠ R.PAT_STAT → t.word a = s.word a)

include hword in
theorem get_of_patStat_apart {f : Field} (hf : f.addr ≠ R.PAT_STAT) : t.get f = s.get f :=
  congrArg (bitsOf · f.lo f.wd) (hword _ hf)

include hword in
theorem on_of_patStat_apart {f : Field} (hf : f.addr ≠ R.PAT_STAT) : t.on f = s.on f :=
  congrArg (· == 1) (get_of_patStat_apart hword hf)

include hword in
theorem portState_of_patStat_apart (p : Nat) : portState t p = portState s p :=
  get_of_patStat_apart hword (by simp only [R.FAB_PSTAT_STATE, R.FAB_PSTAT, R.PAT_STAT]; omega)

include hpart hword in
/-- Of PAT_STAT, LOADED alone decides which ports may run. -/
theorem portRuns_of_patStat_apart (hloaded : t.on R.PAT_STAT_LOADED = s.on R.PAT_STAT_LOADED) (p : Nat) :
    portRuns t p = portRuns s p := by
  have hcfg := on_of_patStat_apart hword (f := R.FAB_PCFG_EN p) (by simp only [R.FAB_PCFG_EN, R.FAB_PCFG, R.PAT_STAT]; omega)
  simp only [portRuns, domOn, get_of_patStat_apart hword (f := R.PWR_DOM_ON) (by decide),
    on_of_patStat_apart hword (f := R.FAB_CFG_EN) (by decide), hcfg, hpart, hloaded]

include hfab hword in
/-- Agreement rests on the digests alone. -/
theorem agreed_of_patStat_apart : agreed t = agreed s := by
  have hdigest : patDigest t = patDigest s := by
    simp only [patDigest, wordsBe]
    refine List.flatMap_congr fun k _ => ?_
    rw [hword _ (by simp only [R.PAT_DIGEST, R.PAT_STAT]; omega)]
  simp only [agreed, agreeMap, ownRole, member, hdigest, hfab, get_of_patStat_apart hword (f := R.FAB_STAT_ROLE) (by decide),
    on_of_patStat_apart hword (f := R.FAB_STAT_BOUND) (by decide), get_of_patStat_apart hword (f := R.FAB_MEMBERS_MAP) (by decide),
    get_of_patStat_apart hword (f := R.FAB_AGREE_MAP) (by decide), get_of_patStat_apart hword (f := R.FAB_EXPECT_MAP) (by decide),
    on_of_patStat_apart hword (f := R.FAB_STAT_ALL) (by decide)]

include hfab hpart hword in
/-- What changes in PAT_STAT apart from LOADED is nothing that the fabric follows. -/
theorem syncFabric_of_patStat_apart (hloaded : t.on R.PAT_STAT_LOADED = s.on R.PAT_STAT_LOADED)
    (hrun : ∀ p ∈ fabPorts s, portState s p ≠ pDOWN → portRuns s p = true) (hagree : agreed s = true) : syncFabric t = t := by
  have hports : fabPorts t = fabPorts s := by rw [fabPorts, hpart, fabPorts]
  refine syncFabric_eq_self (fun p hp hdown => ?_) ((agreed_of_patStat_apart hfab hword).trans hagree)
  rw [portState_of_patStat_apart hword] at hdown
  rw [portRuns_of_patStat_apart hpart hword hloaded]
  exact hrun p (hports ▸ hp) hdown

end

/-! ### PAT_CTL (R55, Tables 3.5 and 3.6) -/

section
variable {s : State} {c : PortCmd} {code e : Nat}

theorem bitsOf_ctlWord_code (hcode : code < 16) : bitsOf (ctlWord c code) 0 4 = code := by
  simp only [bitsOf, ctlWord, BitVec.toNat_ofNat]
  omega

theorem bitsOf_ctlWord_guard (hcode : code < 16) : bitsOf (ctlWord c code) 16 16 = c.guard.toNat := by
  have := c.guard.isLt
  simp only [bitsOf, ctlWord, BitVec.toNat_ofNat]
  omega

theorem guardOk_ctlWord (hcode : code < 16) : guardOk (ctlWord c code) = (c.guard.toNat == guardWord) := by
  rw [guardOk, bitsOf_ctlWord_guard hcode]

/-- A command that PAT_CTL takes is judged in the state before it. -/
theorem patRow_of_accepts (h : Accepts s c.port R.PAT_CTL) (code : Nat) :
    patRow c code s = syncFabric (writePatCtl (ctlWord c code) (endRun c.port s)) :=
  guarded_accepts s c.port R.PAT_CTL _ _ h

theorem patRow_of_judge_some (h : Accepts s c.port R.PAT_CTL) (hcode : code < 16)
    (hj : patJudge (c.guard.toNat == guardWord) code s = some e) :
    patRow c code s = syncFabric (patRefuse e (endRun c.port s)) := by
  have hj' : patJudge (guardOk (ctlWord c code)) (bitsOf (ctlWord c code) 0 4) (endRun c.port s) = some e := by
    rw [guardOk_ctlWord hcode, bitsOf_ctlWord_code hcode]; exact hj
  simp only [patRow_of_accepts h, writePatCtl, hj']

theorem patRow_of_judge_none (h : Accepts s c.port R.PAT_CTL) (hcode : code < 16) (hguard : c.guard.toNat = guardWord)
    (hj : patJudge true code s = none) :
    patRow c code s = syncFabric (patCommand code ((endRun c.port s).put R.PAT_STAT_CMD_ERR 0)) := by
  have hj' : patJudge (guardOk (ctlWord c code)) (bitsOf (ctlWord c code) 0 4) (endRun c.port s) = none := by
    rw [guardOk_ctlWord hcode, bitsOf_ctlWord_code hcode, hguard]; exact hj
  simp only [patRow_of_accepts h, writePatCtl, hj']
  rw [bitsOf_ctlWord_code hcode]

/-! ### Commands that are not accepted -/

theorem patJudge_busy (h0 : 1 ≤ code) (h1 : code ≤ 0xD) (hbusy : s.on R.PAT_STAT_BUSY = true)
    (habort : code = 0xD → abortable s.pat.work = false) : patJudge true code s = some 2 := by
  have hblocks : (code == 0xD && abortable s.pat.work) = false := by
    by_cases hc : code = 0xD
    · simp [habort hc]
    · simp [hc]
  rw [patJudge, if_neg (by simp), if_neg (by omega), if_pos (by simp [hbusy, hblocks])]

theorem word_patRefuse (e : Nat) (s : State) :
    (patRefuse e s).word R.PAT_STAT = setBits (setBits (s.word R.PAT_STAT) 8 8 e) 20 1 1 :=
  (word_put _ R.PAT_STAT_DONE _).trans (congrArg (setBits · 20 1 1) (word_put _ R.PAT_STAT_CMD_ERR _))

theorem loaded_patRefuse (e : Nat) (s : State) : (patRefuse e s).on R.PAT_STAT_LOADED = s.on R.PAT_STAT_LOADED := by
  rw [patRefuse, patDone, on_flag_other _ _ _ _ (by decide) (by decide), on_put_other _ _ _ _ (by decide) (by decide)]

theorem PortRegs.fab {p : Nat} {as : List Nat} {s t : State} (h : PortRegs p as s t) : t.fab = s.fab := by rw [h.1]; rfl

theorem PortRegs.part {p : Nat} {as : List Nat} {s t : State} (h : PortRegs p as s t) : t.part = s.part := by rw [h.1]; rfl

/-- The command `i` is refused with the reason `e`: PAT_STAT takes it and DONE, and the fabric follows. -/
def Refused (s : State) (c : PortCmd) (e : Nat) (i : Instr) : Prop :=
  ∃ t, exec i s = .next (syncFabric t)
    ∧ PortRegs c.port [R.PAT_STAT] s t ∧ t.word R.PAT_STAT = setBits (setBits (s.word R.PAT_STAT) 8 8 e) 20 1 1
    ∧ ((∀ p ∈ fabPorts s, portState s p ≠ pDOWN → portRuns s p = true) → agreed s = true → exec i s = .next t)

theorem refused_of_judge (h : Accepts s c.port R.PAT_CTL) (hcode : code < 16) {i : Instr}
    (hi : exec i s = .next (patRow c code s)) (hj : patJudge (c.guard.toNat == guardWord) code s = some e) :
    Refused s c e i := by
  have hexec : exec i s = .next (syncFabric (patRefuse e (endRun c.port s))) := by
    rw [hi, patRow_of_judge_some h hcode hj]
  have hframe : PortRegs c.port [R.PAT_STAT] s (patRefuse e (endRun c.port s)) :=
    ((PortRegs.refl ..).put _ _ (by decide)).flag _ _ (by decide)
  refine ⟨_, hexec, hframe, by rw [word_patRefuse, endRun_word], fun hrun hagree => ?_⟩
  have hword : ∀ a, a ≠ R.PAT_STAT → (patRefuse e (endRun c.port s)).word a = s.word a := fun a ha =>
    hframe.2 a (by simpa using ha)
  have hloaded : (patRefuse e (endRun c.port s)).on R.PAT_STAT_LOADED = s.on R.PAT_STAT_LOADED := by
    rw [loaded_patRefuse, endRun_on]
  have hstays : syncFabric (patRefuse e (endRun c.port s)) = patRefuse e (endRun c.port s) :=
    syncFabric_of_patStat_apart (s := s) hframe.fab hframe.part hword hloaded hrun hagree
  rw [hexec, hstays]

end

/-- Settles O14: each command is one `patRow`, and `patJudge` names the reason. -/
theorem patternRefusals : Obligations.PatternRefusals := by
  intro s c h
  have hall : ∀ i ∈ [Instr.streamBegin c, .verifyA c, .verifyB c, .loadStaged c, .loadA c, .loadB c, .commitA c, .commitB c,
      .selectA c, .selectB c, .confirm c, .sealMtr c],
      ∃ code, 1 ≤ code ∧ code ≤ 0xC ∧ exec i s = .next (patRow c code s) := by
    simp only [List.forall_mem_cons, List.not_mem_nil, false_imp_iff, implies_true, and_true]
    exact ⟨⟨1, by omega, by omega, rfl⟩, ⟨2, by omega, by omega, rfl⟩, ⟨3, by omega, by omega, rfl⟩,
      ⟨4, by omega, by omega, rfl⟩, ⟨5, by omega, by omega, rfl⟩, ⟨6, by omega, by omega, rfl⟩,
      ⟨7, by omega, by omega, rfl⟩, ⟨8, by omega, by omega, rfl⟩, ⟨9, by omega, by omega, rfl⟩,
      ⟨10, by omega, by omega, rfl⟩, ⟨11, by omega, by omega, rfl⟩, ⟨12, by omega, by omega, rfl⟩⟩
  have hloads : ∀ i ∈ [Instr.loadStaged c, .loadA c, .loadB c],
      ∃ code, (code = 4 ∨ code = 5 ∨ code = 6) ∧ exec i s = .next (patRow c code s) := by
    simp only [List.forall_mem_cons, List.not_mem_nil, false_imp_iff, implies_true, and_true]
    exact ⟨⟨4, by omega, rfl⟩, ⟨5, by omega, rfl⟩, ⟨6, by omega, rfl⟩⟩
  refine ⟨fun hguard => ?guard, fun hguard hbusy => ?busy, fun hguard hidle => ?judged⟩
  case guard =>
    have hbad : (c.guard.toNat == guardWord) = false := beq_false_of_ne hguard
    refine ⟨fun i hi => ?_, refused_of_judge (code := 0xD) h (by omega) rfl (by rw [hbad]; rfl)⟩
    obtain ⟨code, -, hle, hexec⟩ := hall i hi
    exact refused_of_judge h (by omega) hexec (by rw [hbad]; rfl)
  case busy =>
    have hgood : (c.guard.toNat == guardWord) = true := beq_iff_eq.2 hguard
    refine ⟨fun i hi => ?_, fun habort =>
      refused_of_judge (code := 0xD) h (by omega) rfl (by rw [hgood]; exact patJudge_busy (by omega) (by omega) hbusy fun _ => habort)⟩
    obtain ⟨code, hge, hle, hexec⟩ := hall i hi
    exact refused_of_judge h (by omega) hexec (by rw [hgood]; exact patJudge_busy hge (by omega) hbusy (by omega))
  case judged =>
    have hgood : (c.guard.toNat == guardWord) = true := beq_iff_eq.2 hguard
    refine ⟨fun hready hfit hbast i hi => ?mode, fun hfit => ?sealMode, fun hfit hstaged => ?notStaged,
      fun hfit hpart hmtr => ?calibration, fun hlen => ?length⟩
    case mode =>
      obtain ⟨code, hcode, hexec⟩ := hloads i hi
      refine refused_of_judge h (by omega) hexec ?_
      rw [hgood, patJudge, if_neg (by simp), if_neg (by omega), if_neg (by simp [hidle]),
        if_pos ⟨hcode, by simp [hready, hfit, hbast]⟩]
    case sealMode => exact refused_of_judge (code := 0xC) h (by omega) rfl (by simp [hgood, patJudge, hidle, hfit])
    case notStaged =>
      refine ⟨refused_of_judge (code := 4) h (by omega) rfl ?_, refused_of_judge (code := 7) h (by omega) rfl ?_,
        refused_of_judge (code := 8) h (by omega) rfl ?_⟩ <;> simp [hgood, patJudge, hidle, hfit, hstaged]
    case calibration => exact refused_of_judge (code := 0xC) h (by omega) rfl (by simp [hgood, patJudge, hidle, hfit, hpart, hmtr])
    case length => exact refused_of_judge (code := 1) h (by omega) rfl (by simp [hgood, patJudge, hidle, hlen])

end Sys2Proof.Machine
end

section
/-!
PROOFS of the laws of the Pattern manager's own operations: the registers and the fields of State that each of them writes,
and what it leaves.
-/
namespace Sys2Proof.Machine

/-! ### Fields that an update does not reach -/

section
variable (s : State)

theorem get_flag_other (f g : Field) (b : Bool) (hg : g.lo + g.wd ≤ 32)
    (h : g.addr ≠ f.addr ∨ g.lo + g.wd ≤ f.lo ∨ f.lo + f.wd ≤ g.lo) : (s.flag f b).get g = s.get g :=
  get_put_other _ _ _ _ hg h

theorem get_with_pat (P : PatSt) (f : Field) : ({ s with pat := P } : State).get f = s.get f := rfl
theorem get_with_idn (x : IdnSt) (f : Field) : ({ s with idn := x } : State).get f = s.get f := rfl
theorem on_with_pat (P : PatSt) (f : Field) : ({ s with pat := P } : State).on f = s.on f := rfl

/-- A field that is set reads 1, one that is cleared 0. -/
theorem get_flag (f : Field) (b : Bool) (h : f.lo + f.wd ≤ 32) (hw : f.wd = 1) : (s.flag f b).get f = bit b := by
  rw [State.flag, get_put _ _ _ h, hw]
  exact Nat.mod_eq_of_lt (bit_lt b)

variable {s} {t : State} {as : List Nat}

theorem RegsOutside.get (h : RegsOutside as s t) {f : Field} (hf : f.addr ∉ as) : t.get f = s.get f :=
  congrArg (bitsOf · f.lo f.wd) (h _ hf)

theorem RegsOutside.on (h : RegsOutside as s t) {f : Field} (hf : f.addr ∉ as) : t.on f = s.on f :=
  congrArg (· == 1) (h.get hf)

theorem RegsOutside.trans {u : State} (h : RegsOutside as s t) (k : RegsOutside as t u) : RegsOutside as s u :=
  fun a ha => (k a ha).trans (h a ha)

theorem RegsOutside.mono {bs : List Nat} (h : RegsOutside as s t) (hsub : as ⊆ bs) : RegsOutside bs s t :=
  fun a ha => h a fun hmem => ha (hsub hmem)

end

/-! ### What the Pattern manager may touch -/

/-- Nothing differs but registers of `as`, and the states of the Pattern manager, the signing engine, the mode controller and
the mirror writes that wait. -/
structure Managed (as : List Nat) (s t : State) : Prop where
  regs : RegsOutside as s t
  rest : t = { s with regs := t.regs, idn := t.idn, pat := t.pat, pwr := t.pwr, mirrors := t.mirrors }

namespace Managed
variable {as : List Nat} {s t : State}

theorem refl (as : List Nat) (s : State) : Managed as s s := ⟨.refl _ _, rfl⟩

theorem setWord (h : Managed as s t) (a : Nat) (w : Word) (ha : a ∈ as) : Managed as s (t.setWord a w) := by
  refine ⟨h.regs.setWord a w ha, ?_⟩
  conv_lhs => rw [h.rest]
  rfl

theorem put (h : Managed as s t) (f : Field) (v : Nat) (ha : f.addr ∈ as) : Managed as s (t.put f v) := h.setWord _ _ ha

theorem flag (h : Managed as s t) (f : Field) (b : Bool) (ha : f.addr ∈ as) : Managed as s (t.flag f b) := h.put _ _ ha

theorem inc (h : Managed as s t) (f : Field) (ha : f.addr ∈ as) : Managed as s (t.inc f) := h.put _ _ ha

theorem setPat (h : Managed as s t) (P : PatSt) : Managed as s { t with pat := P } := by
  refine ⟨h.regs.of_regs rfl, ?_⟩
  conv_lhs => rw [h.rest]

theorem setIdn (h : Managed as s t) (x : IdnSt) : Managed as s { t with idn := x } := by
  refine ⟨h.regs.of_regs rfl, ?_⟩
  conv_lhs => rw [h.rest]

theorem setPwr (h : Managed as s t) (x : PwrSt) : Managed as s { t with pwr := x } := by
  refine ⟨h.regs.of_regs rfl, ?_⟩
  conv_lhs => rw [h.rest]

theorem addMirror (h : Managed as s t) (m : Mirror) : Managed as s (addMirror t m) := by
  unfold Machine.addMirror
  split
  · exact h
  · refine ⟨h.regs.of_regs rfl, ?_⟩
    conv_lhs => rw [h.rest]

theorem mono {bs : List Nat} (h : Managed as s t) (hsub : as ⊆ bs) : Managed bs s t := ⟨h.regs.mono hsub, h.rest⟩

/-- With the states named, the frame as the statements write it. -/
theorem eq_of (h : Managed as s t) {P : PatSt} {x : PwrSt} {l : List Mirror} (hpat : t.pat = P) (hpwr : t.pwr = x)
    (hmir : t.mirrors = l) : t = { s with regs := t.regs, idn := t.idn, pat := P, pwr := x, mirrors := l } := by
  conv_lhs => rw [h.rest, hpat, hpwr, hmir]

theorem eq_of_all (h : Managed as s t) {P : PatSt} {y : IdnSt} {x : PwrSt} {l : List Mirror} (hpat : t.pat = P)
    (hidn : t.idn = y) (hpwr : t.pwr = x) (hmir : t.mirrors = l) :
    t = { s with regs := t.regs, idn := y, pat := P, pwr := x, mirrors := l } := by
  conv_lhs => rw [h.rest, hpat, hidn, hpwr, hmir]

end Managed

/-! ### The signing engine's queue (R283) -/

section
variable (s : State) (r : SignReq) (want : Bool)

@[simp] theorem syncSign_pat : (syncSign s).pat = s.pat := put_pat ..
@[simp] theorem syncSign_pwr : (syncSign s).pwr = s.pwr := put_pwr ..
@[simp] theorem syncSign_mirrors : (syncSign s).mirrors = s.mirrors := put_mirrors ..

theorem syncVerify_cases : ∃ x : IdnSt, syncVerify want s = syncSign { s with idn := x } := by
  cases want
  · exact ⟨_, rfl⟩
  · exact ⟨_, rfl⟩

theorem get_syncSign {f : Field} (hf : f.addr ≠ R.IDN_STAT) : (syncSign s).get f = s.get f := get_put_ne _ _ _ _ hf

theorem Managed.syncVerify {as : List Nat} {s t : State} (h : Managed as s t) (want : Bool) (ha : R.IDN_STAT ∈ as) :
    Managed as s (syncVerify want t) := by
  obtain ⟨x, hx⟩ := syncVerify_cases t want
  rw [hx]
  exact (h.setIdn x).put _ _ ha

end

/-! ### The work in progress -/

section
variable (s : State) (w : PatWork)

/-- The manager works on `w`, the signing engine's queue apart. -/
def working (w : PatWork) (s : State) : State := { s.flag R.PAT_STAT_BUSY (w != .idle) with pat := { s.pat with work := w } }

@[simp] theorem working_idn : (working w s).idn = s.idn := by simp only [working, flag_idn]
@[simp] theorem working_pat : (working w s).pat = { s.pat with work := w } := rfl
@[simp] theorem working_pwr : (working w s).pwr = s.pwr := by simp only [working, flag_pwr]
@[simp] theorem working_mirrors : (working w s).mirrors = s.mirrors := by simp only [working, flag_mirrors]

theorem setWork_def : setWork w s = if (w.verifies || (working w s).idn.queue.any (·.isVerify)) = true then
    syncVerify w.verifies (working w s) else working w s := rfl

theorem setWork_cases : setWork w s = working w s ∨ ∃ x : IdnSt, setWork w s = syncSign { working w s with idn := x } := by
  rw [setWork_def]
  split
  · exact .inr (syncVerify_cases (working w s) w.verifies)
  · exact .inl rfl

theorem setWork_eq_working (hw : w.verifies = false) (hq : s.idn.queue.any (·.isVerify) = false) : setWork w s = working w s := by
  rw [setWork_def, working_idn, hw, hq, if_neg (by decide)]

@[simp] theorem setWork_pat : (setWork w s).pat = { s.pat with work := w } := by
  rcases setWork_cases s w with h | ⟨x, h⟩ <;> simp only [h, syncSign_pat, working_pat]

@[simp] theorem setWork_pwr : (setWork w s).pwr = s.pwr := by
  rcases setWork_cases s w with h | ⟨x, h⟩ <;> simp only [h, syncSign_pwr, working_pwr]

@[simp] theorem setWork_mirrors : (setWork w s).mirrors = s.mirrors := by
  rcases setWork_cases s w with h | ⟨x, h⟩ <;> simp only [h, syncSign_mirrors, working_mirrors]

theorem get_setWork {f : Field} (hlo : f.lo + f.wd ≤ 32) (hf : f.addr ≠ R.PAT_STAT_BUSY.addr ∨ f.lo + f.wd ≤ R.PAT_STAT_BUSY.lo)
    (hi : f.addr ≠ R.IDN_STAT) : (setWork w s).get f = s.get f := by
  have hwork : (working w s).get f = s.get f := by
    rw [working, get_with_pat, get_flag_other _ _ _ _ hlo (hf.imp_right Or.inl)]
  rcases setWork_cases s w with h | ⟨x, h⟩ <;> rw [h]
  · exact hwork
  · rw [get_syncSign _ hi, get_with_idn, hwork]

theorem on_setWork {f : Field} (hlo : f.lo + f.wd ≤ 32) (hf : f.addr ≠ R.PAT_STAT_BUSY.addr ∨ f.lo + f.wd ≤ R.PAT_STAT_BUSY.lo)
    (hi : f.addr ≠ R.IDN_STAT) : (setWork w s).on f = s.on f := congrArg (· == 1) (get_setWork s w hlo hf hi)

@[simp] theorem busy_setWork : (setWork w s).on R.PAT_STAT_BUSY = (w != .idle) := by
  have hwork : (working w s).on R.PAT_STAT_BUSY = (w != .idle) := by
    rw [working, on_with_pat, on_flag _ _ _ (by decide) rfl]
  rcases setWork_cases s w with h | ⟨x, h⟩ <;> rw [h]
  · exact hwork
  · rw [State.on, get_syncSign _ (by decide), get_with_idn]
    exact hwork

theorem Managed.working {as : List Nat} {s t : State} (h : Managed as s t) (w : PatWork) (ha : R.PAT_STAT ∈ as) :
    Managed as s (working w t) := (h.flag _ _ ha).setPat _

theorem Managed.setWork {as : List Nat} {s t : State} (h : Managed as s t) (w : PatWork) (ha : R.PAT_STAT ∈ as)
    (hi : R.IDN_STAT ∈ as) : Managed as s (setWork w t) := by
  rcases setWork_cases t w with hw | ⟨x, hw⟩ <;> rw [hw]
  · exact h.working w ha
  · exact ((h.working w ha).setIdn x).put _ _ hi

end

/-! ### Images and the end of a work -/

section
variable (s : State)

@[simp] theorem endRun_pat (p : Nat) : (endRun p s).pat = s.pat := rfl
@[simp] theorem endRun_idn (p : Nat) : (endRun p s).idn = s.idn := rfl
@[simp] theorem endRun_pwr (p : Nat) : (endRun p s).pwr = s.pwr := rfl
@[simp] theorem endRun_mirrors (p : Nat) : (endRun p s).mirrors = s.mirrors := rfl

/-- A slot of the image memories. -/
def slotPut (k : Nat) (m : ImageMem) (P : PatSt) : PatSt := if k = 0 then { P with slotA := m } else { P with slotB := m }

theorem putSlot_def (k : Nat) (m : ImageMem) : putSlot k m s = (({ s with pat := slotPut k m s.pat } : State).flag
    (R.PAT_SLOT_VALID k) m.valid).put (R.PAT_SLOT_LEN k) (if m.valid then m.bytes.length else 0) := by
  unfold putSlot slotPut
  split <;> rfl

@[simp] theorem putSlot_pat (k : Nat) (m : ImageMem) : (putSlot k m s).pat = slotPut k m s.pat := by
  rw [putSlot_def, put_pat, flag_pat]
@[simp] theorem putSlot_idn (k : Nat) (m : ImageMem) : (putSlot k m s).idn = s.idn := by rw [putSlot_def, put_idn, flag_idn]
@[simp] theorem putSlot_pwr (k : Nat) (m : ImageMem) : (putSlot k m s).pwr = s.pwr := by rw [putSlot_def, put_pwr, flag_pwr]
@[simp] theorem putSlot_mirrors (k : Nat) (m : ImageMem) : (putSlot k m s).mirrors = s.mirrors := by
  rw [putSlot_def, put_mirrors, flag_mirrors]

theorem get_putSlot {k : Nat} (m : ImageMem) {f : Field} (hf : f.addr ≠ R.PAT_SLOT k) : (putSlot k m s).get f = s.get f := by
  rw [putSlot_def, get_put_ne _ _ _ _ hf, State.flag, get_put_ne _ _ _ _ hf, get_with_pat]

theorem valid_putSlot (k : Nat) (m : ImageMem) : (putSlot k m s).on (R.PAT_SLOT_VALID k) = m.valid := by
  rw [putSlot_def, on_put_other _ _ _ _ (by simp [R.PAT_SLOT_VALID]) (by simp [R.PAT_SLOT_VALID, R.PAT_SLOT_LEN]),
    on_flag _ _ _ (by simp [R.PAT_SLOT_VALID]) rfl]

theorem len_putSlot (k : Nat) (m : ImageMem) : (putSlot k m s).get (R.PAT_SLOT_LEN k)
    = (if m.valid then m.bytes.length else 0) % 2 ^ (R.PAT_SLOT_LEN k).wd := by
  rw [putSlot_def, get_put _ _ _ (by simp [R.PAT_SLOT_LEN])]

theorem Managed.putSlot {as : List Nat} {s t : State} (h : Managed as s t) (k : Nat) (m : ImageMem) (ha : R.PAT_SLOT k ∈ as) :
    Managed as s (putSlot k m t) := by
  rw [putSlot_def]
  exact ((h.setPat _).flag _ _ ha).put _ _ ha

@[simp] theorem emptyStaging_pat : (emptyStaging s).pat = { s.pat with staging := ⟨false, []⟩ } := rfl
@[simp] theorem emptyStaging_idn : (emptyStaging s).idn = s.idn := by simp only [emptyStaging, flag_idn]
@[simp] theorem emptyStaging_pwr : (emptyStaging s).pwr = s.pwr := by simp only [emptyStaging, flag_pwr]
@[simp] theorem emptyStaging_mirrors : (emptyStaging s).mirrors = s.mirrors := by simp only [emptyStaging, flag_mirrors]

theorem get_emptyStaging {f : Field} (hlo : f.lo + f.wd ≤ 32)
    (hf : f.addr ≠ R.PAT_STAT_STAGED.addr ∨ f.lo + f.wd ≤ R.PAT_STAT_STAGED.lo
      ∨ R.PAT_STAT_STAGED.lo + R.PAT_STAT_STAGED.wd ≤ f.lo) : (emptyStaging s).get f = s.get f := by
  rw [emptyStaging, get_with_pat, get_flag_other _ _ _ _ hlo hf]

theorem staged_emptyStaging : (emptyStaging s).on R.PAT_STAT_STAGED = false := by
  rw [emptyStaging, on_with_pat, on_flag _ _ _ (by decide) rfl]

theorem Managed.emptyStaging {as : List Nat} {s t : State} (h : Managed as s t) (ha : R.PAT_STAT ∈ as) :
    Managed as s (emptyStaging t) := (h.flag R.PAT_STAT_STAGED false ha).setPat _

/-- The manager is idle and DONE: what `endWork` leaves where no start waits for it. -/
def workEnded (s : State) : State := patDone (setWork .idle s)

theorem endWork_def : endWork s = if s.pat.late then startAfterExpiry (workEnded s) else workEnded s := by
  have hlate : (workEnded s).pat.late = s.pat.late := by simp only [workEnded, patDone, flag_pat, setWork_pat]
  rw [← hlate]
  rfl

@[simp] theorem workEnded_pat : (workEnded s).pat = { s.pat with work := .idle } := by
  simp only [workEnded, patDone, flag_pat, setWork_pat]
@[simp] theorem workEnded_pwr : (workEnded s).pwr = s.pwr := by simp only [workEnded, patDone, flag_pwr, setWork_pwr]
@[simp] theorem workEnded_mirrors : (workEnded s).mirrors = s.mirrors := by
  simp only [workEnded, patDone, flag_mirrors, setWork_mirrors]

theorem Managed.workEnded {as : List Nat} {s t : State} (h : Managed as s t) (ha : R.PAT_STAT ∈ as) (hi : R.IDN_STAT ∈ as) :
    Managed as s (workEnded t) := (h.setWork _ ha hi).flag _ _ ha

@[simp] theorem busy_workEnded : (workEnded s).on R.PAT_STAT_BUSY = false := by
  rw [workEnded, patDone, on_flag_other _ _ _ _ (by decide) (by decide), busy_setWork]
  rfl

@[simp] theorem done_workEnded : (workEnded s).on R.PAT_STAT_DONE = true := on_flag _ _ _ (by decide) rfl

theorem get_workEnded {f : Field} (hlo : f.lo + f.wd ≤ 32)
    (hb : f.addr ≠ R.PAT_STAT_BUSY.addr ∨ f.lo + f.wd ≤ R.PAT_STAT_BUSY.lo)
    (hd : f.addr ≠ R.PAT_STAT_DONE.addr ∨ f.lo + f.wd ≤ R.PAT_STAT_DONE.lo ∨ R.PAT_STAT_DONE.lo + R.PAT_STAT_DONE.wd ≤ f.lo)
    (hi : f.addr ≠ R.IDN_STAT) : (workEnded s).get f = s.get f := by
  rw [workEnded, patDone, get_flag_other _ _ _ _ hlo hd, get_setWork _ _ hlo hb hi]

theorem on_workEnded {f : Field} (hlo : f.lo + f.wd ≤ 32)
    (hb : f.addr ≠ R.PAT_STAT_BUSY.addr ∨ f.lo + f.wd ≤ R.PAT_STAT_BUSY.lo)
    (hd : f.addr ≠ R.PAT_STAT_DONE.addr ∨ f.lo + f.wd ≤ R.PAT_STAT_DONE.lo ∨ R.PAT_STAT_DONE.lo + R.PAT_STAT_DONE.wd ≤ f.lo)
    (hi : f.addr ≠ R.IDN_STAT) : (workEnded s).on f = s.on f := congrArg (· == 1) (get_workEnded s hlo hb hd hi)

end

end Sys2Proof.Machine
end

section
/-!
PROOFS of what a word of a stream does, and the end of a commit.
-/
namespace Sys2Proof.Machine

theorem RegsOutside.of_endRun {as : List Nat} {p : Nat} {s t : State} (h : RegsOutside as (endRun p s) t) : RegsOutside as s t :=
  fun a ha => (h a ha).trans (endRun_word ..)

/-! ### A word of a stream (R56) -/

section
variable {s : State} {w : PortWrite} {len : Nat}

theorem exec_patStreamWrite_of_accepts (h : Accepts s w.port R.PAT_STREAM) :
    exec (.patStreamWrite w) s = .next (writePatStream w.port w.data (endRun w.port s)) :=
  congrArg Host.Outcome.next (guarded_accepts s w.port _ w.data _ h)

/-- Staging with the four bytes of the word behind what it held. -/
def streamed (d : Word) (s : State) : State :=
  { s with pat := { s.pat with staging := ⟨false, s.pat.staging.bytes ++ leBytes 4 d.toNat⟩ } }

theorem writePatStream_of_stream (p : Nat) (d : Word) (hwork : s.pat.work = .stream len) :
    writePatStream p d s = if len ≤ (s.pat.staging.bytes ++ leBytes 4 d.toNat).length then setWork (.verifyOnly .staging) (streamed d s)
      else streamed d s := by
  simp only [writePatStream, hwork, streamed]

theorem writePatStream_of_no_stream (p : Nat) (d : Word) (hwork : ∀ len, s.pat.work ≠ .stream len) :
    writePatStream p d s = discarded p R.PAT_STREAM s := by
  unfold writePatStream
  split
  · next len h => exact absurd h (hwork len)
  · rfl

end

/-! ### The end of a commit (R57) -/

section
variable {s : State} {src : Source}

theorem exec_patCommitDone_of_commit (hwork : s.pat.work = .commit src) :
    exec .patCommitDone s = .next (endWork (putSlot (sourceCode src) ⟨true, s.pat.staging.bytes⟩ s)) := by
  simp only [exec, execPatCommitDone, hwork]

/-- The slot takes the image, with its VALID mark, and the manager is idle. -/
def committed (k : Nat) (s : State) : State := workEnded (putSlot k ⟨true, s.pat.staging.bytes⟩ s)

theorem endWork_committed (k : Nat) (s : State) : endWork (putSlot k ⟨true, s.pat.staging.bytes⟩ s)
    = if s.pat.late then startAfterExpiry (committed k s) else committed k s := by
  have hlate : (slotPut k ⟨true, s.pat.staging.bytes⟩ s.pat).late = s.pat.late := by unfold slotPut; split <;> rfl
  rw [endWork_def, putSlot_pat, hlate]
  rfl

/-- What a commit leaves in the slot of number `k`, and what it touches. -/
theorem committed_spec {k : Nat} (hk : k < 2) (s : State) :
    RegsOutside [R.PAT_STAT, R.PAT_SLOT k, R.IDN_STAT] s (committed k s)
      ∧ committed k s = { s with
          regs := (committed k s).regs, idn := (committed k s).idn
          pat := { slotPut k ⟨true, s.pat.staging.bytes⟩ s.pat with work := .idle } }
      ∧ (committed k s).on (R.PAT_SLOT_VALID k) = true ∧ (committed k s).on R.PAT_STAT_BUSY = false
      ∧ (committed k s).on R.PAT_STAT_DONE = true
      ∧ (committed k s).get (R.PAT_SLOT_LEN k) = s.pat.staging.bytes.length % 2 ^ (R.PAT_SLOT_LEN k).wd := by
  have happart : R.PAT_SLOT k ≠ R.PAT_STAT ∧ R.PAT_SLOT k ≠ R.IDN_STAT := by
    simp only [R.PAT_SLOT, R.PAT_STAT, R.IDN_STAT]; omega
  have hframe : Managed [R.PAT_STAT, R.PAT_SLOT k, R.IDN_STAT] s (committed k s) :=
    ((Managed.refl _ s).putSlot k _ (by simp)).workEnded (by simp) (by simp)
  refine ⟨hframe.regs, hframe.eq_of ?_ ?_ ?_, ?_, busy_workEnded _, done_workEnded _, ?_⟩
  · rw [committed, workEnded_pat, putSlot_pat]
  · rw [committed, workEnded_pwr, putSlot_pwr]
  · rw [committed, workEnded_mirrors, putSlot_mirrors]
  · rw [committed, on_workEnded _ (by simp [R.PAT_SLOT_VALID]) (.inl happart.1) (.inl happart.1) happart.2, valid_putSlot]
  · rw [committed, get_workEnded _ (by simp [R.PAT_SLOT_LEN]) (.inl happart.1) (.inl happart.1) happart.2, len_putSlot]
    rfl

end

/-- Settles O16: a word of an open stream is `streamed`, and the end of a commit is `committed`. -/
theorem patternStreams : Obligations.PatternStreams := by
  refine ⟨fun w s h => ⟨fun len hwork => ⟨fun hlt => ?goesOn, fun hle => ?last⟩, fun hwork => ?discarded⟩,
    fun s => ⟨fun hwork => ?slotA, fun hwork => ?slotB⟩⟩
  case goesOn =>
    rw [exec_patStreamWrite_of_accepts h, writePatStream_of_stream (s := endRun w.port s) _ _ hwork]
    exact congrArg _ (if_neg (Nat.not_le_of_lt hlt))
  case last =>
    have hframe : Managed [R.PAT_STAT, R.IDN_STAT] (endRun w.port s) (setWork (.verifyOnly .staging) (streamed w.data (endRun w.port s))) :=
      ((Managed.refl ..).setPat _).setWork _ (by decide) (by decide)
    refine ⟨_, ?_, hframe.regs.of_endRun, busy_setWork .., hframe.eq_of (setWork_pat ..) (setWork_pwr ..) (setWork_mirrors ..)⟩
    rw [exec_patStreamWrite_of_accepts h, writePatStream_of_stream (s := endRun w.port s) _ _ hwork]
    exact congrArg _ (if_pos hle)
  case discarded =>
    refine ⟨_, ?_, (PortRegs.refl w.port _ s).discarded _ (by decide) (by decide), on_discarded .., get_discarded_addr _ _ (by decide)⟩
    rw [exec_patStreamWrite_of_accepts h, writePatStream_of_no_stream (s := endRun w.port s) _ _ hwork]
  case slotA =>
    obtain ⟨hregs, hrest, hvalid, hbusy, hdone, hlen⟩ := committed_spec (k := 0) (by decide) s
    refine ⟨_, ?_, hregs, hrest, hvalid, hbusy, hdone, hlen⟩
    rw [exec_patCommitDone_of_commit hwork]
    exact congrArg _ (endWork_committed 0 s)
  case slotB =>
    obtain ⟨hregs, hrest, hvalid, hbusy, hdone, hlen⟩ := committed_spec (k := 1) (by decide) s
    refine ⟨_, ?_, hregs, hrest, hvalid, hbusy, hdone, hlen⟩
    rw [exec_patCommitDone_of_commit hwork]
    exact congrArg _ (endWork_committed 1 s)

end Sys2Proof.Machine
end

section
/-!
PROOFS of what the mode controller's operations leave: unloading a Pattern, closing the metering and leaving a mode touch neither
the Pattern manager's state nor the registers that show a start and its end.
-/
namespace Sys2Proof.Machine

/-! ### What the managers show -/

/-- The registers that show a start and its end, the mode, the domains and the hem latch, and the one that says how a hold
takes queued writes (R267). -/
def managerRegs : List Nat :=
  [R.PAT_STAT, R.PWR_STAT, R.PWR_MODE, R.PWR_DOM, R.PWR_BOOT_CAUSE, R.SAF_STAT, R.SAF_LCAUSE, R.FLT_CFG]

/-- The states of the Pattern manager and of the mode controller, and the words of `managerRegs`. -/
def managers (s : State) : PatSt × PwrSt × List Word := (s.pat, s.pwr, managerRegs.map s.word)

/-- The seams', stitches', pleats' and meter channels' registers lie apart from `managerRegs`. -/
theorem notMem_managerRegs {a : Nat} (h : 0x10 ≤ a % 0x40 ∨ 0x50 ≤ a % 0x100) : a ∉ managerRegs := by
  intro hmem
  simp only [managerRegs, List.mem_cons, List.not_mem_nil, or_false, R.PAT_STAT, R.PWR_STAT, R.PWR_MODE, R.PWR_DOM,
    R.PWR_BOOT_CAUSE, R.SAF_STAT, R.SAF_LCAUSE, R.FLT_CFG] at hmem
  omega

section
variable {s t : State}

theorem managers_congr (hpat : t.pat = s.pat) (hpwr : t.pwr = s.pwr) (hregs : t.regs = s.regs) : managers t = managers s := by
  have hword : t.word = s.word := funext (word_congr hregs)
  simp only [managers, hpat, hpwr, hword]

theorem pat_of_managers (h : managers t = managers s) : t.pat = s.pat := congrArg (·.1) h

theorem pwr_of_managers (h : managers t = managers s) : t.pwr = s.pwr := congrArg (·.2.1) h

theorem word_of_managers (h : managers t = managers s) {a : Nat} (ha : a ∈ managerRegs) : t.word a = s.word a :=
  List.map_inj_left.1 (congrArg (·.2.2) h) a ha

theorem get_of_managers (h : managers t = managers s) {f : Field} (hf : f.addr ∈ managerRegs) : t.get f = s.get f :=
  congrArg (bitsOf · f.lo f.wd) (word_of_managers h hf)

theorem on_of_managers (h : managers t = managers s) {f : Field} (hf : f.addr ∈ managerRegs) : t.on f = s.on f :=
  congrArg (· == 1) (get_of_managers h hf)

theorem managers_setWord (s : State) {a : Nat} (w : Word) (ha : a ∉ managerRegs) : managers (s.setWord a w) = managers s := by
  have hwords : managerRegs.map (s.setWord a w).word = managerRegs.map s.word :=
    List.map_congr_left fun b hb => word_setWord_ne _ _ _ _ fun e => ha (e ▸ hb)
  simp only [managers, setWord_pat, setWord_pwr, hwords]

theorem managers_put (s : State) {f : Field} (v : Nat) (hf : f.addr ∉ managerRegs) : managers (s.put f v) = managers s :=
  managers_setWord s _ hf

theorem managers_flag (s : State) {f : Field} (b : Bool) (hf : f.addr ∉ managerRegs) : managers (s.flag f b) = managers s :=
  managers_setWord s _ hf

theorem managers_inc (s : State) {f : Field} (hf : f.addr ∉ managerRegs) : managers (s.inc f) = managers s :=
  managers_setWord s _ hf

theorem managers_sput (s : State) {f : Field} (i : Int) (hf : f.addr ∉ managerRegs) : managers (s.sput f i) = managers s :=
  managers_setWord s _ hf

end

/-! ### Enables and the Pattern in force (R25, R62) -/

section
variable (s : State)

theorem managers_setView (n st c : Nat) : managers (setView n st c s) = managers s := by
  have hsti : R.STI_STATE n ∉ managerRegs := notMem_managerRegs (by simp only [R.STI_STATE]; omega)
  rw [setView, managers_put _ _ hsti, managers_put _ _ hsti]

theorem managers_syncEnables : managers (syncEnables s) = managers s :=
  forL_keeps managers _ _ _ fun n _ =>
    keeps_ite managers rfl (managers_flag _ _ (notMem_managerRegs (by simp only [R.SEAM_STATE_EN_EFF, R.SEAM_STATE]; omega)))

theorem managers_afterEnableFall : managers (afterEnableFall s) = managers s :=
  (forL_keeps managers _ _ _ fun n b => keeps_ite managers rfl
    (leaveRun_keeps managers n b (fun _ _ => rfl) (fun _ _ => rfl) fun x st c => managers_setView x n st c)).trans
    (managers_syncEnables s)

theorem managers_dropEnable (n : Nat) : managers (dropEnable n s) = managers s := by
  have hctl : managers (s.flag (R.SEAM_CTL_EN n) false) = managers s :=
    managers_flag _ _ (notMem_managerRegs (by simp only [R.SEAM_CTL_EN, R.SEAM_CTL]; omega))
  exact (managers_afterEnableFall _).trans ((managers_congr rfl rfl rfl).trans hctl)

theorem managers_clearRoots : managers (clearRoots s) = managers s := forL_keeps managers _ _ _ fun n b => managers_dropEnable b n

/-- PAT_STAT without a Pattern in force, before PAT_DIGEST is cleared. -/
def unloadStat (s : State) : State :=
  (((s.flag R.PAT_STAT_LOADED false).flag R.PAT_STAT_CONFIRMED false).flag R.PAT_STAT_FALLBACK false).put R.PAT_STAT_SOURCE 3

theorem unload_def : unload s = (unloadStat (clearRoots s)).dropRegs (R.PAT_DIGEST 0) (R.PAT_DIGEST 8) := rfl

theorem word_unload {a : Nat} (ha : a < R.PAT_DIGEST 0 ∨ R.PAT_DIGEST 8 ≤ a) :
    (unload s).word a = (unloadStat (clearRoots s)).word a := by
  rw [unload_def, word_dropRegs, if_neg (by omega)]

@[simp] theorem unload_pat : (unload s).pat = s.pat := by
  rw [unload_def, dropRegs_pat, unloadStat, put_pat, flag_pat, flag_pat, flag_pat, pat_of_managers (managers_clearRoots s)]

@[simp] theorem unload_pwr : (unload s).pwr = s.pwr := by
  rw [unload_def, dropRegs_pwr, unloadStat, put_pwr, flag_pwr, flag_pwr, flag_pwr, pwr_of_managers (managers_clearRoots s)]

theorem word_unload_of_mem {a : Nat} (ha : a ∈ managerRegs) (hstat : a ≠ R.PAT_STAT) : (unload s).word a = s.word a := by
  have hapart : a < R.PAT_DIGEST 0 ∨ R.PAT_DIGEST 8 ≤ a := by
    revert a; decide
  rw [word_unload s hapart, unloadStat, word_put_ne _ _ _ _ hstat, word_flag_ne _ _ _ _ hstat, word_flag_ne _ _ _ _ hstat,
    word_flag_ne _ _ _ _ hstat, word_of_managers (managers_clearRoots s) ha]

theorem get_unload {f : Field} (hf : f.addr ∈ managerRegs) (hstat : f.addr ≠ R.PAT_STAT) : (unload s).get f = s.get f :=
  congrArg (bitsOf · f.lo f.wd) (word_unload_of_mem s hf hstat)

/-- The fields of PAT_STAT that an unload names, and those that it does not. -/
theorem get_unload_patStat {f : Field} (hf : f.addr = R.PAT_STAT) : (unload s).get f = (unloadStat (clearRoots s)).get f :=
  congrArg (bitsOf · f.lo f.wd) (word_unload s (.inl (by rw [hf]; decide)))

theorem loaded_unload : (unload s).on R.PAT_STAT_LOADED = false := by
  rw [State.on, get_unload_patStat s rfl, unloadStat]
  simp (disch := decide) only [get_put_other, get_flag_other, get_flag, bit_false]
  rfl

theorem confirmed_unload : (unload s).on R.PAT_STAT_CONFIRMED = false := by
  rw [State.on, get_unload_patStat s rfl, unloadStat]
  simp (disch := decide) only [get_put_other, get_flag_other, get_flag, bit_false]
  rfl

theorem source_unload : (unload s).get R.PAT_STAT_SOURCE = 3 := by
  rw [get_unload_patStat s rfl, unloadStat, get_put _ _ _ (by decide)]
  rfl

theorem busy_unload : (unload s).on R.PAT_STAT_BUSY = s.on R.PAT_STAT_BUSY := by
  rw [State.on, get_unload_patStat s rfl, unloadStat]
  simp (disch := decide) only [get_put_other, get_flag_other, get_of_managers (managers_clearRoots s)]
  rfl

end

/-! ### Modes (R237, R298, R302) -/

section
variable (s : State)

theorem managers_pleatsSee : managers (pleatsSee s) = managers s := by
  refine forL_keeps managers _ _ _ fun c b => ?_
  have hstat : R.PLT_STAT c ∉ managerRegs := notMem_managerRegs (by simp only [R.PLT_STAT]; omega)
  have hcnt : R.PLT_CNT c ∉ managerRegs := notMem_managerRegs (by simp only [R.PLT_CNT]; omega)
  have hset : ∀ x p, managers (setPltSt x c p) = managers x := fun _ _ => rfl
  unfold pleatSees
  refine keeps_ite managers rfl ?_
  split
  · rw [hset, managers_flag _ _ hstat]
  · rw [hset, managers_flag _ _ hstat, managers_inc _ hcnt, managers_flag _ _ hstat]
  · rw [hset, managers_flag _ _ hstat, managers_flag _ _ hstat]

theorem managers_syncContactors : managers (syncContactors s) = managers s :=
  (managers_congr rfl rfl rfl).trans (managers_put s (f := R.SAF_CTR_EN) (mapBits 4 0 (ctrWanted s)) (by decide))

/-- PWR_MODE and PCDONE as `setMode m` leaves them. -/
def modeShown (m : Nat) (s : State) : State :=
  let s1 := (s.put R.PWR_MODE_PREV (mode s)).put R.PWR_MODE_MODE m
  if m = mWATCH ∨ m = mDORMANT ∨ m = mBASTING ∨ m = mDISCHARGE then s1.flag R.PWR_STAT_PCDONE false else s1

theorem managers_setMode (m : Nat) : managers (setMode m s) = managers (modeShown m s) := by
  refine (managers_syncContactors _).trans (keeps_ite managers rfl ?_)
  exact (managers_pleatsSee _).trans (managers_flag _ _ (by decide))

@[simp] theorem modeShown_pat (m : Nat) : (modeShown m s).pat = s.pat := by
  unfold modeShown
  split <;> simp only [flag_pat, put_pat]

@[simp] theorem modeShown_pwr (m : Nat) : (modeShown m s).pwr = s.pwr := by
  unfold modeShown
  split <;> simp only [flag_pwr, put_pwr]

@[simp] theorem setMode_pat (m : Nat) : (setMode m s).pat = s.pat :=
  (pat_of_managers (managers_setMode s m)).trans (modeShown_pat s m)

@[simp] theorem setMode_pwr (m : Nat) : (setMode m s).pwr = s.pwr :=
  (pwr_of_managers (managers_setMode s m)).trans (modeShown_pwr s m)

theorem get_setMode (m : Nat) {f : Field} (hf : f.addr ∈ managerRegs) (hlo : f.lo + f.wd ≤ 32) (hmode : f.addr ≠ R.PWR_MODE)
    (hpc : f.addr ≠ R.PWR_STAT_PCDONE.addr ∨ f.lo + f.wd ≤ R.PWR_STAT_PCDONE.lo
      ∨ R.PWR_STAT_PCDONE.lo + R.PWR_STAT_PCDONE.wd ≤ f.lo) : (setMode m s).get f = s.get f := by
  rw [get_of_managers (managers_setMode s m) hf]
  have hshown : ((s.put R.PWR_MODE_PREV (mode s)).put R.PWR_MODE_MODE m).get f = s.get f := by
    rw [get_put_ne _ _ _ _ hmode, get_put_ne _ _ _ _ hmode]
  unfold modeShown
  split
  · rw [get_flag_other _ _ _ _ hlo hpc, hshown]
  · exact hshown

theorem mode_setMode {m : Nat} (hm : m < 16) : mode (setMode m s) = m := by
  have hput : ((s.put R.PWR_MODE_PREV (mode s)).put R.PWR_MODE_MODE m).get R.PWR_MODE_MODE = m := by
    rw [get_put _ _ _ (by decide)]
    exact Nat.mod_eq_of_lt hm
  rw [mode, get_of_managers (managers_setMode s m) (by decide)]
  unfold modeShown
  split
  · rw [get_flag_other _ _ _ _ (by decide) (by decide), hput]
  · exact hput

end

/-! ### The end of metering and a power-down (R289) -/

section
variable (s : State)

/-- The metering unit's own state is none of the managers'. -/
theorem managers_with_mtr (m : MtrSt) : managers { s with mtr := m } = managers s := rfl

theorem managers_addMirror (m : Mirror) : managers (addMirror s m) = managers s := keeps_ite managers rfl rfl

theorem managers_meetAsk : managers (meetAsk s) = managers s := keeps_ite managers (managers_with_mtr _ _) rfl

theorem managers_closeWindow (c : Nat) (stop : Bool) : managers (closeWindow c stop s) = managers s :=
  (managers_meetAsk _).trans (keeps_ite managers rfl rfl)

theorem managers_stopMetering : managers (stopMetering s) = managers s :=
  (forL_keeps managers _ _ _ fun c b => keeps_ite managers (managers_closeWindow b c true) rfl).trans rfl

theorem managers_addEnergy (c e : Nat) {q : Nat} (hq : q < 8) : managers (addEnergy c q e s) = managers s := by
  have hwrap : R.MTR_IWRAP c q ∉ managerRegs := notMem_managerRegs (by simp only [R.MTR_IWRAP]; omega)
  unfold addEnergy
  refine keeps_ite managers (managers_with_mtr _ _) ?_
  rw [managers_put _ _ hwrap, managers_flag _ _ hwrap, managers_with_mtr]

theorem managers_addWindow (c : Nat) (x : List Nat) (w : MtrWin) : managers (addWindow c x w s) = managers s := by
  have hvrms : R.MTR_VRMS c ∉ managerRegs := notMem_managerRegs (by simp only [R.MTR_VRMS]; omega)
  have hirms : R.MTR_IRMS c ∉ managerRegs := notMem_managerRegs (by simp only [R.MTR_IRMS]; omega)
  have hwlen : R.MTR_WLEN c ∉ managerRegs := notMem_managerRegs (by simp only [R.MTR_WLEN]; omega)
  have hpavg : R.MTR_PAVG c ∉ managerRegs := notMem_managerRegs (by simp only [R.MTR_PAVG]; omega)
  have hqavg : R.MTR_QAVG c ∉ managerRegs := notMem_managerRegs (by simp only [R.MTR_QAVG]; omega)
  have hstat : R.MTR_CHSTAT c ∉ managerRegs := notMem_managerRegs (by simp only [R.MTR_CHSTAT]; omega)
  have hcnt : R.MTR_CNT c ∉ managerRegs := notMem_managerRegs (by simp only [R.MTR_CNT]; omega)
  unfold addWindow
  refine keeps_ite managers rfl ?_
  extract_lets v i0 sg en np nq den avg s1 s2 eq quad s3 s4 s5
  have hquad : 2 + quad < 8 := by
    have : quad ≤ 3 := by unfold quad; split <;> split <;> omega
    omega
  have h1 : managers s1 = managers s := by
    rw [managers_put _ _ hwlen, managers_put _ _ hirms, managers_put _ _ hvrms]
  have h2 : managers s2 = managers s := by rw [managers_sput _ _ hqavg, managers_sput _ _ hpavg, h1]
  have h3 : managers s3 = managers s := by rw [managers_inc _ hcnt, managers_put _ _ hstat, managers_put _ _ hstat, h2]
  have h4 : managers s4 = managers s := by rw [managers_flag _ _ hstat, h3]
  have h5 : managers s5 = managers s :=
    keeps_ite managers ((managers_addEnergy _ _ _ (by omega)).trans h4) ((managers_addEnergy _ _ _ (by omega)).trans h4)
  refine keeps_ite managers ?_ ?_
  · rw [managers_inc _ hcnt, managers_flag _ _ hstat, h3]
  · rw [managers_addEnergy _ _ _ (by omega), managers_addEnergy _ _ _ hquad, h5]

theorem managers_takeWindow (c : Nat) (w : MtrShut) : managers (takeWindow c w s) = managers s :=
  (managers_with_mtr _ _).trans (managers_addWindow s c _ _)

theorem managers_snapshot (d : MtrDue) : managers (snapshot d s) = managers s := by
  unfold snapshot
  refine keeps_ite managers ((managers_with_mtr _ _).trans (managers_inc _ (by decide))) ?_
  rw [managers_addMirror, managers_addMirror, managers_with_mtr, managers_with_mtr]

theorem managers_takeDues : managers (takeDues s) = managers s :=
  (forL_keeps managers _ _ _ fun d b => managers_snapshot b d).trans (managers_with_mtr _ _)

theorem managers_closeMetering : managers (closeMetering s) = managers s := by
  unfold closeMetering
  refine keeps_ite managers ((managers_takeDues _).trans ?_) rfl
  refine (forL_keeps managers _ _ _ fun c b => ?_).trans
    (keeps_ite managers ((managers_meetAsk _).trans (managers_stopMetering s)) rfl)
  exact (forL_keeps managers _ _ _ fun w x => managers_takeWindow x c w).trans rfl

theorem managers_queueFrame (n ty reg data : Nat) : managers (queueFrame n ty reg data s) = managers s :=
  keeps_ite managers rfl rfl

/-- Closing the metering and sending SLEEP are nothing to the managers. -/
theorem managers_asleep : managers (forL (stitches s) (fun n a => if seenAwake a n then queueFrame n frSLEEP 0 0 a else a)
    (closeMetering s)) = managers s :=
  (forL_keeps managers _ _ _ fun n b => keeps_ite managers (managers_queueFrame b n _ _ _) rfl).trans (managers_closeMetering s)

@[simp] theorem beginPowerDown_pat (m : Nat) : (beginPowerDown m s).pat = s.pat := by
  simp only [beginPowerDown, syncBusy, flag_pat, pat_of_managers (managers_asleep s)]

@[simp] theorem beginPowerDown_pwr (m : Nat) :
    (beginPowerDown m s).pwr = { s.pwr with downTo := some m, groupOn := false, upTo := none } := by
  simp only [beginPowerDown, syncBusy, flag_pwr, pwr_of_managers (managers_asleep s)]

theorem word_with_pwr (x : PwrSt) (a : Nat) : ({ s with pwr := x } : State).word a = s.word a := rfl

theorem word_beginPowerDown (m : Nat) {a : Nat} (ha : a ∈ managerRegs) (hmode : a ≠ R.PWR_MODE) :
    (beginPowerDown m s).word a = s.word a := by
  simp only [beginPowerDown, syncBusy]
  rw [word_flag_ne _ _ _ _ hmode, word_with_pwr]
  exact word_of_managers (managers_asleep s) ha

theorem get_beginPowerDown (m : Nat) {f : Field} (hf : f.addr ∈ managerRegs) (hmode : f.addr ≠ R.PWR_MODE) :
    (beginPowerDown m s).get f = s.get f := congrArg (bitsOf · f.lo f.wd) (word_beginPowerDown s m hf hmode)

end

end Sys2Proof.Machine
end

section
/-!
PROOFS of what an accepted command of PAT_CTL does: the state it starts from, and the ends of a start and of a load.
-/
namespace Sys2Proof.Machine

/-! ### Ends of a start (R61, Table 3.9) -/

section
variable (s : State)

@[simp] theorem endStart_pat : (endStart s).pat = { s.pat with start := .none, openMark := false } := rfl
@[simp] theorem endStart_idn : (endStart s).idn = s.idn := by simp only [endStart, flag_idn]
@[simp] theorem endStart_pwr : (endStart s).pwr = s.pwr := by simp only [endStart, flag_pwr]
@[simp] theorem endStart_mirrors : (endStart s).mirrors = s.mirrors := by simp only [endStart, flag_mirrors]

theorem Managed.endStart {as : List Nat} {s t : State} (h : Managed as s t) (ha : R.PWR_STAT ∈ as) : Managed as s (endStart t) :=
  (h.flag R.PWR_STAT_STARTING false ha).setPat _

theorem get_endStart {f : Field} (hlo : f.lo + f.wd ≤ 32)
    (h : f.addr ≠ R.PWR_STAT_STARTING.addr ∨ f.lo + f.wd ≤ R.PWR_STAT_STARTING.lo
      ∨ R.PWR_STAT_STARTING.lo + R.PWR_STAT_STARTING.wd ≤ f.lo) : (endStart s).get f = s.get f := by
  rw [endStart, get_with_pat, get_flag_other _ _ _ _ hlo h]

@[simp] theorem starting_endStart : (endStart s).on R.PWR_STAT_STARTING = false := by
  rw [endStart, on_with_pat, on_flag _ _ _ (by decide) rfl]

/-- PWR_BOOT_CAUSE as a start that SUCCEEDED leaves it (R61, R62). -/
def succeededCause (s : State) : State :=
  let s1 := (endStart s).put R.PWR_BOOT_CAUSE_FAILS 0
  if s.pat.undone then s1 else s1.put R.PWR_BOOT_CAUSE_CODE (if s.on R.PWR_BOOT_CAUSE_FALLBACK then cFALLBACK else cNONE)

theorem startSucceeded_def : startSucceeded s = { (succeededCause s).flag R.PAT_STAT_CONFIRMED true with
    pat := { (succeededCause s).pat with undone := false } } := rfl

theorem Managed.succeededCause {as : List Nat} {s t : State} (h : Managed as s t) (hstat : R.PWR_STAT ∈ as)
    (hcause : R.PWR_BOOT_CAUSE ∈ as) : Managed as s (succeededCause t) := by
  unfold Machine.succeededCause
  split
  · exact (h.endStart hstat).put _ _ hcause
  · exact ((h.endStart hstat).put _ _ hcause).put _ _ hcause

theorem Managed.startSucceeded {as : List Nat} {s t : State} (h : Managed as s t) (hstat : R.PWR_STAT ∈ as)
    (hcause : R.PWR_BOOT_CAUSE ∈ as) (hpat : R.PAT_STAT ∈ as) : Managed as s (startSucceeded t) := by
  rw [startSucceeded_def]
  exact ((h.succeededCause hstat hcause).flag R.PAT_STAT_CONFIRMED true hpat).setPat _

@[simp] theorem succeededCause_pat : (succeededCause s).pat = (endStart s).pat := by
  unfold succeededCause; split <;> simp only [put_pat]
@[simp] theorem succeededCause_idn : (succeededCause s).idn = s.idn := by
  unfold succeededCause; split <;> simp only [put_idn, endStart_idn]
@[simp] theorem succeededCause_pwr : (succeededCause s).pwr = s.pwr := by
  unfold succeededCause; split <;> simp only [put_pwr, endStart_pwr]
@[simp] theorem succeededCause_mirrors : (succeededCause s).mirrors = s.mirrors := by
  unfold succeededCause; split <;> simp only [put_mirrors, endStart_mirrors]

@[simp] theorem startSucceeded_pat :
    (startSucceeded s).pat = { s.pat with undone := false, start := .none, openMark := false } := by
  simp only [startSucceeded_def, succeededCause_pat, endStart_pat]
@[simp] theorem startSucceeded_idn : (startSucceeded s).idn = s.idn := by
  simp only [startSucceeded_def, flag_idn, succeededCause_idn]
@[simp] theorem startSucceeded_pwr : (startSucceeded s).pwr = s.pwr := by
  simp only [startSucceeded_def, flag_pwr, succeededCause_pwr]
@[simp] theorem startSucceeded_mirrors : (startSucceeded s).mirrors = s.mirrors := by
  simp only [startSucceeded_def, flag_mirrors, succeededCause_mirrors]

/-- FAILS and CODE apart, PWR_BOOT_CAUSE is as it was. -/
theorem get_succeededCause {f : Field} (hlo : f.lo + f.wd ≤ 32)
    (hstat : f.addr ≠ R.PWR_STAT_STARTING.addr) (hcode : f.addr ≠ R.PWR_BOOT_CAUSE ∨ 26 ≤ f.lo) :
    (succeededCause s).get f = s.get f := by
  have hfails : ((endStart s).put R.PWR_BOOT_CAUSE_FAILS 0).get f = s.get f := by
    rw [get_put_other _ _ _ _ hlo (hcode.imp_right .inr), get_endStart _ hlo (.inl hstat)]
  unfold succeededCause
  split
  · exact hfails
  · rw [get_put_other _ _ _ _ hlo (hcode.imp_right fun h => .inr (le_trans (by decide) h)), hfails]

@[simp] theorem starting_succeededCause : (succeededCause s).on R.PWR_STAT_STARTING = false := by
  unfold succeededCause
  split <;> simp (disch := decide) only [on_put_other, starting_endStart]

@[simp] theorem fails_succeededCause : (succeededCause s).get R.PWR_BOOT_CAUSE_FAILS = 0 := by
  unfold succeededCause
  split <;> simp (disch := decide) only [get_put_other, get_put, Nat.zero_mod]

theorem code_succeededCause (h : s.pat.undone = false) :
    (succeededCause s).get R.PWR_BOOT_CAUSE_CODE = if s.on R.PWR_BOOT_CAUSE_FALLBACK then 1 else 0 := by
  unfold succeededCause
  rw [if_neg (by simp [h]), get_put _ _ _ (by decide)]
  split <;> rfl

theorem get_startSucceeded {f : Field} (hlo : f.lo + f.wd ≤ 32) (hconf : f.addr ≠ R.PAT_STAT_CONFIRMED.addr) :
    (startSucceeded s).get f = (succeededCause s).get f := by
  rw [startSucceeded_def, get_with_pat, get_flag_other _ _ _ _ hlo (.inl hconf)]

@[simp] theorem confirmed_startSucceeded : (startSucceeded s).on R.PAT_STAT_CONFIRMED = true := by
  rw [startSucceeded_def, on_with_pat, on_flag _ _ _ (by decide) rfl]

end

/-! ### The end of a host load (R61, R62, Table 15.8) -/

section
variable (s : State)

/-- PWR_BOOT_CAUSE as a load's confirmation leaves it before the load counts as a start. -/
def loadShown (s : State) : State :=
  ((s.flag R.PWR_BOOT_CAUSE_BASTING false).flag R.PWR_BOOT_CAUSE_FALLBACK (s.on R.PAT_STAT_FALLBACK)).put
    R.PWR_BOOT_CAUSE_SLOT (s.get R.PAT_STAT_SOURCE)

/-- What a load's confirmation leaves before the load counts as a start. -/
def loadCause (s : State) : State :=
  { loadShown s with pat := { (loadShown s).pat with loadWait := false, late := false, undone := false } }

/-- A confirmed load that leaves BASTING. -/
def leaveBasting (s : State) : State :=
  if mode s = mBASTING then
    if s.on R.SAF_STAT_LATCH then setMode mSAFEOFF (s.put R.PWR_MODE_BASE mREADY) else setMode mREADY s
  else s

theorem loadSucceeded_def : loadSucceeded s = leaveBasting (startSucceeded (loadCause s)) := rfl

@[simp] theorem leaveBasting_pat : (leaveBasting s).pat = s.pat := by
  unfold leaveBasting
  split
  · split <;> simp only [setMode_pat, put_pat]
  · rfl

theorem get_leaveBasting {f : Field} (hf : f.addr ∈ managerRegs) (hlo : f.lo + f.wd ≤ 32) (hmode : f.addr ≠ R.PWR_MODE)
    (hpc : f.addr ≠ R.PWR_STAT_PCDONE.addr) : (leaveBasting s).get f = s.get f := by
  unfold leaveBasting
  split
  · split
    · rw [get_setMode _ _ hf hlo hmode (.inl hpc), get_put_ne _ _ _ _ hmode]
    · rw [get_setMode _ _ hf hlo hmode (.inl hpc)]
  · rfl

theorem on_leaveBasting {f : Field} (hf : f.addr ∈ managerRegs) (hlo : f.lo + f.wd ≤ 32) (hmode : f.addr ≠ R.PWR_MODE)
    (hpc : f.addr ≠ R.PWR_STAT_PCDONE.addr) : (leaveBasting s).on f = s.on f :=
  congrArg (· == 1) (get_leaveBasting s hf hlo hmode hpc)

theorem mode_leaveBasting : mode (leaveBasting s)
    = if mode s = mBASTING then (if s.on R.SAF_STAT_LATCH then mSAFEOFF else mREADY) else mode s := by
  unfold leaveBasting
  split
  · split
    · exact mode_setMode _ (by decide)
    · exact mode_setMode _ (by decide)
  · rfl

@[simp] theorem loadShown_pat : (loadShown s).pat = s.pat := by simp only [loadShown, put_pat, flag_pat]

@[simp] theorem loadCause_pat : (loadCause s).pat = { s.pat with loadWait := false, late := false, undone := false } := by
  simp only [loadCause, loadShown_pat]

theorem get_loadCause {f : Field} : (loadCause s).get f = (loadShown s).get f := by rw [loadCause, get_with_pat]

theorem on_loadCause {f : Field} : (loadCause s).on f = (loadShown s).on f := by rw [loadCause, on_with_pat]

theorem get_loadCause_ne {f : Field} (hf : f.addr ≠ R.PWR_BOOT_CAUSE) : (loadCause s).get f = s.get f := by
  rw [get_loadCause, loadShown, get_put_ne _ _ _ _ hf, State.flag, get_put_ne _ _ _ _ hf, State.flag, get_put_ne _ _ _ _ hf]

theorem basting_loadCause : (loadCause s).on R.PWR_BOOT_CAUSE_BASTING = false := by
  rw [on_loadCause, loadShown, on_put_other _ _ _ _ (by decide) (by decide), on_flag_other _ _ _ _ (by decide) (by decide),
    on_flag _ _ _ (by decide) rfl]

theorem fallback_loadCause : (loadCause s).on R.PWR_BOOT_CAUSE_FALLBACK = s.on R.PAT_STAT_FALLBACK := by
  rw [on_loadCause, loadShown, on_put_other _ _ _ _ (by decide) (by decide), on_flag _ _ _ (by decide) rfl]

theorem slot_loadCause : (loadCause s).get R.PWR_BOOT_CAUSE_SLOT = s.get R.PAT_STAT_SOURCE % 2 ^ R.PWR_BOOT_CAUSE_SLOT.wd := by
  rw [get_loadCause, loadShown, get_put _ _ _ (by decide)]

end

end Sys2Proof.Machine
end

section
/-!
PROOFS of what each accepted command of PAT_CTL does.
-/
namespace Sys2Proof.Machine

/-! ### The state that a command starts from -/

/-- An accepted command: the port's read run ends and CMD_ERR is NONE. -/
def accepted (c : PortCmd) (s : State) : State := (endRun c.port s).put R.PAT_STAT_CMD_ERR 0

section
variable (c : PortCmd) (s : State)

@[simp] theorem accepted_pat : (accepted c s).pat = s.pat := by simp only [accepted, put_pat, endRun_pat]
@[simp] theorem accepted_idn : (accepted c s).idn = s.idn := by simp only [accepted, put_idn, endRun_idn]
@[simp] theorem accepted_pwr : (accepted c s).pwr = s.pwr := by simp only [accepted, put_pwr, endRun_pwr]
@[simp] theorem accepted_mirrors : (accepted c s).mirrors = s.mirrors := by simp only [accepted, put_mirrors, endRun_mirrors]

theorem Managed.accepted (as : List Nat) (ha : R.PAT_STAT ∈ as) : Managed as (endRun c.port s) (accepted c s) :=
  (Managed.refl ..).put _ _ ha

theorem get_accepted {f : Field} (hlo : f.lo + f.wd ≤ 32) (h : f.addr ≠ R.PAT_STAT ∨ 16 ≤ f.lo) :
    (accepted c s).get f = s.get f := by
  rw [accepted, get_put_other _ _ _ _ hlo (h.imp_right .inr), endRun_get]

theorem on_accepted {f : Field} (hlo : f.lo + f.wd ≤ 32) (h : f.addr ≠ R.PAT_STAT ∨ 16 ≤ f.lo) :
    (accepted c s).on f = s.on f := congrArg (· == 1) (get_accepted c s hlo h)

@[simp] theorem mode_accepted : mode (accepted c s) = mode s := get_accepted c s (by decide) (by decide)

@[simp] theorem groupOn_accepted : groupOn (accepted c s) = groupOn s :=
  congrArg (tb · 5) (get_accepted c s (f := R.PWR_DOM_ON) (by decide) (by decide))

@[simp] theorem cmdErr_accepted : (accepted c s).get R.PAT_STAT_CMD_ERR = 0 := get_put _ _ _ (by decide)

theorem step8_accepted (bs : List Byte) : step8 (accepted c s) bs = step8 s bs := by
  have hver := get_accepted c s (f := R.PAT_SEAL_MTR_VER) (by decide) (by decide)
  have hcrc := get_accepted c s (f := R.PAT_SEALCRC_CRC) (by decide) (by decide)
  have hseal := get_accepted c s (f := R.PAT_STAT_SEAL) (by decide) (by decide)
  have hrefuses : sealRefuses (accepted c s) bs = sealRefuses s bs := by
    simp only [sealRefuses, matchesSeal, mode_accepted, hver, hcrc, hseal]
  rw [step8, hrefuses, step8]

end

section
variable {s : State} {c : PortCmd}

theorem exec_of_accepted {code : Nat} {i : Instr} (h : Accepts s c.port R.PAT_CTL) (hguard : c.guard.toNat = 0x5A7E)
    (hcode : code < 16) (hi : exec i s = .next (patRow c code s)) (hj : patJudge true code s = none) :
    exec i s = .next (syncFabric (patCommand code (accepted c s))) :=
  hi.trans (congrArg Host.Outcome.next (patRow_of_judge_none h hcode hguard hj))

theorem supersede_of_ne_await (h : s.pat.start ≠ .await) : supersede s = s := if_neg h

/-! ### Work that begins -/

/-- A verification that begins is BUSY, and of the manager's state changes the work alone. -/
theorem verification_begins (w : PatWork) (hw : (w != .idle) = true) :
    (setWork w (accepted c s)).pat = { s.pat with work := w } ∧ (setWork w (accepted c s)).on R.PAT_STAT_BUSY = true
      ∧ (setWork w (accepted c s)).get R.PAT_STAT_CMD_ERR = 0 := by
  refine ⟨by rw [setWork_pat, accepted_pat], by rw [busy_setWork, hw], ?_⟩
  rw [get_setWork _ _ (by decide) (by decide) (by decide), cmdErr_accepted]

/-! ### The apply of a staged image (R307) -/

theorem patLoadStaged_eq (hstart : s.pat.start ≠ .await) (h8 : step8 s s.pat.staging.bytes = none) :
    patLoadStaged s = beginApply .staging s := by
  simp only [patLoadStaged, supersede_of_ne_await hstart, h8]

variable {src : Source}

theorem beginApply_of_powerDown (h : s.pwr.downTo ≠ none) : beginApply src s = setWork (.apply src) s := by
  unfold beginApply
  rw [if_pos]
  rw [setWork_pwr]
  exact Option.isSome_iff_ne_none.2 h

theorem groupOn_setWork (w : PatWork) : groupOn (setWork w s) = groupOn s :=
  congrArg (tb · 5) (get_setWork s w (f := R.PWR_DOM_ON) (by decide) (by decide) (by decide))

theorem beginApply_of_off (hdown : s.pwr.downTo = none) (hgroup : groupOn s = false) :
    beginApply src s = switchGroupOn (setWork (.apply src) s) := by
  unfold beginApply
  rw [if_neg (by simp [hdown]), if_neg (by simp [groupOn_setWork, hgroup])]

theorem beginApply_of_on (hdown : s.pwr.downTo = none) (hgroup : groupOn s = true) :
    beginApply src s = stepOne (imageOf s src).bytes
      { setWork (.apply src) s with pat := { (setWork (.apply src) s).pat with loadWait := false } } := by
  have himage : imageOf (setWork (.apply src) s) src = imageOf s src := by cases src <;> simp only [imageOf, setWork_pat]
  unfold beginApply
  rw [if_neg (by simp [hdown]), if_pos ((groupOn_setWork _).trans hgroup), himage]

end

section
variable (s : State)

@[simp] theorem switchGroupOn_pat : (switchGroupOn s).pat = s.pat := by simp only [switchGroupOn, syncBusy, flag_pat]
@[simp] theorem switchGroupOn_idn : (switchGroupOn s).idn = s.idn := by simp only [switchGroupOn, syncBusy, flag_idn]
@[simp] theorem switchGroupOn_mirrors : (switchGroupOn s).mirrors = s.mirrors := by
  simp only [switchGroupOn, syncBusy, flag_mirrors]
@[simp] theorem switchGroupOn_pwr : (switchGroupOn s).pwr = { s.pwr with groupOn := true } := by
  simp only [switchGroupOn, syncBusy, flag_pwr]

theorem Managed.switchGroupOn {as : List Nat} {s t : State} (h : Managed as s t) (ha : R.PWR_MODE ∈ as) :
    Managed as s (switchGroupOn t) := (h.setPwr _).flag _ _ ha

theorem busy_switchGroupOn : (switchGroupOn s).on R.PWR_MODE_BUSY = true := by
  rw [switchGroupOn, syncBusy, on_flag _ _ _ (by decide) rfl]
  simp

theorem on_with_pwr (x : PwrSt) (f : Field) : ({ s with pwr := x } : State).on f = s.on f := rfl

theorem on_switchGroupOn {f : Field} (hf : f.addr ≠ R.PWR_MODE) (hlo : f.lo + f.wd ≤ 32) : (switchGroupOn s).on f = s.on f := by
  rw [switchGroupOn, syncBusy, on_flag_other _ _ _ _ hlo (.inl hf), on_with_pwr]

theorem get_with_pwr (x : PwrSt) (f : Field) : ({ s with pwr := x } : State).get f = s.get f := rfl

end

/-- The frame of an accepted command, over the read run that it ends. -/
theorem Managed.regs_endRun {as : List Nat} {p : Nat} {s t : State} (h : Managed as (endRun p s) t) : RegsOutside as s t :=
  h.regs.of_endRun

/-! ### Commands, one by one -/

section
variable (c : PortCmd) (s : State)

/-- A COMMIT erases the VALID mark of its slot first (R57). -/
theorem patCommit_spec {k : Nat} (hk : k < 2) (hq : s.idn.queue.any (·.isVerify) = false) :
    let t := patCommit k (accepted c s)
    Managed [R.PAT_STAT, R.PAT_SLOT k] (endRun c.port s) t
      ∧ t.pat = { slotPut k ⟨false, []⟩ s.pat with work := .commit (slotNamed k) } ∧ t.idn = s.idn ∧ t.pwr = s.pwr
      ∧ t.mirrors = s.mirrors ∧ t.on R.PAT_STAT_BUSY = true ∧ t.on (R.PAT_SLOT_VALID k) = false ∧ t.get (R.PAT_SLOT_LEN k) = 0 := by
  intro t
  have ht : t = working (.commit (slotNamed k)) (putSlot k ⟨false, []⟩ (accepted c s)) :=
    setWork_eq_working _ _ rfl (by rw [putSlot_idn, accepted_idn, hq])
  have happart : R.PAT_SLOT k ≠ R.PAT_STAT := by simp only [R.PAT_SLOT, R.PAT_STAT]; omega
  have hidn : R.PAT_SLOT k ≠ R.IDN_STAT := by simp only [R.PAT_SLOT, R.IDN_STAT]; omega
  refine ⟨?_, ?_, ?_, ?_, ?_, busy_setWork .., ?_, ?_⟩
  · rw [ht]
    exact ((Managed.accepted c s _ (by simp)).putSlot k _ (by simp)).working _ (by simp)
  · rw [ht, working_pat, putSlot_pat, accepted_pat]
  · rw [ht, working_idn, putSlot_idn, accepted_idn]
  · rw [ht, working_pwr, putSlot_pwr, accepted_pwr]
  · rw [ht, working_mirrors, putSlot_mirrors, accepted_mirrors]
  · exact (on_setWork _ _ (by simp [R.PAT_SLOT_VALID]) (.inl happart) hidn).trans (valid_putSlot _ _ _)
  · refine (get_setWork _ _ (by simp [R.PAT_SLOT_LEN]) (.inl happart) hidn).trans ((len_putSlot _ _ _).trans ?_)
    simp only [Bool.false_eq_true, if_false, Nat.zero_mod]

/-- SELECT makes its slot the active one. -/
theorem patSelect_spec {k : Nat} (hk : k < 2) :
    let t := patSelect k (accepted c s)
    PortRegs c.port [R.PAT_STAT] s t ∧ t.get R.PAT_STAT_ACTIVE = k ∧ t.on R.PAT_STAT_DONE = true ∧ t.get R.PAT_STAT_CMD_ERR = 0 := by
  refine ⟨(((PortRegs.refl ..).put _ _ (by decide)).put _ _ (by decide)).flag _ _ (by decide), ?_, on_flag _ _ _ (by decide) rfl, ?_⟩
  · rw [patSelect, patDone, get_flag_other _ _ _ _ (by decide) (by decide), get_put _ _ _ (by decide)]
    exact Nat.mod_eq_of_lt hk
  · rw [patSelect, patDone, get_flag_other _ _ _ _ (by decide) (by decide), get_put_other _ _ _ _ (by decide) (by decide),
      cmdErr_accepted]

/-- PAT_STAT.DONE of a command that completes. -/
theorem done_patDone (s : State) : (patDone s).on R.PAT_STAT_DONE = true := on_flag _ _ _ (by decide) rfl

theorem get_patDone (s : State) {f : Field} (hlo : f.lo + f.wd ≤ 32)
    (h : f.addr ≠ R.PAT_STAT_DONE.addr ∨ f.lo + f.wd ≤ R.PAT_STAT_DONE.lo ∨ R.PAT_STAT_DONE.lo + R.PAT_STAT_DONE.wd ≤ f.lo) :
    (patDone s).get f = s.get f := get_flag_other _ _ _ _ hlo h

theorem on_patDone (s : State) {f : Field} (hlo : f.lo + f.wd ≤ 32)
    (h : f.addr ≠ R.PAT_STAT_DONE.addr ∨ f.lo + f.wd ≤ R.PAT_STAT_DONE.lo ∨ R.PAT_STAT_DONE.lo + R.PAT_STAT_DONE.wd ≤ f.lo) :
    (patDone s).on f = s.on f := on_flag_other _ _ _ _ hlo h

theorem Managed.patDone {as : List Nat} {s t : State} (h : Managed as s t) (ha : R.PAT_STAT ∈ as) : Managed as s (patDone t) :=
  h.flag _ _ ha

theorem patConfirm_of_load (h : s.pat.loadWait = true) : patConfirm s = patDone (loadSucceeded s) := by
  rw [patConfirm, if_pos h]

theorem patConfirm_of_await (hload : s.pat.loadWait = false) (h : s.pat.start = .await) :
    patConfirm s = patDone (startSucceeded s) := by rw [patConfirm, if_neg (by simp [hload]), if_pos h]

theorem patConfirm_of_nothing (hload : s.pat.loadWait = false) (h : s.pat.start ≠ .await) : patConfirm s = patDone s := by
  rw [patConfirm, if_neg (by simp [hload]), if_neg h]

/-- A load confirmed counts as a start that SUCCEEDED, and leaves BASTING (R61, Table 15.8). -/
theorem loadSucceeded_spec :
    let t := patDone (loadSucceeded s)
    t.on R.PAT_STAT_CONFIRMED = true ∧ t.on R.PAT_STAT_DONE = true ∧ t.get R.PWR_BOOT_CAUSE_FAILS = 0
      ∧ t.on R.PWR_BOOT_CAUSE_BASTING = false ∧ t.get R.PWR_BOOT_CAUSE_CODE = (if s.on R.PAT_STAT_FALLBACK then 1 else 0)
      ∧ t.get R.PWR_BOOT_CAUSE_SLOT = s.get R.PAT_STAT_SOURCE % 2 ^ R.PWR_BOOT_CAUSE_SLOT.wd
      ∧ t.pat = { s.pat with loadWait := false, late := false, undone := false, start := .none, openMark := false }
      ∧ mode t = (if mode s = mBASTING then (if s.on R.SAF_STAT_LATCH then mSAFEOFF else mREADY) else mode s) := by
  intro t
  have hundone : (loadCause s).pat.undone = false := by rw [loadCause_pat]
  have hget : ∀ {f : Field}, f.addr = R.PWR_BOOT_CAUSE → f.lo + f.wd ≤ 32 →
      t.get f = (succeededCause (loadCause s)).get f := fun {f} hf hlo => by
    have hmem : f.addr ∈ managerRegs := by rw [hf]; decide
    exact (get_patDone _ hlo (.inl (by rw [hf]; decide))).trans
      ((get_leaveBasting _ hmem hlo (by rw [hf]; decide) (by rw [hf]; decide)).trans
        (get_startSucceeded _ hlo (by rw [hf]; decide)))
  have hmode : mode (startSucceeded (loadCause s)) = mode s := by
    rw [mode, get_startSucceeded _ (by decide) (by decide), get_succeededCause _ (by decide) (by decide) (by decide),
      get_loadCause_ne _ (by decide), mode]
  have hlatch : (startSucceeded (loadCause s)).on R.SAF_STAT_LATCH = s.on R.SAF_STAT_LATCH := by
    rw [State.on, get_startSucceeded _ (by decide) (by decide), get_succeededCause _ (by decide) (by decide) (by decide),
      get_loadCause_ne _ (by decide), State.on]
  refine ⟨?_, done_patDone _, ?_, ?_, ?_, ?_, ?_, ?_⟩
  · exact (on_patDone _ (by decide) (by decide)).trans
      ((on_leaveBasting _ (by decide) (by decide) (by decide) (by decide)).trans (confirmed_startSucceeded _))
  · rw [hget rfl (by decide), fails_succeededCause]
  · rw [State.on, hget rfl (by decide), get_succeededCause _ (by decide) (by decide) (by decide)]
    exact basting_loadCause s
  · rw [hget rfl (by decide), code_succeededCause _ hundone, fallback_loadCause]
  · rw [hget rfl (by decide), get_succeededCause _ (by decide) (by decide) (by decide), slot_loadCause]
  · simp only [t, patDone, flag_pat, loadSucceeded_def, leaveBasting_pat, startSucceeded_pat, loadCause_pat]
  · rw [← hmode, ← hlatch]
    exact (get_patDone _ (by decide) (by decide)).trans (mode_leaveBasting _)

/-- CONFIRM of a start that awaits it (R61). -/
theorem startSucceeded_spec :
    let t := patDone (startSucceeded (accepted c s))
    RegsOutside [R.PAT_STAT, R.PWR_STAT, R.PWR_BOOT_CAUSE] s t
      ∧ t.on R.PAT_STAT_CONFIRMED = true ∧ t.on R.PAT_STAT_DONE = true ∧ t.on R.PWR_STAT_STARTING = false
      ∧ t.get R.PWR_BOOT_CAUSE_FAILS = 0
      ∧ t = { endRun c.port s with
          regs := t.regs, pat := { s.pat with undone := false, start := .none, openMark := false } }
      ∧ (s.pat.undone = false → t.get R.PWR_BOOT_CAUSE_CODE = (if s.on R.PWR_BOOT_CAUSE_FALLBACK then 1 else 0)) := by
  intro t
  have hframe : Managed [R.PAT_STAT, R.PWR_STAT, R.PWR_BOOT_CAUSE] (endRun c.port s) t :=
    ((Managed.accepted c s _ (by decide)).startSucceeded (by decide) (by decide) (by decide)).patDone (by decide)
  have hget : ∀ {f : Field}, f.addr ≠ R.PAT_STAT → f.lo + f.wd ≤ 32 → t.get f = (succeededCause (accepted c s)).get f :=
    fun {f} hf hlo => (get_patDone _ hlo (.inl hf)).trans (get_startSucceeded _ hlo hf)
  refine ⟨hframe.regs_endRun, ?_, done_patDone _, ?_, ?_, hframe.eq_of_all ?_ ?_ ?_ ?_, fun hundone => ?_⟩
  · exact (on_patDone _ (by decide) (by decide)).trans (confirmed_startSucceeded _)
  · rw [State.on, hget (by decide) (by decide)]
    exact starting_succeededCause _
  · rw [hget (by decide) (by decide), fails_succeededCause]
  · simp only [t, patDone, flag_pat, startSucceeded_pat, accepted_pat]
  · simp only [t, patDone, flag_idn, startSucceeded_idn, accepted_idn, endRun_idn]
  · simp only [t, patDone, flag_pwr, startSucceeded_pwr, accepted_pwr, endRun_pwr]
  · simp only [t, patDone, flag_mirrors, startSucceeded_mirrors, accepted_mirrors, endRun_mirrors]
  · rw [hget (by decide) (by decide), code_succeededCause _ (by rw [accepted_pat, hundone]),
      on_accepted _ _ (by decide) (by decide)]

/-- The seal of the metrology section (R58, Table 3.7). -/
def metered (v crc : Nat) (s : State) : State :=
  (((s.put R.PAT_SEAL_MTR_VER v).put R.PAT_SEALCRC_CRC crc).put R.PAT_STAT_SEAL 2).inc R.PAT_SEALCNT_CNT

theorem patSeal_of_section {v crc : Nat} (h : s.pat.mtr = some (v, crc)) :
    patSeal s = patDone (addMirror (metered v crc s) .seal) := by
  simp only [patSeal, h, metered]

theorem mem_addMirror (m : Mirror) : m ∈ (addMirror s m).mirrors := by
  unfold addMirror
  split
  · next h => simpa using h
  · simp

theorem get_addMirror (m : Mirror) (f : Field) : (addMirror s m).get f = s.get f :=
  congrArg (bitsOf · f.lo f.wd) (word_congr (addMirror_regs s m) f.addr)

/-- SEAL_MTR stores VER and CRC of the section, seals, and counts. -/
theorem patSeal_spec (v crc : Nat) :
    let t := patDone (addMirror (metered v crc (accepted c s)) .seal)
    RegsOutside [R.PAT_STAT, R.PAT_SEAL, R.PAT_SEALCRC, R.PAT_SEALCNT] s t
      ∧ t.get R.PAT_STAT_SEAL = 2 ∧ t.get R.PAT_SEAL_MTR_VER = v % 2 ^ R.PAT_SEAL_MTR_VER.wd
      ∧ t.get R.PAT_SEALCRC_CRC = crc % 2 ^ 32 ∧ t.on R.PAT_STAT_DONE = true
      ∧ t.get R.PAT_SEALCNT_CNT = (s.get R.PAT_SEALCNT_CNT + 1) % 2 ^ R.PAT_SEALCNT_CNT.wd
      ∧ t = { endRun c.port s with regs := t.regs, mirrors := t.mirrors } ∧ Mirror.seal ∈ t.mirrors := by
  intro t
  have hframe : Managed [R.PAT_STAT, R.PAT_SEAL, R.PAT_SEALCRC, R.PAT_SEALCNT] (endRun c.port s) t :=
    (((((Managed.accepted c s _ (by decide)).put _ _ (by decide)).put _ _ (by decide)).put _ _ (by decide)).inc _
      (by decide)).addMirror .seal |>.patDone (by decide)
  have hget : ∀ {f : Field}, f.lo + f.wd ≤ 32 →
      (f.addr ≠ R.PAT_STAT_DONE.addr ∨ f.lo + f.wd ≤ R.PAT_STAT_DONE.lo ∨ R.PAT_STAT_DONE.lo + R.PAT_STAT_DONE.wd ≤ f.lo) →
      t.get f = (metered v crc (accepted c s)).get f :=
    fun {f} hlo h => (get_patDone _ hlo h).trans (get_addMirror _ _ _)
  refine ⟨hframe.regs_endRun, ?_, ?_, ?_, done_patDone _, ?_, hframe.eq_of_all ?_ ?_ ?_ rfl, ?_⟩
  · rw [hget (by decide) (by decide), metered, State.inc, get_put_other _ _ _ _ (by decide) (by decide), get_put _ _ _ (by decide)]
    rfl
  · rw [hget (by decide) (by decide), metered, State.inc]
    simp (disch := decide) only [get_put_other, get_put]
  · rw [hget (by decide) (by decide), metered, State.inc]
    simp (disch := decide) only [get_put_other, get_put]
    rfl
  · rw [hget (by decide) (by decide), metered, State.inc]
    simp (disch := decide) only [get_put_other, get_put, get_accepted]
  · simp only [t, patDone, flag_pat, addMirror_pat, metered, inc_pat, put_pat, accepted_pat, endRun_pat]
  · simp only [t, patDone, flag_idn, addMirror_idn, metered, inc_idn, put_idn, accepted_idn, endRun_idn]
  · simp only [t, patDone, flag_pwr, addMirror_pwr, metered, inc_pwr, put_pwr, accepted_pwr, endRun_pwr]
  · simp only [t, patDone, flag_mirrors]
    exact mem_addMirror _ _

/-- ABORT empties staging and leaves the manager idle (R55). -/
theorem patAbort_eq (hlate : s.pat.late = false) : patAbort s = workEnded (emptyStaging s) := by
  rw [patAbort, endWork_def, emptyStaging_pat]
  exact if_neg (by simp [hlate])

end

end Sys2Proof.Machine
end

section
/-!
PROOFS of the accepted commands of PAT_CTL, put together.
-/
namespace Sys2Proof.Machine

section
variable {s : State} {c : PortCmd}

/-- STREAM_BEGIN empties staging and opens a stream (R56). -/
theorem streamBegin_spec (hq : s.idn.queue.any (·.isVerify) = false) :
    let t := patStreamBegin (accepted c s)
    RegsOutside [R.PAT_STAT] s t
      ∧ t = { endRun c.port s with
          regs := t.regs, pat := { s.pat with staging := ⟨false, []⟩, work := .stream (s.get R.PAT_LEN_LENGTH) } }
      ∧ t.on R.PAT_STAT_BUSY = true ∧ t.on R.PAT_STAT_STAGED = false ∧ t.get R.PAT_STAT_CMD_ERR = 0 := by
  intro t
  have hlen : (accepted c s).get R.PAT_LEN_LENGTH = s.get R.PAT_LEN_LENGTH := get_accepted c s (by decide) (by decide)
  have ht : t = working (.stream (s.get R.PAT_LEN_LENGTH)) (emptyStaging (accepted c s)) := by
    rw [← hlen]
    exact setWork_eq_working _ _ rfl (by rw [emptyStaging_idn, accepted_idn, hq])
  have hframe : Managed [R.PAT_STAT] (endRun c.port s) t := by
    rw [ht]
    exact ((Managed.accepted c s _ (by decide)).emptyStaging (by decide)).working _ (by decide)
  have hget : ∀ {f : Field}, f.addr ≠ R.IDN_STAT → f.lo + f.wd ≤ 31 → t.get f = (emptyStaging (accepted c s)).get f :=
    fun {f} hi hlo => get_setWork _ _ (hlo.trans (by decide)) (.inr hlo) hi
  refine ⟨hframe.regs_endRun, hframe.eq_of_all ?_ ?_ ?_ ?_, busy_setWork .., ?_, ?_⟩
  · rw [ht, working_pat, emptyStaging_pat, accepted_pat]
  · rw [ht, working_idn, emptyStaging_idn, accepted_idn, endRun_idn]
  · rw [ht, working_pwr, emptyStaging_pwr, accepted_pwr, endRun_pwr]
  · rw [ht, working_mirrors, emptyStaging_mirrors, accepted_mirrors, endRun_mirrors]
  · rw [State.on, hget (by decide) (by decide)]
    exact staged_emptyStaging _
  · rw [hget (by decide) (by decide), get_emptyStaging _ (by decide) (by decide), cmdErr_accepted]

variable (hq : s.idn.queue.any (·.isVerify) = false)

include hq in
/-- The apply of a staged image that the seal admits is the manager's work, and nothing else of it has begun. -/
theorem apply_begins {w : PatWork} (hw : w.verifies = false) (hbusy : (w != .idle) = true) :
    let t := setWork w (accepted c s)
    Managed [R.PAT_STAT] (endRun c.port s) t ∧ t.pat = { s.pat with work := w } ∧ t.idn = s.idn ∧ t.pwr = s.pwr
      ∧ t.mirrors = s.mirrors ∧ t.on R.PAT_STAT_BUSY = true ∧ t.get R.PAT_STAT_CMD_ERR = 0 := by
  intro t
  have ht : t = working w (accepted c s) := setWork_eq_working _ _ hw (by rw [accepted_idn, hq])
  obtain ⟨hpat, hb, herr⟩ := verification_begins (s := s) (c := c) w hbusy
  refine ⟨?_, hpat, ?_, ?_, ?_, hb, herr⟩
  · rw [ht]
    exact (Managed.accepted c s _ (by decide)).working _ (by decide)
  · rw [ht, working_idn, accepted_idn]
  · rw [ht, working_pwr, accepted_pwr]
  · rw [ht, working_mirrors, accepted_mirrors]

theorem patLoadStaged_accepted (hstart : s.pat.start ≠ .await) (h8 : step8 s s.pat.staging.bytes = none) :
    patLoadStaged (accepted c s) = beginApply .staging (accepted c s) :=
  patLoadStaged_eq (by rwa [accepted_pat]) (by rwa [accepted_pat, step8_accepted])

include hq in
/-- LOAD_STAGED behind a power-down waits for its end; with the group off it asks for the group; with the group on it goes
on with step 1 of the apply (R307). -/
theorem loadStaged_spec {i : Instr} (hi : exec i s = .next (syncFabric (patCommand 4 (accepted c s))))
    (hstart : s.pat.start ≠ .await) (h8 : step8 s s.pat.staging.bytes = none) :
    (s.pwr.downTo ≠ none →
      ∃ t, exec i s = .next (syncFabric t) ∧ t.pat = { s.pat with work := .apply .staging }
        ∧ t.pwr = s.pwr ∧ t.on R.PAT_STAT_BUSY = true ∧ RegsOutside [R.PAT_STAT] s t)
    ∧ (groupOn s = false → s.pwr.downTo = none →
      ∃ t, exec i s = .next (syncFabric t) ∧ RegsOutside [R.PAT_STAT, R.PWR_MODE] s t
        ∧ t = { endRun c.port s with
            regs := t.regs, pat := { s.pat with work := .apply .staging }, pwr := { s.pwr with groupOn := true } }
        ∧ t.on R.PAT_STAT_BUSY = true ∧ t.on R.PWR_MODE_BUSY = true)
    ∧ (groupOn s = true → s.pwr.downTo = none →
      ∃ u, exec i s = .next (syncFabric (stepOne s.pat.staging.bytes u)) ∧ RegsOutside [R.PAT_STAT] s u
        ∧ u = { endRun c.port s with
            regs := u.regs, pat := { s.pat with work := .apply .staging, loadWait := false } }
        ∧ u.on R.PAT_STAT_BUSY = true ∧ u.get R.PAT_STAT_CMD_ERR = 0) := by
  have hexec : exec i s = .next (syncFabric (beginApply .staging (accepted c s))) := by
    rw [hi, ← patLoadStaged_accepted hstart h8]
    rfl
  obtain ⟨hframe, hpat, hidn, hpwr, hmir, hbusy, herr⟩ := apply_begins (c := c) hq (w := .apply .staging) rfl rfl
  refine ⟨fun hdown => ?_, fun hgroup hdown => ?_, fun hgroup hdown => ?_⟩
  · rw [beginApply_of_powerDown (by rwa [accepted_pwr])] at hexec
    exact ⟨_, hexec, hpat, hpwr, hbusy, hframe.regs_endRun⟩
  · rw [beginApply_of_off (by rwa [accepted_pwr]) (by rwa [groupOn_accepted])] at hexec
    have hasked : Managed [R.PAT_STAT, R.PWR_MODE] (endRun c.port s) (switchGroupOn (setWork (.apply .staging) (accepted c s))) :=
      (hframe.mono (by simp)).switchGroupOn (by decide)
    refine ⟨_, hexec, hasked.regs_endRun, hasked.eq_of_all ?_ ?_ ?_ ?_, ?_, busy_switchGroupOn _⟩
    · rw [switchGroupOn_pat, hpat]
    · rw [switchGroupOn_idn, hidn, endRun_idn]
    · rw [switchGroupOn_pwr, hpwr]
    · rw [switchGroupOn_mirrors, hmir, endRun_mirrors]
    · rw [on_switchGroupOn _ (by decide) (by decide), hbusy]
  · rw [beginApply_of_on (by rwa [accepted_pwr]) (by rwa [groupOn_accepted]), imageOf, accepted_pat] at hexec
    have hunasked := hframe.setPat { (setWork (.apply .staging) (accepted c s)).pat with loadWait := false }
    refine ⟨_, hexec, hunasked.regs_endRun, hunasked.eq_of_all (by simp only [hpat]) hidn hpwr hmir, ?_, ?_⟩
    · rw [on_with_pat, hbusy]
    · rw [get_with_pat, herr]

end

/-- Settles O15: each accepted command acts on `accepted c s`, by its own law. -/
theorem patternCommands : Obligations.PatternCommands := by
  intro s c h hguard
  refine ⟨fun hidle hq => ⟨fun h4 hmin hmax => ?stream, ?verifyA, ?verifyB, fun hmode hstart => ?loads, fun hmode hstaged => ?commits,
    ?selectA, ?selectB, fun hload => ?confirmLoad, fun hload hawait => ?confirmStart, fun hload hnone => ?confirmNothing,
    fun v crc hsect hfit hm hcal => ?sealed⟩, fun habort hlate => ?abort⟩
  case stream =>
    obtain ⟨hregs, hrest, hbusy, hstaged, herr⟩ := streamBegin_spec (c := c) hq
    exact ⟨_, exec_of_accepted (code := 1) h hguard (by decide) rfl (by simp [patJudge, hidle, h4, hmin, hmax]), hregs, hrest,
      hbusy, hstaged, herr⟩
  case verifyA =>
    exact ⟨_, exec_of_accepted (code := 2) h hguard (by decide) rfl (by simp [patJudge, hidle]), verification_begins _ rfl⟩
  case verifyB =>
    exact ⟨_, exec_of_accepted (code := 3) h hguard (by decide) rfl (by simp [patJudge, hidle]), verification_begins _ rfl⟩
  case loads =>
    have hsup : supersede (accepted c s) = accepted c s := supersede_of_ne_await (by rwa [accepted_pat])
    have hloads : (mode s == mREADY || mode s == mFITTING || mode s == mBASTING) = true := by
      simpa [or_assoc] using hmode
    refine ⟨⟨setWork (.verifyLoad .slotA) (accepted c s), ?_, verification_begins _ rfl⟩,
      ⟨setWork (.verifyLoad .slotB) (accepted c s), ?_, verification_begins _ rfl⟩, fun hstaged h8 => ?_⟩
    · rw [exec_of_accepted (code := 5) h hguard (by decide) rfl (by simp [patJudge, hidle, hloads]), patCommand, hsup]
    · rw [exec_of_accepted (code := 6) h hguard (by decide) rfl (by simp [patJudge, hidle, hloads]), patCommand, hsup]
    · obtain ⟨hwaits, hasks, hgoes⟩ := loadStaged_spec hq (exec_of_accepted (code := 4) (i := .loadStaged c) h hguard (by decide) rfl
        (by simp [patJudge, hidle, hloads, hstaged])) hstart h8
      exact ⟨hwaits, fun _ => hasks, hgoes⟩
  case commits =>
    have hcommits : (mode s == mFITTING || mode s == mBASTING) = true := by simpa using hmode
    constructor
    · obtain ⟨hframe, hpat, hidn, hpwr, hmir, hbusy, hvalid, hlen⟩ := patCommit_spec c s (k := 0) (by decide) hq
      exact ⟨_, exec_of_accepted (code := 7) h hguard (by decide) rfl (by simp [patJudge, hidle, hcommits, hstaged]),
        hframe.regs_endRun, hframe.eq_of_all hpat hidn hpwr hmir, hbusy, hvalid, hlen⟩
    · obtain ⟨hframe, hpat, hidn, hpwr, hmir, hbusy, hvalid, hlen⟩ := patCommit_spec c s (k := 1) (by decide) hq
      exact ⟨_, exec_of_accepted (code := 8) h hguard (by decide) rfl (by simp [patJudge, hidle, hcommits, hstaged]),
        hframe.regs_endRun, hframe.eq_of_all hpat hidn hpwr hmir, hbusy, hvalid, hlen⟩
  case selectA =>
    exact ⟨_, exec_of_accepted (code := 9) h hguard (by decide) rfl (by simp [patJudge, hidle]), patSelect_spec c s (by decide)⟩
  case selectB =>
    exact ⟨_, exec_of_accepted (code := 0xA) h hguard (by decide) rfl (by simp [patJudge, hidle]), patSelect_spec c s (by decide)⟩
  case confirmLoad =>
    obtain ⟨hconf, hdone, hfails, hbasting, hcode, hslot, hpat, hmode⟩ := loadSucceeded_spec (accepted c s)
    refine ⟨patDone (loadSucceeded (accepted c s)), ?_, hconf, hdone, hfails, hbasting, ?_, ?_, ?_, ?_⟩
    · rw [exec_of_accepted (code := 0xB) h hguard (by decide) rfl (by simp [patJudge, hidle]), patCommand,
        patConfirm_of_load _ (by rwa [accepted_pat])]
    · rw [hcode, on_accepted _ _ (by decide) (by decide)]
    · rw [hslot, get_accepted _ _ (by decide) (by decide)]
    · rw [hpat, accepted_pat]
    · rw [hmode, mode_accepted, on_accepted _ _ (by decide) (by decide)]
  case confirmStart =>
    refine ⟨patDone (startSucceeded (accepted c s)), ?_, startSucceeded_spec c s⟩
    rw [exec_of_accepted (code := 0xB) h hguard (by decide) rfl (by simp [patJudge, hidle]), patCommand,
      patConfirm_of_await _ (by rwa [accepted_pat]) (by rwa [accepted_pat])]
  case confirmNothing =>
    refine ⟨patDone (accepted c s), ?_, ((PortRegs.refl ..).put _ _ (by decide)).flag _ _ (by decide), ?_⟩
    · rw [exec_of_accepted (code := 0xB) h hguard (by decide) rfl (by simp [patJudge, hidle]), patCommand,
        patConfirm_of_nothing _ (by rwa [accepted_pat]) (by rwa [accepted_pat])]
    · exact (word_patRefuse 0 (endRun c.port s)).trans (by rw [endRun_word])
  case sealed =>
    refine ⟨patDone (addMirror (metered v crc (accepted c s)) .seal), ?_, patSeal_spec c s v crc⟩
    rw [exec_of_accepted (code := 0xC) h hguard (by decide) rfl (by simp [patJudge, hidle, hfit, hm, hsect, hcal]), patCommand,
      patSeal_of_section _ (by rwa [accepted_pat])]
  case abort =>
    have hnotLate : (accepted c s).pat.late = false := by rwa [accepted_pat]
    refine ⟨workEnded (emptyStaging (accepted c s)), ?_, ?_, busy_workEnded _, ?_, done_workEnded _, ?_⟩
    · rw [exec_of_accepted (code := 0xD) h hguard (by decide) rfl (by simp [patJudge, habort]), patCommand, patAbort_eq _ hnotLate]
    · rw [workEnded_pat, emptyStaging_pat, accepted_pat]
    · rw [on_workEnded _ (by decide) (by decide) (by decide) (by decide), staged_emptyStaging]
    · rw [get_workEnded _ (by decide) (by decide) (by decide) (by decide), get_emptyStaging _ (by decide) (by decide),
        cmdErr_accepted]

end Sys2Proof.Machine
end

section
/-!
PROOFS of what a start that FAILED leaves, and of the way to BASTING (R61, Table 15.8).
-/
namespace Sys2Proof.Machine

/-! ### To BASTING -/

section
variable (s : State)

theorem get_syncBusy {f : Field} (hlo : f.lo + f.wd ≤ 32) (h : f.addr ≠ R.PWR_MODE ∨ f.lo + f.wd ≤ R.PWR_MODE_BUSY.lo) :
    (syncBusy s).get f = s.get f := get_flag_other _ _ _ _ hlo (h.imp_right .inl)

@[simp] theorem syncBusy_pat : (syncBusy s).pat = s.pat := by simp only [syncBusy, flag_pat]
@[simp] theorem syncBusy_pwr : (syncBusy s).pwr = s.pwr := by simp only [syncBusy, flag_pwr]

/-- The three ways to BASTING: after a discharge that runs, by a power-down of the group, or at once (log entry 27). -/
theorem goBasting_def : goBasting s =
    let s1 := s.flag R.PWR_BOOT_CAUSE_BASTING true
    if mode s1 = mDISCHARGE then { s1 with pwr := { s1.pwr with disBasting := true } }
    else if groupOn s1 then beginPowerDown mBASTING s1
    else syncBusy (setMode mBASTING { s1 with pwr := { s1.pwr with groupOn := false, upTo := none } }) := rfl

theorem mode_flag_basting (b : Bool) : mode (s.flag R.PWR_BOOT_CAUSE_BASTING b) = mode s :=
  get_flag_other _ _ _ _ (by decide) (by decide)

theorem groupOn_flag_basting (b : Bool) : groupOn (s.flag R.PWR_BOOT_CAUSE_BASTING b) = groupOn s :=
  congrArg (tb · 5) (get_flag_other s _ R.PWR_DOM_ON b (by decide) (by decide))

variable {s}

theorem goBasting_of_discharge (h : mode s = mDISCHARGE) : goBasting s = { s.flag R.PWR_BOOT_CAUSE_BASTING true with
    pwr := { (s.flag R.PWR_BOOT_CAUSE_BASTING true).pwr with disBasting := true } } := by
  simp only [goBasting_def, mode_flag_basting, h, if_true]

theorem goBasting_of_group (h : mode s ≠ mDISCHARGE) (hgroup : groupOn s = true) :
    goBasting s = beginPowerDown mBASTING (s.flag R.PWR_BOOT_CAUSE_BASTING true) := by
  simp only [goBasting_def, mode_flag_basting, groupOn_flag_basting, h, hgroup, if_true, if_false]

theorem goBasting_of_off (h : mode s ≠ mDISCHARGE) (hgroup : groupOn s = false) :
    goBasting s = syncBusy (setMode mBASTING { s.flag R.PWR_BOOT_CAUSE_BASTING true with
      pwr := { (s.flag R.PWR_BOOT_CAUSE_BASTING true).pwr with groupOn := false, upTo := none } }) := by
  simp only [goBasting_def, mode_flag_basting, groupOn_flag_basting, h, hgroup, if_false, Bool.false_eq_true]

theorem goBasting_cases (P : State → Prop) (hdis : mode s = mDISCHARGE → P { s.flag R.PWR_BOOT_CAUSE_BASTING true with
      pwr := { (s.flag R.PWR_BOOT_CAUSE_BASTING true).pwr with disBasting := true } })
    (hgroup : mode s ≠ mDISCHARGE → groupOn s = true → P (beginPowerDown mBASTING (s.flag R.PWR_BOOT_CAUSE_BASTING true)))
    (hoff : mode s ≠ mDISCHARGE → groupOn s = false → P (syncBusy (setMode mBASTING { s.flag R.PWR_BOOT_CAUSE_BASTING true with
      pwr := { (s.flag R.PWR_BOOT_CAUSE_BASTING true).pwr with groupOn := false, upTo := none } }))) :
    P (goBasting s) := by
  by_cases hmode : mode s = mDISCHARGE
  · rw [goBasting_of_discharge hmode]
    exact hdis hmode
  · cases hg : groupOn s
    · rw [goBasting_of_off hmode hg]
      exact hoff hmode hg
    · rw [goBasting_of_group hmode hg]
      exact hgroup hmode hg

variable (s)

@[simp] theorem goBasting_pat : (goBasting s).pat = s.pat := by
  refine goBasting_cases (fun t => t.pat = s.pat) (fun _ => ?_) (fun _ _ => ?_) (fun _ _ => ?_)
  · simp only [flag_pat]
  · simp only [beginPowerDown_pat, flag_pat]
  · simp only [syncBusy_pat, setMode_pat, flag_pat]

/-- PWR_MODE, PCDONE and the mark of BASTING apart, the way to BASTING shows nothing new. -/
theorem get_goBasting_flag {f : Field} (hf : f.addr ∈ managerRegs) (hlo : f.lo + f.wd ≤ 32) (hmode : f.addr ≠ R.PWR_MODE)
    (hpc : f.addr ≠ R.PWR_STAT_PCDONE.addr ∨ f.lo + f.wd ≤ R.PWR_STAT_PCDONE.lo
      ∨ R.PWR_STAT_PCDONE.lo + R.PWR_STAT_PCDONE.wd ≤ f.lo) :
    (goBasting s).get f = (s.flag R.PWR_BOOT_CAUSE_BASTING true).get f := by
  refine goBasting_cases (fun t => t.get f = (s.flag R.PWR_BOOT_CAUSE_BASTING true).get f) (fun _ => ?_) (fun _ _ => ?_) (fun _ _ => ?_)
  · rw [get_with_pwr]
  · rw [get_beginPowerDown _ _ hf hmode]
  · rw [get_syncBusy _ hlo (.inl hmode), get_setMode _ _ hf hlo hmode hpc, get_with_pwr]

theorem get_goBasting {f : Field} (hf : f.addr ∈ managerRegs) (hlo : f.lo + f.wd ≤ 32) (hmode : f.addr ≠ R.PWR_MODE)
    (hpc : f.addr ≠ R.PWR_STAT_PCDONE.addr ∨ f.lo + f.wd ≤ R.PWR_STAT_PCDONE.lo
      ∨ R.PWR_STAT_PCDONE.lo + R.PWR_STAT_PCDONE.wd ≤ f.lo)
    (hb : f.addr ≠ R.PWR_BOOT_CAUSE ∨ f.lo + f.wd ≤ R.PWR_BOOT_CAUSE_BASTING.lo) : (goBasting s).get f = s.get f :=
  (get_goBasting_flag s hf hlo hmode hpc).trans (get_flag_other _ _ _ _ hlo (hb.imp_right .inl))

theorem on_goBasting {f : Field} (hf : f.addr ∈ managerRegs) (hlo : f.lo + f.wd ≤ 32) (hmode : f.addr ≠ R.PWR_MODE)
    (hpc : f.addr ≠ R.PWR_STAT_PCDONE.addr ∨ f.lo + f.wd ≤ R.PWR_STAT_PCDONE.lo
      ∨ R.PWR_STAT_PCDONE.lo + R.PWR_STAT_PCDONE.wd ≤ f.lo)
    (hb : f.addr ≠ R.PWR_BOOT_CAUSE ∨ f.lo + f.wd ≤ R.PWR_BOOT_CAUSE_BASTING.lo) : (goBasting s).on f = s.on f :=
  congrArg (· == 1) (get_goBasting s hf hlo hmode hpc hb)

theorem basting_goBasting : (goBasting s).on R.PWR_BOOT_CAUSE_BASTING = true := by
  rw [State.on, get_goBasting_flag s (by decide) (by decide) (by decide) (by decide)]
  exact on_flag _ _ _ (by decide) rfl

variable {s}

theorem mode_goBasting_of_discharge (h : mode s = mDISCHARGE) : mode (goBasting s) = mDISCHARGE := by
  rw [goBasting_of_discharge h, mode, get_with_pwr]
  exact (mode_flag_basting s true).trans h

theorem disBasting_goBasting (h : mode s = mDISCHARGE) : (goBasting s).pwr.disBasting = true := by
  rw [goBasting_of_discharge h]

theorem downTo_goBasting (h : mode s ≠ mDISCHARGE) (hgroup : groupOn s = true) : (goBasting s).pwr.downTo = some mBASTING := by
  rw [goBasting_of_group h hgroup, beginPowerDown_pwr]

theorem mode_goBasting_of_off (h : mode s ≠ mDISCHARGE) (hgroup : groupOn s = false) : mode (goBasting s) = mBASTING := by
  rw [goBasting_of_off h hgroup]
  exact (get_syncBusy _ (by decide) (by decide)).trans (mode_setMode _ (by decide))

end

/-! ### A start that FAILED -/

section
variable (s : State)

/-- FAILS and CODE of a start that FAILED. -/
def failedShown (c : Nat) (s : State) : State :=
  ((endStart s).put R.PWR_BOOT_CAUSE_FAILS (s.get R.PWR_BOOT_CAUSE_FAILS + 1)).put R.PWR_BOOT_CAUSE_CODE c

/-- A start that FAILED, before the module takes its way: the Pattern that it has applied is unloaded. -/
def failed (c : Nat) (s : State) : State :=
  if (failedShown c s).on R.PAT_STAT_LOADED then unload (failedShown c s) else failedShown c s

/-- With FAILS below 3 the mode stays (Table 15.8). -/
def failStays (s : State) : State :=
  if mode s = mSAFEOFF then s.flag R.PWR_STAT_SFAIL true
  else if mode s = mDISCHARGE then { s with pwr := { s.pwr with disFail := true } }
  else s

theorem startFailed_def (c : Nat) : startFailed c s =
    if s.get R.PWR_BOOT_CAUSE_FAILS + 1 < 3 then failStays (failed c s) else goBasting (failed c s) := rfl

variable (c : Nat)

@[simp] theorem failedShown_pat : (failedShown c s).pat = (endStart s).pat := by simp only [failedShown, put_pat]
@[simp] theorem failedShown_pwr : (failedShown c s).pwr = s.pwr := by simp only [failedShown, put_pwr, endStart_pwr]

@[simp] theorem failed_pat : (failed c s).pat = (endStart s).pat := by
  unfold failed; split <;> simp only [unload_pat, failedShown_pat]
@[simp] theorem failed_pwr : (failed c s).pwr = s.pwr := by
  unfold failed; split <;> simp only [unload_pwr, failedShown_pwr]

theorem get_failed {f : Field} (hf : f.addr ∈ managerRegs) (hpat : f.addr ≠ R.PAT_STAT) :
    (failed c s).get f = (failedShown c s).get f := by
  unfold failed
  split
  · exact get_unload _ hf hpat
  · rfl

/-- FAILS, CODE and STARTING apart, the registers that the managers show say nothing new of a start that FAILED. -/
theorem get_failedShown {f : Field} (hlo : f.lo + f.wd ≤ 32)
    (hcause : f.addr ≠ R.PWR_BOOT_CAUSE ∨ 8 ≤ f.lo ∧ f.lo + f.wd ≤ 24 ∨ 26 ≤ f.lo) (hstat : f.addr ≠ R.PWR_STAT) :
    (failedShown c s).get f = s.get f := by
  have hcode : f.addr ≠ R.PWR_BOOT_CAUSE_CODE.addr ∨ f.lo + f.wd ≤ R.PWR_BOOT_CAUSE_CODE.lo
      ∨ R.PWR_BOOT_CAUSE_CODE.lo + R.PWR_BOOT_CAUSE_CODE.wd ≤ f.lo := by
    refine hcause.imp_right fun h => .inr (show 0 + 8 ≤ f.lo from ?_)
    omega
  have hfails : f.addr ≠ R.PWR_BOOT_CAUSE_FAILS.addr ∨ f.lo + f.wd ≤ R.PWR_BOOT_CAUSE_FAILS.lo
      ∨ R.PWR_BOOT_CAUSE_FAILS.lo + R.PWR_BOOT_CAUSE_FAILS.wd ≤ f.lo := hcause.imp_right fun h => h.imp (·.2) id
  rw [failedShown, get_put_other _ _ _ _ hlo hcode, get_put_other _ _ _ _ hlo hfails, get_endStart _ hlo (.inl hstat)]

@[simp] theorem mode_failed : mode (failed c s) = mode s :=
  (get_failed s c (by decide) (by decide)).trans (get_failedShown s c (by decide) (by decide) (by decide))

@[simp] theorem groupOn_failed : groupOn (failed c s) = groupOn s :=
  congrArg (tb · 5) ((get_failed s c (f := R.PWR_DOM_ON) (by decide) (by decide)).trans
    (get_failedShown s c (by decide) (by decide) (by decide)))

theorem fails_failed (h : s.get R.PWR_BOOT_CAUSE_FAILS < 3) :
    (failed c s).get R.PWR_BOOT_CAUSE_FAILS = s.get R.PWR_BOOT_CAUSE_FAILS + 1 := by
  rw [get_failed _ _ (by decide) (by decide), failedShown, get_put_other _ _ _ _ (by decide) (by decide), get_put _ _ _ (by decide)]
  exact Nat.mod_eq_of_lt (show _ < 4 by omega)

theorem code_failed (hc : c < 256) : (failed c s).get R.PWR_BOOT_CAUSE_CODE = c := by
  rw [get_failed _ _ (by decide) (by decide), failedShown, get_put _ _ _ (by decide)]
  exact Nat.mod_eq_of_lt hc

theorem starting_failed : (failed c s).on R.PWR_STAT_STARTING = false := by
  rw [State.on, get_failed _ _ (by decide) (by decide), failedShown, get_put_other _ _ _ _ (by decide) (by decide),
    get_put_other _ _ _ _ (by decide) (by decide)]
  exact starting_endStart s

theorem loaded_failed : (failed c s).on R.PAT_STAT_LOADED = false := by
  unfold failed
  split
  · exact loaded_unload _
  · next h => simpa using h

theorem busy_failed : (failed c s).on R.PAT_STAT_BUSY = s.on R.PAT_STAT_BUSY := by
  have hshown : (failedShown c s).on R.PAT_STAT_BUSY = s.on R.PAT_STAT_BUSY :=
    congrArg (· == 1) (get_failedShown s c (by decide) (by decide) (by decide))
  unfold failed
  split
  · exact (busy_unload _).trans hshown
  · exact hshown

/-- A Pattern that was in force is out of it, and unconfirmed. -/
theorem undone_failed (h : s.on R.PAT_STAT_LOADED = true) :
    (failed c s).on R.PAT_STAT_CONFIRMED = false ∧ (failed c s).get R.PAT_STAT_SOURCE = 3 := by
  have hloaded : (failedShown c s).on R.PAT_STAT_LOADED = true :=
    (congrArg (· == 1) (get_failedShown s c (by decide) (by decide) (by decide))).trans h
  rw [failed, if_pos hloaded]
  exact ⟨confirmed_unload _, source_unload _⟩

@[simp] theorem failStays_pat : (failStays s).pat = s.pat := by
  unfold failStays
  split
  · simp only [flag_pat]
  · split <;> rfl

theorem get_failStays {f : Field} (hlo : f.lo + f.wd ≤ 32) (hf : f.addr ≠ R.PWR_STAT ∨ f.lo + f.wd ≤ R.PWR_STAT_SFAIL.lo) :
    (failStays s).get f = s.get f := by
  unfold failStays
  split
  · exact get_flag_other _ _ _ _ hlo (hf.imp_right .inl)
  · split
    · rw [get_with_pwr]
    · rfl

theorem mode_failStays : mode (failStays s) = mode s := get_failStays _ (by decide) (by decide)

theorem sfail_failStays (h : mode s = mSAFEOFF) : (failStays s).on R.PWR_STAT_SFAIL = true := by
  rw [failStays, if_pos h, on_flag _ _ _ (by decide) rfl]

/-- PWR_MODE, the mark of BASTING, PCDONE and SFAIL apart, the module's way shows nothing more than `failed`. -/
theorem get_startFailed {f : Field} (hf : f.addr ∈ managerRegs) (hlo : f.lo + f.wd ≤ 29 ∨ f.addr ≠ R.PWR_STAT ∧ f.lo + f.wd ≤ 32)
    (hmode : f.addr ≠ R.PWR_MODE) (hb : f.addr ≠ R.PWR_BOOT_CAUSE ∨ f.lo + f.wd ≤ R.PWR_BOOT_CAUSE_BASTING.lo) :
    (startFailed c s).get f = (failed c s).get f := by
  rw [startFailed_def]
  split
  · exact get_failStays _ (by omega) (hlo.elim (fun h => .inr (h.trans (by decide))) fun h => .inl h.1)
  · exact get_goBasting _ hf (by omega) hmode (hlo.elim (fun h => .inr (.inl h)) fun h => .inl h.1) hb

theorem on_startFailed {f : Field} (hf : f.addr ∈ managerRegs) (hlo : f.lo + f.wd ≤ 29 ∨ f.addr ≠ R.PWR_STAT ∧ f.lo + f.wd ≤ 32)
    (hmode : f.addr ≠ R.PWR_MODE) (hb : f.addr ≠ R.PWR_BOOT_CAUSE ∨ f.lo + f.wd ≤ R.PWR_BOOT_CAUSE_BASTING.lo) :
    (startFailed c s).on f = (failed c s).on f := congrArg (· == 1) (get_startFailed s c hf hlo hmode hb)

@[simp] theorem startFailed_pat : (startFailed c s).pat = { s.pat with start := .none, openMark := false } := by
  rw [startFailed_def]
  split <;> simp only [failStays_pat, goBasting_pat, failed_pat, endStart_pat]

variable {s c}

theorem startFailed_of_lt (h : s.get R.PWR_BOOT_CAUSE_FAILS < 2) : startFailed c s = failStays (failed c s) := by
  rw [startFailed_def, if_pos (by omega)]

theorem startFailed_of_two (h : s.get R.PWR_BOOT_CAUSE_FAILS = 2) : startFailed c s = goBasting (failed c s) := by
  rw [startFailed_def, if_neg (by omega)]

end

end Sys2Proof.Machine
end

section
/-!
PROOFS of the end of a verification: of a verify-only run, of a load and of a start.
-/
namespace Sys2Proof.Machine

/-! ### What a verdict shows (R35, R49) -/

section
variable (v : Verdict) (s : State)

/-- SEAM_CHK as step 6 of a verification leaves it. -/
def showCheck (f : ChkFail) (s : State) : State :=
  (((s.put R.SEAM_CHK_CODE f.code).put R.SEAM_CHK_SEAM f.seam).put R.SEAM_CHK_SLOT f.slot).put R.SEAM_CHK_STITCH f.stitch

theorem showVerdict_of_pass (h : v.code = 0) :
    showVerdict v s = if reachedStep6 v then showCheck (v.chk.getD ⟨0, 0, 0, 0x7F⟩) s else s := by
  simp only [showVerdict, h, if_true, showCheck]

theorem showVerdict_of_fail (h : v.code ≠ 0) : showVerdict v s =
    if reachedStep6 v then showCheck (v.chk.getD ⟨0, 0, 0, 0x7F⟩) (putPatErr v.code v.offset s)
    else putPatErr v.code v.offset s := by
  simp only [showVerdict, h, if_false, showCheck]

theorem OnlyRegs.showCheck {as : List Nat} {s t : State} (h : OnlyRegs as s t) (f : ChkFail) (ha : R.SEAM_CHK ∈ as) :
    OnlyRegs as s (showCheck f t) := (((h.put _ _ ha).put _ _ ha).put _ _ ha).put _ _ ha

theorem onlyRegs_showVerdict_of_pass (h : v.code = 0) : OnlyRegs [R.SEAM_CHK] s (showVerdict v s) := by
  rw [showVerdict_of_pass v s h]
  split
  · exact (OnlyRegs.refl _ _).showCheck _ (by decide)
  · exact .refl _ _

theorem onlyRegs_showVerdict : OnlyRegs [R.PAT_ERR, R.SEAM_CHK] s (showVerdict v s) := by
  have herr : OnlyRegs [R.PAT_ERR, R.SEAM_CHK] s (putPatErr v.code v.offset s) :=
    ((OnlyRegs.refl _ _).put _ _ (by decide)).put _ _ (by decide)
  by_cases h : v.code = 0
  · rw [showVerdict_of_pass v s h]
    split
    · exact (OnlyRegs.refl _ _).showCheck _ (by decide)
    · exact .refl _ _
  · rw [showVerdict_of_fail v s h]
    split
    · exact herr.showCheck _ (by decide)
    · exact herr

theorem get_showCheck (f : ChkFail) {g : Field} (hg : g.addr ≠ R.SEAM_CHK) : (showCheck f s).get g = s.get g := by
  rw [showCheck, get_put_ne _ _ _ _ hg, get_put_ne _ _ _ _ hg, get_put_ne _ _ _ _ hg, get_put_ne _ _ _ _ hg]

theorem get_showVerdict_of_fail (h : v.code ≠ 0) {f : Field} (hf : f.addr ≠ R.SEAM_CHK) :
    (showVerdict v s).get f = (putPatErr v.code v.offset s).get f := by
  rw [showVerdict_of_fail v s h]
  split
  · exact get_showCheck _ _ hf
  · rfl

/-- PAT_ERR takes the code and the offset of a verification that failed. -/
theorem patErr_showVerdict (h : v.code ≠ 0) :
    (showVerdict v s).get R.PAT_ERR_CODE = v.code % 2 ^ R.PAT_ERR_CODE.wd
      ∧ (showVerdict v s).get R.PAT_ERR_OFFSET = v.offset % 2 ^ R.PAT_ERR_OFFSET.wd := by
  rw [get_showVerdict_of_fail v s h (by decide), get_showVerdict_of_fail v s h (by decide), putPatErr]
  simp (disch := decide) only [get_put_other, get_put, and_self]

theorem showVerdict_pat : (showVerdict v s).pat = s.pat := by rw [(onlyRegs_showVerdict v s).1]
theorem showVerdict_pwr : (showVerdict v s).pwr = s.pwr := by rw [(onlyRegs_showVerdict v s).1]
theorem showVerdict_mirrors : (showVerdict v s).mirrors = s.mirrors := by rw [(onlyRegs_showVerdict v s).1]

theorem OnlyRegs.managed {as : List Nat} {s t : State} (h : OnlyRegs as s t) : Managed as s t := by
  refine ⟨h.2, ?_⟩
  conv_lhs => rw [h.1]
  rw [h.1]

theorem OnlyRegs.mono {as bs : List Nat} {s t : State} (h : OnlyRegs as s t) (hsub : as ⊆ bs) : OnlyRegs bs s t :=
  ⟨h.1, RegsOutside.mono h.2 hsub⟩

end

/-! ### The end of a run that leaves the manager idle -/

/-- Staging with its mark, where the run read it and the image passed. -/
def runJudged (src : Source) (v : Verdict) (s : State) : State :=
  if v.code = 0 ∧ src = .staging then markStaged (showVerdict v s) else showVerdict v s

section
variable (src : Source) (v : Verdict) (s : State)

theorem markStaged_pat : (markStaged s).pat = { s.pat with staging := ⟨true, s.pat.staging.bytes⟩ } := rfl

theorem regsOutside_markStaged (s : State) : RegsOutside [R.PAT_STAT] s (markStaged s) :=
  (((Managed.refl _ s).flag R.PAT_STAT_STAGED true (by decide)).setPat _).regs

theorem runJudged_pat : (runJudged src v s).pat = { s.pat with
    staging := if v.code = 0 ∧ src = .staging then ⟨true, s.pat.staging.bytes⟩ else s.pat.staging } := by
  unfold runJudged
  split
  · rw [markStaged_pat, showVerdict_pat]
  · rw [showVerdict_pat]

theorem managed_runJudged : Managed [R.PAT_STAT, R.PAT_ERR, R.SEAM_CHK, R.IDN_STAT] s (runJudged src v s) := by
  have hshown : Managed [R.PAT_STAT, R.PAT_ERR, R.SEAM_CHK, R.IDN_STAT] s (showVerdict v s) :=
    (onlyRegs_showVerdict v s).managed.mono (by simp)
  unfold runJudged
  split
  · exact (hshown.flag R.PAT_STAT_STAGED true (by decide)).setPat _
  · exact hshown

theorem runJudged_pwr : (runJudged src v s).pwr = s.pwr := by
  unfold runJudged
  split
  · rw [markStaged, flag_pwr, showVerdict_pwr]
  · rw [showVerdict_pwr]

theorem runJudged_mirrors : (runJudged src v s).mirrors = s.mirrors := by
  unfold runJudged
  split
  · rw [markStaged, flag_mirrors, showVerdict_mirrors]
  · rw [showVerdict_mirrors]

theorem get_runJudged {f : Field} (hlo : f.lo + f.wd ≤ 32) (hf : f.addr ≠ R.PAT_STAT) :
    (runJudged src v s).get f = (showVerdict v s).get f := by
  unfold runJudged
  split
  · rw [markStaged, get_with_pat, get_flag_other _ _ _ _ hlo (.inl hf)]
  · rfl

theorem staged_runJudged (h : v.code = 0) (hsrc : src = .staging) : (runJudged src v s).on R.PAT_STAT_STAGED = true := by
  rw [runJudged, if_pos ⟨h, hsrc⟩, markStaged, on_with_pat, on_flag _ _ _ (by decide) rfl]

/-- The registers that the end of a work touches, as a frame. -/
theorem regsOutside_workEnded (s : State) : RegsOutside [R.PAT_STAT, R.IDN_STAT] s (workEnded s) :=
  ((Managed.refl _ s).workEnded (by decide) (by decide)).regs

theorem word_patErr_runJudged (h : v.code = 0) : (runJudged src v s).word R.PAT_ERR = s.word R.PAT_ERR := by
  have hshown : (showVerdict v s).word R.PAT_ERR = s.word R.PAT_ERR := (onlyRegs_showVerdict_of_pass v s h).2 _ (by decide)
  unfold runJudged
  split
  · exact (regsOutside_markStaged _ _ (by decide)).trans hshown
  · exact hshown

theorem endWork_runJudged : endWork (runJudged src v s)
    = if s.pat.late then startAfterExpiry (workEnded (runJudged src v s)) else workEnded (runJudged src v s) := by
  rw [endWork_def, runJudged_pat]

end

/-! ### What a verification was for -/

section
variable {s : State} {src : Source}

theorem exec_patVerifyDone_of (hdom : domOn s 3 = true) (hsrc : verifySource s.pat.work = some src) :
    exec .patVerifyDone s = .next (syncFabric (verified (verdictOf src s) s)) := by
  simp only [exec, execPatVerifyDone, hsrc, hdom, if_true]

theorem verified_of_verifyOnly (v : Verdict) (h : s.pat.work = .verifyOnly src) : verified v s = endWork (runJudged src v s) := by
  simp only [verified, h, runJudged]

theorem verified_of_verifyLoad (v : Verdict) (h : s.pat.work = .verifyLoad src) :
    verified v s = if v.code = 0 then beginApply src (showVerdict v s) else endWork (showVerdict v s) := by
  simp only [verified, h]

theorem verified_of_verifyStart (v : Verdict) (h : s.pat.work = .verifyStart src) : verified v s =
    if v.code = 0 then beginApply src (putAttempt src v.code (showVerdict v s))
    else attemptFailed src (putAttempt src v.code (showVerdict v s)) := by
  simp only [verified, h]

/-- A verify-only run, and a load whose image fails, end as `runJudged` says. -/
theorem verified_ends (v : Verdict) (h : s.pat.work = .verifyOnly src ∨ s.pat.work = .verifyLoad src ∧ v.code ≠ 0) :
    verified v s = endWork (runJudged src v s) := by
  rcases h with h | ⟨h, hfail⟩
  · exact verified_of_verifyOnly v h
  · rw [verified_of_verifyLoad v h, if_neg hfail, runJudged, if_neg (fun hpass => hfail hpass.1)]

end

/-! ### An attempt of a start (Tables 3.9 and 3.10) -/

section
variable (src : Source) (v : Verdict) (s : State)

/-- What the managers show of an attempt before the start goes on. -/
def attempted (src : Source) (v : Verdict) (s : State) : State := putAttempt src v.code (showVerdict v s)

theorem OnlyRegs.putAttempt {as : List Nat} {s t : State} (h : OnlyRegs as s t) (src : Source) (c : Nat)
    (ha : R.PWR_BOOT_CAUSE ∈ as) : OnlyRegs as s (putAttempt src c t) := by
  unfold Machine.putAttempt
  split
  · exact h.put _ _ ha
  · exact h.put _ _ ha

theorem onlyRegs_attempted : OnlyRegs [R.PAT_ERR, R.SEAM_CHK, R.PWR_BOOT_CAUSE] s (attempted src v s) :=
  ((onlyRegs_showVerdict v s).mono (by simp)).putAttempt _ _ (by decide)

theorem attempted_pat : (attempted src v s).pat = s.pat := by rw [(onlyRegs_attempted src v s).1]
theorem attempted_pwr : (attempted src v s).pwr = s.pwr := by rw [(onlyRegs_attempted src v s).1]
theorem attempted_mirrors : (attempted src v s).mirrors = s.mirrors := by rw [(onlyRegs_attempted src v s).1]

theorem get_attempted {f : Field} (hf : f.addr ∉ [R.PAT_ERR, R.SEAM_CHK, R.PWR_BOOT_CAUSE]) :
    (attempted src v s).get f = s.get f := RegsOutside.get (onlyRegs_attempted src v s).2 hf

theorem get_bootCause_showVerdict {f : Field} (hf : f.addr = R.PWR_BOOT_CAUSE) : (showVerdict v s).get f = s.get f :=
  RegsOutside.get (onlyRegs_showVerdict v s).2 (by rw [hf]; decide)

/-- ERR_A and ERR_B apart, an attempt shows nothing in PWR_BOOT_CAUSE. -/
theorem get_bootCause_attempted {f : Field} (hf : f.addr = R.PWR_BOOT_CAUSE) (hlo : f.lo + f.wd ≤ 32)
    (h : f.lo + f.wd ≤ 8 ∨ 24 ≤ f.lo) : (attempted src v s).get f = s.get f := by
  have hA : f.lo + f.wd ≤ R.PWR_BOOT_CAUSE_ERR_A.lo ∨ R.PWR_BOOT_CAUSE_ERR_A.lo + R.PWR_BOOT_CAUSE_ERR_A.wd ≤ f.lo :=
    h.imp_right (le_trans (by decide))
  have hB : f.lo + f.wd ≤ R.PWR_BOOT_CAUSE_ERR_B.lo ∨ R.PWR_BOOT_CAUSE_ERR_B.lo + R.PWR_BOOT_CAUSE_ERR_B.wd ≤ f.lo :=
    h.imp_left (le_trans · (by decide))
  unfold attempted putAttempt
  split
  · rw [get_put_other _ _ _ _ hlo (.inr hB), get_bootCause_showVerdict v s hf]
  · rw [get_put_other _ _ _ _ hlo (.inr hA), get_bootCause_showVerdict v s hf]

theorem errA_attempted (hsrc : src ≠ .staging) : (attempted src v s).get R.PWR_BOOT_CAUSE_ERR_A
    = if src = .slotA then v.code % 256 else s.get R.PWR_BOOT_CAUSE_ERR_A := by
  unfold attempted putAttempt
  cases src with
  | slotA => exact get_put _ _ _ (by decide)
  | slotB => exact (get_put_other _ _ _ _ (by decide) (by decide)).trans (get_bootCause_showVerdict v s rfl)
  | staging => exact absurd rfl hsrc

theorem errB_attempted (hsrc : src ≠ .staging) : (attempted src v s).get R.PWR_BOOT_CAUSE_ERR_B
    = if src = .slotB then v.code % 256 else s.get R.PWR_BOOT_CAUSE_ERR_B := by
  unfold attempted putAttempt
  cases src with
  | slotA => exact (get_put_other _ _ _ _ (by decide) (by decide)).trans (get_bootCause_showVerdict v s rfl)
  | slotB => exact get_put _ _ _ (by decide)
  | staging => exact absurd rfl hsrc

theorem attemptFailed_of_first {s : State} (h : s.pat.start = .tryActive) : attemptFailed src s =
    setWork (.verifyStart (slotNamed (1 - sourceCode src))) { s with pat := { s.pat with start := .tryOther } } := if_pos h

/-- NO_IMAGE where both slots read SLOT_BLANK, VERIFY_FAILED else (Table 3.11). -/
def failCode (a b : Nat) : Nat := if a = eSLOT_BLANK ∧ b = eSLOT_BLANK then 0x11 else 0x12

theorem attemptFailed_of_second {s : State} (h : s.pat.start = .tryOther) : attemptFailed src s =
    startFailed (failCode (s.get R.PWR_BOOT_CAUSE_ERR_A) (s.get R.PWR_BOOT_CAUSE_ERR_B)) (setWork .idle s) := by
  rw [attemptFailed, if_neg (by rw [h]; decide), failCode]
  simp only [Bool.and_eq_true, beq_iff_eq]
  rfl

end

/-- The other slot's attempt of a start failed too: the start has FAILED. -/
theorem secondAttempt_spec {s : State} {src : Source} {v : Verdict} {c : Nat} (hsrc : src ≠ .staging) (hc : c < 256)
    (hfails : s.get R.PWR_BOOT_CAUSE_FAILS < 3) :
    let u := startFailed c (setWork .idle (attempted src v s))
    u.get R.PWR_BOOT_CAUSE_ERR_A = (if src = .slotA then v.code % 256 else s.get R.PWR_BOOT_CAUSE_ERR_A)
      ∧ u.get R.PWR_BOOT_CAUSE_ERR_B = (if src = .slotB then v.code % 256 else s.get R.PWR_BOOT_CAUSE_ERR_B)
      ∧ u.get R.PWR_BOOT_CAUSE_FAILS = s.get R.PWR_BOOT_CAUSE_FAILS + 1 ∧ u.get R.PWR_BOOT_CAUSE_CODE = c
      ∧ u.on R.PWR_STAT_STARTING = false ∧ u.on R.PAT_STAT_LOADED = false ∧ u.on R.PAT_STAT_BUSY = false
      ∧ u.pat = { s.pat with work := .idle, start := .none, openMark := false }
      ∧ (s.get R.PWR_BOOT_CAUSE_FAILS < 2 → mode u = mode s ∧ (mode s = mSAFEOFF → u.on R.PWR_STAT_SFAIL = true))
      ∧ (s.get R.PWR_BOOT_CAUSE_FAILS = 2 → u.on R.PWR_BOOT_CAUSE_BASTING = true
          ∧ (mode s = mDISCHARGE → mode u = mDISCHARGE ∧ u.pwr.disBasting = true)
          ∧ (mode s ≠ mDISCHARGE → groupOn s = true → u.pwr.downTo = some mBASTING)
          ∧ (mode s ≠ mDISCHARGE → groupOn s = false → mode u = mBASTING)) := by
  intro u
  have hidle : ∀ {f : Field}, f.lo + f.wd ≤ 32 → f.addr ∉ [R.PAT_STAT, R.IDN_STAT] →
      (setWork .idle (attempted src v s)).get f = (attempted src v s).get f := fun {f} hlo hf => by
    simp only [List.mem_cons, List.not_mem_nil, or_false, not_or] at hf
    exact get_setWork _ _ hlo (.inl hf.1) hf.2
  have hcount : (setWork .idle (attempted src v s)).get R.PWR_BOOT_CAUSE_FAILS = s.get R.PWR_BOOT_CAUSE_FAILS := by
    rw [hidle (by decide) (by decide), get_bootCause_attempted _ _ _ rfl (by decide) (by decide)]
  have hmode : mode (setWork .idle (attempted src v s)) = mode s := by
    rw [mode, hidle (by decide) (by decide), get_attempted _ _ _ (by decide), mode]
  have hgroup : groupOn (setWork .idle (attempted src v s)) = groupOn s := by
    rw [groupOn_setWork]
    exact congrArg (tb · 5) (get_attempted src v s (f := R.PWR_DOM_ON) (by decide))
  refine ⟨?_, ?_, ?_, ?_, ?_, ?_, ?_, ?_, fun hlt => ?_, fun htwo => ?_⟩
  · rw [get_startFailed _ _ (by decide) (by decide) (by decide) (by decide), get_failed _ _ (by decide) (by decide),
      get_failedShown _ _ (by decide) (by decide) (by decide), hidle (by decide) (by decide), errA_attempted _ _ _ hsrc]
  · rw [get_startFailed _ _ (by decide) (by decide) (by decide) (by decide), get_failed _ _ (by decide) (by decide),
      get_failedShown _ _ (by decide) (by decide) (by decide), hidle (by decide) (by decide), errB_attempted _ _ _ hsrc]
  · rw [get_startFailed _ _ (by decide) (by decide) (by decide) (by decide), fails_failed _ _ (by rwa [hcount]), hcount]
  · rw [get_startFailed _ _ (by decide) (by decide) (by decide) (by decide), code_failed _ _ hc]
  · rw [on_startFailed _ _ (by decide) (by decide) (by decide) (by decide), starting_failed]
  · rw [on_startFailed _ _ (by decide) (by decide) (by decide) (by decide), loaded_failed]
  · rw [on_startFailed _ _ (by decide) (by decide) (by decide) (by decide), busy_failed, busy_setWork]
    rfl
  · rw [startFailed_pat, setWork_pat, attempted_pat]
  · have hu : u = failStays (failed c (setWork .idle (attempted src v s))) := startFailed_of_lt (by rwa [hcount])
    rw [hu, mode_failStays, mode_failed, hmode]
    exact ⟨rfl, fun hsafe => sfail_failStays _ (by rwa [mode_failed, hmode])⟩
  · have hu : u = goBasting (failed c (setWork .idle (attempted src v s))) := startFailed_of_two (by rwa [hcount])
    have hfm : mode (failed c (setWork .idle (attempted src v s))) = mode s := (mode_failed _ _).trans hmode
    have hfg : groupOn (failed c (setWork .idle (attempted src v s))) = groupOn s := (groupOn_failed _ _).trans hgroup
    rw [hu]
    exact ⟨basting_goBasting _, fun h => ⟨mode_goBasting_of_discharge (hfm.trans h), disBasting_goBasting (hfm.trans h)⟩,
      fun h hg => downTo_goBasting (hfm ▸ h) (hfg.trans hg), fun h hg => mode_goBasting_of_off (hfm ▸ h) (hfg.trans hg)⟩

/-- The active slot's attempt of a start failed: the other slot is verified. -/
theorem firstAttempt_spec (src : Source) (v : Verdict) (s : State) :
    let u := setWork (.verifyStart (slotNamed (1 - sourceCode src)))
      { attempted src v s with pat := { (attempted src v s).pat with start := .tryOther } }
    RegsOutside [R.PAT_STAT, R.PAT_ERR, R.SEAM_CHK, R.IDN_STAT, R.PWR_BOOT_CAUSE] s u
      ∧ u = { s with regs := u.regs, idn := u.idn, pat := { s.pat with
          work := .verifyStart (slotNamed (1 - sourceCode src)), start := .tryOther } }
      ∧ u.get R.PWR_BOOT_CAUSE_ERR_A = (attempted src v s).get R.PWR_BOOT_CAUSE_ERR_A
      ∧ u.get R.PWR_BOOT_CAUSE_ERR_B = (attempted src v s).get R.PWR_BOOT_CAUSE_ERR_B := by
  intro u
  have hframe : Managed [R.PAT_STAT, R.PAT_ERR, R.SEAM_CHK, R.IDN_STAT, R.PWR_BOOT_CAUSE] s u :=
    (((onlyRegs_attempted src v s).managed.mono (by simp)).setPat _).setWork _ (by decide) (by decide)
  refine ⟨hframe.regs, hframe.eq_of ?_ ?_ ?_, ?_, ?_⟩
  · simp only [u, setWork_pat, attempted_pat]
  · simp only [u, setWork_pwr, attempted_pwr]
  · simp only [u, setWork_mirrors, attempted_mirrors]
  · exact (get_setWork _ _ (by decide) (by decide) (by decide)).trans (get_with_pat _ _ _)
  · exact (get_setWork _ _ (by decide) (by decide) (by decide)).trans (get_with_pat _ _ _)

/-- Settles O17: what a verification was for goes on, ends, or tries the other slot. -/
theorem patternVerifications : Obligations.PatternVerifications := by
  intro s hdom
  refine ⟨fun src hwork => ?ended, fun src hwork hpass => ?load, fun src hwork hpass => ?start,
    fun src hother hwork hsrc hfail hfails => ?second, fun hactive => ⟨fun hwork hfail => ?firstA, fun hwork hfail => ?firstB⟩⟩
  case ended =>
    intro v
    have hverify : verifySource s.pat.work = some src := by rcases hwork with h | ⟨h, -⟩ <;> rw [h] <;> rfl
    have hframe : Managed [R.PAT_STAT, R.PAT_ERR, R.SEAM_CHK, R.IDN_STAT] s (workEnded (runJudged src v s)) :=
      (managed_runJudged src v s).workEnded (by decide) (by decide)
    have hget : ∀ {f : Field}, f.lo + f.wd ≤ 32 → f.addr ∉ [R.PAT_STAT, R.IDN_STAT] →
        (workEnded (runJudged src v s)).get f = (showVerdict v s).get f := fun {f} hlo hf => by
      have hpat : f.addr ≠ R.PAT_STAT := fun h => hf (by simp [h])
      exact ((regsOutside_workEnded _).get hf).trans (get_runJudged _ _ _ hlo hpat)
    refine ⟨workEnded (runJudged src v s), ?_, hframe.regs, hframe.eq_of ?_ ?_ ?_, busy_workEnded _, done_workEnded _, fun hfail => ?_,
      fun hpass => ?_, fun hpass hsrc => ?_⟩
    · rw [exec_patVerifyDone_of hdom hverify, verified_ends _ hwork, endWork_runJudged]
    · rw [workEnded_pat, runJudged_pat]
    · rw [workEnded_pwr, runJudged_pwr]
    · rw [workEnded_mirrors, runJudged_mirrors]
    · rw [hget (by decide) (by decide), hget (by decide) (by decide)]
      exact patErr_showVerdict v s hfail
    · exact (regsOutside_workEnded _ _ (by decide)).trans (word_patErr_runJudged src v s hpass)
    · rw [on_workEnded _ (by decide) (by decide) (by decide) (by decide), staged_runJudged src v s hpass hsrc]
  case load =>
    refine ⟨showVerdict (verdictOf src s) s, ?_, onlyRegs_showVerdict_of_pass _ s hpass⟩
    rw [exec_patVerifyDone_of hdom (src := src) (by rw [hwork]; rfl), verified_of_verifyLoad _ hwork, if_pos hpass]
  case start =>
    have hframe : OnlyRegs [R.SEAM_CHK, R.PWR_BOOT_CAUSE] s (attempted src (verdictOf src s) s) :=
      ((onlyRegs_showVerdict_of_pass _ s hpass).mono (by simp)).putAttempt _ _ (by decide)
    refine ⟨attempted src (verdictOf src s) s, ?_, hframe, fun hsrc => ?_, fun hsrc => ?_, ?_, ?_⟩
    · rw [exec_patVerifyDone_of hdom (src := src) (by rw [hwork]; rfl), verified_of_verifyStart _ hwork, if_pos hpass, attempted]
    · rw [errA_attempted _ _ _ (by rw [hsrc]; decide), if_pos hsrc, hpass]
    · rw [errB_attempted _ _ _ (by rw [hsrc]; decide), if_pos hsrc, hpass]
    · exact get_bootCause_attempted _ _ _ rfl (by decide) (by decide)
    · exact get_bootCause_attempted _ _ _ rfl (by decide) (by decide)
  case second =>
    intro c errA errB
    have hA : (attempted src (verdictOf src s) s).get R.PWR_BOOT_CAUSE_ERR_A = errA := errA_attempted _ _ _ hsrc
    have hB : (attempted src (verdictOf src s) s).get R.PWR_BOOT_CAUSE_ERR_B = errB := errB_attempted _ _ _ hsrc
    have hcode : failCode errA errB < 256 := by unfold failCode; split <;> decide
    refine ⟨startFailed (failCode errA errB) (setWork .idle (attempted src (verdictOf src s) s)), ?_,
      secondAttempt_spec hsrc hcode hfails⟩
    rw [exec_patVerifyDone_of hdom (src := src) (by rw [hwork]; rfl), verified_of_verifyStart _ hwork, if_neg hfail, ← attempted,
      attemptFailed_of_second _ (by rw [attempted_pat, hother]), hA, hB]
  case firstA =>
    obtain ⟨hregs, hrest, herr, -⟩ := firstAttempt_spec .slotA (verdictOf .slotA s) s
    refine ⟨_, ?_, hregs, hrest, herr.trans (errA_attempted _ _ _ (by decide))⟩
    rw [exec_patVerifyDone_of hdom (src := .slotA) (by rw [hwork]; rfl), verified_of_verifyStart _ hwork, if_neg hfail, ← attempted,
      attemptFailed_of_first _ (by rw [attempted_pat, hactive])]
  case firstB =>
    obtain ⟨hregs, hrest, -, herr⟩ := firstAttempt_spec .slotB (verdictOf .slotB s) s
    refine ⟨_, ?_, hregs, hrest, herr.trans (errB_attempted _ _ _ (by decide))⟩
    rw [exec_patVerifyDone_of hdom (src := .slotB) (by rw [hwork]; rfl), verified_of_verifyStart _ hwork, if_neg hfail, ← attempted,
      attemptFailed_of_first _ (by rw [attempted_pat, hactive])]

end Sys2Proof.Machine
end

section
/-!
PROOFS of the end of an apply: what step 5 writes, and what an apply was for.
-/
namespace Sys2Proof.Machine

/-! ### Numbers of a little-endian field -/

theorem leNat_lt (bs : List Byte) : leNat bs < 256 ^ bs.length := by
  induction bs with
  | nil => decide
  | cons b t ih =>
    have hb := b.isLt
    rw [leNat, List.length_cons, pow_succ]
    omega

theorem leField_lt (bs : List Byte) (o n : Nat) : leField bs o n < 256 ^ n :=
  (leNat_lt _).trans_le (Nat.pow_le_pow_right (by decide) (List.length_take_le _ _))

/-! ### PAT_DIGEST -/

section
variable (s : State)

/-- Words of a digest, each with its place. -/
def putDigest (l : List (Word × Nat)) (s : State) : State := forL l (fun e a => a.setWord (R.PAT_DIGEST e.2) e.1) s

theorem putDigest_cons (e : Word × Nat) (l : List (Word × Nat)) :
    putDigest (e :: l) s = putDigest l (s.setWord (R.PAT_DIGEST e.2) e.1) := rfl

theorem word_putDigest_ne (l : List (Word × Nat)) {a : Nat} (h : ∀ e ∈ l, R.PAT_DIGEST e.2 ≠ a) :
    (putDigest l s).word a = s.word a := by
  induction l generalizing s with
  | nil => rfl
  | cons e l ih =>
    rw [putDigest_cons, ih _ fun x hx => h x (List.mem_cons_of_mem _ hx)]
    exact word_setWord_ne _ _ _ _ (h e List.mem_cons_self).symm

theorem word_putDigest {ks : List Nat} (hks : ks.Nodup) (ds : List Word) {e : Word × Nat} (he : e ∈ ds.zip ks) :
    (putDigest (ds.zip ks) s).word (R.PAT_DIGEST e.2) = e.1 := by
  induction ks generalizing ds s with
  | nil => simp at he
  | cons k ks ih =>
    obtain ⟨hk, hks⟩ := List.nodup_cons.1 hks
    cases ds with
    | nil => simp at he
    | cons d ds =>
      rw [List.zip_cons_cons, putDigest_cons]
      rcases List.mem_cons.1 he with rfl | he
      · rw [word_putDigest_ne]
        · exact word_setWord _ _ _
        · intro x hx heq
          have hsame : x.2 = k := by simp only [R.PAT_DIGEST] at heq; omega
          exact hk (hsame ▸ (List.of_mem_zip hx).2)
      · exact ih _ hks ds he

end

/-! ### Step 5 (R51) -/

section
variable (src : Source) (bs : List Byte) (s : State)

theorem syncSeal_cases : syncSeal bs s = s ∨ syncSeal bs s = addMirror (s.put R.PAT_STAT_SEAL 1) .seal := by
  unfold syncSeal
  split
  · exact .inr rfl
  · exact .inl rfl

theorem word_syncSeal {a : Nat} (ha : a ≠ R.PAT_STAT) : (syncSeal bs s).word a = s.word a := by
  rcases syncSeal_cases bs s with h | h <;> rw [h]
  rw [word_congr (addMirror_regs _ _), word_put_ne _ _ _ _ ha]

theorem get_syncSeal {f : Field} (hlo : f.lo + f.wd ≤ 32) (hf : f.addr ≠ R.PAT_STAT ∨ f.lo + f.wd ≤ 22 ∨ 24 ≤ f.lo) :
    (syncSeal bs s).get f = s.get f := by
  rcases syncSeal_cases bs s with h | h <;> rw [h]
  rw [get_addMirror, get_put_other _ _ _ _ hlo hf]

/-- Identity and source, before the seal is judged. -/
def identified (src : Source) (bs : List Byte) (s : State) : State :=
  let s1 := ((putDigest ((shaDigest (signedPart bs)).zip (List.range 8)) s).put R.PAT_IMGID_ID (leField bs 0x10 4)).put
    R.PAT_IMGVER_VER (leField bs 0x14 4)
  let other := src != .staging && sourceCode src != s.get R.PAT_STAT_ACTIVE
  ((s1.put R.PAT_STAT_SOURCE (sourceCode src)).flag R.PAT_STAT_FALLBACK other).flag R.MTR_STAT_CALDIRTY false

/-- The apply has ended, before LOADED sets. -/
def applyEnded (src : Source) (bs : List Byte) (s : State) : State :=
  (syncSeal bs (identified src bs s)).flag R.PAT_STAT_APPLYING false

/-- PAT_STAT of an apply that has ended. -/
def inForce (src : Source) (bs : List Byte) (s : State) : State := (applyEnded src bs s).flag R.PAT_STAT_LOADED true

theorem stepFive_def : stepFive src bs s = { inForce src bs s with
    pat := { (applyEnded src bs s).pat with mtr := mtrOf bs, safeVer := safeVerOf bs, checked := false } } := rfl

theorem word_with_pat (P : PatSt) (a : Nat) : ({ s with pat := P } : State).word a = s.word a := rfl

theorem word_inForce {a : Nat} (ha : a ≠ R.PAT_STAT) : (inForce src bs s).word a = (identified src bs s).word a := by
  rw [inForce, applyEnded, word_flag_ne _ _ _ _ ha, word_flag_ne _ _ _ _ ha, word_syncSeal _ _ ha]

theorem get_inForce {f : Field} (hf : f.addr ≠ R.PAT_STAT) : (inForce src bs s).get f = (identified src bs s).get f :=
  congrArg (bitsOf · f.lo f.wd) (word_inForce src bs s hf)

theorem source_identified : (identified src bs s).get R.PAT_STAT_SOURCE = sourceCode src := by
  simp only [identified]
  rw [get_flag_other _ _ _ _ (by decide) (by decide), get_flag_other _ _ _ _ (by decide) (by decide), get_put _ _ _ (by decide)]
  cases src <;> rfl

theorem caldirty_identified : (identified src bs s).get R.MTR_STAT_CALDIRTY = 0 := get_flag _ _ _ (by decide) rfl

theorem imgId_identified : (identified src bs s).get R.PAT_IMGID_ID = leField bs 0x10 4 := by
  simp only [identified]
  rw [get_flag_other _ _ _ _ (by decide) (by decide), get_flag_other _ _ _ _ (by decide) (by decide),
    get_put_other _ _ _ _ (by decide) (by decide), get_put_other _ _ _ _ (by decide) (by decide), get_put _ _ _ (by decide)]
  exact Nat.mod_eq_of_lt (leField_lt bs 0x10 4)

theorem imgVer_identified : (identified src bs s).get R.PAT_IMGVER_VER = leField bs 0x14 4 := by
  simp only [identified]
  rw [get_flag_other _ _ _ _ (by decide) (by decide), get_flag_other _ _ _ _ (by decide) (by decide),
    get_put_other _ _ _ _ (by decide) (by decide), get_put _ _ _ (by decide)]
  exact Nat.mod_eq_of_lt (leField_lt bs 0x14 4)

theorem digest_identified {e : Word × Nat} (he : e ∈ (shaDigest (signedPart bs)).zip (List.range 8)) :
    (identified src bs s).word (R.PAT_DIGEST e.2) = e.1 := by
  have hlt : e.2 < 8 := List.mem_range.1 (List.of_mem_zip he).2
  have hne : ∀ a ∈ [R.MTR_STAT, R.PAT_STAT, R.PAT_IMGVER, R.PAT_IMGID], R.PAT_DIGEST e.2 ≠ a := by
    simp only [List.forall_mem_cons, List.not_mem_nil, false_imp_iff, implies_true, and_true, R.PAT_DIGEST, R.MTR_STAT, R.PAT_STAT,
      R.PAT_IMGVER, R.PAT_IMGID]
    omega
  simp only [List.forall_mem_cons, List.not_mem_nil, false_imp_iff, implies_true, and_true] at hne
  obtain ⟨hmtr, hpat, hver, hid⟩ := hne
  simp only [identified]
  rw [word_flag_ne _ _ _ _ hmtr, word_flag_ne _ _ _ _ hpat, word_put_ne _ _ _ _ hpat, word_put_ne _ _ _ _ hver,
    word_put_ne _ _ _ _ hid]
  exact word_putDigest s List.nodup_range _ he

theorem get_stepFive (f : Field) : (stepFive src bs s).get f = (inForce src bs s).get f := by
  rw [stepFive_def, get_with_pat]

theorem word_stepFive (a : Nat) : (stepFive src bs s).word a = (inForce src bs s).word a := by
  rw [stepFive_def, word_with_pat]

theorem mtr_stepFive : (stepFive src bs s).pat.mtr = mtrOf bs := by rw [stepFive_def]

theorem safeVer_stepFive : (stepFive src bs s).pat.safeVer = safeVerOf bs := by rw [stepFive_def]

/-- What step 5 shows. -/
theorem stepFive_spec :
    let u := stepFive src bs s
    u.on R.PAT_STAT_LOADED = true ∧ u.on R.PAT_STAT_APPLYING = false ∧ u.get R.PAT_STAT_SOURCE = sourceCode src
      ∧ u.on R.MTR_STAT_CALDIRTY = false ∧ u.pat.mtr = mtrOf bs ∧ u.pat.safeVer = safeVerOf bs
      ∧ u.get R.PAT_IMGID_ID = leField bs 0x10 4 ∧ u.get R.PAT_IMGVER_VER = leField bs 0x14 4
      ∧ ∀ e ∈ (shaDigest (signedPart bs)).zip (List.range 8), u.word (R.PAT_DIGEST e.2) = e.1 := by
  refine ⟨?_, ?_, ?_, ?_, mtr_stepFive .., safeVer_stepFive .., ?_, ?_, fun e he => ?_⟩
  · rw [State.on, get_stepFive, inForce]
    exact on_flag _ _ _ (by decide) rfl
  · rw [State.on, get_stepFive, inForce, applyEnded, get_flag_other _ _ _ _ (by decide) (by decide)]
    exact on_flag _ _ _ (by decide) rfl
  · rw [get_stepFive, inForce, applyEnded, get_flag_other _ _ _ _ (by decide) (by decide), get_flag_other _ _ _ _ (by decide) (by decide),
      get_syncSeal _ _ (by decide) (by decide), source_identified]
  · rw [State.on, get_stepFive, get_inForce _ _ _ (by decide), caldirty_identified]
    rfl
  · rw [get_stepFive, get_inForce _ _ _ (by decide), imgId_identified]
  · rw [get_stepFive, get_inForce _ _ _ (by decide), imgVer_identified]
  · have hpat : R.PAT_DIGEST e.2 ≠ R.PAT_STAT := by simp only [R.PAT_DIGEST, R.PAT_STAT]; omega
    rw [word_stepFive, word_inForce _ _ _ hpat, digest_identified _ _ _ he]

end

/-! ### What an apply was for (Table 3.9, R61, R62) -/

section
variable {src : Source} {win : Nat} {s : State}

/-- PWR_BOOT_CAUSE of a start that awaits its confirmation. -/
def startShown (src : Source) (s : State) : State :=
  (s.flag R.PWR_BOOT_CAUSE_FALLBACK (s.pat.start == .tryOther)).put R.PWR_BOOT_CAUSE_SLOT (sourceCode src)

theorem applied_of_start (hwin : win ≠ 0) (h : s.pat.start = .tryActive ∨ s.pat.start = .tryOther) : applied src win s =
    setWork .idle { startShown src s with pat := { (startShown src s).pat with start := .await } } := by
  rw [applied, if_pos h]
  exact if_neg hwin

theorem applied_of_load (hwin : win ≠ 0) (h : s.pat.start = .none) (hlate : s.pat.late = false) : applied src win s =
    { workEnded s with pat := { (workEnded s).pat with loadWait := true } } := by
  rw [applied, if_neg (by simp [h])]
  simp only [hlate, Bool.false_eq_true, if_false, if_neg hwin, Bool.not_false]
  rfl

theorem applied_spec_start (hwin : win ≠ 0) (h : s.pat.start = .tryActive ∨ s.pat.start = .tryOther) :
    (applied src win s).pat = { s.pat with start := .await, work := .idle }
      ∧ (applied src win s).on R.PWR_BOOT_CAUSE_FALLBACK = (s.pat.start == .tryOther)
      ∧ (applied src win s).get R.PWR_BOOT_CAUSE_SLOT = sourceCode src ∧ (applied src win s).on R.PAT_STAT_BUSY = false := by
  rw [applied_of_start hwin h]
  refine ⟨?_, ?_, ?_, ?_⟩
  · simp only [setWork_pat, startShown, put_pat, flag_pat]
  · rw [on_setWork _ _ (by decide) (by decide) (by decide), on_with_pat, startShown, on_put_other _ _ _ _ (by decide) (by decide),
      on_flag _ _ _ (by decide) rfl]
  · rw [get_setWork _ _ (by decide) (by decide) (by decide), get_with_pat, startShown, get_put _ _ _ (by decide)]
    cases src <;> rfl
  · rw [busy_setWork]
    rfl

theorem applied_spec_load (hwin : win ≠ 0) (h : s.pat.start = .none) (hlate : s.pat.late = false) :
    (applied src win s).pat = { s.pat with work := .idle, loadWait := true }
      ∧ (applied src win s).on R.PAT_STAT_BUSY = false ∧ (applied src win s).on R.PAT_STAT_DONE = true := by
  rw [applied_of_load hwin h hlate]
  refine ⟨?_, ?_, ?_⟩
  · simp only [workEnded_pat]
  · rw [on_with_pat, busy_workEnded]
  · rw [on_with_pat, done_workEnded]

theorem exec_patApplyDone_of (hwork : s.pat.work = .apply src) (happly : s.on R.PAT_STAT_APPLYING = true)
    (hgroup : groupOn s = true) :
    exec .patApplyDone s = .next (applied src (leField (imageOf s src).bytes 0x0E 1) (finishApply src s)) := by
  simp only [exec, execPatApplyDone, hwork, happly, hgroup, Bool.and_self, if_true]

end

end Sys2Proof.Machine
end

section
/-!
PROOFS of the beginning of a start, and of the end of a confirm window.
-/
namespace Sys2Proof.Machine

/-! ### The beginning of a start (R60) -/

section
variable (s : State)

/-- What a start shows at CHECK. -/
def startBegun (s : State) : State :=
  ((((s.flag R.PWR_STAT_STARTING true).flag R.PWR_STAT_SFAIL false).flag R.PWR_BOOT_CAUSE_BASTING false).flag
    R.PWR_BOOT_CAUSE_FALLBACK false).put R.PWR_BOOT_CAUSE_SLOT 3

theorem beginStart_of_blank (hkey : fusesBlank (startBegun s) = true) :
    beginStart s = goBasting ((endStart (startBegun s)).put R.PWR_BOOT_CAUSE_CODE cKEY_UNSET) := if_pos hkey

/-- The active slot is to be verified. -/
def firstAttempt (s : State) : State :=
  setWork (.verifyStart (slotNamed (s.get R.PAT_STAT_ACTIVE))) { s with pat := { s.pat with start := .tryActive, openMark := true } }

theorem beginStart_of_key (hkey : fusesBlank (startBegun s) = false) (hmark : (startBegun s).pat.openMark = false)
    (hfails : (startBegun s).get R.PWR_BOOT_CAUSE_FAILS ≠ 3) : beginStart s = firstAttempt (startBegun s) := by
  unfold startBegun firstAttempt at *
  simp only [beginStart, hkey, hmark, hfails, if_false, Bool.false_eq_true]

@[simp] theorem startBegun_pat : (startBegun s).pat = s.pat := by simp only [startBegun, put_pat, flag_pat]
@[simp] theorem startBegun_pwr : (startBegun s).pwr = s.pwr := by simp only [startBegun, put_pwr, flag_pwr]
@[simp] theorem startBegun_mirrors : (startBegun s).mirrors = s.mirrors := by simp only [startBegun, put_mirrors, flag_mirrors]

theorem Managed.startBegun {as : List Nat} {s t : State} (h : Managed as s t) (hstat : R.PWR_STAT ∈ as)
    (hcause : R.PWR_BOOT_CAUSE ∈ as) : Managed as s (startBegun t) :=
  ((((h.flag _ _ hstat).flag _ _ hstat).flag _ _ hcause).flag _ _ hcause).put _ _ hcause

/-- Only PWR_STAT and the upper part of PWR_BOOT_CAUSE show the beginning of a start. -/
theorem get_startBegun {f : Field} (hlo : f.lo + f.wd ≤ 32) (hstat : f.addr ≠ R.PWR_STAT)
    (hcause : f.addr ≠ R.PWR_BOOT_CAUSE ∨ f.lo + f.wd ≤ 28) : (startBegun s).get f = s.get f := by
  have hbelow : ∀ k, 28 ≤ k → f.addr ≠ R.PWR_BOOT_CAUSE ∨ f.lo + f.wd ≤ k := fun k hk => hcause.imp_right (le_trans · hk)
  rw [startBegun, get_put_other _ _ _ _ hlo ((hbelow 28 (by decide)).imp_right .inl),
    get_flag_other _ _ _ _ hlo ((hbelow 30 (by decide)).imp_right .inl),
    get_flag_other _ _ _ _ hlo ((hbelow 31 (by decide)).imp_right .inl),
    get_flag_other _ _ _ _ hlo (.inl hstat), get_flag_other _ _ _ _ hlo (.inl hstat)]

theorem fusesBlank_startBegun : fusesBlank (startBegun s) = fusesBlank s := by
  have hset := get_startBegun s (f := R.IDN_STAT_KEYSET) (by decide) (by decide) (by decide)
  have hfail := get_startBegun s (f := R.IDN_STAT_KFAIL) (by decide) (by decide) (by decide)
  simp only [fusesBlank, State.on, hset, hfail]

theorem starting_startBegun : (startBegun s).on R.PWR_STAT_STARTING = true := by
  rw [startBegun, on_put_other _ _ _ _ (by decide) (by decide), on_flag_other _ _ _ _ (by decide) (by decide),
    on_flag_other _ _ _ _ (by decide) (by decide), on_flag_other _ _ _ _ (by decide) (by decide), on_flag _ _ _ (by decide) rfl]

theorem sfail_startBegun : (startBegun s).on R.PWR_STAT_SFAIL = false := by
  rw [startBegun, on_put_other _ _ _ _ (by decide) (by decide), on_flag_other _ _ _ _ (by decide) (by decide),
    on_flag_other _ _ _ _ (by decide) (by decide), on_flag _ _ _ (by decide) rfl]

theorem basting_startBegun : (startBegun s).on R.PWR_BOOT_CAUSE_BASTING = false := by
  rw [startBegun, on_put_other _ _ _ _ (by decide) (by decide), on_flag_other _ _ _ _ (by decide) (by decide),
    on_flag _ _ _ (by decide) rfl]

theorem fallback_startBegun : (startBegun s).on R.PWR_BOOT_CAUSE_FALLBACK = false := by
  rw [startBegun, on_put_other _ _ _ _ (by decide) (by decide), on_flag _ _ _ (by decide) rfl]

theorem slot_startBegun : (startBegun s).get R.PWR_BOOT_CAUSE_SLOT = 3 := get_put _ _ _ (by decide)

theorem firstAttempt_pat : (firstAttempt s).pat = { s.pat with
    start := .tryActive, openMark := true, work := .verifyStart (slotNamed (s.get R.PAT_STAT_ACTIVE)) } := by
  simp only [firstAttempt, setWork_pat]
theorem firstAttempt_pwr : (firstAttempt s).pwr = s.pwr := by simp only [firstAttempt, setWork_pwr]
theorem firstAttempt_mirrors : (firstAttempt s).mirrors = s.mirrors := by simp only [firstAttempt, setWork_mirrors]

theorem get_firstAttempt {f : Field} (hlo : f.lo + f.wd ≤ 32)
    (hf : f.addr ≠ R.PAT_STAT_BUSY.addr ∨ f.lo + f.wd ≤ R.PAT_STAT_BUSY.lo) (hi : f.addr ≠ R.IDN_STAT) :
    (firstAttempt s).get f = s.get f := by
  rw [firstAttempt, get_setWork _ _ hlo hf hi, get_with_pat]

theorem on_firstAttempt {f : Field} (hlo : f.lo + f.wd ≤ 32)
    (hf : f.addr ≠ R.PAT_STAT_BUSY.addr ∨ f.lo + f.wd ≤ R.PAT_STAT_BUSY.lo) (hi : f.addr ≠ R.IDN_STAT) :
    (firstAttempt s).on f = s.on f := congrArg (· == 1) (get_firstAttempt s hlo hf hi)

theorem busy_firstAttempt : (firstAttempt s).on R.PAT_STAT_BUSY = true := by
  rw [firstAttempt, busy_setWork]
  rfl

theorem Managed.firstAttempt {as : List Nat} {s t : State} (h : Managed as s t) (ha : R.PAT_STAT ∈ as) (hi : R.IDN_STAT ∈ as) :
    Managed as s (firstAttempt t) := (h.setPat _).setWork _ ha hi

end

/-- A start that is due, once it has been taken. -/
def startTaken (s : State) : State := { s with pwr := { s.pwr with startDue := false } }

theorem startTaken_pat (s : State) : (startTaken s).pat = s.pat := rfl
theorem get_startTaken (s : State) (f : Field) : (startTaken s).get f = s.get f := rfl

section
variable {s : State}

theorem exec_startBegin_of (hdue : s.pwr.startDue = true) (h1 : domOn s 1 = true) (h3 : domOn s 3 = true)
    (hrest : s.on R.PWR_STAT_RESTPEND = false) : exec .startBegin s = .next (beginStart (startTaken s)) := by
  simp only [exec, execStartBegin, hdue, h1, h3, hrest, and_self, if_true, startTaken]

/-- With the keys fused, a start begins by verifying the active slot. -/
theorem beginStart_spec (hkey : fusesBlank s = false) (hmark : s.pat.openMark = false) (hfails : s.get R.PWR_BOOT_CAUSE_FAILS ≠ 3) :
    let t := beginStart (startTaken s)
    RegsOutside [R.PWR_STAT, R.PWR_BOOT_CAUSE, R.PAT_STAT, R.IDN_STAT] s t
      ∧ t.on R.PWR_STAT_STARTING = true ∧ t.on R.PWR_STAT_SFAIL = false ∧ t.get R.PWR_BOOT_CAUSE_SLOT = 3
      ∧ t.on R.PWR_BOOT_CAUSE_BASTING = false ∧ t.on R.PWR_BOOT_CAUSE_FALLBACK = false ∧ t.on R.PAT_STAT_BUSY = true
      ∧ t.pat = { s.pat with
          start := .tryActive, openMark := true, work := .verifyStart (slotNamed (s.get R.PAT_STAT_ACTIVE)) }
      ∧ t = { s with regs := t.regs, pat := t.pat, idn := t.idn, pwr := { s.pwr with startDue := false } } := by
  intro t
  have ht : t = firstAttempt (startBegun (startTaken s)) := by
    refine beginStart_of_key _ ?_ ?_ ?_
    · rw [fusesBlank_startBegun]
      exact hkey
    · rw [startBegun_pat, startTaken_pat, hmark]
    · rw [get_startBegun _ (by decide) (by decide) (by decide), get_startTaken]
      exact hfails
  have hframe : Managed [R.PWR_STAT, R.PWR_BOOT_CAUSE, R.PAT_STAT, R.IDN_STAT] s t := by
    rw [ht]
    exact (((Managed.refl _ s).setPwr { s.pwr with startDue := false }).startBegun (by decide) (by decide)).firstAttempt
      (by decide) (by decide)
  refine ⟨hframe.regs, ?_, ?_, ?_, ?_, ?_, ?_, ?_, hframe.eq_of rfl ?_ ?_⟩
  · rw [ht, on_firstAttempt _ (by decide) (by decide) (by decide), starting_startBegun]
  · rw [ht, on_firstAttempt _ (by decide) (by decide) (by decide), sfail_startBegun]
  · rw [ht, get_firstAttempt _ (by decide) (by decide) (by decide), slot_startBegun]
  · rw [ht, on_firstAttempt _ (by decide) (by decide) (by decide), basting_startBegun]
  · rw [ht, on_firstAttempt _ (by decide) (by decide) (by decide), fallback_startBegun]
  · rw [ht, busy_firstAttempt]
  · rw [ht, firstAttempt_pat, startBegun_pat, get_startBegun _ (by decide) (by decide) (by decide), startTaken_pat, get_startTaken]
  · rw [ht, firstAttempt_pwr, startBegun_pwr]
    rfl
  · rw [ht, firstAttempt_mirrors, startBegun_mirrors]
    rfl

/-- With the fuses blank, a start goes to BASTING with KEY_UNSET. -/
theorem beginStart_blank_spec (hkey : fusesBlank s = true) (hgroup : groupOn s = false) (hmode : mode s ≠ mDISCHARGE) :
    let t := beginStart (startTaken s)
    mode t = mBASTING ∧ t.get R.PWR_BOOT_CAUSE_CODE = 0x16 ∧ t.on R.PWR_BOOT_CAUSE_BASTING = true
      ∧ t.on R.PWR_STAT_STARTING = false ∧ t.pat = { s.pat with start := .none, openMark := false } := by
  intro t
  have ht : t = goBasting ((endStart (startBegun (startTaken s))).put R.PWR_BOOT_CAUSE_CODE cKEY_UNSET) := by
    refine beginStart_of_blank _ ?_
    rw [fusesBlank_startBegun]
    exact hkey
  have hm : mode ((endStart (startBegun (startTaken s))).put R.PWR_BOOT_CAUSE_CODE cKEY_UNSET) = mode s := by
    rw [mode, get_put_other _ _ _ _ (by decide) (by decide), get_endStart _ (by decide) (by decide),
      get_startBegun _ (by decide) (by decide) (by decide), get_startTaken, mode]
  have hdom : ((endStart (startBegun (startTaken s))).put R.PWR_BOOT_CAUSE_CODE cKEY_UNSET).get R.PWR_DOM_ON = s.get R.PWR_DOM_ON := by
    rw [get_put_other _ _ _ _ (by decide) (by decide), get_endStart _ (by decide) (by decide),
      get_startBegun _ (by decide) (by decide) (by decide), get_startTaken]
  refine ⟨?_, ?_, ?_, ?_, ?_⟩
  · rw [ht]
    exact mode_goBasting_of_off (by rwa [hm]) ((congrArg (tb · 5) hdom).trans hgroup)
  · rw [ht, get_goBasting _ (by decide) (by decide) (by decide) (by decide) (by decide), get_put _ _ _ (by decide)]
    rfl
  · rw [ht, basting_goBasting]
  · rw [ht, on_goBasting _ (by decide) (by decide) (by decide) (by decide) (by decide), on_put_other _ _ _ _ (by decide) (by decide),
      starting_endStart]
  · rw [ht, goBasting_pat, put_pat, endStart_pat, startBegun_pat, startTaken_pat]

end

/-! ### The end of a confirm window (R62, R307) -/

/-- No Pattern is in force. -/
def Unloaded (u : State) : Prop :=
  u.on R.PAT_STAT_LOADED = false ∧ u.on R.PAT_STAT_CONFIRMED = false ∧ u.get R.PAT_STAT_SOURCE = 3

section
variable (s : State)

/-- A host load whose window ran out, undone. -/
def loadUndone (s : State) : State := unload { s with pat := { s.pat with loadWait := false } }

/-- Outside BASTING the timeout shows in CODE. -/
def expired (s : State) : State := (loadUndone s).put R.PWR_BOOT_CAUSE_CODE cCONFIRM_TIMEOUT

/-- The start that the expiry owes waits for the work in progress. -/
def owed (s : State) : State := { expired s with pat := { (expired s).pat with late := true } }

@[simp] theorem loadUndone_pat : (loadUndone s).pat = { s.pat with loadWait := false } := by simp only [loadUndone, unload_pat]
@[simp] theorem loadUndone_pwr : (loadUndone s).pwr = s.pwr := by simp only [loadUndone, unload_pwr]

theorem get_loadUndone {f : Field} (hf : f.addr ∈ managerRegs) (hstat : f.addr ≠ R.PAT_STAT) : (loadUndone s).get f = s.get f := by
  rw [loadUndone, get_unload _ hf hstat, get_with_pat]

theorem mode_loadUndone : mode (loadUndone s) = mode s := get_loadUndone s (by decide) (by decide)

theorem groupOn_loadUndone : groupOn (loadUndone s) = groupOn s :=
  congrArg (tb · 5) (get_loadUndone s (f := R.PWR_DOM_ON) (by decide) (by decide))

theorem inBasting_loadUndone : inBasting (loadUndone s) = inBasting s := by
  simp only [inBasting, mode_loadUndone, loadUndone_pwr]

theorem unloaded_loadUndone : Unloaded (loadUndone s) := ⟨loaded_unload _, confirmed_unload _, source_unload _⟩

variable {s} in
/-- What leaves these fields of PAT_STAT leaves a Pattern out of force. -/
theorem Unloaded.of_get {t : State} (h : Unloaded s) (hget : ∀ f ∈ [R.PAT_STAT_LOADED, R.PAT_STAT_CONFIRMED, R.PAT_STAT_SOURCE],
    t.get f = s.get f) : Unloaded t := by
  simp only [List.forall_mem_cons, List.not_mem_nil, false_imp_iff, implies_true, and_true] at hget
  obtain ⟨hloaded, hconf, hsource⟩ := hget
  simpa only [Unloaded, State.on, hloaded, hconf, hsource] using h

theorem unloaded_expired : Unloaded (expired s) := (unloaded_loadUndone s).of_get fun f hf => by
  have haddr : f.addr = R.PAT_STAT := by revert f; decide
  rw [expired, get_put_ne _ _ _ _ (by rw [haddr]; decide)]

theorem code_expired : (expired s).get R.PWR_BOOT_CAUSE_CODE = 0x13 := get_put _ _ _ (by decide)

@[simp] theorem expired_pat : (expired s).pat = { s.pat with loadWait := false } := by simp only [expired, put_pat, loadUndone_pat]

@[simp] theorem owed_pat : (owed s).pat = { s.pat with loadWait := false, late := true } := by simp only [owed, expired_pat]

theorem get_owed (f : Field) : (owed s).get f = (expired s).get f := by rw [owed, get_with_pat]

theorem unloaded_owed : Unloaded (owed s) := (unloaded_expired s).of_get fun f _ => get_owed s f

theorem code_owed : (owed s).get R.PWR_BOOT_CAUSE_CODE = 0x13 := by rw [get_owed, code_expired]

variable {s}

theorem exec_confirmWinExpire_of_load (h : s.pat.loadWait = true) : exec .confirmWinExpire s = .next (syncFabric (loadExpired s)) := by
  simp only [exec, execConfirmWinExpire, h, if_true]

theorem exec_confirmWinExpire_of_await (hload : s.pat.loadWait = false) (h : s.pat.start = .await) :
    exec .confirmWinExpire s = .next (syncFabric (startFailed cCONFIRM_TIMEOUT s)) := by
  simp only [exec, execConfirmWinExpire, hload, h, if_true, if_false, Bool.false_eq_true]

theorem loadExpired_of_basting (h : inBasting s = true) : loadExpired s =
    if mode (loadUndone s) == mBASTING && groupOn (loadUndone s) && (loadUndone s).pwr.downTo.isNone
    then beginPowerDown mBASTING (loadUndone s) else loadUndone s :=
  if_pos ((inBasting_loadUndone s).trans h)

theorem loadExpired_of_idle (hb : inBasting s = false) (hwork : s.pat.work = .idle) :
    loadExpired s = startAfterExpiry (expired s) := by
  have hbasting : inBasting (loadUndone s) = false := (inBasting_loadUndone s).trans hb
  have hidle : (expired s).pat.work = .idle := by rw [expired_pat, hwork]
  unfold expired loadUndone at *
  simp only [loadExpired, hbasting, hidle, if_false, Bool.false_eq_true]

theorem loadExpired_of_stream {len : Nat} (hb : inBasting s = false) (hwork : s.pat.work = .stream len) :
    loadExpired s = endWork (emptyStaging (owed s)) := by
  have hbasting : inBasting (loadUndone s) = false := (inBasting_loadUndone s).trans hb
  have hstream : (expired s).pat.work = .stream len := by rw [expired_pat, hwork]
  unfold owed expired loadUndone at *
  simp only [loadExpired, hbasting, hstream, if_false, Bool.false_eq_true]

theorem loadExpired_of_verifyOnly {src : Source} (hb : inBasting s = false) (hwork : s.pat.work = .verifyOnly src) :
    loadExpired s = endWork (emptyStaging (owed s)) := by
  have hbasting : inBasting (loadUndone s) = false := (inBasting_loadUndone s).trans hb
  have hverify : (expired s).pat.work = .verifyOnly src := by rw [expired_pat, hwork]
  unfold owed expired loadUndone at *
  simp only [loadExpired, hbasting, hverify, if_false, Bool.false_eq_true]

theorem loadExpired_of_long {src : Source} (hb : inBasting s = false) (hwork : s.pat.work = .verifyLoad src
    ∨ s.pat.work = .verifyStart src ∨ s.pat.work = .apply src ∨ s.pat.work = .commit src) : loadExpired s = owed s := by
  have hbasting : inBasting (loadUndone s) = false := (inBasting_loadUndone s).trans hb
  have hsame : s.pat.work = (expired s).pat.work := by rw [expired_pat]
  rw [hsame] at hwork
  clear hsame
  unfold owed expired loadUndone at *
  rcases hwork with hlong | hlong | hlong | hlong <;> simp only [loadExpired, hbasting, hlong, if_false, Bool.false_eq_true]

/-- The stream or verify-only run that the expiry ends as ABORT does. -/
def abandoned (s : State) : State := workEnded (emptyStaging (owed s))

theorem endWork_owed : endWork (emptyStaging (owed s)) = startAfterExpiry (abandoned s) := by
  rw [endWork_def, emptyStaging_pat, owed_pat, abandoned, if_pos rfl]

theorem get_abandoned {f : Field} (hlo : f.lo + f.wd ≤ 32) (hi : f.addr ≠ R.IDN_STAT)
    (hstat : f.addr ≠ R.PAT_STAT ∨ f.lo + f.wd ≤ 28 ∧ 21 ≤ f.lo ∨ f.lo = 29 ∧ f.wd = 1) : (abandoned s).get f = (expired s).get f := by
  have hbusy : f.addr ≠ R.PAT_STAT_BUSY.addr ∨ f.lo + f.wd ≤ R.PAT_STAT_BUSY.lo :=
    hstat.imp_right fun h => show f.lo + f.wd ≤ 31 by omega
  have hdone : f.addr ≠ R.PAT_STAT_DONE.addr ∨ f.lo + f.wd ≤ R.PAT_STAT_DONE.lo
      ∨ R.PAT_STAT_DONE.lo + R.PAT_STAT_DONE.wd ≤ f.lo :=
    hstat.imp_right fun h => .inr (show 20 + 1 ≤ f.lo by omega)
  have hstaged : f.addr ≠ R.PAT_STAT_STAGED.addr ∨ f.lo + f.wd ≤ R.PAT_STAT_STAGED.lo
      ∨ R.PAT_STAT_STAGED.lo + R.PAT_STAT_STAGED.wd ≤ f.lo :=
    hstat.imp_right fun h => h.imp (·.1) fun h => show 28 + 1 ≤ f.lo by omega
  rw [abandoned, get_workEnded _ hlo hbusy hdone hi, get_emptyStaging _ hlo hstaged, get_owed]

theorem abandoned_spec (s : State) : Unloaded (abandoned s) ∧ (abandoned s).get R.PWR_BOOT_CAUSE_CODE = 0x13
    ∧ (abandoned s).on R.PAT_STAT_BUSY = false ∧ (abandoned s).on R.PAT_STAT_DONE = true
    ∧ (abandoned s).on R.PAT_STAT_STAGED = false
    ∧ (abandoned s).pat = { s.pat with loadWait := false, late := true, work := .idle, staging := ⟨false, []⟩ } := by
  refine ⟨(unloaded_expired s).of_get ?_, ?_, busy_workEnded _, done_workEnded _, ?_, ?_⟩
  · simp only [List.forall_mem_cons, List.not_mem_nil, false_imp_iff, implies_true, and_true]
    exact ⟨get_abandoned (by decide) (by decide) (by decide), get_abandoned (by decide) (by decide) (by decide),
      get_abandoned (by decide) (by decide) (by decide)⟩
  · rw [get_abandoned (by decide) (by decide) (by decide), code_expired]
  · rw [abandoned, on_workEnded _ (by decide) (by decide) (by decide) (by decide), staged_emptyStaging]
  · rw [abandoned, workEnded_pat, emptyStaging_pat, owed_pat]

/-- In BASTING the group powers down, unless it is off or a power-down runs (R307). -/
theorem loadExpired_basting_spec (hmode : mode s = mBASTING) :
    Unloaded (loadExpired s) ∧ (loadExpired s).pat = { s.pat with loadWait := false }
      ∧ (groupOn s = true → s.pwr.downTo = none → (loadExpired s).pwr.downTo = some mBASTING)
      ∧ (groupOn s = false ∨ s.pwr.downTo ≠ none → (loadExpired s).pwr = s.pwr) := by
  rw [loadExpired_of_basting (by simp [inBasting, hmode]), mode_loadUndone, groupOn_loadUndone, loadUndone_pwr, hmode]
  split
  · next hcond =>
    simp only [beq_self_eq_true, Bool.true_and, Bool.and_eq_true, Option.isNone_iff_eq_none] at hcond
    refine ⟨(unloaded_loadUndone s).of_get fun f hf => ?_, ?_, fun _ _ => ?_, fun h => ?_⟩
    · have haddr : f.addr = R.PAT_STAT := by revert f; decide
      exact get_beginPowerDown _ _ (by rw [haddr]; decide) (by rw [haddr]; decide)
    · rw [beginPowerDown_pat, loadUndone_pat]
    · rw [beginPowerDown_pwr]
    · exact absurd h (by simp [hcond.1, hcond.2])
  · next hcond =>
    refine ⟨unloaded_loadUndone s, loadUndone_pat s, fun hgroup hdown => absurd (by simp [hgroup, hdown]) hcond, fun _ => loadUndone_pwr s⟩

/-- In a discharge that began in BASTING the group waits for the discharge (R307). -/
theorem loadExpired_of_discharge (hmode : mode s = mDISCHARGE) (hfrom : s.pwr.disFrom = mBASTING) : loadExpired s = loadUndone s := by
  rw [loadExpired_of_basting (by simp [inBasting, hmode, hfrom]), mode_loadUndone, hmode]
  exact if_neg (by simp [mDISCHARGE, mBASTING])

/-- A start whose window runs out has failed. -/
theorem startTimeout_spec (hloaded : s.on R.PAT_STAT_LOADED = true) (hfails : s.get R.PWR_BOOT_CAUSE_FAILS < 3) :
    let u := startFailed cCONFIRM_TIMEOUT s
    Unloaded u ∧ u.get R.PWR_BOOT_CAUSE_FAILS = s.get R.PWR_BOOT_CAUSE_FAILS + 1 ∧ u.get R.PWR_BOOT_CAUSE_CODE = 0x13
      ∧ u.on R.PWR_STAT_STARTING = false ∧ u.pat = { s.pat with start := .none, openMark := false }
      ∧ (s.get R.PWR_BOOT_CAUSE_FAILS = 2 → u.on R.PWR_BOOT_CAUSE_BASTING = true)
      ∧ (s.get R.PWR_BOOT_CAUSE_FAILS < 2 → mode u = mode s ∧ (mode s = mSAFEOFF → u.on R.PWR_STAT_SFAIL = true)) := by
  intro u
  obtain ⟨hconf, hsource⟩ := undone_failed s cCONFIRM_TIMEOUT hloaded
  have hout : Unloaded (failed cCONFIRM_TIMEOUT s) := ⟨loaded_failed _ _, hconf, hsource⟩
  refine ⟨hout.of_get ?_, ?_, ?_, ?_, startFailed_pat _ _, fun htwo => ?_, fun hlt => ?_⟩
  · simp only [List.forall_mem_cons, List.not_mem_nil, false_imp_iff, implies_true, and_true]
    exact ⟨get_startFailed _ _ (by decide) (by decide) (by decide) (by decide),
      get_startFailed _ _ (by decide) (by decide) (by decide) (by decide),
      get_startFailed _ _ (by decide) (by decide) (by decide) (by decide)⟩
  · rw [get_startFailed _ _ (by decide) (by decide) (by decide) (by decide), fails_failed _ _ hfails]
  · rw [get_startFailed _ _ (by decide) (by decide) (by decide) (by decide), code_failed _ _ (by decide)]
    rfl
  · rw [on_startFailed _ _ (by decide) (by decide) (by decide) (by decide), starting_failed]
  · have hu : u = goBasting (failed cCONFIRM_TIMEOUT s) := startFailed_of_two htwo
    rw [hu, basting_goBasting]
  · have hu : u = failStays (failed cCONFIRM_TIMEOUT s) := startFailed_of_lt hlt
    rw [hu, mode_failStays, mode_failed]
    exact ⟨rfl, fun hsafe => sfail_failStays _ (by rwa [mode_failed])⟩

end

/-- Settles O18: the end of an apply, of a confirm window, and the beginning of a start. -/
theorem patternStarts : Obligations.PatternStarts := by
  refine ⟨fun src s hwork happly hgroup => ?applyEnds, fun src win x hwin => ⟨applied_spec_start hwin, applied_spec_load hwin⟩,
    fun s => ⟨fun hload hb => ⟨fun hwork => ?idle, fun hwork => ?aborted, fun src hwork => ?long⟩, fun hload hmode => ?basting,
      fun hload hmode hfrom => ?discharge, fun hload hawait hloaded hfails => ?timeout⟩,
    fun s hdue h1 h3 hrest => ⟨fun hkey hmark hfails => ?begins, fun hset hkfail hgroup hmode => ?blank⟩⟩
  case applyEnds => exact ⟨_, exec_patApplyDone_of hwork happly hgroup, stepFive_spec src (imageOf s src).bytes _⟩
  case idle =>
    refine ⟨expired s, ?_, unloaded_expired s, code_expired s, expired_pat s⟩
    rw [exec_confirmWinExpire_of_load hload, loadExpired_of_idle hb hwork]
  case aborted =>
    refine ⟨abandoned s, ?_, abandoned_spec s⟩
    rw [exec_confirmWinExpire_of_load hload, ← endWork_owed]
    rcases hwork with ⟨len, hwork⟩ | ⟨src, hwork⟩
    · rw [loadExpired_of_stream hb hwork]
    · rw [loadExpired_of_verifyOnly hb hwork]
  case long =>
    refine ⟨owed s, ?_, unloaded_owed s, code_owed s, owed_pat s⟩
    rw [exec_confirmWinExpire_of_load hload, loadExpired_of_long hb hwork]
  case basting => exact ⟨_, exec_confirmWinExpire_of_load hload, loadExpired_basting_spec hmode⟩
  case discharge =>
    refine ⟨loadUndone s, ?_, unloaded_loadUndone s, loadUndone_pat s, loadUndone_pwr s, (mode_loadUndone s).trans hmode⟩
    rw [exec_confirmWinExpire_of_load hload, loadExpired_of_discharge hmode hfrom]
  case timeout => exact ⟨_, exec_confirmWinExpire_of_await hload hawait, startTimeout_spec hloaded hfails⟩
  case begins =>
    have hfused : fusesBlank s = false := by rcases hkey with h | h <;> simp [fusesBlank, h]
    exact ⟨_, exec_startBegin_of hdue h1 h3 hrest, beginStart_spec hfused hmark hfails⟩
  case blank =>
    exact ⟨_, exec_startBegin_of hdue h1 h3 hrest, beginStart_blank_spec (by simp [fusesBlank, hset, hkfail]) hgroup hmode⟩

end Sys2Proof.Machine
end

section
/-!
PROOFS of what an occurrence that takes T4 leaves to the managers: holds, records and the log touch none of their state, and a
T4 under the set latch enters DISCHARGE.
-/
namespace Sys2Proof.Machine

section
variable (s : State)

/-! ### Holds (R250, R267) -/

theorem managers_driveOff (n : Nat) : managers (driveOff n s) = managers s :=
  driveOff_keeps managers n s (fun _ _ => rfl) fun _ _ => rfl

theorem managers_putSymbol (n c : Nat) : managers (putSymbol n c s) = managers s := by
  have hoff : ∀ x, managers (hearOff n x) = managers x := fun x => by
    unfold hearOff
    refine keeps_ite managers rfl ?_
    split <;> rfl
  exact keeps_ite managers (hoff _) (keeps_ite managers rfl rfl)

theorem managers_syncCmd (n : Nat) : managers (syncCmd n s) = managers s := keeps_ite managers rfl (managers_putSymbol s n _)

theorem managers_mustWait (n : Nat) : managers (mustWait n s) = managers s :=
  (managers_syncCmd _ n).trans (keeps_ite managers rfl rfl)

theorem managers_setLink (n : Nat) (l : LinkEnd) : managers (setLink s n l) = managers s := rfl

theorem managers_syncHold (n : Nat) : managers (syncHold n s) = managers s := by
  unfold syncHold
  refine keeps_ite managers ?_ (keeps_ite managers ?_ (keeps_ite managers ?_ rfl))
  · rw [managers_driveOff, managers_queueFrame, managers_setLink]
  · exact (managers_mustWait _ n).trans (keeps_ite managers (managers_setLink s n _)
      ((managers_queueFrame _ n _ _ _).trans (managers_setLink s n _)))
  · exact managers_setLink s n _

theorem managers_syncStitch (n : Nat) : managers (syncStitch n s) = managers s :=
  (managers_syncCmd _ n).trans (managers_syncHold s n)

theorem managers_setCtxSt (c : Nat) (x : CtxSt) : managers (setCtxSt s c x) = managers s := rfl

theorem managers_setPltSt (c : Nat) (x : PltSt) : managers (setPltSt s c x) = managers s := rfl

theorem managers_settleDep (c : Nat) : managers (settleDep c s) = managers s := rfl

theorem managers_parkSync (c : Nat) : managers (parkSync c s) = managers s := by
  have hstat : R.CTX_STAT c ∉ managerRegs := notMem_managerRegs (by simp only [R.CTX_STAT]; omega)
  unfold parkSync
  extract_lets x park s1 s2
  have h1 : managers s1 = managers s := by
    unfold s1
    split
    · exact keeps_ite managers (managers_setCtxSt s c _) rfl
    · exact keeps_ite managers ((managers_settleDep _ c).trans (managers_setCtxSt s c _)) rfl
    · exact keeps_ite managers rfl (managers_setCtxSt s c _)
    · rfl
    · rfl
  exact (managers_flag _ _ hstat).trans (keeps_ite managers ((managers_setPltSt s1 c _).trans h1) h1)

theorem managers_syncContext (c : Nat) : managers (syncContext c s) = managers s := by
  have hstat : R.CTX_STAT c ∉ managerRegs := notMem_managerRegs (by simp only [R.CTX_STAT]; omega)
  exact keeps_ite managers rfl ((managers_parkSync _ c).trans (managers_flag s _ hstat))

theorem managers_refreshCap (n : Nat) : managers (refreshCap n s) = managers s := by
  have hcap : R.SEAM_CAP n ∉ managerRegs := notMem_managerRegs (by simp only [R.SEAM_CAP]; omega)
  have hstate : R.SEAM_STATE n ∉ managerRegs := notMem_managerRegs (by simp only [R.SEAM_STATE]; omega)
  unfold refreshCap
  refine keeps_ite managers ?_ rfl
  rw [managers_put _ _ hstate, managers_put _ _ hcap, managers_put _ _ hcap, managers_put _ _ hcap]

theorem managers_syncHeld : managers (syncHeld s) = managers s := by
  refine (forL_keeps managers _ _ _ fun n b => managers_refreshCap b n).trans
    ((forL_keeps managers _ _ _ fun c b => managers_syncContext b c).trans (forL_keeps managers _ _ _ fun n b => ?_))
  have hstate : R.SEAM_STATE n ∉ managerRegs := notMem_managerRegs (by simp only [R.SEAM_STATE]; omega)
  exact keeps_ite managers rfl (keeps_ite managers rfl (managers_flag b _ hstate))

theorem managers_syncHolds : managers (syncHolds s) = managers s :=
  (managers_syncHeld _).trans (forL_keeps managers _ _ _ fun n b => managers_syncStitch b n)

/-- With QPOL 0 a hold lets the queued writes be performed first. -/
theorem managers_holdQueue (h : Nat) (hq : s.on R.FLT_CFG_QPOL = false) : managers (holdQueue h s) = managers s := by
  rw [holdQueue, if_neg (by simp [hq])]
  rfl

/-! ### Records and the log (R258, R262) -/

/-- The fault manager's registers behind its switches lie apart from `managerRegs`. -/
theorem notMem_of_fault {a : Nat} (hge : 0x0C0008 ≤ a) (hlt : a < 0x0D0000) : a ∉ managerRegs := by
  intro hmem
  simp only [managerRegs, List.mem_cons, List.not_mem_nil, or_false, R.PAT_STAT, R.PWR_STAT, R.PWR_MODE, R.PWR_DOM,
    R.PWR_BOOT_CAUSE, R.SAF_STAT, R.SAF_LCAUSE, R.FLT_CFG] at hmem
  omega

theorem managers_incSat {f : Field} (hf : f.addr ∉ managerRegs) : managers (s.incSat f) = managers s := managers_put s _ hf

theorem managers_recordCause {c : Nat} (hc : c < 32) (sc detail tier : Nat) (shadowed : Bool) :
    managers (recordCause c sc detail tier shadowed s) = managers s := by
  have hregs : ∀ a ∈ [R.FLT_CRSTAT c, R.FLT_CRFIRST c, R.FLT_CRFSEQ c, R.FLT_CRFTIME c, R.FLT_CRLAST c, R.FLT_CRLSEQ c,
      R.FLT_CRLTIME c, R.FLT_CRSH c], a ∉ managerRegs := by
    simp only [List.forall_mem_cons, List.not_mem_nil, false_imp_iff, implies_true, and_true, R.FLT_CRSTAT, R.FLT_CRFIRST,
      R.FLT_CRFSEQ, R.FLT_CRFTIME, R.FLT_CRLAST, R.FLT_CRLSEQ, R.FLT_CRLTIME, R.FLT_CRSH]
    refine ⟨?_, ?_, ?_, ?_, ?_, ?_, ?_, ?_⟩ <;> exact notMem_of_fault (by omega) (by omega)
  simp only [List.forall_mem_cons, List.not_mem_nil, false_imp_iff, implies_true, and_true] at hregs
  obtain ⟨hstat, hfirst, hfseq, hftime, hlast, hlseq, hltime, hsh⟩ := hregs
  unfold recordCause
  refine keeps_ite managers (managers_incSat s hsh) ?_
  rw [managers_incSat _ hstat, managers_put _ _ hltime, managers_put _ _ hlseq, managers_put _ _ hlast, managers_put _ _ hlast,
    managers_put _ _ hlast]
  refine keeps_ite managers rfl ?_
  rw [managers_put _ _ hftime, managers_put _ _ hfseq, managers_put _ _ hfirst, managers_put _ _ hfirst, managers_put _ _ hfirst,
    managers_flag _ _ hstat]

theorem managers_logEvent (ty cls tier : Nat) (shadow esc : Bool) (scope detail rcnt escn : Nat) :
    managers (logEvent ty cls tier shadow esc scope detail rcnt escn s) = managers s := by
  unfold logEvent
  extract_lets q i s0 w2 w3 s1 s2
  have hi : i < 256 := Nat.mod_lt _ (by decide)
  have hlog : ∀ k < 4, R.FLT_LOG i k ∉ managerRegs := fun k hk =>
    notMem_of_fault (by simp only [R.FLT_LOG]; omega) (by simp only [R.FLT_LOG]; omega)
  have h0 : managers s0 = managers s := keeps_ite managers (managers_incSat s (by decide)) rfl
  have h2 : managers s2 = managers s := by
    rw [managers_put _ _ (by decide), managers_put _ _ (hlog 3 (by decide)), managers_put _ _ (hlog 2 (by decide)),
      managers_put _ _ (hlog 1 (by decide)), managers_put _ _ (hlog 0 (by decide)), h0]
  exact keeps_ite managers ((managers_addMirror s2 _).trans h2) h2

theorem managers_setDetector (sc : Nat) (d : Detector) : managers (setDetector s sc d) = managers s := rfl

theorem openShadow_pwr (c sc tier t : Nat) : (openShadow c sc tier t s).pwr = s.pwr := by
  unfold openShadow
  extract_lets len
  refine keeps_ite (·.pwr) rfl ?_
  extract_lets
  split <;> rfl

theorem recordCause_flt (c sc detail tier : Nat) (shadowed : Bool) : (recordCause c sc detail tier shadowed s).flt = s.flt := by
  unfold recordCause
  split
  · simp only [State.incSat, put_flt]
  · extract_lets q s1
    have h1 : s1.flt = s.flt := by unfold s1; split <;> simp only [put_flt, flag_flt]
    simp only [State.incSat, put_flt, h1]

theorem logEvent_flt (ty cls tier : Nat) (shadow esc : Bool) (scope detail rcnt escn : Nat) :
    (logEvent ty cls tier shadow esc scope detail rcnt escn s).flt = s.flt := by
  unfold logEvent
  extract_lets q i s0 w2 w3 s1 s2
  have h2 : s2.flt = s.flt := by
    have h0 : s0.flt = s.flt := by unfold s0; split <;> simp only [State.incSat, put_flt]
    simp only [s2, s1, put_flt, h0]
  split
  · rw [addMirror_flt, h2]
  · exact h2

end

/-! ### DISCHARGE (R303) -/

section
variable (s : State)

theorem wakeLate_askBleed (n : Nat) : (askBleed n s).pwr.wakeLate = s.pwr.wakeLate := by
  have hframe : ∀ x, (queueFrame n frBLEED 0 1 x).pwr = x.pwr := fun x => pwr_of_managers (managers_queueFrame x n _ _ _)
  unfold askBleed
  refine keeps_ite (·.pwr.wakeLate) (keeps_ite (·.pwr.wakeLate) ?_ rfl) rfl
  rw [hframe]
  rfl

/-- A wake that waits for the end of a power-down waits no more. -/
theorem wakeLate_enterDischarge : (enterDischarge s).pwr.wakeLate = none := by
  unfold enterDischarge
  extract_lets m b base old s1 s2 s3
  refine (forL_keeps (·.pwr.wakeLate) _ _ _ fun n x => wakeLate_askBleed x n).trans ?_
  have h2 : s2.pwr.wakeLate = none := by
    unfold s2 s1
    rw [put_pwr, flag_pwr]
  exact keeps_ite (·.pwr.wakeLate) ((congrArg (·.wakeLate) (syncBusy_pwr s2)).trans h2)
    ((congrArg (·.wakeLate) (switchGroupOn_pwr s2)).trans h2)

theorem wakeLate_goBasting : (goBasting s).pwr.wakeLate = s.pwr.wakeLate := by
  refine goBasting_cases (fun t => t.pwr.wakeLate = s.pwr.wakeLate) (fun _ => ?_) (fun _ _ => ?_) (fun _ _ => ?_)
  · simp only [flag_pwr]
  · simp only [beginPowerDown_pwr, flag_pwr]
  · simp only [syncBusy_pwr, setMode_pwr, flag_pwr]

theorem wakeLate_failStays : (failStays s).pwr.wakeLate = s.pwr.wakeLate := by
  unfold failStays
  split
  · rw [flag_pwr]
  · split <;> rfl

theorem wakeLate_startFailed (c : Nat) : (startFailed c s).pwr.wakeLate = s.pwr.wakeLate := by
  rw [startFailed_def]
  split
  · rw [wakeLate_failStays, failed_pwr]
  · rw [wakeLate_goBasting, failed_pwr]

/-- PD1 is on, the latch is set on causes other than T4 and holds no DISREQ, no discharge runs, and holds let queued writes
be performed: T4 enters DISCHARGE. -/
structure DischargesOnT4 (s : State) : Prop where
  latch : s.on R.SAF_STAT_LATCH = true
  cause : tb (s.get R.SAF_LCAUSE_CAUSE) 8 = false
  wanted : tb ((s.get R.SAF_LCAUSE_CAUSE + 2 ^ 8) % 2 ^ R.SAF_LCAUSE_CAUSE.wd) 8 = true
  disreq : s.on R.SAF_STAT_DISREQ = false
  mode : mode s ≠ mDISCHARGE
  pd1 : domOn s 1 = true
  qpol : s.on R.FLT_CFG_QPOL = false

namespace DischargesOnT4
variable {s}

theorem of_managers {t : State} (h : DischargesOnT4 s) (e : managers t = managers s) : DischargesOnT4 t where
  latch := (on_of_managers e (by decide)).trans h.latch
  cause := (congrArg (tb · 8) (get_of_managers e (f := R.SAF_LCAUSE_CAUSE) (by decide))).trans h.cause
  wanted := by rw [get_of_managers e (by decide)]; exact h.wanted
  disreq := (on_of_managers e (by decide)).trans h.disreq
  mode := by rw [Machine.mode, get_of_managers e (by decide)]; exact h.mode
  pd1 := (congrArg (tb · 1) (get_of_managers e (f := R.PWR_DOM_ON) (by decide))).trans h.pd1
  qpol := (on_of_managers e (by decide)).trans h.qpol

/-- T4 shows in SAF_STAT. -/
theorem shown (h : DischargesOnT4 s) : DischargesOnT4 (s.flag R.SAF_STAT_T4 true) where
  latch := (on_flag_other _ _ _ _ (by decide) (by decide)).trans h.latch
  cause := by rw [get_flag_other _ _ _ _ (by decide) (by decide)]; exact h.cause
  wanted := by rw [get_flag_other _ _ _ _ (by decide) (by decide)]; exact h.wanted
  disreq := (on_flag_other _ _ _ _ (by decide) (by decide)).trans h.disreq
  mode := by rw [Machine.mode, get_flag_other _ _ _ _ (by decide) (by decide)]; exact h.mode
  pd1 := by rw [domOn, get_flag_other _ _ _ _ (by decide) (by decide)]; exact h.pd1
  qpol := (on_flag_other _ _ _ _ (by decide) (by decide)).trans h.qpol

theorem wakeLate_hemDemand (h : DischargesOnT4 s) : (hemDemand 8 s).pwr.wakeLate = none := by
  have hlatch : (s.put R.SAF_LCAUSE_CAUSE (s.get R.SAF_LCAUSE_CAUSE + 2 ^ 8)).on R.SAF_STAT_LATCH = true :=
    (on_put_other _ _ _ _ (by decide) (by decide)).trans h.latch
  have hcause : tb ((s.put R.SAF_LCAUSE_CAUSE (s.get R.SAF_LCAUSE_CAUSE + 2 ^ 8)).get R.SAF_LCAUSE_CAUSE) 8 = true := by
    rw [get_put _ _ _ (by decide)]
    exact h.wanted
  have hwant : disreqWanted (s.put R.SAF_LCAUSE_CAUSE (s.get R.SAF_LCAUSE_CAUSE + 2 ^ 8)) = true := by
    simp only [disreqWanted, hlatch, hcause, Bool.true_or, Bool.and_self, Bool.or_true]
  have hrises : (!(s.put R.SAF_LCAUSE_CAUSE (s.get R.SAF_LCAUSE_CAUSE + 2 ^ 8)).on R.SAF_STAT_DISREQ) = true := by
    rw [on_put_other _ _ _ _ (by decide) (by decide), h.disreq]
    rfl
  have hmode : (Machine.mode (s.put R.SAF_LCAUSE_CAUSE (s.get R.SAF_LCAUSE_CAUSE + 2 ^ 8)) != mDISCHARGE) = true := by
    rw [Machine.mode, get_put_other _ _ _ _ (by decide) (by decide)]
    exact bne_iff_ne.2 h.mode
  have hpd1 : domOn (s.put R.SAF_LCAUSE_CAUSE (s.get R.SAF_LCAUSE_CAUSE + 2 ^ 8)) 1 = true := by
    rw [domOn, get_put_other _ _ _ _ (by decide) (by decide)]
    exact h.pd1
  rw [hemDemand, if_pos h.latch]
  simp only [h.cause, Bool.false_eq_true, if_false, syncDisreq, hwant, hrises, hmode, hpd1, Bool.and_self, if_true]
  exact wakeLate_enterDischarge _

end DischargesOnT4

/-! ### The occurrence (R247, R252) -/

theorem govern_of_unlatched (sc : Nat) (d : Detector) (h : d.latched = false) : govern sc d s = setDetector s sc d := by
  unfold govern
  exact if_neg (by simp [h])

variable {s}

theorem wakeLate_applyReaction {c sc t : Nat} (hlatched : (detector s sc).latched = false) (h : DischargesOnT4 s) :
    (applyReaction c sc 4 t false s).pwr.wakeLate = none := by
  unfold applyReaction
  extract_lets d acts reach d1 s1 s2 s4 s5
  have hd1 : d1.latched = false := by
    unfold d1
    split <;> exact hlatched
  have hacts : acts = true := rfl
  have h1 : managers s1 = managers s := by
    unfold s1
    rw [govern_of_unlatched _ _ _ (by simp only [d, hlatched, Bool.or_false]), managers_setDetector]
  clear_value s1
  have h2 : managers s2 = managers s :=
    keeps_ite managers ((managers_holdQueue s1 _ (h.of_managers h1).qpol).trans h1) h1
  clear_value s2
  have h4 : DischargesOnT4 s4 := h.of_managers ((managers_syncHolds s2).trans h2)
  clear_value s4
  have h5 : s5.pwr.wakeLate = none := h4.shown.wakeLate_hemDemand
  clear_value s5
  rw [if_pos hacts, if_pos rfl]
  split
  · rw [wakeLate_startFailed, h5]
  · exact h5

/-- An occurrence outside every shadow whose class takes T4 enters DISCHARGE. -/
theorem wakeLate_occurOnce {c sc detail : Nat} (hc : c < 32) (hshadows : s.flt.shadows = [])
    (hlatched : (readyDetector s c (occTick s false) (detector s sc)).latched = false)
    (htier : takenTier s sc (mappedTier s c (readyDetector s c (occTick s false) (detector s sc))) false = 4) (h : DischargesOnT4 s) :
    (occurOnce false none c sc detail s).pwr.wakeLate = none := by
  unfold occurOnce
  extract_lets t d shadowed mapped tier esc d1 s1 s2 s3 s4
  have hshadowed : shadowed = false := by simp only [shadowed, hshadows, List.any_nil, Bool.and_false]
  have htier4 : tier = 4 := by
    unfold tier
    rw [hshadowed]
    exact htier
  have hd1 : d1.latched = false := by
    unfold d1
    split <;> exact hlatched
  have hcnt : R.FLT_CNT ∉ managerRegs := by decide
  have h4 : managers s4 = managers s := by
    rw [managers_inc _ hcnt, managers_logEvent, managers_recordCause _ hc, managers_setDetector]
  have hflt : s4.flt = s1.flt := by
    simp only [s4, s3, s2, inc_flt, logEvent_flt, recordCause_flt]
  have hdet : (detector s4 sc).latched = false := by
    rw [detector, hflt]
    exact (congrArg Detector.latched (detector_setDetector s sc _)).trans hd1
  rw [if_neg (by simp [hshadowed]), openShadow_pwr, htier4]
  exact wakeLate_applyReaction hdet (h.of_managers h4)

/-- With PD1 on, outside a cycle and with no Pattern in force, a report is its occurrence at once. -/
theorem occur_eq_occurOnce (c sc detail : Nat) (hpd1 : domOn s 1 = true) (hopen : s.flt.opening = none)
    (hloaded : s.on R.PAT_STAT_LOADED = false) : occur c sc detail s = occurOnce false none c sc detail s := by
  simp [occur, raiseReport, hpd1, hopen, occurWith, hloaded]

end

end Sys2Proof.Machine
end

section
/-!
PROOFS of a wake that a power-down to WATCH keeps and then loses: the power-down itself raises T4, which enters DISCHARGE.
-/
namespace Sys2Proof.Machine

/-! ### The end of a power-down (R289) -/

section
variable (s : State)

theorem endTransitions_wake : (endTransitions s).pwr.wakeLate = s.pwr.wakeLate ∧ (endTransitions s).pwr.railWait = false := by
  rw [endTransitions, syncBusy_pwr]
  exact ⟨rfl, rfl⟩

theorem setDom_pwr (n : Nat) (b : Bool) : (setDom n b s).pwr = s.pwr := put_pwr ..

theorem syncClocks_pwr : (syncClocks s).pwr = s.pwr := by
  unfold syncClocks
  extract_lets any s1
  have h1 : s1.pwr = s.pwr := keeps_ite (·.pwr) rfl (by simp only [flag_pwr])
  exact keeps_ite (·.pwr) h1 ((flag_pwr ..).trans h1)

theorem patternOff_pwr : (patternOff s).pwr = s.pwr := by
  simp only [patternOff, syncClocks_pwr, put_pwr, keepRegs_pwr, setDom_pwr]

theorem hostOff_pwr : (hostOff s).pwr = s.pwr := by
  simp only [hostOff, syncClocks_pwr, keepRegs_pwr, setDom_pwr]

theorem hemPowerOff_pwr : (hemPowerOff s).pwr = s.pwr := by
  simp only [hemPowerOff, keepRegs_pwr, setDom_pwr, faultsAtPowerDown]

/-- The group is off, and the power-down ends. -/
def groupGone (s : State) : State := { groupOff s with pwr := { (groupOff s).pwr with downTo := none } }

/-- The mirror writes that remained have ended. -/
def mirrored (s : State) : State := forL (groupGone s).mirrors completeMirror (groupGone s)

/-- A wake that is no longer kept once the mirror writes have ended is not taken. -/
theorem railWait_finishPowerDown {m : Nat} (hm : m ≠ mBASTING) (h : (mirrored s).pwr.wakeLate = none) :
    (finishPowerDown m s).pwr.railWait = false := by
  have hdef : finishPowerDown m s = lateWake m (hemPowerOff (hostOff (patternOff (endTransitions
      ((setMode m (mirrored s)).flag R.PWR_STAT_STARTING false))))) := if_neg hm
  have hpwr : (hemPowerOff (hostOff (patternOff (endTransitions ((setMode m (mirrored s)).flag R.PWR_STAT_STARTING false))))).pwr
      = (endTransitions ((setMode m (mirrored s)).flag R.PWR_STAT_STARTING false)).pwr := by
    rw [hemPowerOff_pwr, hostOff_pwr, patternOff_pwr]
  obtain ⟨hlate, hrail⟩ := endTransitions_wake ((setMode m (mirrored s)).flag R.PWR_STAT_STARTING false)
  have hnone : (hemPowerOff (hostOff (patternOff (endTransitions
      ((setMode m (mirrored s)).flag R.PWR_STAT_STARTING false))))).pwr.wakeLate = none := by
    rw [hpwr, hlate, flag_pwr, setMode_pwr, h]
  rw [hdef, lateWake, hnone]
  simp only [hpwr, hrail]

theorem groupOff_mirrors : (groupOff s).mirrors = s.mirrors := by
  have hdoms : (forL [4, 5, 6, 7] (fun n a => setDom n false a) s).mirrors = s.mirrors :=
    forL_keeps (·.mirrors) _ _ _ fun n b => put_mirrors ..
  have hclocks : ∀ x : State, (syncClocks x).mirrors = x.mirrors := fun x => by
    unfold syncClocks
    extract_lets any s1
    have h1 : s1.mirrors = x.mirrors := keeps_ite (·.mirrors) rfl (by simp only [flag_mirrors])
    exact keeps_ite (·.mirrors) h1 ((flag_mirrors ..).trans h1)
  simp only [groupOff, hclocks, keepRegs_mirrors, hdoms]

/-! ### The record counter's mirror (R218, R223) -/

/-- The slots of the drafts are PENDING. -/
def draftsPending (s : State) : State :=
  let s1 := forL s.mtr.drafts (fun d a =>
    ((setRingSlot a (d.1 % 16) ⟨1, d.2, []⟩).put R.MTR_RCNT_RCNT d.1).put R.MTR_RSTAT_NEWEST (d.1 % 16)) s
  syncRing { s1 with mtr := { s1.mtr with drafts := [] } }

/-- MTR-INT shows its cause. -/
def intShown (cause : Nat) (s : State) : State := (s.put R.MTR_INTC_CAUSE cause).inc R.MTR_INTC_COUNT

theorem countMirror_pwr : (countMirror s).pwr = s.pwr := keeps_ite (·.pwr) (inc_pwr ..) rfl

/-- The record counter's mirror has been written, and its slots wait for their signatures. -/
def recordsMirrored (s : State) : State :=
  draftsPending { s with mirrors := s.mirrors.erase .recordCount, mram := { s.mram with rcnt := s.mtr.rcnt } }

theorem completeMirror_recordCount (h : s.mirrors.contains .recordCount = true) :
    completeMirror .recordCount s = countMirror (askMeterSign (recordsMirrored s)) := if_pos h

/-- Is a slot PENDING that the signing engine has no request for? -/
def unsigned (s : State) : Bool :=
  decide ((s.idn.queue.filter (· == .meter)).length < ((List.range 16).filter (fun k => (ringSlot s k).st == 1)).length)

theorem askMeterSign_of_refused (h3 : domOn s 3 = true) (hn : unsigned s = true) (hsign : signerOk s = false) :
    askMeterSign s = occur kMTR meterScope 4 (intShown 4 s) := by
  unfold askMeterSign
  extract_lets asked n
  rw [if_pos ⟨h3, of_decide_eq_true hn⟩, if_neg (by simp [hsign])]
  rfl

end

/-! ### The state that loses its wake -/

/-- A power-down to WATCH, with WAKE_N kept as its wake and the mirror of a record still to be written. The device key fails
its check (KEYERR), MTR-INT is mapped to T4, and the latch of the reset is set. -/
def keptWake : State :=
  let off := ((State.reset.put R.PWR_DOM_ON 255).put R.PWR_MODE_MODE mSAFEOFF).flag R.IDN_STAT_KEYERR true
  { off.put (R.FLT_MAP_TIER kMTR) 4 with
    mirrors := [.recordCount]
    mtr := { MtrSt.zero with rcnt := 1, drafts := [(1, [])] }
    pwr := { PwrSt.zero with downTo := some mWATCH, wakeLate := some 0 } }

/-- MTR-INT of `keptWake`, as it is about to be raised. -/
def signRefused : State := intShown 4 (recordsMirrored (groupGone keptWake))

theorem refused_facts : domOn (recordsMirrored (groupGone keptWake)) 3 = true
    ∧ unsigned (recordsMirrored (groupGone keptWake)) = true ∧ signerOk (recordsMirrored (groupGone keptWake)) = false := by
  decide +kernel

theorem raised_facts : domOn signRefused 1 = true ∧ signRefused.flt.opening.isNone = true
    ∧ signRefused.on R.PAT_STAT_LOADED = false ∧ signRefused.flt.shadows.isEmpty = true
    ∧ (readyDetector signRefused kMTR (occTick signRefused false) (detector signRefused meterScope)).latched = false
    ∧ takenTier signRefused meterScope (mappedTier signRefused kMTR
        (readyDetector signRefused kMTR (occTick signRefused false) (detector signRefused meterScope))) false = 4 := by
  decide +kernel

theorem demand_facts : signRefused.on R.SAF_STAT_LATCH = true ∧ tb (signRefused.get R.SAF_LCAUSE_CAUSE) 8 = false
    ∧ tb ((signRefused.get R.SAF_LCAUSE_CAUSE + 2 ^ 8) % 2 ^ R.SAF_LCAUSE_CAUSE.wd) 8 = true
    ∧ signRefused.on R.SAF_STAT_DISREQ = false ∧ mode signRefused ≠ mDISCHARGE ∧ domOn signRefused 1 = true
    ∧ signRefused.on R.FLT_CFG_QPOL = false := by decide +kernel

theorem wakeLate_mirrored_keptWake : (mirrored keptWake).pwr.wakeLate = none := by
  have hmirrors : (groupGone keptWake).mirrors = [.recordCount] := groupOff_mirrors keptWake
  have hround : mirrored keptWake = completeMirror .recordCount (groupGone keptWake) := by
    rw [mirrored, hmirrors, forL, List.foldl_cons, List.foldl_nil]
  obtain ⟨hpd3, hunsigned, hsigner⟩ := refused_facts
  obtain ⟨hpd1, hopen, hloaded, hshadows, hlatched, htier⟩ := raised_facts
  obtain ⟨hlatch, hcause, hwanted, hdisreq, hmode, -, hqpol⟩ := demand_facts
  have hmtr : askMeterSign (recordsMirrored (groupGone keptWake)) = occur kMTR meterScope 4 signRefused :=
    askMeterSign_of_refused _ hpd3 hunsigned hsigner
  rw [hround, completeMirror_recordCount _ (by rw [hmirrors]; rfl), countMirror_pwr, hmtr,
    occur_eq_occurOnce kMTR meterScope 4 hpd1 (Option.isNone_iff_eq_none.1 hopen) hloaded]
  exact wakeLate_occurOnce (by decide) (List.isEmpty_iff.1 hshadows) hlatched htier
    ⟨hlatch, hcause, hwanted, hdisreq, hmode, hpd1, hqpol⟩

/-- Refutes O49: the wake that a power-down to WATCH keeps is lost where the power-down's last mirror write raises a T4, which
enters DISCHARGE and drops it; the power-down then ends in WATCH without taking it. -/
theorem not_powerDomains : ¬ Obligations.PowerDomains := by
  intro h
  obtain ⟨-, -, -, -, hdown, -⟩ := h
  obtain ⟨-, -, hends, -⟩ := hdown keptWake
  obtain ⟨t, hexec, -, -, -, htaken⟩ := hends mWATCH (.inl rfl) rfl
  obtain ⟨hrail, -⟩ := htaken 0 rfl rfl
  have ht : finishPowerDown mWATCH keptWake = t := Host.Outcome.next.inj hexec
  have hlost := railWait_finishPowerDown keptWake (by decide) wakeLate_mirrored_keptWake (m := mWATCH)
  rw [ht, hrail] at hlost
  exact Bool.noConfusion hlost

end Sys2Proof.Machine
end

section
/-!
PROOFS of the laws of a dielet: what each operation on one dielet makes of it, and that nothing else differs.
-/
namespace Sys2Proof.Machine

/-! ### One dielet changes -/

/-- Nothing differs but the dielet of stitch `n`, which reads `x`. -/
structure DieletTo (n : Nat) (x : Dielet) (s t : State) : Prop where
  frame : OnlyDielet n s t
  reads : dielet t n = x

/-- Command `i` leaves dielet `n` as `x`, and everything else as it was. -/
def Does (i : Instr) (n : Nat) (s : State) (x : Dielet) : Prop := ∃ t, exec i s = .next t ∧ OnlyDielet n s t ∧ dielet t n = x

/-- Hi-Z with cause `c`: gates at VNEG, the alert on its way (R82). -/
def Dielet.hiz (c : Nat) (d : Dielet) : Dielet :=
  { d.off with st := .hiz, cause := c, clamp := false, topup := false, verify := false, alerts := d.alerts ++ [c] }

/-- ASLEEP: gates off, mode and flags forgotten (R81, R87, Table 4.13). -/
def Dielet.sleeps (d : Dielet) : Dielet :=
  { d.off with st := .asleep, cause := 0, mode := none, clamp := false, topup := false, bstreq := false, otwarn := false,
               verify := false, hemoff := false, bad := 0, lost := false }

/-- GH begins to turn on where the bootstrap allows it (R76). -/
def Dielet.ghOn (bst : Nat) (d : Dielet) : Dielet :=
  if bstLow d bst then d.hiz 0x0B else { d with gh := true, incoming := none }

/-- One more alert on its way. -/
def Dielet.alert (c : Nat) (d : Dielet) : Dielet := { d with alerts := d.alerts ++ [c] }

/-- A dielet is read from the dielets alone. -/
theorem dielet_congr {s t : State} (h : t.dielets = s.dielets) (n : Nat) : dielet t n = dielet s n := by
  rw [dielet, dielet, h]

/-- A saturating counter reads one more, up to its last value. -/
theorem get_incSat (s : State) (f : Field) (h : f.lo + f.wd ≤ 32) : (s.incSat f).get f = min (2 ^ f.wd - 1) (s.get f + 1) :=
  (get_put s f _ h).trans (Nat.mod_eq_of_lt (lt_of_le_of_lt (min_le_left _ _) (Nat.sub_lt (by positivity) one_pos)))

/-- Where registers change and then a dielet, nothing else differs. -/
theorem OnlyDielet.frame_regs {n : Nat} {s t : State} {regs : List (Nat × Word)} (h : OnlyDielet n { s with regs := regs } t) :
    t = { s with regs := t.regs, dielets := t.dielets } := by
  have hregs : t.regs = regs := by rw [h.1]
  conv_lhs => rw [h.1]
  rw [hregs]

namespace DieletTo
variable {n : Nat} {x y : Dielet} {s t u : State}

theorem refl (n : Nat) (s : State) : DieletTo n (dielet s n) s s := ⟨⟨rfl, fun _ _ => rfl⟩, rfl⟩

theorem setDielet (h : DieletTo n x s t) (y : Dielet) : DieletTo n y s (setDielet t n y) := by
  obtain ⟨⟨hrest, hothers⟩, -⟩ := h
  refine ⟨⟨?_, fun m hm => (dielet_setDielet_ne t n m y hm).trans (hothers m hm)⟩, dielet_setDielet t n y⟩
  conv_lhs => rw [hrest]
  rfl

theorem onDielet (h : DieletTo n x s t) (f : Dielet → Dielet) : DieletTo n (f x) s (onDielet n f t) := by
  rw [Machine.onDielet, h.reads]
  exact h.setDielet _

theorem sendAlert (h : DieletTo n x s t) (c : Nat) : DieletTo n (x.alert c) s (sendAlert n c t) := h.onDielet (Dielet.alert c)

theorem gatesOff (h : DieletTo n x s t) : DieletTo n x.off s (gatesOff n t) := h.onDielet Dielet.off

theorem toHiz (h : DieletTo n x s t) (c : Nat) : DieletTo n (x.hiz c) s (toHiz n c t) :=
  (h.onDielet fun d => { d.off with st := .hiz, cause := c, clamp := false, topup := false, verify := false }).sendAlert c

theorem loseDownlink (h : DieletTo n x s t) : DieletTo n { x.hiz 0x0E with lost := true } s (loseDownlink n t) :=
  (h.toHiz 0x0E).onDielet fun d => { d with lost := true }

theorem sleepDielet (h : DieletTo n x s t) : DieletTo n x.sleeps s (sleepDielet n t) := h.onDielet Dielet.sleeps

theorem glStarts (h : DieletTo n x s t) : DieletTo n x.glOn s (glStarts n t) := h.onDielet Dielet.glOn

theorem pos {c : Prop} [Decidable c] (hc : c) (h : DieletTo n x s t) : DieletTo n x s (if c then t else u) :=
  (if_pos hc).symm ▸ h

theorem neg {c : Prop} [Decidable c] (hc : ¬c) (h : DieletTo n x s t) : DieletTo n x s (if c then u else t) :=
  (if_neg hc).symm ▸ h

theorem ite {c : Prop} [Decidable c] (ht : DieletTo n x s t) (hu : DieletTo n y s u) :
    DieletTo n (if c then x else y) s (if c then t else u) := by
  split <;> assumption

theorem ghStarts (h : DieletTo n x s t) (bst : Nat) : DieletTo n (x.ghOn bst) s (ghStarts n bst t) := by
  rw [Machine.ghStarts, h.reads]
  exact (h.toHiz 0x0B).ite (h.onDielet fun d => { d with gh := true, incoming := none })

/-- Another account of what the dielet reads. -/
theorem of_eq (h : DieletTo n x s t) (e : x = y) : DieletTo n y s t := e ▸ h

theorem does {i : Instr} (h : DieletTo n x s t) (hexec : exec i s = .next t) : Does i n s x := ⟨t, hexec, h.frame, h.reads⟩

/-- What an event at a stitch of the part does. -/
theorem does_at {i : Instr} (h : DieletTo n x s t) (hthere : stitchThere s n = true) (hexec : exec i s = atStitch n s t) :
    Does i n s x := h.does (by rw [hexec, atStitch, if_pos hthere])

end DieletTo

end Sys2Proof.Machine
end

section
/-!
PROOFS of the statement on gate symbols: what a symbol, and the end of a dead time, make of the gates of a dielet.
-/
namespace Sys2Proof.Machine

/-! ### LOW and HIGH at a dielet that drives -/

/-- A HIGH symbol at a dielet that drives (R68, R70, R76). -/
def Dielet.high (bst : Nat) (d : Dielet) : Dielet :=
  if d.gh ∨ d.incoming = some .high then d
  else if d.gl then { d with gl := false, incoming := some .high, outG := some .low, inG := some .high }
  else if d.incoming = some .low then { d with inG := some .high }.ghOn bst
  else { d with incoming := some .high, inG := some .high }

section
variable {d : Dielet} (h : drives d = true)
include h

theorem mode_of_drives : d.mode = none := by
  simp only [drives, Bool.and_eq_true, beq_iff_eq] at h
  exact h.1.2

/-- No bypass awaits the GL of a dielet that drives. -/
theorem glOn_of_drives : d.glOn = { d with gl := true, incoming := none, inG := some .low } := by
  simp [Dielet.glOn, mode_of_drives h]

theorem low_of_drives : d.low =
    if d.gl = true ∨ d.incoming = some .low then d
    else if d.gh = true then { d with gh := false, incoming := some .low, outG := some .high, inG := some .low }
    else if d.incoming = some .high then { d with gl := true, incoming := none, inG := some .low }
    else { d with incoming := some .low, inG := some .low } := by
  simp only [Dielet.low, glOn_of_drives h, h, Bool.not_true, Bool.false_or, Bool.or_eq_true, beq_iff_eq]

end

/-- With its bootstrap above BST_UV, GH starts. -/
theorem high_of_bst {d : Dielet} {bst : Nat} (h : bstLow d bst = false) : d.high bst =
    if d.gh = true ∨ d.incoming = some .high then d
    else if d.gl = true then { d with gl := false, incoming := some .high, outG := some .low, inG := some .high }
    else if d.incoming = some .low then { d with gh := true, incoming := none, inG := some .high }
    else { d with incoming := some .high, inG := some .high } := by
  have hstart : bstLow { d with inG := some .high } bst = false := h
  simp only [Dielet.high, Dielet.ghOn, hstart, Bool.false_eq_true, if_false]

/-! ### The commands -/

section
variable {n : Fin 96} {s : State} (hthere : stitchThere s n = true)
include hthere

theorem symbolOff_does (hst : (dielet s n).st = .run ∨ (dielet s n).st = .idle) (hmode : (dielet s n).mode = none) :
    Does (.symbolOff n) n s (dielet s n).off :=
  ((DieletTo.refl n s).gatesOff.pos ⟨hst, hmode⟩).does_at hthere rfl

theorem symbolInvalid_does (hst : (dielet s n).st = .run ∨ (dielet s n).st = .idle) (hmode : (dielet s n).mode = none) :
    Does (.symbolInvalid n) n s ((dielet s n).hiz 0x0D) :=
  (((DieletTo.refl n s).toHiz 0x0D).pos ⟨hst, hmode⟩).does_at hthere rfl

theorem symbolLow_does : Does (.symbolLow n) n s (dielet s n).low :=
  ((DieletTo.refl n s).onDielet Dielet.low).does_at hthere rfl

theorem symbolHigh_does (hdrives : drives (dielet s n) = true) (bst : BitVec 7) :
    Does (.symbolHigh n bst) n s ((dielet s n).high bst.toNat) := by
  have hself := DieletTo.refl n s
  have hstart := (hself.onDielet fun d => { d with inG := some .high }).ghStarts bst.toNat
  exact ((hself.ite ((hself.setDielet _).ite (hstart.ite (hself.setDielet _)))).pos hdrives).does_at hthere rfl

variable (hhem : (dielet s n).hemoff = false)
include hhem

theorem gateTurnOn_high_does (hin : (dielet s n).incoming = some .high) (bst : BitVec 7) :
    Does (.gateTurnOn n bst) n s ((dielet s n).ghOn bst.toNat) := by
  refine ((DieletTo.refl n s).ghStarts bst.toNat).does_at hthere ?_
  show atStitch n s _ = _
  rw [if_neg (by simp [hhem]), hin]

theorem gateTurnOn_low_does (hin : (dielet s n).incoming = some .low) (bst : BitVec 7) :
    Does (.gateTurnOn n bst) n s (dielet s n).glOn := by
  refine (DieletTo.refl n s).glStarts.does_at hthere ?_
  show atStitch n s _ = _
  rw [if_neg (by simp [hhem]), hin]

end

/-- Settles O19: each symbol, and the end of a dead time, is one operation on the dielet, which the state of its gates decides. -/
theorem gateSymbols : Obligations.GateSymbols := by
  unfold Obligations.GateSymbols
  intro n s hthere off hiz
  refine ⟨fun hst hmode => ⟨symbolOff_does hthere hst hmode, symbolInvalid_does hthere hst hmode⟩,
    fun hdrives => ⟨?_, fun bst hbst => ?_⟩, fun hhem hin bst => ?_, fun hhem hin bst => gateTurnOn_low_does hthere hhem hin bst⟩
  · rw [← low_of_drives hdrives]
    exact symbolLow_does hthere
  · rw [← high_of_bst hbst]
    exact symbolHigh_does hthere hdrives bst
  · have hstarts := gateTurnOn_high_does hthere hhem hin bst
    simp only [Dielet.ghOn, bstLow, decide_eq_true_eq] at hstarts
    exact hstarts

end Sys2Proof.Machine
end

section
/-!
PROOFS of the statement on the monitors of a dielet: the detectors of Table 4.8, the bootstrap, the clamp, and an edge that stays
incomplete.
-/
namespace Sys2Proof.Machine

/-! ### Detectors (R72, R80, R94) -/

/-- Can condition `c` of Table 4.8 be seen at dielet `d`: its gate on, its VNEG used? -/
def detects (d : Dielet) (c : DieletCause) : Bool :=
  match c with
  | .dsatHs => d.gh
  | .dsatLs => d.gl
  | .bstUv => d.gh
  | .vnegUv => dieletField d (R.STI_GATE_VNEG 0) != 0
  | _ => true

theorem detects_of {d : Dielet} {c : DieletCause} (hhigh : c = .dsatHs ∨ c = .bstUv → d.gh = true) (hlow : c = .dsatLs → d.gl = true)
    (hvneg : c = .vnegUv → dieletField d (R.STI_GATE_VNEG 0) ≠ 0) : detects d c = true := by
  cases c with
  | dsatHs => exact hhigh (.inl rfl)
  | bstUv => exact hhigh (.inr rfl)
  | dsatLs => exact hlow rfl
  | vnegUv => exact bne_iff_ne.2 (hvneg rfl)
  | bothOn | cov | gdvUv | ot => rfl

/-- What a condition makes of dielet `n`, seen there and not left to the clamp. -/
def detected (n : Nat) (c : DieletCause) (s : State) : State :=
  let d := dielet s n
  if d.mode.isSome then
    if c = .dsatLs then
      sendAlert n c.toCode (onDielet n (fun d => { d.off with st := .fault, cause := c.toCode, topup := false, verify := false }) s)
    else if c = .bothOn then toHiz n c.toCode s
    else sendAlert n c.toCode s
  else if d.st = .run ∨ d.st = .idle then toHiz n c.toCode s
  else if d.st = .hiz then sendAlert n c.toCode s
  else s

theorem awake_of_run_or_idle {d : Dielet} (h : d.st = .run ∨ d.st = .idle) : d.awake = true := by
  rcases h with h | h <;> simp only [Dielet.awake, h]

section
variable {n : Fin 96} {s : State} (hthere : stitchThere s n = true)
include hthere

theorem stitchDetector_does {c : DieletCause} {x : Dielet} (h : DieletTo n x s (detected n c s)) (hawake : (dielet s n).awake = true)
    (hseen : detects (dielet s n) c = true) (hclamp : c = .cov → (dielet s n).st ≠ .hiz) : Does (.stitchDetector n c) n s x := by
  refine (h.pos (c := ((dielet s n).awake && detects (dielet s n) c && !(c == .cov && (dielet s n).st == .hiz
    && clampable (dieletField (dielet s n) (R.STI_CFG_COVCLAMP 0)) (dielet s n).cause)) = true) (u := s) ?_).does_at hthere rfl
  have hleft : (c == .cov && (dielet s n).st == .hiz) = false := by
    rw [Bool.and_eq_false_imp, beq_iff_eq, beq_eq_false_iff_ne]
    exact hclamp
  simp only [hawake, hseen, hleft, Bool.false_and, Bool.not_false, Bool.and_true]

theorem stitchDetector_does_hiz {c : DieletCause} (hst : (dielet s n).st = .run ∨ (dielet s n).st = .idle)
    (hmode : (dielet s n).mode = none) (hseen : detects (dielet s n) c = true) :
    Does (.stitchDetector n c) n s ((dielet s n).hiz c.toCode) := by
  have hhiz := ((DieletTo.refl n s).toHiz c.toCode).pos (u := if (dielet s n).st = .hiz then sendAlert n c.toCode s else s) hst
  refine stitchDetector_does hthere (hhiz.neg (by simp [hmode])) (awake_of_run_or_idle hst) hseen fun _ h => ?_
  simp [h] at hst

section
variable (hawake : (dielet s n).awake = true) (hmode : (dielet s n).mode ≠ none)
include hawake hmode

theorem dsatLs_retired_does (hgl : (dielet s n).gl = true) :
    Does (.stitchDetector n .dsatLs) n s
      ({ (dielet s n).off with st := .fault, cause := 0x02, topup := false, verify := false }.alert 0x02) := by
  have hfault := ((DieletTo.refl n s).onDielet
    fun d => { d.off with st := .fault, cause := 0x02, topup := false, verify := false }).sendAlert 0x02
  exact stitchDetector_does hthere ((hfault.pos rfl).pos (Option.isSome_iff_ne_none.2 hmode)) hawake hgl nofun

theorem bothOn_retired_does : Does (.stitchDetector n .bothOn) n s ((dielet s n).hiz 0x03) :=
  stitchDetector_does hthere ((((DieletTo.refl n s).toHiz 0x03).pos rfl).neg nofun |>.pos (Option.isSome_iff_ne_none.2 hmode))
    hawake rfl nofun

theorem ot_retired_does : Does (.stitchDetector n .ot) n s ((dielet s n).alert 0x0C) :=
  stitchDetector_does hthere ((((DieletTo.refl n s).sendAlert 0x0C).neg nofun).neg nofun |>.pos (Option.isSome_iff_ne_none.2 hmode))
    hawake rfl nofun

end

/-! ### Handshake, downlink, bootstrap and clamp -/

theorem handshakeTimeout_does (hin : (dielet s n).incoming ≠ none) : Does (.handshakeTimeout n) n s ((dielet s n).hiz 0x07) :=
  (((DieletTo.refl n s).toHiz 0x07).neg hin).does_at hthere rfl

theorem downlinkLoss_does (hawake : (dielet s n).awake = true) :
    Does (.downlinkLoss n) n s { (dielet s n).hiz 0x0E with lost := true } :=
  ((DieletTo.refl n s).loseDownlink.pos hawake).does_at hthere rfl

theorem bstWarnCross_does (hgh : (dielet s n).gh = true) :
    Does (.bstWarnCross n) n s ({ dielet s n with bstreq := true }.alert 0x40) :=
  ((((DieletTo.refl n s).onDielet fun d => { d with bstreq := true }).sendAlert 0x40).pos hgh).does_at hthere rfl

theorem bstreqClear_does (hreq : (dielet s n).bstreq = true) (hgl : (dielet s n).gl = true) :
    Does (.bstreqClear n false) n s { dielet s n with bstreq := false } :=
  ((((DieletTo.refl n s).onDielet fun d => { d with bstreq := false }).neg Bool.false_ne_true).pos ⟨hreq, hgl⟩).does_at hthere rfl

theorem covClamp_does (hst : (dielet s n).st = .hiz) (hclamp : (dielet s n).clamp = false) (hgl : (dielet s n).gl = false)
    (hhem : (dielet s n).hemoff = false)
    (hallowed : clampable (dieletField (dielet s n) (R.STI_CFG_COVCLAMP 0)) (dielet s n).cause = true) :
    Does (.covClamp n) n s ({ dielet s n with gl := true, clamp := true, inG := some .low }.alert 0x04) :=
  ((((DieletTo.refl n s).setDielet _).sendAlert 0x04).pos ⟨hst, hallowed, hclamp, hgl, hhem⟩).does_at hthere rfl

/-! ### An edge that stays incomplete (R73) -/

theorem edgeIncomplete_counts (hawake : (dielet s n).awake = true) :
    exec (.edgeIncomplete n) s = .next (s.inc (R.STI_EDGECNT_INCOMP n)) := by
  show atStitch n s _ = _
  rw [atStitch, if_pos hthere, if_pos hawake]

end

/-- Settles O20: each monitor is one operation on the dielet under its own condition; a detector acts by retirement and state. -/
theorem dieletMonitors : Obligations.DieletMonitors := by
  unfold Obligations.DieletMonitors
  intro n s hthere off hiz
  refine ⟨handshakeTimeout_does hthere, downlinkLoss_does hthere,
    fun c hst hmode hhigh hlow hvneg => stitchDetector_does_hiz hthere hst hmode (detects_of hhigh hlow hvneg),
    fun hawake hmode => ⟨dsatLs_retired_does hthere hawake hmode, bothOn_retired_does hthere hawake hmode,
      ot_retired_does hthere hawake hmode⟩,
    bstWarnCross_does hthere, bstreqClear_does hthere, fun hst hclamp hgl hhem hcov hdsat hguv => ?_, fun hawake => ?_⟩
  · exact covClamp_does hthere hst hclamp hgl hhem (by simp [clampable, hcov, hdsat, hguv])
  · refine ⟨_, edgeIncomplete_counts hthere hawake, (OnlyRegs.refl _ s).inc _ (List.mem_singleton_self _), ?_, ?_⟩
    · exact get_inc s _ (by simp [R.STI_EDGECNT_INCOMP])
    · exact get_put_apart s _ _ _ (by simp [R.STI_EDGECNT_ADAPT]) (by simp [R.STI_EDGECNT_ADAPT, R.STI_EDGECNT_INCOMP])

end Sys2Proof.Machine
end

section
/-!
PROOFS of the statement on the strength law: the setting that an edge belongs to, and the step that it takes.
-/
namespace Sys2Proof.Machine

/-! ### Attribution (R73) -/

section
variable {d : Dielet} {g : Gate}

theorem attributed_on (hin : d.inG = some g) (hcame : d.incoming ≠ some g) : attributed d false = some (onSetting g) := by
  simp [attributed, hin, hcame]

theorem attributed_off (hin : d.inG = none) (early : Bool) : attributed d early = d.outG.map offSetting := by
  simp [attributed, hin]

theorem attributed_early : attributed d true = d.outG.map offSetting := by
  unfold attributed
  split <;> rfl

theorem attributed_lt {early : Bool} {k : Nat} (h : attributed d early = some k) : k < 4 := by
  have hoff : ∀ j, d.outG.map offSetting = some j → j < 4 := by
    rintro j hj
    obtain ⟨_ | _, -, rfl⟩ := Option.map_eq_some_iff.1 hj <;> decide
  unfold attributed at h
  split at h
  · exact hoff k h
  · next g _ =>
    split at h
    · exact hoff k h
    · obtain rfl := Option.some.inj h
      cases g <;> decide

end

/-! ### The law (R74) -/

/-- The target edge time of setting `k`. -/
def edgeTarget (d : Dielet) (k : Nat) : Nat := bitsOf (dieletSetting d 0x18) (8 * k) 8

/-- How far an edge of `t` lies from its target. -/
def edgeError (d : Dielet) (k t : Nat) : Nat := if edgeTarget d k ≤ t then t - edgeTarget d k else edgeTarget d k - t

/-- The bounds of setting `k`: the lower, then the upper. -/
def dieletBounds (d : Dielet) (k : Nat) : Nat × Nat :=
  let lim := dieletSetting d (0x1C + 4 * (k / 2))
  (bitsOf lim (if k % 2 = 0 then 0 else 16) 6, bitsOf lim (if k % 2 = 0 then 8 else 24) 6)

/-- The step that setting `k` takes where the law moves it. -/
def movedStep (d : Dielet) (k t : Nat) : Nat :=
  let m := if edgeTarget d k < 4 * edgeError d k t then 4 else 1
  if edgeTarget d k < t then min (stepOf d k + m) (dieletBounds d k).2 else max (stepOf d k - m) (dieletBounds d k).1

/-- Does the law leave setting `k` where it is: frozen, or within the dead band? -/
def LawStays (d : Dielet) (k t : Nat) : Prop :=
  tb (dieletField d (R.STI_ADCTL_FRZ 0)) k = true ∨ edgeError d k t ≤ dieletField d (R.STI_ADCTL_DB 0)

section
variable {d : Dielet} {k t : Nat}

theorem strengthLaw_of_stays (h : LawStays d k t) : strengthLaw d k t = { d with edges := tset (fun _ => 0) d.edges k t } := if_pos h

theorem strengthLaw_of_moves (h : ¬LawStays d k t) : strengthLaw d k t =
    { d with edges := tset (fun _ => 0) d.edges k t, steps := tset (fun _ => 0x20) d.steps k (movedStep d k t) } := if_neg h

theorem strengthLaw_rest (d : Dielet) (k t : Nat) :
    strengthLaw d k t = { d with edges := (strengthLaw d k t).edges, steps := (strengthLaw d k t).steps } := by
  by_cases h : LawStays d k t
  · rw [strengthLaw_of_stays h]
  · rw [strengthLaw_of_moves h]

theorem edges_strengthLaw (d : Dielet) (k t : Nat) : (strengthLaw d k t).edges = tset (fun _ => 0) d.edges k t := by
  by_cases h : LawStays d k t
  · rw [strengthLaw_of_stays h]
  · rw [strengthLaw_of_moves h]

theorem stepOf_strengthLaw_ne {j : Nat} (hj : j ≠ k) : stepOf (strengthLaw d k t) j = stepOf d j := by
  by_cases h : LawStays d k t
  · rw [strengthLaw_of_stays h, stepOf, stepOf]
  · rw [strengthLaw_of_moves h]
    exact tget_tset_ne _ _ _ hj

theorem stepOf_strengthLaw_of_stays (h : LawStays d k t) : stepOf (strengthLaw d k t) k = stepOf d k := by
  rw [strengthLaw_of_stays h, stepOf, stepOf]

theorem stepOf_strengthLaw_of_moves (h : ¬LawStays d k t) : stepOf (strengthLaw d k t) k = movedStep d k t := by
  rw [strengthLaw_of_moves h]
  exact tget_tset_self ..

theorem edgeError_eq_natAbs (d : Dielet) (k t : Nat) : edgeError d k t = ((t : Int) - edgeTarget d k).natAbs := by
  unfold edgeError
  split <;> omega

/-- The step in whole numbers, as the law states it. -/
theorem movedStep_eq (d : Dielet) (k t : Nat) : (movedStep d k t : Int) =
    if 0 < (t : Int) - edgeTarget d k
    then min ((stepOf d k : Int) + if (edgeTarget d k : Int) < (edgeError d k t : Int) * 4 then 4 else 1) ((dieletBounds d k).2 : Nat)
    else max ((stepOf d k : Int) - if (edgeTarget d k : Int) < (edgeError d k t : Int) * 4 then 4 else 1) ((dieletBounds d k).1 : Nat) := by
  simp only [movedStep]
  by_cases hslow : edgeTarget d k < t <;> by_cases hfar : edgeTarget d k < 4 * edgeError d k t
  all_goals split_ifs <;> omega

end

/-! ### The command -/

/-- A counter and a dielet change, nothing else. -/
theorem setDielet_inc_frame (s : State) (f : Field) (n : Nat) (x : Dielet) : setDielet (s.inc f) n x =
    { s with regs := (setDielet (s.inc f) n x).regs, dielets := (setDielet (s.inc f) n x).dielets } := rfl


/-- The edge counts, and the law acts on the dielet; nothing else differs. -/
theorem edgeComplete_spec {n : Fin 96} {s : State} {early : Bool} {k : Nat} (hthere : stitchThere s n = true)
    (hawake : (dielet s n).awake = true) (hk : attributed (dielet s n) early = some k) (e : BitVec 8) :
    ∃ t, exec (.edgeComplete n early e) s = .next t ∧ t = { s with regs := t.regs, dielets := t.dielets }
      ∧ RegsOutside [R.STI_EDGECNT n] s t
      ∧ t.get (R.STI_EDGECNT_ADAPT n) = (s.get (R.STI_EDGECNT_ADAPT n) + 1) % 2 ^ (R.STI_EDGECNT_ADAPT n).wd
      ∧ (∀ m, m ≠ n.val → dielet t m = dielet s m) ∧ dielet t n = strengthLaw (dielet s n) k e.toNat := by
  have hexec : exec (.edgeComplete n early e) s =
      .next (setDielet (s.inc (R.STI_EDGECNT_ADAPT n)) n (strengthLaw (dielet s n) k e.toNat)) := by
    show atStitch n s _ = _
    rw [atStitch, if_pos hthere]
    simp only [hk]
    exact congrArg _ (if_pos hawake)
  generalize strengthLaw (dielet s n) k e.toNat = x at hexec ⊢
  refine ⟨_, hexec, setDielet_inc_frame .., ?_, ?_, fun m hm => ?_, dielet_setDielet ..⟩
  · exact ((RegsOutside.refl _ s).inc (R.STI_EDGECNT_ADAPT n) (List.mem_singleton_self _)).of_regs (setDielet_regs ..)
  · rw [get_congr (setDielet_regs ..)]
    exact get_inc s _ (by simp [R.STI_EDGECNT_ADAPT])
  · exact (dielet_setDielet_ne _ _ _ _ hm).trans (dielet_congr (inc_dielets ..) m)

/-- Settles O21: the edge belongs to the setting that `attributed` names, and the law moves the step of that setting alone. -/
theorem strengthLaw_holds : Obligations.StrengthLaw := by
  unfold Obligations.StrengthLaw
  refine ⟨fun d g => ⟨fun hin hcame => ?_, fun hout => ⟨fun hin early => ?_, ?_⟩⟩, fun n early k e s hthere hawake hk => ?_⟩
  · rw [attributed_on hin hcame]
    cases g <;> rfl
  · rw [attributed_off hin, hout]
    cases g <;> rfl
  · rw [attributed_early, hout]
    cases g <;> rfl
  · intro d err lim smin smax tgt delta
    have herr : err.natAbs = edgeError d k e.toNat := (edgeError_eq_natAbs ..).symm
    obtain ⟨t, hexec, hframe, hregs, hcount, hothers, hread⟩ := edgeComplete_spec hthere hawake hk e
    refine ⟨t, hexec, hframe, hregs, hcount, hothers, ?_⟩
    rw [hread, edges_strengthLaw, show dielet s n = d from rfl]
    refine ⟨?_, tget_tset_self .., fun j hj => ⟨tget_tset_ne _ _ _ hj, stepOf_strengthLaw_ne hj⟩, fun hstay => ?_, fun hfrz hdb => ?_⟩
    · rw [← edges_strengthLaw]
      exact strengthLaw_rest d k e.toNat
    · exact stepOf_strengthLaw_of_stays (by rwa [herr] at hstay)
    · rw [stepOf_strengthLaw_of_moves (by simpa [LawStays, hfrz, ← herr] using hdb), movedStep_eq, ← herr]
      have hlt := attributed_lt hk
      have hlim : 0x1C + 4 * (k / 2) = if k < 2 then 0x1C else 0x20 := by split <;> omega
      simp only [dieletBounds, hlim]
      rfl

end Sys2Proof.Machine
end

section
/-!
PROOFS of the laws of retirement, bypass and bleed at a dielet.
-/
namespace Sys2Proof.Machine

/-! ### Retirement (R83, R90, R91, R92) -/

/-- RETIRE at a dielet, to OPEN where `opn` says so, otherwise to BYPASS. -/
def Dielet.retires (opn : Bool) (d : Dielet) : Dielet :=
  if d.st = .waking then { d with mode := some opn }
  else if d.mode = some opn then d
  else if opn then d.toOpen
  else if d.hemoff then { d.off with mode := some false, clamp := false }
  else if d.gh = true ∨ d.incoming = some .low then
    { d with mode := some false, clamp := false, gh := false, incoming := some .low, inG := some .low,
             outG := if d.gh then some .high else d.outG }
  else d.toBypass

theorem DieletTo.retireDielet {n : Nat} {x : Dielet} {s t : State} (h : DieletTo n x s t) (opn : Bool) :
    DieletTo n (x.retires opn) s (retireDielet n opn t) := by
  rw [Machine.retireDielet, h.reads]
  exact (h.setDielet _).ite (h.ite ((h.setDielet _).ite ((h.setDielet _).ite ((h.setDielet _).ite (h.setDielet _)))))

section
variable {d : Dielet}

theorem retires_of_waking (h : d.st = .waking) (opn : Bool) : d.retires opn = { d with mode := some opn } := if_pos h

theorem retires_open (hst : d.st ≠ .waking) (hmode : d.mode ≠ some true) : d.retires true = d.toOpen := by
  rw [Dielet.retires, if_neg hst, if_neg hmode, if_pos rfl]

theorem retires_bypass (hst : d.st ≠ .waking) (hmode : d.mode ≠ some false) : d.retires false =
    if d.hemoff then { d.off with mode := some false, clamp := false }
    else if d.gh = true ∨ d.incoming = some .low then
      { d with mode := some false, clamp := false, gh := false, incoming := some .low, inG := some .low,
               outG := if d.gh then some .high else d.outG }
    else d.toBypass := by
  rw [Dielet.retires, if_neg hst, if_neg hmode, if_neg Bool.false_ne_true]

/-- A clamp in force becomes the bypass; otherwise GL turns on and is verified unless the stitch is in BYPASS (R83, R92). -/
theorem toBypass_eq : d.toBypass =
    if (d.clamp && d.gl) = true then { d with mode := some false, clamp := false, st := .bypass, cause := 0 }
    else { d with mode := some false, clamp := false, incoming := none, gl := true, inG := some .low,
                  verify := d.verify || (d.st != .bypass) } := by
  simp only [Dielet.toBypass, Dielet.glOn, Bool.and_eq_true, beq_self_eq_true, Bool.true_and]

end

/-! ### The bleed (R96) -/

section
variable {n : Nat} {s : State}

theorem endBleed_of_no_bleed (h : (dielet s n).bleed = false) : endBleed n s = s := if_neg (by simp [h])

theorem endBleed_of_bleed (h : (dielet s n).bleed = true) : endBleed n s =
    setBleedSt (setDielet s n { dielet s n with bleed := false }) n { bleedSt s n with ended := some s.cyc } := if_pos h

/-- The latch releases and its time is kept; the registers, and the other stitches, stay. -/
theorem endBleed_spec (h : (dielet s n).bleed = true) :
    dielet (endBleed n s) n = { dielet s n with bleed := false } ∧ (endBleed n s).regs = s.regs
      ∧ bleedSt (endBleed n s) n = { bleedSt s n with ended := some s.cyc }
      ∧ ∀ m, m ≠ n → dielet (endBleed n s) m = dielet s m ∧ bleedSt (endBleed n s) m = bleedSt s m := by
  rw [endBleed_of_bleed h]
  refine ⟨?_, rfl, bleedSt_setBleedSt .., fun m hm => ⟨?_, bleedSt_setBleedSt_ne _ _ _ _ hm⟩⟩
  · exact (dielet_congr (setBleedSt_dielets ..) n).trans (dielet_setDielet ..)
  · exact (dielet_congr (setBleedSt_dielets ..) m).trans (dielet_setDielet_ne _ _ _ _ hm)

end

end Sys2Proof.Machine
end

section
/-!
PROOFS of the statement on waking: how a dielet wakes, falls out of supply, sleeps, and hears its downlink again.
-/
namespace Sys2Proof.Machine

/-- A dielet whose self-test has passed, before any retirement that came to it while it woke. -/
def Dielet.woken (hem : Bool) (d : Dielet) : Dielet := { d with hemoff := hem, st := .idle, cause := 0, mode := none }

/-- A dielet that hears its downlink again, the hem's OFF included (R87, R90). -/
def Dielet.retrained (hem : Bool) (d : Dielet) : Dielet :=
  if hem then { d with lost := false }.hemHeard else { d with lost := false }.resume

section
variable {n : Fin 96} {s : State} (hthere : stitchThere s n = true)
include hthere

/-! ### Into WAKING (R89, R96) -/

section
variable (hst : (dielet s n).st = .asleep)
include hst

theorem cellWake_does (hbleed : (dielet s n).bleed = false) : Does (.cellWake n) n s { dielet s n with st := .waking } := by
  refine (((DieletTo.refl n s).onDielet fun d => { d with st := .waking }).pos (u := s) hst).does_at hthere ?_
  show atStitch n s _ = _
  rw [endBleed_of_no_bleed hbleed]

theorem cellWake_releases (hbleed : (dielet s n).bleed = true) :
    ∃ t, exec (.cellWake n) s = .next t ∧ dielet t n = { dielet s n with st := .waking, bleed := false }
      ∧ (bleedSt t n).ended = some s.cyc ∧ (bleedSt t n).waiting = (bleedSt s n).waiting ∧ t.regs = s.regs := by
  obtain ⟨hdielet, hregs, hended, -⟩ := endBleed_spec hbleed
  have hwakes := (DieletTo.refl n (endBleed n s)).onDielet fun d => { d with st := .waking }
  have hbleeds : bleedSt (onDielet n (fun d => { d with st := .waking }) (endBleed n s)) n = bleedSt (endBleed n s) n := rfl
  refine ⟨_, ?_, hwakes.reads.trans ?_, ?_, ?_, hregs⟩
  · show atStitch n s _ = _
    rw [atStitch, if_pos hthere, if_pos (by rw [hdielet]; exact hst)]
  · rw [hdielet]
  · rw [hbleeds, hended]
  · rw [hbleeds, hended]

theorem dieletIdleWake_does (hpd5 : domOn s 5 = true) : Does (.dieletIdleWake n) n s { dielet s n with st := .waking } :=
  (((DieletTo.refl n s).onDielet fun d => { d with st := .waking }).pos ⟨hst, hpd5⟩).does_at hthere rfl

end

/-! ### Out of WAKING (R89, R91) -/

section
variable (hst : (dielet s n).st = .waking) (hpd5 : domOn s 5 = true)
include hst hpd5

theorem stitchWakeDone_does_idle (hmode : (dielet s n).mode = none) :
    Does (.stitchWakeDone n true) n s ((dielet s n).woken (hemActive s)) := by
  have hhem := (DieletTo.refl n s).onDielet fun d => { d with hemoff := hemActive s }
  refine (hhem.onDielet fun d => { d with st := .idle, cause := 0, mode := none }).does_at hthere ?_
  show atStitch n s _ = _
  rw [if_pos ⟨hst, hpd5⟩, if_pos rfl, hhem.reads]
  simp only [hmode]

theorem stitchWakeDone_does_retires {opn : Bool} (hmode : (dielet s n).mode = some opn) :
    Does (.stitchWakeDone n true) n s (((dielet s n).woken (hemActive s)).retires opn) := by
  have hhem := (DieletTo.refl n s).onDielet fun d => { d with hemoff := hemActive s }
  refine ((hhem.onDielet fun d => { d with st := .idle, cause := 0, mode := none }).retireDielet opn).does_at hthere ?_
  show atStitch n s _ = _
  rw [if_pos ⟨hst, hpd5⟩, if_pos rfl, hhem.reads]
  simp only [hmode]

theorem stitchWakeDone_does_fault : Does (.stitchWakeDone n false) n s
    ({ dielet s n with hemoff := hemActive s, st := .fault, cause := 0x11 }.alert 0x11) := by
  have hhem := (DieletTo.refl n s).onDielet fun d => { d with hemoff := hemActive s }
  have hfault := (hhem.onDielet fun d => { d with st := .fault, cause := 0x11 }).sendAlert 0x11
  exact ((hfault.neg Bool.false_ne_true).pos ⟨hst, hpd5⟩).does_at hthere rfl

end

/-! ### Into ASLEEP (R81, R87) -/

theorem cellUvlo_does (hawake : (dielet s n).awake = true) : Does (.cellUvlo n) n s
    ((dielet s n).alert (if (dielet s n).st = .run ∧ (dielet s n).mode = none then 0x08 else 0x41)).sleeps := by
  have hself := DieletTo.refl n s
  have hlast := (hself.sendAlert 0x08).ite (c := (dielet s n).st = .run ∧ (dielet s n).mode = none)
    ((hself.sendAlert 0x41).pos (u := s) hawake)
  have hasleep : (dielet s n).st ≠ .asleep := fun h => by simp [Dielet.awake, h] at hawake
  refine ((hlast.sleepDielet.neg (u := s) hasleep).of_eq ?_).does_at hthere rfl
  split <;> rfl

theorem downlinkAbsentSleep_does (h : (dielet s n).lost = true ∨ (dielet s n).st = .waking) :
    Does (.downlinkAbsentSleep n) n s (dielet s n).sleeps :=
  ((DieletTo.refl n s).sleepDielet.pos h).does_at hthere rfl

/-! ### The downlink found again (R87, R90) -/

theorem linkRetrained_does (hlost : (dielet s n).lost = true) (hst : (dielet s n).st = .hiz) (hpd5 : domOn s 5 = true) :
    Does (.linkRetrained n) n s ((dielet s n).retrained (hemActive s)) :=
  (((DieletTo.refl n s).setDielet _).pos ⟨hlost, hst, hpd5⟩).does_at hthere rfl

end

/-! ### What the dielet becomes -/

section
variable {d : Dielet}

theorem woken_of_mode_none (hem : Bool) (hmode : d.mode = none) : d.woken hem = { d with st := .idle, cause := 0, hemoff := hem } := by
  rw [Dielet.woken, ← hmode]

theorem woken_retires_open (hem : Bool) (hmode : d.mode = some true) : (d.woken hem).retires true =
    { d.off with st := .opened, clamp := false, cause := 0, topup := false, verify := false, hemoff := hem } := by
  rw [retires_open (by simp [Dielet.woken]) (by simp [Dielet.woken]), Dielet.toOpen, ← hmode]
  rfl

/-- With the gates off and no clamp, GL turns on and its verification begins (R92). -/
theorem woken_retires_bypass (hmode : d.mode = some false) (hclamp : d.clamp = false) (hgh : d.gh = false)
    (hin : d.incoming = none) : (d.woken false).retires false =
      { d with st := .idle, cause := 0, gl := true, inG := some .low, verify := true, hemoff := false } := by
  rw [retires_bypass (by simp [Dielet.woken]) (by simp [Dielet.woken]), toBypass_eq]
  simp [Dielet.woken, hgh, hin, hclamp, hmode]

theorem retrained_of_open (hem : Bool) (hmode : d.mode = some true) : d.retrained hem =
    { d.off with lost := false, hemoff := hem, st := .opened, cause := 0, clamp := false, topup := false, verify := false } := by
  cases hem <;> simp [Dielet.retrained, Dielet.resume, Dielet.hemHeard, Dielet.toOpen, Dielet.off, hmode]

theorem retrained_under_hem (hmode : d.mode ≠ some true) : d.retrained true =
    { d.off with lost := false, hemoff := true, clamp := d.clamp && d.mode.isNone } := if_neg hmode

theorem retrained_of_bypass (hmode : d.mode = some false) (hst : d.st = .hiz) : d.retrained false =
    if (d.clamp && d.gl) = true then { d with lost := false, hemoff := false, clamp := false, st := .bypass, cause := 0 }
    else { d with lost := false, hemoff := false, clamp := false, gl := true, incoming := none, inG := some .low, verify := true } := by
  have hverify : (d.verify || d.st != .bypass) = true := by simp [hst]
  simp [Dielet.retrained, Dielet.resume, toBypass_eq, hmode, hverify]

/-- A clamp that the hem had suspended holds again (R90). -/
theorem retrained_of_not_retired (hmode : d.mode = none) : d.retrained false =
    if (d.clamp && !d.gl) = true then { d with lost := false, hemoff := false, gl := true, incoming := none, inG := some .low }
    else { d with lost := false, hemoff := false } := by
  simp [Dielet.retrained, Dielet.resume, hmode, Dielet.glOn]

end

/-- Settles O22: each event is one operation on the dielet; its retirement mode and the hem decide what waking and retraining lead
to. -/
theorem dieletWaking : Obligations.DieletWaking := by
  unfold Obligations.DieletWaking
  intro n s hthere d off asleep
  refine ⟨fun hst => cellWake_does hthere hst, fun hst => cellWake_releases hthere hst, fun hst => dieletIdleWake_does hthere hst,
    fun hst hpd5 hmode => ?_, fun hst hpd5 hmode => ?_, fun hst hpd5 hmode hclamp hgh hin hhem => ?_,
    fun hst hpd5 => stitchWakeDone_does_fault hthere hst hpd5, fun hawake => cellUvlo_does hthere hawake,
    fun h => downlinkAbsentSleep_does hthere h, fun hlost hst hpd5 => ?_⟩
  · exact woken_of_mode_none (hemActive s) hmode ▸ stitchWakeDone_does_idle hthere hst hpd5 hmode
  · exact woken_retires_open (hemActive s) hmode ▸ stitchWakeDone_does_retires hthere hst hpd5 hmode
  · have hbypass := stitchWakeDone_does_retires hthere hst hpd5 hmode
    rw [hhem, woken_retires_bypass hmode hclamp hgh hin] at hbypass
    exact hbypass
  · obtain ⟨t, hexec, hframe, hread⟩ := linkRetrained_does hthere hlost hst hpd5
    refine ⟨t, hexec, hframe, fun hmode => hread.trans (retrained_of_open _ hmode), fun hhem hmode => ?_, fun hhem hmode hclamp => ?_,
      fun hhem hmode hclamp => ?_, fun hhem hmode hclamp => ?_, fun hhem hmode hclamp => ?_⟩
    all_goals rw [hread, hhem]
    · exact retrained_under_hem hmode
    · exact (retrained_of_bypass hmode hst).trans (if_pos hclamp)
    · exact (retrained_of_bypass hmode hst).trans (if_neg (Bool.eq_false_iff.1 hclamp))
    · exact (retrained_of_not_retired hmode).trans (if_pos hclamp)
    · exact (retrained_of_not_retired hmode).trans (if_neg (Bool.eq_false_iff.1 hclamp))

end Sys2Proof.Machine
end

section
/-!
PROOFS of the statement on management frames: what each frame does at a dielet that hears it, and what a bad CRC does.
-/
namespace Sys2Proof.Machine

/-! ### The arrival of a frame (Table 4.9, R87) -/

/-- The dielet has accepted frame `f`: its number is acknowledged next, and the run of bad frames ends. -/
def Dielet.accepts (f : MgmtRx) (d : Dielet) : Dielet := { d with bad := 0, ack := f.seq.toNat }

/-- Dielet `n` is on the part, is not ASLEEP, and hears its downlink, which runs. -/
structure Hears (s : State) (n : Nat) : Prop where
  there : stitchThere s n = true
  awake : (dielet s n).st ≠ .asleep
  pd5   : domOn s 5 = true
  link  : (dielet s n).lost = false

theorem frameIn_of_lost {n : Nat} {s : State} (h : (dielet s n).lost = true) (f : MgmtRx) (act : State → State) :
    frameIn n f act s = s := if_neg (by simp [h])

section
variable {n : Nat} {s : State} {f : MgmtRx}

theorem Hears.guard (h : Hears s n) :
    (stitchThere s n && (dielet s n).st != .asleep && !(dielet s n).lost && domOn s 5) = true := by
  simp [h.there, h.awake, h.pd5, h.link]

theorem frameIn_of_good (h : Hears s n) (hcrc : f.crcOk = true) (act : State → State) :
    frameIn n f act s = act (onDielet n (Dielet.accepts f) s) := (if_pos h.guard).trans (if_pos hcrc)

/-- A frame with a bad CRC counts, and as the third in a row of an awake dielet loses the downlink. -/
def frameRejected (n : Nat) (s : State) : State :=
  let s1 := s.incSat (R.STI_LNK_DN_ERR n)
  if (dielet s n).bad = 2 then
    let s2 := onDielet n (fun d => { d with bad := 0 }) s1
    if (dielet s n).awake then loseDownlink n s2 else s2
  else onDielet n (fun d => { d with bad := d.bad + 1 }) s1

/-- What a frame with a bad CRC makes of a dielet. -/
def Dielet.hearsBad (d : Dielet) : Dielet :=
  if d.bad = 2 then (if d.awake then { { d with bad := 0 }.hiz 0x0E with lost := true } else { d with bad := 0 })
  else { d with bad := d.bad + 1 }

theorem frameIn_of_bad (h : Hears s n) (hcrc : f.crcOk = false) (act : State → State) : frameIn n f act s = frameRejected n s :=
  (if_pos h.guard).trans (if_neg (Bool.eq_false_iff.1 hcrc))

theorem frameRejected_of_count (n : Nat) (s : State) :
    DieletTo n (dielet s n).hearsBad (s.incSat (R.STI_LNK_DN_ERR n)) (frameRejected n s) := by
  have hself : DieletTo n (dielet s n) (s.incSat (R.STI_LNK_DN_ERR n)) (s.incSat (R.STI_LNK_DN_ERR n)) :=
    (DieletTo.refl n _).of_eq (dielet_congr (incSat_dielets ..) n)
  have hends := hself.onDielet fun d => { d with bad := 0 }
  exact (hends.loseDownlink.ite hends).ite (hself.onDielet fun d => { d with bad := d.bad + 1 })

theorem frameRejected_regs (n : Nat) (s : State) : (frameRejected n s).regs = (s.incSat (R.STI_LNK_DN_ERR n)).regs := by
  rw [(frameRejected_of_count n s).frame.1]

/-- The counter and the dielet change, nothing else. -/
theorem frameRejected_frame (n : Nat) (s : State) :
    frameRejected n s = { s with regs := (frameRejected n s).regs, dielets := (frameRejected n s).dielets } :=
  (frameRejected_of_count n s).frame.frame_regs

theorem frameAccepted (n : Nat) (f : MgmtRx) (s : State) :
    DieletTo n ((dielet s n).accepts f) s (onDielet n (Dielet.accepts f) s) := (DieletTo.refl n s).onDielet _

/-- What a good frame does, its action being `act`. -/
theorem does_frame {i : Instr} {x : Dielet} {act : State → State} (hact : DieletTo n x s (act (onDielet n (Dielet.accepts f) s)))
    (h : Hears s n) (hcrc : f.crcOk = true) (hexec : exec i s = .next (frameIn n f act s)) : Does i n s x :=
  hact.does (hexec.trans (congrArg _ (frameIn_of_good h hcrc act)))

end

/-! ### WRITE (R75, R85) -/

/-- A list of keys written in turn: each reads its value. -/
theorem tget_foldl_tset {α : Type} [DecidableEq α] (d g : Nat → α) (ks : List Nat) (l : List (Nat × α)) (k : Nat) :
    tget d (ks.foldl (fun a j => tset d a j (g j)) l) k = if k ∈ ks then g k else tget d l k := by
  induction ks generalizing l with
  | nil => simp
  | cons j js ih =>
    rw [List.foldl_cons, ih]
    by_cases hk : k = j
    · simp [hk]
    · simp [hk, tget_tset_ne d l (g j) hk]

/-- WRITE loads setting `reg`, and STI_STR the four steps. -/
def Dielet.writes (reg : Nat) (w : Word) (d : Dielet) : Dielet :=
  { d with
    settings := tset (fun k => resetWord (R.STI_CFG 0 + k)) d.settings (4 * reg) w
    steps := if reg = 10 then (List.range 4).foldl (fun l k => tset (fun _ => 0x20) l k (bitsOf w (8 * k) 6)) d.steps else d.steps }

theorem settingOffset_of_lt : ∀ reg < 11, settingOffsets.contains (4 * reg) = true := by decide

theorem DieletTo.frameWrite {n : Nat} {x : Dielet} {s t : State} (h : DieletTo n x s t) {reg : Nat} (hreg : reg < 11) (w : Word) :
    DieletTo n (x.writes reg w) s (frameWrite n reg w t) := by
  have hload := h.onDielet fun d => { d with settings := tset (fun k => resetWord (R.STI_CFG 0 + k)) d.settings (4 * reg) w }
  refine DieletTo.pos (settingOffset_of_lt reg hreg) ?_
  by_cases hstr : reg = 10
  · refine ((hload.onDielet fun d => { d with steps := (List.range 4).foldl (fun l k =>
      tset (fun _ => 0x20) l k (bitsOf w (8 * k) 6)) d.steps }).pos hstr).of_eq ?_
    simp only [Dielet.writes, if_pos hstr]
  · refine (hload.neg hstr).of_eq ?_
    simp only [Dielet.writes, if_neg hstr]

theorem dieletSetting_writes (d : Dielet) (reg : Nat) (w : Word) (o : Nat) :
    dieletSetting (d.writes reg w) o = if o = 4 * reg then w else dieletSetting d o := by
  split
  · next h => exact h ▸ tget_tset_self ..
  · next h => exact tget_tset_ne _ _ _ h

theorem stepOf_writes (d : Dielet) (reg : Nat) (w : Word) {k : Nat} (hk : k < 4) :
    stepOf (d.writes reg w) k = if reg = 10 then bitsOf w (8 * k) 6 else stepOf d k := by
  unfold stepOf Dielet.writes
  split
  · exact (tget_foldl_tset _ (fun k => bitsOf w (8 * k) 6) _ _ _).trans (if_pos (List.mem_range.2 hk))
  · rfl

/-! ### The other frames (Table 4.10) -/

namespace DieletTo
variable {n : Nat} {x : Dielet} {s t : State} (h : DieletTo n x s t)
include h

theorem frameHold (hst : x.st = .run ∨ x.st = .idle) (hmode : x.mode = none) : DieletTo n (x.hiz 0x10) s (frameHold n t) := by
  rw [Machine.frameHold, h.reads]
  rcases hst with hst | hst <;> simp only [hst] <;> exact (h.toHiz 0x10).pos hmode

theorem frameRelease (hst : x.st = .hiz) (hmode : x.mode = none) (present : Bool) :
    DieletTo n (if present = true ∧ x.cause ≠ 0x10 then x.alert x.cause else { x.off with st := .idle, cause := 0, clamp := false })
      s (frameRelease n present t) := by
  rw [Machine.frameRelease, h.reads]
  exact ((h.sendAlert x.cause).ite (h.setDielet _)).pos ⟨hst, hmode⟩

theorem frameUnretire_of_waking (hst : x.st = .waking) : DieletTo n { x with mode := none } s (frameUnretire n t) := by
  rw [Machine.frameUnretire, h.reads]
  exact (h.setDielet _).pos hst

theorem frameUnretire_of_retired (hst : x.st ≠ .waking) (hmode : x.mode ≠ none) : DieletTo n
    { x.off with mode := none, st := .idle, cause := 0, topup := false, verify := false, clamp := false } s (frameUnretire n t) := by
  rw [Machine.frameUnretire, h.reads]
  exact ((h.setDielet _).pos (Option.isSome_iff_ne_none.2 hmode)).neg hst

/-- A bleed starts 10 s after the last one ended, at the soonest (R97). -/
theorem frameBleed_starts {w : Word} (hw : bitsOf w 0 1 = 1)
    (hready : ∀ e, (bleedSt t n).ended = some e → e + tenSeconds ≤ t.cyc) : DieletTo n { x with bleed := true } s (frameBleed n w t) := by
  refine DieletTo.pos hw ((h.onDielet fun d => { d with bleed := true }).pos ?_)
  split
  · rfl
  · next e he => exact decide_eq_true (hready e he)

end DieletTo

theorem frameBleed_ends {n : Nat} {w : Word} (s : State) (hw : bitsOf w 0 1 = 0) : frameBleed n w s = endBleed n s :=
  if_neg (by simp [hw])

section
variable {n : Fin 96} {s : State} {f : MgmtRx} (h : Hears s n) (hcrc : f.crcOk = true)
include h hcrc

theorem retireFrame_does {x : Dielet} (hx : ((dielet s n).accepts f).retires (bitsOf f.data 0 1 == 1) = x) :
    Does (.retireFrame n f) n s x :=
  does_frame (((frameAccepted n f s).retireDielet _).of_eq hx) h hcrc rfl

theorem bleedFrame_releases (hdata : bitsOf f.data 0 1 = 0) (hbleed : (dielet s n).bleed = true) :
    ∃ t, exec (.bleedFrame n f) s = .next t ∧ dielet t n = { (dielet s n).accepts f with bleed := false } ∧ t.regs = s.regs
      ∧ (bleedSt t n).ended = some s.cyc ∧ ∀ m, m ≠ n.val → dielet t m = dielet s m ∧ bleedSt t m = bleedSt s m := by
  have hacc := frameAccepted n f s
  have hexec : exec (.bleedFrame n f) s = .next (endBleed n (onDielet n (Dielet.accepts f) s)) :=
    congrArg Host.Outcome.next ((frameIn_of_good h hcrc (frameBleed n f.data)).trans (frameBleed_ends _ hdata))
  obtain ⟨hdielet, hregs, hended, hothers⟩ := endBleed_spec (by rw [hacc.reads]; exact hbleed)
  refine ⟨_, hexec, hdielet.trans (by rw [hacc.reads]), hregs, by rw [hended]; rfl, fun m hm => ?_⟩
  exact ⟨(hothers m hm).1.trans (hacc.frame.2 m hm), (hothers m hm).2⟩

end

/-- Settles O23: an accepted frame is one operation on the dielet behind its acknowledgement; a bad one counts. -/
theorem managementFrames : Obligations.ManagementFrames := by
  unfold Obligations.ManagementFrames
  refine ⟨fun n f s hlost i hi => ?_, fun n f s hthere hst hpd5 hlink => ?_⟩
  · simp only [List.mem_cons, List.not_mem_nil, or_false] at hi
    rcases hi with rfl | rfl | rfl | rfl | rfl | rfl <;> exact congrArg Host.Outcome.next (frameIn_of_lost hlost f _)
  have hhears : Hears s n := ⟨hthere, hst, hpd5, hlink⟩
  intro off d does
  refine ⟨fun hcrc => ?_, fun hcrc => ?_⟩
  · have hacc := frameAccepted n f s
    refine ⟨fun reg hreg => ?_, does_frame (hacc.onDielet fun d => { d with tick := bitsOf f.data 0 4 }) hhears hcrc rfl,
      fun hst hmode => does_frame (hacc.frameHold hst hmode) hhears hcrc rfl,
      fun hst hmode present => does_frame (hacc.frameRelease hst hmode present) hhears hcrc rfl,
      fun hst => ?_, fun hdata hmode hst => ?_, fun hdata hmode hst hhem => ?_, fun hdata hmode hst hhem => ?_,
      fun hst => does_frame (hacc.frameUnretire_of_waking hst) hhears hcrc rfl,
      fun hmode hst => does_frame (hacc.frameUnretire_of_retired hst hmode) hhears hcrc rfl,
      fun hdata hready => does_frame (hacc.frameBleed_starts hdata hready) hhears hcrc rfl, fun hdata hbleed => ?_,
      does_frame hacc.sleepDielet hhears hcrc rfl⟩
    · obtain ⟨t, hexec, hframe, hread⟩ := does_frame (i := .writeFrame n reg f) (hacc.frameWrite hreg f.data) hhears hcrc rfl
      refine ⟨t, hexec, hframe, ?_⟩
      rw [hread]
      exact ⟨rfl, dieletSetting_writes _ reg.toNat f.data, fun k => stepOf_writes _ reg.toNat f.data⟩
    · exact retireFrame_does hhears hcrc (retires_of_waking hst _)
    · exact retireFrame_does hhears hcrc (by rw [hdata]; exact retires_open hst hmode)
    · refine retireFrame_does hhears hcrc ?_
      rw [hdata]
      exact (retires_bypass hst hmode).trans ((if_neg (Bool.eq_false_iff.1 hhem)).trans (congrArg _ toBypass_eq))
    · refine retireFrame_does hhears hcrc ?_
      rw [hdata]
      exact (retires_bypass hst hmode).trans (if_pos hhem)
    · exact bleedFrame_releases hhears hcrc hdata hbleed
  · have hread := (frameRejected_of_count n s).reads
    have hcount : RegsOutside [R.STI_LNK n] s (s.incSat (R.STI_LNK_DN_ERR n)) :=
      (RegsOutside.refl _ s).put _ _ (List.mem_singleton_self _)
    refine ⟨frameRejected n s, congrArg _ (frameIn_of_bad hhears hcrc _), frameRejected_frame n s,
      hcount.of_regs (frameRejected_regs n s), ?_, fun hbad => hread.trans (if_neg hbad), fun hbad hawake => ?_⟩
    · rw [get_congr (frameRejected_regs n s)]
      exact get_incSat s _ (by simp [R.STI_LNK_DN_ERR])
    · rw [hread, Dielet.hearsBad, if_pos hbad, if_pos hawake]
      exact ⟨rfl, rfl, rfl, rfl, rfl, rfl⟩

end Sys2Proof.Machine
end

section
/-!
PROOFS of the statement on a bypass: its verification, its top-ups, and the release of a bleed.
-/
namespace Sys2Proof.Machine

section
variable {n : Fin 96} {s : State} (hthere : stitchThere s n = true)
include hthere

/-! ### Verification (R92) -/

theorem bypassVerify_does_bypass (hverify : (dielet s n).verify = true) :
    Does (.bypassVerify n true) n s { dielet s n with st := .bypass, verify := false, cause := 0 } :=
  ((((DieletTo.refl n s).setDielet _).pos rfl).pos hverify).does_at hthere rfl

theorem bypassVerify_does_fault (hverify : (dielet s n).verify = true) :
    Does (.bypassVerify n false) n s ({ (dielet s n).off with st := .fault, verify := false, cause := 0x09 }.alert 0x09) :=
  (((((DieletTo.refl n s).setDielet _).sendAlert 0x09).neg Bool.false_ne_true).pos hverify).does_at hthere rfl

/-! ### Top-ups (R90, R93) -/

theorem bypTopupStart_does (hst : (dielet s n).st = .bypass) (hset : dieletField (dielet s n) (R.STI_CFG_BYPTOP 0) = 1)
    (htop : (dielet s n).topup = false) (hhem : (dielet s n).hemoff = false) :
    Does (.bypTopupStart n) n s { (dielet s n).off with topup := true } :=
  (((DieletTo.refl n s).setDielet _).pos ⟨hst, hset, htop, hhem⟩).does_at hthere rfl

theorem bypTopupEnd_does (htop : (dielet s n).topup = true) : Does (.bypTopupEnd n) n s
    (if (dielet s n).hemoff then { dielet s n with topup := false } else { dielet s n with topup := false }.glOn) :=
  (((DieletTo.refl n s).setDielet _).pos htop).does_at hthere rfl

/-! ### The bleed (R96) -/

theorem exec_bleedRelease : exec (.bleedRelease n) s = .next (endBleed n s) := by
  show atStitch n s _ = _
  rw [atStitch, if_pos hthere]

end

/-- Settles O24: a verification, a top-up and the end of a bleed are each one operation on the dielet. -/
theorem dieletBypass : Obligations.DieletBypass := by
  unfold Obligations.DieletBypass
  intro n s hthere d off does
  refine ⟨bypassVerify_does_bypass hthere, bypassVerify_does_fault hthere, bypTopupStart_does hthere, fun htop hhem => ?_,
    fun htop hhem => ?_, fun hbleed => ?_⟩
  · have hends := bypTopupEnd_does hthere htop
    rw [if_pos hhem] at hends
    exact hends
  · have hends := bypTopupEnd_does hthere htop
    rw [if_neg (Bool.eq_false_iff.1 hhem)] at hends
    exact hends
  · obtain ⟨hdielet, hregs, hbleedSt, hothers⟩ := endBleed_spec hbleed
    exact ⟨_, exec_bleedRelease hthere, hdielet, hregs, by rw [hbleedSt], by rw [hbleedSt], hothers⟩

end Sys2Proof.Machine
end

section
/-!
PROOFS of the statement on the frames of a link: launch, resend, the end after three resends, and a bleed that had to wait.
-/
namespace Sys2Proof.Machine

/-- A link and a counter change, nothing else. -/
theorem incSat_setLink_frame (s : State) (n : Nat) (l : LinkEnd) (f : Field) : (setLink s n l).incSat f =
    { s with regs := ((setLink s n l).incSat f).regs, links := ((setLink s n l).incSat f).links } := rfl

/-- A link is read from the links alone. -/
theorem link_congr {s t : State} (h : t.links = s.links) (n : Nat) : link t n = link s n := by
  rw [link, link, h]

section
variable {n : Fin 96} {s : State} (hthere : stitchThere s n = true)
include hthere

/-! ### Launch and resend (R382) -/

theorem exec_mgmtFrameLaunch {f : MgmtFrame} {rest : List MgmtFrame} (hdue : (link s n).due = f :: rest) (hpd5 : domOn s 5 = true) :
    exec (.mgmtFrameLaunch n) s =
      .next (setLink s n { link s n with due := rest, out := (link s n).out ++ [{ f with sent := 1 }] }) := by
  show atStitch n s _ = _
  rw [atStitch, if_pos hthere]
  simp only [hdue, hpd5, if_true]

section
variable {f : MgmtFrame} {rest : List MgmtFrame} (hout : (link s n).out = f :: rest)
include hout

theorem exec_mgmtFrameResend_again (hsent : f.sent < 4) : exec (.mgmtFrameResend n) s =
    .next ((setLink s n { link s n with out := { f with sent := f.sent + 1 } :: rest }).incSat (R.STI_LNK_RESEND n)) := by
  show atStitch n s _ = _
  rw [atStitch, if_pos hthere]
  simp only [hout, hsent, if_true]

theorem exec_mgmtFrameResend_ends (hsent : 4 ≤ f.sent) : exec (.mgmtFrameResend n) s = .next
    (let u := setLink s n { link s n with out := rest, settings := (link s n).settings && f.ty != frWRITE }
     if s.get (R.STI_STATE_STATE n) ≠ 0 ∧ s.get (R.STI_STATE_STATE n) ≠ 7 then uplinkFault n u else u) := by
  show atStitch n s _ = _
  rw [atStitch, if_pos hthere]
  simp only [hout, if_neg (Nat.not_lt.2 hsent)]
  rfl

end

/-! ### A bad uplink frame, and a bleed that had to wait (R87, R303) -/

theorem exec_uplinkFrame_bad {u : UplinkFrame} (hcrc : u.crcOk = false) (hpd5 : domOn s 5 = true) :
    exec (.uplinkFrame n u) s = .next (s.incSat (R.STI_LNK_UP_ERR n)) := by
  show atStitch n s _ = _
  rw [atStitch, if_pos hthere, if_pos hpd5, if_neg (by simp [hcrc])]

theorem exec_bleedWaitEnd (hmode : mode s = mDISCHARGE) (hwait : (bleedSt s n).waiting = true) (hseen : seenAwake s n = true)
    (hpd5 : domOn s 5 = true) : exec (.bleedWaitEnd n) s =
      .next (setLink (setBleedSt s n { bleedSt s n with waiting := false }) n { link s n with
        due := (link s n).due ++ [⟨frBLEED, 0, 1, (link s n).nextSeq, 0⟩], nextSeq := ((link s n).nextSeq + 1) % 16 }) := by
  refine congrArg Host.Outcome.next ((if_pos ?_).trans ((if_pos hseen).trans (if_pos hpd5)))
  simp [hmode, hwait, hthere]

end

/-- Settles O25: each event takes the first frame of its list, or only counts. -/
theorem linkFrames : Obligations.LinkFrames := by
  unfold Obligations.LinkFrames
  intro n s hthere
  refine ⟨fun f rest hdue hpd5 => exec_mgmtFrameLaunch hthere hdue hpd5, fun f rest hout hsent => ?_,
    fun f rest hout hsent => exec_mgmtFrameResend_ends hthere hout hsent, fun u hcrc hpd5 => ?_, fun hmode hwait hseen hpd5 => ?_⟩
  · refine ⟨_, exec_mgmtFrameResend_again hthere hout hsent, incSat_setLink_frame .., ?_, fun m hm => ?_, ?_, ?_⟩
    · rw [link_congr (incSat_links ..), link_setLink]
    · rw [link_congr (incSat_links ..), link_setLink_ne _ _ _ _ hm]
    · exact ((RegsOutside.refl _ s).of_regs (regs_setLink ..)).put _ _ (List.mem_singleton_self _)
    · exact get_incSat _ _ (by simp [R.STI_LNK_RESEND])
  · refine ⟨_, exec_uplinkFrame_bad hthere hcrc hpd5, (OnlyRegs.refl _ s).put _ _ (List.mem_singleton_self _), ?_⟩
    exact get_incSat _ _ (by simp [R.STI_LNK_UP_ERR])
  · exact ⟨_, exec_bleedWaitEnd hthere hmode hwait hseen hpd5, rfl, bleedSt_setBleedSt .., link_setLink ..,
      fun m hm => ⟨link_setLink_ne _ _ _ _ hm, bleedSt_setBleedSt_ne _ _ _ _ hm⟩⟩

end Sys2Proof.Machine
end

section
/-!
PROOFS of the telemetry tick: what it makes of every dielet.
-/
namespace Sys2Proof.Machine

/-! ### A round over dielets -/

/-- Where dielets change and then dielets again, nothing else differs. -/
theorem dielets_frame_trans {s t u : State} (h : t = { s with dielets := t.dielets }) (k : u = { t with dielets := u.dielets }) :
    u = { s with dielets := u.dielets } := by
  generalize t.dielets = l at h
  subst h
  exact k

/-- A loop whose every turn changes one dielet, each another one: every dielet that it visits changes once, nothing else differs. -/
theorem forL_dielets {α : Type} (key : α → Nat) (g : α → Dielet → Dielet) (f : α → State → State) (p : Part)
    (hf : ∀ x a, a.part = p → DieletTo (key x) (g x (dielet a (key x))) a (f x a)) (l : List α) (hl : (l.map key).Nodup) (s : State)
    (hs : s.part = p) : forL l f s = { s with dielets := (forL l f s).dielets }
      ∧ (∀ m, m ∉ l.map key → dielet (forL l f s) m = dielet s m)
      ∧ ∀ x ∈ l, dielet (forL l f s) (key x) = g x (dielet s (key x)) := by
  induction l generalizing s with
  | nil => exact ⟨rfl, fun _ _ => rfl, nofun⟩
  | cons x xs ih =>
    obtain ⟨hx, hxs⟩ := List.nodup_cons.1 hl
    obtain ⟨⟨hrest, hothers⟩, hread⟩ := hf x s hs
    obtain ⟨hframe, hout, hin⟩ := ih hxs (f x s) (by rw [hrest]; exact hs)
    change forL xs f (f x s) = _ ∧ (∀ m, _ → dielet (forL xs f (f x s)) m = _) ∧ ∀ y ∈ x :: xs, dielet (forL xs f (f x s)) (key y) = _
    refine ⟨?_, fun m hm => ?_, fun y hy => ?_⟩
    · exact dielets_frame_trans hrest hframe
    · obtain ⟨hmx, hmxs⟩ := not_or.1 (fun h => hm (List.mem_cons.2 h))
      exact (hout m hmxs).trans (hothers m hmx)
    · rcases List.mem_cons.1 hy with rfl | hy
      · exact (hout _ hx).trans hread
      · have hne : key y ≠ key x := fun h => hx (h ▸ List.mem_map_of_mem hy)
        exact (hin y hy).trans (by rw [hothers _ hne])

/-! ### The tick (R80, R86) -/

/-- A telemetry tick at a dielet. -/
def Dielet.ticks (d : Dielet) : Dielet := if d.awake then { d with tick := (d.tick + 1) % 16 } else d

/-- A sample at the dielet of stitch `c.1`. -/
def Dielet.samples (p : Part) (c : Fin 96 × BitVec 12 × BitVec 12) (d : Dielet) : Dielet :=
  if d.awake = true ∧ decide (c.1.val < p.stitches) = true then { d with cell := c.2.1.toNat, otwarn := otWarn d c.2.2.toNat } else d

/-- Every awake dielet of the part counts the tick. -/
def ticked (s : State) : State :=
  forL (stitches s) (fun n a => if (dielet a n).awake then setDielet a n { dielet a n with tick := ((dielet a n).tick + 1) % 16 } else a)
    { s with telTick := s.telTick + 1 }

/-- Every awake dielet of the part keeps its sample. -/
def sampled (cells : List (Fin 96 × BitVec 12 × BitVec 12)) (s : State) : State :=
  forL cells (fun c a =>
    if (dielet a c.1).awake ∧ stitchThere a c.1 then
      onDielet c.1 (fun d => { d with cell := c.2.1.toNat, otwarn := otWarn d c.2.2.toNat }) a else a) s

theorem exec_telemetryTick (cells : List (Fin 96 × BitVec 12 × BitVec 12)) (s : State) :
    exec (.telemetryTick cells) s = .next (sampled cells (ticked s)) := rfl

theorem ticked_spec (s : State) : ticked s = { s with telTick := s.telTick + 1, dielets := (ticked s).dielets }
    ∧ ∀ n, dielet (ticked s) n = if n < s.part.stitches then (dielet s n).ticks else dielet s n := by
  obtain ⟨hframe, hout, hin⟩ := forL_dielets (id : Nat → Nat) (fun _ => Dielet.ticks)
    (fun n a => if (dielet a n).awake then setDielet a n { dielet a n with tick := ((dielet a n).tick + 1) % 16 } else a) s.part
    (fun n a _ => ((DieletTo.refl n a).setDielet _).ite (DieletTo.refl n a)) (stitches s)
    (by rw [List.map_id]; exact List.nodup_range) { s with telTick := s.telTick + 1 } rfl
  refine ⟨hframe, fun n => ?_⟩
  split
  · next h => exact hin n (List.mem_range.2 h)
  · next h => exact hout n (by rw [List.map_id]; exact fun hn => h (List.mem_range.1 hn))

theorem sampled_spec (cells : List (Fin 96 × BitVec 12 × BitVec 12)) (hcells : (cells.map (·.1)).Nodup) (s : State) :
    sampled cells s = { s with dielets := (sampled cells s).dielets }
      ∧ (∀ n, (∀ c ∈ cells, c.1.val ≠ n) → dielet (sampled cells s) n = dielet s n)
      ∧ ∀ c ∈ cells, dielet (sampled cells s) c.1 = (dielet s c.1).samples s.part c := by
  have hkeys := hcells.map Fin.val_injective
  rw [List.map_map] at hkeys
  obtain ⟨hframe, hout, hin⟩ := forL_dielets (·.1.val) (Dielet.samples s.part) (fun c a =>
    if (dielet a c.1).awake ∧ stitchThere a c.1 then
      onDielet c.1 (fun d => { d with cell := c.2.1.toNat, otwarn := otWarn d c.2.2.toNat }) a else a) s.part
    (fun c a ha => by
      rw [Dielet.samples, ← ha]
      exact ((DieletTo.refl c.1.val a).onDielet fun d => { d with cell := c.2.1.toNat, otwarn := otWarn d c.2.2.toNat }).ite (DieletTo.refl c.1.val a)) cells hkeys s rfl
  refine ⟨hframe, fun n hn => hout n fun hmem => ?_, hin⟩
  obtain ⟨c, hc, hcn⟩ := List.mem_map.1 hmem
  exact hn c hc hcn

section
variable {d : Dielet} {p : Part} {c : Fin 96 × BitVec 12 × BitVec 12}

theorem ticks_of_asleep (h : d.awake = false) : d.ticks = d := if_neg (Bool.eq_false_iff.1 h)

theorem ticks_of_awake (h : d.awake = true) : d.ticks = { d with tick := (d.tick + 1) % 16 } := if_pos h

theorem samples_of_not (h : d.awake = false ∨ p.stitches ≤ c.1.val) : d.samples p c = d :=
  if_neg fun ⟨hawake, hthere⟩ => h.elim (fun hasleep => by simp [hawake] at hasleep)
    fun hge => absurd (of_decide_eq_true hthere) (Nat.not_lt.2 hge)

theorem samples_of (hawake : d.awake = true) (hthere : c.1.val < p.stitches) :
    d.samples p c = { d with cell := c.2.1.toNat, otwarn := otWarn d c.2.2.toNat } := if_pos ⟨hawake, decide_eq_true hthere⟩

end

theorem dielet_ticked_of_awake {s : State} {n : Nat} (hawake : (dielet s n).awake = true) (hthere : n < s.part.stitches) :
    dielet (ticked s) n = { dielet s n with tick := ((dielet s n).tick + 1) % 16 } := by
  rw [(ticked_spec s).2, if_pos hthere, ticks_of_awake hawake]

section
variable {cells : List (Fin 96 × BitVec 12 × BitVec 12)} (hcells : (cells.map (·.1)).Nodup) (s : State)
include hcells

theorem telemetryTick_frame : sampled cells (ticked s) =
    { s with telTick := s.telTick + 1, dielets := (sampled cells (ticked s)).dielets } :=
  dielets_frame_trans (s := { s with telTick := s.telTick + 1 }) (ticked_spec s).1 (sampled_spec cells hcells (ticked s)).1

variable {n : Nat}

/-- A dielet that sleeps, or that the part does not have, takes no tick and no sample. -/
theorem dielet_telemetryTick_of_not (h : (dielet s n).awake = false ∨ s.part.stitches ≤ n) :
    dielet (sampled cells (ticked s)) n = dielet s n := by
  obtain ⟨hframe, hticks⟩ := ticked_spec s
  obtain ⟨-, hout, hin⟩ := sampled_spec cells hcells (ticked s)
  have hticked : dielet (ticked s) n = dielet s n := by
    rw [hticks]
    exact h.elim (fun hasleep => by rw [ticks_of_asleep hasleep, ite_self]) fun hge => if_neg (Nat.not_lt.2 hge)
  by_cases hc : ∃ c ∈ cells, c.1.val = n
  · obtain ⟨c, hmem, rfl⟩ := hc
    rw [hin c hmem, hticked, hframe]
    exact samples_of_not h
  · exact (hout n fun c hmem hcn => hc ⟨c, hmem, hcn⟩).trans hticked

section
variable (hawake : (dielet s n).awake = true) (hthere : n < s.part.stitches)
include hawake hthere

theorem dielet_telemetryTick_sampled {c : Fin 96 × BitVec 12 × BitVec 12} (hmem : c ∈ cells) (hcn : c.1.val = n) :
    dielet (sampled cells (ticked s)) n = { dielet s n with
      tick := ((dielet s n).tick + 1) % 16, cell := c.2.1.toNat, otwarn := otWarn (dielet s n) c.2.2.toNat } := by
  subst hcn
  rw [(sampled_spec cells hcells (ticked s)).2.2 c hmem, dielet_ticked_of_awake hawake hthere, (ticked_spec s).1]
  exact samples_of hawake hthere

theorem dielet_telemetryTick_unsampled (hcn : ∀ c ∈ cells, c.1.val ≠ n) :
    dielet (sampled cells (ticked s)) n = { dielet s n with tick := ((dielet s n).tick + 1) % 16 } :=
  ((sampled_spec cells hcells (ticked s)).2.1 n hcn).trans (dielet_ticked_of_awake hawake hthere)

end

/-- Every awake dielet of the part counts the tick and keeps its sample and its warning. -/
theorem telemetryTick_spec : ∃ t, exec (.telemetryTick cells) s = .next t
    ∧ t = { s with telTick := s.telTick + 1, dielets := t.dielets }
    ∧ (∀ n, (dielet s n).awake = false ∨ s.part.stitches ≤ n → dielet t n = dielet s n)
    ∧ (∀ n, (dielet s n).awake = true → n < s.part.stitches →
        dielet t n = { dielet s n with
              tick := ((dielet s n).tick + 1) % 16, cell := (dielet t n).cell, otwarn := (dielet t n).otwarn }
        ∧ (∀ c ∈ cells, c.1.val = n → (dielet t n).cell = c.2.1.toNat
            ∧ ((dielet t n).otwarn = true ↔
                (8 * (100 + 5 * dieletField (dielet s n) (R.STI_LIMIT_OT_TH 0)) : Int) ≤ signed 12 c.2.2.toNat))
        ∧ ((∀ c ∈ cells, c.1.val ≠ n) →
            (dielet t n).cell = (dielet s n).cell ∧ (dielet t n).otwarn = (dielet s n).otwarn)) := by
  refine ⟨_, exec_telemetryTick cells s, telemetryTick_frame hcells s, fun n h => dielet_telemetryTick_of_not hcells s h,
    fun n hawake hthere => ⟨?_, fun c hmem hcn => ?_, fun hcn => ?_⟩⟩
  · by_cases hc : ∃ c ∈ cells, c.1.val = n
    · obtain ⟨c, hmem, hcn⟩ := hc
      rw [dielet_telemetryTick_sampled hcells s hawake hthere hmem hcn]
    · rw [dielet_telemetryTick_unsampled hcells s hawake hthere fun c hmem hcn => hc ⟨c, hmem, hcn⟩]
  · rw [dielet_telemetryTick_sampled hcells s hawake hthere hmem hcn]
    exact ⟨rfl, decide_eq_true_iff⟩
  · rw [dielet_telemetryTick_unsampled hcells s hawake hthere hcn]
    exact ⟨rfl, rfl⟩

end

end Sys2Proof.Machine
end

section
/-!
PROOFS of what the controller's view of a stitch leaves alone: the registers that each operation on the view writes, and the link
behind it.
-/
namespace Sys2Proof.Machine

/-- SEAM_CAP and SEAM_STATE of every seam: what a change of a stitch's state shows in (R36). -/
def capRegs : List Nat := seams.map R.SEAM_CAP ++ seams.map R.SEAM_STATE

/-- Nothing differs but registers of `as`, links and dielets. -/
structure Viewed (as : List Nat) (s t : State) : Prop where
  regs : RegsOutside as s t
  rest : t = { s with regs := t.regs, links := t.links, dielets := t.dielets }

namespace Viewed
variable {as : List Nat} {s t : State}

theorem refl (as : List Nat) (s : State) : Viewed as s s := ⟨.refl _ _, rfl⟩

theorem setWord (h : Viewed as s t) (a : Nat) (w : Word) (ha : a ∈ as) : Viewed as s (t.setWord a w) := by
  refine ⟨h.regs.setWord a w ha, ?_⟩
  conv_lhs => rw [h.rest]
  rfl

theorem put (h : Viewed as s t) (f : Field) (v : Nat) (ha : f.addr ∈ as) : Viewed as s (t.put f v) := h.setWord _ _ ha

theorem flag (h : Viewed as s t) (f : Field) (b : Bool) (ha : f.addr ∈ as) : Viewed as s (t.flag f b) := h.put _ _ ha

theorem setLink (h : Viewed as s t) (n : Nat) (l : LinkEnd) : Viewed as s (setLink t n l) := by
  refine ⟨h.regs.of_regs rfl, ?_⟩
  conv_lhs => rw [h.rest]
  rfl

theorem setDielet (h : Viewed as s t) (n : Nat) (d : Dielet) : Viewed as s (setDielet t n d) := by
  refine ⟨h.regs.of_regs rfl, ?_⟩
  conv_lhs => rw [h.rest]
  rfl

theorem retired (h : Viewed as s t) (m : Nat) : retired t m = retired s m := by
  rw [h.rest]
  rfl

theorem trans {u : State} (h : Viewed as s t) (h' : Viewed as t u) : Viewed as s u :=
  ⟨h.regs.trans h'.regs, by rw [h'.rest, h.rest]⟩

theorem mono {bs : List Nat} (h : Viewed as s t) (hsub : as ⊆ bs) : Viewed bs s t := ⟨h.regs.mono hsub, h.rest⟩

theorem ite {u : State} {c : Prop} [Decidable c] (ht : Viewed as s t) (hu : Viewed as s u) : Viewed as s (if c then t else u) := by
  split <;> assumption

theorem hearOff (h : Viewed as s t) (n : Nat) : Viewed as s (hearOff n t) := by
  unfold Machine.hearOff
  refine h.ite ?_
  split
  · exact h.setDielet n _
  · exact h.setDielet n _
  · exact h

theorem putSymbol (h : Viewed as s t) (n c : Nat) : Viewed as s (putSymbol n c t) :=
  ((h.setLink n _).hearOff n).ite (((h.setLink n _).setDielet n _).ite (h.setLink n _))

theorem syncCmd (h : Viewed as s t) (n : Nat) : Viewed as s (syncCmd n t) := h.ite (h.putSymbol n _)

theorem setView (h : Viewed as s t) {n : Nat} (hn : R.STI_STATE n ∈ as) (st c : Nat) : Viewed as s (setView n st c t) :=
  (h.put _ _ hn).put _ _ hn

theorem noteView (h : Viewed as s t) {n : Nat} (hn : R.STI_STATE n ∈ as) (st c : Nat) : Viewed as s (noteView n st c t) :=
  (h.setView hn st c).ite ((h.setView hn st c).setLink n _)

theorem refreshCap (h : Viewed as s t) {n : Nat} (hcap : R.SEAM_CAP n ∈ as) (hstate : R.SEAM_STATE n ∈ as) :
    Viewed as s (refreshCap n t) :=
  ((((h.put _ _ hcap).put _ _ hcap).put _ _ hcap).put _ _ hstate).ite h

theorem refreshCaps (h : Viewed as s t) (hcaps : capRegs ⊆ as) : Viewed as s (refreshCaps t) := by
  have hround : ∀ l : List Nat, l ⊆ seams → ∀ b, Viewed as s b → Viewed as s (forL l Machine.refreshCap b) := by
    intro l
    induction l with
    | nil => exact fun _ b hb => hb
    | cons n l ih =>
      intro hl b hb
      have hn : n ∈ seams := hl (List.mem_cons_self ..)
      exact ih (fun m hm => hl (List.mem_cons_of_mem n hm)) _ (hb.refreshCap
        (hcaps (List.mem_append_left _ (List.mem_map_of_mem hn))) (hcaps (List.mem_append_right _ (List.mem_map_of_mem hn))))
  exact hround seams (fun _ h => h) t h

theorem checkSetok (h : Viewed as s t) {n : Nat} (hn : R.STI_STATE n ∈ as) : Viewed as s (checkSetok n t) :=
  (h.flag _ _ hn).ite h

theorem checkPcdone (h : Viewed as s t) (ha : R.PWR_STAT ∈ as) : Viewed as s (checkPcdone t) := (h.flag _ _ ha).ite h

end Viewed

/-! ### Registers apart from the capacities -/

theorem notMem_capRegs_of_sti {a : Nat} (h : 0x030000 ≤ a) (h' : a < 0x040000) : a ∉ capRegs := by
  have hlt : ∀ m ∈ seams, m < 64 := by decide
  simp only [capRegs, List.mem_append, List.mem_map, R.SEAM_CAP, R.SEAM_STATE, not_or, not_exists, not_and]
  exact ⟨fun m hm => by have := hlt m hm; omega, fun m hm => by have := hlt m hm; omega⟩

/-- The capacities are no register of a stitch. -/
theorem word_refreshCaps_sti (s : State) {a : Nat} (h : 0x030000 ≤ a) (h' : a < 0x040000) : (refreshCaps s).word a = s.word a :=
  ((Viewed.refl capRegs s).refreshCaps (List.Subset.refl _)).regs a (notMem_capRegs_of_sti h h')

theorem get_refreshCaps_sti (s : State) {f : Field} (h : 0x030000 ≤ f.addr) (h' : f.addr < 0x040000) :
    (refreshCaps s).get f = s.get f := congrArg (bitsOf · f.lo f.wd) (word_refreshCaps_sti s h h')

/-! ### The symbol and the link -/

theorem regs_hearOff (n : Nat) (s : State) : (hearOff n s).regs = s.regs := by
  unfold hearOff
  split
  · rfl
  · split <;> rfl

theorem regs_syncCmd (n : Nat) (s : State) : (syncCmd n s).regs = s.regs :=
  keeps_ite State.regs rfl (keeps_ite State.regs (regs_hearOff ..) (keeps_ite State.regs rfl rfl))

theorem links_hearOff (n : Nat) (s : State) : (hearOff n s).links = s.links := by
  unfold hearOff
  split
  · rfl
  · split <;> rfl

theorem links_putSymbol (n c : Nat) (s : State) : (putSymbol n c s).links = (setLink s n { link s n with cmd := c }).links :=
  keeps_ite State.links (links_hearOff ..) (keeps_ite State.links rfl rfl)

/-- The link carries what its multiplexer selects, and is as it was otherwise. -/
theorem link_syncCmd (n : Nat) (s : State) : link (syncCmd n s) n = { link s n with cmd := (linkCommand s n (link s n).cmd).1 } := by
  simp only [syncCmd]
  split
  · next h => rw [h]
  · exact (congrArg (tget _ · n) (links_putSymbol n _ s)).trans (link_setLink ..)

theorem link_refreshCaps (n : Nat) (s : State) : link (refreshCaps s) n = link s n :=
  congrArg (tget _ · n) (forL_keeps State.links _ _ _ fun m b => keeps_ite State.links (by simp only [put_links]) rfl)

/-! ### The state shown -/

section
variable (n st c : Nat) (s : State)

theorem get_state_setView (hst : st < 16) : (setView n st c s).get (R.STI_STATE_STATE n) = st := by
  rw [setView, get_put_apart _ _ _ _ (by simp [R.STI_STATE_STATE]) (by simp [R.STI_STATE_STATE, R.STI_STATE_HIZCAUSE]),
    get_put _ _ _ (by simp [R.STI_STATE_STATE])]
  exact Nat.mod_eq_of_lt hst

theorem get_cause_setView (hc : c < 256) (hst : st = stHIZ ∨ st = stFAULT) : (setView n st c s).get (R.STI_STATE_HIZCAUSE n) = c := by
  rw [setView, get_put _ _ _ (by simp [R.STI_STATE_HIZCAUSE]), if_pos hst]
  exact Nat.mod_eq_of_lt hc

theorem get_setView_apart {f : Field} (hlo : 16 ≤ f.lo) (hhi : f.lo + f.wd ≤ 28) : (setView n st c s).get f = s.get f := by
  rw [setView, get_put_apart _ _ _ _ (by omega) (.inr (by simpa [R.STI_STATE_HIZCAUSE] using hlo)),
    get_put_apart _ _ _ _ (by omega) (.inl (by simpa [R.STI_STATE_STATE] using hhi))]

theorem regs_noteView : (noteView n st c s).regs = (setView n st c s).regs := keeps_ite State.regs rfl (setLink_regs ..)

theorem link_out_noteView : (link (noteView n st c s) n).out = (link s n).out := by
  have hlink : link (setView n st c s) n = link s n := congrArg (tget _ · n) (by simp only [setView, put_links])
  simp only [noteView]
  split
  · rw [hlink]
  · rw [link_setLink, hlink]

end

end Sys2Proof.Machine
end

section
/-!
PROOFS of the statement on telemetry: what an uplink frame shows, what an alert does, and how an uplink is lost.
-/
namespace Sys2Proof.Machine

/-! ### An uplink frame of a stitch seen awake (Table 4.11, R86, R89) -/

/-- The field that AUXSEL names, by its low bits. -/
def auxField (n k : Nat) : Field :=
  if k = 0 then R.STI_TEL0_TEMP n else if k = 1 then R.STI_TEL1_VBST n else if k = 2 then R.STI_TEL1_VGD n else R.STI_TEL1_VNEGM n

/-- The samples of an uplink frame. -/
def samplesShown (n : Nat) (u : UplinkFrame) (s : State) : State :=
  ((s.put (R.STI_TEL0_SEQ n) u.seq.toNat).put (R.STI_TEL0_VCELL n) u.vcell.toNat).put (auxField n (u.auxsel.toNat % 4)) u.aux.toNat

/-- Its strength step and its edge time, of the setting that EDGESEL names. -/
def edgeShown (n : Nat) (u : UplinkFrame) (s : State) : State :=
  (s.put ⟨R.STI_STR n, 8 * u.edgesel.toNat, 6⟩ u.str.toNat).put ⟨R.STI_EDGE n, 8 * u.edgesel.toNat, 8⟩ u.etime.toNat

/-- Its flags. -/
def flagsShown (n : Nat) (u : UplinkFrame) (s : State) : State :=
  ((((hearBst n (tb u.flags.toNat 7) none s).flag (R.STI_STATE_OTWARN n) (tb u.flags.toNat 6)).flag
    (R.STI_STATE_CLAMP n) (tb u.flags.toNat 5)).flag (R.STI_STATE_TOPUP n) (tb u.flags.toNat 4)).flag
    (R.STI_STATE_BLEED n) (tb u.flags.toNat 3)

/-- The state that the frame gives the view, the symbol that its link carries then, and the age of its sample. -/
def stateShown (n : Nat) (u : UplinkFrame) (s : State) : State :=
  let t := syncCmd n (noteView n (viewFrom s n u.state.toNat) (s.get (R.STI_STATE_HIZCAUSE n)) s)
  setLink t n { link t n with telTick := t.telTick - (t.telTick + 16 - u.seq.toNat) % 16 }

/-- What the frame makes of the view, its acknowledgement included. -/
def viewShown (n : Nat) (u : UplinkFrame) (s : State) : State := ackIn n u.ack.toNat (stateShown n u s)

/-- What follows the view: capacities and PCDONE. -/
def viewFollows (n was : Nat) (s : State) : State :=
  checkPcdone (if s.get (R.STI_STATE_STATE n) = was then s else refreshCaps s)

section
variable {n : Nat} {s : State}

theorem heard_of_awake {was : Nat} (h : 2 ≤ was) : heard n was s = s := by
  rw [heard, if_neg (by unfold stASLEEP; omega), if_neg (by unfold stWAKING; omega)]

theorem viewRises_of_awake {was : Nat} (h : 2 ≤ was) : viewRises n was s = s := if_neg fun hwas => absurd hwas.1 (Nat.not_lt.2 h)

theorem uplinkIn_of_awake (h : 2 ≤ s.get (R.STI_STATE_STATE n)) (u : UplinkFrame) : uplinkIn n u s =
    viewFollows n (s.get (R.STI_STATE_STATE n)) (viewShown n u (flagsShown n u (edgeShown n u (samplesShown n u s)))) := by
  simp only [viewFollows, viewShown, stateShown, flagsShown, edgeShown, samplesShown]
  simp only [uplinkIn, heard_of_awake h, viewRises_of_awake h, ite_self]
  split
  case h_4 h0 h1 h2 => simp only [auxField, if_neg h0, if_neg h1, if_neg h2]
  all_goals simp only [auxField, reduceIte, one_ne_zero, OfNat.ofNat_ne_zero, OfNat.ofNat_ne_one, *]

/-- With no frame out, an acknowledgement takes none; SETOK may follow (R85). -/
theorem ackIn_of_no_frame (hout : (link s n).out = []) (seq : Nat) : ackIn n seq s = checkSetok n (setLink s n (link s n)) := by
  have hacked : acked seq (link s n).out = ([], []) := by rw [hout]; rfl
  have hlink : { link s n with out := [] } = link s n := by rw [← hout]
  simp only [ackIn, hacked, List.any_nil, Bool.false_eq_true, if_false, hlink]

end

/-! ### The registers of a frame -/

/-- What stands when the samples and the edge of a frame have been shown. -/
def frameEnds (n was : Nat) (u : UplinkFrame) (s : State) : State := viewFollows n was (viewShown n u (flagsShown n u s))

section
variable {n : Nat} {s t : State} (u : UplinkFrame) {as : List Nat}

theorem auxField_addr (n k : Nat) : (auxField n k).addr ∈ [R.STI_TEL0 n, R.STI_TEL1 n] := by
  unfold auxField
  split_ifs
  · exact List.mem_cons_self ..
  all_goals exact List.mem_cons_of_mem _ (List.mem_cons_self ..)

theorem regsOutside_samplesShown : RegsOutside [R.STI_TEL0 n, R.STI_TEL1 n] s (samplesShown n u s) := by
  have htel0 : R.STI_TEL0 n ∈ [R.STI_TEL0 n, R.STI_TEL1 n] := List.mem_cons_self ..
  exact (((RegsOutside.refl _ s).put _ _ htel0).put _ _ htel0).put _ _ (auxField_addr n _)

theorem regsOutside_edgeShown : RegsOutside [R.STI_STR n, R.STI_EDGE n] s (edgeShown n u s) := by
  have hstr : R.STI_STR n ∈ [R.STI_STR n, R.STI_EDGE n] := List.mem_cons_self ..
  have hedge : R.STI_EDGE n ∈ [R.STI_STR n, R.STI_EDGE n] := List.mem_cons_of_mem _ (List.mem_cons_self ..)
  exact ((RegsOutside.refl _ s).put _ _ hstr).put _ _ hedge

theorem regsOutside_flagsShown (hstate : R.STI_STATE n ∈ as) : RegsOutside as s (flagsShown n u s) := by
  have hbst : RegsOutside as s (hearBst n (tb u.flags.toNat 7) none s) := ((RegsOutside.refl as s).flag _ _ hstate).of_regs rfl
  exact (((hbst.flag _ _ hstate).flag _ _ hstate).flag _ _ hstate).flag _ _ hstate

theorem link_out_stateShown : (link (stateShown n u s) n).out = (link s n).out := by
  rw [stateShown, link_setLink, link_syncCmd]
  exact link_out_noteView ..

theorem link_out_flagsShown : (link (flagsShown n u s) n).out = (link s n).out := by
  rw [link, link, show (flagsShown n u s).links = s.links by simp only [flagsShown, flag_links, hearBst, setFraction]]

theorem viewed_viewShown (hout : (link s n).out = []) (hstate : R.STI_STATE n ∈ as) : Viewed as s (viewShown n u s) := by
  have hshown : Viewed as s (stateShown n u s) := (((Viewed.refl as s).noteView hstate _ _).syncCmd n).setLink n _
  rw [viewShown, ackIn_of_no_frame (by rw [link_out_stateShown, hout])]
  exact (hshown.setLink n _).checkSetok hstate

theorem viewed_viewFollows (h : Viewed as s t) (was : Nat) (hcaps : capRegs ⊆ as) (hstat : R.PWR_STAT ∈ as) :
    Viewed as s (viewFollows n was t) := (h.ite (h.refreshCaps hcaps)).checkPcdone hstat

theorem regsOutside_frameEnds (hout : (link s n).out = []) (was : Nat) :
    RegsOutside ([R.STI_STATE n, R.PWR_STAT] ++ capRegs) s (frameEnds n was u s) := by
  have hstate : R.STI_STATE n ∈ [R.STI_STATE n, R.PWR_STAT] ++ capRegs := List.mem_cons_self ..
  have hview := viewed_viewShown u (s := flagsShown n u s) (by rw [link_out_flagsShown, hout]) hstate
  exact (regsOutside_flagsShown u hstate).trans
    (viewed_viewFollows hview was (List.subset_append_right ..) (List.mem_cons_of_mem _ (List.mem_cons_self ..))).regs

end

/-! ### What a frame shows -/

section
variable (n : Nat) (u : UplinkFrame) (s : State)

/-- The auxiliary values leave the upper half of STI_TEL0. -/
theorem get_put_auxField {f : Field} (haddr : f.addr = R.STI_TEL0 n) (hlo : 12 ≤ f.lo) (hhi : f.lo + f.wd ≤ 32) (k v : Nat) :
    (s.put (auxField n k) v).get f = s.get f := by
  have htel1 : f.addr ≠ R.STI_TEL1 n := by rw [haddr]; simp only [R.STI_TEL0, R.STI_TEL1]; omega
  unfold auxField
  split_ifs
  · exact get_put_apart _ _ _ _ hhi (.inr hlo)
  all_goals exact get_put_ne _ _ _ _ htel1

theorem seq_samplesShown : (samplesShown n u s).get (R.STI_TEL0_SEQ n) = u.seq.toNat := by
  rw [samplesShown, get_put_auxField n _ rfl (by simp [R.STI_TEL0_SEQ]) (by simp [R.STI_TEL0_SEQ]),
    get_put_apart _ _ _ _ (by simp [R.STI_TEL0_SEQ]) (by simp [R.STI_TEL0_SEQ, R.STI_TEL0_VCELL]),
    get_put _ _ _ (by simp [R.STI_TEL0_SEQ])]
  exact Nat.mod_eq_of_lt u.seq.isLt

theorem vcell_samplesShown : (samplesShown n u s).get (R.STI_TEL0_VCELL n) = u.vcell.toNat := by
  rw [samplesShown, get_put_auxField n _ rfl (by simp [R.STI_TEL0_VCELL]) (by simp [R.STI_TEL0_VCELL]),
    get_put _ _ _ (by simp [R.STI_TEL0_VCELL])]
  exact Nat.mod_eq_of_lt u.vcell.isLt

theorem temp_samplesShown (hsel : u.auxsel.toNat % 4 = 0) : (samplesShown n u s).get (R.STI_TEL0_TEMP n) = u.aux.toNat := by
  rw [samplesShown, hsel, show auxField n 0 = R.STI_TEL0_TEMP n from rfl, get_put _ _ _ (by simp [R.STI_TEL0_TEMP])]
  exact Nat.mod_eq_of_lt u.aux.isLt

theorem vbst_samplesShown (hsel : u.auxsel.toNat % 4 = 1) :
    (samplesShown n u s).get (R.STI_TEL1_VBST n) = u.aux.toNat % 2 ^ (R.STI_TEL1_VBST n).wd := by
  rw [samplesShown, hsel, show auxField n 1 = R.STI_TEL1_VBST n from rfl]
  exact get_put _ _ _ (by simp [R.STI_TEL1_VBST])

theorem str_edgeShown : bitsOf ((edgeShown n u s).word (R.STI_STR n)) (8 * u.edgesel.toNat) 6 = u.str.toNat := by
  have hsel : u.edgesel.toNat < 4 := u.edgesel.isLt
  have hstr : R.STI_STR n ≠ R.STI_EDGE n := by simp only [R.STI_STR, R.STI_EDGE]; omega
  rw [edgeShown, word_put_ne _ _ _ _ hstr]
  exact (get_put _ ⟨R.STI_STR n, 8 * u.edgesel.toNat, 6⟩ _ (by dsimp only; omega)).trans (Nat.mod_eq_of_lt u.str.isLt)

theorem etime_edgeShown : bitsOf ((edgeShown n u s).word (R.STI_EDGE n)) (8 * u.edgesel.toNat) 8 = u.etime.toNat := by
  have hsel : u.edgesel.toNat < 4 := u.edgesel.isLt
  exact (get_put _ ⟨R.STI_EDGE n, 8 * u.edgesel.toNat, 8⟩ _ (by dsimp only; omega)).trans (Nat.mod_eq_of_lt u.etime.isLt)

/-! ### The flags of STI_STATE -/

variable {n u s} {a i j : Nat} {b : Bool}

theorem on_bit_self (hi : i < 32) : (s.flag ⟨a, i, 1⟩ b).on ⟨a, i, 1⟩ = b := on_flag _ _ _ hi rfl

theorem on_bit_other (hj : j < 32) (hne : j ≠ i) : (s.flag ⟨a, i, 1⟩ b).on ⟨a, j, 1⟩ = s.on ⟨a, j, 1⟩ :=
  on_flag_other _ _ _ _ hj (.inr (by dsimp only; omega))

variable (n u s)

theorem bleed_flagsShown : (flagsShown n u s).on (R.STI_STATE_BLEED n) = u.flags.getLsbD 3 :=
  (on_bit_self (by decide)).trans (tb_eq_testBit _ _)

theorem topup_flagsShown : (flagsShown n u s).on (R.STI_STATE_TOPUP n) = u.flags.getLsbD 4 :=
  (on_bit_other (i := 20) (j := 24) (by decide) (by decide)).trans ((on_bit_self (by decide)).trans (tb_eq_testBit _ _))

theorem clamp_flagsShown : (flagsShown n u s).on (R.STI_STATE_CLAMP n) = u.flags.getLsbD 5 :=
  (on_bit_other (i := 20) (j := 25) (by decide) (by decide)).trans <|
    (on_bit_other (i := 24) (j := 25) (by decide) (by decide)).trans ((on_bit_self (by decide)).trans (tb_eq_testBit _ _))

theorem otwarn_flagsShown : (flagsShown n u s).on (R.STI_STATE_OTWARN n) = u.flags.getLsbD 6 :=
  (on_bit_other (i := 20) (j := 21) (by decide) (by decide)).trans <|
    (on_bit_other (i := 24) (j := 21) (by decide) (by decide)).trans <|
    (on_bit_other (i := 25) (j := 21) (by decide) (by decide)).trans ((on_bit_self (by decide)).trans (tb_eq_testBit _ _))

theorem on_hearBst (b : Bool) (at_ : Option Nat) (f : Field) :
    (hearBst n b at_ s).on f = (s.flag (R.STI_STATE_BSTREQ n) b).on f := on_setFraction ..

theorem bstreq_flagsShown : (flagsShown n u s).on (R.STI_STATE_BSTREQ n) = u.flags.getLsbD 7 :=
  (on_bit_other (i := 20) (j := 23) (by decide) (by decide)).trans <|
    (on_bit_other (i := 24) (j := 23) (by decide) (by decide)).trans <|
    (on_bit_other (i := 25) (j := 23) (by decide) (by decide)).trans <|
    (on_bit_other (i := 21) (j := 23) (by decide) (by decide)).trans <|
    (on_hearBst ..).trans ((on_bit_self (by decide)).trans (tb_eq_testBit _ _))

/-! ### What follows leaves the flags alone -/

variable {n u s} {t : State}

theorem get_stateShown {f : Field} (hlo : 16 ≤ f.lo) (hhi : f.lo + f.wd ≤ 28) : (stateShown n u s).get f = s.get f := by
  have hregs : (stateShown n u s).regs = (setView n (viewFrom s n u.state.toNat) (s.get (R.STI_STATE_HIZCAUSE n)) s).regs := by
    rw [stateShown, setLink_regs, regs_syncCmd, regs_noteView]
  exact (get_congr hregs f).trans (get_setView_apart _ _ _ _ hlo hhi)

theorem get_checkSetok {f : Field} (hlo : 19 ≤ f.lo) (hhi : f.lo + f.wd ≤ 32) : (checkSetok n s).get f = s.get f :=
  keeps_ite (·.get f) (get_put_apart _ _ _ _ hhi (.inr hlo)) rfl

theorem get_viewFollows {f : Field} (h : 0x030000 ≤ f.addr) (h' : f.addr < 0x040000) (was : Nat) :
    (viewFollows n was s).get f = s.get f := by
  have hstat : f.addr ≠ R.PWR_STAT := by simp only [R.PWR_STAT]; omega
  exact (keeps_ite (·.get f) (get_put_ne _ _ _ _ hstat) rfl).trans (keeps_ite (·.get f) rfl (get_refreshCaps_sti s h h'))

/-- Only STATE, HIZCAUSE and SETOK of STI_STATE follow the state that a frame carries. -/
theorem get_frameEnds (hn : n < 96) (hout : (link s n).out = []) {f : Field} (haddr : f.addr = R.STI_STATE n) (hlo : 19 ≤ f.lo)
    (hhi : f.lo + f.wd ≤ 28) (was : Nat) : (frameEnds n was u s).get f = (flagsShown n u s).get f := by
  have haddr' : 0x030000 ≤ f.addr ∧ f.addr < 0x040000 := by rw [haddr]; simp only [R.STI_STATE]; omega
  have hnone : (link (stateShown n u (flagsShown n u s)) n).out = [] := by
    rw [link_out_stateShown, link_out_flagsShown, hout]
  rw [frameEnds, get_viewFollows haddr'.1 haddr'.2, viewShown, ackIn_of_no_frame hnone, get_checkSetok hlo (by omega),
    get_congr (setLink_regs ..), get_stateShown (by omega) hhi]

end

end Sys2Proof.Machine
end

section
/-!
PROOFS of the statement on telemetry: the frame as a command, alerts, and the loss of an uplink.
-/
namespace Sys2Proof.Machine

/-! ### A good uplink frame -/

/-- The registers that a good uplink frame may change. -/
def uplinkRegs (n : Nat) : List Nat :=
  [R.STI_TEL0 n, R.STI_TEL1 n, R.STI_STR n, R.STI_EDGE n, R.STI_STATE n, R.PWR_STAT] ++ capRegs

/-- What stands after a good uplink frame of a stitch seen awake. -/
def uplinkShown (n : Nat) (u : UplinkFrame) (s : State) : State :=
  frameEnds n (s.get (R.STI_STATE_STATE n)) u (edgeShown n u (samplesShown n u s))

theorem exec_uplinkFrame_good {n : Fin 96} {s : State} (hthere : stitchThere s n = true) (hpd5 : domOn s 5 = true) {u : UplinkFrame}
    (hcrc : u.crcOk = true) (hawake : 2 ≤ s.get (R.STI_STATE_STATE n)) : exec (.uplinkFrame n u) s = .next (uplinkShown n u s) := by
  show atStitch n s _ = _
  rw [atStitch, if_pos hthere, if_pos hpd5, if_pos hcrc, uplinkIn_of_awake hawake, uplinkShown, frameEnds]

section
variable {n : Nat} {s : State} (u : UplinkFrame) (hn : n < 96) (hout : (link s n).out = [])

theorem link_out_edgeShown : (link (edgeShown n u (samplesShown n u s)) n).out = (link s n).out := by
  rw [link, link, show (edgeShown n u (samplesShown n u s)).links = s.links by simp only [edgeShown, samplesShown, put_links]]

include hout

theorem regsOutside_uplinkShown : RegsOutside (uplinkRegs n) s (uplinkShown n u s) := by
  have hends := regsOutside_frameEnds u (s := edgeShown n u (samplesShown n u s)) (by rw [link_out_edgeShown, hout])
    (s.get (R.STI_STATE_STATE n))
  have htel : [R.STI_TEL0 n, R.STI_TEL1 n] ⊆ uplinkRegs n := by simp [uplinkRegs]
  have hedge : [R.STI_STR n, R.STI_EDGE n] ⊆ uplinkRegs n := by simp [uplinkRegs]
  have hview : [R.STI_STATE n, R.PWR_STAT] ++ capRegs ⊆ uplinkRegs n := by simp [uplinkRegs, List.subset_def]; tauto
  exact ((regsOutside_samplesShown u).mono htel).trans (((regsOutside_edgeShown u).mono hedge).trans (hends.mono hview))

/-- Only STI_STATE follows the state that the frame carries. -/
theorem word_uplinkShown {a : Nat} (h : 0x030000 ≤ a) (h' : a < 0x040000) (hstate : a ≠ R.STI_STATE n) :
    (uplinkShown n u s).word a = (edgeShown n u (samplesShown n u s)).word a := by
  refine regsOutside_frameEnds u (by rw [link_out_edgeShown, hout]) _ a ?_
  have hstat : a ≠ R.PWR_STAT := by simp only [R.PWR_STAT]; omega
  simp [hstate, hstat, notMem_capRegs_of_sti h h']

include hn

theorem get_uplinkShown_tel {f : Field} (haddr : f.addr = R.STI_TEL0 n ∨ f.addr = R.STI_TEL1 n) :
    (uplinkShown n u s).get f = (samplesShown n u s).get f := by
  have ha : 0x030000 ≤ f.addr ∧ f.addr < 0x040000 ∧ f.addr ≠ R.STI_STATE n ∧ f.addr ∉ [R.STI_STR n, R.STI_EDGE n] := by
    simp only [List.mem_cons, List.not_mem_nil, or_false, R.STI_TEL0, R.STI_TEL1, R.STI_STATE, R.STI_STR, R.STI_EDGE] at haddr ⊢
    omega
  obtain ⟨hlo, hhi, hstate, hedge⟩ := ha
  exact (congrArg (bitsOf · f.lo f.wd) (word_uplinkShown u hout hlo hhi hstate)).trans ((regsOutside_edgeShown u).get hedge)

theorem on_uplinkShown {f : Field} (haddr : f.addr = R.STI_STATE n) (hlo : 19 ≤ f.lo) (hhi : f.lo + f.wd ≤ 28) :
    (uplinkShown n u s).on f = (flagsShown n u (edgeShown n u (samplesShown n u s))).on f :=
  congrArg (· == 1) (get_frameEnds hn (by rw [link_out_edgeShown, hout]) haddr hlo hhi _)

theorem str_uplinkShown : bitsOf ((uplinkShown n u s).word (R.STI_STR n)) (8 * u.edgesel.toNat) 6 = u.str.toNat := by
  have hstr : 0x030000 ≤ R.STI_STR n ∧ R.STI_STR n < 0x040000 ∧ R.STI_STR n ≠ R.STI_STATE n := by
    simp only [R.STI_STR, R.STI_STATE]; omega
  rw [word_uplinkShown u hout hstr.1 hstr.2.1 hstr.2.2, str_edgeShown]

theorem etime_uplinkShown : bitsOf ((uplinkShown n u s).word (R.STI_EDGE n)) (8 * u.edgesel.toNat) 8 = u.etime.toNat := by
  have hedge : 0x030000 ≤ R.STI_EDGE n ∧ R.STI_EDGE n < 0x040000 ∧ R.STI_EDGE n ≠ R.STI_STATE n := by
    simp only [R.STI_EDGE, R.STI_STATE]; omega
  rw [word_uplinkShown u hout hedge.1 hedge.2.1 hedge.2.2, etime_edgeShown]

theorem flags_uplinkShown :
    (uplinkShown n u s).on (R.STI_STATE_BSTREQ n) = u.flags.getLsbD 7 ∧ (uplinkShown n u s).on (R.STI_STATE_OTWARN n) = u.flags.getLsbD 6
      ∧ (uplinkShown n u s).on (R.STI_STATE_CLAMP n) = u.flags.getLsbD 5
      ∧ (uplinkShown n u s).on (R.STI_STATE_TOPUP n) = u.flags.getLsbD 4
      ∧ (uplinkShown n u s).on (R.STI_STATE_BLEED n) = u.flags.getLsbD 3 := by
  have hon : ∀ i, 19 ≤ i → i < 28 → (uplinkShown n u s).on ⟨R.STI_STATE n, i, 1⟩ =
      (flagsShown n u (edgeShown n u (samplesShown n u s))).on ⟨R.STI_STATE n, i, 1⟩ :=
    fun i hlo hhi => on_uplinkShown u hn hout rfl hlo hhi
  exact ⟨(hon 23 (by decide) (by decide)).trans (bstreq_flagsShown ..), (hon 21 (by decide) (by decide)).trans (otwarn_flagsShown ..),
    (hon 25 (by decide) (by decide)).trans (clamp_flagsShown ..), (hon 24 (by decide) (by decide)).trans (topup_flagsShown ..),
    (hon 20 (by decide) (by decide)).trans (bleed_flagsShown ..)⟩

end

/-! ### Alerts (R77, R82) -/

/-- The alert leaves the list of the dielet. -/
def alertTaken (n k : Nat) (s : State) : State := onDielet n (fun d => { d with alerts := d.alerts.erase k }) s

theorem exec_uplinkAlert {n : Fin 96} {s : State} (hthere : stitchThere s n = true) (hpd5 : domOn s 5 = true) {c : Alert}
    {k : Nat} (hk : c.code.toNat = k) (hknown : causeClass k ≠ 0 ∨ k = 0x10 ∨ k = 0x40 ∨ k = 0x41) :
    exec (.uplinkAlert n c) s = .next (alertIn n k c.at_ (alertTaken n k s)) := by
  subst hk
  show atStitch n s _ = _
  rw [atStitch, if_pos hthere, if_pos ⟨hpd5, hknown⟩, alertTaken]

section
variable (n : Nat) (s : State)

/-- A request of the bootstrap that an alert brings. -/
theorem alertIn_bst (at_ : Nat) : alertIn n 0x40 at_ s = setFraction (s.flag (R.STI_STATE_BSTREQ n) true) n { fraction s n with
    asked := some (max ((fraction s n).now : Int) ((at_ : Int) - (fraction s n).start)) } := by
  unfold alertIn
  rw [if_pos rfl]
  rfl

theorem fraction_setFraction_ne {m : Nat} (x : Fraction) (h : m ≠ n) : fraction (setFraction s n x) m = fraction s m :=
  tget_tset_ne _ _ _ h

/-- A dielet, a flag and a fraction of one stitch change, nothing else. -/
theorem fractionShown_spec {f : Field} (hlo : f.lo + f.wd ≤ 32) (hwd : f.wd = 1) (d : Dielet) (x : Fraction) (t : State)
    (ht : t = setFraction ((setDielet s n d).flag f true) n x) :
    RegsOutside [f.addr] s t ∧ t.on f = true
      ∧ t = { s with regs := t.regs, dielets := t.dielets, fractions := t.fractions } ∧ fraction t n = x
      ∧ (∀ m, m ≠ n → fraction t m = fraction s m) ∧ dielet t n = d ∧ ∀ m, m ≠ n → dielet t m = dielet s m := by
  subst ht
  have hshown : RegsOutside [f.addr] s ((setDielet s n d).flag f true) :=
    ((RegsOutside.refl _ s).of_regs (setDielet_regs ..)).flag f true (List.mem_singleton_self _)
  exact ⟨hshown.of_regs rfl, (on_setFraction ..).trans (on_flag _ _ _ hlo hwd), rfl, fraction_setFraction ..,
    fun m hm => fraction_setFraction_ne n _ x hm, dielet_setDielet s n d, fun m hm => dielet_setDielet_ne s n m d hm⟩

variable {n s}

/-- HIZ with cause HOLD: no class, so no occurrence. -/
theorem alertIn_hold (hst : s.get (R.STI_STATE_STATE n) = 2 ∨ s.get (R.STI_STATE_STATE n) = 3) (hret : retired s n = false)
    (at_ : Nat) : alertIn n 0x10 at_ s = refreshCaps (syncCmd n (noteView n stHIZ 0x10 (stickCause n 0x10 s))) := by
  have hawake : 2 ≤ s.get (R.STI_STATE_STATE n) := by omega
  have hview : s.get (R.STI_STATE_STATE n) = stIDLE ∨ s.get (R.STI_STATE_STATE n) = stRUN := hst
  have hclass : causeClass 0x10 = 0 := rfl
  simp [alertIn, causeOccurs, hclass, heard_of_awake hawake, viewRises_of_awake hawake, hret, hview]

/-- A stitch in HIZ that is not retired is sent OFF (R14, R25). -/
theorem linkCommand_of_hiz (hst : s.get (R.STI_STATE_STATE n) = stHIZ) (hret : retired s n = false) (m : Nat) :
    (linkCommand s n m).1 = 0 := by
  cases hhem : hemActive s with
  | true => rw [linkCommand_hemActive hhem]
  | false =>
    by_cases ho : ownerOf s n = 0
    · rw [linkCommand_unclaimed ho]
    · rw [linkCommand_not_driven hhem ho hret fun hdriven => by simp [hdriven.run, stHIZ] at hst]

end

/-- An alert 0x40: a request that waits for its refresh, no earlier than the last instant known (R114). -/
theorem uplinkAlert_bst_spec {n : Fin 96} {s : State} (hthere : stitchThere s n = true) (hpd5 : domOn s 5 = true) (at_ : Nat) :
    ∃ t, exec (.uplinkAlert n ⟨0x40, at_⟩) s = .next t ∧ RegsOutside [R.STI_STATE n] s t ∧ t.on (R.STI_STATE_BSTREQ n) = true
      ∧ t = { s with regs := t.regs, dielets := t.dielets, fractions := t.fractions }
      ∧ fraction t n = { fraction s n with
            asked := some (max ((fraction s n).now : Int) ((at_ : Int) - (fraction s n).start)) }
      ∧ (∀ m, m ≠ n.val → fraction t m = fraction s m)
      ∧ dielet t n = { dielet s n with alerts := (dielet s n).alerts.erase 0x40 }
      ∧ ∀ m, m ≠ n.val → dielet t m = dielet s m := by
  have hexec := exec_uplinkAlert hthere hpd5 (c := ⟨0x40, at_⟩) (k := 0x40) rfl (.inr (.inr (.inl rfl)))
  rw [alertIn_bst] at hexec
  exact ⟨_, hexec, fractionShown_spec n s (f := R.STI_STATE_BSTREQ n) (show 23 + 1 ≤ 32 by decide) rfl _ _ _ rfl⟩

/-! ### HOLD heard, and an uplink that falls silent (R81, R82, R87) -/

/-- What an alert of HOLD makes of the view. -/
def holdShown (n : Nat) (s : State) : State := refreshCaps (syncCmd n (noteView n stHIZ 0x10 (stickCause n 0x10 s)))

section
variable (n : Fin 96) (s : State)

theorem sti_range {a : Nat} (h : a = R.STI_STATE n ∨ a = R.STI_FCAUSE n) : 0x030000 ≤ a ∧ a < 0x040000 := by
  simp only [R.STI_STATE, R.STI_FCAUSE] at h
  omega

theorem viewed_hold : Viewed [R.STI_STATE n, R.STI_FCAUSE n] s (noteView n stHIZ 0x10 (stickCause n 0x10 s)) := by
  have hstate : R.STI_STATE n ∈ [R.STI_STATE n.val, R.STI_FCAUSE n] := List.mem_cons_self ..
  have hcause : R.STI_FCAUSE n ∈ [R.STI_STATE n.val, R.STI_FCAUSE n] := List.mem_cons_of_mem _ (List.mem_cons_self ..)
  exact ((Viewed.refl _ s).put _ _ hcause).noteView hstate _ _

theorem viewed_holdShown : Viewed ([R.STI_STATE n, R.STI_FCAUSE n] ++ capRegs) s (holdShown n s) :=
  (((viewed_hold n s).mono (List.subset_append_left ..)).syncCmd n).refreshCaps (List.subset_append_right ..)

/-- STI_STATE and STI_FCAUSE do not follow the symbol or the capacities. -/
theorem get_holdShown {f : Field} (h : f.addr = R.STI_STATE n ∨ f.addr = R.STI_FCAUSE n) :
    (holdShown n s).get f = (setView n stHIZ 0x10 (stickCause n 0x10 s)).get f := by
  rw [holdShown, get_refreshCaps_sti _ (sti_range n h).1 (sti_range n h).2, get_congr (regs_syncCmd ..), get_congr (regs_noteView ..)]

theorem get_fcause_holdShown : (holdShown n s).get (R.STI_FCAUSE_MAP n) =
    (s.get (R.STI_FCAUSE_MAP n) ||| 2 ^ 15) % 2 ^ (R.STI_FCAUSE_MAP n).wd := by
  have hstate : R.STI_FCAUSE n ≠ R.STI_STATE n := by simp only [R.STI_STATE, R.STI_FCAUSE]; omega
  rw [get_holdShown n s (.inr rfl), State.get, show (R.STI_FCAUSE_MAP n).addr = R.STI_FCAUSE n from rfl, word_setView _ _ _ _ _ hstate]
  exact get_put s _ _ (by simp [R.STI_FCAUSE_MAP])

theorem cmd_syncCmd : (link (refreshCaps (syncCmd n s)) n).cmd = (linkCommand s n (link s n).cmd).1 := by
  rw [link_refreshCaps, link_syncCmd]

theorem get_state_noteView {st : Nat} (hst : st < 16) (c : Nat) : (noteView n st c s).get (R.STI_STATE_STATE n) = st :=
  (get_congr (regs_noteView ..) _).trans (get_state_setView _ _ _ _ hst)

theorem cmd_holdShown (hret : retired s n = false) : (link (holdShown n s) n).cmd = 0 :=
  (cmd_syncCmd n _).trans (linkCommand_of_hiz (get_state_noteView n _ (by decide) _) (((viewed_hold n s).retired n).trans hret) _)

/-- The flags of STI_STATE below STATE leave it alone. -/
theorem get_state_flag {a i : Nat} (hi : i < 28) (b : Bool) : (s.flag ⟨a, i, 1⟩ b).get ⟨a, 28, 4⟩ = s.get ⟨a, 28, 4⟩ :=
  get_put_apart _ _ _ _ (show 28 + 4 ≤ 32 by decide) (.inr hi)

/-- The view of a stitch that falls silent, before its link. -/
def asleepShown (n : Nat) (s : State) : State :=
  ((((((((setView n stASLEEP 0 s).flag (R.STI_STATE_SETOK n) false).flag (R.STI_STATE_CLAMP n) false).flag (R.STI_STATE_TOPUP n)
    false).flag (R.STI_STATE_BSTREQ n) false).flag (R.STI_STATE_OTWARN n) false).flag (R.STI_STATE_BLEED n)
    false).flag (R.STI_STATE_HEMOFF n) false)

/-- Its link: nothing due, nothing out, silence expected. -/
def LinkEnd.silenced (l : LinkEnd) : LinkEnd :=
  { l with due := [], out := [], settings := false, held := false, silent := true, leave := false }

theorem viewAsleep_eq (n : Nat) (s : State) : viewAsleep n s =
    refreshCaps (syncCmd n (setLink (asleepShown n s) n (link (asleepShown n s) n).silenced)) := rfl

theorem viewed_asleepShown {as : List Nat} (h : R.STI_STATE n ∈ as) : Viewed as s (asleepShown n s) :=
  (((((((((Viewed.refl as s).setView h _ _).flag _ _ h).flag _ _ h).flag _ _ h).flag _ _ h).flag _ _ h).flag _ _ h).flag _ _ h)

theorem viewed_viewAsleep : Viewed ([R.STI_STATE n] ++ capRegs) s (viewAsleep n s) := by
  have hstate : R.STI_STATE n ∈ [R.STI_STATE n.val] ++ capRegs := List.mem_append_left _ (List.mem_singleton_self _)
  have hcaps : capRegs ⊆ [R.STI_STATE n.val] ++ capRegs := List.subset_append_right ..
  rw [viewAsleep_eq]
  exact (((viewed_asleepShown n s hstate).setLink n _).syncCmd n).refreshCaps hcaps

theorem get_state_asleepShown : (asleepShown n s).get (R.STI_STATE_STATE n) = 0 :=
  (get_state_flag _ (i := 26) (by decide) _).trans <| (get_state_flag _ (i := 20) (by decide) _).trans <|
  (get_state_flag _ (i := 21) (by decide) _).trans <| (get_state_flag _ (i := 23) (by decide) _).trans <|
  (get_state_flag _ (i := 24) (by decide) _).trans <| (get_state_flag _ (i := 25) (by decide) _).trans <|
  (get_state_flag _ (i := 18) (by decide) _).trans (get_state_setView _ _ _ _ (by decide))

theorem get_state_viewAsleep : (viewAsleep n s).get (R.STI_STATE_STATE n) = 0 := by
  have hrange := sti_range n (a := R.STI_STATE n) (.inl rfl)
  rw [viewAsleep_eq, get_refreshCaps_sti _ (f := R.STI_STATE_STATE n) hrange.1 hrange.2, get_congr (regs_syncCmd ..),
    get_congr (setLink_regs ..), get_state_asleepShown]

theorem link_viewAsleep : ∃ c, link (viewAsleep n s) n = { (link (asleepShown n s) n).silenced with cmd := c } := by
  rw [viewAsleep_eq, link_refreshCaps, link_syncCmd, link_setLink]
  exact ⟨_, rfl⟩

variable {n s} (hthere : stitchThere s n = true) (hpd5 : domOn s 5 = true)
include hthere hpd5

theorem uplinkAlert_hold_spec (hst : s.get (R.STI_STATE_STATE n) = 2 ∨ s.get (R.STI_STATE_STATE n) = 3)
    (hret : retired s n = false) (at_ : Nat) : ∃ t, exec (.uplinkAlert n ⟨0x10, at_⟩) s = .next t
      ∧ RegsOutside ([R.STI_STATE n, R.STI_FCAUSE n] ++ capRegs) s t
      ∧ t = { s with regs := t.regs, dielets := t.dielets, links := t.links } ∧ (link t n).cmd = 0
      ∧ t.get (R.STI_STATE_STATE n) = 4 ∧ t.get (R.STI_STATE_HIZCAUSE n) = 0x10
      ∧ t.get (R.STI_FCAUSE_MAP n) = (s.get (R.STI_FCAUSE_MAP n) ||| 2 ^ 15) % 2 ^ (R.STI_FCAUSE_MAP n).wd := by
  have htaken : Viewed ([R.STI_STATE n, R.STI_FCAUSE n] ++ capRegs) s (alertTaken n 0x10 s) := (Viewed.refl _ s).setDielet n _
  have hget : ∀ f, (alertTaken n 0x10 s).get f = s.get f := get_congr rfl
  have hret' : retired (alertTaken n 0x10 s) n = false := (htaken.retired n).trans hret
  have hexec := exec_uplinkAlert hthere hpd5 (c := ⟨0x10, at_⟩) (k := 0x10) rfl (.inr (.inl rfl))
  rw [alertIn_hold (by rwa [hget]) hret'] at hexec
  have hview := htaken.trans (viewed_holdShown n (alertTaken n 0x10 s))
  refine ⟨_, hexec, hview.regs, hview.rest, cmd_holdShown n _ hret', ?_, ?_, ?_⟩
  · exact (get_holdShown n _ (f := R.STI_STATE_STATE n) (.inl rfl)).trans (get_state_setView _ _ _ _ (by decide))
  · exact (get_holdShown n _ (f := R.STI_STATE_HIZCAUSE n) (.inl rfl)).trans (get_cause_setView _ _ _ _ (by decide) (.inl rfl))
  · exact (get_fcause_holdShown n _).trans (by rw [hget])

variable (hawake : 2 ≤ s.get (R.STI_STATE_STATE n)) (hfault : s.get (R.STI_STATE_STATE n) ≠ 7)
include hawake hfault

theorem exec_uplinkLoss_silent (hquiet : (link s n).silent = true ∨ s.get (R.STI_TEL0_VCELL n) ≤ 340) :
    exec (.uplinkLoss n false) s = .next (viewAsleep n s) := by
  show atStitch n s _ = _
  rw [atStitch, if_pos hthere, if_pos ⟨hpd5, hawake, hfault⟩, if_pos]
  simpa using hquiet

theorem exec_uplinkLoss_fault (hloud : (link s n).silent = false) (hcell : 340 < s.get (R.STI_TEL0_VCELL n)) :
    exec (.uplinkLoss n false) s = .next (uplinkFault n s) := by
  show atStitch n s _ = _
  rw [atStitch, if_pos hthere, if_pos ⟨hpd5, hawake, hfault⟩, if_neg]
  simpa [hloud] using hcell

end

/-- Settles O26: the tick visits each dielet once; a frame, an alert and a loss each write the registers that their operations on the
view name. -/
theorem telemetry : Obligations.Telemetry := by
  unfold Obligations.Telemetry
  refine ⟨fun s cells hcells => telemetryTick_spec hcells s, fun n s hthere hpd5 => ?_⟩
  intro caps
  refine ⟨fun u hcrc hawake _ hout => ?_, uplinkAlert_bst_spec hthere hpd5, fun hst hret at_ => ?_, fun hawake hfault =>
    ⟨fun hquiet => ?_, exec_uplinkLoss_fault hthere hpd5 hawake hfault⟩⟩
  · exact ⟨_, exec_uplinkFrame_good hthere hpd5 hcrc hawake, regsOutside_uplinkShown u hout,
      (get_uplinkShown_tel u n.isLt hout (.inl rfl)).trans (vcell_samplesShown ..),
      (get_uplinkShown_tel u n.isLt hout (.inl rfl)).trans (seq_samplesShown ..),
      fun hsel => (get_uplinkShown_tel u n.isLt hout (.inl rfl)).trans (temp_samplesShown _ _ _ hsel),
      fun hsel => (get_uplinkShown_tel u n.isLt hout (.inr rfl)).trans (vbst_samplesShown _ _ _ hsel),
      str_uplinkShown u n.isLt hout, etime_uplinkShown u n.isLt hout, flags_uplinkShown u n.isLt hout⟩
  · exact uplinkAlert_hold_spec hthere hpd5 hst hret at_
  · obtain ⟨c, hlink⟩ := link_viewAsleep n s
    have hview := viewed_viewAsleep n s
    exact ⟨_, exec_uplinkLoss_silent hthere hpd5 hawake hfault hquiet, hview.rest, hview.regs, get_state_viewAsleep n s,
      congrArg LinkEnd.due hlink, congrArg LinkEnd.out hlink, congrArg LinkEnd.silent hlink⟩

end Sys2Proof.Machine
end

section
/-!
PROOFS of what the walk of the sort and selection inserts, and what it leaves.
-/
namespace Sys2Proof.Machine

/-! ### The walk of R110, child by child -/

section
variable {c : Cand} {t : List Cand} {rem : Nat}

theorem walk_cons_of_le (h : c.lv * 65536 ≤ rem) :
    walk (c :: t) rem = (c.child :: (walk t (rem - c.lv * 65536)).1, (walk t (rem - c.lv * 65536)).2) := by
  rw [walk, if_pos h]

theorem walk_cons_of_lt (h : rem < c.lv * 65536) : walk (c :: t) rem = walk t rem := by
  rw [walk, if_neg (Nat.not_le.2 h)]

end

/-- The children that the walk inserts stand in their rank order, and with the remainder they make up the request. -/
theorem exists_chosen_walk (cand : List Cand) (rem : Nat) :
    ∃ chosen : List Cand, chosen.Sublist cand ∧ chosen.map (·.child) = (walk cand rem).1
      ∧ (chosen.map (·.lv)).sum * 65536 + (walk cand rem).2 = rem := by
  induction cand generalizing rem with
  | nil => exact ⟨[], .slnil, rfl, by simp [walk]⟩
  | cons c t ih =>
    rcases Nat.lt_or_ge rem (c.lv * 65536) with hskip | hfits
    · obtain ⟨chosen, hsub, hchild, hsum⟩ := ih rem
      rw [walk_cons_of_lt hskip]
      exact ⟨chosen, hsub.cons c, hchild, hsum⟩
    · obtain ⟨chosen, hsub, hchild, hsum⟩ := ih (rem - c.lv * 65536)
      rw [walk_cons_of_le hfits]
      refine ⟨c :: chosen, hsub.cons_cons c, congrArg (c.child :: ·) hchild, ?_⟩
      rw [List.map_cons, List.sum_cons, Nat.add_mul, Nat.add_assoc, hsum, Nat.add_sub_cancel' hfits]

theorem walk_remainder_le (cand : List Cand) (rem : Nat) : (walk cand rem).2 ≤ rem := by
  obtain ⟨_, _, _, hsum⟩ := exists_chosen_walk cand rem
  omega

/-- A child that is left out did not fit in what remained at its turn, and no more remains at the end. -/
theorem walk_remainder_lt_of_notMem (cand : List Cand) (rem : Nat) :
    ∀ c ∈ cand, c.child ∉ (walk cand rem).1 → (walk cand rem).2 < c.lv * 65536 := by
  induction cand generalizing rem with
  | nil => exact fun c hc => absurd hc List.not_mem_nil
  | cons d t ih =>
    intro c hc hout
    rcases Nat.lt_or_ge rem (d.lv * 65536) with hskip | hfits
    · rw [walk_cons_of_lt hskip] at hout ⊢
      rcases List.mem_cons.1 hc with rfl | hc
      · exact (walk_remainder_le t rem).trans_lt hskip
      · exact ih rem c hc hout
    · rw [walk_cons_of_le hfits] at hout ⊢
      obtain ⟨hne, hout⟩ := not_or.1 (mt List.mem_cons.2 hout)
      exact ih _ c ((List.mem_cons.1 hc).resolve_left fun hcd => hne (congrArg Cand.child hcd)) hout

/-- Settles O29, by induction on the ranked children. -/
theorem sortWalk : Obligations.SortWalk := fun cand rem =>
  ⟨exists_chosen_walk cand rem, walk_remainder_le cand rem, walk_remainder_lt_of_notMem cand rem⟩

end Sys2Proof.Machine
end

section
/-!
PROOFS of what the host writes of a period and a phase do, and of the alignment of a root to MOD_SYNC_IN.
-/
namespace Sys2Proof.Machine

/-! ### Carriers: read after write -/

@[simp] theorem carrier_setCarrier (s : State) (n : Nat) (c : Carrier) : carrier (setCarrier s n c) n = c := tget_tset_self ..

theorem carrier_setCarrier_ne (s : State) {n m : Nat} (c : Carrier) (h : m ≠ n) : carrier (setCarrier s n c) m = carrier s m :=
  tget_tset_ne _ _ _ h

theorem carrier_congr {s t : State} (h : t.carriers = s.carriers) (n : Nat) : carrier t n = carrier s n := by
  rw [carrier, h, carrier]

theorem carrier_flag (s : State) (f : Field) (b : Bool) (n : Nat) : carrier (s.flag f b) n = carrier s n :=
  carrier_congr (flag_carriers ..) n

/-- The carriers are no registers. -/
theorem RegsOutside.setCarrier {as : List Nat} {s t : State} (h : RegsOutside as s t) (n : Nat) (c : Carrier) :
    RegsOutside as s (setCarrier t n c) := h.of_regs rfl

theorem on_setCarrier (s : State) (n : Nat) (c : Carrier) (f : Field) : (setCarrier s n c).on f = s.on f := rfl

/-! ### The seam tree under writes to the modulator's registers -/

/-- The registers below the modulator's block, which hold the seam tree, read the same. -/
def BelowModulator (s t : State) : Prop := ∀ a, a < 0x040000 → t.word a = s.word a

theorem RegsOutside.belowModulator {as : List Nat} {s t : State} (h : RegsOutside as s t) (has : ∀ a ∈ as, 0x040000 ≤ a) :
    BelowModulator s t := fun a ha => h a fun hmem => Nat.not_le.2 ha (has a hmem)

namespace BelowModulator
variable {s t : State} {n : Nat} (h : BelowModulator s t)
include h

theorem get {f : Field} (hf : f.addr < 0x040000) : t.get f = s.get f := congrArg (bitsOf · f.lo f.wd) (h _ hf)

theorem get_desc (hn : n < 64) {f : Field} (hf : f.addr = R.SEAM_DESC n) : t.get f = s.get f :=
  h.get (by rw [hf, R.SEAM_DESC]; omega)

theorem seamType (hn : n < 64) : seamType t n = seamType s n := h.get_desc hn rfl

theorem parent (hn : n < 64) : t.get (R.SEAM_DESC_PARENT n) = s.get (R.SEAM_DESC_PARENT n) := h.get_desc hn rfl

theorem seamUsed (hn : n < 64) : seamUsed t n = seamUsed s n := by rw [Machine.seamUsed, h.seamType hn, Machine.seamUsed]

theorem pathUp (f : Nat) (hn : n < 64) : pathUp t f n = pathUp s f n := by
  induction f generalizing n with
  | zero => rfl
  | succ f ih => rw [Machine.pathUp, Machine.pathUp, h.seamUsed hn, h.parent hn, ih (get_lt s (R.SEAM_DESC_PARENT n))]

theorem rootOf (hn : n < 64) : rootOf t n = rootOf s n := by
  rw [Machine.rootOf, path, h.pathUp 63 hn, Machine.rootOf, path]

theorem children (hn : n < 64) : children t n = children s n := by
  have hcount : t.get (R.SEAM_DESC_NCHILD n) = s.get (R.SEAM_DESC_NCHILD n) := h.get_desc hn rfl
  rw [Machine.children, hcount, Machine.children]
  refine List.map_congr_left fun k hk => ?_
  have hk32 : k < 32 := (List.mem_range.1 hk).trans (get_lt s (R.SEAM_DESC_NCHILD n))
  rw [childCode, h _ (by rw [R.SEAM_CHILD]; omega), childCode]

theorem slotOf (hn : n < 64) (c : Nat) : slotOf t n c = slotOf s n c := by rw [Machine.slotOf, h.children hn, Machine.slotOf]

end BelowModulator

/-- A seam has at most 31 slots. -/
theorem slotOf_lt {s : State} (p c : Nat) : slotOf s p c < 32 := by
  have hlen : (children s p).length < 32 := by
    rw [children, List.length_map, List.length_range]
    exact get_lt s (R.SEAM_DESC_NCHILD p)
  unfold slotOf
  cases hfind : (children s p).findIdx? (· == c) with
  | none => exact Nat.succ_pos _
  | some k => exact (List.findIdx?_eq_some_iff_getElem.1 hfind).1.trans hlen

theorem BelowModulator.slotDelay {s t : State} (h : BelowModulator s t) {n : Nat} (hn : n < 64) :
    slotDelay t n = slotDelay s n := by
  have hp : s.get (R.SEAM_DESC_PARENT n) < 64 := get_lt s (R.SEAM_DESC_PARENT n)
  unfold Machine.slotDelay
  rw [h.parent hn]
  generalize s.get (R.SEAM_DESC_PARENT n) = p at hp ⊢
  have hslot := slotOf_lt (s := s) p (seamCode n)
  have hang : R.SEAM_ANG p (Machine.slotOf s p (seamCode n) / 2) < 0x040000 := by rw [R.SEAM_ANG]; omega
  simp only [h.slotOf hp, h.seamType hp, h.get_desc hp (f := R.SEAM_DESC_NCHILD p) rfl, h.get (f := R.SEAM_ANG_ANG_LO _ _) hang,
    h.get (f := R.SEAM_ANG_ANG_HI _ _) hang]

/-- The place of a carrier follows from the seam tree, PHASE and the period. -/
theorem BelowModulator.wantedPos {s t : State} (h : BelowModulator s t) {n : Nat} (hn : n < 64)
    (hphase : t.get (R.MOD_PH_PHASE n) = s.get (R.MOD_PH_PHASE n)) (hper : nominal t n = nominal s n) :
    wantedPos t n = wantedPos s n := by
  simp only [Machine.wantedPos, h.parent hn, h.slotDelay hn, hphase, hper]

/-! ### MOD_CAR.PER (R105) -/

theorem mem_seams {m : Nat} : m ∈ seams ↔ 1 ≤ m ∧ m < 64 := by
  simp only [seams, List.mem_map, List.mem_range]
  exact ⟨fun ⟨k, hk, e⟩ => by omega, fun h => ⟨m - 1, by omega, by omega⟩⟩

theorem nodup_seams : seams.Nodup := List.nodup_range.map fun _ _ => Nat.succ.inj

theorem modCar_inj {m k : Nat} (h : R.MOD_CAR m = R.MOD_CAR k) : m = k := by
  simp only [R.MOD_CAR] at h; omega

/-- What every round of a loop keeps holds at its end. -/
theorem forL_invariant {σ α : Type} {P : σ → Prop} {l : List α} {f : α → σ → σ} {s : σ} (h : P s)
    (hround : ∀ x ∈ l, ∀ a, P a → P (f x a)) : P (forL l f s) :=
  List.foldlRecOn (motive := P) l _ h fun a ha x hx => hround x hx a ha

/-- PER of seam `m`, where root `r` is its root, reads `v`. -/
def takePer (r v m : Nat) (s : State) : State :=
  if seamUsed s m && rootOf s m == r then s.put (R.MOD_CAR_PER m) v else s

theorem spreadPer_eq (r v : Nat) (s : State) : spreadPer r v s = forL seams (takePer r v) s := rfl

section
variable {s t : State} {r v : Nat}

theorem takePer_of (m : Nat) (h : seamUsed s m = true ∧ rootOf s m = r) : takePer r v m s = s.put (R.MOD_CAR_PER m) v :=
  if_pos (by simpa using h)

theorem takePer_of_not (m : Nat) (h : ¬(seamUsed s m = true ∧ rootOf s m = r)) : takePer r v m s = s :=
  if_neg (by simpa using h)

theorem PortRegs.takePer {p : Nat} {as : List Nat} (h : PortRegs p as s t) {m : Nat} (hm : R.MOD_CAR m ∈ as) :
    PortRegs p as s (takePer r v m t) := by
  unfold Machine.takePer
  split
  · exact h.put _ _ hm
  · exact h

theorem regsOutside_takePer (r v m : Nat) (s : State) : RegsOutside [R.MOD_CAR m] s (takePer r v m s) := by
  unfold takePer
  split
  · exact (RegsOutside.refl _ s).put _ _ (List.mem_singleton_self _)
  · exact .refl _ s

theorem belowModulator_takePer (r v m : Nat) (s : State) : BelowModulator s (takePer r v m s) :=
  (regsOutside_takePer r v m s).belowModulator (by simp only [List.mem_singleton, forall_eq, R.MOD_CAR]; omega)

/-- A round for another seam leaves MOD_CAR of seam `m`. -/
theorem word_takePer_ne {m k : Nat} (h : m ≠ k) : (takePer r v k s).word (R.MOD_CAR m) = s.word (R.MOD_CAR m) :=
  regsOutside_takePer r v k s _ fun hmem => h (modCar_inj (List.mem_singleton.1 hmem))

theorem word_forL_takePer_of_notMem {l : List Nat} {m : Nat} (hm : m ∉ l) (s : State) :
    (forL l (takePer r v) s).word (R.MOD_CAR m) = s.word (R.MOD_CAR m) :=
  forL_invariant (P := fun a : State => a.word (R.MOD_CAR m) = s.word (R.MOD_CAR m)) rfl fun _ hk _ ha =>
    (word_takePer_ne (ne_of_mem_of_not_mem hk hm).symm).trans ha

/-- The seams that take PER one after another take it as the tree stood before the first of them. -/
theorem word_forL_takePer_of_mem {l : List Nat} (hnodup : l.Nodup) (hl : ∀ k ∈ l, k < 64) (s : State) {m : Nat} (hm : m ∈ l) :
    (forL l (takePer r v) s).word (R.MOD_CAR m) =
      if seamUsed s m = true ∧ rootOf s m = r then setBits (s.word (R.MOD_CAR m)) 0 23 v else s.word (R.MOD_CAR m) := by
  induction l generalizing s with
  | nil => exact absurd hm List.not_mem_nil
  | cons k l ih =>
    obtain ⟨hk, hnodup⟩ := List.nodup_cons.1 hnodup
    have hm64 := hl m hm
    change (forL l (takePer r v) (takePer r v k s)).word _ = _
    rcases List.mem_cons.1 hm with rfl | hm
    · rw [word_forL_takePer_of_notMem hk]
      split
      · next h => rw [takePer_of m h]; exact word_put s (R.MOD_CAR_PER m) v
      · next h => rw [takePer_of_not m h]
    · have hne : m ≠ k := fun e => hk (e ▸ hm)
      rw [ih hnodup (fun j hj => hl j (List.mem_cons_of_mem _ hj)) (takePer r v k s) hm, word_takePer_ne hne,
        (belowModulator_takePer r v k s).seamUsed hm64, (belowModulator_takePer r v k s).rootOf hm64]

theorem word_spreadPer (r v : Nat) (s : State) {m : Nat} (h1 : 1 ≤ m) (h64 : m < 64) :
    (spreadPer r v s).word (R.MOD_CAR m) =
      if seamUsed s m = true ∧ rootOf s m = r then setBits (s.word (R.MOD_CAR m)) 0 23 v else s.word (R.MOD_CAR m) :=
  word_forL_takePer_of_mem nodup_seams (fun _ hk => (mem_seams.1 hk).2) s (mem_seams.2 ⟨h1, h64⟩)

theorem PortRegs.spreadPer {p : Nat} (h : PortRegs p (seams.map R.MOD_CAR) s t) (r v : Nat) :
    PortRegs p (seams.map R.MOD_CAR) s (spreadPer r v t) := by
  rw [spreadPer_eq]
  exact forL_invariant h fun m hm a ha => ha.takePer (List.mem_map_of_mem hm)

end

/-- What R105 asks of a period `v` that is written to MOD_CAR of seam `n`. -/
def PeriodTaken (s : State) (n v : Nat) : Prop :=
  seamUsed s n = true ∧ s.get (R.SEAM_DESC_PARENT n) = 0 ∧ tget (fun _ => 0) s.loadedPer n ≤ v ∧ v ≤ 6400000
    ∧ s.get (R.MOD_CAR_SYNC n) ≠ 3 ∧ (s.get (R.MOD_CAR_SYNC n) = 2 → v % 32 = 0)

section
variable {s : State} {n : Nat} {d : Word}

theorem periodTaken_iff {v : Nat} : (seamUsed s n && s.get (R.SEAM_DESC_PARENT n) == 0
    && decide (tget (fun _ => 0) s.loadedPer n ≤ v) && decide (v ≤ 6400000)
    && s.get (R.MOD_CAR_SYNC n) != 3 && (s.get (R.MOD_CAR_SYNC n) != 2 || v % 32 == 0)) = true
      ↔ PeriodTaken s n v := by
  simp only [PeriodTaken, Bool.and_eq_true, Bool.or_eq_true, beq_iff_eq, bne_iff_ne, decide_eq_true_eq, and_assoc,
    ne_eq, imp_iff_not_or]

theorem writeModCar_of_taken (hn : n ≠ 0) (h : PeriodTaken s n (bitsOf d 0 23)) :
    writeModCar n d s = spreadPer n (bitsOf d 0 23) s := (if_neg hn).trans (if_pos (periodTaken_iff.2 h))

theorem writeModCar_of_not_taken (hn : n ≠ 0) (h : ¬PeriodTaken s n (bitsOf d 0 23)) :
    writeModCar n d s = s.flag R.MOD_STAT_PERERR true := (if_neg hn).trans (if_neg (mt periodTaken_iff.1 h))

end

/-! ### MOD_PH.PHASE (R104, R105) -/

/-- The correction left once a carrier's place is no longer `was`: the way to its place adds to it, against the sense of PHASE
where the root aligns to MOD_SYNC_IN (log entry 64). -/
def correctionFrom (s : State) (n : Nat) (was : Int) : Int :=
  wrapPhase (nominal s n) ((carrier s n).rem +
    if s.get (R.MOD_CAR_SYNC n) = 1 then was - wantedPos s n else wantedPos s n - was)

section
variable {s : State} {n : Nat} (was : Int)

theorem rephase_eq : rephase n was s = (setCarrier s n { carrier s n with rem := correctionFrom s n was }).flag
    (R.MOD_SST_SLEWING n) (correctionFrom s n was != 0) := by
  rw [correctionFrom, ← neg_sub (wantedPos s n) was]
  rfl

theorem regsOutside_rephase : RegsOutside [R.MOD_SST n] s (rephase n was s) := by
  rw [rephase_eq]
  exact ((RegsOutside.refl _ s).setCarrier _ _).flag _ _ (List.mem_singleton_self _)

theorem rephase_rest : rephase n was s = { s with regs := (rephase n was s).regs, carriers := (rephase n was s).carriers } := by
  rw [rephase_eq]
  rfl

theorem carrier_rephase : carrier (rephase n was s) n = { carrier s n with rem := correctionFrom s n was } := by
  rw [rephase_eq, carrier_flag, carrier_setCarrier]

theorem carrier_rephase_ne {m : Nat} (h : m ≠ n) : carrier (rephase n was s) m = carrier s m := by
  rw [rephase_eq, carrier_flag, carrier_setCarrier_ne _ _ h]

theorem slewing_rephase : (rephase n was s).on (R.MOD_SST_SLEWING n) = decide (correctionFrom s n was ≠ 0) := by
  rw [rephase_eq, on_flag _ _ _ (by simp [R.MOD_SST_SLEWING]) rfl, Bool.eq_iff_iff, bne_iff_ne, decide_eq_true_eq]

theorem wantedPos_rephase (hn : n < 64) : wantedPos (rephase n was s) n = wantedPos s n := by
  have hframe := regsOutside_rephase (s := s) (n := n) was
  have hper : (carrier (rephase n was s) n).per = (carrier s n).per := by rw [carrier_rephase]
  refine (hframe.belowModulator ?_).wantedPos hn (hframe.get ?_) hper
  · simp only [List.mem_singleton, forall_eq, R.MOD_SST]; omega
  · simp only [List.mem_singleton, R.MOD_PH_PHASE, R.MOD_PH, R.MOD_SST]; omega

end

section
variable {s : State} {n : Nat} {d : Word}

theorem writeModPh_of_unrouted (hn : n ≠ 0) (h : s.get (R.MOD_PH_SRC_CTX n) = 0) :
    writeModPh n d s = rephase n (wantedPos s n) (s.put (R.MOD_PH_PHASE n) (bitsOf d 0 16)) := (if_neg hn).trans (if_pos h)

theorem writeModPh_of_routed (hn : n ≠ 0) (h : s.get (R.MOD_PH_SRC_CTX n) ≠ 0) :
    writeModPh n d s = s.flag R.MOD_STAT_PHERR true := (if_neg hn).trans (if_neg h)

end

/-! ### MOD_SYNC_IN (R116) -/

section
variable {s t : State}

/-- MOD_STAT does not say which root aligns to MOD_SYNC_IN. -/
theorem syncInRoot_of_modStat_apart (h : RegsOutside [R.MOD_STAT] s t) : syncInRoot t = syncInRoot s := by
  have htree : BelowModulator s t := h.belowModulator (by simp [R.MOD_STAT])
  have hroots : roots t = roots s := List.filter_congr fun n hn => by
    rw [htree.seamUsed (mem_seams.1 hn).2, htree.parent (mem_seams.1 hn).2]
  have hsync : ∀ n, t.get (R.MOD_CAR_SYNC n) = s.get (R.MOD_CAR_SYNC n) := fun n =>
    h.get (by simp only [List.mem_singleton, R.MOD_CAR_SYNC, R.MOD_CAR, R.MOD_STAT]; omega)
  simp only [syncInRoot, hroots, hsync]

/-- Of MOD_STAT, EDGE_LOCK alone decides whether carriers run. -/
theorem carriersRun_of_modStat_apart (h : RegsOutside [R.MOD_STAT] s t)
    (hlock : t.on R.MOD_STAT_EDGE_LOCK = s.on R.MOD_STAT_EDGE_LOCK) : carriersRun t = carriersRun s := by
  simp only [carriersRun, domOn, h.on (f := R.PAT_STAT_LOADED) (by decide), h.on (f := R.PAT_STAT_APPLYING) (by decide),
    h.get (f := R.PWR_DOM_ON) (by decide), hlock]

/-- An edge at MOD_SYNC_IN is seen. -/
def syncSeen (s : State) : State := s.flag R.MOD_STAT_SYNCIN_SEEN true

theorem onlyRegs_syncSeen (s : State) : OnlyRegs [R.MOD_STAT] s (syncSeen s) :=
  (OnlyRegs.refl _ s).flag _ _ (List.mem_singleton_self _)

theorem seen_syncSeen (s : State) : (syncSeen s).on R.MOD_STAT_SYNCIN_SEEN = true := on_flag _ _ _ (by decide) rfl

theorem syncInRoot_syncSeen (s : State) : syncInRoot (syncSeen s) = syncInRoot s :=
  syncInRoot_of_modStat_apart (onlyRegs_syncSeen s).2

theorem carriersRun_syncSeen (s : State) : carriersRun (syncSeen s) = carriersRun s :=
  carriersRun_of_modStat_apart (onlyRegs_syncSeen s).2 (on_flag_other _ _ _ _ (by decide) (by decide))

theorem carrier_syncSeen (s : State) (n : Nat) : carrier (syncSeen s) n = carrier s n := carrier_flag ..

theorem nominal_syncSeen (s : State) (n : Nat) : nominal (syncSeen s) n = nominal s n := congrArg Carrier.per (carrier_syncSeen s n)

theorem syncError_syncSeen (s : State) (n q : Nat) : syncError (syncSeen s) n q = syncError s n q := by
  have hphase : (syncSeen s).get (R.MOD_PH_PHASE n) = s.get (R.MOD_PH_PHASE n) := (onlyRegs_syncSeen s).2.get (by
    simp only [List.mem_singleton, R.MOD_PH_PHASE, R.MOD_PH, R.MOD_STAT]; omega)
  rw [syncError, hphase, nominal_syncSeen, syncError]

theorem exec_modSyncInEdge_unaligned (hpd5 : domOn s 5 = true) (hroot : syncInRoot s = 0) (q : Nat) :
    exec (.modSyncInEdge q) s = .next (syncSeen s) :=
  congrArg Host.Outcome.next <| (if_pos hpd5).trans <| if_neg fun h => h.1 ((syncInRoot_syncSeen s).trans hroot)

theorem exec_modSyncInEdge_aligned (hpd5 : domOn s 5 = true) (hroot : syncInRoot s ≠ 0) (hruns : carriersRun s = true) (q : Nat) :
    exec (.modSyncInEdge q) s = .next (judgeAlign (syncInRoot s) (syncError s (syncInRoot s) q) (syncSeen s)) := by
  rw [← syncError_syncSeen, ← syncInRoot_syncSeen]
  exact congrArg Host.Outcome.next <| (if_pos hpd5).trans <|
    if_pos ⟨(syncInRoot_syncSeen s).trans_ne hroot, (carriersRun_syncSeen s).trans hruns⟩

end

section
variable {s : State} {n : Nat} {err : Int}

/-- The run of aligned edges after an edge with the error `err`. -/
def alignedAfter (s : State) (n : Nat) (err : Int) : Nat := if err.natAbs ≤ 4 then (carrier s n).aligned + 1 else 0

/-- The correction of a root is its alignment error, whatever becomes of SYNCOK. -/
def aligning (n : Nat) (err : Int) (s : State) : State :=
  (setCarrier s n { carrier s n with aligned := alignedAfter s n err, rem := wrapPhase (nominal s n) err }).flag
    (R.MOD_SST_SLEWING n) (wrapPhase (nominal s n) err != 0)

theorem judgeAlign_eq : judgeAlign n err s =
    if 2 ≤ alignedAfter s n err then setEpisode ((aligning n err s).flag (R.MOD_SST_SYNCOK n) true) (256 + n) false
    else if 64 < err.natAbs then (aligning n err s).flag (R.MOD_SST_SYNCOK n) false
    else aligning n err s := by
  unfold judgeAlign
  simp only [carrier_setCarrier]
  rfl

theorem regsOutside_aligning : RegsOutside [R.MOD_SST n] s (aligning n err s) :=
  ((RegsOutside.refl _ s).setCarrier _ _).flag _ _ (List.mem_singleton_self _)

theorem regsOutside_judgeAlign : RegsOutside [R.MOD_SST n] s (judgeAlign n err s) := by
  have hflag := fun b => (regsOutside_aligning (s := s) (n := n) (err := err)).flag (R.MOD_SST_SYNCOK n) b
    (List.mem_singleton_self _)
  rw [judgeAlign_eq]
  split
  · exact (hflag true).of_regs (setEpisode_regs ..)
  · split
    · exact hflag false
    · exact regsOutside_aligning

theorem rem_judgeAlign : (carrier (judgeAlign n err s) n).rem = wrapPhase (nominal s n) err := by
  have hcarriers : (judgeAlign n err s).carriers = (aligning n err s).carriers := by
    rw [judgeAlign_eq]
    split
    · rw [setEpisode_carriers, flag_carriers]
    · split
      · rw [flag_carriers]
      · rfl
  rw [carrier_congr hcarriers, aligning, carrier_flag, carrier_setCarrier]

/-- An error above 64 steps loses SYNCOK. -/
theorem syncOk_judgeAlign_of_far (h : 64 < err.natAbs) : (judgeAlign n err s).on (R.MOD_SST_SYNCOK n) = false := by
  have hrun : alignedAfter s n err = 0 := if_neg (by omega)
  rw [judgeAlign_eq, hrun, if_neg (by decide), if_pos h]
  exact on_flag _ _ _ (by simp [R.MOD_SST_SYNCOK]) rfl

/-- A second edge in a row within 4 steps sets SYNCOK. -/
theorem syncOk_judgeAlign_of_near (h : err.natAbs ≤ 4) (hrun : 1 ≤ (carrier s n).aligned) :
    (judgeAlign n err s).on (R.MOD_SST_SYNCOK n) = true := by
  have hagain : 2 ≤ alignedAfter s n err := by rw [alignedAfter, if_pos h]; omega
  rw [judgeAlign_eq, if_pos hagain, on_congr (setEpisode_regs ..)]
  exact on_flag _ _ _ (by simp [R.MOD_SST_SYNCOK]) rfl

end

/-! ### The absence of MOD_SYNC_IN (R116) -/

/-- Root `n` runs free from its present position: no edge is seen, and nothing is left to correct. -/
def runsFree (n : Nat) (s : State) : State :=
  let lost := (s.flag R.MOD_STAT_SYNCIN_SEEN false).flag (R.MOD_SST_SYNCOK n) false
  (setCarrier lost n { carrier lost n with rem := 0, aligned := 0 }).flag (R.MOD_SST_SLEWING n) false

section
variable (s : State) (n : Nat)

theorem exec_syncInTimeout {s : State} (hroot : syncInRoot s ≠ 0) (hruns : carriersRun s = true) :
    exec .syncInTimeout s = .next (occur kCLK (seamScope (syncInRoot s)) 0 (runsFree (syncInRoot s) s)) :=
  congrArg Host.Outcome.next (if_pos ⟨hroot, hruns⟩)

theorem regsOutside_runsFree : RegsOutside [R.MOD_STAT, R.MOD_SST n] s (runsFree n s) :=
  ((((RegsOutside.refl _ s).flag R.MOD_STAT_SYNCIN_SEEN false (by simp [R.MOD_STAT_SYNCIN_SEEN])).flag (R.MOD_SST_SYNCOK n) false
    (by simp [R.MOD_SST_SYNCOK])).setCarrier _ _).flag (R.MOD_SST_SLEWING n) false (by simp [R.MOD_SST_SLEWING])

theorem carrier_runsFree : carrier (runsFree n s) n = { carrier s n with rem := 0, aligned := 0 } := by
  simp only [runsFree, carrier_flag, carrier_setCarrier]

theorem unseen_runsFree : (runsFree n s).on R.MOD_STAT_SYNCIN_SEEN = false := by
  have hother : R.MOD_STAT ≠ R.MOD_SST n := by simp only [R.MOD_STAT, R.MOD_SST]; omega
  rw [runsFree, on_flag_other _ _ _ _ (by decide) (.inl hother), on_setCarrier,
    on_flag_other _ _ _ _ (by decide) (.inl hother), on_flag _ _ _ (by decide) rfl]

theorem syncOk_runsFree : (runsFree n s).on (R.MOD_SST_SYNCOK n) = false := by
  have hapart : (R.MOD_SST_SLEWING n).lo + (R.MOD_SST_SLEWING n).wd ≤ (R.MOD_SST_SYNCOK n).lo := by
    simp [R.MOD_SST_SLEWING, R.MOD_SST_SYNCOK]
  rw [runsFree, on_flag_other _ _ _ _ (by simp [R.MOD_SST_SYNCOK]) (.inr (.inr hapart)), on_setCarrier,
    on_flag _ _ _ (by simp [R.MOD_SST_SYNCOK]) rfl]

end

/-! ### The obligation -/

section
variable {n : Fin 64} {s : State} {w : PortWrite}

theorem exec_modCarPerWrite_of_accepts (h : Accepts s w.port (R.MOD_CAR n)) :
    exec (.modCarPerWrite n w) s = .next (writeModCar n w.data (endRun w.port s)) :=
  congrArg Host.Outcome.next (guarded_accepts s w.port _ w.data _ h)

theorem exec_modPhWrite_of_accepts (h : Accepts s w.port (R.MOD_PH n)) :
    exec (.modPhWrite n w) s = .next (writeModPh n w.data (endRun w.port s)) :=
  congrArg Host.Outcome.next (guarded_accepts s w.port _ w.data _ h)

/-- PHASE stands written, and the carrier does not follow yet. -/
def phaseWritten (n : Nat) (w : PortWrite) (s : State) : State :=
  (endRun w.port s).put (R.MOD_PH_PHASE n) (bitsOf w.data 0 16)

/-- What a word that is accepted at MOD_PH of an unrouted seam leaves. -/
def phaseTaken (n : Nat) (w : PortWrite) (s : State) : State := rephase n (wantedPos s n) (phaseWritten n w s)

theorem exec_modPhWrite_of_unrouted (hn : n.val ≠ 0) (h : Accepts s w.port (R.MOD_PH n)) (hsrc : s.get (R.MOD_PH_SRC_CTX n) = 0) :
    exec (.modPhWrite n w) s = .next (phaseTaken n w s) :=
  (exec_modPhWrite_of_accepts h).trans (congrArg _ (writeModPh_of_unrouted hn hsrc))

end

section
variable (n : Nat) (w : PortWrite) (s : State)

theorem carrier_phaseWritten (m : Nat) : carrier (phaseWritten n w s) m = carrier s m := carrier_congr (put_carriers ..) m

theorem regsOutside_phaseTaken : RegsOutside [R.MOD_PH n, R.MOD_SST n] s (phaseTaken n w s) := by
  have hwritten : RegsOutside [R.MOD_PH n, R.MOD_SST n] s (phaseWritten n w s) :=
    (PortRegs.refl w.port _ s).2.put (R.MOD_PH_PHASE n) _ List.mem_cons_self
  exact hwritten.trans ((regsOutside_rephase _).mono (List.subset_cons_self ..))

theorem phaseTaken_rest : phaseTaken n w s
    = { endRun w.port s with regs := (phaseTaken n w s).regs, carriers := (phaseTaken n w s).carriers } :=
  rephase_rest _

theorem phase_phaseTaken : (phaseTaken n w s).get (R.MOD_PH_PHASE n) = bitsOf w.data 0 16 := by
  have hother : (R.MOD_PH_PHASE n).addr ∉ [R.MOD_SST n] := by
    simp only [List.mem_singleton, R.MOD_PH_PHASE, R.MOD_PH, R.MOD_SST]; omega
  rw [phaseTaken, (regsOutside_rephase _).get hother, phaseWritten, get_put _ _ _ (by simp [R.MOD_PH_PHASE])]
  exact Nat.mod_mod _ _

theorem carrier_phaseTaken (hn : n < 64) : carrier (phaseTaken n w s) n = { carrier s n with
    rem := wrapPhase (nominal s n) ((carrier s n).rem +
      if s.get (R.MOD_CAR_SYNC n) = 1 then wantedPos s n - wantedPos (phaseTaken n w s) n
      else wantedPos (phaseTaken n w s) n - wantedPos s n) } := by
  have hsync : (phaseWritten n w s).get (R.MOD_CAR_SYNC n) = s.get (R.MOD_CAR_SYNC n) :=
    get_put_ne _ _ _ _ (by simp only [R.MOD_CAR_SYNC, R.MOD_CAR, R.MOD_PH_PHASE, R.MOD_PH]; omega)
  simp only [phaseTaken, wantedPos_rephase _ hn, carrier_rephase, correctionFrom, nominal, carrier_phaseWritten, hsync]

theorem carrier_phaseTaken_ne {m : Nat} (h : m ≠ n) : carrier (phaseTaken n w s) m = carrier s m :=
  (carrier_rephase_ne _ h).trans (carrier_phaseWritten ..)

theorem slewing_phaseTaken :
    (phaseTaken n w s).on (R.MOD_SST_SLEWING n) = decide ((carrier (phaseTaken n w s) n).rem ≠ 0) := by
  rw [phaseTaken, slewing_rephase, carrier_rephase]

end

/-- Settles O31: a period goes round the seams of the tree, a phase adds the way between two places to the correction, and an edge
at MOD_SYNC_IN or its absence is one judgement of the root's alignment. -/
theorem modulatorWrites : Obligations.ModulatorWrites := by
  refine ⟨fun n s w hn => ?_, fun s hpd5 => ⟨fun q hroot => ?seen, fun q hroot _ hruns => ?edge, fun hroot _ hruns => ?absent⟩⟩
  · have hn : n.val ≠ 0 := fun h => hn (Fin.ext h)
    have hrun := fun as => PortRegs.refl w.port as s
    refine ⟨fun hacc => ⟨fun hok => ?taken, fun hno => ?perErr⟩, fun hacc => ⟨fun hsrc => ?phase, fun hsrc => ?phErr⟩⟩
    case taken =>
      exact ⟨_, (exec_modCarPerWrite_of_accepts hacc).trans (congrArg _ (writeModCar_of_taken hn hok)), (hrun _).spreadPer _ _,
        fun m h1 h64 => word_spreadPer _ _ _ h1 h64⟩
    case perErr =>
      exact ⟨_, (exec_modCarPerWrite_of_accepts hacc).trans (congrArg _ (writeModCar_of_not_taken hn hno)),
        (hrun _).flag _ _ (List.mem_singleton_self _), on_flag _ _ _ (by decide) rfl⟩
    case phase =>
      exact ⟨_, exec_modPhWrite_of_unrouted hn hacc hsrc, regsOutside_phaseTaken _ _ _, phaseTaken_rest .., phase_phaseTaken ..,
        carrier_phaseTaken _ _ _ n.isLt, fun m hm => carrier_phaseTaken_ne _ _ _ hm, slewing_phaseTaken ..⟩
    case phErr =>
      exact ⟨_, (exec_modPhWrite_of_accepts hacc).trans (congrArg _ (writeModPh_of_routed hn hsrc)),
        (hrun _).flag _ _ (List.mem_singleton_self _), on_flag _ _ _ (by decide) rfl⟩
  case seen => exact ⟨_, exec_modSyncInEdge_unaligned hpd5 hroot q, onlyRegs_syncSeen s, seen_syncSeen s⟩
  case edge =>
    intro err
    have hframe : RegsOutside [R.MOD_STAT, R.MOD_SST (syncInRoot s)] s (judgeAlign (syncInRoot s) err (syncSeen s)) :=
      ((onlyRegs_syncSeen s).2.mono (by simp)).trans (regsOutside_judgeAlign.mono (by simp))
    have hother : R.MOD_STAT_SYNCIN_SEEN.addr ∉ [R.MOD_SST (syncInRoot s)] := by
      simp only [List.mem_singleton, R.MOD_STAT_SYNCIN_SEEN, R.MOD_STAT, R.MOD_SST]; omega
    refine ⟨_, exec_modSyncInEdge_aligned hpd5 hroot hruns q, (regsOutside_judgeAlign.on hother).trans (seen_syncSeen s), hframe,
      rem_judgeAlign.trans (congrArg (wrapPhase · err) (nominal_syncSeen ..)), syncOk_judgeAlign_of_far, fun hnear hrun => ?_⟩
    exact syncOk_judgeAlign_of_near hnear (hrun.trans_eq (congrArg Carrier.aligned (carrier_syncSeen ..).symm))
  case absent =>
    exact ⟨_, exec_syncInTimeout hroot hruns, regsOutside_runsFree _ _, unseen_runsFree .., syncOk_runsFree ..,
      congrArg Carrier.rem (carrier_runsFree ..), congrArg Carrier.aligned (carrier_runsFree ..)⟩

end Sys2Proof.Machine
end

section
/-!
PROOFS of what the execution state of a context makes of PARK, HPARK and CLEARING (Table 6.5, R154).
-/
namespace Sys2Proof.Machine

/-- PARK or HPARK asks context `c` to park. -/
def parkAsked (s : State) (c : Nat) : Bool := s.on (R.CTX_CTL_PARK c) || s.on (R.CTX_STAT_HPARK c)

section
variable {s t : State} {c : Nat}

theorem ctxSt_congr (h : t.ctxs = s.ctxs) (c : Nat) : ctxSt t c = ctxSt s c := by rw [ctxSt, h, ctxSt]

theorem pltSt_congr (h : t.plts = s.plts) (c : Nat) : pltSt t c = pltSt s c := by rw [pltSt, h, pltSt]

/-! ### The execution states, one by one -/

theorem idle_beq_parked : (ExecState.idle == .parked) = false := rfl

theorem running_beq_parked : (ExecState.running == .parked) = false := rfl

theorem parkSync_idle_of_asked (hex : (ctxSt s c).ex = .idle) (hpark : parkAsked s c = true) :
    parkSync c s = (setCtxSt s c { ctxSt s c with ex := .parked }).flag (R.CTX_STAT_PARKED c) true := by
  rw [parkAsked] at hpark
  simp [parkSync, hex, hpark]

theorem parkSync_idle_of_not_asked (hex : (ctxSt s c).ex = .idle) (hpark : parkAsked s c = false) :
    parkSync c s = s.flag (R.CTX_STAT_PARKED c) false := by
  rw [parkAsked] at hpark
  simp [parkSync, hex, hpark, idle_beq_parked]

theorem parkSync_parked_of_asked (hex : (ctxSt s c).ex = .parked) (hpark : parkAsked s c = true) :
    parkSync c s = s.flag (R.CTX_STAT_PARKED c) true := by
  rw [parkAsked] at hpark
  simp [parkSync, hex, hpark]

/-- Nothing holds the context parked: it is IDLE, and its next execution is the first. -/
theorem parkSync_parked_of_released (hex : (ctxSt s c).ex = .parked) (hpark : parkAsked s c = false)
    (hclear : s.on (R.PLT_STAT_CLEARING c) = false) :
    parkSync c s = (setPltSt (setCtxSt s c { ctxSt s c with ex := .idle, used := false }) c
      { pltSt s c with run := false }).flag (R.CTX_STAT_PARKED c) false := by
  have hplt : ∀ x, pltSt (setCtxSt s c x) c = pltSt s c := fun _ => pltSt_congr rfl c
  rw [parkAsked] at hpark
  simp [parkSync, hex, hpark, hclear, hplt, ctxSt_congr (setPltSt_ctxs ..), idle_beq_parked]

theorem parkSync_running (hex : (ctxSt s c).ex = .running) : parkSync c s = s.flag (R.CTX_STAT_PARKED c) false := by
  simp [parkSync, hex, running_beq_parked]

/-! ### What parking leaves -/

/-- Parking shows in CTX_STAT alone. -/
theorem parkSync_keeps {β : Type} (g : State → β) (c : Nat) (s : State) (hctxs : ∀ a l, g { a with ctxs := l } = g a)
    (hplts : ∀ a l, g { a with plts := l } = g a) (hstat : ∀ a b, g (a.flag (R.CTX_STAT_PARKED c) b) = g a) :
    g (parkSync c s) = g s := by
  have hset : ∀ x, g (setCtxSt s c x) = g s := fun _ => hctxs _ _
  have hsettle : ∀ a, g (settleDep c a) = g a := fun _ => hctxs _ _
  have hrun : ∀ a x, g (setPltSt a c x) = g a := fun _ _ => hplts _ _
  unfold parkSync
  extract_lets x park s1 s2
  have hmoved : g s1 = g s := by
    unfold s1
    split
    · exact keeps_ite g (hset _) rfl
    · exact keeps_ite g ((hsettle _).trans (hset _)) rfl
    · exact keeps_ite g rfl (hset _)
    · rfl
    · rfl
  exact (hstat _ _).trans (keeps_ite g ((hrun _ _).trans hmoved) hmoved)

theorem regsOutside_parkSync (c : Nat) (s : State) : RegsOutside [R.CTX_STAT c] s (parkSync c s) := fun a ha =>
  parkSync_keeps (State.word · a) c s (fun _ _ => rfl) (fun _ _ => rfl) fun b v =>
    word_flag_ne b (R.CTX_STAT_PARKED c) v a (List.ne_of_not_mem_cons ha)

theorem flt_parkSync (c : Nat) (s : State) : (parkSync c s).flt = s.flt :=
  parkSync_keeps State.flt c s (fun _ _ => rfl) (fun _ _ => rfl) fun _ _ => flag_flt ..

end

end Sys2Proof.Machine
end

section
/-!
PROOFS of what the host writes of a context do: CTX_CTL, PLT_QF and the memory window, and the end of a clear.
-/
namespace Sys2Proof.Machine

/-! ### Signed fields: read after write -/

theorem signed_mod (wd n : Nat) : signed wd (n % 2 ^ wd) = signed wd n := by simp only [signed, Nat.mod_mod]

/-- A two's complement value is the code of its number. -/
theorem code_signed (wd n : Nat) : code wd (signed wd n) = n % 2 ^ wd := by
  have hcode : signed wd n % ((2 ^ wd : Nat) : Int) = ((n % 2 ^ wd : Nat) : Int) := by
    simp only [signed]
    split
    · rw [← Int.natCast_emod, Nat.mod_mod]
    · rw [Int.sub_emod_right, ← Int.natCast_emod, Nat.mod_mod]
  rw [code, hcode, Int.toNat_natCast]

/-- A signed field that takes the value of another of its width reads that value. -/
theorem sget_sput_sget (s t : State) (f g : Field) (hf : f.lo + f.wd ≤ 32) (hw : g.wd = f.wd) :
    (t.sput f (s.sget g)).sget f = s.sget g := by
  rw [State.sget, State.sput, get_put _ _ _ hf, State.sget, hw, code_signed, Nat.mod_mod, signed_mod]

/-! ### CTX_CTL (R135, R136) -/

section
variable {s : State} {c : Nat}

/-- The PARK bit of CTX_CTL as a word has it; with RESET 0 that is all the word does. -/
theorem writeCtxCtl_park (hc : c ≠ 0) (park : Bool) :
    writeCtxCtl c (if park then 1 else 0) s = parkSync c (s.flag (R.CTX_CTL_PARK c) park) := by
  cases park <;> exact if_neg hc

/-- With RESET 1 a context that shows PARKED is reset, and any other sets CMDERR. -/
theorem writeCtxCtl_reset (hc : c ≠ 0) (park : Bool) :
    writeCtxCtl c (if park then 3 else 2) s = parkSync c ((if s.on (R.CTX_STAT_PARKED c) then resetContext c s
      else s.flag R.CTX_UST_CMDERR true).flag (R.CTX_CTL_PARK c) park) := by
  cases park <;> exact if_neg hc

/-- The state of a context after RESET: no history, and the ramp stands at SP. -/
def resetCtx (s : State) (c : Nat) : CtxSt :=
  { ctxSt s c with
    bq1 := Biquad.zero, bq2 := Biquad.zero, i := 0, r := s.sget (R.CTX_SP_SP c), yl := s.sget (R.CTX_Y_YA c)
    used := false, frzEp := false, checks := [] }

/-- RESET apart from the clear of the pleat memory. -/
def stateLost (c : Nat) (s : State) : State :=
  let s1 := setPltSt (setCtxSt s c (resetCtx s c)) c { pltSt s c with run := false }
  (s1.put (R.CTX_INT_I c) 0).sput (R.CTX_SIG_R c) (s.sget (R.CTX_SP_SP c))

theorem regsOutside_stateLost (c : Nat) (s : State) : RegsOutside [R.CTX_INT c, R.CTX_SIG c] s (stateLost c s) :=
  ((RegsOutside.refl _ s).put (R.CTX_INT_I c) 0 (by simp [R.CTX_INT_I])).put (R.CTX_SIG_R c) _ (by simp [R.CTX_SIG_R])

theorem ctxSt_stateLost (c : Nat) (s : State) : ctxSt (stateLost c s) c = resetCtx s c := by
  rw [stateLost, ctxSt_congr (sput_ctxs ..), ctxSt_congr (put_ctxs ..), ctxSt_congr (setPltSt_ctxs ..), ctxSt_setCtxSt]

theorem pltSt_stateLost (c : Nat) (s : State) : pltSt (stateLost c s) c = { pltSt s c with run := false } := by
  rw [stateLost, pltSt_congr (sput_plts ..), pltSt_congr (put_plts ..), pltSt_setPltSt]

theorem int_stateLost (c : Nat) (s : State) : (stateLost c s).get (R.CTX_INT_I c) = 0 :=
  (get_put_ne _ _ _ _ (by simp only [R.CTX_INT_I, R.CTX_SIG_R, R.CTX_INT, R.CTX_SIG]; omega)).trans
    (get_put _ _ _ (by simp [R.CTX_INT_I]))

theorem ramp_stateLost (c : Nat) (s : State) : (stateLost c s).sget (R.CTX_SIG_R c) = s.sget (R.CTX_SP_SP c) :=
  sget_sput_sget s _ (R.CTX_SIG_R c) (R.CTX_SP_SP c) (by simp [R.CTX_SIG_R]) rfl

/-- RSTMEM has a reset clear the pleat memory of a context that has any (R154). -/
theorem resetContext_eq (hc : c < 64) : resetContext c s =
    if s.on (R.PLT_CTL_RSTMEM c) ∧ plen s c ≠ 0 then (stateLost c s).flag (R.PLT_STAT_CLEARING c) true else stateLost c s := by
  have hframe := regsOutside_stateLost c s
  have hmem : (stateLost c s).on (R.PLT_CTL_RSTMEM c) = s.on (R.PLT_CTL_RSTMEM c) := hframe.on (by
    simp only [List.mem_cons, List.not_mem_nil, or_false, R.PLT_CTL_RSTMEM, R.PLT_CTL, R.CTX_INT, R.CTX_SIG]; omega)
  have hlen : plen (stateLost c s) c = plen s c := hframe.get (by
    simp only [List.mem_cons, List.not_mem_nil, or_false, R.PLT_MEM_LEN, R.PLT_MEM, R.CTX_INT, R.CTX_SIG]; omega)
  rw [← hmem, ← hlen]
  rfl

/-! ### The outcomes of a word at CTX_CTL -/

theorem parkAsked_of_park (h : s.on (R.CTX_CTL_PARK c) = true) : parkAsked s c = true := by rw [parkAsked, h, Bool.true_or]

theorem on_parkWritten (s : State) (c : Nat) (park : Bool) :
    (s.flag (R.CTX_CTL_PARK c) park).on (R.CTX_CTL_PARK c) = park := on_flag _ _ _ (by simp [R.CTX_CTL_PARK]) rfl

theorem ctxSt_parkWritten (s : State) (c : Nat) (park : Bool) : ctxSt (s.flag (R.CTX_CTL_PARK c) park) c = ctxSt s c :=
  ctxSt_congr (flag_ctxs ..) c

/-- PARK is 1, and the context is parked. -/
def parkTaken (c : Nat) (s : State) : State :=
  (setCtxSt (s.flag (R.CTX_CTL_PARK c) true) c { ctxSt s c with ex := .parked }).flag (R.CTX_STAT_PARKED c) true

/-- PARK is 0, and the context is back in IDLE, before its first execution. -/
def releaseTaken (c : Nat) (s : State) : State :=
  (setPltSt (setCtxSt (s.flag (R.CTX_CTL_PARK c) false) c { ctxSt s c with ex := .idle, used := false }) c
    { pltSt s c with run := false }).flag (R.CTX_STAT_PARKED c) false

/-- PARK is 1, and CTX_STAT shows whether the context is parked. -/
def parkShown (c : Nat) (parked : Bool) (s : State) : State :=
  (s.flag (R.CTX_CTL_PARK c) true).flag (R.CTX_STAT_PARKED c) parked

/-- A parked context is reset, and stays parked. -/
def contextReset (c : Nat) (s : State) : State := parkShown c true (resetContext c s)

/-- A context that is not parked is not reset: CMDERR, and PARK as the word has it (log entry 78). -/
def resetRefused (c : Nat) (s : State) : State := parkShown c false (s.flag R.CTX_UST_CMDERR true)

theorem writeCtxCtl_park_idle (hc : c ≠ 0) (hex : (ctxSt s c).ex = .idle) : writeCtxCtl c 1 s = parkTaken c s := by
  have hidle : (ctxSt (s.flag (R.CTX_CTL_PARK c) true) c).ex = .idle := by rw [ctxSt_parkWritten, hex]
  refine (writeCtxCtl_park hc true).trans ?_
  rw [parkSync_idle_of_asked hidle (parkAsked_of_park (on_parkWritten s c true)), ctxSt_parkWritten, parkTaken]

theorem writeCtxCtl_release_parked (hc : c ≠ 0) (hc64 : c < 64) (hex : (ctxSt s c).ex = .parked)
    (hhold : s.on (R.CTX_STAT_HPARK c) = false) (hclear : s.on (R.PLT_STAT_CLEARING c) = false) :
    writeCtxCtl c 0 s = releaseTaken c s := by
  have hparked : (ctxSt (s.flag (R.CTX_CTL_PARK c) false) c).ex = .parked := by rw [ctxSt_parkWritten, hex]
  have hframe : RegsOutside [R.CTX_CTL c] s (s.flag (R.CTX_CTL_PARK c) false) :=
    (RegsOutside.refl _ s).flag _ _ (List.mem_singleton_self _)
  have hfree : parkAsked (s.flag (R.CTX_CTL_PARK c) false) c = false := by
    have hstays : (R.CTX_STAT_HPARK c).addr ∉ [R.CTX_CTL c] := by
      simp only [List.mem_singleton, R.CTX_STAT_HPARK, R.CTX_STAT, R.CTX_CTL]; omega
    rw [parkAsked, on_parkWritten, hframe.on hstays, hhold, Bool.or_false]
  have hquiet : (s.flag (R.CTX_CTL_PARK c) false).on (R.PLT_STAT_CLEARING c) = false := by
    rw [hframe.on (by simp only [List.mem_singleton, R.PLT_STAT_CLEARING, R.PLT_STAT, R.CTX_CTL]; omega), hclear]
  refine (writeCtxCtl_park hc false).trans ?_
  rw [parkSync_parked_of_released hparked hfree hquiet, ctxSt_parkWritten, pltSt_congr (flag_plts ..), releaseTaken]

theorem ex_resetContext (hc : c < 64) : (ctxSt (resetContext c s) c).ex = (ctxSt s c).ex := by
  rw [resetContext_eq hc]
  split
  · rw [ctxSt_congr (flag_ctxs ..), ctxSt_stateLost, resetCtx]
  · rw [ctxSt_stateLost, resetCtx]

theorem writeCtxCtl_reset_parked (hc : c ≠ 0) (hc64 : c < 64) (hex : (ctxSt s c).ex = .parked)
    (hshown : s.on (R.CTX_STAT_PARKED c) = true) : writeCtxCtl c 3 s = contextReset c s := by
  refine (writeCtxCtl_reset hc true).trans ?_
  rw [if_pos hshown]
  refine parkSync_parked_of_asked ?_ (parkAsked_of_park (on_parkWritten _ c true))
  rw [ctxSt_parkWritten, ex_resetContext hc64, hex]

theorem writeCtxCtl_reset_running (hc : c ≠ 0) (hex : (ctxSt s c).ex = .running)
    (hshown : s.on (R.CTX_STAT_PARKED c) = false) :
    writeCtxCtl c 3 s = resetRefused c s := by
  refine (writeCtxCtl_reset hc true).trans ?_
  rw [if_neg (ne_true_of_eq_false hshown)]
  refine parkSync_running ?_
  rw [ctxSt_parkWritten, ctxSt_congr (flag_ctxs ..), hex]

end

/-! ### What each outcome shows -/

section
variable (c : Nat) (s : State)

theorem regsOutside_parkTaken : RegsOutside [R.CTX_CTL c, R.CTX_STAT c] s (parkTaken c s) :=
  (((RegsOutside.refl _ s).flag (R.CTX_CTL_PARK c) true (by simp [R.CTX_CTL_PARK])).of_regs rfl).flag _ _
    (by simp [R.CTX_STAT_PARKED])

theorem regsOutside_releaseTaken : RegsOutside [R.CTX_CTL c, R.CTX_STAT c] s (releaseTaken c s) :=
  (((RegsOutside.refl _ s).flag (R.CTX_CTL_PARK c) false (by simp [R.CTX_CTL_PARK])).of_regs rfl).flag _ _
    (by simp [R.CTX_STAT_PARKED])

theorem regsOutside_parkShown (parked : Bool) : RegsOutside [R.CTX_CTL c, R.CTX_STAT c] s (parkShown c parked s) :=
  ((RegsOutside.refl _ s).flag (R.CTX_CTL_PARK c) true (by simp [R.CTX_CTL_PARK])).flag _ _ (by simp [R.CTX_STAT_PARKED])

theorem ctxSt_parkTaken : ctxSt (parkTaken c s) c = { ctxSt s c with ex := .parked } := by
  rw [parkTaken, ctxSt_congr (flag_ctxs ..), ctxSt_setCtxSt]

theorem ctxSt_releaseTaken : ctxSt (releaseTaken c s) c = { ctxSt s c with ex := .idle, used := false } := by
  rw [releaseTaken, ctxSt_congr (flag_ctxs ..), ctxSt_congr (setPltSt_ctxs ..), ctxSt_setCtxSt]

theorem pltSt_releaseTaken : pltSt (releaseTaken c s) c = { pltSt s c with run := false } := by
  rw [releaseTaken, pltSt_congr (flag_plts ..), pltSt_setPltSt]

theorem on_parkedShown (b : Bool) : (s.flag (R.CTX_STAT_PARKED c) b).on (R.CTX_STAT_PARKED c) = b :=
  on_flag _ _ _ (by simp [R.CTX_STAT_PARKED]) rfl

/-- CTX_STAT does not show PARK. -/
theorem park_parkedShown (b : Bool) : (s.flag (R.CTX_STAT_PARKED c) b).on (R.CTX_CTL_PARK c) = s.on (R.CTX_CTL_PARK c) :=
  on_flag_other _ _ _ _ (by simp [R.CTX_CTL_PARK])
    (.inl (by simp only [R.CTX_CTL_PARK, R.CTX_STAT_PARKED, R.CTX_CTL, R.CTX_STAT]; omega))

theorem park_parkTaken : (parkTaken c s).on (R.CTX_CTL_PARK c) = true := by
  rw [parkTaken, park_parkedShown, on_congr (setCtxSt_regs ..), on_parkWritten]

theorem park_releaseTaken : (releaseTaken c s).on (R.CTX_CTL_PARK c) = false := by
  rw [releaseTaken, park_parkedShown, on_congr (setPltSt_regs ..), on_congr (setCtxSt_regs ..), on_parkWritten]

theorem park_parkShown (parked : Bool) : (parkShown c parked s).on (R.CTX_CTL_PARK c) = true := by
  rw [parkShown, park_parkedShown, on_parkWritten]

theorem ctxSt_parkShown (parked : Bool) : ctxSt (parkShown c parked s) c = ctxSt s c := by
  rw [parkShown, ctxSt_congr (flag_ctxs ..), ctxSt_parkWritten]

theorem pltSt_parkShown (parked : Bool) : pltSt (parkShown c parked s) c = pltSt s c := by
  rw [parkShown, pltSt_congr (flag_plts ..), pltSt_congr (flag_plts ..)]

end

/-! ### RESET of a parked context (R136, R154) -/

section
variable {s : State} {c : Nat} (hc : c < 64)
include hc

/-- Of what RESET takes, the clear of the memory shows in PLT_STAT alone. -/
theorem resetContext_shows : RegsOutside [R.PLT_STAT c] (stateLost c s) (resetContext c s)
    ∧ (resetContext c s).ctxs = (stateLost c s).ctxs ∧ (resetContext c s).plts = (stateLost c s).plts := by
  rw [resetContext_eq hc]
  split
  · exact ⟨(RegsOutside.refl _ _).flag _ _ (by simp [R.PLT_STAT_CLEARING]), flag_ctxs .., flag_plts ..⟩
  · exact ⟨.refl _ _, rfl, rfl⟩

/-- What is lost stays lost while the clear begins and the context shows that it is parked. -/
theorem regsOutside_contextReset_of_lost :
    RegsOutside [R.CTX_CTL c, R.CTX_STAT c, R.PLT_STAT c] (stateLost c s) (contextReset c s) :=
  have ⟨hclear, _, _⟩ := resetContext_shows (s := s) hc
  (hclear.mono (by simp)).trans ((regsOutside_parkShown c _ true).mono (by simp))

theorem regsOutside_contextReset :
    RegsOutside [R.CTX_CTL c, R.CTX_STAT c, R.CTX_INT c, R.CTX_SIG c, R.PLT_STAT c] s (contextReset c s) :=
  ((regsOutside_stateLost c s).mono (by simp)).trans ((regsOutside_contextReset_of_lost hc).mono (by simp))

theorem ctxSt_contextReset : ctxSt (contextReset c s) c = resetCtx s c := by
  obtain ⟨-, hctxs, -⟩ := resetContext_shows (s := s) hc
  rw [contextReset, ctxSt_parkShown, ctxSt_congr hctxs, ctxSt_stateLost]

theorem pltSt_contextReset : pltSt (contextReset c s) c = { pltSt s c with run := false } := by
  obtain ⟨-, -, hplts⟩ := resetContext_shows (s := s) hc
  rw [contextReset, pltSt_parkShown, pltSt_congr hplts, pltSt_stateLost]

theorem int_contextReset : (contextReset c s).get (R.CTX_INT_I c) = 0 := by
  have hint : R.CTX_INT c ∉ [R.CTX_CTL c, R.CTX_STAT c, R.PLT_STAT c] := by
    simp only [List.mem_cons, List.not_mem_nil, or_false, R.CTX_INT, R.CTX_CTL, R.CTX_STAT, R.PLT_STAT]; omega
  exact ((regsOutside_contextReset_of_lost hc).get hint).trans (int_stateLost c s)

theorem ramp_contextReset : (contextReset c s).sget (R.CTX_SIG_R c) = s.sget (R.CTX_SP_SP c) := by
  have hsig : R.CTX_SIG c ∉ [R.CTX_CTL c, R.CTX_STAT c, R.PLT_STAT c] := by
    simp only [List.mem_cons, List.not_mem_nil, or_false, R.CTX_SIG, R.CTX_CTL, R.CTX_STAT, R.PLT_STAT]; omega
  exact (congrArg (signed _) ((regsOutside_contextReset_of_lost hc).get hsig)).trans (ramp_stateLost c s)

theorem clearing_contextReset (hmem : s.on (R.PLT_CTL_RSTMEM c) = true) (hlen : plen s c ≠ 0) :
    (contextReset c s).on (R.PLT_STAT_CLEARING c) = true := by
  have hstat : R.PLT_STAT c ∉ [R.CTX_CTL c, R.CTX_STAT c] := by
    simp only [List.mem_cons, List.not_mem_nil, or_false, R.CTX_CTL, R.CTX_STAT, R.PLT_STAT]; omega
  refine ((regsOutside_parkShown c _ true).on hstat).trans ?_
  rw [resetContext_eq hc, if_pos ⟨hmem, hlen⟩]
  exact on_flag _ _ _ (by simp [R.PLT_STAT_CLEARING]) rfl

end

/-! ### RESET of a context that is not parked (R136) -/

theorem portRegs_resetRefused (p c : Nat) (s : State) :
    PortRegs p [R.CTX_CTL c, R.CTX_STAT c, R.CTX_UST] s (resetRefused c (endRun p s)) :=
  (((PortRegs.refl p _ s).flag _ _ (by simp [R.CTX_UST_CMDERR])).flag _ _ (by simp [R.CTX_CTL_PARK])).flag _ _
    (by simp [R.CTX_STAT_PARKED])

theorem cmderr_resetRefused (c : Nat) (s : State) : (resetRefused c s).on R.CTX_UST_CMDERR = true := by
  have hust : R.CTX_UST ∉ [R.CTX_CTL c, R.CTX_STAT c] := by
    simp only [List.mem_cons, List.not_mem_nil, or_false, R.CTX_CTL, R.CTX_STAT, R.CTX_UST]; omega
  exact ((regsOutside_parkShown c _ false).on hust).trans (on_flag _ _ _ (by decide) rfl)

end Sys2Proof.Machine
end

section
/-!
PROOFS of what the host writes of a pleat do, and of the end of a clear; with CTX_CTL, the writes of a context.
-/
namespace Sys2Proof.Machine

/-! ### PLT_QF (R151) -/

section
variable {s : State} {c : Nat} {d : Word}

/-- The Q-filter rule for the word `d`. -/
def KeepsFilterRule (d : Word) : Prop :=
  0 ≤ q15 (bitsOf d 16 16) ∧ 0 ≤ q15 (bitsOf d 0 16) ∧ q15 (bitsOf d 16 16) + 2 * q15 (bitsOf d 0 16) ≤ 32768

theorem writePltQf_of_keeps (hc : c ≠ 0) (h : KeepsFilterRule d) : writePltQf c d s = s.setWord (R.PLT_QF c) d :=
  (if_neg hc).trans (if_pos h)

theorem writePltQf_of_breaks (hc : c ≠ 0) (h : ¬KeepsFilterRule d) : writePltQf c d s = s.flag (R.PLT_STAT_WERR c) true :=
  (if_neg hc).trans (if_neg h)

/-! ### The memory window (R152, R153) -/

@[simp] theorem poolCell_setPoolCell (s : State) (k v : Nat) : poolCell (setPoolCell k v s) k = v % 65536 := tget_tset_self ..

theorem poolCell_setPoolCell_ne (s : State) {k j : Nat} (v : Nat) (h : j ≠ k) : poolCell (setPoolCell k v s) j = poolCell s j :=
  tget_tset_ne _ _ _ h

/-- Both cells of word `i` of the window take their halves of the word. -/
def cellsWritten (i : Nat) (d : Word) (s : State) : State :=
  setPoolCell (2 * i + 1) (bitsOf d 16 16) (setPoolCell (2 * i) (bitsOf d 0 16) s)

theorem bitsOf_mod_half (d : Word) (lo : Nat) : bitsOf d lo 16 % 65536 = bitsOf d lo 16 := Nat.mod_mod ..

theorem poolCell_cellsWritten_low (i : Nat) (d : Word) (s : State) :
    poolCell (cellsWritten i d s) (2 * i) = bitsOf d 0 16 := by
  rw [cellsWritten, poolCell_setPoolCell_ne _ _ (by omega), poolCell_setPoolCell, bitsOf_mod_half]

theorem poolCell_cellsWritten_high (i : Nat) (d : Word) (s : State) :
    poolCell (cellsWritten i d s) (2 * i + 1) = bitsOf d 16 16 := by
  rw [cellsWritten, poolCell_setPoolCell, bitsOf_mod_half]

theorem poolCell_cellsWritten_ne {i k : Nat} (d : Word) (s : State) (hlow : k ≠ 2 * i) (hhigh : k ≠ 2 * i + 1) :
    poolCell (cellsWritten i d s) k = poolCell s k := by
  rw [cellsWritten, poolCell_setPoolCell_ne _ _ hhigh, poolCell_setPoolCell_ne _ _ hlow]

variable {p i : Nat}

theorem writeWindow_unowned (h : cellOwner s (2 * i) = 0) : writeWindow p i d s = s := if_pos h

theorem writeWindow_parked (hc : c ≠ 0) (h : cellOwner s (2 * i) = c) (hparked : s.on (R.CTX_STAT_PARKED c) = true)
    (hclear : s.on (R.PLT_STAT_CLEARING c) = false) : writeWindow p i d s = cellsWritten i d s := by
  subst h
  exact (if_neg hc).trans (if_pos (by rw [hparked, hclear]; rfl))

theorem writeWindow_in_use (hc : c ≠ 0) (h : cellOwner s (2 * i) = c)
    (huse : s.on (R.CTX_STAT_PARKED c) = false ∨ s.on (R.PLT_STAT_CLEARING c) = true) :
    writeWindow p i d s = discarded p (0x100000 + 4 * i) s := by
  subst h
  refine (if_neg hc).trans (if_neg ?_)
  rcases huse with h | h <;> simp [h]

end

/-! ### The end of a clear (R154) -/

section
variable {s : State} {c : Nat}

theorem poolCell_clearCells (c : Nat) (s : State) (k : Nat) : poolCell (clearCells c s) k =
    if s.get (R.PLT_MEM_BASE c) ≤ k ∧ k < s.get (R.PLT_MEM_BASE c) + plen s c then 0 else poolCell s k := tget_tdrop ..

/-- The cells are 0, CLEARING is 0, and the context shows that it stays parked. -/
def clearEnded (c : Nat) (s : State) : State :=
  ((clearCells c s).flag (R.PLT_STAT_CLEARING c) false).flag (R.CTX_STAT_PARKED c) true

theorem regsOutside_clearEnded (c : Nat) (s : State) : RegsOutside [R.PLT_STAT c, R.CTX_STAT c] s (clearEnded c s) :=
  (((RegsOutside.refl _ s).of_regs (u := clearCells c s) rfl).flag _ _ (by simp [R.PLT_STAT_CLEARING])).flag _ _
    (by simp [R.CTX_STAT_PARKED])

/-- A flag set where registers and pool alone differ leaves it so. -/
theorem flag_regs_and_pool {t : State} (h : t = { s with regs := t.regs, pool := t.pool }) (f : Field) (b : Bool) :
    t.flag f b = { s with regs := (t.flag f b).regs, pool := (t.flag f b).pool } := by
  conv_lhs => rw [h]
  rfl

theorem clearEnded_rest (c : Nat) (s : State) :
    clearEnded c s = { s with regs := (clearEnded c s).regs, pool := (clearEnded c s).pool } :=
  flag_regs_and_pool (flag_regs_and_pool (t := clearCells c s) rfl _ _) _ _

theorem poolCell_clearEnded (c : Nat) (s : State) (k : Nat) : poolCell (clearEnded c s) k = poolCell (clearCells c s) k := by
  rw [clearEnded, poolCell, flag_pool, flag_pool, poolCell]

/-- The pleat memory of the context lies where it lay. -/
theorem mem_clearEnded (hc : c < 64) : (clearEnded c s).get (R.PLT_MEM_BASE c) = s.get (R.PLT_MEM_BASE c)
    ∧ plen (clearEnded c s) c = plen s c := by
  have hmem : R.PLT_MEM c ∉ [R.PLT_STAT c, R.CTX_STAT c] := by
    simp only [List.mem_cons, List.not_mem_nil, or_false, R.PLT_MEM, R.PLT_STAT, R.CTX_STAT]; omega
  exact ⟨(regsOutside_clearEnded c s).get hmem, (regsOutside_clearEnded c s).get hmem⟩

theorem memCell_clearEnded (hc : c < 64) (hlen : plen s c ≠ 0) (i : Nat) : memCell (clearEnded c s) c i = 0 := by
  obtain ⟨hbase, hplen⟩ := mem_clearEnded (s := s) hc
  have hin : i % plen s c < plen s c := Nat.mod_lt _ (Nat.pos_of_ne_zero hlen)
  rw [memCell, hbase, hplen, poolCell_clearEnded, poolCell_clearCells, if_pos ⟨by omega, by omega⟩]
  rfl

theorem poolCell_clearEnded_outside {k : Nat} (hk : k < s.get (R.PLT_MEM_BASE c) ∨ s.get (R.PLT_MEM_BASE c) + plen s c ≤ k) :
    poolCell (clearEnded c s) k = poolCell s k := by
  rw [poolCell_clearEnded, poolCell_clearCells, if_neg (by omega)]

theorem clearing_clearEnded (hc : c < 64) : (clearEnded c s).on (R.PLT_STAT_CLEARING c) = false := by
  have hother : R.PLT_STAT c ≠ R.CTX_STAT c := by simp only [R.PLT_STAT, R.CTX_STAT]; omega
  rw [clearEnded, on_flag_other _ _ _ _ (by simp [R.PLT_STAT_CLEARING]) (.inl hother),
    on_flag _ _ _ (by simp [R.PLT_STAT_CLEARING]) rfl]

theorem exec_pltClearDone {c : Fin 64} (hclear : s.on (R.PLT_STAT_CLEARING c) = true) (hex : (ctxSt s c).ex = .parked)
    (hpark : s.on (R.CTX_CTL_PARK c) = true) : exec (.pltClearDone c) s = .next (clearEnded c s) := by
  have hother : R.CTX_CTL c.val ≠ R.PLT_STAT c := by simp only [R.CTX_CTL, R.PLT_STAT]; omega
  refine congrArg Host.Outcome.next ((if_pos hclear).trans (parkSync_parked_of_asked ?_ (parkAsked_of_park ?_)))
  · rw [ctxSt_congr (flag_ctxs ..), ctxSt_congr (t := clearCells c s) (s := s) rfl, hex]
  · rw [on_flag_other _ _ _ _ (by simp [R.CTX_CTL_PARK]) (.inl hother), on_congr (t := clearCells c s) (s := s) rfl, hpark]

end

/-! ### The obligation -/

section
variable {s : State} {c : Fin 64} {p : Nat} {w : PortWrite}

theorem exec_ctxParkWrite_of_accepts (h : Accepts s p (R.CTX_CTL c)) (park : Bool) :
    exec (.ctxParkWrite c p park) s = .next (writeCtxCtl c (if park then 1 else 0) (endRun p s)) :=
  congrArg Host.Outcome.next (guarded_accepts s p _ _ _ h)

theorem exec_ctxReset_of_accepts (h : Accepts s p (R.CTX_CTL c)) (park : Bool) :
    exec (.ctxReset c p park) s = .next (writeCtxCtl c (if park then 3 else 2) (endRun p s)) :=
  congrArg Host.Outcome.next (guarded_accepts s p _ _ _ h)

theorem exec_pltQfWrite_of_accepts (h : Accepts s w.port (R.PLT_QF c)) :
    exec (.pltQfWrite c w) s = .next (writePltQf c w.data (endRun w.port s)) :=
  congrArg Host.Outcome.next (guarded_accepts s w.port _ _ _ h)

theorem exec_pltWindowWrite_of_accepts {i : Fin 131072} (h : Accepts s w.port (0x100000 + 4 * i.val)) :
    exec (.pltWindowWrite i w) s = .next (writeWindow w.port i w.data (endRun w.port s)) :=
  congrArg Host.Outcome.next (guarded_accepts s w.port _ _ _ h)

end

/-- Settles O34: a word at CTX_CTL comes out as `parkTaken`, `releaseTaken`, `contextReset` or `resetRefused`, each word of the
pleat is one write, and a clear ends in `clearEnded`. -/
theorem contextWrites : Obligations.ContextWrites := by
  intro c s hc0
  have hc : c.val ≠ 0 := fun h => hc0 (Fin.ext h)
  have hlt : c.val < 64 := c.isLt
  refine ⟨fun p hacc => ⟨fun hex => ?park, fun hex hhold hclear => ?release, fun hex hshown => ?reset,
      fun hshown hex => ?refused⟩, fun w hacc => ⟨fun hqc hqs hsum => ?taken, fun hbad => ?werr⟩,
    fun i w hacc => ⟨fun hown => ?unowned, fun hown hparked hclear => ?cells, fun hown huse => ?inUse⟩,
    fun hclear hex hpark => ?ended⟩
  case park =>
    exact ⟨_, (exec_ctxParkWrite_of_accepts hacc true).trans (congrArg _ (writeCtxCtl_park_idle hc hex)),
      regsOutside_parkTaken c (endRun p s), rfl, ctxSt_parkTaken .., park_parkTaken .., on_parkedShown ..⟩
  case release =>
    exact ⟨_, (exec_ctxParkWrite_of_accepts hacc false).trans (congrArg _ (writeCtxCtl_release_parked hc hlt hex hhold hclear)),
      regsOutside_releaseTaken c (endRun p s), rfl, ctxSt_releaseTaken .., pltSt_releaseTaken .., park_releaseTaken ..,
      on_parkedShown ..⟩
  case reset =>
    exact ⟨_, (exec_ctxReset_of_accepts hacc true).trans (congrArg _ (writeCtxCtl_reset_parked hc hlt hex hshown)),
      regsOutside_contextReset (s := endRun p s) hlt, ctxSt_contextReset hlt, pltSt_contextReset hlt, int_contextReset hlt,
      ramp_contextReset (s := endRun p s) hlt, clearing_contextReset (s := endRun p s) hlt⟩
  case refused =>
    exact ⟨_, (exec_ctxReset_of_accepts hacc true).trans (congrArg _ (writeCtxCtl_reset_running hc hex hshown)),
      portRegs_resetRefused .., cmderr_resetRefused .., park_parkShown ..⟩
  case taken =>
    exact ⟨_, (exec_pltQfWrite_of_accepts hacc).trans (congrArg _ (writePltQf_of_keeps hc ⟨hqc, hqs, hsum⟩)),
      (PortRegs.refl w.port _ s).setWord _ _ (List.mem_singleton_self _), word_setWord ..⟩
  case werr =>
    have hbreaks : ¬KeepsFilterRule w.data := fun ⟨hqc, hqs, hsum⟩ => by omega
    exact ⟨_, (exec_pltQfWrite_of_accepts hacc).trans (congrArg _ (writePltQf_of_breaks hc hbreaks)),
      (PortRegs.refl w.port _ s).flag _ _ (by simp [R.PLT_STAT_WERR]), on_flag _ _ _ (by simp [R.PLT_STAT_WERR]) rfl⟩
  case unowned => exact (exec_pltWindowWrite_of_accepts hacc).trans (congrArg _ (writeWindow_unowned hown))
  case cells =>
    exact ⟨_, (exec_pltWindowWrite_of_accepts hacc).trans (congrArg _ (writeWindow_parked hc hown hparked hclear)), rfl,
      poolCell_cellsWritten_low .., poolCell_cellsWritten_high .., fun k => poolCell_cellsWritten_ne w.data (endRun w.port s)⟩
  case inUse =>
    exact ⟨_, (exec_pltWindowWrite_of_accepts hacc).trans (congrArg _ (writeWindow_in_use hc hown huse)),
      (PortRegs.refl w.port _ s).discarded _ (by simp) (by simp), on_discarded .., get_discarded_addr _ _ (by omega)⟩
  case ended =>
    exact ⟨_, exec_pltClearDone hclear hex hpark, regsOutside_clearEnded c s, clearEnded_rest .., clearing_clearEnded hlt,
      fun i hlen => memCell_clearEnded hlt hlen i, fun k => poolCell_clearEnded_outside⟩

end Sys2Proof.Machine
end

section
/-!
PROOFS of what an update instant leaves to the control engine once the outputs are given: the engine's registers and contexts,
and a fault manager that has nothing to take.
-/
namespace Sys2Proof.Machine

/-! ### A cycle without reports (R247) -/

theorem takeReports_of_none {take : Report → State → State} {s : State} (h : s.flt.reports = []) : takeReports take s = s := by
  have hsame : ({ s.flt with reports := [] } : FltSt) = s.flt := by rw [← h]
  rw [takeReports, h, hsame]
  rfl

/-- A cycle begins: the shadows of its occurrences wait, and no report is made yet. -/
def cycleOpened (s : State) : State := { s with flt := { s.flt with opening := some [], reports := [] } }

/-- A cycle ends: its shadows open, and the reports `l` that stood before it stand again. -/
def cycleClosed (l : List Report) (s : State) : State :=
  { s with flt := { s.flt with shadows := s.flt.shadows ++ s.flt.opening.getD [], opening := none, reports := l } }

theorem inCycle_of_closed {take f : State → State} {s : State} (h : s.flt.opening = none) :
    inCycle take f s = cycleClosed s.flt.reports (take (f (cycleOpened s))) := if_neg (by rw [h]; exact Bool.false_ne_true)

theorem cycleClosed_of_unused {s t : State} (h : s.flt.opening = none) (ht : t.flt = (cycleOpened s).flt) :
    cycleClosed s.flt.reports t = { t with flt := s.flt } := by
  rw [cycleClosed, ht]
  simp only [cycleOpened, Option.getD_some, List.append_nil, ← h]

/-- What reports nothing is the same in a cycle of its own. -/
theorem oneCycle_of_quiet {f : State → State} {s : State} (hquiet : ∀ F, (f { s with flt := F }).flt = F) :
    ∃ F, oneCycle f s = { f { s with flt := F } with flt := s.flt } := by
  by_cases hopen : s.flt.opening.isSome = true
  · have hsame : (f s).flt = s.flt := hquiet s.flt
    have hcycle : oneCycle f s = f s := if_pos hopen
    have hrest : f s = { f s with flt := s.flt } := by rw [← hsame]
    exact ⟨s.flt, hcycle.trans hrest⟩
  · have hclosed : s.flt.opening = none := Option.not_isSome_iff_eq_none.1 hopen
    have hflt : (f (cycleOpened s)).flt = (cycleOpened s).flt := hquiet _
    have hnone : (f (cycleOpened s)).flt.reports = [] := by rw [hflt]; rfl
    refine ⟨(cycleOpened s).flt, ?_⟩
    rw [oneCycle, inCycle_of_closed hclosed, takeReports_of_none hnone, takeReports_of_none hnone,
      cycleClosed_of_unused hclosed hflt]
    rfl

/-! ### What the engine rests on -/

/-- The addresses of the control engine, and of the descriptors of seams. -/
def EngineAddr (a : Nat) : Prop := (0x050000 ≤ a ∧ a < 0x060000) ∨ (a < 0x040000 ∧ a % 0x40 = 0)

theorem not_engineAddr_seamRef {m : Nat} (hm : m < 128) : ¬EngineAddr (R.SEAM_REF m) := by
  simp only [EngineAddr, R.SEAM_REF]; omega

theorem not_engineAddr_seamState {m : Nat} (hm : m < 128) : ¬EngineAddr (R.SEAM_STATE m) := by
  simp only [EngineAddr, R.SEAM_STATE]; omega

theorem engineAddr_seamDesc {m : Nat} (hm : m < 64) : EngineAddr (R.SEAM_DESC m) := by
  simp only [EngineAddr, R.SEAM_DESC]; omega

/-- The engine's registers, the descriptors, the contexts and the fault manager stand as they stood. -/
structure EngineKept (s t : State) : Prop where
  word : ∀ a, EngineAddr a → t.word a = s.word a
  ctxs : t.ctxs = s.ctxs
  flt  : t.flt = s.flt

namespace EngineKept
variable {s t u : State}

theorem refl (s : State) : EngineKept s s := ⟨fun _ _ => rfl, rfl, rfl⟩

theorem of_eq (h : EngineKept s t) (hregs : u.regs = t.regs) (hctxs : u.ctxs = t.ctxs) (hflt : u.flt = t.flt) : EngineKept s u :=
  ⟨fun a ha => (word_congr hregs a).trans (h.word a ha), hctxs.trans h.ctxs, hflt.trans h.flt⟩

theorem put (h : EngineKept s t) (f : Field) (v : Nat) (hf : ¬EngineAddr f.addr) : EngineKept s (t.put f v) :=
  ⟨fun a ha => (word_put_ne t f v a fun e => hf (e ▸ ha)).trans (h.word a ha), h.ctxs, h.flt⟩

theorem flag (h : EngineKept s t) (f : Field) (b : Bool) (hf : ¬EngineAddr f.addr) : EngineKept s (t.flag f b) := h.put f _ hf

theorem inc (h : EngineKept s t) (f : Field) (hf : ¬EngineAddr f.addr) : EngineKept s (t.inc f) := h.put f _ hf

theorem get (h : EngineKept s t) {f : Field} (hf : EngineAddr f.addr) : t.get f = s.get f :=
  congrArg (bitsOf · f.lo f.wd) (h.word _ hf)

theorem seamType (h : EngineKept s t) {m : Nat} (hm : m < 64) : seamType t m = seamType s m := h.get (engineAddr_seamDesc hm)

theorem parent (h : EngineKept s t) {m : Nat} (hm : m < 64) : t.get (R.SEAM_DESC_PARENT m) = s.get (R.SEAM_DESC_PARENT m) :=
  h.get (engineAddr_seamDesc hm)

/-! ### Composition (R22, R381) -/

theorem putOut (h : EngineKept s t) {m : Nat} (hm : m < 128) (sum : Int) : EngineKept s (putOut m sum t) :=
  (h.put (R.SEAM_STATE_OUT m) _ (not_engineAddr_seamState hm)).flag (R.SEAM_STATE_SAT m) _ (not_engineAddr_seamState hm)

theorem childSeam_lt (s : State) (n k : Nat) : childCode s n k - 0x80 < 128 := by
  have hcode : childCode s n k < 2 ^ 8 := Nat.mod_lt _ (by positivity)
  omega

theorem composeBelow (h : EngineKept s t) (f n : Nat) : EngineKept s (composeBelow f n t) := by
  induction f generalizing n t with
  | zero => exact h
  | succ f ih =>
    refine forL_invariant h fun k _ a ha => ?_
    have hm := childSeam_lt a n k
    dsimp only
    split
    · split
      · exact ha
      · exact ha.of_eq rfl rfl rfl
    · split
      · exact ih ha _
      · exact ih ((ha.put (R.SEAM_REF_REF _) _ (not_engineAddr_seamRef hm)).putOut hm _) _

theorem compose (h : EngineKept s t) {n : Nat} (hn : n < 128) : EngineKept s (compose n t) := by
  unfold Machine.compose
  extract_lets p r s1
  refine EngineKept.composeBelow ?_ 64 n
  unfold s1
  split
  · exact h.putOut hn _
  · split
    · exact h
    · exact (h.put (R.SEAM_REF_REF n) _ (not_engineAddr_seamRef hn)).putOut hn _

/-! ### References and answers of REMOTE roots (R119, R357) -/

theorem remoteApply (h : EngineKept s t) {n : Nat} (hn : n < 128) (w : WaitRef) : EngineKept s (remoteApply n w t) := by
  unfold Machine.remoteApply
  extract_lets x
  have hreplied : EngineKept s (setRemoteX t n { x with reply := x.reply ++ [w.xcnt], fresh := true, ep := false }) :=
    h.of_eq rfl rfl rfl
  exact (hreplied.put (R.SEAM_REF_REF n) _ (not_engineAddr_seamRef hn)).flag (R.SEAM_STATE_LINKSTALE n) _
    (not_engineAddr_seamState hn)

theorem takeRef (h : EngineKept s t) {n : Nat} (hn : n < 128) : EngineKept s (takeRef n t) := by
  unfold Machine.takeRef
  split
  · exact forL_invariant (h.of_eq rfl rfl rfl) fun w _ a ha => ha.remoteApply hn w
  · exact h

theorem enqueue (h : EngineKept s t) (p inp : Nat) (m : FabMsg) : EngineKept s (enqueue p inp m t) := by
  unfold Machine.enqueue
  split
  · exact h.of_eq rfl rfl rfl
  · exact h

theorem sendRouted (h : EngineKept s t) (ty r e chunk : Nat) (bs : List Byte) : EngineKept s (sendRouted ty r e chunk bs t) := by
  unfold Machine.sendRouted
  split
  · exact (h.of_eq (u := noteSent r e (nextSeq t r e) t) rfl rfl rfl).enqueue ..
  · exact h.inc _ (by simp only [EngineAddr, R.FAB_CNT_NOROUTE, R.FAB_CNT]; omega)

theorem remoteReport (h : EngineKept s t) (n : Nat) : EngineKept s (remoteReport n t) := by
  unfold Machine.remoteReport
  extract_lets x
  split
  · exact forL_invariant (h.of_eq rfl rfl rfl) fun k _ a ha => ha.sendRouted ..
  · exact h

/-! ### The fractions (R103, R381) -/

theorem countSuppressed (h : EngineKept s t) {n : Nat} (hn : n < 128) (of : Fraction → Nat) (ks : List Nat) :
    EngineKept s (countSuppressed n of ks t) := by
  refine forL_invariant h fun k _ a ha => ?_
  dsimp only
  split
  · exact (ha.of_eq (u := setCarrier a n _) rfl rfl rfl).inc _ (by simp only [EngineAddr, R.MOD_CNT_SUPPR, R.MOD_CNT]; omega)
  · exact ha

theorem takeFractions (h : EngineKept s t) (u : Update) : EngineKept s (takeFractions u t) := by
  have hn : u.seam.val < 128 := u.seam.isLt.trans (by decide)
  unfold Machine.takeFractions
  exact EngineKept.countSuppressed (forL_invariant h fun k _ a ha => ha.of_eq (u := setFraction a k _) rfl rfl rfl) hn _ _

end EngineKept

/-! ### UPDATE_INSTANT of a seam that is no STACK and has no LINK below it (R108) -/

theorem forL_eq_self {σ α : Type} {l : List α} {f : α → σ → σ} {s : σ} (h : ∀ x ∈ l, f x s = s) : forL l f s = s :=
  forL_invariant (P := (· = s)) rfl fun x hx a ha => by rw [ha, h x hx]

/-- One turn of the sorts of an update instant, with the seams that raise SEAM-BAL so far. -/
def sortTurn (due : Bool) (a : State × List Nat) (n : Nat) : State × List Nat :=
  ((updateSort n due a.1).1, if (updateSort n due a.1).2 then n :: a.2 else a.2)

/-- Seams that are no STACK do not sort. -/
theorem foldl_sortTurn_of_noStack {due : Bool} {l : List Nat} {s : State} (h : ∀ m ∈ l, seamType s m ≠ tSTACK) :
    l.foldl (sortTurn due) (s, []) = (s, []) := by
  refine List.foldlRecOn (motive := (· = (s, []))) l _ rfl fun a ha m hm => ?_
  rw [ha, sortTurn, updateSort, if_neg (h m hm)]
  rfl

theorem mem_topDown {s : State} {ns : List Nat} {m : Nat} (h : m ∈ topDown s ns) : m ∈ ns ∧ m < 64 := by
  obtain ⟨d, -, hm⟩ := List.mem_flatMap.1 h
  obtain ⟨hseam, hns⟩ := List.mem_filter.1 hm
  exact ⟨List.contains_iff_mem.1 (Bool.and_eq_true_iff.1 hns).1, (mem_seams.1 hseam).2⟩

theorem updateLink_of_noLink {s : State} {ns : List Nat} {m : Nat}
    (h : seamType s m = tLINK → ns.contains (s.get (R.SEAM_DESC_PARENT m)) = false) : updateLink ns m s = s :=
  if_neg fun hl => ne_true_of_eq_false (h hl.1) hl.2

/-- The outputs given, an update instant touches the engine no more. -/
theorem EngineKept.updateOutputs (u : Update) (s : State) :
    EngineKept (applyOutputs u.seam s) (updateOutputs u s) := by
  have hn : u.seam.val < 128 := u.seam.isLt.trans (by decide)
  have href : EngineKept (applyOutputs u.seam s) (Machine.takeRef u.seam (applyOutputs u.seam s)) := (refl _).takeRef hn
  unfold Machine.updateOutputs
  extract_lets n s1 c s2
  have hcarrier : EngineKept (applyOutputs u.seam s) s2 := href.of_eq rfl rfl rfl
  split
  · exact hcarrier.flag _ _ (not_engineAddr_seamState hn)
  · exact hcarrier

section
variable {s : State} {n : Fin 64} (hstack : Machine.seamType (applyOutputs n s) n ≠ tSTACK)
  (hlink : ∀ m ∈ seams, Machine.seamType (applyOutputs n s) m = tLINK → (applyOutputs n s).get (R.SEAM_DESC_PARENT m) ≠ n.val)
include hstack hlink

theorem EngineKept.updateAt (due : Bool) : EngineKept (applyOutputs n s) (updateAt due [⟨n, none⟩] s) := by
  unfold Machine.updateAt
  extract_lets ns s1 tops s2 r s3
  have hout : EngineKept (applyOutputs n s) s1 := EngineKept.updateOutputs ⟨n, none⟩ s
  have hcomposed : EngineKept (applyOutputs n s) s2 := forL_invariant hout fun m hm a ha =>
    ha.compose ((mem_topDown (List.mem_filter.1 hm).1).2.trans (by decide))
  have hsort : r = (s2, []) := foldl_sortTurn_of_noStack (due := due) fun m hm => by
    obtain ⟨hmem, -⟩ := mem_topDown hm
    rw [List.mem_singleton.1 hmem]
    exact fun h => hstack ((hcomposed.seamType n.isLt).symm.trans h)
  have hsorted : s3 = s2 := by
    have hnone : seams.filter ([] : List Nat).contains = [] := by decide
    unfold s3
    rw [hsort, hnone]
    rfl
  have hlinks : forL seams (updateLink ns) s3 = s3 := forL_eq_self fun m hm => updateLink_of_noLink fun htype => by
    rw [hsorted] at htype ⊢
    have hm64 := (mem_seams.1 hm).2
    have hne := hlink m hm ((hcomposed.seamType hm64).symm.trans htype)
    rw [hcomposed.parent hm64]
    simpa [ns] using hne
  rw [hlinks, hsorted]
  exact forL_invariant hcomposed fun m _ a ha => ha.remoteReport m

end

end Sys2Proof.Machine
end

section
/-!
PROOFS of what writes the set-point of a context: the host where SPSRC is C00, and the context that SPSRC names at its update
instants.
-/
namespace Sys2Proof.Machine

/-! ### CTX_SP (R138) -/

section
variable {s : State} {c : Nat} {d : Word}

theorem writeCtxSp_of_free (hc : c ≠ 0) (h : s.get (R.CTX_CFG_SPSRC c) = 0) :
    writeCtxSp c d s = s.put (R.CTX_SP_SP c) (bitsOf d 0 16) := if_pos ⟨hc, h⟩

theorem writeCtxSp_of_routed (h : s.get (R.CTX_CFG_SPSRC c) ≠ 0) : writeCtxSp c d s = s := if_neg fun hfree => h hfree.2

theorem exec_ctxSpWrite_of_accepts {c : Fin 64} {w : PortWrite} (h : Accepts s w.port (R.CTX_SP c)) :
    exec (.ctxSpWrite c w) s = .next (writeCtxSp c w.data (endRun w.port s)) :=
  congrArg Host.Outcome.next (guarded_accepts s w.port _ _ _ h)

end

/-! ### The route of an output (Table 6.3) -/

/-- The registers that the output of context `c` reaches by its route. -/
def outputRegs (s : State) (c : Nat) : List Nat :=
  let n := s.get (R.CTX_ROUTE_NUM c)
  match s.get (R.CTX_ROUTE_DEST c) with
  | 1 => [R.SEAM_REF n]
  | 2 => [R.SEAM_OFS n]
  | 3 => [R.MOD_PH n, R.MOD_SST n]
  | 4 => if s.get (R.CTX_CFG_SPSRC n) = c then [R.CTX_SP n] else []
  | _ => []

/-- Of the engine a route reaches a set-point alone, and that only where SPSRC names it; of the seams it reaches no descriptor. -/
theorem of_mem_outputRegs {s : State} {c a : Nat} (h : a ∈ outputRegs s c) : (a < 0x050000 ∧ a % 0x40 ≠ 0)
    ∨ (a = R.CTX_SP (s.get (R.CTX_ROUTE_NUM c)) ∧ s.get (R.CTX_ROUTE_DEST c) = 4
      ∧ s.get (R.CTX_CFG_SPSRC (s.get (R.CTX_ROUTE_NUM c))) = c) := by
  have hn : s.get (R.CTX_ROUTE_NUM c) < 64 := get_lt s (R.CTX_ROUTE_NUM c)
  unfold outputRegs at h
  extract_lets n at h
  split at h
  · rw [List.mem_singleton.1 h, R.SEAM_REF]; omega
  · rw [List.mem_singleton.1 h, R.SEAM_OFS]; omega
  · simp only [List.mem_cons, List.not_mem_nil, or_false, R.MOD_PH, R.MOD_SST] at h; omega
  · next hdest =>
    split at h
    · next hsrc => exact .inr ⟨List.mem_singleton.1 h, hdest, hsrc⟩
    · exact absurd h List.not_mem_nil
  · exact absurd h List.not_mem_nil

section
variable (s : State) (c : Nat)

/-- A route writes registers and corrects a carrier. -/
theorem routeOutput_keeps {β : Type} (g : State → β) (hregs : ∀ a l, g { a with regs := l } = g a)
    (hcarriers : ∀ a l, g { a with carriers := l } = g a) : g (routeOutput c s) = g s := by
  have hput : ∀ a f v, g (State.put a f v) = g a := fun _ _ _ => hregs _ _
  unfold routeOutput
  extract_lets y n
  split
  · exact hput ..
  · exact hput ..
  · rw [rephase_eq]
    exact (hput ..).trans ((hcarriers _ _).trans (hput ..))
  · exact keeps_ite g (hput ..) rfl
  · rfl

theorem ctxs_routeOutput : (routeOutput c s).ctxs = s.ctxs := routeOutput_keeps s c State.ctxs (fun _ _ => rfl) fun _ _ => rfl

theorem flt_routeOutput : (routeOutput c s).flt = s.flt := routeOutput_keeps s c State.flt (fun _ _ => rfl) fun _ _ => rfl

theorem regsOutside_routeOutput : RegsOutside (outputRegs s c) s (routeOutput c s) := by
  have hput := fun f v => (RegsOutside.refl [f.addr] s).put f v (List.mem_singleton_self _)
  unfold routeOutput
  extract_lets y n
  split
  · next hdest =>
    have hreg : outputRegs s c = [R.SEAM_REF n] := by simp only [outputRegs, hdest, n]
    exact hreg ▸ hput (R.SEAM_REF_REF n) y
  · next hdest =>
    have hreg : outputRegs s c = [R.SEAM_OFS n] := by simp only [outputRegs, hdest, n]
    exact hreg ▸ hput (R.SEAM_OFS_OFS n) y
  · next hdest =>
    have hreg : outputRegs s c = [R.MOD_PH n, R.MOD_SST n] := by simp only [outputRegs, hdest, n]
    have hphase : RegsOutside [R.MOD_PH n, R.MOD_SST n] s (s.put (R.MOD_PH_PHASE n) y) :=
      (hput (R.MOD_PH_PHASE n) y).mono (by simp [R.MOD_PH_PHASE])
    rw [hreg]
    exact hphase.trans ((regsOutside_rephase (wantedPos s n)).mono (by simp))
  · next hdest =>
    split
    · next hsrc =>
      have hreg : outputRegs s c = [R.CTX_SP n] := by simp only [outputRegs, hdest, n, if_pos hsrc]
      exact hreg ▸ hput (R.CTX_SP_SP n) y
    · exact .refl _ s
  · exact .refl _ s

variable {s c} {d : Nat}

/-- The context that SPSRC of `d` names gives its output to SP of `d`. -/
theorem sp_routeOutput_of_named (hdest : s.get (R.CTX_ROUTE_DEST c) = 4) (hnum : s.get (R.CTX_ROUTE_NUM c) = d)
    (hsrc : s.get (R.CTX_CFG_SPSRC d) = c) : (routeOutput c s).get (R.CTX_SP_SP d) = s.get (R.CTX_Y_YC c) := by
  subst hnum
  simp only [routeOutput, hdest, if_pos hsrc]
  exact (get_put _ _ _ (by simp [R.CTX_SP_SP])).trans (Nat.mod_eq_of_lt (get_lt s (R.CTX_Y_YC c)))

/-- An output without a route to `d`, or that SPSRC of `d` does not name, does not reach SP of `d`. -/
theorem sp_notMem_outputRegs (h : s.get (R.CTX_ROUTE_DEST c) = 4 → s.get (R.CTX_ROUTE_NUM c) = d →
    s.get (R.CTX_CFG_SPSRC d) ≠ c) : R.CTX_SP d ∉ outputRegs s c := by
  intro hmem
  rcases of_mem_outputRegs hmem with ⟨hbelow, -⟩ | ⟨hsp, hdest, hsrc⟩
  · simp only [R.CTX_SP] at hbelow; omega
  · have hnum : s.get (R.CTX_ROUTE_NUM c) = d := by simp only [R.CTX_SP] at hsp; omega
    exact h hdest hnum (hnum ▸ hsrc)

end

/-! ### The round of one context (R127, R142) -/

/-- Context `c` has given what it has to give: its output has gone where it is routed, and shows as YA. -/
def outputShown (c : Nat) (s : State) : State :=
  if (ctxSt s c).noOut then s else (routeOutput c s).put (R.CTX_Y_YA c) (s.get (R.CTX_Y_YC c))

/-- Context `c` is IDLE after its update instant. -/
def outputGiven (c : Nat) (s : State) : State :=
  setCtxSt (outputShown c s) c { ctxSt (outputShown c s) c with ex := .idle, noOut := false }

/-- The round of context `c` in step 1 of an update instant. -/
def outputRound (c : Nat) (s : State) : State := if (ctxSt s c).ex = .done then parkSync c (outputGiven c s) else s

theorem applyOutputs_eq (n : Nat) (s : State) : applyOutputs n s = forL (contextsOf s n) outputRound s := rfl

section
variable (s : State) (c : Nat)

theorem ctxs_outputShown : (outputShown c s).ctxs = s.ctxs :=
  keeps_ite State.ctxs rfl ((put_ctxs ..).trans (ctxs_routeOutput s c))

theorem flt_outputShown : (outputShown c s).flt = s.flt := keeps_ite State.flt rfl ((put_flt ..).trans (flt_routeOutput s c))

theorem regsOutside_outputShown : RegsOutside (R.CTX_Y c :: outputRegs s c) s (outputShown c s) := by
  unfold outputShown
  split
  · exact .refl _ s
  · exact ((regsOutside_routeOutput s c).mono (List.subset_cons_self _ _)).put _ _ (by simp [R.CTX_Y_YA])

theorem regsOutside_outputGiven : RegsOutside (R.CTX_Y c :: outputRegs s c) s (outputGiven c s) :=
  (regsOutside_outputShown s c).of_regs rfl

theorem ctxSt_outputGiven : ctxSt (outputGiven c s) c = { ctxSt s c with ex := .idle, noOut := false } := by
  rw [outputGiven, ctxSt_setCtxSt, ctxSt_congr (ctxs_outputShown s c)]

theorem ctxSt_outputGiven_ne {d : Nat} (h : d ≠ c) : ctxSt (outputGiven c s) d = ctxSt s d := by
  rw [outputGiven, ctxSt_setCtxSt_ne _ _ _ _ h, ctxSt_congr (ctxs_outputShown s c)]

theorem idle_outputGiven : (ctxSt (outputGiven c s) c).ex = .idle := by rw [ctxSt_outputGiven]

variable {s c}

/-- The registers that the round of context `c` writes: its status, its outputs and what its route reaches. -/
theorem regsOutside_outputRound : RegsOutside (R.CTX_STAT c :: R.CTX_Y c :: outputRegs s c) s (outputRound c s) := by
  unfold outputRound
  split
  · exact ((regsOutside_outputGiven s c).mono (List.subset_cons_self _ _)).trans ((regsOutside_parkSync c _).mono (by simp))
  · exact .refl _ s

theorem flt_outputRound : (outputRound c s).flt = s.flt :=
  keeps_ite State.flt ((flt_parkSync ..).trans ((setCtxSt_flt ..).trans (flt_outputShown s c))) rfl

/-- No round asks a context to park. -/
theorem parkAsked_outputGiven : parkAsked (outputGiven c s) c = parkAsked s c := by
  have hframe := regsOutside_outputGiven s c
  have hstays : ∀ a, 0x050000 ≤ a → a ≠ R.CTX_Y c → a % 0x100 ≠ 0x34 → a ∉ R.CTX_Y c :: outputRegs s c := by
    intro a hlow hy hsp hmem
    rcases List.mem_cons.1 hmem with h | h
    · exact hy h
    · rcases of_mem_outputRegs h with ⟨hbelow, -⟩ | ⟨rfl, -, -⟩
      · omega
      · rw [R.CTX_SP] at hsp; omega
  rw [parkAsked, parkAsked, hframe.on (hstays _ ?_ ?_ ?_), hframe.on (hstays _ ?_ ?_ ?_)]
  all_goals simp only [R.CTX_STAT_HPARK, R.CTX_CTL_PARK, R.CTX_STAT, R.CTX_CTL, R.CTX_Y]; omega

theorem ctxSt_outputRound_ne {d : Nat} (h : d ≠ c) : ctxSt (outputRound c s) d = ctxSt s d := by
  unfold outputRound
  split
  · refine Eq.trans ?_ (ctxSt_outputGiven_ne s c h)
    cases hpark : parkAsked (outputGiven c s) c with
    | true => rw [parkSync_idle_of_asked (idle_outputGiven s c) hpark, ctxSt_congr (flag_ctxs ..), ctxSt_setCtxSt_ne _ _ _ _ h]
    | false => rw [parkSync_idle_of_not_asked (idle_outputGiven s c) hpark, ctxSt_congr (flag_ctxs ..)]
  · rfl

variable (hdone : (ctxSt s c).ex = .done)
include hdone

theorem outputRound_of_done : outputRound c s = parkSync c (outputGiven c s) := if_pos hdone

theorem ex_outputRound : (ctxSt (outputRound c s) c).ex = if parkAsked s c = true then .parked else .idle := by
  rw [outputRound_of_done hdone, ← parkAsked_outputGiven]
  cases hpark : parkAsked (outputGiven c s) c with
  | true => rw [parkSync_idle_of_asked (idle_outputGiven s c) hpark, ctxSt_congr (flag_ctxs ..), ctxSt_setCtxSt, if_pos rfl]
  | false =>
    rw [parkSync_idle_of_not_asked (idle_outputGiven s c) hpark, ctxSt_congr (flag_ctxs ..), idle_outputGiven,
      if_neg Bool.false_ne_true]

variable (hout : (ctxSt s c).noOut = false)
include hout

/-- Of a register that the round's end does not touch, what the output has left there stays. -/
theorem get_outputRound {f : Field} (hf : f.addr ≠ R.CTX_STAT c) :
    (outputRound c s).get f = ((routeOutput c s).put (R.CTX_Y_YA c) (s.get (R.CTX_Y_YC c))).get f := by
  have hshown : outputShown c s = (routeOutput c s).put (R.CTX_Y_YA c) (s.get (R.CTX_Y_YC c)) :=
    if_neg (ne_true_of_eq_false hout)
  rw [outputRound_of_done hdone, (regsOutside_parkSync c _).get (by simpa using hf), ← hshown]
  exact get_congr (setCtxSt_regs ..) f

theorem ya_outputRound : (outputRound c s).get (R.CTX_Y_YA c) = s.get (R.CTX_Y_YC c) := by
  rw [get_outputRound hdone hout (by simp only [R.CTX_Y_YA, R.CTX_Y, R.CTX_STAT]; omega), get_put _ _ _ (by simp [R.CTX_Y_YA])]
  exact Nat.mod_eq_of_lt (get_lt s (R.CTX_Y_YC c))

theorem sp_outputRound {d : Nat} (hdest : s.get (R.CTX_ROUTE_DEST c) = 4) (hnum : s.get (R.CTX_ROUTE_NUM c) = d)
    (hsrc : s.get (R.CTX_CFG_SPSRC d) = c) : (outputRound c s).get (R.CTX_SP_SP d) = s.get (R.CTX_Y_YC c) := by
  rw [get_outputRound hdone hout (by simp only [R.CTX_SP_SP, R.CTX_SP, R.CTX_STAT]; omega),
    get_put_ne _ _ _ _ (by simp only [R.CTX_SP_SP, R.CTX_Y_YA, R.CTX_SP, R.CTX_Y]; omega),
    sp_routeOutput_of_named hdest hnum hsrc]

end

/-! ### The rounds of a seam's contexts -/

/-- What a round that comes once in a loop needs stands at its turn, and what it brings about stands at the end. -/
theorem forL_round {σ α : Type} {P Q : σ → Prop} {l : List α} {f : α → σ → σ} {c : α} {s : σ} (hnodup : l.Nodup) (hc : c ∈ l)
    (hs : P s) (hbefore : ∀ x ∈ l, x ≠ c → ∀ a, P a → P (f x a)) (hround : ∀ a, P a → Q (f c a))
    (hafter : ∀ x ∈ l, x ≠ c → ∀ a, Q a → Q (f x a)) : Q (forL l f s) := by
  obtain ⟨l₁, l₂, rfl⟩ := List.append_of_mem hc
  have hmem₁ : ∀ x ∈ l₁, x ∈ l₁ ++ c :: l₂ := fun x hx => List.mem_append_left _ hx
  have hmem₂ : ∀ x ∈ l₂, x ∈ l₁ ++ c :: l₂ := fun x hx => List.mem_append_right _ (List.mem_cons_of_mem _ hx)
  obtain ⟨-, htail, hapart⟩ := List.nodup_append.1 hnodup
  obtain ⟨hc₂, -⟩ := List.nodup_cons.1 htail
  have hturn : P (forL l₁ f s) := forL_invariant hs fun x hx a ha =>
    hbefore x (hmem₁ x hx) (hapart x hx c (List.mem_cons_self ..)) a ha
  have hsplit : forL (l₁ ++ c :: l₂) f s = forL l₂ f (f c (forL l₁ f s)) := by
    simp only [forL, List.foldl_append, List.foldl_cons]
  rw [hsplit]
  exact forL_invariant (hround _ hturn) fun x hx a ha => hafter x (hmem₂ x hx) (ne_of_mem_of_not_mem hx hc₂) a ha

/-- What the contexts are configured to do stands in `a` as in `s`. -/
structure SameRoutes (s a : State) : Prop where
  cfg   : ∀ d, a.word (R.CTX_CFG d) = s.word (R.CTX_CFG d)
  route : ∀ d, a.word (R.CTX_ROUTE d) = s.word (R.CTX_ROUTE d)

namespace SameRoutes
variable {s a : State} (h : SameRoutes s a)
include h

theorem dest (c : Nat) : a.get (R.CTX_ROUTE_DEST c) = s.get (R.CTX_ROUTE_DEST c) := congrArg (bitsOf · 28 4) (h.route c)

theorem num (c : Nat) : a.get (R.CTX_ROUTE_NUM c) = s.get (R.CTX_ROUTE_NUM c) := congrArg (bitsOf · 16 6) (h.route c)

theorem spsrc (d : Nat) : a.get (R.CTX_CFG_SPSRC d) = s.get (R.CTX_CFG_SPSRC d) := congrArg (bitsOf · 6 6) (h.cfg d)

end SameRoutes

/-- A round leaves the engine's registers but those of its context and set-points, and the seams' descriptors. -/
theorem word_outputRound {s : State} {x a : Nat} (ha : 0x050000 ≤ a ∨ a % 0x40 = 0) (hstat : a ≠ R.CTX_STAT x)
    (hy : a ≠ R.CTX_Y x) (hsp : a % 0x100 ≠ 0x34) : (outputRound x s).word a = s.word a := by
  refine regsOutside_outputRound a fun hmem => ?_
  rcases List.mem_cons.1 hmem with h | hmem
  · exact hstat h
  rcases List.mem_cons.1 hmem with h | hmem
  · exact hy h
  rcases of_mem_outputRegs hmem with ⟨hbelow, hoff⟩ | ⟨rfl, -, -⟩
  · omega
  · rw [R.CTX_SP] at hsp; omega

theorem SameRoutes.refl (s : State) : SameRoutes s s := ⟨fun _ => rfl, fun _ => rfl⟩

theorem SameRoutes.outputRound {s a : State} (h : SameRoutes s a) (x : Nat) : SameRoutes s (outputRound x a) := by
  refine ⟨fun d => (word_outputRound ?_ ?_ ?_ ?_).trans (h.cfg d), fun d => (word_outputRound ?_ ?_ ?_ ?_).trans (h.route d)⟩
  all_goals simp only [R.CTX_CFG, R.CTX_ROUTE, R.CTX_STAT, R.CTX_Y]; omega

/-- A round that SPSRC of `d` does not name leaves SP of `d`. -/
theorem sp_outputRound_of_not_named {s : State} {x d : Nat} (h : s.get (R.CTX_ROUTE_DEST x) = 4 → s.get (R.CTX_ROUTE_NUM x) = d →
    s.get (R.CTX_CFG_SPSRC d) ≠ x) : (outputRound x s).get (R.CTX_SP_SP d) = s.get (R.CTX_SP_SP d) := by
  refine regsOutside_outputRound.get fun hmem => ?_
  simp only [List.mem_cons, R.CTX_SP_SP] at hmem
  rcases hmem with hstat | hy | hroute
  · simp only [R.CTX_SP, R.CTX_STAT] at hstat; omega
  · simp only [R.CTX_SP, R.CTX_Y] at hy; omega
  · exact sp_notMem_outputRegs h hroute

/-- What the round of context `c` reads stands in `a` as in `s`. -/
structure RoundDue (s : State) (c : Nat) (a : State) : Prop extends SameRoutes s a where
  own : ∀ r ∈ [R.CTX_Y c, R.CTX_CTL c, R.CTX_STAT c], a.word r = s.word r
  ctx : ctxSt a c = ctxSt s c

/-- Context `c` has given in `a` the output it had in `s`. -/
structure RoundDone (s : State) (c : Nat) (a : State) : Prop extends SameRoutes s a where
  ya : a.get (R.CTX_Y_YA c) = s.get (R.CTX_Y_YC c)
  ex : (ctxSt a c).ex = if parkAsked s c = true then .parked else .idle
  sp : ∀ d, s.get (R.CTX_ROUTE_DEST c) = 4 → s.get (R.CTX_ROUTE_NUM c) = d → s.get (R.CTX_CFG_SPSRC d) = c →
    a.get (R.CTX_SP_SP d) = s.get (R.CTX_Y_YC c)

section
variable {s a : State} {c x : Nat}

/-- A round leaves the outputs, the control and the status of another context. -/
theorem own_outputRound_ne (hx : x ≠ c) {r : Nat} (hr : r ∈ [R.CTX_Y c, R.CTX_CTL c, R.CTX_STAT c]) :
    (outputRound x a).word r = a.word r := by
  simp only [List.mem_cons, List.not_mem_nil, or_false, R.CTX_Y, R.CTX_CTL, R.CTX_STAT] at hr
  refine word_outputRound (by omega) ?_ ?_ (by omega)
  · rw [R.CTX_STAT]; omega
  · rw [R.CTX_Y]; omega

theorem RoundDue.outputRound_ne (h : RoundDue s c a) (hx : x ≠ c) : RoundDue s c (outputRound x a) :=
  ⟨h.toSameRoutes.outputRound x, fun r hr => (own_outputRound_ne hx hr).trans (h.own r hr),
    (ctxSt_outputRound_ne hx.symm).trans h.ctx⟩

theorem RoundDone.outputRound_ne (h : RoundDone s c a) (hx : x ≠ c) : RoundDone s c (outputRound x a) where
  toSameRoutes := h.toSameRoutes.outputRound x
  ya := (congrArg (bitsOf · 16 16) (own_outputRound_ne hx (List.mem_cons_self ..))).trans h.ya
  ex := by rw [ctxSt_outputRound_ne hx.symm, h.ex]
  sp d hdest hnum hsrc := (sp_outputRound_of_not_named fun _ _ he =>
    hx (he.symm.trans ((h.spsrc d).trans hsrc))).trans (h.sp d hdest hnum hsrc)

theorem RoundDue.outputRound (h : RoundDue s c a) (hdone : (ctxSt s c).ex = .done) (hout : (ctxSt s c).noOut = false) :
    RoundDone s c (outputRound c a) := by
  have hdone' : (ctxSt a c).ex = .done := by rw [h.ctx, hdone]
  have hout' : (ctxSt a c).noOut = false := by rw [h.ctx, hout]
  have hown : ∀ f : Field, f.addr ∈ [R.CTX_Y c, R.CTX_CTL c, R.CTX_STAT c] → a.get f = s.get f := fun f hf =>
    congrArg (bitsOf · f.lo f.wd) (h.own _ hf)
  have hyc : a.get (R.CTX_Y_YC c) = s.get (R.CTX_Y_YC c) := hown _ (by simp [R.CTX_Y_YC])
  have hpark : parkAsked a c = parkAsked s c := by
    rw [parkAsked, State.on, State.on, hown _ (by simp [R.CTX_CTL_PARK]), hown _ (by simp [R.CTX_STAT_HPARK])]
    rfl
  refine ⟨h.toSameRoutes.outputRound c, (ya_outputRound hdone' hout').trans hyc, ?_, fun d hdest hnum hsrc => ?_⟩
  · rw [ex_outputRound hdone', hpark]
  · exact (sp_outputRound hdone' hout' ((h.dest c).trans hdest) ((h.num c).trans hnum) ((h.spsrc d).trans hsrc)).trans hyc

end

section
variable {s : State} {n : Nat}

theorem flt_applyOutputs (n : Nat) (s : State) : (applyOutputs n s).flt = s.flt :=
  forL_keeps State.flt _ outputRound s fun _ _ => flt_outputRound

/-- The outputs leave the seams' descriptors. -/
theorem get_desc_applyOutputs (n : Nat) (s : State) {f : Field} {m : Nat} (hf : f.addr = R.SEAM_DESC m) :
    (applyOutputs n s).get f = s.get f := by
  refine congrArg (bitsOf · f.lo f.wd) (forL_keeps (State.word · f.addr) _ outputRound s fun x b => ?_)
  rw [hf]
  apply word_outputRound <;> simp only [R.SEAM_DESC, R.CTX_STAT, R.CTX_Y] <;> omega

/-- Each context of the seam that has an output gives it. -/
theorem roundDone_applyOutputs {c : Nat} (hc : c ∈ contextsOf s n) (hdone : (ctxSt s c).ex = .done)
    (hout : (ctxSt s c).noOut = false) : RoundDone s c (applyOutputs n s) := by
  rw [applyOutputs_eq]
  exact forL_round (P := RoundDue s c) (nodup_seams.filter _) hc ⟨.refl s, fun _ _ => rfl, rfl⟩
    (fun x _ hx a ha => ha.outputRound_ne hx) (fun a ha => ha.outputRound hdone hout) fun x _ hx a ha => ha.outputRound_ne hx

/-- A set-point that no context of the seam is to write stays. -/
theorem sp_applyOutputs_of_not_named {d : Nat} (h : ∀ c ∈ contextsOf s n, s.get (R.CTX_ROUTE_DEST c) = 4 →
    s.get (R.CTX_ROUTE_NUM c) = d → s.get (R.CTX_CFG_SPSRC d) ≠ c) :
    (applyOutputs n s).get (R.CTX_SP_SP d) = s.get (R.CTX_SP_SP d) := by
  rw [applyOutputs_eq]
  refine (forL_invariant (P := fun a => SameRoutes s a ∧ a.get (R.CTX_SP_SP d) = s.get (R.CTX_SP_SP d)) ⟨.refl s, rfl⟩
    fun x hx a ⟨hroutes, hsp⟩ => ⟨hroutes.outputRound x, (sp_outputRound_of_not_named fun hdest hnum => ?_).trans hsp⟩).2
  rw [hroutes.spsrc]
  exact h x hx ((hroutes.dest x).symm.trans hdest) ((hroutes.num x).symm.trans hnum)

end

/-! ### The whole update instant -/

theorem joinTimed_regs (n : Nat) (ks : List Nat) (s : State) : (joinTimed n ks s).regs = s.regs := keeps_ite State.regs rfl rfl

theorem joinTimed_ctxs (n : Nat) (ks : List Nat) (s : State) : (joinTimed n ks s).ctxs = s.ctxs := keeps_ite State.ctxs rfl rfl

/-- The state in which the outputs are given: the stitches have joined, and the fault manager takes the cycle's reports into `F`. -/
def joinedCycle (n : Nat) (F : FltSt) (s : State) : State := { joinTimed n (timed s n none) s with flt := F }

theorem regs_joinedCycle (n : Nat) (F : FltSt) (s : State) : (joinedCycle n F s).regs = s.regs :=
  joinTimed_regs n _ s

theorem ctxs_joinedCycle (n : Nat) (F : FltSt) (s : State) : (joinedCycle n F s).ctxs = s.ctxs :=
  joinTimed_ctxs n _ s

section
variable {s : State} {n : Fin 64} (due : Bool) (hstack : seamType s n ≠ tSTACK)
  (hlink : ∀ m ∈ seams, seamType s m = tLINK → s.get (R.SEAM_DESC_PARENT m) ≠ n.val)
include hstack hlink

theorem engineKept_updateAt_joinedCycle (F : FltSt) :
    EngineKept (applyOutputs n (joinedCycle n F s)) (updateAt due [⟨n, none⟩] (joinedCycle n F s)) := by
  have hdesc : ∀ {f : Field} {m : Nat}, f.addr = R.SEAM_DESC m → (applyOutputs n (joinedCycle n F s)).get f = s.get f :=
    fun hf => (get_desc_applyOutputs n _ hf).trans (get_congr (regs_joinedCycle n F s) _)
  refine EngineKept.updateAt (fun htype => hstack ((hdesc rfl).symm.trans htype)) (fun m hm htype => ?_) due
  rw [hdesc rfl]
  exact hlink m hm ((hdesc rfl).symm.trans htype)

/-- The contexts and the engine's registers after an update instant are those after its outputs. -/
theorem updated_of_noStack_noLink : ∃ F,
    (∀ a, EngineAddr a → (updated due ⟨n, none⟩ s).word a = (applyOutputs n (joinedCycle n F s)).word a)
    ∧ (updated due ⟨n, none⟩ s).ctxs = (applyOutputs n (joinedCycle n F s)).ctxs := by
  have hkept := engineKept_updateAt_joinedCycle due hstack hlink
  obtain ⟨F, hcycle⟩ := oneCycle_of_quiet (f := updateAt due [⟨n, none⟩]) (s := joinTimed n (timed s n none) s)
    fun F => (hkept F).flt.trans (flt_applyOutputs ..)
  have hend : EngineKept (oneCycle (updateAt due [⟨n, none⟩]) (joinTimed n (timed s n none) s)) (updated due ⟨n, none⟩ s) :=
    (EngineKept.refl _).takeFractions ⟨n, none⟩
  rw [hcycle] at hend
  exact ⟨F, fun a ha => (hend.word a ha).trans ((hkept F).word a ha), hend.ctxs.trans (hkept F).ctxs⟩

end

/-- Settles O32: an accepted word is one write of SP or none, and an update instant is one round of each context of its seam. -/
theorem setPointWrites : Obligations.SetPointWrites := by
  refine ⟨fun c s w hc0 hacc => ⟨fun hfree => ?taken, fun hrouted => ?ignored⟩,
    fun n due s hused hruns hstack hlink _ => ?instant⟩
  case taken =>
    have hc : c.val ≠ 0 := fun h => hc0 (Fin.ext h)
    exact ⟨_, (exec_ctxSpWrite_of_accepts hacc).trans (congrArg _ (writeCtxSp_of_free hc hfree)),
      (PortRegs.refl w.port _ s).put _ _ (List.mem_singleton_self _), word_put (endRun w.port s) (R.CTX_SP_SP c) _⟩
  case ignored => exact (exec_ctxSpWrite_of_accepts hacc).trans (congrArg _ (writeCtxSp_of_routed hrouted))
  case instant =>
    obtain ⟨F, hwords, hcontexts⟩ := updated_of_noStack_noLink due hstack hlink
    have hregs := regs_joinedCycle n F s
    have hctxs := ctxs_joinedCycle n F s
    generalize joinedCycle n F s = b at hwords hcontexts hregs hctxs
    have hof : contextsOf b n = contextsOf s n := by simp only [contextsOf, get_congr hregs]
    have hsp : ∀ d : Nat, d < 64 →
        (updated due ⟨n, none⟩ s).get (R.CTX_SP_SP d) = (applyOutputs n b).get (R.CTX_SP_SP d) := fun d hd =>
      congrArg (bitsOf · 0 16) (hwords _ (by simp only [EngineAddr, R.CTX_SP_SP, R.CTX_SP]; omega))
    refine ⟨_, exec_updateInstant (u := ⟨n, none⟩) hused hruns due, fun c hc hdone hout => ?_, fun d hd hnone => ?_⟩
    · have hc64 : c < 64 := (mem_seams.1 (List.mem_filter.1 hc).1).2
      have hgiven : RoundDone b c (applyOutputs n b) := roundDone_applyOutputs (hof ▸ hc)
        (by rw [ctxSt_congr hctxs, hdone]) (by rw [ctxSt_congr hctxs, hout])
      have hy : EngineAddr (R.CTX_Y c) := by simp only [EngineAddr, R.CTX_Y]; omega
      refine ⟨?_, ?_, fun d hd hdest hnum hsrc => ?_⟩
      · exact (congrArg (bitsOf · 16 16) (hwords _ hy)).trans (hgiven.ya.trans (get_congr hregs _))
      · rw [ctxSt_congr hcontexts, hgiven.ex]
        exact if_congr (by rw [parkAsked, on_congr hregs, on_congr hregs, Bool.or_eq_true]) rfl rfl
      · refine (hsp d hd).trans ((hgiven.sp d ?_ ?_ ?_).trans (get_congr hregs _)) <;> rwa [get_congr hregs]
    · refine (hsp d hd).trans ((sp_applyOutputs_of_not_named fun c hc => ?_).trans (get_congr hregs _))
      simp only [get_congr hregs]
      exact hnone c (hof ▸ hc)

end Sys2Proof.Machine
end

section
/-!
PROOFS of what the hold of the grid unit follows (R193).
-/
namespace Sys2Proof.Machine

/-! ### The hold of R193 -/

/-- TRIPPED, ISL or CEASE asks for the hold of R193. -/
def holdWanted (s : State) : Bool := s.on R.GRD_STAT_TRIPPED || s.on R.GRD_STAT_ISL || s.on R.GRD_STAT_CEASE

/-- HOLD takes the value that R193 wants; where it rises, the queued words in its reach are to be performed first (R267). -/
def holdTurned (s : State) : State :=
  let s1 := s.flag R.GRD_STAT_HOLD (holdWanted s)
  if holdWanted s = true then holdQueue (s.get R.GRD_CFG_ROOT) s1 else s1

section
variable {s : State}

theorem syncGridHold_eq (s : State) :
    syncGridHold s = if holdWanted s == s.on R.GRD_STAT_HOLD then s else syncHolds (holdTurned s) := rfl

theorem syncGridHold_of_shown (h : holdWanted s = s.on R.GRD_STAT_HOLD) : syncGridHold s = s := by
  rw [syncGridHold_eq, if_pos (beq_iff_eq.2 h)]

theorem syncGridHold_of_changed (h : holdWanted s ≠ s.on R.GRD_STAT_HOLD) : syncGridHold s = syncHolds (holdTurned s) := by
  rw [syncGridHold_eq, if_neg (mt beq_iff_eq.1 h)]

/-- With QPOL 0 a hold lets the queued words be performed first: only the words that it awaits change. -/
theorem holdQueue_of_qpol (h : Nat) (hq : s.on R.FLT_CFG_QPOL = false) : ∃ H, holdQueue h s = { s with host := H } := by
  rw [holdQueue, if_neg (by rw [hq]; decide)]
  exact ⟨_, rfl⟩

/-- A state that differs in registers alone, its queue then as it may. -/
theorem OnlyRegs.withHost {as : List Nat} {t : State} (h : OnlyRegs as s t) (H : HostSt) :
    RegsOutside as s { t with host := H }
      ∧ ({ t with host := H } : State) = { s with regs := State.regs { t with host := H }, host := H } :=
  ⟨h.2, by conv_lhs => rw [h.1]⟩

theorem on_withHost (H : HostSt) (f : Field) : ({ s with host := H } : State).on f = s.on f := rfl

theorem holdQueue_or_not (want : Bool) (h : Nat) (hq : s.on R.FLT_CFG_QPOL = false) :
    ∃ H, (if want = true then holdQueue h s else s) = { s with host := H } := by
  split
  · exact holdQueue_of_qpol h hq
  · exact ⟨s.host, rfl⟩

theorem qpol_flag_hold (s : State) (b : Bool) : (s.flag R.GRD_STAT_HOLD b).on R.FLT_CFG_QPOL = s.on R.FLT_CFG_QPOL :=
  on_flag_other _ _ _ _ (by decide) (by decide)

theorem on_flag_hold (s : State) (b : Bool) : (s.flag R.GRD_STAT_HOLD b).on R.GRD_STAT_HOLD = b :=
  on_flag _ _ _ (by decide) rfl

/-- R193: where HOLD must change, it does, and every hold follows. -/
theorem syncGridHold_changes (h : holdWanted s ≠ s.on R.GRD_STAT_HOLD) (hq : s.on R.FLT_CFG_QPOL = false) :
    ∃ u, syncGridHold s = syncHolds u ∧ u.on R.GRD_STAT_HOLD = holdWanted s ∧ RegsOutside [R.GRD_STAT] s u
      ∧ u = { s with regs := u.regs, host := u.host } := by
  have hflag : OnlyRegs [R.GRD_STAT] s (s.flag R.GRD_STAT_HOLD (holdWanted s)) :=
    (OnlyRegs.refl _ s).flag _ _ (List.mem_singleton_self _)
  have hhold := on_flag_hold s (holdWanted s)
  have hqpol := (qpol_flag_hold s (holdWanted s)).trans hq
  have hsync := syncGridHold_of_changed h
  rw [holdTurned] at hsync
  generalize s.flag R.GRD_STAT_HOLD (holdWanted s) = t at hflag hhold hqpol hsync
  obtain ⟨H, hturned⟩ := holdQueue_or_not (holdWanted s) (s.get R.GRD_CFG_ROOT) hqpol
  exact ⟨_, hsync.trans (congrArg syncHolds hturned), (on_withHost H _).trans hhold, (hflag.withHost H).1, (hflag.withHost H).2⟩

end

end Sys2Proof.Machine
end

section
/-!
PROOFS of what one update of the grid unit shows (R182–R187), up to the functions that follow its measurements.
-/
namespace Sys2Proof.Machine

/-! ### What an update may touch -/

/-- Nothing differs but the registers that the grid unit shows, the state of the unit, and the pleats with their PLT_STAT and
PLT_CNT. -/
structure GridTouched (s t : State) : Prop where
  word : ∀ a, a < 0x090080 ∨ 0x090180 ≤ a → a ∉ seams.map R.PLT_STAT → a ∉ seams.map R.PLT_CNT → t.word a = s.word a
  rest : t = { s with regs := t.regs, grd := t.grd, plts := t.plts }

namespace GridTouched
variable {s t u : State}

theorem refl (s : State) : GridTouched s s := ⟨fun _ _ _ _ => rfl, rfl⟩

theorem trans (h : GridTouched s t) (k : GridTouched t u) : GridTouched s u := by
  refine ⟨fun a ha hstat hcnt => (k.word a ha hstat hcnt).trans (h.word a ha hstat hcnt), ?_⟩
  rw [k.rest, h.rest]

theorem withGrd (h : GridTouched s t) (g : GrdSt) : GridTouched s { t with grd := g } := by
  refine ⟨h.word, ?_⟩
  conv_lhs => rw [h.rest]

theorem setPltSt (h : GridTouched s t) (c : Nat) (p : PltSt) : GridTouched s (setPltSt t c p) := by
  refine ⟨h.word, ?_⟩
  conv_lhs => rw [h.rest]
  rfl

/-- A register that the unit shows, or PLT_STAT or PLT_CNT of a pleat, is written. -/
theorem put (h : GridTouched s t) (f : Field) (v : Nat)
    (hf : (0x090080 ≤ f.addr ∧ f.addr < 0x090180) ∨ f.addr ∈ seams.map R.PLT_STAT ∨ f.addr ∈ seams.map R.PLT_CNT) :
    GridTouched s (t.put f v) := by
  refine ⟨fun a ha hstat hcnt => (word_put_ne t f v a ?_).trans (h.word a ha hstat hcnt), ?_⟩
  · rintro rfl
    rcases hf with hf | hf | hf
    · omega
    · exact hstat hf
    · exact hcnt hf
  · conv_lhs => rw [h.rest]
    rfl

end GridTouched

/-- The times and signals that the functions after the measurements no longer change: whether a round waits, the time, the
positive sequence, the frequency and the angle. -/
def gridSignals (s : State) : Bool × Nat × Int × Int × Nat := (s.grd.ready, s.grd.time, s.grd.vpos, s.grd.f, s.grd.th)

/-- Outputs and pleats may differ, GRD_STAT and the signals do not. -/
structure OutputsOf (s t : State) : Prop where
  touched : GridTouched s t
  signals : gridSignals t = gridSignals s
  stat : t.word R.GRD_STAT = s.word R.GRD_STAT

namespace OutputsOf
variable {s t u : State}

theorem refl (s : State) : OutputsOf s s := ⟨.refl s, rfl, rfl⟩

theorem trans (h : OutputsOf s t) (k : OutputsOf t u) : OutputsOf s u :=
  ⟨h.touched.trans k.touched, k.signals.trans h.signals, k.stat.trans h.stat⟩

theorem put (h : OutputsOf s t) (f : Field) (v : Nat)
    (hf : (0x090080 ≤ f.addr ∧ f.addr < 0x090180) ∨ f.addr ∈ seams.map R.PLT_STAT ∨ f.addr ∈ seams.map R.PLT_CNT)
    (hstat : R.GRD_STAT ≠ f.addr) : OutputsOf s (t.put f v) :=
  ⟨h.touched.put f v hf, h.signals, (word_put_ne t f v _ hstat).trans h.stat⟩

theorem putStat (h : OutputsOf s t) {c : Nat} (hc : c ∈ seams) (f : Field) (hf : f.addr = R.PLT_STAT c) (v : Nat) :
    OutputsOf s (t.put f v) :=
  h.put f v (.inr (.inl (hf ▸ List.mem_map_of_mem hc))) (by
    have hc64 := (mem_seams.1 hc).2
    simp only [hf, R.GRD_STAT, R.PLT_STAT]; omega)

theorem putCnt (h : OutputsOf s t) {c : Nat} (hc : c ∈ seams) (f : Field) (hf : f.addr = R.PLT_CNT c) (v : Nat) :
    OutputsOf s (t.put f v) :=
  h.put f v (.inr (.inr (hf ▸ List.mem_map_of_mem hc))) (by
    have hc64 := (mem_seams.1 hc).2
    simp only [hf, R.GRD_STAT, R.PLT_CNT]; omega)

theorem setPltSt (h : OutputsOf s t) (c : Nat) (p : PltSt) : OutputsOf s (setPltSt t c p) :=
  ⟨h.touched.setPltSt c p, h.signals, h.stat⟩

/-! ### The pleats see a change of LOCK (R150) -/

theorem pleatSees (h : OutputsOf s t) {c : Nat} (hc : c ∈ seams) : OutputsOf s (pleatSees c t) := by
  unfold Machine.pleatSees
  dsimp only
  have hulk : ∀ v, OutputsOf s (t.flag (R.PLT_STAT_ULK c) v) := fun v => h.putStat hc _ rfl _
  split
  · exact h
  · split
    · exact (hulk _).setPltSt _ _
    · exact (((hulk _).putCnt hc (R.PLT_CNT_ULKCNT c) rfl _).putStat hc (R.PLT_STAT_RELKW c) rfl _).setPltSt _ _
    · exact ((hulk _).putStat hc (R.PLT_STAT_RELKW c) rfl _).setPltSt _ _

theorem pleatsSee (h : OutputsOf s t) : OutputsOf s (pleatsSee t) :=
  forL_invariant h fun _ hc _ ha => ha.pleatSees hc

/-! ### The outputs and the measurement registers (Table 10.2) -/

/-- GRD_F to GRD_VPH, or an output. -/
theorem putShown (h : OutputsOf s t) (f : Field) (v : Nat)
    (hf : (R.GRD_F ≤ f.addr ∧ f.addr ≤ R.GRD_VPH) ∨ (R.GRD_OUT 0 ≤ f.addr ∧ f.addr < R.GRD_OUT 32)) :
    OutputsOf s (t.put f v) := by
  simp only [R.GRD_F, R.GRD_VPH, R.GRD_OUT] at hf
  exact h.put f v (.inl (by omega)) (by simp only [R.GRD_STAT]; omega)

theorem putOutp (h : OutputsOf s t) {k : Nat} (hk : k < 32) (v : Int) : OutputsOf s (putOutp k v t) :=
  h.putShown _ _ (.inr (by simp only [R.GRD_OUT_OUT, R.GRD_OUT]; omega))

theorem publishAngle (h : OutputsOf s t) (dt : Nat) : OutputsOf s (publishAngle dt t) :=
  ((((h.putShown _ _ (.inr (by decide))).putOutp (by decide) _).putOutp (by decide) _).putOutp (by decide) _).putOutp
    (by decide) _

theorem publishSequences (h : OutputsOf s t) (dt : Nat) : OutputsOf s (publishSequences dt t) :=
  (((h.putOutp (by decide) _).putOutp (by decide) _).putOutp (by decide) _).putOutp (by decide) _

theorem publish (h : OutputsOf s t) (dt : Nat) (passed : Bool) : OutputsOf s (publish dt passed t) := by
  unfold Machine.publish
  extract_lets g vs s3 pu s4 s5 s6 s7 s8 mpu
  have h3 : OutputsOf s s3 := (h.publishAngle dt).publishSequences dt
  have h4 : OutputsOf s s4 := ((h3.putOutp (k := 9) (by decide) _).putOutp (k := 10) (by decide) _).putOutp (k := 11)
    (by decide) _
  have h5 : OutputsOf s s5 := h4.putOutp (k := 12) (by decide) _
  have h6 : OutputsOf s s6 := (h5.putOutp (k := 13) (by decide) _).putOutp (k := 14) (by decide) _
  have h7 : OutputsOf s s7 := (h6.putShown R.GRD_F_F _ (.inl (by decide))).putShown R.GRD_ROCOF_ROCOF _ (.inl (by decide))
  have h8 : OutputsOf s s8 := (h7.putShown R.GRD_VS_VS _ (.inl (by decide))).putShown R.GRD_VS_VSMAX _ (.inl (by decide))
  exact (((h8.putShown R.GRD_VSEQ_VPOS _ (.inl (by decide))).putShown R.GRD_VSEQ_VNEG _ (.inl (by decide))).putShown
    R.GRD_VPH_VLOW _ (.inl (by decide))).putShown R.GRD_VPH_VHIGH _ (.inl (by decide))

theorem withRoc (h : OutputsOf s t) (r : Int) : OutputsOf s { t with grd := { t.grd with roc := r } } :=
  ⟨h.touched.withGrd _, h.signals, h.stat⟩

theorem withPowers (h : OutputsOf s t) (pIn qIn p q : Int) :
    OutputsOf s { t with grd := { t.grd with pIn := pIn, qIn := qIn, p := p, q := q } } :=
  ⟨h.touched.withGrd _, h.signals, h.stat⟩

theorem judgeRocof (h : OutputsOf s t) : OutputsOf s (judgeRocof t) := h.withRoc _

theorem stepPowers (h : OutputsOf s t) (dt : Nat) : OutputsOf s (stepPowers dt t) := by
  unfold Machine.stepPowers
  split
  · exact ((h.withPowers _ _ _ _).putOutp (k := 17) (by decide) _).putOutp (k := 18) (by decide) _
  · exact (h.putOutp (k := 17) (by decide) _).putOutp (k := 18) (by decide) _

end OutputsOf

/-! ### LOCK (R186) -/

/-- Of GRD_STAT only LOCK may differ, and a coasting unit is not LOCKed; outputs and pleats may differ, the signals do not. -/
structure LockJudged (s t : State) : Prop where
  touched : GridTouched s t
  signals : gridSignals t = gridSignals s
  coast : t.on R.GRD_STAT_COAST = s.on R.GRD_STAT_COAST
  fclamp : t.on R.GRD_STAT_FCLAMP = s.on R.GRD_STAT_FCLAMP
  unlocked : t.on R.GRD_STAT_COAST = true → t.on R.GRD_STAT_LOCK = false

/-- The time for which the error was small, and the run of updates with a large one. -/
def lockTimed (lockT lockBad : Nat) (s : State) : State := { s with grd := { s.grd with lockT := lockT, lockBad := lockBad } }

/-- The time of a rise of LOCK is noted. -/
def lockNoted (time : Nat) (s : State) : State := { s with grd := { s.grd with lockAt := time } }

section
variable {s t u : State}

theorem OutputsOf.lockTimed (h : OutputsOf s t) (lockT lockBad : Nat) : OutputsOf s (lockTimed lockT lockBad t) :=
  ⟨h.touched.withGrd _, h.signals, h.stat⟩

theorem OutputsOf.lockNoted (h : OutputsOf s t) (time : Nat) : OutputsOf s (lockNoted time t) :=
  ⟨h.touched.withGrd _, h.signals, h.stat⟩

theorem OutputsOf.on_stat (h : OutputsOf s t) {f : Field} (hf : f.addr = R.GRD_STAT) : t.on f = s.on f := by
  rw [State.on, State.get, hf, h.stat, State.on, State.get, hf]

theorem gridSignals_flag (s : State) (f : Field) (b : Bool) : gridSignals (s.flag f b) = gridSignals s := rfl

/-- LOCK takes a value that it may have beside COAST. -/
theorem OutputsOf.flagLock (h : OutputsOf s t) (lock : Bool) (hlock : lock = true → s.on R.GRD_STAT_COAST = false) :
    LockJudged s (t.flag R.GRD_STAT_LOCK lock) := by
  have hcoast : (t.flag R.GRD_STAT_LOCK lock).on R.GRD_STAT_COAST = s.on R.GRD_STAT_COAST :=
    (on_flag_other _ _ _ _ (by decide) (by decide)).trans (h.on_stat rfl)
  refine ⟨h.touched.put _ _ (.inl (by decide)), (gridSignals_flag ..).trans h.signals, hcoast,
    (on_flag_other _ _ _ _ (by decide) (by decide)).trans (h.on_stat rfl), fun hon => ?_⟩
  rw [on_flag _ _ _ (by decide) rfl]
  exact Bool.eq_false_iff.2 fun htrue => Bool.false_ne_true ((hlock htrue).symm.trans (hcoast.symm.trans hon))

theorem LockJudged.outputs (h : LockJudged s t) (k : OutputsOf t u) : LockJudged s u where
  touched := h.touched.trans k.touched
  signals := k.signals.trans h.signals
  coast := (k.on_stat rfl).trans h.coast
  fclamp := (k.on_stat rfl).trans h.fclamp
  unlocked := by rw [k.on_stat rfl, k.on_stat rfl]; exact h.unlocked

/-- LOCK stays, where a coasting unit has none. -/
theorem OutputsOf.lockJudged (h : OutputsOf s t) (hlock : s.on R.GRD_STAT_LOCK = true → s.on R.GRD_STAT_COAST = false) :
    LockJudged s t where
  touched := h.touched
  signals := h.signals
  coast := h.on_stat rfl
  fclamp := h.on_stat rfl
  unlocked := fun hcoast => by
    rw [h.on_stat rfl] at hcoast ⊢
    exact Bool.eq_false_iff.2 fun hon => Bool.false_ne_true ((hlock hon).symm.trans hcoast)

/-- R186: LOCK stays, which no coasting unit keeps, or it falls, or it rises, which no coasting unit's does. -/
theorem judgeLock_cases (dt : Nat) (s : State) : ∃ lockT lockBad,
    ((s.on R.GRD_STAT_LOCK = true → s.on R.GRD_STAT_COAST = false) ∧ judgeLock dt s = lockTimed lockT lockBad s)
    ∨ judgeLock dt s = pleatsSee ((lockTimed lockT lockBad s).flag R.GRD_STAT_LOCK false)
    ∨ (s.on R.GRD_STAT_COAST = false
        ∧ judgeLock dt s = pleatsSee (lockNoted s.grd.time ((lockTimed lockT lockBad s).flag R.GRD_STAT_LOCK true))) := by
  unfold judgeLock
  extract_lets g th coast fcl good lockT lockBad s1
  refine ⟨lockT, lockBad, ?_⟩
  split
  case isTrue hlock =>
    split
    case isTrue hfalls => exact .inr (.inl rfl)
    case isFalse hstays => exact .inl ⟨fun _ => Bool.eq_false_iff.2 fun hcoast => hstays (by simp [coast, hcoast]), rfl⟩
  case isFalse hlock =>
    split
    case isTrue hrises =>
      have hgood := hrises.1
      simp only [good, Bool.and_eq_true, Bool.not_eq_true'] at hgood
      exact .inr (.inr ⟨hgood.1.2, by rw [lockNoted, flag_grd]; rfl⟩)
    case isFalse hstays => exact .inl ⟨fun h => absurd h hlock, rfl⟩

theorem lockJudged_judgeLock (dt : Nat) (s : State) : LockJudged s (judgeLock dt s) := by
  obtain ⟨lockT, lockBad, ⟨hcoast, h⟩ | h | ⟨hcoast, h⟩⟩ := judgeLock_cases dt s <;> rw [h]
  · exact ((OutputsOf.refl s).lockTimed lockT lockBad).lockJudged hcoast
  · exact (((OutputsOf.refl s).lockTimed lockT lockBad).flagLock false (by simp)).outputs (OutputsOf.refl _).pleatsSee
  · exact (((OutputsOf.refl s).lockTimed lockT lockBad).flagLock true fun _ => hcoast).outputs
      ((OutputsOf.refl _).lockNoted _).pleatsSee

end

/-! ### The measurements and the PLL (R183, R184) -/

/-- The positive sequence lies below VMIN. -/
def BelowVmin (s : State) (g : GrdSt) : Prop := g.vpos < 1000 * (s.get R.GRD_LOCK_VMIN : Int)

/-- One step of the PLL from `g` to `h`: the time and the angle stay; a coasting unit keeps its frequency, any other comes to
one from 45 to 65 Hz. -/
structure PllStep (s : State) (g h : GrdSt) : Prop where
  ready : h.ready = g.ready
  time : h.time = g.time
  th : h.th = g.th
  coasting : BelowVmin s h → h.f = g.f
  following : ¬BelowVmin s h → 45000000 ≤ h.f ∧ h.f ≤ 65000000

section
variable (s : State) (g : GrdSt) (dt : Nat)

theorem measure_eq : ∃ filt seq dq vpos vneg vlow vhigh pe, measure s g dt =
    { g with filt := filt, seq := seq, dq := dq, vpos := vpos, vneg := vneg, vlow := vlow, vhigh := vhigh, pe := pe } :=
  ⟨_, _, _, _, _, _, _, _, rfl⟩

/-- The measurements leave the time, the angle and the frequency. -/
theorem measure_keeps : (measure s g dt).ready = g.ready ∧ (measure s g dt).time = g.time ∧ (measure s g dt).th = g.th
    ∧ (measure s g dt).f = g.f := by
  obtain ⟨filt, seq, dq, vpos, vneg, vlow, vhigh, pe, h⟩ := measure_eq s g dt
  rw [h]
  exact ⟨rfl, rfl, rfl, rfl⟩

theorem clampInt_mem {lo hi : Int} (h : lo ≤ hi) (i : Int) : lo ≤ clampInt lo hi i ∧ clampInt lo hi i ≤ hi := by
  unfold clampInt
  split
  · exact ⟨le_rfl, h⟩
  · split <;> omega

theorem pll_eq (h : ¬BelowVmin s g) : ∃ fi f, pll s g dt = { g with fi := fi, f := clampInt 45000000 65000000 f } :=
  ⟨_, _, if_neg h⟩

theorem pllStep_pll : PllStep s g (pll s g dt) := by
  by_cases hcoast : BelowVmin s g
  · rw [show pll s g dt = g from if_pos hcoast]
    exact ⟨rfl, rfl, rfl, fun _ => rfl, fun h => absurd hcoast h⟩
  · obtain ⟨fi, f, h⟩ := pll_eq s g dt hcoast
    rw [h]
    exact ⟨rfl, rfl, rfl, fun h => absurd h hcoast, fun _ => clampInt_mem (by decide) f⟩

theorem pllStep_measured : PllStep s g (pll s (measure s g dt) dt) := by
  have hstep := pllStep_pll s (measure s g dt) dt
  obtain ⟨hready, htime, hth, hf⟩ := measure_keeps s g dt
  exact ⟨hstep.ready.trans hready, hstep.time.trans htime, hstep.th.trans hth, fun h => (hstep.coasting h).trans hf,
    hstep.following⟩

end

/-! ### One update (R182, R201) -/

/-- The unit's own state once the PLL has stepped, the angle has advanced and f_meas is noted. -/
def followed (s : State) (g : GrdSt) (dt : Nat) : GrdSt :=
  let g1 := pll s (measure s g dt) dt
  let g2 := { g1 with th := advance g1.th g1.f dt, fmeas := measF s g.f g1 dt }
  { g2 with hist := noteF s g2 dt }

/-- From `g` to `h` in a time `dt`: a step of the PLL, and the angle advances by the new frequency. -/
structure FollowStep (s : State) (g h : GrdSt) (dt : Nat) : Prop where
  ready : h.ready = g.ready
  time : h.time = g.time
  th : h.th = advance g.th h.f dt
  coasting : BelowVmin s h → h.f = g.f
  following : ¬BelowVmin s h → 45000000 ≤ h.f ∧ h.f ≤ 65000000

/-- COAST and FCLAMP of a state of the unit. -/
def coastShown (s : State) (g : GrdSt) : State :=
  ({ s with grd := g }.flag R.GRD_STAT_COAST (decide (g.vpos < 1000 * (s.get R.GRD_LOCK_VMIN : Int)))).flag R.GRD_STAT_FCLAMP
    (g.f == 45000000 || g.f == 65000000)

/-- The time passes over an update. -/
def timePassed (s : State) : GrdSt := { s.grd with time := s.grd.time + gridDt s }

section
variable {s u : State} {g h : GrdSt} {dt : Nat}

theorem PllStep.advanced (hstep : PllStep s g h) {th : Nat} (hth : th = advance h.th h.f dt) (fmeas : Int)
    (hist : List (Nat × Int)) :
    let g2 := { h with th := th, fmeas := fmeas }
    FollowStep s g { g2 with hist := hist } dt :=
  ⟨hstep.ready, hstep.time, hth.trans (by rw [hstep.th]), hstep.coasting, hstep.following⟩

theorem followStep_followed (s : State) (g : GrdSt) (dt : Nat) : FollowStep s g (followed s g dt) dt :=
  (pllStep_measured s g dt).advanced rfl _ _

theorem GridTouched.flagStat {t : State} (htouched : GridTouched s t) {f : Field} (hf : f.addr = R.GRD_STAT) (b : Bool) :
    GridTouched s (t.flag f b) :=
  htouched.put f _ (.inl (by rw [hf]; decide))

theorem gridTouched_coastShown : GridTouched s (coastShown s g) :=
  (((GridTouched.refl s).withGrd g).flagStat rfl _).flagStat rfl _

theorem gridSignals_coastShown : gridSignals (coastShown s g) = (g.ready, g.time, g.vpos, g.f, g.th) :=
  (gridSignals_flag ..).trans (gridSignals_flag ..)

theorem coast_coastShown : (coastShown s g).on R.GRD_STAT_COAST = decide (g.vpos < 1000 * (s.get R.GRD_LOCK_VMIN : Int)) :=
  (on_flag_other _ _ _ _ (by decide) (by decide)).trans (on_flag _ _ _ (by decide) rfl)

theorem fclamp_coastShown : (coastShown s g).on R.GRD_STAT_FCLAMP = (g.f == 45000000 || g.f == 65000000) :=
  on_flag _ _ _ (by decide) rfl

theorem exec_gridUpdate (hready : s.grd.ready = true) (hruns : gridRuns s = true) :
    exec .gridUpdate s = .next (gridStep { s with grd := { s.grd with ready := false } }) :=
  congrArg Host.Outcome.next (if_pos ⟨hready, hruns⟩)

/-- R201: no mode of the PLL. -/
theorem gridStep_outside (hmode : gPLL s = false) :
    gridStep s = stepFunctions (gridDt s) { s with grd := { timePassed s with lockT := 0, lockBad := 0 } } :=
  if_neg (by rw [hmode]; decide)

theorem gridStep_following (hmode : gPLL s = true) : ∃ passed, gridStep s =
    stepFunctions (gridDt s) (stepPowers (gridDt s) (publish (gridDt s) passed (judgeRocof (judgeLock (gridDt s)
      (coastShown s (followed s (timePassed s) (gridDt s))))))) :=
  ⟨_, if_pos hmode⟩

/-- What an update in a mode of the PLL shows before the functions that follow it. -/
structure UpdateShown (s u : State) : Prop where
  touched : GridTouched s u
  ready : u.grd.ready = s.grd.ready
  time : u.grd.time = s.grd.time + gridDt s
  coast : u.on R.GRD_STAT_COAST = decide (u.grd.vpos < 1000 * (s.get R.GRD_LOCK_VMIN : Int))
  fclamp : u.on R.GRD_STAT_FCLAMP = (u.grd.f == 45000000 || u.grd.f == 65000000)
  coasting : u.on R.GRD_STAT_COAST = true → u.on R.GRD_STAT_LOCK = false ∧ u.grd.f = s.grd.f
  following : u.on R.GRD_STAT_COAST = false → 45000000 ≤ u.grd.f ∧ u.grd.f ≤ 65000000
  th : u.grd.th = advance s.grd.th u.grd.f (gridDt s)

theorem updateShown_of_followed (hstep : FollowStep s (timePassed s) h (gridDt s)) (hjudged : LockJudged (coastShown s h) u) :
    UpdateShown s u := by
  have hsignals := hjudged.signals.trans gridSignals_coastShown
  simp only [gridSignals, Prod.mk.injEq] at hsignals
  obtain ⟨hready, htime, hvpos, hf, hth⟩ := hsignals
  have hcoast := hjudged.coast.trans coast_coastShown
  exact {
    touched := gridTouched_coastShown.trans hjudged.touched
    ready := hready.trans hstep.ready
    time := htime.trans hstep.time
    coast := by rw [hcoast, hvpos]
    fclamp := by rw [hjudged.fclamp, fclamp_coastShown, hf]
    coasting := fun hon => ⟨hjudged.unlocked hon,
      hf.trans (hstep.coasting (show _ < _ from of_decide_eq_true (hcoast.symm.trans hon)))⟩
    following := fun hoff => hf ▸ hstep.following (show ¬_ < _ from of_decide_eq_false (hcoast.symm.trans hoff))
    th := by rw [hth, hf]; exact hstep.th }

theorem gridStep_shows (hmode : gPLL s = true) : ∃ u, gridStep s = stepFunctions (gridDt s) u ∧ UpdateShown s u := by
  obtain ⟨passed, hstep⟩ := gridStep_following hmode
  exact ⟨_, hstep, updateShown_of_followed (followStep_followed s (timePassed s) (gridDt s))
    ((lockJudged_judgeLock _ _).outputs (((OutputsOf.refl _).judgeRocof.publish _ _).stepPowers _))⟩

end

end Sys2Proof.Machine
end

section
/-!
PROOFS of what a curve point that acts shows (R190–R192).
-/
namespace Sys2Proof.Machine

/-! ### Registers and the state of the unit -/

/-- Nothing differs but registers of `as`, and the unit's own state is `g`. -/
def GrdRegs (as : List Nat) (g : GrdSt) (s t : State) : Prop := t = { s with regs := t.regs, grd := g } ∧ RegsOutside as s t

namespace GrdRegs
variable {as : List Nat} {g : GrdSt} {s t : State}

theorem refl (as : List Nat) (g : GrdSt) (s : State) : GrdRegs as g s { s with grd := g } := ⟨rfl, fun _ _ => rfl⟩

theorem put (h : GrdRegs as g s t) (f : Field) (v : Nat) (ha : f.addr ∈ as) : GrdRegs as g s (t.put f v) := by
  refine ⟨?_, h.2.put f v ha⟩
  conv_lhs => rw [h.1]
  rfl

theorem flag (h : GrdRegs as g s t) (f : Field) (b : Bool) (ha : f.addr ∈ as) : GrdRegs as g s (t.flag f b) := h.put _ _ ha

theorem inc (h : GrdRegs as g s t) (f : Field) (ha : f.addr ∈ as) : GrdRegs as g s (t.inc f) := h.put _ _ ha

theorem grd (h : GrdRegs as g s t) : t.grd = g := by rw [h.1]

theorem withGrd (h : GrdRegs as g s t) (g' : GrdSt) : GrdRegs as g' s { t with grd := g' } :=
  ⟨by conv_lhs => rw [h.1], h.2⟩

/-- ENTOK falls, and its time restarts. -/
theorem dropEntok (h : GrdRegs as g s t) (hstat : R.GRD_STAT ∈ as) (hentt : R.GRD_ENTT ∈ as) :
    GrdRegs as { g with entT := 0 } s (dropEntok t) := by
  rw [← h.grd]
  exact ((h.flag R.GRD_STAT_ENTOK false hstat).put R.GRD_ENTT_T 0 hentt).withGrd _

end GrdRegs

section
variable (s : State)

theorem get_withGrd (g : GrdSt) (f : Field) : ({ s with grd := g } : State).get f = s.get f := rfl

theorem get_dropEntok {f : Field} (hlo : f.lo + f.wd ≤ 32)
    (hentok : f.addr ≠ R.GRD_STAT ∨ f.lo + f.wd ≤ 23 ∨ 24 ≤ f.lo) (hentt : f.addr ≠ R.GRD_ENTT) :
    (dropEntok s).get f = s.get f := by
  rw [dropEntok, get_withGrd, get_put_other _ _ _ _ hlo (.inl hentt), get_flag_other _ _ _ _ hlo hentok]

theorem entok_dropEntok : (dropEntok s).get R.GRD_STAT_ENTOK = 0 := by
  rw [dropEntok, get_withGrd, get_put_other _ _ _ _ (by decide) (by decide), get_flag _ _ _ (by decide) rfl]
  rfl

end

/-! ### A TRIP point acts (R191) -/

/-- A TRIP point acts: its curve and its number show, and ENTOK falls. -/
def tripShown (i : Nat) (s : State) : State :=
  dropEntok ((({ s with grd := { s.grd with acting := i :: s.grd.acting } }).put R.GRD_CAUSE_TCRV (if i < 16 then 1 else 2)).put
    R.GRD_CAUSE_TPOINT (i % 16))

/-- TRIPPED sets, and the trip is counted. -/
def tripTaken (i : Nat) (s : State) : State := ((tripShown i s).flag R.GRD_STAT_TRIPPED true).inc R.GRD_CNT_TRIPS

/-- A CEASE point acts while CEASE is 0: CEASE sets, its time restarts, and it is counted. -/
def ceaseTaken (i : Nat) (s : State) : State :=
  (({ s with grd := { s.grd with acting := i :: s.grd.acting, ceaseT := 0 } }).flag R.GRD_STAT_CEASE true).inc R.GRD_CNT_CEASES

section
variable {s : State} {i : Nat}

theorem actPoint_trip_again (hact : ptACT (pointWord s i) = 1) (htripped : s.on R.GRD_STAT_TRIPPED = true) :
    actPoint i s = tripShown i s := by
  simp only [actPoint, hact, htripped, tripShown, OfNat.one_ne_ofNat, if_false, if_true]

theorem actPoint_trip (hact : ptACT (pointWord s i) = 1) (htripped : s.on R.GRD_STAT_TRIPPED = false) :
    actPoint i s = occur kGTRIP gridScope ((if i < 16 then 1 else 2) * 16 + i % 16) (syncGridHold (tripTaken i s)) := by
  simp only [actPoint, hact, htripped, tripTaken, tripShown, OfNat.one_ne_ofNat, Bool.false_eq_true, if_false]

theorem actPoint_cease (hact : ptACT (pointWord s i) = 2) (hcease : s.on R.GRD_STAT_CEASE = false) :
    actPoint i s = syncGridHold (ceaseTaken i s) := by
  have hstays : ∀ g : GrdSt, ({ s with grd := g } : State).on R.GRD_STAT_CEASE = false := fun _ => hcease
  simp only [actPoint, hact, hstays, ceaseTaken, Bool.false_eq_true, if_false, if_true]

theorem grdRegs_tripShown {as : List Nat} (hstat : R.GRD_STAT ∈ as) (hcause : R.GRD_CAUSE ∈ as) (hentt : R.GRD_ENTT ∈ as) :
    GrdRegs as { s.grd with acting := i :: s.grd.acting, entT := 0 } s (tripShown i s) :=
  (((GrdRegs.refl as { s.grd with acting := i :: s.grd.acting } s).put _ _ hcause).put _ _ hcause).dropEntok hstat hentt

theorem grdRegs_tripTaken : GrdRegs [R.GRD_STAT, R.GRD_CAUSE, R.GRD_CNT, R.GRD_ENTT]
    { s.grd with acting := i :: s.grd.acting, entT := 0 } s (tripTaken i s) :=
  ((grdRegs_tripShown (by decide) (by decide) (by decide)).flag _ _ (by decide)).inc _ (by decide)

theorem grdRegs_ceaseTaken : GrdRegs [R.GRD_STAT, R.GRD_CNT]
    { s.grd with acting := i :: s.grd.acting, ceaseT := 0 } s (ceaseTaken i s) :=
  ((GrdRegs.refl _ _ s).flag _ _ (by decide)).inc _ (by decide)

/-- Bits of GRD_STAT apart from ENTOK, and other registers than those of the trip's record, stay. -/
theorem get_tripShown {f : Field} (hlo : f.lo + f.wd ≤ 32) (hentok : f.addr ≠ R.GRD_STAT ∨ f.lo + f.wd ≤ 23 ∨ 24 ≤ f.lo)
    (hcause : f.addr ≠ R.GRD_CAUSE) (hentt : f.addr ≠ R.GRD_ENTT) : (tripShown i s).get f = s.get f := by
  rw [tripShown, get_dropEntok _ hlo hentok hentt, get_put_ne _ _ _ _ hcause, get_put_ne _ _ _ _ hcause, get_withGrd]

theorem entok_tripShown : (tripShown i s).on R.GRD_STAT_ENTOK = false := by
  rw [State.on, tripShown, entok_dropEntok]
  rfl

theorem tcrv_tripShown : (tripShown i s).get R.GRD_CAUSE_TCRV = if i < 16 then 1 else 2 := by
  rw [tripShown, get_dropEntok _ (by decide) (by decide) (by decide), get_put_other _ _ _ _ (by decide) (by decide),
    get_put _ _ _ (by decide)]
  split <;> rfl

theorem tpoint_tripShown : (tripShown i s).get R.GRD_CAUSE_TPOINT = i % 16 := by
  rw [tripShown, get_dropEntok _ (by decide) (by decide) (by decide), get_put _ _ _ (by decide)]
  exact Nat.mod_eq_of_lt (Nat.mod_lt i (by decide))

/-- Apart from TRIPPED and the count, a trip is shown as its record is. -/
theorem get_tripTaken {f : Field} (hlo : f.lo + f.wd ≤ 32) (hstat : f.addr ≠ R.GRD_STAT ∨ f.lo + f.wd ≤ 31)
    (hcnt : f.addr ≠ R.GRD_CNT) : (tripTaken i s).get f = (tripShown i s).get f := by
  rw [tripTaken, State.inc, get_put_ne _ _ _ _ hcnt, get_flag_other _ _ _ _ hlo (hstat.imp_right .inl)]

theorem tripped_tripTaken : (tripTaken i s).on R.GRD_STAT_TRIPPED = true := by
  rw [tripTaken, State.inc, on_put_other _ _ _ _ (by decide) (by decide), on_flag _ _ _ (by decide) rfl]

theorem trips_tripTaken : (tripTaken i s).get R.GRD_CNT_TRIPS = (s.get R.GRD_CNT_TRIPS + 1) % 256 := by
  rw [tripTaken, get_inc _ _ (by decide), get_flag_other _ _ _ _ (by decide) (by decide),
    get_tripShown (by decide) (by decide) (by decide) (by decide)]
  rfl

theorem cease_ceaseTaken : (ceaseTaken i s).on R.GRD_STAT_CEASE = true := by
  rw [ceaseTaken, State.inc, on_put_other _ _ _ _ (by decide) (by decide), on_flag _ _ _ (by decide) rfl]

theorem ceases_ceaseTaken : (ceaseTaken i s).get R.GRD_CNT_CEASES = (s.get R.GRD_CNT_CEASES + 1) % 256 := by
  rw [ceaseTaken, get_inc _ _ (by decide), get_flag_other _ _ _ _ (by decide) (by decide), get_withGrd]
  rfl

end

/-! ### CURVE_POINT_ACT -/

/-- The number of point `p` among all points: those of the frequency curve follow the 16 of the voltage curve. -/
def curvePoint (freq : Bool) (p : Fin 16) : Nat := p.val + if freq then 16 else 0

section
variable {s : State} {freq : Bool} {p : Fin 16} {i : Nat}

theorem curveShown_curvePoint : (if curvePoint freq p < 16 then 1 else 2) = if freq then 2 else 1 := by
  have hp := p.isLt
  cases freq <;> simp only [curvePoint, Bool.false_eq_true, if_false, if_true]
  · rw [if_pos (by omega)]
  · rw [if_neg (by omega)]

theorem pointShown_curvePoint : curvePoint freq p % 16 = p := by
  have hp := p.isLt
  cases freq <;> simp only [curvePoint, Bool.false_eq_true, if_false, if_true] <;> omega

theorem pointDue_eq_true_iff : pointDue s i = true ↔ ptActive s (pointWord s i) = true
    ∧ 0 < tget (fun _ => 0) s.grd.timers i ∧ ptTIME (pointWord s i) ≤ tget (fun _ => 0) s.grd.timers i ∧ i ∉ s.grd.acting := by
  simp [pointDue, and_assoc]

theorem exec_curvePointAct_due (hruns : gridRuns s = true) (hdue : pointDue s (curvePoint freq p) = true) :
    exec (.curvePointAct freq p) s = .next (actPoint (curvePoint freq p) s) :=
  congrArg Host.Outcome.next (if_pos (Bool.and_eq_true_iff.2 ⟨hruns, hdue⟩))

theorem exec_curvePointAct_not_due (hdue : pointDue s (curvePoint freq p) = false) :
    exec (.curvePointAct freq p) s = .next s :=
  congrArg Host.Outcome.next (if_neg fun h => Bool.false_ne_true (hdue.symm.trans (Bool.and_eq_true_iff.1 h).2))

theorem pointDue_of_early
    (h : tget (fun _ => 0) s.grd.timers i < ptTIME (pointWord s i) ∨ tget (fun _ => 0) s.grd.timers i = 0) :
    pointDue s i = false :=
  Bool.eq_false_iff.2 fun hdue => by
    obtain ⟨-, hpos, htime, -⟩ := pointDue_eq_true_iff.1 hdue
    omega

theorem ptActive_trip {w : Word} (h : ptACT w = 1) : ptActive s w = gTRIP s := by rw [ptActive, if_pos h]

theorem ptActive_cease {w : Word} (h : ptACT w = 2) : ptActive s w = gCEASE s := by
  rw [ptActive, if_neg (by omega), if_pos h]

/-- A TRIP point of the curves acts, and is one fault of class GRD-TRIP; DETAIL = curve × 16 + point is log entry 49, the
model's reading. -/
theorem actPoint_curvePoint_trip (hact : ptACT (pointWord s (curvePoint freq p)) = 1)
    (htripped : s.on R.GRD_STAT_TRIPPED = false) :
    actPoint (curvePoint freq p) s = occur kGTRIP gridScope ((if freq then 2 else 1) * 16 + p.val)
      (syncGridHold (tripTaken (curvePoint freq p) s)) := by
  rw [actPoint_trip hact htripped, curveShown_curvePoint, pointShown_curvePoint]

end

end Sys2Proof.Machine
end

section
/-!
PROOFS of the ends of CEASE, of the injection and of the wait for ENTOK (R192, R195, R198), and of a word at GRD_STAT (R194).
-/
namespace Sys2Proof.Machine

/-! ### Ends -/

/-- The TRIP points that have come to their TIME act, one after the other (R194). -/
def tripRound (i : Nat) (a : State) : State :=
  if gridRuns a && ptACT (pointWord a i) == 1 && pointDue a i then actPoint i a else a

section
variable {s : State}

theorem exec_ceaseReturn (hcease : s.on R.GRD_STAT_CEASE = true) (hacts : ceaseActs s = false)
    (hdelay : s.get R.GRD_CRVCTL_RETDLY * steps1ms ≤ s.grd.ceaseT) :
    exec .ceaseReturn s = .next (syncGridHold ((forL (List.range 32) tripRound s).flag R.GRD_STAT_CEASE false)) :=
  congrArg Host.Outcome.next (if_pos (by rw [hcease, hacts, decide_eq_true hdelay]; rfl))

theorem exec_ceaseReturn_acting (hacts : ceaseActs s = true) : exec .ceaseReturn s = .next s :=
  congrArg Host.Outcome.next (if_neg (by simp [hacts]))

theorem tripRounds_of_none (h : ∀ i, i < 32 → ptACT (pointWord s i) = 1 → pointDue s i = false) :
    forL (List.range 32) tripRound s = s := by
  refine forL_eq_self fun i hi => if_neg fun hacts => ?_
  simp only [Bool.and_eq_true, beq_iff_eq] at hacts
  exact Bool.false_ne_true ((h i (List.mem_range.1 hi) hacts.1.2).symm.trans hacts.2)

theorem exec_injPostEnd (hinj : s.on R.GRD_STAT_INJ = true) (hpos : 0 < s.grd.injT)
    (hpost : s.get R.GRD_RT_POST * steps10ms ≤ s.grd.injT) :
    exec .injPostEnd s = .next (putOutp 15 0 (s.flag R.GRD_STAT_INJ false)) :=
  congrArg Host.Outcome.next (if_pos (by rw [hinj, decide_eq_true hpost, decide_eq_true hpos]; rfl))

theorem onlyRegs_injEnded : OnlyRegs [R.GRD_STAT, R.GRD_OUT 15] s (putOutp 15 0 (s.flag R.GRD_STAT_INJ false)) :=
  ((OnlyRegs.refl _ s).flag _ _ (by decide)).put _ _ (by decide)

theorem inj_injEnded : (putOutp 15 0 (s.flag R.GRD_STAT_INJ false)).on R.GRD_STAT_INJ = false := by
  rw [putOutp, on_put_other _ _ _ _ (by decide) (by decide), on_flag _ _ _ (by decide) rfl]

theorem out_injEnded : (putOutp 15 0 (s.flag R.GRD_STAT_INJ false)).get (R.GRD_OUT_OUT 15) = 0 := by
  rw [putOutp, get_put _ _ _ (by decide)]
  decide

theorem exec_entokSet (hruns : gridRuns s = true) (henter : gENTER s = true) (hholds : entryHolds s = true)
    (hdelay : s.get R.GRD_ENTD_DLY * stepsPerSecond ≤ s.grd.entT) :
    exec .entokSet s = .next (s.flag R.GRD_STAT_ENTOK true) :=
  congrArg Host.Outcome.next (if_pos (by rw [hruns, henter, hholds, decide_eq_true hdelay]; rfl))

end

/-! ### A word at GRD_STAT (R194) -/

section
variable {s : State} {d : Word} {w : PortWrite} {p : Nat}

theorem tb_toNat (d : Word) (k : Nat) : tb d.toNat k = d.getLsbD k := by rw [tb_eq_testBit, BitVec.testBit_toNat]

/-- A refused clear shows in CLRERR alone, so that the hold stays. -/
theorem syncGridHold_refused (h : s.on R.GRD_STAT_HOLD = holdWanted s) :
    syncGridHold (s.flag R.GRD_STAT_CLRERR true) = s.flag R.GRD_STAT_CLRERR true := by
  refine syncGridHold_of_shown ?_
  rw [holdWanted, on_flag_other _ _ _ _ (by decide) (by decide), on_flag_other _ _ _ _ (by decide) (by decide),
    on_flag_other _ _ _ _ (by decide) (by decide), on_flag_other _ _ _ _ (by decide) (by decide), h, holdWanted]

theorem writeGrdStat_tripped (h21 : d.getLsbD 21 = false) (h31 : d.getLsbD 31 = true) (h30 : d.getLsbD 30 = false)
    (htripped : s.on R.GRD_STAT_TRIPPED = true) : writeGrdStat d s =
      syncGridHold (if tripRuns s then s.flag R.GRD_STAT_CLRERR true else s.flag R.GRD_STAT_TRIPPED false) := by
  simp only [writeGrdStat, tb_toNat, h21, h31, h30, htripped, Bool.and_self, Bool.false_and, Bool.false_eq_true, if_false,
    if_true]

theorem writeGrdStat_isl (h21 : d.getLsbD 21 = false) (h31 : d.getLsbD 31 = false) (h30 : d.getLsbD 30 = true)
    (hisl : s.on R.GRD_STAT_ISL = true) : writeGrdStat d s =
      syncGridHold (if islPresent s then s.flag R.GRD_STAT_CLRERR true else s.flag R.GRD_STAT_ISL false) := by
  simp only [writeGrdStat, tb_toNat, h21, h31, h30, hisl, Bool.and_self, Bool.false_and, Bool.false_eq_true, if_false,
    if_true]

/-- The cause of a flag stands: CLRERR alone sets, and the hold stays. -/
theorem syncGridHold_cleared_refused {cause : Bool} (x : State) (hcause : cause = true)
    (hhold : s.on R.GRD_STAT_HOLD = holdWanted s) :
    syncGridHold (if cause then s.flag R.GRD_STAT_CLRERR true else x) = s.flag R.GRD_STAT_CLRERR true := by
  rw [if_pos hcause, syncGridHold_refused hhold]

theorem syncGridHold_cleared {cause : Bool} (x y : State) (hcause : cause = false) :
    syncGridHold (if cause then x else y) = syncGridHold y := by
  rw [hcause, if_neg Bool.false_ne_true]

theorem exec_grdStatClear_of_accepts (h : Accepts s w.port R.GRD_STAT) {t : State}
    (hword : writeGrdStat w.data (endRun w.port s) = t) {i : Instr} (hi : i ∈ [Instr.grdTrippedClear w, Instr.grdIslClear w]) :
    exec i s = .next t := by
  have hnext : Host.Outcome.next (guarded w.port R.GRD_STAT w.data (writeGrdStat w.data) s) =
      (.next t : Host.Outcome State Fault Refusal) :=
    congrArg _ ((guarded_accepts s w.port _ w.data _ h).trans hword)
  rcases List.mem_pair.1 hi with rfl | rfl
  · exact hnext
  · exact hnext

theorem portRegs_grdStat (p : Nat) (s : State) {f : Field} (hf : f.addr = R.GRD_STAT) (b : Bool) :
    PortRegs p [R.GRD_STAT] s ((endRun p s).flag f b) :=
  (PortRegs.refl p _ s).flag f b (hf ▸ List.mem_singleton_self _)

theorem clrerr_refused (s : State) : (s.flag R.GRD_STAT_CLRERR true).on R.GRD_STAT_CLRERR = true := on_flag _ _ _ (by decide) rfl

/-- Bits of GRD_STAT other than CLRERR stay. -/
theorem on_refused (s : State) {f : Field} (hlo : f.lo + f.wd ≤ 32) (hf : 22 ≤ f.lo) :
    (s.flag R.GRD_STAT_CLRERR true).on f = s.on f := on_flag_other _ _ _ _ hlo (.inr (.inr hf))

end

end Sys2Proof.Machine
end

section
/-!
PROOF of the statement about the acts of the grid unit: its updates, its curve points, the ends and the clears.
-/
namespace Sys2Proof.Machine

/-- Settles O38: an update is one step of the PLL with what it shows, a point that acts is one record, a clear one bit; the
hold follows each. That the DETAIL of GRD-TRIP is curve × 16 + point is log entry 49, the model's reading. -/
theorem gridActs : Obligations.GridActs := by
  refine ⟨fun s => ⟨syncGridHold_of_shown, syncGridHold_changes⟩,
    fun s hready hruns => ⟨fun hmode => ?outside, fun hmode => ?following⟩,
    fun freq p s => ⟨fun hearly => ?early, fun hruns hnew hpos htime =>
      ⟨fun hact hmode htripped => ?trip, fun hact hmode htripped => ?tripAgain, fun hact hmode hcease => ?cease⟩⟩,
    fun s => ⟨exec_ceaseReturn, fun hcease hacts hdelay hnone => ?returned, exec_ceaseReturn_acting,
      fun hinj hpos hpost => ?injected, fun hruns henter hholds hdelay => ?entok⟩,
    fun d s hacc h21 hhold i hi => ⟨fun h31 h30 htripped => ⟨fun hcause => ?trippedRefused, fun hcause => ?trippedCleared⟩,
      fun h31 h30 hisl => ⟨fun hcause => ?islRefused, fun hcause => ?islCleared⟩⟩⟩
  case outside =>
    exact (exec_gridUpdate hready hruns).trans (congrArg _ (gridStep_outside hmode))
  case following =>
    obtain ⟨u, hstep, hshown⟩ := gridStep_shows (s := { s with grd := { s.grd with ready := false } }) hmode
    exact ⟨u, (exec_gridUpdate hready hruns).trans (congrArg _ hstep), hshown.ready, hshown.time, hshown.coast, hshown.fclamp,
      hshown.coasting, hshown.following, hshown.th, hshown.touched.word, hshown.touched.rest⟩
  case early => exact exec_curvePointAct_not_due (pointDue_of_early hearly)
  case trip =>
    have hdue := pointDue_eq_true_iff.2 ⟨(ptActive_trip hact).trans hmode, hpos, htime, hnew⟩
    have hregs := grdRegs_tripTaken (s := s) (i := curvePoint freq p)
    refine ⟨_, (exec_curvePointAct_due hruns hdue).trans (congrArg _ (actPoint_curvePoint_trip hact htripped)), hregs.2,
      tripped_tripTaken, ?_, ?_, ?_, trips_tripTaken, hregs.1⟩
    · rw [State.on, get_tripTaken (by decide) (by decide) (by decide)]; exact entok_tripShown
    · rw [get_tripTaken (by decide) (by decide) (by decide), tcrv_tripShown, curveShown_curvePoint]
    · rw [get_tripTaken (by decide) (by decide) (by decide), tpoint_tripShown, pointShown_curvePoint]
  case tripAgain =>
    have hdue := pointDue_eq_true_iff.2 ⟨(ptActive_trip hact).trans hmode, hpos, htime, hnew⟩
    have hregs := grdRegs_tripShown (s := s) (i := curvePoint freq p) (as := [R.GRD_STAT, R.GRD_CAUSE, R.GRD_ENTT])
      (by decide) (by decide) (by decide)
    refine ⟨_, (exec_curvePointAct_due hruns hdue).trans (congrArg _ (actPoint_trip_again hact htripped)), hregs.2, ?_,
      entok_tripShown, tcrv_tripShown.trans curveShown_curvePoint, tpoint_tripShown.trans pointShown_curvePoint, hregs.1⟩
    rw [State.on, get_tripShown (by decide) (by decide) (by decide) (by decide)]
    exact htripped
  case cease =>
    have hdue := pointDue_eq_true_iff.2 ⟨(ptActive_cease hact).trans hmode, hpos, htime, hnew⟩
    have hregs := grdRegs_ceaseTaken (s := s) (i := curvePoint freq p)
    exact ⟨_, (exec_curvePointAct_due hruns hdue).trans (congrArg _ (actPoint_cease hact hcease)), hregs.2, cease_ceaseTaken,
      ceases_ceaseTaken, hregs.1⟩
  case returned =>
    refine ⟨s.flag R.GRD_STAT_CEASE false, (exec_ceaseReturn hcease hacts hdelay).trans ?_,
      (OnlyRegs.refl _ s).flag _ _ (List.mem_singleton_self _), on_flag _ _ _ (by decide) rfl⟩
    rw [tripRounds_of_none hnone]
  case injected => exact ⟨_, exec_injPostEnd hinj hpos hpost, onlyRegs_injEnded, inj_injEnded, out_injEnded⟩
  case entok =>
    exact ⟨_, exec_entokSet hruns henter hholds hdelay, (OnlyRegs.refl _ s).flag _ _ (List.mem_singleton_self _),
      on_flag _ _ _ (by decide) rfl⟩
  case trippedRefused =>
    exact ⟨_, exec_grdStatClear_of_accepts hacc ((writeGrdStat_tripped (s := endRun d.port s) h21 h31 h30 htripped).trans
      (syncGridHold_cleared_refused _ hcause hhold)) hi,
      portRegs_grdStat _ _ rfl _, clrerr_refused _, (on_refused _ (by decide) (by decide)).trans htripped⟩
  case trippedCleared =>
    exact ⟨_, exec_grdStatClear_of_accepts hacc ((writeGrdStat_tripped (s := endRun d.port s) h21 h31 h30 htripped).trans
      (syncGridHold_cleared _ _ hcause)) hi,
      portRegs_grdStat _ _ rfl _, on_flag_other _ _ _ _ (by decide) (by decide), on_flag _ _ _ (by decide) rfl⟩
  case islRefused =>
    exact ⟨_, exec_grdStatClear_of_accepts hacc ((writeGrdStat_isl (s := endRun d.port s) h21 h31 h30 hisl).trans
      (syncGridHold_cleared_refused _ hcause hhold)) hi,
      portRegs_grdStat _ _ rfl _, clrerr_refused _, (on_refused _ (by decide) (by decide)).trans hisl⟩
  case islCleared =>
    exact ⟨_, exec_grdStatClear_of_accepts hacc ((writeGrdStat_isl (s := endRun d.port s) h21 h31 h30 hisl).trans
      (syncGridHold_cleared _ _ hcause)) hi,
      portRegs_grdStat _ _ rfl _, on_flag_other _ _ _ _ (by decide) (by decide), on_flag _ _ _ (by decide) rfl⟩

end Sys2Proof.Machine
end

section
/-!
PROOFS of what the free converters of the acquisition unit do as they grant (R165): their counts, the refusals and what they
convert, and nothing of a round.
-/
namespace Sys2Proof.Machine

/-! ### Sequences and converters: read after write -/

section
variable {s t : State}

@[simp] theorem seqSt_setSeqSt (s : State) (q : Nat) (x : SeqSt) : seqSt (setSeqSt s q x) q = x := tget_tset_self ..

theorem seqSt_setSeqSt_ne (s : State) {q r : Nat} (x : SeqSt) (h : r ≠ q) : seqSt (setSeqSt s q x) r = seqSt s r :=
  tget_tset_ne _ _ _ h

@[simp] theorem regs_setSeqSt (s : State) (q : Nat) (x : SeqSt) : (setSeqSt s q x).regs = s.regs := rfl

@[simp] theorem conv_setConv (s : State) (v : Nat) (x : ConvSt) : conv (setConv s v x) v = x := tget_tset_self ..

theorem conv_setConv_ne (s : State) {v u : Nat} (x : ConvSt) (h : u ≠ v) : conv (setConv s v x) u = conv s u :=
  tget_tset_ne _ _ _ h

theorem seqSt_congr (h : t.acq = s.acq) (q : Nat) : seqSt t q = seqSt s q := by rw [seqSt, h, seqSt]

theorem conv_congr (h : t.acq = s.acq) (v : Nat) : conv t v = conv s v := by rw [conv, h, conv]

end

/-! ### Bit maps -/

section
variable {s t : State} {as : List Nat}

/-- A bit that is set in a bit map reads 1. -/
theorem tb_setBit (s : State) (f : Field) {k : Nat} (hk : k < f.wd) (hf : f.lo + f.wd ≤ 32) :
    tb ((setBit f k s).get f) k = true := by
  unfold setBit
  split
  · assumption
  · next hclear =>
    rw [get_put _ _ _ hf]
    simp only [tb_eq_testBit, Bool.not_eq_true] at hclear ⊢
    rw [Nat.testBit_mod_two_pow, Nat.add_comm, Nat.testBit_two_pow_add_eq, hclear, decide_eq_true hk]
    rfl

theorem RegsOutside.setBit (h : RegsOutside as s t) (f : Field) (k : Nat) (ha : f.addr ∈ as) :
    RegsOutside as s (setBit f k t) := by
  unfold Machine.setBit
  split
  · exact h
  · exact h.put _ _ ha

/-- A bit map apart, setting a bit touches nothing. -/
theorem setBit_keeps {β : Type} (g : State → β) (hregs : ∀ a l, g { a with regs := l } = g a) (f : Field) (k : Nat)
    (s : State) : g (setBit f k s) = g s := keeps_ite g rfl (hregs _ _)

end

/-! ### Nothing but registers and the acquisition unit -/

/-- The state with the fault manager's own state `F`. -/
def withFlt (F : FltSt) (s : State) : State := { s with flt := F }

theorem RegsOutside.of_withFlt {as : List Nat} {F : FltSt} {s t : State} (h : RegsOutside as (withFlt F s) t) :
    RegsOutside as s t := fun a ha => h a ha

/-- What reports nothing is the same in a cycle of its own (R247). -/
theorem oneCycle_of_unreported {f : State → State} {s : State} (hquiet : ∀ F, (f (withFlt F s)).flt = F) :
    ∃ F, oneCycle f s = withFlt s.flt (f (withFlt F s)) := oneCycle_of_quiet hquiet

/-- Nothing differs but registers and the acquisition unit's own state. -/
structure OnlyAcq (s t : State) : Prop where
  eq : t = { s with regs := t.regs, acq := t.acq }

namespace OnlyAcq
variable {s t u : State}

theorem refl (s : State) : OnlyAcq s s := ⟨rfl⟩

theorem trans (h : OnlyAcq s t) (k : OnlyAcq t u) : OnlyAcq s u :=
  ⟨k.eq.trans (congrArg (fun x : State => { x with regs := u.regs, acq := u.acq }) h.eq)⟩

theorem put (h : OnlyAcq s t) (f : Field) (v : Nat) : OnlyAcq s (t.put f v) := h.trans ⟨rfl⟩

theorem flag (h : OnlyAcq s t) (f : Field) (b : Bool) : OnlyAcq s (t.flag f b) := h.put f _

theorem inc (h : OnlyAcq s t) (f : Field) : OnlyAcq s (t.inc f) := h.put f _

theorem setBit (h : OnlyAcq s t) (f : Field) (k : Nat) : OnlyAcq s (setBit f k t) := by
  unfold Machine.setBit
  split
  · exact h
  · exact h.put f _

theorem setSeqSt (h : OnlyAcq s t) (q : Nat) (x : SeqSt) : OnlyAcq s (setSeqSt t q x) := h.trans ⟨rfl⟩

theorem setConv (h : OnlyAcq s t) (v : Nat) (x : ConvSt) : OnlyAcq s (setConv t v x) := h.trans ⟨rfl⟩

theorem flt (h : OnlyAcq s t) : t.flt = s.flt := by rw [h.eq]

/-- What stands in another fault manager stands in the old one. -/
theorem fltBack {F : FltSt} (h : OnlyAcq (withFlt F s) t) : OnlyAcq s (withFlt s.flt t) :=
  ⟨congrArg (withFlt s.flt) h.eq⟩

end OnlyAcq

/-! ### What a grant leaves (R165) -/

/-- The status registers of the four converters. -/
def convStats : List Nat := (List.range 4).map R.ACQ_CVSTAT

theorem notMem_convStats {a : Nat} (h : a < 0x070010 ∨ 0x070020 ≤ a) : a ∉ convStats := by
  simp only [convStats, List.mem_map, List.mem_range, R.ACQ_CVSTAT, not_exists, not_and]
  omega

theorem sqctl_above {q : Nat} : 0x070020 ≤ R.ACQ_SQCTL q := by rw [R.ACQ_SQCTL]; omega
theorem sqstat_above {q : Nat} : 0x070020 ≤ R.ACQ_SQSTAT q := by rw [R.ACQ_SQSTAT]; omega
theorem sqcnt_above {q : Nat} : 0x070020 ≤ R.ACQ_SQCNT q := by rw [R.ACQ_SQCNT]; omega
theorem ugctl_above {k : Nat} : 0x070020 ≤ R.ACQ_UGCTL k := by rw [R.ACQ_UGCTL]; omega
theorem ures_above {k : Nat} : 0x070020 ≤ R.ACQ_URES k := by rw [R.ACQ_URES]; omega
theorem ugcnt_above {k : Nat} : 0x070020 ≤ R.ACQ_UGCNT k := by rw [R.ACQ_UGCNT]; omega
theorem res_above {ix : Nat} : 0x070020 ≤ R.ACQ_RES ix := by rw [R.ACQ_RES]; omega

/-- Converters of `vs` may have granted: of the registers they touch the converters' counts, of a sequence its refusals, and
they take the slots alone that wait for one of them. -/
structure Grants (vs : List Nat) (s t : State) : Prop where
  regs   : RegsOutside convStats s t
  seq    : ∀ q, seqSt t q = { seqSt s q with refuse := (seqSt t q).refuse }
  convs  : ∀ u, u ∉ vs → conv t u = conv s u
  urgent : (∀ k ∈ s.acq.urgent, s.get (R.ACQ_UGCFG_CONV k) ∉ vs) → t.acq.urgent = s.acq.urgent

namespace Grants
variable {vs : List Nat} {s t : State}

theorem get (h : Grants vs s t) {f : Field} (hf : f.addr < 0x070010 ∨ 0x070020 ≤ f.addr) : t.get f = s.get f :=
  h.regs.get (notMem_convStats hf)

/-- A register above the converters' own keeps what it shows. -/
theorem get_above (h : Grants vs s t) {f : Field} {a : Nat} (hf : f.addr = a) (ha : 0x070020 ≤ a) : t.get f = s.get f :=
  h.get (.inr (hf ▸ ha))

theorem on_above (h : Grants vs s t) {f : Field} {a : Nat} (hf : f.addr = a) (ha : 0x070020 ≤ a) : t.on f = s.on f :=
  congrArg (· == 1) (h.get_above hf ha)

theorem regsOutside {as : List Nat} {z : State} (h : Grants vs s t) (k : RegsOutside as z s) :
    RegsOutside (as ++ convStats) z t :=
  (k.mono (List.subset_append_left ..)).trans (h.regs.mono (List.subset_append_right ..))

theorem conv_slot (h : Grants vs s t) (k : Nat) : t.get (R.ACQ_UGCFG_CONV k) = s.get (R.ACQ_UGCFG_CONV k) :=
  h.get (by simp only [R.ACQ_UGCFG_CONV, R.ACQ_UGCFG]; omega)

theorem left (h : Grants vs s t) (q : Nat) : (seqSt t q).left = (seqSt s q).left := by rw [h.seq q]

theorem prog (h : Grants vs s t) (q : Nat) : (seqSt t q).prog = (seqSt s q).prog := by rw [h.seq q]

theorem ovr (h : Grants vs s t) (q : Nat) : (seqSt t q).ovr = (seqSt s q).ovr := by rw [h.seq q]

/-- The fault manager takes no part in it. -/
theorem withFlt (h : Grants vs s t) (F : FltSt) : Grants vs s (withFlt F t) := ⟨h.regs, h.seq, h.convs, h.urgent⟩

theorem of_withFlt {F : FltSt} (h : Grants vs (Machine.withFlt F s) t) : Grants vs s t := ⟨h.regs, h.seq, h.convs, h.urgent⟩

end Grants

/-- Converters of `vs` may have granted, and nothing else has happened. -/
structure Granted (vs : List Nat) (s t : State) : Prop extends Grants vs s t where
  rest : OnlyAcq s t

namespace Granted
variable {vs ws : List Nat} {s t u : State}

theorem refl (vs : List Nat) (s : State) : Granted vs s s :=
  ⟨⟨.refl _ s, fun _ => rfl, fun _ _ => rfl, fun _ => rfl⟩, .refl s⟩

theorem trans (h : Granted vs s t) (k : Granted vs t u) : Granted vs s u where
  rest := h.rest.trans k.rest
  regs := h.regs.trans k.regs
  seq q := by rw [k.seq q, h.seq q]
  convs v hv := (k.convs v hv).trans (h.convs v hv)
  urgent hs := by
    have hsame := h.urgent hs
    refine (k.urgent fun n hn => ?_).trans hsame
    rw [h.conv_slot]
    exact hs n (hsame ▸ hn)

theorem mono (h : Granted vs s t) (hsub : vs ⊆ ws) : Granted ws s t :=
  ⟨⟨h.regs, h.seq, fun v hv => h.convs v fun hm => hv (hsub hm), fun hs => h.urgent fun k hk hm => hs k hk (hsub hm)⟩,
    h.rest⟩

/-- The refusals of a sequence change. -/
theorem refuse (vs : List Nat) (s : State) (q : Nat) (l : List (Nat × Nat)) :
    Granted vs s (setSeqSt s q { seqSt s q with refuse := l }) where
  rest := ⟨rfl⟩
  regs := .refl _ s
  seq r := by
    by_cases hr : r = q
    · rw [hr, seqSt_setSeqSt]
    · rw [seqSt_setSeqSt_ne s _ hr]
  convs _ _ := rfl
  urgent _ := rfl

/-- A converter of `vs` counts. -/
theorem count (s : State) {v : Nat} (hv : v < 4) (vs : List Nat) : Granted vs s (s.inc (R.ACQ_CVSTAT_GUARDCNT v)) where
  rest := (OnlyAcq.refl s).inc _
  regs := (RegsOutside.refl _ s).inc (R.ACQ_CVSTAT_GUARDCNT v) (List.mem_map_of_mem (List.mem_range.2 hv))
  seq q := by rw [seqSt_congr (inc_acq ..)]
  convs u _ := conv_congr (inc_acq ..) u
  urgent _ := by rw [inc_acq]

/-- A converter of `vs` begins a conversion. -/
theorem begun (s : State) {v : Nat} (hv : v ∈ vs) (x : ConvSt) : Granted vs s (setConv s v x) :=
  ⟨⟨.refl _ s, fun _ => rfl, fun _ hu => conv_setConv_ne s x fun h => hu (h ▸ hv), fun _ => rfl⟩, ⟨rfl⟩⟩

/-- A slot that waits for a converter of `vs` is taken. -/
theorem slot (s : State) {k : Nat} (hk : k ∈ s.acq.urgent) (hconv : s.get (R.ACQ_UGCFG_CONV k) ∈ vs) (l : List Nat) :
    Granted vs s { s with acq := { s.acq with urgent := l } } :=
  ⟨⟨.refl _ s, fun _ => rfl, fun _ _ => rfl, fun h => absurd hconv (h k hk)⟩, ⟨rfl⟩⟩

end Granted

/-! ### Converters grant -/

section
variable (s : State) {v : Nat}

/-- The slot that a free converter takes waits for it. -/
theorem of_find_slot {k : Nat}
    (h : (List.range 8).find? (fun k => s.acq.urgent.contains k && s.get (R.ACQ_UGCFG_CONV k) == v) = some k) :
    k ∈ s.acq.urgent ∧ s.get (R.ACQ_UGCFG_CONV k) = v := by
  simpa using List.find?_some h

/-- A converter that grants touches what it may. -/
theorem granted_grant (hv : v < 4) : Granted [v] s (grant v s) := by
  have hself : v ∈ [v] := List.mem_singleton_self v
  unfold grant
  extract_lets c
  split
  · exact .refl _ s
  split
  · next k hfind =>
    obtain ⟨hk, hconv⟩ := of_find_slot s hfind
    exact (Granted.begun s hself _).trans (.slot (setConv s v _) hk (hconv ▸ hself) _)
  split
  · exact .begun s hself _
  · next cand _ s0 _ _ _ _ _ =>
    have hrefused : Granted [v] s s0 := forL_invariant (.refl _ s) fun q _ a ha => by
      dsimp only
      split
      · exact ha
      · exact ha.trans (.refuse _ a q _)
    split
    · exact hrefused
    · next g _ =>
      extract_lets s1 s2
      have hgranted : Granted [v] s s1 := forL_invariant hrefused fun q _ a ha => ha.trans (.refuse _ a q _)
      have hcounted : Granted [v] s s2 := by
        unfold s2
        split
        · exact hgranted
        · exact hgranted.trans (.count _ hv _)
      exact hcounted.trans (.begun _ hself _)

theorem granted_grantAll : Granted [0, 1, 2, 3] s (grantAll s) :=
  forL_invariant (.refl _ s) fun v hv a ha =>
    have hlt : v < 4 := by simp only [List.mem_cons, List.not_mem_nil, or_false] at hv; omega
    ha.trans ((granted_grant a hlt).mono (List.cons_subset.2 ⟨hv, List.nil_subset _⟩))

/-- A free converter takes the one slot that waits. -/
theorem grant_of_slot {k : Nat} (hk : k < 8) (hwaits : s.acq.urgent = [k]) (hconv : s.get (R.ACQ_UGCFG_CONV k) = v)
    (hfree : (conv s v).job = none) :
    (conv (grant v s) v).job = some (.urgent k) ∧ (grant v s).acq.urgent = [] := by
  have hfind : (List.range 8).find? (fun i => s.acq.urgent.contains i && s.get (R.ACQ_UGCFG_CONV i) == v) = some k := by
    refine List.find?_eq_some_iff_getElem.2 ⟨by simp [hwaits, hconv], k, by simpa using hk, by simp, fun j hj => ?_⟩
    simp [hwaits, hj.ne]
  simp only [grant, hfree, hfind, Option.isSome_none, Bool.false_eq_true, if_false]
  exact ⟨congrArg ConvSt.job (conv_setConv s v ⟨some (.urgent k), (conv s v).resume⟩), by simp [setConv, hwaits]⟩

/-- Among the converters that grant, the one that a slot waits for takes it. -/
theorem grantAll_of_slot {k : Nat} (hk : k < 8) (hwaits : s.acq.urgent = [k]) (hconv : s.get (R.ACQ_UGCFG_CONV k) = v)
    (hv : v < 4) (hfree : (conv s v).job = none) :
    (conv (grantAll s) v).job = some (.urgent k) ∧ (grantAll s).acq.urgent = [] := by
  have hlt : ∀ {u}, u ∈ [0, 1, 2, 3] → u < 4 := by decide
  refine forL_round (P := fun a => a.acq.urgent = [k] ∧ a.get (R.ACQ_UGCFG_CONV k) = v ∧ (conv a v).job = none)
    (Q := fun a => (conv a v).job = some (.urgent k) ∧ a.acq.urgent = []) (by decide) (by simp; omega) ⟨hwaits, hconv, hfree⟩
    (fun u hu hne a ⟨hw, hc, hf⟩ => ?_) (fun a ⟨hw, hc, hf⟩ => grant_of_slot a hk hw hc hf) (fun u hu hne a ⟨hj, hw⟩ => ?_)
  · have hother := granted_grant a (hlt hu)
    have hstays : (grant u a).acq.urgent = a.acq.urgent := hother.urgent fun n hn => by
      rw [hw, List.mem_singleton] at hn
      rw [hn, hc, List.mem_singleton]
      exact hne.symm
    exact ⟨hstays.trans hw, (hother.conv_slot k).trans hc, by rw [hother.convs v (by simpa using hne.symm), hf]⟩
  · have hother := granted_grant a (hlt hu)
    exact ⟨by rw [hother.convs v (by simpa using hne.symm), hj],
      (hother.urgent fun n hn => absurd (hw ▸ hn) List.not_mem_nil).trans hw⟩

end

end Sys2Proof.Machine
end

section
/-!
PROOFS of the triggers, the enables and the urgent requests that the host gives (R160, R161, R163, R164).
-/
namespace Sys2Proof.Machine

/-! ### ACQ_SQCTL (R160, R163) -/

section
variable {s : State} {q : Fin 16} {p : Nat}

theorem exec_acqTrig_of_accepts (h : Accepts s p (R.ACQ_SQCTL q)) :
    exec (.acqTrig q p true) s = .next (writeSqctl q 3 (endRun p s)) :=
  congrArg Host.Outcome.next (guarded_accepts s p _ _ _ h)

theorem exec_acqEnWrite_of_accepts (h : Accepts s p (R.ACQ_SQCTL q)) (en : Bool) :
    exec (.acqEnWrite q p en) s = .next (writeSqctl q (if en then 1 else 0) (endRun p s)) :=
  congrArg Host.Outcome.next (guarded_accepts s p _ _ _ h)

end

section
variable {s : State} {q : Nat}

theorem writeSqctl_of_trig (h : s.on (R.ACQ_SQCTL_EN q) = true) :
    writeSqctl q 3 s = grantAll (oneCycle (fun a => (triggerAll [q] a).1) s) := by
  have hen : tb (3 : Word).toNat 0 = true := by decide
  have htrig : tb (3 : Word).toNat 1 = true := by decide
  rw [writeSqctl, hen, htrig, h]
  rfl

theorem writeSqctl_of_rise (h : s.on (R.ACQ_SQCTL_EN q) = false) : writeSqctl q 1 s = s.flag (R.ACQ_SQCTL_EN q) true := by
  have hen : tb (1 : Word).toNat 0 = true := by decide
  rw [writeSqctl, hen, h]
  rfl

/-- The sequence is off: its round is abandoned, none is pending. -/
def sequenceOff (q : Nat) (s : State) : State :=
  (oneCycle (abandon q) (s.flag (R.ACQ_SQCTL_EN q) false)).flag (R.ACQ_SQSTAT_PEND q) false

theorem writeSqctl_of_fall (h : s.on (R.ACQ_SQCTL_EN q) = true) :
    writeSqctl q 0 s = grantAll (setSeqSt (sequenceOff q s) q { seqSt (sequenceOff q s) q with refuse := [] }) := by
  have hen : tb (0 : Word).toNat 0 = false := by decide
  rw [writeSqctl, hen, h]
  rfl

end

/-! ### A round starts (R157, R160) -/

/-- No result of sequence `q` is new. -/
def resultsOld (q : Nat) (s : State) : State :=
  forL (List.range 32) (fun e a => a.flag (R.ACQ_RES_NEW (32 * q + e)) false) s

/-- ACQ_SQSTAT shows a round of `n` entries with its tag. -/
def roundShown (q tag n : Nat) (s : State) : State :=
  (((s.put (R.ACQ_SQSTAT_NTAG q) tag).flag (R.ACQ_SQSTAT_CMPL q) false).flag (R.ACQ_SQSTAT_RUN q) true).put
    (R.ACQ_SQSTAT_LEFT q) n

/-- The registers of a round of sequence `q` that starts. -/
def roundStarted (q : Nat) (s : State) : State :=
  roundShown q ((s.get (R.ACQ_SQSTAT_NTAG q) + 1) % 32) (s.get (R.ACQ_SQCFG_NENT q)) (resultsOld q s)

theorem startRound_eq (q : Nat) (s : State) : startRound q s = setSeqSt (roundStarted q s) q
    { seqSt (roundStarted q s) q with left := List.range (s.get (R.ACQ_SQCFG_NENT q)), prog := [] } := by
  unfold roundStarted roundShown resultsOld startRound
  rfl

section
variable {s t : State} {q tag n : Nat}

theorem onlyAcq_resultsOld : OnlyAcq s (resultsOld q s) := forL_invariant (.refl s) fun _ _ _ ha => ha.flag _ _

theorem acq_resultsOld : (resultsOld q s).acq = s.acq := by
  unfold resultsOld
  exact forL_keeps State.acq _ _ s fun _ _ => flag_acq ..

theorem acq_roundStarted : (roundStarted q s).acq = s.acq := by
  rw [roundStarted, roundShown, put_acq, flag_acq, flag_acq, put_acq, acq_resultsOld]

theorem onlyAcq_roundShown (h : OnlyAcq s t) : OnlyAcq s (roundShown q tag n t) := (((h.put _ _).flag _ _).flag _ _).put _ _

theorem onlyAcq_startRound (q : Nat) (s : State) : OnlyAcq s (startRound q s) := by
  rw [startRound_eq]
  exact (onlyAcq_roundShown onlyAcq_resultsOld).setSeqSt _ _

theorem new_resultsOld {e : Nat} (he : e < 32) : (resultsOld q s).on (R.ACQ_RES_NEW (32 * q + e)) = false :=
  forL_round (P := fun _ => True) (Q := fun a : State => a.on (R.ACQ_RES_NEW (32 * q + e)) = false) List.nodup_range
    (List.mem_range.2 he) trivial (fun _ _ _ _ _ => trivial)
    (fun _ _ => on_flag _ _ _ (by simp [R.ACQ_RES_NEW]) rfl) fun x _ hx a ha =>
    (on_flag_other _ _ _ _ (by simp [R.ACQ_RES_NEW]) (.inl (by simp only [R.ACQ_RES_NEW, R.ACQ_RES]; omega))).trans ha

/-- The fields of ACQ_SQSTAT as it shows a round that starts. -/
theorem sqstat_roundShown :
    (roundShown q tag n s).on (R.ACQ_SQSTAT_RUN q) = true ∧ (roundShown q tag n s).on (R.ACQ_SQSTAT_CMPL q) = false
      ∧ (roundShown q tag n s).get (R.ACQ_SQSTAT_NTAG q) = tag % 32
      ∧ (roundShown q tag n s).get (R.ACQ_SQSTAT_LEFT q) = n % 64 := by
  simp (disch := exact of_decide_eq_true rfl) only [roundShown, State.flag, State.on, get_put_apart, get_put]
  exact ⟨rfl, rfl, rfl, rfl⟩

theorem regsOutside_roundShown : RegsOutside [R.ACQ_SQSTAT q] s (roundShown q tag n s) :=
  have hself := List.mem_singleton_self (R.ACQ_SQSTAT q)
  ((((RegsOutside.refl [R.ACQ_SQSTAT q] s).put (R.ACQ_SQSTAT_NTAG q) _ hself).flag (R.ACQ_SQSTAT_CMPL q) _ hself).flag
    (R.ACQ_SQSTAT_RUN q) _ hself).put (R.ACQ_SQSTAT_LEFT q) _ hself

end

/-! ### Triggers (R160, R161) -/

/-- A trigger finds sequence `q` without a round: no overrun is counted in a row any more, and one starts. -/
def roundBegun (q : Nat) (s : State) : State := startRound q (setSeqSt s q { seqSt s q with ovr := 0 })

/-- A trigger finds a round of sequence `q`. -/
def overrunCounted (q : Nat) (s : State) : State :=
  setBit R.ACQ_OVRMAP_MAP q
    ((setSeqSt s q { seqSt s q with ovr := min ((seqSt s q).ovr + 1) 15 }).inc (R.ACQ_SQCNT_OVR q))

section
variable {s : State} {q : Nat}

/-- The trigger of one sequence that raises no ACQ-STALE. -/
theorem triggerAll_singleton (h : (trigger q s).stale = false) : (triggerAll [q] s).1 = (trigger q s).st := by
  simp only [triggerAll, List.foldl_cons, List.foldl_nil, h]
  rfl

theorem trigger_of_idle (hon : seqOn s q = true) (hidle : seqRuns s q = false) :
    trigger q s = ⟨roundBegun q s, some ((s.get (R.ACQ_SQSTAT_NTAG q) + 1) % 32), false⟩ := by
  rw [trigger, hon, hidle]
  rfl

theorem overrun_of_noLimit (h : s.get (R.ACQ_SQCFG_STALN q) = 0) : overrun q s = (overrunCounted q s, false) :=
  if_neg fun hlim => hlim.1 h

theorem trigger_of_running (hon : seqOn s q = true) (hruns : seqRuns s q = true) (hpolicy : s.get (R.ACQ_SQCFG_POLICY q) = 0)
    (hlim : s.get (R.ACQ_SQCFG_STALN q) = 0) : trigger q s = ⟨overrunCounted q s, none, false⟩ := by
  rw [trigger, hon, hruns, overrun_of_noLimit hlim, hpolicy]
  rfl

theorem onlyAcq_roundBegun : OnlyAcq s (roundBegun q s) := ((OnlyAcq.refl s).setSeqSt q _).trans (onlyAcq_startRound q _)

/-- The sequence's own state after a trigger that starts a round. -/
theorem seqSt_roundBegun : (seqSt (roundBegun q s) q).left = List.range (s.get (R.ACQ_SQCFG_NENT q))
    ∧ (seqSt (roundBegun q s) q).ovr = 0 := by
  let u := setSeqSt s q { seqSt s q with ovr := 0 }
  have hacq : (roundStarted q u).acq = u.acq := acq_roundStarted
  have hovr : (seqSt (roundStarted q u) q).ovr = 0 := by rw [seqSt_congr hacq, seqSt_setSeqSt]
  rw [roundBegun, startRound_eq, seqSt_setSeqSt]
  exact ⟨rfl, hovr⟩

theorem get_roundBegun (f : Field) :
    (roundBegun q s).get f = (roundStarted q (setSeqSt s q { seqSt s q with ovr := 0 })).get f := by
  rw [roundBegun, startRound_eq]
  exact get_congr (regs_setSeqSt ..) f

/-- The fields of ACQ_SQSTAT after a trigger that starts a round. -/
theorem sqstat_roundBegun : seqRuns (roundBegun q s) q = true ∧ (roundBegun q s).on (R.ACQ_SQSTAT_CMPL q) = false
    ∧ (roundBegun q s).get (R.ACQ_SQSTAT_NTAG q) = (s.get (R.ACQ_SQSTAT_NTAG q) + 1) % 32
    ∧ (roundBegun q s).get (R.ACQ_SQSTAT_LEFT q) = s.get (R.ACQ_SQCFG_NENT q) % 64 := by
  obtain ⟨hrun, hcmpl, htag, hleft⟩ := sqstat_roundShown (s := resultsOld q (setSeqSt s q { seqSt s q with ovr := 0 })) (q := q)
    (tag := (s.get (R.ACQ_SQSTAT_NTAG q) + 1) % 32) (n := s.get (R.ACQ_SQCFG_NENT q))
  exact ⟨(congrArg (· == 1) (get_roundBegun _)).trans hrun, (congrArg (· == 1) (get_roundBegun _)).trans hcmpl,
    (get_roundBegun _).trans (htag.trans (Nat.mod_mod _ _)), (get_roundBegun _).trans hleft⟩

theorem new_roundBegun (hq : q < 16) {e : Nat} (he : e < 32) : (roundBegun q s).on (R.ACQ_RES_NEW (32 * q + e)) = false :=
  have hother : R.ACQ_RES (32 * q + e) ∉ [R.ACQ_SQSTAT q] := by
    simp only [R.ACQ_RES, R.ACQ_SQSTAT, List.mem_singleton]; omega
  (congrArg (· == 1) (get_roundBegun _)).trans ((regsOutside_roundShown.on hother).trans (new_resultsOld he))

theorem onlyAcq_overrunCounted : OnlyAcq s (overrunCounted q s) := (((OnlyAcq.refl s).setSeqSt q _).inc _).setBit _ _

theorem regsOutside_overrunCounted : RegsOutside [R.ACQ_OVRMAP, R.ACQ_SQCNT q] s (overrunCounted q s) :=
  (((RegsOutside.refl _ s).of_regs (u := setSeqSt s q _) rfl).inc (R.ACQ_SQCNT_OVR q) (by simp [R.ACQ_SQCNT_OVR])).setBit
    R.ACQ_OVRMAP_MAP q (by simp [R.ACQ_OVRMAP_MAP])

theorem ovr_overrunCounted : (overrunCounted q s).get (R.ACQ_SQCNT_OVR q) = (s.get (R.ACQ_SQCNT_OVR q) + 1) % 256 :=
  have hother : R.ACQ_SQCNT q ∉ [R.ACQ_OVRMAP] := by simp only [R.ACQ_SQCNT, R.ACQ_OVRMAP, List.mem_singleton]; omega
  (((RegsOutside.refl [R.ACQ_OVRMAP] _).setBit R.ACQ_OVRMAP_MAP q (List.mem_singleton_self _)).get hother).trans
    (get_inc (setSeqSt s q _) (R.ACQ_SQCNT_OVR q) (by simp [R.ACQ_SQCNT_OVR]))

theorem map_overrunCounted (hq : q < 16) : tb ((overrunCounted q s).get R.ACQ_OVRMAP_MAP) q = true :=
  tb_setBit _ _ hq (by decide)

theorem left_overrunCounted : (seqSt (overrunCounted q s) q).left = (seqSt s q).left := by
  let u := setSeqSt s q { seqSt s q with ovr := min ((seqSt s q).ovr + 1) 15 }
  have hacq : (overrunCounted q s).acq = u.acq := by
    rw [overrunCounted, setBit_keeps State.acq fun _ _ => rfl, inc_acq]
  rw [seqSt_congr hacq, seqSt_setSeqSt]

end

/-! ### A trigger that reports nothing -/

section
variable {s : State} {q : Nat}

/-- A trigger that reports nothing is over as the converters grant. -/
theorem writeSqctl_of_trigger (hen : s.on (R.ACQ_SQCTL_EN q) = true) (hstale : ∀ F, (trigger q (withFlt F s)).stale = false)
    (honly : ∀ F, OnlyAcq (withFlt F s) (trigger q (withFlt F s)).st) :
    ∃ F, Grants [0, 1, 2, 3] (trigger q (withFlt F s)).st (writeSqctl q 3 s) ∧ OnlyAcq s (writeSqctl q 3 s) := by
  have hone := fun F => triggerAll_singleton (hstale F)
  obtain ⟨F, hcycle⟩ := oneCycle_of_unreported (f := fun a => (triggerAll [q] a).1) (s := s) fun F => by
    rw [hone]
    exact (honly F).flt
  rw [hone] at hcycle
  rw [writeSqctl_of_trig hen, hcycle]
  exact ⟨F, (granted_grantAll _).of_withFlt, (honly F).fltBack.trans (granted_grantAll _).rest⟩

end

/-! ### A sequence goes off (R162, R163) -/

section
variable {s : State} {q : Nat}

/-- The round that is abandoned has no sample yet: its conversions stop, and no entry is written. -/
structure Unsampled (q : Nat) (s a : State) : Prop where
  rest : OnlyAcq s a
  regs : a.regs = s.regs
  prog : (seqSt a q).prog = []

namespace Unsampled
variable {a : State}

theorem setConv (h : Unsampled q s a) (v : Nat) (x : ConvSt) : Unsampled q s (setConv a v x) :=
  ⟨h.rest.setConv v x, h.regs, h.prog⟩

theorem setConv_ite (h : Unsampled q s a) (b : Bool) (v : Nat) (x : ConvSt) :
    Unsampled q s (if b then Machine.setConv a v x else a) := by
  cases b
  · exact h
  · exact h.setConv v x

end Unsampled

/-- A round without a sample leaves nothing as it is abandoned. -/
theorem abandon_of_unsampled (h : seqRuns s q = false ∨ (seqSt s q).prog = []) :
    OnlyAcq s (abandon q s) ∧ RegsOutside [R.ACQ_SQSTAT q] s (abandon q s) ∧ seqRuns (abandon q s) q = false := by
  unfold abandon
  split
  · next hruns =>
    have hprog : (seqSt s q).prog = [] := h.resolve_left (by rw [hruns]; decide)
    extract_lets s1 s2
    have hstopped : Unsampled q s s1 := forL_invariant ⟨.refl s, rfl, hprog⟩ fun v _ a ha => by
      extract_lets c mine back b _ d
      have hd : Unsampled q s d := (ha.setConv_ite mine v _).setConv_ite back v _
      split
      · next e _ => rw [hd.prog]; exact hd
      · exact hd
    have hrun : s2.on (R.ACQ_SQSTAT_RUN q) = false :=
      (on_put_other _ _ _ _ (by simp [R.ACQ_SQSTAT_RUN]) (by simp [R.ACQ_SQSTAT_RUN, R.ACQ_SQSTAT_LEFT])).trans
        (on_flag _ _ _ (by simp [R.ACQ_SQSTAT_RUN]) rfl)
    have hself := List.mem_singleton_self (R.ACQ_SQSTAT q)
    have hregs : RegsOutside [R.ACQ_SQSTAT q] s s2 := (((RegsOutside.refl _ s).of_regs hstopped.regs).flag
      (R.ACQ_SQSTAT_RUN q) _ hself).put (R.ACQ_SQSTAT_LEFT q) _ hself
    exact ⟨((hstopped.rest.flag _ _).put _ _).setSeqSt _ _, hregs.of_regs (regs_setSeqSt ..),
      (on_congr (regs_setSeqSt ..) _).trans hrun⟩
  · next hidle => exact ⟨.refl s, .refl _ s, Bool.eq_false_iff.2 hidle⟩

/-- The flags of a sequence that goes off before a sample of its round. -/
theorem sequenceOff_of_unsampled (h : seqRuns s q = false ∨ (seqSt s q).prog = []) :
    (sequenceOff q s).on (R.ACQ_SQCTL_EN q) = false ∧ (sequenceOff q s).on (R.ACQ_SQSTAT_PEND q) = false
      ∧ seqRuns (sequenceOff q s) q = false := by
  let s1 := s.flag (R.ACQ_SQCTL_EN q) false
  have hen : s1.on (R.ACQ_SQCTL_EN q) = false := on_flag _ _ _ (by simp [R.ACQ_SQCTL_EN]) rfl
  have hsame : seqRuns s1 q = seqRuns s q := on_flag_other _ _ _ _ (by simp [R.ACQ_SQSTAT_RUN])
    (.inl (by simp only [R.ACQ_SQSTAT_RUN, R.ACQ_SQSTAT, R.ACQ_SQCTL_EN, R.ACQ_SQCTL]; omega))
  have hfresh : ∀ F, seqRuns (withFlt F s1) q = false ∨ (seqSt (withFlt F s1) q).prog = [] := fun _ =>
    h.imp_left fun hidle => hsame.trans hidle
  obtain ⟨F, hcycle⟩ := oneCycle_of_unreported (f := abandon q) (s := s1) fun F => (abandon_of_unsampled (hfresh F)).1.flt
  obtain ⟨-, hregs, hidle⟩ := abandon_of_unsampled (hfresh F)
  have hoff : sequenceOff q s = State.flag (withFlt s1.flt (abandon q (withFlt F s1))) (R.ACQ_SQSTAT_PEND q) false :=
    congrArg (fun x => State.flag x (R.ACQ_SQSTAT_PEND q) false) hcycle
  have hother : R.ACQ_SQCTL q ≠ R.ACQ_SQSTAT q := by simp only [R.ACQ_SQCTL, R.ACQ_SQSTAT]; omega
  rw [hoff]
  refine ⟨?_, on_flag _ _ _ (by simp [R.ACQ_SQSTAT_PEND]) rfl, ?_⟩
  · exact (on_flag_other _ _ _ _ (by simp [R.ACQ_SQCTL_EN]) (.inl hother)).trans
      ((hregs.on (by simpa [R.ACQ_SQCTL_EN] using hother)).trans hen)
  · exact (on_flag_other _ _ _ _ (by simp [R.ACQ_SQSTAT_RUN]) (by simp [R.ACQ_SQSTAT_RUN, R.ACQ_SQSTAT_PEND])).trans hidle

end

/-! ### GO on an urgent slot (R164) -/

section
variable {s : State} {k : Nat}

theorem exec_urgentGo_of_accepts {k : Fin 8} {p : Nat} (h : Accepts s p (R.ACQ_UGCTL k)) :
    exec (.urgentGo k p true) s = .next (grantAll (urgentRequest k ((endRun p s).flag (R.ACQ_UGCTL_EN k) true))) := by
  have hgo : writeUgctl k 3 (endRun p s) = grantAll (urgentRequest k ((endRun p s).flag (R.ACQ_UGCTL_EN k) true)) := by
    have hen : tb (3 : Word).toNat 0 = true := by decide
    have htrig : tb (3 : Word).toNat 1 = true := by decide
    rw [writeUgctl, hen, htrig]
    rfl
  exact congrArg Host.Outcome.next ((guarded_accepts s p _ _ _ h).trans hgo)

/-- Where ACQ_UGCTL takes a word, the unit's domain is on. -/
theorem domOn_of_accepts_ugctl {p : Nat} (hk : k < 8) (h : Accepts s p (R.ACQ_UGCTL k)) : domOn s 4 = true := by
  obtain ⟨-, -, hdom, -⟩ := h
  have hunit : R.ACQ_UGCTL k / 0x10000 = 7 := by rw [R.ACQ_UGCTL]; omega
  have hring : ¬(0x0A8000 ≤ R.ACQ_UGCTL k ∧ R.ACQ_UGCTL k < 0x0AA000) := by rw [R.ACQ_UGCTL]; omega
  rwa [domainOf, if_neg hring, hunit] at hdom

/-- A field of another register than ACQ_UGCTL as EN of the slot sets. -/
theorem get_enRaised {f : Field} (hf : f.addr ≠ R.ACQ_UGCTL k) : (s.flag (R.ACQ_UGCTL_EN k) true).get f = s.get f :=
  get_put_ne _ _ _ _ hf

theorem domOn_enRaised (hk : k < 8) (n : Nat) : domOn (s.flag (R.ACQ_UGCTL_EN k) true) n = domOn s n := by
  rw [domOn, get_enRaised (by simp only [R.PWR_DOM_ON, R.PWR_DOM, R.ACQ_UGCTL]; omega), domOn]

theorem on_enRaised : (s.flag (R.ACQ_UGCTL_EN k) true).on (R.ACQ_UGCTL_EN k) = true :=
  on_flag _ _ _ (by simp [R.ACQ_UGCTL_EN]) rfl

/-- A slot whose EN is 1 counts a request that comes as it converts. -/
theorem urgentRequest_of_busy (hdom : domOn s 4 = true) (hen : s.on (R.ACQ_UGCTL_EN k) = true) (hbusy : ugBusy s k = true) :
    urgentRequest k s = s.inc (R.ACQ_UGCNT_OVR k) := by
  rw [urgentRequest, hdom, hen, hbusy]
  rfl

/-- A slot whose converter is free waits for it. -/
theorem urgentRequest_of_free (hdom : domOn s 4 = true) (hen : s.on (R.ACQ_UGCTL_EN k) = true) (hbusy : ugBusy s k = false)
    (hfree : (conv s (s.get (R.ACQ_UGCFG_CONV k))).job = none) :
    urgentRequest k s = { s with acq := { s.acq with urgent := s.acq.urgent ++ [k] } } := by
  rw [urgentRequest, hdom, hen, hbusy]
  simp only [hfree]
  rfl

end

end Sys2Proof.Machine
end

section
/-!
PROOFS of the end of a conversion: its code (R156), the sample of an entry, the entry that is written (R158, R159), the round that
completes (R157), and an urgent slot's result (R164).
-/
namespace Sys2Proof.Machine

/-! ### The code of an input (R156) -/

theorem convCode_eq (x : Int) : convCode x = sat16 ((2 * (x * 32768) + 1200000000) / 2400000000) :=
  congrArg sat16 (Int.fdiv_eq_ediv_of_nonneg _ (by decide))

theorem convCode_nearest {x : Int} (hlo : -1200000000 ≤ x) (hhi : x ≤ 1199963378) :
    2 * (convCode x * 1200000000 - x * 32768).natAbs ≤ 1200000000 := by
  rw [convCode_eq, sat16, clampInt, if_neg (by omega), if_neg (by omega)]
  omega

theorem convCode_of_above {x : Int} (h : 1200000000 < x) : convCode x = 32767 := by
  rw [convCode_eq, sat16, clampInt, if_neg (by omega), if_pos (by omega)]

theorem convCode_of_below {x : Int} (h : x < -1200000000) : convCode x = -32768 := by
  rw [convCode_eq, sat16, clampInt]
  split <;> omega

/-! ### Results that the mode controller reads (R302, R304) -/

section
variable {β : Type} (g : State → β) (hregs : ∀ a l, g { a with regs := l } = g a)
include hregs

theorem checkPcdone_keeps (s : State) : g (checkPcdone s) = g s := keeps_ite g (hregs _ _) rfl

/-- A result that is noted shows in PWR_STAT and in the mode controller alone. -/
theorem noteResult_keeps (hpwr : ∀ a x, g { a with pwr := x } = g a) (ix : Nat) (v : Int) (s : State) :
    g (noteResult ix v s) = g s := by
  unfold noteResult
  extract_lets hit _ a s1
  have hsource : g s1 = g s := by
    refine keeps_ite g ?_ rfl
    exact (checkPcdone_keeps g hregs _).trans (keeps_ite g ((hregs _ _).trans (hpwr _ _)) (hpwr _ _))
  exact keeps_ite g ((hpwr _ _).trans hsource) hsource

end

theorem regsOutside_noteResult {ix : Nat} {v : Int} {s : State} : RegsOutside [R.PWR_STAT] s (noteResult ix v s) := by
  have hcheck : ∀ a, RegsOutside [R.PWR_STAT] s a → RegsOutside [R.PWR_STAT] s (checkPcdone a) := fun a ha => by
    unfold checkPcdone
    split
    · exact ha.flag _ _ (List.mem_singleton_self _)
    · exact ha
  unfold noteResult
  extract_lets hit _ a s1
  have hsource : RegsOutside [R.PWR_STAT] s s1 := by
    unfold s1
    split
    · have ha : RegsOutside [R.PWR_STAT] s a := .refl _ s
      apply hcheck
      split
      · exact ha.flag _ _ (List.mem_singleton_self _)
      · exact ha
    · exact .refl _ s
  split
  · exact hsource.of_regs rfl
  · exact hsource

/-! ### An entry is written (R158, R159) -/

/-- The result register at index `ix` shows value `v` of the round `tag`. -/
def resultShown (ix tag : Nat) (v : Int) (orng part : Bool) (s : State) : State :=
  ((((s.flag (R.ACQ_RES_NEW ix) true).flag (R.ACQ_RES_ORNG ix) orng).flag (R.ACQ_RES_PART ix) part).put
    (R.ACQ_RES_TAG ix) tag).sput (R.ACQ_RES_VALUE ix) v

/-- Sequence `q` counts an entry that was over range. -/
def orngCounted (q : Nat) (orng : Bool) (s : State) : State := if orng then s.inc (R.ACQ_SQCNT_ORNGCNT q) else s

/-- The samples so far of entry `e` of sequence `q`. -/
def samples (s : State) (q e : Nat) : Progress := tget (fun _ => Progress.zero) (seqSt s q).prog e

/-- A code lies within its width. -/
theorem code_lt (wd : Nat) (i : Int) : code wd i < 2 ^ wd := by
  have hpos : (0 : Int) < ((2 ^ wd : Nat) : Int) := Int.natCast_pos.2 (by positivity)
  rw [code, Int.toNat_lt (Int.emod_nonneg i hpos.ne')]
  exact Int.emod_lt_of_pos i hpos

theorem bit_beq_one (b : Bool) : (bit b % 2 == 1) = b := by cases b <;> rfl

section
variable {s : State}

/-- The fields of a result register. -/
theorem fields_resultShown {ix tag : Nat} {v : Int} {orng part : Bool} :
    let t := resultShown ix tag v orng part s
    t.get (R.ACQ_RES_VALUE ix) = code 24 v ∧ t.get (R.ACQ_RES_TAG ix) = tag % 32 ∧ t.on (R.ACQ_RES_NEW ix) = true
      ∧ t.on (R.ACQ_RES_PART ix) = part ∧ t.on (R.ACQ_RES_ORNG ix) = orng := by
  simp (disch := exact of_decide_eq_true rfl) only [resultShown, State.flag, State.sput, State.on, get_put_apart, get_put]
  exact ⟨Nat.mod_eq_of_lt (code_lt 24 v), rfl, rfl, bit_beq_one part, bit_beq_one orng⟩

theorem regsOutside_resultShown {ix tag : Nat} {v : Int} {orng part : Bool} :
    RegsOutside [R.ACQ_RES ix] s (resultShown ix tag v orng part s) :=
  have hself := List.mem_singleton_self (R.ACQ_RES ix)
  (((((RegsOutside.refl _ s).flag (R.ACQ_RES_NEW ix) _ hself).flag (R.ACQ_RES_ORNG ix) _ hself).flag (R.ACQ_RES_PART ix) _
    hself).put (R.ACQ_RES_TAG ix) _ hself).put (R.ACQ_RES_VALUE ix) _ hself

theorem acq_resultShown {ix tag : Nat} {v : Int} {orng part : Bool} : (resultShown ix tag v orng part s).acq = s.acq := by
  rw [resultShown, sput_acq, put_acq, flag_acq, flag_acq, flag_acq]

theorem flt_resultShown {ix tag : Nat} {v : Int} {orng part : Bool} : (resultShown ix tag v orng part s).flt = s.flt := by
  rw [resultShown, sput_flt, put_flt, flag_flt, flag_flt, flag_flt]

variable {q e : Nat}

theorem regsOutside_orngCounted (orng : Bool) : RegsOutside [R.ACQ_SQCNT q] s (orngCounted q orng s) := by
  cases orng
  · exact .refl _ s
  · exact (RegsOutside.refl _ s).inc _ (List.mem_singleton_self _)

theorem orngCounted_keeps {β : Type} (g : State → β) (hregs : ∀ a l, g { a with regs := l } = g a) (orng : Bool) :
    g (orngCounted q orng s) = g s := keeps_ite g (hregs _ _) rfl

theorem orngcnt_orngCounted (orng : Bool) : (orngCounted q orng s).get (R.ACQ_SQCNT_ORNGCNT q)
    = (s.get (R.ACQ_SQCNT_ORNGCNT q) + orng.toNat) % 2 ^ (R.ACQ_SQCNT_ORNGCNT q).wd := by
  cases orng
  · exact (Nat.mod_eq_of_lt (get_lt s (R.ACQ_SQCNT_ORNGCNT q))).symm
  · exact get_inc _ _ (by simp [R.ACQ_SQCNT_ORNGCNT])

/-- A write of an entry that neither raises ACQ-ORNG nor ends an episode of it. -/
theorem writeEntry_of_quiet {sum : Int} {orng part : Bool}
    (hfault : orng = true → s.on (R.ACQ_ENT_ORNGF (32 * q + e)) = false) (hep : e ∉ (seqSt s q).orngEp) :
    writeEntry q e sum orng part s = noteResult (32 * q + e) (entryValue sum (s.get (R.ACQ_ENT_SHIFT (32 * q + e))))
      (orngCounted q orng (resultShown (32 * q + e) (s.get (R.ACQ_SQSTAT_NTAG q))
        (entryValue sum (s.get (R.ACQ_ENT_SHIFT (32 * q + e)))) orng part s)) := by
  unfold writeEntry
  extract_lets ix v s1 s2 x ep s3
  have hs2 : s2 = orngCounted q orng (resultShown ix (s.get (R.ACQ_SQSTAT_NTAG q)) v orng part s) := by
    unfold orngCounted resultShown
    rfl
  have hacq : s2.acq = s.acq := by rw [hs2, orngCounted_keeps State.acq fun _ _ => rfl, acq_resultShown]
  have hnone : ep = false := by
    unfold ep x
    rw [seqSt_congr hacq]
    simpa using hep
  have hraises : (orng && s.on (R.ACQ_ENT_ORNGF ix)) = false := by
    cases orng
    · rfl
    · exact hfault rfl
  have hrest : s3 = s2 := by
    unfold s3
    rw [hraises, hnone, Bool.and_false]
    rfl
  rw [hrest, hs2]

end

/-! ### A conversion of a sequence (R157, R158) -/

/-- Converter `v` has ended its conversion. -/
def converterFreed (v : Nat) (s : State) : State := setConv s v { conv s v with job := none }

/-- The samples of entry `e` of sequence `q` are `p` after the conversion on converter `v`. -/
def sampleAdded (v q e : Nat) (p : Progress) (s : State) : State :=
  setSeqSt (converterFreed v s) q { seqSt s q with prog := tset (fun _ => Progress.zero) (seqSt s q).prog e p }

/-- Entry `e` of sequence `q` has its last sample, and is left no more. -/
def entryTaken (v q e : Nat) (s : State) : State :=
  setSeqSt (converterFreed v s) q { seqSt s q with
    left := (seqSt s q).left.filter (· != e), prog := tset (fun _ => Progress.zero) (seqSt s q).prog e Progress.zero }

/-- The result of entry `e` of sequence `q`, written with the sum of its samples. -/
def entryResult (v q e : Nat) (sum : Int) (orng : Bool) (s : State) : State :=
  resultShown (32 * q + e) (s.get (R.ACQ_SQSTAT_NTAG q)) (entryValue sum (s.get (R.ACQ_ENT_SHIFT (32 * q + e)))) orng false
    (entryTaken v q e s)

/-- The result of entry `e` of sequence `q`, and the sequence's count of results over range. -/
def entryShown (v q e : Nat) (sum : Int) (orng : Bool) (s : State) : State := orngCounted q orng (entryResult v q e sum orng s)

/-- Entry `e` of sequence `q` is written with the code of its last sample, and LEFT counts it no more. -/
def entryDone (v q e : Nat) (code : Int) (orng : Bool) (s : State) : State :=
  let p := samples s q e
  (noteResult (32 * q + e) (entryValue (p.sum + code) (s.get (R.ACQ_ENT_SHIFT (32 * q + e))))
    (entryShown v q e (p.sum + code) (p.orng || orng) s)).put (R.ACQ_SQSTAT_LEFT q) ((seqSt s q).left.filter (· != e)).length

section
variable {s : State} {v q e : Nat} {code : Int} {orng : Bool}

theorem endConversion_of_earlier (hjob : (conv s v).job = some (.seq q e)) (h : (samples s q e).cnt + 1 < entAvg s q e) :
    endConversion v code orng s =
      sampleAdded v q e ⟨(samples s q e).cnt + 1, (samples s q e).sum + code, (samples s q e).orng || orng⟩ s := by
  rw [endConversion]
  simp only [hjob]
  exact if_pos h

/-- The last sample of an entry that neither raises ACQ-ORNG nor ends an episode of it. -/
theorem endConversion_of_last (hjob : (conv s v).job = some (.seq q e)) (h : entAvg s q e ≤ (samples s q e).cnt + 1)
    (hfault : ((samples s q e).orng || orng) = true → s.on (R.ACQ_ENT_ORNGF (32 * q + e)) = false)
    (hep : e ∉ (seqSt s q).orngEp) :
    endConversion v code orng s =
      let u := entryDone v q e code orng s
      if (seqSt s q).left.filter (· != e) = [] then completeRound q u else u := by
  have hwritten := writeEntry_of_quiet (s := entryTaken v q e s) (sum := (samples s q e).sum + code) (part := false) hfault
    (by rw [entryTaken, seqSt_setSeqSt]; exact hep)
  unfold entryDone entryShown entryResult
  rw [endConversion]
  simp only [hjob]
  refine (if_neg h.not_gt).trans ?_
  exact congrArg (fun a : State =>
    let u := a.put (R.ACQ_SQSTAT_LEFT q) ((seqSt s q).left.filter (· != e)).length
    if (seqSt s q).left.filter (· != e) = [] then completeRound q u else u) hwritten

theorem onlyAcq_sampleAdded (p : Progress) : OnlyAcq s (sampleAdded v q e p s) :=
  ((OnlyAcq.refl s).setConv v _).setSeqSt q _

theorem left_sampleAdded (p : Progress) : (seqSt (sampleAdded v q e p s) q).left = (seqSt s q).left := by
  rw [sampleAdded, seqSt_setSeqSt]

theorem samples_withFlt (F : FltSt) : samples (withFlt F s) q e = samples s q e := rfl

theorem samples_sampleAdded (p : Progress) : samples (sampleAdded v q e p s) q e = p := by
  rw [samples, sampleAdded, seqSt_setSeqSt, tget_tset_self]

end

section
variable {s : State} {v q e : Nat} {sum cd : Int} {orng : Bool}

theorem flt_entryDone : (entryDone v q e cd orng s).flt = s.flt := by
  rw [entryDone, put_flt, noteResult_keeps State.flt (fun _ _ => rfl) fun _ _ => rfl, entryShown,
    orngCounted_keeps State.flt fun _ _ => rfl, entryResult, flt_resultShown]
  rfl

theorem left_entryDone : (seqSt (entryDone v q e cd orng s) q).left = (seqSt s q).left.filter (· != e) := by
  have hacq : (entryDone v q e cd orng s).acq = (entryTaken v q e s).acq := by
    rw [entryDone, put_acq, noteResult_keeps State.acq (fun _ _ => rfl) fun _ _ => rfl, entryShown,
      orngCounted_keeps State.acq fun _ _ => rfl, entryResult, acq_resultShown]
  rw [seqSt_congr hacq, entryTaken, seqSt_setSeqSt]

theorem regsOutside_entryResult : RegsOutside [R.ACQ_RES (32 * q + e)] s (entryResult v q e sum orng s) :=
  have htaken : RegsOutside [R.ACQ_RES (32 * q + e)] s (entryTaken v q e s) := (RegsOutside.refl _ s).of_regs rfl
  htaken.trans regsOutside_resultShown

theorem regsOutside_entryShown : RegsOutside [R.ACQ_RES (32 * q + e), R.ACQ_SQCNT q] s (entryShown v q e sum orng s) :=
  (regsOutside_entryResult.mono (by simp)).trans ((regsOutside_orngCounted orng).mono (by simp))

/-- The result register and the count before the mode controller and LEFT take note. -/
theorem fields_entryShown :
    let t := entryShown v q e sum orng s
    t.get (R.ACQ_RES_VALUE (32 * q + e)) = code 24 (entryValue sum (s.get (R.ACQ_ENT_SHIFT (32 * q + e))))
      ∧ t.get (R.ACQ_RES_TAG (32 * q + e)) = s.get (R.ACQ_SQSTAT_NTAG q)
      ∧ t.on (R.ACQ_RES_NEW (32 * q + e)) = true ∧ t.on (R.ACQ_RES_PART (32 * q + e)) = false
      ∧ t.on (R.ACQ_RES_ORNG (32 * q + e)) = orng
      ∧ t.get (R.ACQ_SQCNT_ORNGCNT q)
        = (s.get (R.ACQ_SQCNT_ORNGCNT q) + orng.toNat) % 2 ^ (R.ACQ_SQCNT_ORNGCNT q).wd := by
  intro t
  obtain ⟨hvalue, htag, hnew, hpart, horng⟩ := fields_resultShown (s := entryTaken v q e s) (ix := 32 * q + e)
    (tag := s.get (R.ACQ_SQSTAT_NTAG q)) (v := entryValue sum (s.get (R.ACQ_ENT_SHIFT (32 * q + e)))) (orng := orng)
    (part := false)
  have hres : R.ACQ_RES (32 * q + e) ∉ [R.ACQ_SQCNT q] := by
    simp only [R.ACQ_RES, R.ACQ_SQCNT, List.mem_singleton]; omega
  have hcnt : R.ACQ_SQCNT q ∉ [R.ACQ_RES (32 * q + e)] := by
    simp only [R.ACQ_RES, R.ACQ_SQCNT, List.mem_singleton]; omega
  have hcounted : RegsOutside [R.ACQ_SQCNT q] (entryResult v q e sum orng s) t := regsOutside_orngCounted orng
  refine ⟨(hcounted.get hres).trans hvalue, ((hcounted.get hres).trans htag).trans
    (Nat.mod_eq_of_lt (get_lt s (R.ACQ_SQSTAT_NTAG q))), (hcounted.on hres).trans hnew, (hcounted.on hres).trans hpart,
    (hcounted.on hres).trans horng, ?_⟩
  unfold t
  rw [entryShown, orngcnt_orngCounted, regsOutside_entryResult.get hcnt]

/-- PWR_STAT and LEFT apart, what an entry shows stands. -/
theorem regsOutside_entryShown_entryDone : RegsOutside [R.ACQ_SQSTAT q, R.PWR_STAT]
    (entryShown v q e ((samples s q e).sum + cd) ((samples s q e).orng || orng) s) (entryDone v q e cd orng s) :=
  (regsOutside_noteResult.mono (by simp)).put (R.ACQ_SQSTAT_LEFT q) _ (by simp [R.ACQ_SQSTAT_LEFT])

theorem regsOutside_entryDone :
    RegsOutside [R.ACQ_RES (32 * q + e), R.ACQ_SQSTAT q, R.ACQ_SQCNT q, R.PWR_STAT] s (entryDone v q e cd orng s) :=
  (regsOutside_entryShown.mono (by simp)).trans (regsOutside_entryShown_entryDone.mono (by simp))

/-- A field of ACQ_SQSTAT above LEFT stays as an entry is written. -/
theorem sqstat_entryDone (hq : q < 16) {f : Field} (haddr : f.addr = R.ACQ_SQSTAT q) (hlo : 6 ≤ f.lo)
    (hf : f.lo + f.wd ≤ 32) : (entryDone v q e cd orng s).get f = s.get f := by
  have hres : f.addr ∉ [R.ACQ_RES (32 * q + e), R.ACQ_SQCNT q] := by
    simp only [haddr, R.ACQ_SQSTAT, R.ACQ_RES, R.ACQ_SQCNT, List.mem_cons, List.not_mem_nil, or_false]; omega
  have hpwr : f.addr ∉ [R.PWR_STAT] := by simp only [haddr, R.ACQ_SQSTAT, R.PWR_STAT, List.mem_singleton]; omega
  rw [entryDone, get_put_apart _ _ f _ hf (.inr (show 0 + 6 ≤ f.lo from hlo)), regsOutside_noteResult.get hpwr,
    regsOutside_entryShown.get hres]

/-- The result register and the count of an entry that is written. -/
theorem fields_entryDone (hq : q < 16) (he : e < 32) :
    let t := entryDone v q e cd orng s
    let o := (samples s q e).orng || orng
    t.get (R.ACQ_RES_VALUE (32 * q + e)) =
        code 24 (entryValue ((samples s q e).sum + cd) (s.get (R.ACQ_ENT_SHIFT (32 * q + e))))
      ∧ t.get (R.ACQ_RES_TAG (32 * q + e)) = s.get (R.ACQ_SQSTAT_NTAG q)
      ∧ t.on (R.ACQ_RES_NEW (32 * q + e)) = true ∧ t.on (R.ACQ_RES_PART (32 * q + e)) = false
      ∧ t.on (R.ACQ_RES_ORNG (32 * q + e)) = o
      ∧ t.get (R.ACQ_SQCNT_ORNGCNT q) = (s.get (R.ACQ_SQCNT_ORNGCNT q) + o.toNat) % 2 ^ (R.ACQ_SQCNT_ORNGCNT q).wd := by
  intro t o
  obtain ⟨hvalue, htag, hnew, hpart, horng, hcount⟩ := fields_entryShown (s := s) (v := v) (e := e)
    (sum := (samples s q e).sum + cd) (orng := o)
  have hkept : RegsOutside [R.ACQ_SQSTAT q, R.PWR_STAT] (entryShown v q e ((samples s q e).sum + cd) o s) t :=
    regsOutside_entryShown_entryDone
  have hres : R.ACQ_RES (32 * q + e) ∉ [R.ACQ_SQSTAT q, R.PWR_STAT] := by
    simp only [R.ACQ_RES, R.ACQ_SQSTAT, R.PWR_STAT, List.mem_cons, List.not_mem_nil, or_false]; omega
  have hcnt : R.ACQ_SQCNT q ∉ [R.ACQ_SQSTAT q, R.PWR_STAT] := by
    simp only [R.ACQ_SQCNT, R.ACQ_SQSTAT, R.PWR_STAT, List.mem_cons, List.not_mem_nil, or_false]; omega
  exact ⟨(hkept.get hres).trans hvalue, (hkept.get hres).trans htag, (hkept.on hres).trans hnew, (hkept.on hres).trans hpart,
    (hkept.on hres).trans horng, (hkept.get hcnt).trans hcount⟩

end

/-! ### A round completes (R157, R160) -/

/-- The registers that show that the round of sequence `q` has completed. -/
def completionShown (q : Nat) (s : State) : State :=
  (setBit R.ACQ_IRQ_DONE q
    (((s.flag (R.ACQ_SQSTAT_CMPL q) true).put (R.ACQ_SQSTAT_CTAG q) (s.get (R.ACQ_SQSTAT_NTAG q))).flag
      (R.ACQ_SQSTAT_RUN q) false)).flag (R.ACQ_SQSTAT_STALE q) false

/-- The round of sequence `q` has completed, and those that wait for it know. -/
def roundCompleted (q : Nat) (s : State) : State :=
  gridRound q (s.get (R.ACQ_SQSTAT_NTAG q)) (roundDone q (s.get (R.ACQ_SQSTAT_NTAG q))
    (setSeqSt (completionShown q s) q { seqSt (completionShown q s) q with left := [], prog := [], ovr := 0 }))

section
variable {s : State} {q : Nat}

/-- A round that completes touches registers, the acquisition unit, the contexts and the grid unit. -/
theorem roundCompleted_keeps {β : Type} (g : State → β) (hctxs : ∀ a l, g { a with ctxs := l } = g a)
    (hgrd : ∀ a x, g { a with grd := x } = g a) (hacq : ∀ a x, g { a with acq := x } = g a) :
    g (roundCompleted q s) = g (completionShown q s) :=
  (keeps_ite g (hgrd _ _) rfl).trans ((hctxs _ _).trans (hacq _ _))

theorem regs_roundCompleted : (roundCompleted q s).regs = (completionShown q s).regs :=
  roundCompleted_keeps State.regs (fun _ _ => rfl) (fun _ _ => rfl) fun _ _ => rfl

theorem flt_roundCompleted : (roundCompleted q s).flt = s.flt := by
  rw [roundCompleted_keeps State.flt (fun _ _ => rfl) (fun _ _ => rfl) fun _ _ => rfl, completionShown, flag_flt,
    setBit_keeps State.flt fun _ _ => rfl, flag_flt, put_flt, flag_flt]

theorem regsOutside_completionShown : RegsOutside [R.ACQ_SQSTAT q, R.ACQ_IRQ] s (completionShown q s) :=
  have hself : R.ACQ_SQSTAT q ∈ [R.ACQ_SQSTAT q, R.ACQ_IRQ] := by simp
  (((((RegsOutside.refl _ s).flag (R.ACQ_SQSTAT_CMPL q) _ hself).put (R.ACQ_SQSTAT_CTAG q) _ hself).flag
    (R.ACQ_SQSTAT_RUN q) _ hself).setBit R.ACQ_IRQ_DONE q (by simp [R.ACQ_IRQ_DONE])).flag (R.ACQ_SQSTAT_STALE q) _ hself

/-- A field of ACQ_SQSTAT sees nothing of the bit map of rounds done. -/
theorem get_setBit_done (a : State) {f : Field} (hf : f.addr = R.ACQ_SQSTAT q) :
    (setBit R.ACQ_IRQ_DONE q a).get f = a.get f :=
  ((RegsOutside.refl [R.ACQ_IRQ] a).setBit R.ACQ_IRQ_DONE q (List.mem_singleton_self _)).get (by
    simp only [hf, R.ACQ_SQSTAT, R.ACQ_IRQ, List.mem_singleton]; omega)

/-- The fields of ACQ_SQSTAT as a round completes. -/
theorem sqstat_completionShown : (completionShown q s).on (R.ACQ_SQSTAT_CMPL q) = true
    ∧ (completionShown q s).get (R.ACQ_SQSTAT_CTAG q) = s.get (R.ACQ_SQSTAT_NTAG q)
    ∧ (completionShown q s).on (R.ACQ_SQSTAT_RUN q) = false ∧ (completionShown q s).on (R.ACQ_SQSTAT_STALE q) = false
    ∧ (completionShown q s).on (R.ACQ_SQSTAT_PEND q) = s.on (R.ACQ_SQSTAT_PEND q) := by
  have hdone := fun a (f : Field) (hf : f.addr = R.ACQ_SQSTAT q) => get_setBit_done a hf
  simp (disch := exact of_decide_eq_true rfl) only [completionShown, State.flag, State.on, get_put_apart, get_put]
  rw [hdone _ _ rfl, hdone _ _ rfl, hdone _ _ rfl, hdone _ _ rfl]
  simp (disch := exact of_decide_eq_true rfl) only [get_put_apart, get_put]
  exact ⟨rfl, Nat.mod_eq_of_lt (get_lt s (R.ACQ_SQSTAT_NTAG q)), rfl, rfl, trivial⟩

theorem done_completionShown (hq : q < 16) : tb ((completionShown q s).get R.ACQ_IRQ_DONE) q = true := by
  have hother : R.ACQ_IRQ ∉ [R.ACQ_SQSTAT q] := by simp only [R.ACQ_IRQ, R.ACQ_SQSTAT, List.mem_singleton]; omega
  have hstale : ∀ u : State, (u.flag (R.ACQ_SQSTAT_STALE q) false).get R.ACQ_IRQ_DONE = u.get R.ACQ_IRQ_DONE := fun u =>
    ((RegsOutside.refl _ u).flag (R.ACQ_SQSTAT_STALE q) false (List.mem_singleton_self _)).get hother
  rw [completionShown, hstale]
  exact tb_setBit _ _ hq (by decide)

/-- What starts once the round of sequence `q` has completed: the round that is pending, and those of the sequences chained to
it. -/
def roundFollowed (q : Nat) (s : State) : State :=
  let t := if s.on (R.ACQ_SQSTAT_PEND q) then startRound q (s.flag (R.ACQ_SQSTAT_PEND q) false) else s
  (triggerAll ((List.range 16).filter (fun c => t.get (R.ACQ_SQCFG_TSRC c) == 2 && t.get (R.ACQ_SQCFG_TNUM c) == q)) t).1

theorem completeRound_eq (q : Nat) (s : State) : completeRound q s = roundFollowed q (roundCompleted q s) := by
  unfold roundFollowed roundCompleted completionShown completeRound
  rfl

theorem triggerAll_nil (a : State) : (triggerAll [] a).1 = a := rfl

theorem roundFollowed_of_alone (hpend : s.on (R.ACQ_SQSTAT_PEND q) = false)
    (hchain : ∀ r, r < 16 → s.get (R.ACQ_SQCFG_TSRC r) = 2 → s.get (R.ACQ_SQCFG_TNUM r) ≠ q) : roundFollowed q s = s := by
  have hfree : (List.range 16).filter (fun c => s.get (R.ACQ_SQCFG_TSRC c) == 2 && s.get (R.ACQ_SQCFG_TNUM c) == q) = [] := by
    refine List.filter_eq_nil_iff.2 fun r hr hboth => ?_
    rw [Bool.and_eq_true, beq_iff_eq, beq_iff_eq] at hboth
    exact hchain r (List.mem_range.1 hr) hboth.1 hboth.2
  unfold roundFollowed
  extract_lets t
  have hsame : t = s := if_neg (ne_true_of_eq_false hpend)
  rw [hsame, hfree]
  exact triggerAll_nil s

/-- A round completes where none is pending and no sequence is chained to it. -/
theorem completeRound_of_alone (hpend : s.on (R.ACQ_SQSTAT_PEND q) = false)
    (hchain : ∀ r, r < 16 → s.get (R.ACQ_SQCFG_TSRC r) = 2 → s.get (R.ACQ_SQCFG_TNUM r) ≠ q) :
    completeRound q s = roundCompleted q s := by
  obtain ⟨-, -, -, -, hsame⟩ := sqstat_completionShown (s := s) (q := q)
  have hcfg : ∀ {r} {f : Field}, r < 16 → f.addr = R.ACQ_SQCFG r → (roundCompleted q s).get f = s.get f := fun {r f} hr hf =>
    (get_congr regs_roundCompleted f).trans (regsOutside_completionShown.get (by
      simp only [hf, R.ACQ_SQCFG, R.ACQ_SQSTAT, R.ACQ_IRQ, List.mem_cons, List.not_mem_nil, or_false]; omega))
  rw [completeRound_eq]
  refine roundFollowed_of_alone ((on_congr regs_roundCompleted _).trans (hsame.trans hpend)) fun r hr => ?_
  rw [hcfg hr rfl, hcfg hr rfl]
  exact hchain r hr

theorem regsOutside_roundCompleted : RegsOutside [R.ACQ_SQSTAT q, R.ACQ_IRQ] s (roundCompleted q s) :=
  regsOutside_completionShown.of_regs regs_roundCompleted

/-- What shows that a round has completed. -/
theorem shown_roundCompleted (hq : q < 16) : (roundCompleted q s).on (R.ACQ_SQSTAT_CMPL q) = true
    ∧ (roundCompleted q s).get (R.ACQ_SQSTAT_CTAG q) = s.get (R.ACQ_SQSTAT_NTAG q) ∧ seqRuns (roundCompleted q s) q = false
    ∧ tb ((roundCompleted q s).get R.ACQ_IRQ_DONE) q = true ∧ (roundCompleted q s).on (R.ACQ_SQSTAT_STALE q) = false := by
  obtain ⟨hcmpl, htag, hrun, hstale, -⟩ := sqstat_completionShown (s := s) (q := q)
  rw [seqRuns, on_congr regs_roundCompleted, get_congr regs_roundCompleted, on_congr regs_roundCompleted,
    get_congr regs_roundCompleted, on_congr regs_roundCompleted]
  exact ⟨hcmpl, htag, hrun, done_completionShown hq, hstale⟩

/-- The entry that completes the round is written, and the round completes alone where it would have before. -/
theorem completeRound_entryDone {v e : Nat} {cd : Int} {orng : Bool} (hq : q < 16)
    (hpend : s.on (R.ACQ_SQSTAT_PEND q) = false)
    (hchain : ∀ r, r < 16 → s.get (R.ACQ_SQCFG_TSRC r) = 2 → s.get (R.ACQ_SQCFG_TNUM r) ≠ q) :
    completeRound q (entryDone v q e cd orng s) = roundCompleted q (entryDone v q e cd orng s) := by
  have hcfg : ∀ {r} {f : Field}, r < 16 → f.addr = R.ACQ_SQCFG r → (entryDone v q e cd orng s).get f = s.get f :=
    fun {r f} hr hf => regsOutside_entryDone.get (by
      simp only [hf, R.ACQ_SQCFG, R.ACQ_SQSTAT, R.ACQ_SQCNT, R.ACQ_RES, R.PWR_STAT, List.mem_cons, List.not_mem_nil, or_false]
      omega)
  have hnone := sqstat_entryDone (v := v) (e := e) (cd := cd) (orng := orng) (s := s) hq (f := R.ACQ_SQSTAT_PEND q) rfl
    (by simp [R.ACQ_SQSTAT_PEND]) (by simp [R.ACQ_SQSTAT_PEND])
  refine completeRound_of_alone ((congrArg (· == 1) hnone).trans hpend) fun r hr => ?_
  rw [hcfg hr rfl, hcfg hr rfl]
  exact hchain r hr

end

/-! ### An urgent slot's result (R164) -/

/-- The registers of the result of slot `k`. -/
def urgentShown (k : Nat) (v : Int) (orng : Bool) (s : State) : State :=
  let s1 := s.inc (R.ACQ_UGCNT_CNT k)
  ((((s1.flag (R.ACQ_URES_NEW k) true).flag (R.ACQ_URES_ORNG k) orng).flag (R.ACQ_URES_PART k) false).put
    (R.ACQ_URES_TAG k) (s1.get (R.ACQ_UGCNT_CNT k))).sput (R.ACQ_URES_VALUE k) v

theorem writeUrgent_eq (k : Nat) (v : Int) (orng : Bool) (s : State) :
    writeUrgent k v orng s = setBit R.ACQ_IRQ_UGDONE k (urgentShown k v orng s) := by
  unfold writeUrgent urgentShown
  rfl

section
variable {s : State} {k : Nat} {v : Int} {orng : Bool}

theorem endConversion_of_urgent {u : Nat} (h : (conv s u).job = some (.urgent k)) :
    endConversion u v orng s = writeUrgent k v orng (converterFreed u s) := by
  rw [endConversion]
  simp only [h]
  rfl

theorem flt_writeUrgent : (writeUrgent k v orng s).flt = s.flt := by
  rw [writeUrgent_eq, setBit_keeps State.flt fun _ _ => rfl, urgentShown, sput_flt, put_flt, flag_flt, flag_flt, flag_flt,
    inc_flt]

theorem regsOutside_writeUrgent :
    RegsOutside [R.ACQ_UGCNT k, R.ACQ_URES k, R.ACQ_IRQ] s (writeUrgent k v orng s) := by
  have hres : R.ACQ_URES k ∈ [R.ACQ_UGCNT k, R.ACQ_URES k, R.ACQ_IRQ] := by simp
  rw [writeUrgent_eq]
  exact ((((((RegsOutside.refl _ s).inc (R.ACQ_UGCNT_CNT k) (by simp [R.ACQ_UGCNT_CNT])).flag (R.ACQ_URES_NEW k) _ hres).flag
    (R.ACQ_URES_ORNG k) _ hres).flag (R.ACQ_URES_PART k) _ hres).put (R.ACQ_URES_TAG k) _ hres).put (R.ACQ_URES_VALUE k) _ hres
    |>.setBit R.ACQ_IRQ_UGDONE k (by simp [R.ACQ_IRQ_UGDONE])

/-- ACQ_IRQ apart, a field of the slot sees nothing of the bit map of slots done. -/
theorem get_writeUrgent {f : Field} (hf : f.addr ≠ R.ACQ_IRQ) :
    (writeUrgent k v orng s).get f = (urgentShown k v orng s).get f := by
  rw [writeUrgent_eq]
  exact ((RegsOutside.refl [R.ACQ_IRQ] _).setBit R.ACQ_IRQ_UGDONE k (List.mem_singleton_self _)).get (by simpa using hf)

theorem cnt_urgentShown : (urgentShown k v orng s).get (R.ACQ_UGCNT_CNT k) = (s.get (R.ACQ_UGCNT_CNT k) + 1) % 256 := by
  have hself := List.mem_singleton_self (R.ACQ_URES k)
  have hcnt : R.ACQ_UGCNT k ∉ [R.ACQ_URES k] := by simp [R.ACQ_UGCNT, R.ACQ_URES]
  have hres : RegsOutside [R.ACQ_URES k] (s.inc (R.ACQ_UGCNT_CNT k)) (urgentShown k v orng s) :=
    (((((RegsOutside.refl _ _).flag (R.ACQ_URES_NEW k) _ hself).flag (R.ACQ_URES_ORNG k) _ hself).flag (R.ACQ_URES_PART k) _
      hself).put (R.ACQ_URES_TAG k) _ hself).put (R.ACQ_URES_VALUE k) _ hself
  exact (hres.get hcnt).trans (get_inc s (R.ACQ_UGCNT_CNT k) (by simp [R.ACQ_UGCNT_CNT]))

/-- The fields of a slot's result register. -/
theorem fields_urgentShown : (urgentShown k v orng s).get (R.ACQ_URES_VALUE k) = code 24 v
    ∧ (urgentShown k v orng s).get (R.ACQ_URES_TAG k) = (s.get (R.ACQ_UGCNT_CNT k) + 1) % 256 % 32
    ∧ (urgentShown k v orng s).on (R.ACQ_URES_NEW k) = true ∧ (urgentShown k v orng s).on (R.ACQ_URES_ORNG k) = orng := by
  have hcnt := get_inc s (R.ACQ_UGCNT_CNT k) (by simp [R.ACQ_UGCNT_CNT])
  simp (disch := exact of_decide_eq_true rfl) only [urgentShown, hcnt, State.flag, State.sput, State.on, get_put_apart, get_put]
  exact ⟨Nat.mod_eq_of_lt (code_lt 24 v), rfl, rfl, bit_beq_one orng⟩

/-- What a slot shows as it writes its result. -/
theorem shown_writeUrgent (hk : k < 8) :
    let t := writeUrgent k v orng s
    t.get (R.ACQ_UGCNT_CNT k) = (s.get (R.ACQ_UGCNT_CNT k) + 1) % 256 ∧ t.get (R.ACQ_URES_VALUE k) = code 24 v
      ∧ t.get (R.ACQ_URES_TAG k) = t.get (R.ACQ_UGCNT_CNT k) % 32 ∧ t.on (R.ACQ_URES_NEW k) = true
      ∧ t.on (R.ACQ_URES_ORNG k) = orng ∧ tb (t.get R.ACQ_IRQ_UGDONE) k = true := by
  intro t
  obtain ⟨hvalue, htag, hnew, horng⟩ := fields_urgentShown (s := s) (k := k) (v := v) (orng := orng)
  have hres : ∀ f : Field, f.addr = R.ACQ_URES k → t.get f = (urgentShown k v orng s).get f := fun f hf =>
    get_writeUrgent (by simp only [hf, R.ACQ_URES, R.ACQ_IRQ]; omega)
  have hcnt : t.get (R.ACQ_UGCNT_CNT k) = (s.get (R.ACQ_UGCNT_CNT k) + 1) % 256 :=
    (get_writeUrgent (by simp only [R.ACQ_UGCNT_CNT, R.ACQ_UGCNT, R.ACQ_IRQ]; omega)).trans cnt_urgentShown
  refine ⟨hcnt, (hres _ rfl).trans hvalue, ?_, (congrArg (· == 1) (hres _ rfl)).trans hnew,
    (congrArg (· == 1) (hres _ rfl)).trans horng, ?_⟩
  · rw [hcnt, hres _ rfl, htag]
  · unfold t
    rw [writeUrgent_eq]
    exact tb_setBit _ _ hk (by decide)

end

end Sys2Proof.Machine
end

section
/-!
PROOFS of CONVERSION_DONE and of what a sequence's rounds, the urgent slots and the conversions show (R156 to R166).
-/
namespace Sys2Proof.Machine

/-! ### CONVERSION_DONE (R165, R166, R247) -/

section
variable {s : State} {v : Fin 4}

theorem exec_conversionDone_of_free (h : (conv s v).job = none) (x peak : Int) (met : List ConvMeet) :
    exec (.conversionDone v x peak met) s = .next s :=
  congrArg Host.Outcome.next (if_neg (by rw [h]; exact Bool.false_ne_true))

theorem exec_conversionDone_of_job (h : (conv s v).job ≠ none) (x peak : Int) (met : List ConvMeet) :
    exec (.conversionDone v x peak met) s = .next (oneCycle (fun a => grantAll (forL met meetConversion
      (forL met meetEnd (endConversion v (convCode x) (overRange peak) a)))) s) :=
  congrArg Host.Outcome.next (if_pos (Option.isSome_iff_ne_none.2 h))

/-- A conversion that reports nothing as it ends: the converters grant after it. -/
theorem exec_conversionDone_of_quiet {x peak : Int} (hjob : (conv s v).job ≠ none)
    (hquiet : ∀ F, (endConversion v (convCode x) (overRange peak) (withFlt F s)).flt = F) :
    ∃ F t, exec (.conversionDone v x peak []) s = .next t
      ∧ Grants [0, 1, 2, 3] (endConversion v (convCode x) (overRange peak) (withFlt F s)) t
      ∧ (OnlyAcq (withFlt F s) (endConversion v (convCode x) (overRange peak) (withFlt F s)) → OnlyAcq s t) := by
  obtain ⟨F, hcycle⟩ := oneCycle_of_unreported (s := s)
    (f := fun a => grantAll (endConversion v (convCode x) (overRange peak) a)) fun F =>
      (granted_grantAll _).rest.flt.trans (hquiet F)
  have hgrant := granted_grantAll (endConversion v (convCode x) (overRange peak) (withFlt F s))
  exact ⟨F, _, (exec_conversionDone_of_job hjob x peak []).trans (congrArg _ hcycle), hgrant.withFlt _,
    fun honly => (honly.trans hgrant.rest).fltBack⟩

end

/-! ### A sample of an entry (R157, R158) -/

section
variable {s : State} {v : Fin 4} {q e : Nat} {x peak : Int} (hjob : (conv s v).job = some (.seq q e))
include hjob

theorem conversionDone_of_earlier (h : (samples s q e).cnt + 1 < entAvg s q e) :
    ∃ t, exec (.conversionDone v x peak []) s = .next t
      ∧ samples t q e = ⟨(samples s q e).cnt + 1, (samples s q e).sum + convCode x, (samples s q e).orng || overRange peak⟩
      ∧ (seqSt t q).left = (seqSt s q).left ∧ OnlyAcq s t ∧ RegsOutside convStats s t := by
  have hend := fun F => endConversion_of_earlier (s := withFlt F s) (code := convCode x) (orng := overRange peak) hjob h
  obtain ⟨F, t, hexec, hgrant, hrest⟩ := exec_conversionDone_of_quiet (x := x) (peak := peak)
    (by rw [hjob]; exact Option.some_ne_none _) fun F => by rw [hend]; exact (onlyAcq_sampleAdded _).flt
  rw [hend, samples_withFlt] at hgrant hrest
  have hsamples : ∀ u : State, Grants [0, 1, 2, 3] u t → samples t q e = samples u q e := fun u h => by
    rw [samples, h.prog q, samples]
  exact ⟨t, hexec, (hsamples _ hgrant).trans (samples_sampleAdded _), (hgrant.left q).trans (left_sampleAdded _),
    hrest (onlyAcq_sampleAdded _), fun a ha => hgrant.regs a ha⟩

variable (hlast : entAvg s q e ≤ (samples s q e).cnt + 1)
  (hfault : ((samples s q e).orng || overRange peak) = true → s.on (R.ACQ_ENT_ORNGF (32 * q + e)) = false)
  (hep : e ∉ (seqSt s q).orngEp)
include hlast hfault hep

theorem endConversion_withFlt (F : FltSt) : endConversion v (convCode x) (overRange peak) (withFlt F s) =
    let u := entryDone v q e (convCode x) (overRange peak) (withFlt F s)
    if (seqSt s q).left.filter (· != e) = [] then completeRound q u else u :=
  endConversion_of_last (s := withFlt F s) hjob hlast hfault hep

/-- The last sample of an entry that is not the last of its round. -/
theorem conversionDone_of_written (hleft : (seqSt s q).left.filter (· != e) ≠ []) :
    ∃ F t, exec (.conversionDone v x peak []) s = .next t ∧ Grants [0, 1, 2, 3]
      (entryDone v q e (convCode x) (overRange peak) (withFlt F s)) t := by
  have hend := fun F => (endConversion_withFlt (x := x) hjob hlast hfault hep F).trans (if_neg hleft)
  obtain ⟨F, t, hexec, hgrant, -⟩ := exec_conversionDone_of_quiet (x := x) (peak := peak)
    (by rw [hjob]; exact Option.some_ne_none _) fun F => by rw [hend]; exact flt_entryDone
  exact ⟨F, t, hexec, hend F ▸ hgrant⟩

/-- The last sample of a round. -/
theorem conversionDone_of_completed (hq : q < 16) (hleft : (seqSt s q).left.filter (· != e) = [])
    (hpend : s.on (R.ACQ_SQSTAT_PEND q) = false)
    (hchain : ∀ r, r < 16 → s.get (R.ACQ_SQCFG_TSRC r) = 2 → s.get (R.ACQ_SQCFG_TNUM r) ≠ q) :
    ∃ F t, exec (.conversionDone v x peak []) s = .next t ∧ Grants [0, 1, 2, 3]
      (roundCompleted q (entryDone v q e (convCode x) (overRange peak)
        (withFlt F s))) t := by
  have hend := fun F => (endConversion_withFlt (x := x) hjob hlast hfault hep F).trans ((if_pos hleft).trans
    (completeRound_entryDone (s := withFlt F s) hq hpend hchain))
  obtain ⟨F, t, hexec, hgrant, -⟩ := exec_conversionDone_of_quiet (x := x) (peak := peak)
    (by rw [hjob]; exact Option.some_ne_none _) fun F => by rw [hend]; exact flt_roundCompleted.trans flt_entryDone
  exact ⟨F, t, hexec, hend F ▸ hgrant⟩

end

/-! ### An urgent conversion (R164) -/

theorem conversionDone_of_urgent {s : State} {v : Fin 4} {k : Nat} {x peak : Int} (hjob : (conv s v).job = some (.urgent k)) :
    ∃ F t, exec (.conversionDone v x peak []) s = .next t ∧ Grants [0, 1, 2, 3]
      (writeUrgent k (convCode x) (overRange peak) (converterFreed v (withFlt F s))) t := by
  have hend := fun F => endConversion_of_urgent (s := withFlt F s) (v := convCode x) (orng := overRange peak) hjob
  obtain ⟨F, t, hexec, hgrant, -⟩ := exec_conversionDone_of_quiet (x := x) (peak := peak)
    (by rw [hjob]; exact Option.some_ne_none _) fun F => by rw [hend]; exact flt_writeUrgent
  exact ⟨F, t, hexec, hend F ▸ hgrant⟩

/-! ### What the host's writes show (R160, R161, R163, R164) -/

section
variable {s : State} {q : Fin 16} {p : Nat} (hacc : Accepts s p (R.ACQ_SQCTL q)) (hen : s.on (R.ACQ_SQCTL_EN q) = true)
include hacc hen

theorem acqTrig_of_idle (hon : seqOn s q = true) (hidle : seqRuns s q = false) :
    ∃ F t, exec (.acqTrig q p true) s = .next t ∧ Grants [0, 1, 2, 3] (roundBegun q (withFlt F (endRun p s))) t
      ∧ OnlyAcq (endRun p s) t := by
  have htrig := fun F => trigger_of_idle (s := withFlt F (endRun p s)) hon hidle
  obtain ⟨F, hgrant, honly⟩ := writeSqctl_of_trigger (s := endRun p s) hen (fun F => congrArg Triggered.stale (htrig F))
    fun F => by rw [htrig]; exact onlyAcq_roundBegun
  rw [htrig] at hgrant
  exact ⟨F, _, exec_acqTrig_of_accepts hacc, hgrant, honly⟩

theorem acqTrig_of_running (hon : seqOn s q = true) (hruns : seqRuns s q = true) (hpolicy : s.get (R.ACQ_SQCFG_POLICY q) = 0)
    (hlim : s.get (R.ACQ_SQCFG_STALN q) = 0) : ∃ F t, exec (.acqTrig q p true) s = .next t
      ∧ Grants [0, 1, 2, 3] (overrunCounted q (withFlt F (endRun p s))) t := by
  have htrig := fun F => trigger_of_running (s := withFlt F (endRun p s)) hon hruns hpolicy hlim
  obtain ⟨F, hgrant, -⟩ := writeSqctl_of_trigger (s := endRun p s) hen (fun F => congrArg Triggered.stale (htrig F))
    fun F => by rw [htrig]; exact onlyAcq_overrunCounted
  rw [htrig] at hgrant
  exact ⟨F, _, exec_acqTrig_of_accepts hacc, hgrant⟩

/-- A sequence that goes off before a sample of its round shows no round, and none pending. -/
theorem acqEnWrite_of_unsampled (h : seqRuns s q = false ∨ (seqSt s q).prog = []) :
    ∃ t, exec (.acqEnWrite q p false) s = .next t ∧ t.on (R.ACQ_SQCTL_EN q) = false
      ∧ t.on (R.ACQ_SQSTAT_PEND q) = false ∧ seqRuns t q = false := by
  obtain ⟨hoff, hpend, hidle⟩ := sequenceOff_of_unsampled (s := endRun p s) h
  have hgrant := granted_grantAll
    (setSeqSt (sequenceOff q (endRun p s)) q { seqSt (sequenceOff q (endRun p s)) q with refuse := [] })
  have hregs := on_congr (regs_setSeqSt (sequenceOff q (endRun p s)) q
    { seqSt (sequenceOff q (endRun p s)) q with refuse := [] })
  exact ⟨_, (exec_acqEnWrite_of_accepts hacc false).trans (congrArg _ (writeSqctl_of_fall hen)),
    (hgrant.on_above rfl sqctl_above).trans ((hregs _).trans hoff),
    (hgrant.on_above rfl sqstat_above).trans ((hregs _).trans hpend),
    (hgrant.on_above rfl sqstat_above).trans ((hregs _).trans hidle)⟩

end

section
variable {s : State} {k : Fin 8} {p : Nat} (hacc : Accepts s p (R.ACQ_UGCTL k))
include hacc

theorem urgentGo_of_busy (hbusy : ugBusy s k = true) :
    ∃ t, exec (.urgentGo k p true) s = .next t ∧ t.on (R.ACQ_UGCTL_EN k) = true
      ∧ t.get (R.ACQ_UGCNT_OVR k) = (s.get (R.ACQ_UGCNT_OVR k) + 1) % 256 := by
  let u := (endRun p s).flag (R.ACQ_UGCTL_EN k) true
  have hdom : domOn u 4 = true := (domOn_enRaised k.isLt 4).trans (domOn_of_accepts_ugctl k.isLt hacc)
  have hcounted : urgentRequest k u = u.inc (R.ACQ_UGCNT_OVR k) := urgentRequest_of_busy hdom on_enRaised hbusy
  have hgrant := granted_grantAll (urgentRequest k u)
  have hother : R.ACQ_UGCTL k ≠ R.ACQ_UGCNT k := by simp only [R.ACQ_UGCTL, R.ACQ_UGCNT]; omega
  refine ⟨_, exec_urgentGo_of_accepts hacc, (hgrant.on_above rfl ugctl_above).trans ?_,
    (hgrant.get_above rfl ugcnt_above).trans ?_⟩
  · rw [hcounted]
    exact (on_put_other _ _ _ _ (by simp [R.ACQ_UGCTL_EN]) (.inl hother)).trans on_enRaised
  · rw [hcounted, get_inc _ _ (by simp [R.ACQ_UGCNT_OVR]), get_enRaised hother.symm]
    rfl

theorem urgentGo_of_free (hidle : ugBusy s k = false) (hnone : s.acq.urgent = [])
    (hfree : (conv s (s.get (R.ACQ_UGCFG_CONV k))).job = none) (hconv : s.get (R.ACQ_UGCFG_CONV k) < 4) :
    ∃ t, exec (.urgentGo k p true) s = .next t ∧ t.on (R.ACQ_UGCTL_EN k) = true
      ∧ (conv t (s.get (R.ACQ_UGCFG_CONV k))).job = some (.urgent k) ∧ t.acq.urgent = [] := by
  let u := (endRun p s).flag (R.ACQ_UGCTL_EN k) true
  have hdom : domOn u 4 = true := (domOn_enRaised k.isLt 4).trans (domOn_of_accepts_ugctl k.isLt hacc)
  have hslot : u.get (R.ACQ_UGCFG_CONV k) = s.get (R.ACQ_UGCFG_CONV k) :=
    get_enRaised (by simp only [R.ACQ_UGCFG_CONV, R.ACQ_UGCFG, R.ACQ_UGCTL]; omega)
  have hwaits : urgentRequest k u = { u with acq := { u.acq with urgent := u.acq.urgent ++ [k.val] } } :=
    urgentRequest_of_free hdom on_enRaised hidle (by rw [hslot]; exact hfree)
  have hgrant := granted_grantAll (urgentRequest k u)
  obtain ⟨hjob, htaken⟩ := grantAll_of_slot (urgentRequest k u) (v := s.get (R.ACQ_UGCFG_CONV k)) k.isLt
    (by rw [hwaits]; exact congrArg (· ++ [k.val]) hnone) (by rw [hwaits]; exact hslot) hconv (by rw [hwaits]; exact hfree)
  refine ⟨_, exec_urgentGo_of_accepts hacc, (hgrant.on_above rfl ugctl_above).trans ?_, hjob, htaken⟩
  rw [hwaits]
  exact on_enRaised (s := endRun p s)

end

/-! ### The obligation -/

/-- Settles O35: each command is a write or an end of a conversion that reports nothing, and the free converters grant after it,
touching their own counts alone. -/
theorem acquisitionRounds : Obligations.AcquisitionRounds := by
  refine ⟨fun q p s hacc => ⟨fun hen hon hidle => ?begun, fun hen hon hruns hpolicy hlim => ?overrun, fun hoff => ?raised,
      fun hen hfresh => acqEnWrite_of_unsampled hacc hen hfresh⟩,
    fun k p s hacc => ⟨urgentGo_of_busy hacc, urgentGo_of_free hacc⟩,
    fun x => ⟨convCode_nearest, convCode_of_above, convCode_of_below⟩,
    fun v x peak s => ⟨fun hfree => exec_conversionDone_of_free hfree x peak,
      fun hjob met => exec_conversionDone_of_job hjob x peak met,
      fun _ _ _ => rfl, fun q e hq he hjob => ⟨fun hearlier => ?earlier, fun hlast hfault hleft hep => ?written,
      fun hlast hfault hleft hep hpend hchain => ?completed⟩, fun k hk hjob => ?urgent⟩⟩
  case begun =>
    obtain ⟨F, t, hexec, hgrant, honly⟩ := acqTrig_of_idle hacc hen hon hidle
    obtain ⟨hruns, hcmpl, htag, hleft⟩ := sqstat_roundBegun (s := withFlt F (endRun p s)) (q := q)
    obtain ⟨hentries, hovr⟩ := seqSt_roundBegun (s := withFlt F (endRun p s)) (q := q)
    exact ⟨t, hexec, (hgrant.on_above rfl sqstat_above).trans hruns, (hgrant.on_above rfl sqstat_above).trans hcmpl,
      (hgrant.get_above rfl sqstat_above).trans htag, (hgrant.get_above rfl sqstat_above).trans hleft,
      (hgrant.left q).trans hentries, (hgrant.ovr q).trans hovr,
      fun e he => (hgrant.on_above rfl res_above).trans (new_roundBegun q.isLt he),
      honly.eq⟩
  case overrun =>
    obtain ⟨F, t, hexec, hgrant⟩ := acqTrig_of_running hacc hen hon hruns hpolicy hlim
    have hstat : R.ACQ_SQSTAT q ∉ [R.ACQ_OVRMAP, R.ACQ_SQCNT q] := by
      simp only [R.ACQ_SQSTAT, R.ACQ_OVRMAP, R.ACQ_SQCNT, List.mem_cons, List.not_mem_nil, or_false]; omega
    exact ⟨t, hexec,
      (hgrant.regs _ (notMem_convStats (.inr sqstat_above))).trans (regsOutside_overrunCounted _ hstat),
      (hgrant.get_above rfl sqcnt_above).trans ovr_overrunCounted,
      (congrArg (tb · q) (hgrant.get (.inl (by decide)))).trans (map_overrunCounted q.isLt),
      (hgrant.left q).trans left_overrunCounted⟩
  case raised =>
    exact ⟨_, (exec_acqEnWrite_of_accepts hacc true).trans (congrArg _ (writeSqctl_of_rise hoff)),
      (PortRegs.refl p _ s).flag _ _ (List.mem_singleton_self _), on_flag _ _ _ (by simp [R.ACQ_SQCTL_EN]) rfl⟩
  case earlier =>
    obtain ⟨t, hexec, hsamples, hleft, honly, hregs⟩ := conversionDone_of_earlier (x := x) (peak := peak) hjob hearlier
    exact ⟨t, hexec, hsamples, hleft, honly.eq, hregs⟩
  case written =>
    obtain ⟨F, t, hexec, hgrant⟩ := conversionDone_of_written (x := x) hjob hlast hfault hep hleft
    obtain ⟨hvalue, htag, hnew, hpart, horng, hcnt⟩ := fields_entryDone (s := withFlt F s) (v := v) (cd := convCode x)
      (orng := overRange peak) hq he
    exact ⟨t, hexec, (hgrant.get_above rfl res_above).trans hvalue, (hgrant.get_above rfl res_above).trans htag,
      (hgrant.on_above rfl res_above).trans hnew, (hgrant.on_above rfl res_above).trans hpart,
      (hgrant.on_above rfl res_above).trans horng, (hgrant.get_above rfl sqcnt_above).trans hcnt,
      (hgrant.left q).trans left_entryDone, hgrant.regsOutside regsOutside_entryDone.of_withFlt⟩
  case completed =>
    obtain ⟨F, t, hexec, hgrant⟩ := conversionDone_of_completed (x := x) hjob hlast hfault hep hq hleft hpend hchain
    obtain ⟨-, -, hnew, -⟩ := fields_entryDone (s := withFlt F s) (v := v) (cd := convCode x)
      (orng := overRange peak) hq he
    obtain ⟨hcmpl, hctag, hidle, hdone, hstale⟩ := shown_roundCompleted (q := q)
      (s := entryDone v q e (convCode x) (overRange peak) (withFlt F s)) hq
    have htag := hctag.trans (sqstat_entryDone hq rfl (by simp [R.ACQ_SQSTAT_NTAG]) (by simp [R.ACQ_SQSTAT_NTAG]))
    have hres : R.ACQ_RES (32 * q + e) ∉ [R.ACQ_SQSTAT q, R.ACQ_IRQ] := by
      simp only [R.ACQ_RES, R.ACQ_SQSTAT, R.ACQ_IRQ, List.mem_cons, List.not_mem_nil, or_false]; omega
    exact ⟨t, hexec, (hgrant.on_above rfl sqstat_above).trans hcmpl, (hgrant.get_above rfl sqstat_above).trans htag,
      (hgrant.on_above rfl sqstat_above).trans hidle, (congrArg (tb · q) (hgrant.get (.inl (by decide)))).trans hdone,
      (hgrant.on_above rfl sqstat_above).trans hstale,
      (hgrant.on_above rfl res_above).trans ((regsOutside_roundCompleted.on hres).trans hnew)⟩
  case urgent =>
    obtain ⟨F, t, hexec, hgrant⟩ := conversionDone_of_urgent (x := x) (peak := peak) hjob
    obtain ⟨hcnt, hvalue, htag, hnew, horng, hdone⟩ := shown_writeUrgent (s := converterFreed v (withFlt F s))
      (v := convCode x) (orng := overRange peak) hk
    exact ⟨t, hexec, (hgrant.get_above rfl ugcnt_above).trans hcnt, (hgrant.get_above rfl ures_above).trans hvalue,
      ((hgrant.get_above rfl ures_above).trans htag).trans
        (congrArg (· % 32) (hgrant.get_above (f := R.ACQ_UGCNT_CNT k) rfl ugcnt_above).symm),
      (hgrant.on_above rfl ures_above).trans hnew, (hgrant.on_above rfl ures_above).trans horng,
      (congrArg (tb · k) (hgrant.get (.inl (by decide)))).trans hdone, hgrant.regsOutside regsOutside_writeUrgent⟩

end Sys2Proof.Machine
end

section
/-!
PROOFS of what happens at a window short of a trip, of the trip itself, and of a clear of the latch that meets it (R171 to R180).
-/
namespace Sys2Proof.Machine

/-! ### The holds of a routed window (R179, R180) -/

section
variable (n : Nat) (s : State)

theorem regs_queueFrame (ty reg data : Nat) : (queueFrame n ty reg data s).regs = s.regs := keeps_ite State.regs rfl rfl

theorem regs_mustWait : (mustWait n s).regs = s.regs := (regs_syncCmd ..).trans (keeps_ite State.regs rfl rfl)

theorem regs_syncHold : (syncHold n s).regs = s.regs := by
  have hheld : ∀ b, (setLink s n { link s n with held := b }).regs = s.regs := fun _ => rfl
  refine keeps_ite State.regs ?hold (keeps_ite State.regs ?release (keeps_ite State.regs (hheld false) rfl))
  case hold => rw [regs_driveOff, regs_queueFrame, hheld]
  case release => exact (regs_mustWait ..).trans (keeps_ite State.regs (hheld false) ((regs_queueFrame ..).trans (hheld false)))

/-- Frames and symbols of the routed stitches stand in no register. -/
theorem regs_syncRouted : (syncRouted s).regs = s.regs :=
  forL_keeps State.regs _ _ _ fun n a => (regs_syncCmd n _).trans (regs_syncHold n a)

end

/-! ### What a window reads -/

section
variable {w a : Nat} {s t : State}

theorem winCnt_ne_winStat : R.WIN_CNT w ≠ R.WIN_STAT w := by simp only [R.WIN_CNT, R.WIN_STAT]; omega

/-- The first four registers of a window's block are settings, as is PWR_DOM: its status and counters come after them. -/
theorem notMem_winShown (h : a % 0x20 < 0x10) : a ∉ [R.WIN_STAT w, R.WIN_CNT w] := by
  simp only [R.WIN_STAT, R.WIN_CNT, List.mem_cons, List.not_mem_nil, or_false]; omega

theorem winCfg_notMem : R.WIN_CFG w ∉ [R.WIN_STAT w, R.WIN_CNT w] := notMem_winShown (by simp only [R.WIN_CFG]; omega)
theorem winThr_notMem : R.WIN_THR w ∉ [R.WIN_STAT w, R.WIN_CNT w] := notMem_winShown (by simp only [R.WIN_THR]; omega)
theorem winCtl_notMem : R.WIN_CTL w ∉ [R.WIN_STAT w, R.WIN_CNT w] := notMem_winShown (by simp only [R.WIN_CTL]; omega)

@[simp] theorem winSt_setWinSt (x : WinSt) : winSt (setWinSt s w x) w = x := tget_tset_self ..

theorem on_setWinSt (x : WinSt) (f : Field) : (setWinSt s w x).on f = s.on f := rfl

theorem regs_setWinSt (x : WinSt) : (setWinSt s w x).regs = s.regs := rfl

theorem get_setWinSt (x : WinSt) (f : Field) : (setWinSt s w x).get f = s.get f := rfl

theorem winSt_congr (h : t.wins = s.wins) (m : Nat) : winSt t m = winSt s m := congrArg (tget _ · m) h

theorem winSt_flag (f : Field) (b : Bool) (m : Nat) : winSt (s.flag f b) m = winSt s m := winSt_congr (flag_wins ..) m

theorem winSt_winShow (m : Nat) : winSt (winShow w s) m = winSt s m :=
  (winSt_flag ..).trans ((winSt_flag ..).trans (winSt_flag ..))

theorem winSt_setWinSt_ne {m : Nat} (x : WinSt) (h : m ≠ w) : winSt (setWinSt s w x) m = winSt s m := tget_tset_ne _ _ _ h

section
variable (h : RegsOutside [R.WIN_STAT w, R.WIN_CNT w] s t)
include h

theorem RegsOutside.winUses (high : Bool) : winUses t w high = winUses s w high := by
  rw [Machine.winUses, h.get winCfg_notMem, Machine.winUses]

theorem RegsOutside.winVolts (high : Bool) : winVolts t w high = winVolts s w high := by
  rw [Machine.winVolts, h.get (f := R.WIN_THR_HI w) winThr_notMem, h.get (f := R.WIN_THR_LO w) winThr_notMem, Machine.winVolts]

theorem RegsOutside.winOn : winOn t w = winOn s w := by
  rw [Machine.winOn, domOn, h.get (notMem_winShown (by decide)), h.on winCtl_notMem, h.get winCfg_notMem, Machine.winOn, domOn]

variable (hst : winSt t w = winSt s w)
include hst

theorem RegsOutside.winReports (high : Bool) : winReports t w high = winReports s w high := by
  simp only [Machine.winReports, hst, h.winOn, h.winUses, h.on (f := R.WIN_CFG_PUHI w) winCfg_notMem,
    h.on (f := R.WIN_CFG_PULO w) winCfg_notMem]

theorem RegsOutside.winCondition : winCondition t w = winCondition s w := by
  rw [Machine.winCondition, h.winReports hst, h.winReports hst, Machine.winCondition]

theorem RegsOutside.winArmed (high : Bool) : winArmed t w high = winArmed s w high := by
  simp only [Machine.winArmed, hst, h.winReports hst]

end

/-- A comparator that may trip, the window's use of it apart: settled and active, with no t_dset (R173, R174). -/
def WinSt.mayTrip (x : WinSt) : Bool → Bool
  | true => x.setHi && x.hi && !x.dsetHi
  | false => x.setLo && x.lo && !x.dsetLo

theorem winArmed_eq (s : State) (w : Nat) (high : Bool) :
    winArmed s w high = (winOn s w && winUses s w high && (winSt s w).mayTrip high) := by
  cases high with
  | true => cases hset : (winSt s w).setHi <;> simp [winArmed, winReports, WinSt.mayTrip, hset, Bool.and_assoc]
  | false => cases hset : (winSt s w).setLo <;> simp [winArmed, winReports, WinSt.mayTrip, hset, Bool.and_assoc]

theorem winReports_of_armed {high : Bool} (h : winArmed s w high = true) : winReports s w high = true :=
  (Bool.and_eq_true_iff.1 h).1

theorem winCondition_of_reports {high : Bool} (h : winReports s w high = true) : winCondition s w = true := by
  cases high <;> simp [winCondition, h]

end

/-! ### What happens at a window short of a trip -/

/-- Nothing differs but registers and the windows' own states. -/
structure OnlyWins (s t : State) : Prop where
  eq : t = { s with regs := t.regs, wins := t.wins }

namespace OnlyWins
variable {s t u : State}

theorem refl (s : State) : OnlyWins s s := ⟨rfl⟩

theorem trans (h : OnlyWins s t) (k : OnlyWins t u) : OnlyWins s u := ⟨by rw [k.eq, h.eq]⟩

theorem put (h : OnlyWins s t) (f : Field) (v : Nat) : OnlyWins s (t.put f v) := ⟨by rw [State.put, State.setWord, h.eq]⟩

theorem setWinSt (h : OnlyWins s t) (w : Nat) (x : WinSt) : OnlyWins s (setWinSt t w x) := ⟨by rw [Machine.setWinSt, h.eq]⟩

end OnlyWins

/-- Nothing differs but the window's own state, its status apart from LATCHED, and its counters apart from TRIPS. -/
structure ShortOfTrip (w : Nat) (s t : State) : Prop where
  only : OnlyWins s t
  regs : RegsOutside [R.WIN_STAT w, R.WIN_CNT w] s t
  latched : t.on (R.WIN_STAT_LATCHED w) = s.on (R.WIN_STAT_LATCHED w)
  trips : t.get (R.WIN_CNT_TRIPS w) = s.get (R.WIN_CNT_TRIPS w)

namespace ShortOfTrip
variable {w : Nat} {s t u : State}

theorem refl (w : Nat) (s : State) : ShortOfTrip w s s := ⟨.refl s, .refl _ s, rfl, rfl⟩

theorem trans (h : ShortOfTrip w s t) (k : ShortOfTrip w t u) : ShortOfTrip w s u where
  only := h.only.trans k.only
  regs := h.regs.trans k.regs
  latched := k.latched.trans h.latched
  trips := k.trips.trans h.trips

theorem setWinSt (h : ShortOfTrip w s t) (x : WinSt) : ShortOfTrip w s (setWinSt t w x) where
  only := h.only.setWinSt w x
  regs := h.regs
  latched := h.latched
  trips := h.trips

theorem statFlag (h : ShortOfTrip w s t) {i : Nat} (hi : 31 ≠ i) (b : Bool) :
    ShortOfTrip w s (t.flag ⟨R.WIN_STAT w, i, 1⟩ b) where
  only := h.only.put _ _
  regs := h.regs.flag _ _ (by simp)
  latched := (on_bit_other (i := i) (j := 31) (by decide) hi).trans h.latched
  trips := (get_put_ne _ _ _ _ winCnt_ne_winStat).trans h.trips

theorem countField (h : ShortOfTrip w s t) {i : Nat} (hi : i ≤ 8) : ShortOfTrip w s (t.inc ⟨R.WIN_CNT w, i, 8⟩) where
  only := h.only.put _ _
  regs := h.regs.inc _ (by simp)
  latched := (on_put_other _ _ _ _ (by simp [R.WIN_STAT_LATCHED]) (.inl winCnt_ne_winStat.symm)).trans h.latched
  trips := (get_put_apart _ _ _ _ (by simp [R.WIN_CNT_TRIPS]) (.inr (by simp only [R.WIN_CNT_TRIPS]; omega))).trans h.trips

theorem winShow (h : ShortOfTrip w s t) : ShortOfTrip w s (winShow w t) :=
  ((h.statFlag (i := 29) (by decide) _).statFlag (i := 28) (by decide) _).statFlag (i := 30) (by decide) _

theorem winHit (h : ShortOfTrip w s t) : ShortOfTrip w s (winHit w t) := by
  unfold Machine.winHit
  extract_lets x
  split
  · exact (h.setWinSt _).countField (i := 8) (by decide)
  · exact h

end ShortOfTrip

/-! ### A comparator's input (R172, R174) -/

section
variable {w : Nat} {s : State} {x : Int} {high : Bool}

/-- An input beyond V_HI, or below V_LO, makes its comparator active. -/
theorem winDecides_of_passed (h : if high then winVolts s w true < x else x < winVolts s w false) :
    winDecides s w high x = some true := by
  cases high <;> exact if_pos h

theorem winSettles_of_decides {b : Bool} (h : winDecides s w high x = some b) : winSettles s w high x = some b := by
  rw [winSettles, if_neg (by simp [h]), h]

/-- The window's own state with an input of `x` nV. -/
def inputTaken (w : Nat) (x : Int) (s : State) : WinSt :=
  let y := winSt s w
  let y1 := match winUses s w true, (if y.setHi then winDecides else winSettles) s w true x with
    | true, some b => { y with hi := b, setHi := true }
    | _, _ => y
  match winUses s w false, (if y.setLo then winDecides else winSettles) s w false x with
    | true, some b => { y1 with lo := b, setLo := true }
    | _, _ => y1

theorem winInput_of_on (hon : winOn s w = true) :
    winInput w x s = winHit w (winShow w (setWinSt s w (inputTaken w x s))) := if_pos hon

theorem mayTrip_inputTaken (huses : winUses s w high = true)
    (hdset : (if high then (winSt s w).dsetHi else (winSt s w).dsetLo) = false)
    (hdec : winDecides s w high x = some true) : (inputTaken w x s).mayTrip high = true := by
  have hnow : ∀ set : Bool, (if set then winDecides else winSettles) s w high x = some true := fun set => by
    cases set
    · exact winSettles_of_decides hdec
    · exact hdec
  cases high with
  | true =>
    simp only [inputTaken, huses, hnow]
    split <;> simpa [WinSt.mayTrip] using hdset
  | false =>
    simp only [inputTaken, huses, hnow]
    split <;> simpa [WinSt.mayTrip] using hdset

end

/-! ### The events at a window -/

section
variable {w : Nat} {s : State}

theorem shortOfTrip_winInput (w : Nat) (x : Int) (s : State) : ShortOfTrip w s (winInput w x s) := by
  by_cases hon : winOn s w = true
  · rw [winInput_of_on hon]
    exact ((ShortOfTrip.refl w s).setWinSt _).winShow.winHit
  · rw [winInput, if_neg hon]
    exact .refl w s

theorem shortOfTrip_winMeet (w : Nat) (m : WinMeet) (s : State) : ShortOfTrip w s (winMeet w m s) := by
  cases m with
  | input x => exact shortOfTrip_winInput w x s
  | blankEnd => exact (ShortOfTrip.refl w s).statFlag (i := 27) (by decide) _
  | dsetEnd high => exact (ShortOfTrip.refl w s).setWinSt _

theorem winHit_of_unblanked (h : s.on (R.WIN_STAT_BLANKED w) = false) : winHit w s = s := if_neg (by simp [h])

theorem blanked_winShow : (winShow w s).on (R.WIN_STAT_BLANKED w) = s.on (R.WIN_STAT_BLANKED w) :=
  (on_bit_other (i := 30) (j := 27) (by decide) (by decide)).trans <|
    (on_bit_other (i := 28) (j := 27) (by decide) (by decide)).trans
      (on_bit_other (i := 29) (j := 27) (by decide) (by decide))

/-- An input beyond a threshold in use leaves its comparator ready to trip, and edges unblanked as they were. -/
theorem winMeet_input {x : Int} {high : Bool} (hon : winOn s w = true) (hblank : s.on (R.WIN_STAT_BLANKED w) = false)
    (huses : winUses s w high = true) (hdset : (if high then (winSt s w).dsetHi else (winSt s w).dsetLo) = false)
    (hpast : if high then winVolts s w true < x else x < winVolts s w false) :
    winArmed (winMeet w (.input x) s) w high = true ∧ (winMeet w (.input x) s).on (R.WIN_STAT_BLANKED w) = false := by
  have hshown : (winShow w (setWinSt s w (inputTaken w x s))).on (R.WIN_STAT_BLANKED w) = false :=
    blanked_winShow.trans ((on_setWinSt ..).trans hblank)
  have hmeet : winMeet w (.input x) s = winShow w (setWinSt s w (inputTaken w x s)) :=
    (winInput_of_on hon).trans (winHit_of_unblanked hshown)
  have hst : winSt (winMeet w (.input x) s) w = inputTaken w x s := by
    rw [hmeet, winSt_winShow, winSt_setWinSt]
  have hregs := (shortOfTrip_winMeet w (.input x) s).regs
  refine ⟨?_, hmeet ▸ hshown⟩
  rw [winArmed_eq, hregs.winOn, hregs.winUses, hst, hon, huses]
  exact mayTrip_inputTaken huses hdset (winDecides_of_passed hpast)

/-- The end of a blanking leaves the comparators as they were. -/
theorem winMeet_blankEnd (high : Bool) : winArmed (winMeet w .blankEnd s) w high = winArmed s w high
    ∧ (winMeet w .blankEnd s).on (R.WIN_STAT_BLANKED w) = false :=
  ⟨(shortOfTrip_winMeet w .blankEnd s).regs.winArmed (winSt_flag ..) high, on_bit_self (i := 27) (by decide)⟩

/-- The end of t_dset leaves a comparator that is settled and active ready to trip. -/
theorem winMeet_dsetEnd {high : Bool} (hreports : winReports s w high = true)
    (hset : (if high then (winSt s w).setHi else (winSt s w).setLo) = true) :
    winArmed (winMeet w (.dsetEnd high) s) w high = true := by
  have hregs := (shortOfTrip_winMeet w (.dsetEnd high) s).regs
  rw [winArmed_eq, hregs.winOn, hregs.winUses]
  cases high with
  | true =>
    have hsettled : (winSt s w).setHi = true := hset
    simp only [winReports, hsettled, if_true, Bool.and_eq_true] at hreports
    simp [winMeet, endDset, WinSt.mayTrip, hsettled, hreports]
  | false =>
    have hsettled : (winSt s w).setLo = true := hset
    simp only [winReports, hsettled, if_true, Bool.false_eq_true, if_false, Bool.and_eq_true] at hreports
    simp [winMeet, endDset, WinSt.mayTrip, hsettled, hreports]

end

/-! ### The trip (R176) -/

section
variable {w : Nat} {s t : State} {high : Bool}

/-- LATCHED and TRIPS as a trip leaves them, and the holds of the routed stitches. -/
def windowTripped (w : Nat) (s : State) : State := syncRouted ((s.flag (R.WIN_STAT_LATCHED w) true).inc (R.WIN_CNT_TRIPS w))

theorem winTrip_of_armed (harmed : winArmed s w high = true) (hblank : s.on (R.WIN_STAT_BLANKED w) = false)
    (hopen : s.on (R.WIN_STAT_LATCHED w) = false) : winTrip w s = occur kTRIP (winScope w) 0 (windowTripped w s) :=
  if_pos (by cases high <;> simp [harmed, hblank, hopen])

theorem winTrip_of_latched (h : s.on (R.WIN_STAT_LATCHED w) = true) : winTrip w s = s := if_neg (by simp [h])

/-- TRIPS counts one more, and LATCHED stays. -/
theorem tripsCounted (s : State) : (s.inc (R.WIN_CNT_TRIPS w)).on (R.WIN_STAT_LATCHED w) = s.on (R.WIN_STAT_LATCHED w)
    ∧ (s.inc (R.WIN_CNT_TRIPS w)).get (R.WIN_CNT_TRIPS w) = (s.get (R.WIN_CNT_TRIPS w) + 1) % 2 ^ 16
    ∧ RegsOutside [R.WIN_STAT w, R.WIN_CNT w] s (s.inc (R.WIN_CNT_TRIPS w)) :=
  ⟨on_put_other _ _ _ _ (by simp [R.WIN_STAT_LATCHED]) (.inl winCnt_ne_winStat.symm), get_inc _ _ (by simp [R.WIN_CNT_TRIPS]),
    (RegsOutside.refl _ s).inc _ (by simp [R.WIN_CNT_TRIPS])⟩

theorem windowTripped_shows (s : State) : (windowTripped w s).on (R.WIN_STAT_LATCHED w) = true
    ∧ (windowTripped w s).get (R.WIN_CNT_TRIPS w) = (s.get (R.WIN_CNT_TRIPS w) + 1) % 2 ^ 16
    ∧ RegsOutside [R.WIN_STAT w, R.WIN_CNT w] s (windowTripped w s) := by
  obtain ⟨hlatched, htrips, hregs⟩ := tripsCounted (w := w) (s.flag (R.WIN_STAT_LATCHED w) true)
  have hsame := regs_syncRouted ((s.flag (R.WIN_STAT_LATCHED w) true).inc (R.WIN_CNT_TRIPS w))
  refine ⟨(on_congr hsame _).trans (hlatched.trans (on_bit_self (i := 31) (by decide))), (get_congr hsame _).trans (htrips.trans ?_),
    (((RegsOutside.refl _ s).flag _ _ (by simp [R.WIN_STAT_LATCHED])).trans hregs).of_regs hsame⟩
  rw [State.flag, get_put_ne _ _ _ _ winCnt_ne_winStat]

/-- An event that leaves a comparator ready to trip, edges unblanked and LATCHED 0, trips the window. -/
theorem trips_of_event {w : Fin 64} {i : Instr} (h : ShortOfTrip w s t) (hexec : exec i s = .next (winTrip w t))
    (harmed : winArmed t w high = true) (hblank : t.on (R.WIN_STAT_BLANKED w) = false)
    (hopen : s.on (R.WIN_STAT_LATCHED w) = false) :
    ∃ u, exec i s = .next (occur 0x0E (0x5000 + w) 0 u) ∧ u.on (R.WIN_STAT_LATCHED w) = true
      ∧ u.get (R.WIN_CNT_TRIPS w) = (s.get (R.WIN_CNT_TRIPS w) + 1) % 2 ^ 16
      ∧ RegsOutside [R.WIN_STAT w, R.WIN_CNT w] s u := by
  obtain ⟨hlatched, htrips, hregs⟩ := windowTripped_shows (w := w) t
  rw [h.trips] at htrips
  exact ⟨windowTripped w t, hexec.trans (congrArg _ (winTrip_of_armed harmed hblank (h.latched.trans hopen))), hlatched, htrips,
    h.regs.trans hregs⟩

/-- An event at a window whose LATCHED is 1 shows in the window's own status and BLKHIT alone. -/
theorem quiet_of_event {w : Fin 64} {i : Instr} (h : ShortOfTrip w s t) (hexec : exec i s = .next t)
    (hlatched : s.on (R.WIN_STAT_LATCHED w) = true) :
    ∃ t, exec i s = .next t ∧ t.on (R.WIN_STAT_LATCHED w) = true
      ∧ t.get (R.WIN_CNT_TRIPS w) = s.get (R.WIN_CNT_TRIPS w) ∧ RegsOutside [R.WIN_STAT w, R.WIN_CNT w] s t
      ∧ t = { s with regs := t.regs, wins := t.wins } :=
  ⟨t, hexec, h.latched.trans hlatched, h.trips, h.regs, h.only.eq⟩

end

/-! ### The commands of a window's events -/

section
variable {w : Fin 64} {s : State}

theorem exec_winComparatorChange_of_on (h : winOn s w = true) (x : Int) :
    exec (.winComparatorChange w x) s = .next (winTrip w (winMeet w (.input x) s)) := congrArg Host.Outcome.next (if_pos h)

theorem exec_winBlankEnd_of_blanked (h : s.on (R.WIN_STAT_BLANKED w) = true) :
    exec (.winBlankEnd w) s = .next (winTrip w (winMeet w .blankEnd s)) := congrArg Host.Outcome.next (if_pos h)

theorem exec_winDsetEnd (high : Bool) : exec (.winDsetEnd w high) s = .next (winTrip w (winMeet w (.dsetEnd high) s)) := rfl

end

section
variable {w : Fin 64} {s : State} (hlatched : s.on (R.WIN_STAT_LATCHED w) = true)
include hlatched

theorem winTrip_winMeet_of_latched (m : WinMeet) : winTrip w (winMeet w m s) = winMeet w m s :=
  winTrip_of_latched ((shortOfTrip_winMeet w m s).latched.trans hlatched)

theorem winComparatorChange_of_latched (x : Int) : ∃ t, ShortOfTrip w s t ∧ exec (.winComparatorChange w x) s = .next t := by
  by_cases hon : winOn s w = true
  · exact ⟨_, shortOfTrip_winMeet w (.input x) s,
      (exec_winComparatorChange_of_on hon x).trans (congrArg _ (winTrip_winMeet_of_latched hlatched _))⟩
  · exact ⟨s, .refl w s, congrArg Host.Outcome.next (if_neg hon)⟩

theorem winBlankEnd_of_latched : ∃ t, ShortOfTrip w s t ∧ exec (.winBlankEnd w) s = .next t := by
  by_cases hblank : s.on (R.WIN_STAT_BLANKED w) = true
  · exact ⟨_, shortOfTrip_winMeet w .blankEnd s,
      (exec_winBlankEnd_of_blanked hblank).trans (congrArg _ (winTrip_winMeet_of_latched hlatched _))⟩
  · exact ⟨s, .refl w s, congrArg Host.Outcome.next (if_neg hblank)⟩

end

/-! ### The obligation -/

/-- Settles O36: each event is one `winMeet`, which is short of a trip, and then the trip that `winTrip` takes or LATCHED keeps out. -/
theorem windowTrips : Obligations.WindowTrips := by
  refine fun w s => ⟨fun hopen hblank hon => ⟨fun high x huses hdset hpast => ?input, fun high hreports hset => ?dsetEnd⟩,
    fun hopen hblank harmed => ?blankEnd, fun hlatched => ⟨fun x => ?quietInput, fun high => ?quietDset, ?quietBlank⟩⟩
  case input =>
    obtain ⟨harmed, hstill⟩ := winMeet_input (x := x) hon hblank huses hdset hpast
    exact trips_of_event (shortOfTrip_winMeet w _ s) (exec_winComparatorChange_of_on hon x) harmed hstill hopen
  case dsetEnd =>
    exact trips_of_event (shortOfTrip_winMeet w _ s) (exec_winDsetEnd high) (winMeet_dsetEnd hreports hset) hblank hopen
  case blankEnd =>
    obtain ⟨high, harmed⟩ : ∃ high, winArmed s w high = true := harmed.elim (⟨true, ·⟩) (⟨false, ·⟩)
    obtain ⟨hsame, hended⟩ := winMeet_blankEnd (w := w) (s := s) high
    exact trips_of_event (shortOfTrip_winMeet w _ s) (exec_winBlankEnd_of_blanked hblank) (hsame.trans harmed) hended hopen
  case quietInput =>
    obtain ⟨t, hshort, hexec⟩ := winComparatorChange_of_latched hlatched x
    exact quiet_of_event hshort hexec hlatched
  case quietDset =>
    exact quiet_of_event (shortOfTrip_winMeet w (.dsetEnd high) s)
      ((exec_winDsetEnd high).trans (congrArg _ (winTrip_winMeet_of_latched hlatched _))) hlatched
  case quietBlank =>
    obtain ⟨t, hshort, hexec⟩ := winBlankEnd_of_latched hlatched
    exact quiet_of_event hshort hexec hlatched

end Sys2Proof.Machine
end

section
/-!
PROOFS of what the host's writes of a window do: WIN_THR, WIN_STAT in the cycle of a trip, and WIN_CTL (R173, R174, R177, R178).
-/
namespace Sys2Proof.Machine

/-! ### WIN_THR (R173) -/

section
variable {w : Nat} {d : Word} {s : State}

/-- The thresholds of a word, each comparator whose code changes blanked. -/
def thresholdsTaken (w : Nat) (d : Word) (s : State) : State :=
  setWinSt ((s.put (R.WIN_THR_HI w) (bitsOf d 16 10)).put (R.WIN_THR_LO w) (bitsOf d 0 10)) w
    { winSt s w with
      dsetHi := (winSt s w).dsetHi || (bitsOf d 16 10 != s.get (R.WIN_THR_HI w))
      dsetLo := (winSt s w).dsetLo || (bitsOf d 0 10 != s.get (R.WIN_THR_LO w)) }

theorem writeWinThr_of_inverted (h : s.get (R.WIN_CFG_MODE w) = 3 ∧ bitsOf d 16 10 ≤ bitsOf d 0 10) :
    writeWinThr w d s = s.flag (R.WIN_STAT_WERR w) true := if_pos h

theorem writeWinThr_of_taken (h : s.get (R.WIN_CFG_MODE w) ≠ 3 ∨ bitsOf d 0 10 < bitsOf d 16 10) :
    writeWinThr w d s = thresholdsTaken w d s := if_neg (by omega)

theorem exec_winThrWrite_of_accepts {w : Fin 64} {d : PortWrite} (hacc : Accepts s d.port (R.WIN_THR w)) :
    exec (.winThrWrite w d) s = .next (writeWinThr w d.data (endRun d.port s)) :=
  congrArg Host.Outcome.next (guarded_accepts s d.port _ d.data _ hacc)

theorem regsOutside_thresholdsTaken : RegsOutside [R.WIN_THR w] s (thresholdsTaken w d s) :=
  (((RegsOutside.refl _ s).put (R.WIN_THR_HI w) (bitsOf d 16 10) (List.mem_singleton_self _)).put
    (R.WIN_THR_LO w) (bitsOf d 0 10) (List.mem_singleton_self _)).of_regs (regs_setWinSt ..)

theorem onlyWins_thresholdsTaken : OnlyWins s (thresholdsTaken w d s) := (((OnlyWins.refl s).put _ _).put _ _).setWinSt w _

theorem hi_thresholdsTaken : (thresholdsTaken w d s).get (R.WIN_THR_HI w) = bitsOf d 16 10 := by
  rw [thresholdsTaken, get_setWinSt, get_put_apart _ _ _ _ (by simp [R.WIN_THR_HI]) (.inr (by simp [R.WIN_THR_HI, R.WIN_THR_LO])),
    get_put _ _ _ (by simp [R.WIN_THR_HI])]
  exact Nat.mod_mod ..

theorem lo_thresholdsTaken : (thresholdsTaken w d s).get (R.WIN_THR_LO w) = bitsOf d 0 10 := by
  rw [thresholdsTaken, get_setWinSt, get_put _ _ _ (by simp [R.WIN_THR_LO])]
  exact Nat.mod_mod ..

theorem winSt_thresholdsTaken : winSt (thresholdsTaken w d s) w = { winSt s w with
    dsetHi := (winSt s w).dsetHi || decide (bitsOf d 16 10 ≠ s.get (R.WIN_THR_HI w))
    dsetLo := (winSt s w).dsetLo || decide (bitsOf d 0 10 ≠ s.get (R.WIN_THR_LO w)) } := by
  have hne : ∀ a b : Nat, (a != b) = decide (a ≠ b) := fun _ _ => Bool.eq_iff_iff.2 (bne_iff_ne.trans decide_eq_true_iff.symm)
  simp only [thresholdsTaken, winSt_setWinSt, hne]

theorem winSt_thresholdsTaken_ne {m : Nat} (h : m ≠ w) : winSt (thresholdsTaken w d s) m = winSt s m :=
  (winSt_setWinSt_ne _ h).trans ((winSt_congr (put_wins ..) m).trans (winSt_congr (put_wins ..) m))

end

/-! ### WIN_STAT (R177, R178) -/

section
variable {w : Nat} {d : Word} {s : State}

/-- A word at WIN_STAT clears CLRERR and WERR where it writes them 1. -/
def errorsCleared (w : Nat) (d : Word) (s : State) : State :=
  let s1 := if tb d.toNat 26 then s.flag (R.WIN_STAT_CLRERR w) false else s
  if tb d.toNat 25 then s1.flag (R.WIN_STAT_WERR w) false else s1

/-- What a clear of CLRERR and of WERR keeps, the word keeps. -/
theorem errorsCleared_keeps {P : State → Prop} (h : P s) (hclrerr : ∀ t, P t → P (t.flag (R.WIN_STAT_CLRERR w) false))
    (hwerr : ∀ t, P t → P (t.flag (R.WIN_STAT_WERR w) false)) : P (errorsCleared w d s) := by
  have hfirst : P (if tb d.toNat 26 then s.flag (R.WIN_STAT_CLRERR w) false else s) := by
    split
    · exact hclrerr s h
    · exact h
  simp only [errorsCleared]
  split
  · exact hwerr _ hfirst
  · exact hfirst

theorem shortOfTrip_errorsCleared : ShortOfTrip w s (errorsCleared w d s) :=
  errorsCleared_keeps (.refl w s) (fun _ h => h.statFlag (i := 26) (by decide) _) fun _ h => h.statFlag (i := 25) (by decide) _

theorem portRegs_errorsCleared (p : Nat) : PortRegs p [R.WIN_STAT w] s (errorsCleared w d (endRun p s)) :=
  errorsCleared_keeps (.refl p _ s) (fun _ h => h.flag _ _ (List.mem_singleton_self _)) fun _ h =>
    h.flag _ _ (List.mem_singleton_self _)

theorem winSt_errorsCleared (m : Nat) : winSt (errorsCleared w d s) m = winSt s m :=
  errorsCleared_keeps (P := fun t => winSt t m = winSt s m) rfl (fun _ h => (winSt_flag ..).trans h) fun _ h =>
    (winSt_flag ..).trans h

theorem blanked_errorsCleared : (errorsCleared w d s).on (R.WIN_STAT_BLANKED w) = s.on (R.WIN_STAT_BLANKED w) :=
  errorsCleared_keeps (P := fun t => t.on (R.WIN_STAT_BLANKED w) = s.on (R.WIN_STAT_BLANKED w)) rfl
    (fun _ h => (on_bit_other (i := 26) (j := 27) (by decide) (by decide)).trans h) fun _ h =>
    (on_bit_other (i := 25) (j := 27) (by decide) (by decide)).trans h

/-- A 1 written to a set LATCHED is a clear. -/
theorem writeWinStat_of_clear (hd : d.getLsbD 31 = true) (hlatched : s.on (R.WIN_STAT_LATCHED w) = true) (ms : List WinMeet) :
    writeWinStat w d ms s =
      let r := tryClear w ms (errorsCleared w d s)
      if r.2 then r.1.flag (R.WIN_STAT_CLRERR w) true else r.1 := by
  have hone : tb d.toNat 31 = true := (tb_eq_testBit ..).trans hd
  have hset : (errorsCleared w d s).on (R.WIN_STAT_LATCHED w) = true := shortOfTrip_errorsCleared.latched.trans hlatched
  exact if_pos (by rw [hone]; exact hset)

end

/-! ### A clear of the latch (R177, R178) -/

section
variable {w : Nat} {s : State}

/-- Without a trip in its cycle, the condition alone decides a clear. -/
theorem tryClear_nil : tryClear w [] s = if winCondition s w then (s, true) else (winClear w s, false) := by
  have hself : ∀ high, winTrips s s w high = false := fun high => Bool.and_not_self _
  simp [tryClear, forL, hself]

/-- A comparator that an event in the cycle of the clear makes trip is a new trip. -/
theorem tryClear_of_trip {m : WinMeet} {high : Bool} (harmed : winArmed (winMeet w m s) w high = true)
    (hopen : (winMeet w m s).on (R.WIN_STAT_BLANKED w) = false)
    (hbefore : winArmed s w high = false ∨ s.on (R.WIN_STAT_BLANKED w) = true) :
    tryClear w [m] s = (newTrip w (winMeet w m s), winCondition s w) := by
  have htrips : winTrips s (winMeet w m s) w high = true := by
    rcases hbefore with h | h <;> simp [winTrips, harmed, hopen, h]
  exact if_pos (by cases high <;> simp [forL, htrips])

theorem winClear_shows (s : State) : (winClear w s).on (R.WIN_STAT_LATCHED w) = false
    ∧ RegsOutside [R.WIN_STAT w] s (winClear w s) := by
  have hsame := regs_syncRouted (s.flag (R.WIN_STAT_LATCHED w) false)
  exact ⟨(on_congr hsame _).trans (on_bit_self (i := 31) (by decide)),
    ((RegsOutside.refl _ s).flag _ _ (List.mem_singleton_self _)).of_regs hsame⟩

end

/-- The state that a clear through a port finds. -/
def clearMet (w : Nat) (d : PortWrite) (s : State) : State := errorsCleared w d.data (endRun d.port s)

section
variable {w : Nat} {d : PortWrite} {s : State}

theorem shortOfTrip_clearMet : ShortOfTrip w (endRun d.port s) (clearMet w d s) := shortOfTrip_errorsCleared

theorem regsOutside_clearMet : RegsOutside [R.WIN_STAT w, R.WIN_CNT w] s (clearMet w d s) := shortOfTrip_clearMet.regs.of_endRun

theorem winSt_clearMet : winSt (clearMet w d s) w = winSt s w := winSt_errorsCleared _

theorem winCondition_clearMet : winCondition (clearMet w d s) w = winCondition s w :=
  regsOutside_clearMet.winCondition winSt_clearMet

end

section
variable {w : Fin 64} {d : PortWrite} {s : State} (hacc : Accepts s d.port (R.WIN_STAT w)) (hd : d.data.getLsbD 31 = true)
  (hlatched : s.on (R.WIN_STAT_LATCHED w) = true)
include hacc hd hlatched

theorem exec_winLatchClear_of_clear (ms : List WinMeet) : exec (.winLatchClear w d ms) s = .next
    (let r := tryClear w ms (clearMet w d s)
     if r.2 then r.1.flag (R.WIN_STAT_CLRERR w) true else r.1) :=
  congrArg Host.Outcome.next ((guarded_accepts s d.port _ d.data _ hacc).trans
    (writeWinStat_of_clear (s := endRun d.port s) hd hlatched ms))

/-- Without a trip in its cycle, the condition decides the clear. -/
theorem winLatchClear_of_quiet : exec (.winLatchClear w d []) s = .next
    (if winCondition s w then (clearMet w d s).flag (R.WIN_STAT_CLRERR w) true else winClear w (clearMet w d s)) := by
  rw [exec_winLatchClear_of_clear hacc hd hlatched, tryClear_nil, winCondition_clearMet]
  cases winCondition s w <;> simp only [if_true, Bool.false_eq_true, if_false]

/-- A new trip in the cycle of the clear: LATCHED stays, TRIPS counts, and CLRERR says whether the condition was there before. -/
theorem winLatchClear_of_trip {m : WinMeet} {high : Bool} (harmed : winArmed (winMeet w m (clearMet w d s)) w high = true)
    (hopen : (winMeet w m (clearMet w d s)).on (R.WIN_STAT_BLANKED w) = false)
    (hbefore : winArmed (clearMet w d s) w high = false ∨ (clearMet w d s).on (R.WIN_STAT_BLANKED w) = true) :
    ∃ u, exec (.winLatchClear w d [m]) s = .next (if winCondition s w
          then (occur 0x0E (0x5000 + w) 0 u).flag (R.WIN_STAT_CLRERR w) true else occur 0x0E (0x5000 + w) 0 u)
      ∧ u.on (R.WIN_STAT_LATCHED w) = true ∧ u.on (R.WIN_STAT_BLANKED w) = false
      ∧ u.get (R.WIN_CNT_TRIPS w) = (s.get (R.WIN_CNT_TRIPS w) + 1) % 2 ^ 16
      ∧ RegsOutside [R.WIN_STAT w, R.WIN_CNT w] s u := by
  have hshort : ShortOfTrip w (endRun d.port s) (winMeet w m (clearMet w d s)) :=
    shortOfTrip_clearMet.trans (shortOfTrip_winMeet ..)
  obtain ⟨hstays, htrips, hregs⟩ := tripsCounted (w := w) (winMeet w m (clearMet w d s))
  rw [hshort.trips] at htrips
  refine ⟨(winMeet w m (clearMet w d s)).inc (R.WIN_CNT_TRIPS w), ?_, hstays.trans (hshort.latched.trans hlatched),
    (on_put_other _ _ _ _ (by simp [R.WIN_STAT_BLANKED]) (.inl winCnt_ne_winStat.symm)).trans hopen, htrips,
    (hshort.regs.trans hregs).of_endRun⟩
  rw [exec_winLatchClear_of_clear hacc hd hlatched, tryClear_of_trip harmed hopen hbefore, winCondition_clearMet]
  rfl

end

/-! ### WIN_CTL (R174, R178) -/

section
variable {w : Nat} {s : State}

/-- The comparators unsettled, their blanking as it was. -/
def unsettled (x : WinSt) : WinSt := { x with hi := false, lo := false, setHi := false, setLo := false }

/-- The window with EN raised, and with EN lowered. -/
def windowStarted (w : Nat) (s : State) : State := winStart w (s.flag (R.WIN_CTL_EN w) true)
def windowStopped (w : Nat) (s : State) : State :=
  winShow w (setWinSt (s.flag (R.WIN_CTL_EN w) false) w (unsettled (winSt s w)))

theorem writeWinCtl_of_rise (h : s.on (R.WIN_CTL_EN w) = false) : writeWinCtl w 1 s = windowStarted w s := by
  simp [writeWinCtl, tb, h, windowStarted]

theorem writeWinCtl_of_fall (h : s.on (R.WIN_CTL_EN w) = true) (hopen : s.on (R.WIN_STAT_LATCHED w) = false) :
    writeWinCtl w 0 s = windowStopped w s := by
  simp [writeWinCtl, tb, h, hopen, windowStopped, unsettled]

theorem writeWinCtl_of_latched (h : s.on (R.WIN_CTL_EN w) = true) (hlatched : s.on (R.WIN_STAT_LATCHED w) = true) :
    writeWinCtl w 0 s = s.flag (R.WIN_STAT_CLRERR w) true := by
  simp [writeWinCtl, tb, h, hlatched]

theorem exec_winEnWrite_of_accepts {w : Fin 64} {p : Nat} (hacc : Accepts s p (R.WIN_CTL w)) (en : Bool) :
    exec (.winEnWrite w p en) s = .next (writeWinCtl w (if en then 1 else 0) (endRun p s)) :=
  congrArg Host.Outcome.next (guarded_accepts s p _ _ _ hacc)

theorem winCtl_notMem_winStat : R.WIN_CTL w ∉ [R.WIN_STAT w] := by simp [R.WIN_CTL, R.WIN_STAT]

theorem on_flagEn (s : State) (b : Bool) : (s.flag (R.WIN_CTL_EN w) b).on (R.WIN_CTL_EN w) = b := on_bit_self (i := 0) (by decide)

theorem winOn_flagEn (hw : w < 64) (s : State) (b : Bool) :
    winOn (s.flag (R.WIN_CTL_EN w) b) w = (domOn s 4 && b && s.get (R.WIN_CFG_MODE w) != 0) := by
  have hdom : R.PWR_DOM ≠ R.WIN_CTL w := by simp only [R.PWR_DOM, R.WIN_CTL]; omega
  have hcfg : R.WIN_CFG w ≠ R.WIN_CTL w := by simp only [R.WIN_CFG, R.WIN_CTL]; omega
  rw [winOn, on_flagEn, domOn, State.flag, get_put_ne _ _ _ _ hdom, get_put_ne _ _ _ _ hcfg, domOn]

theorem winUses_flagEn (s : State) (b high : Bool) : winUses (s.flag (R.WIN_CTL_EN w) b) w high = winUses s w high := by
  have hcfg : R.WIN_CFG w ≠ R.WIN_CTL w := by simp only [R.WIN_CFG, R.WIN_CTL]; omega
  rw [winUses, State.flag, get_put_ne _ _ _ _ hcfg, winUses]

/-- The status as `winShow` leaves it: the comparators in use that are unsettled, and what both report. -/
theorem winShow_shows (s : State) : (winShow w s).on (R.WIN_STAT_OUTHI w) = winReports s w true
    ∧ (winShow w s).on (R.WIN_STAT_OUTLO w) = winReports s w false
    ∧ (winShow w s).on (R.WIN_STAT_UNSETTLED w)
      = (winOn s w && ((winUses s w true && !(winSt s w).setHi) || (winUses s w false && !(winSt s w).setLo))) :=
  ⟨(on_bit_other (i := 30) (j := 29) (by decide) (by decide)).trans <|
      (on_bit_other (i := 28) (j := 29) (by decide) (by decide)).trans (on_bit_self (i := 29) (by decide)),
    (on_bit_other (i := 30) (j := 28) (by decide) (by decide)).trans (on_bit_self (i := 28) (by decide)),
    on_bit_self (i := 30) (by decide)⟩

theorem regsOutside_winShow (s : State) : RegsOutside [R.WIN_STAT w] s (winShow w s) :=
  (((RegsOutside.refl _ s).flag (R.WIN_STAT_OUTHI w) _ (List.mem_singleton_self _)).flag (R.WIN_STAT_OUTLO w) _
    (List.mem_singleton_self _)).flag (R.WIN_STAT_UNSETTLED w) _ (List.mem_singleton_self _)

theorem winHit_shows (s : State) : RegsOutside [R.WIN_CNT w] s (winHit w s)
    ∧ winSt (winHit w s) w = { winSt s w with hit := (winSt (winHit w s) w).hit } := by
  unfold winHit
  extract_lets x
  split
  · have hst : winSt ((setWinSt s w { x with hit := true }).inc (R.WIN_CNT_BLKHIT w)) w = { x with hit := true } :=
      (winSt_congr (inc_wins ..) w).trans (winSt_setWinSt _)
    exact ⟨(RegsOutside.of_regs (.refl _ s) rfl).inc _ (List.mem_singleton_self _), by rw [hst]⟩
  · exact ⟨.refl _ s, rfl⟩

/-- A start unsettles the comparators, counts PUSUP or does not, and then shows the window. -/
theorem winStart_eq (w : Nat) (s : State) : ∃ v, winStart w s = winHit w (winShow w v) ∧ ShortOfTrip w s v
    ∧ winSt v w = unsettled (winSt s w) := by
  unfold winStart
  extract_lets pu x s1
  have hst : winSt s1 w = unsettled (winSt s w) := winSt_setWinSt _
  have hshort : ShortOfTrip w s s1 := (ShortOfTrip.refl w s).setWinSt _
  refine ⟨_, rfl, ?_⟩
  split
  · exact ⟨hshort.countField (i := 0) (by decide), (winSt_congr (inc_wins ..) w).trans hst⟩
  · exact ⟨hshort, hst⟩

/-- EN raised starts the window, which is unsettled where it uses a comparator (R174). -/
theorem windowStarted_shows (hw : w < 64) (s : State) : (windowStarted w s).on (R.WIN_CTL_EN w) = true
    ∧ winSt (windowStarted w s) w = { unsettled (winSt s w) with hit := (winSt (windowStarted w s) w).hit }
    ∧ RegsOutside [R.WIN_CTL w, R.WIN_STAT w, R.WIN_CNT w] s (windowStarted w s)
    ∧ (windowStarted w s).on (R.WIN_STAT_UNSETTLED w) =
        (domOn s 4 && s.get (R.WIN_CFG_MODE w) != 0 && (winUses s w true || winUses s w false)) := by
  obtain ⟨v, hstart, hshort, hst⟩ := winStart_eq w (s.flag (R.WIN_CTL_EN w) true)
  obtain ⟨-, -, hunsettled⟩ := winShow_shows (w := w) v
  obtain ⟨hcnt, hhit⟩ := winHit_shows (w := w) (winShow w v)
  have hshown := hshort.winShow.winHit
  have hstat : R.WIN_STAT w ∉ [R.WIN_CNT w] := fun h => winCnt_ne_winStat (List.mem_singleton.1 h).symm
  rw [winSt_winShow, hst, winSt_flag] at hhit
  rw [windowStarted, hstart]
  refine ⟨(hshown.regs.on winCtl_notMem).trans (on_flagEn s true), hhit,
    ((RegsOutside.refl _ s).flag _ _ (List.mem_cons_self ..)).trans (hshown.regs.mono (List.subset_cons_self ..)),
    (hcnt.on hstat).trans (hunsettled.trans ?_)⟩
  rw [hshort.regs.winOn, hshort.regs.winUses, hshort.regs.winUses, winOn_flagEn hw, winUses_flagEn, winUses_flagEn, hst]
  simp [unsettled]

/-- EN lowered stops the window: it reports nothing. -/
theorem windowStopped_shows (hw : w < 64) (s : State) : (windowStopped w s).on (R.WIN_CTL_EN w) = false
    ∧ RegsOutside [R.WIN_CTL w, R.WIN_STAT w] s (windowStopped w s) ∧ (windowStopped w s).on (R.WIN_STAT_OUTHI w) = false
    ∧ (windowStopped w s).on (R.WIN_STAT_OUTLO w) = false ∧ (windowStopped w s).on (R.WIN_STAT_UNSETTLED w) = false := by
  let v := setWinSt (s.flag (R.WIN_CTL_EN w) false) w (unsettled (winSt s w))
  obtain ⟨hhi, hlo, hunsettled⟩ := winShow_shows (w := w) v
  have hoff : winOn v w = false := (winOn_flagEn hw s false).trans (by rw [Bool.and_false, Bool.false_and])
  have hsilent : ∀ high, winReports v w high = false := fun high => by rw [winReports, hoff]; rfl
  have hv : RegsOutside [R.WIN_CTL w, R.WIN_STAT w] s v := (RegsOutside.refl _ s).flag (R.WIN_CTL_EN w) false (List.mem_cons_self ..)
  have hregs := regsOutside_winShow (w := w) v
  exact ⟨(hregs.on winCtl_notMem_winStat).trans (on_flagEn s false), hv.trans (hregs.mono (List.subset_cons_self ..)),
    hhi.trans (hsilent true), hlo.trans (hsilent false), hunsettled.trans (by rw [hoff, Bool.false_and])⟩

end

/-! ### The obligation -/

/-- Settles O37: an accepted word is one write of its register; a clear of the latch is `tryClear` on `clearMet`. -/
theorem windowWrites : Obligations.WindowWrites := by
  refine fun w s => ⟨fun d hacc => ⟨fun hmode hle => ?inverted, fun hok => ?taken⟩,
    fun d hacc hd hlatched => ⟨fun habsent => ?cleared, fun hpresent => ?refused,
      fun x habsent hblank hon huses hdset hpast => ?input, fun hblank harmed => ?blankEnd⟩,
    fun p hacc => ⟨fun hoff => ?raised, fun hon hopen => ?lowered, fun hon hlatched => ?kept⟩⟩
  case inverted =>
    exact ⟨_, (exec_winThrWrite_of_accepts hacc).trans (congrArg _ (writeWinThr_of_inverted ⟨hmode, hle⟩)),
      (PortRegs.refl d.port _ s).flag (R.WIN_STAT_WERR w) true (List.mem_singleton_self _), on_bit_self (i := 25) (by decide)⟩
  case taken =>
    exact ⟨_, (exec_winThrWrite_of_accepts hacc).trans (congrArg _ (writeWinThr_of_taken hok)),
      regsOutside_thresholdsTaken.of_endRun, onlyWins_thresholdsTaken.eq, hi_thresholdsTaken, lo_thresholdsTaken, winSt_thresholdsTaken,
      fun m hm => winSt_thresholdsTaken_ne hm⟩
  case cleared =>
    obtain ⟨hclear, hregs⟩ := winClear_shows (w := w) (clearMet w d s)
    exact ⟨_, (winLatchClear_of_quiet hacc hd hlatched).trans (congrArg _ (if_neg (by simp [habsent]))), hclear,
      (portRegs_errorsCleared d.port).2.trans hregs⟩
  case refused =>
    exact ⟨_, (winLatchClear_of_quiet hacc hd hlatched).trans (congrArg _ (if_pos hpresent)),
      (portRegs_errorsCleared d.port).flag _ _ (List.mem_singleton_self _),
      (on_bit_other (i := 26) (j := 31) (by decide) (by decide)).trans (shortOfTrip_clearMet.latched.trans hlatched),
      on_bit_self (i := 26) (by decide)⟩
  case input =>
    have hregs := regsOutside_clearMet (w := w) (d := d) (s := s)
    have hst := winSt_clearMet (w := w) (d := d) (s := s)
    have hopen : (clearMet w d s).on (R.WIN_STAT_BLANKED w) = false := blanked_errorsCleared.trans hblank
    have hvolts : winVolts s w true < x := hpast
    rw [← hregs.winVolts] at hvolts
    obtain ⟨harmed, hstill⟩ := winMeet_input (s := clearMet w d s) (high := true) (hregs.winOn.trans hon) hopen
      ((hregs.winUses true).trans huses) (by rw [hst]; exact hdset) hvolts
    have hbefore : winArmed (clearMet w d s) w true = false := by
      rw [hregs.winArmed hst]
      exact Bool.eq_false_of_not_eq_true fun h => by simp [winCondition_of_reports (winReports_of_armed h)] at habsent
    obtain ⟨u, hexec, hstays, -, htrips, hframe⟩ := winLatchClear_of_trip hacc hd hlatched harmed hstill (.inl hbefore)
    rw [habsent] at hexec
    exact ⟨u, hexec, hstays, htrips, hframe⟩
  case blankEnd =>
    obtain ⟨high, harmed⟩ : ∃ high, winArmed s w high = true := harmed.elim (⟨true, ·⟩) (⟨false, ·⟩)
    obtain ⟨hsame, hended⟩ := winMeet_blankEnd (w := w) (s := clearMet w d s) high
    rw [regsOutside_clearMet.winArmed winSt_clearMet] at hsame
    obtain ⟨u, hexec, hstays, hopen, htrips, hframe⟩ := winLatchClear_of_trip hacc hd hlatched (hsame.trans harmed) hended
      (.inr (blanked_errorsCleared.trans hblank))
    rw [winCondition_of_reports (winReports_of_armed harmed)] at hexec
    exact ⟨u, hexec, hstays, hopen, htrips, hframe⟩
  case raised =>
    obtain ⟨hen, hst, hregs, hunsettled⟩ := windowStarted_shows w.isLt (endRun p s)
    exact ⟨_, (exec_winEnWrite_of_accepts hacc true).trans (congrArg _ (writeWinCtl_of_rise hoff)), hen, hst, hregs.of_endRun,
      hunsettled⟩
  case lowered =>
    obtain ⟨hen, hregs, hstat⟩ := windowStopped_shows w.isLt (endRun p s)
    exact ⟨_, (exec_winEnWrite_of_accepts hacc false).trans (congrArg _ (writeWinCtl_of_fall hon hopen)), hen, hregs.of_endRun,
      hstat⟩
  case kept =>
    exact ⟨_, (exec_winEnWrite_of_accepts hacc false).trans (congrArg _ (writeWinCtl_of_latched hon hlatched)),
      (PortRegs.refl p _ s).flag (R.WIN_STAT_CLRERR w) true (List.mem_singleton_self _), on_bit_self (i := 26) (by decide),
      (((RegsOutside.refl _ (endRun p s)).flag _ _ (List.mem_singleton_self _)).on winCtl_notMem_winStat).trans hon⟩

end Sys2Proof.Machine
end

section
/-!
PROOFS of the laws of the metering unit's own operations: a channel, a close and the snapshot it meets, and energy added to an
accumulator (R205, R210, R212, R217).
-/
namespace Sys2Proof.Machine

/-! ### What metering may touch -/

theorem OnlyRegs.trans {as : List Nat} {s t u : State} (h : OnlyRegs as s t) (k : OnlyRegs as t u) : OnlyRegs as s u :=
  ⟨k.1.trans (congrArg (fun x : State => { x with regs := u.regs }) h.1), h.2.trans k.2⟩

/-- Nothing differs but registers of `as`, and the metering unit's own state. -/
structure OnlyMtr (as : List Nat) (s t : State) : Prop where
  regs : RegsOutside as s t
  rest : t = { s with regs := t.regs, mtr := t.mtr }

namespace OnlyMtr
variable {as : List Nat} {s t u : State}

theorem refl (as : List Nat) (s : State) : OnlyMtr as s s := ⟨.refl _ _, rfl⟩

theorem of_onlyRegs (h : OnlyRegs as s t) : OnlyMtr as s t := ⟨h.2, h.1.trans (by rw [h.1])⟩

theorem trans (h : OnlyMtr as s t) (k : OnlyMtr as t u) : OnlyMtr as s u :=
  ⟨h.regs.trans k.regs, k.rest.trans (congrArg (fun x : State => { x with regs := u.regs, mtr := u.mtr }) h.rest)⟩

theorem mono {bs : List Nat} (h : OnlyMtr as s t) (hsub : as ⊆ bs) : OnlyMtr bs s t := ⟨h.regs.mono hsub, h.rest⟩

theorem setWord (h : OnlyMtr as s t) (a : Nat) (w : Word) (ha : a ∈ as) : OnlyMtr as s (t.setWord a w) :=
  h.trans ⟨(RegsOutside.refl as t).setWord a w ha, rfl⟩

theorem put (h : OnlyMtr as s t) (f : Field) (v : Nat) (ha : f.addr ∈ as) : OnlyMtr as s (t.put f v) := h.setWord _ _ ha

theorem sput (h : OnlyMtr as s t) (f : Field) (i : Int) (ha : f.addr ∈ as) : OnlyMtr as s (t.sput f i) := h.put _ _ ha

theorem flag (h : OnlyMtr as s t) (f : Field) (b : Bool) (ha : f.addr ∈ as) : OnlyMtr as s (t.flag f b) := h.put _ _ ha

theorem inc (h : OnlyMtr as s t) (f : Field) (ha : f.addr ∈ as) : OnlyMtr as s (t.inc f) := h.put _ _ ha

theorem setMtr (h : OnlyMtr as s t) (m : MtrSt) : OnlyMtr as s { t with mtr := m } := h.trans ⟨.refl as t, rfl⟩

/-- With the unit's state named, the frame as the statements write it. -/
theorem eq_of (h : OnlyMtr as s t) {m : MtrSt} (hm : t.mtr = m) : t = { s with regs := t.regs, mtr := m } := by
  conv_lhs => rw [h.rest, hm]

end OnlyMtr

/-! ### Channels -/

section
variable (s : State) (c : Nat) (x : MtrCh)

@[simp] theorem mtrCh_setMtrCh : mtrCh (setMtrCh s c x) c = x := tget_tset_self ..

@[simp] theorem setMtrCh_regs : (setMtrCh s c x).regs = s.regs := rfl
@[simp] theorem setMtrCh_dues : (setMtrCh s c x).mtr.dues = s.mtr.dues := rfl
@[simp] theorem asked_setMtrCh : asked (setMtrCh s c x) = asked s := rfl

theorem mtrCh_setMtrCh_ne {m : Nat} (h : m ≠ c) : mtrCh (setMtrCh s c x) m = mtrCh s m := tget_tset_ne _ _ _ h

variable {s} {t : State}

theorem mtrCh_congr (h : t.mtr.chans = s.mtr.chans) (m : Nat) : mtrCh t m = mtrCh s m :=
  congrArg (tget (fun _ => MtrCh.zero) · m) h

theorem accOf_congr (h : t.mtr.acc = s.mtr.acc) (q : Nat) : accOf t c q = accOf s c q := by simp only [accOf, h]

theorem intReg_congr (hacc : t.mtr.acc = s.mtr.acc) (hch : mtrCh t c = mtrCh s c) (q : Nat) : intReg t c q = intReg s c q := by
  simp only [intReg, intCount, accOf_congr c hacc, hch]

/-- The words of a working copy lie below the status of its channel. -/
theorem sealWords_congr (h : RegsOutside [R.MTR_CHSTAT c, R.MTR_CNT c] s t) : sealWords t c = sealWords s c := by
  refine List.map_congr_left fun k hk => congrArg BitVec.toNat (h _ ?_)
  have := List.mem_range.1 hk
  simp only [R.MTR_CHCFG, R.MTR_CHSTAT, R.MTR_CNT, List.mem_cons, List.not_mem_nil, or_false]
  omega

/-- Bit 31 of the first word of a working copy is CHEN. -/
theorem chen_sealWords : tb ((sealWords s c).getD 0 0) 31 = s.on (R.MTR_CHCFG_CHEN c) := rfl

end

/-- Rounds of a loop that each see and change the view of their own element alone: an invariant that they keep holds at the end,
and the view of an element is what its own round made of it. -/
theorem forL_ownRounds {σ α β : Type} {view : σ → α → β} {f : α → σ → σ} {P : σ → Prop} {s : σ} {l : List α} (hnodup : l.Nodup)
    (hs : P s) (hround : ∀ k ∈ l, ∀ a, P a → view a k = view s k → P (f k a) ∧ ∀ m, m ≠ k → view (f k a) m = view a m) :
    P (forL l f s) ∧ (∀ m, m ∉ l → view (forL l f s) m = view s m)
      ∧ ∀ m ∈ l, ∃ a, P a ∧ view a m = view s m ∧ view (forL l f s) m = view (f m a) m := by
  induction l generalizing s with
  | nil => exact ⟨hs, fun _ _ => rfl, fun m hm => absurd hm List.not_mem_nil⟩
  | cons k l ih =>
    obtain ⟨hk, hnodup⟩ := List.nodup_cons.1 hnodup
    obtain ⟨hfirst, hother⟩ := hround k List.mem_cons_self s hs rfl
    have hlater : ∀ m ∈ l, view (f k s) m = view s m := fun m hm => hother m fun e => hk (e ▸ hm)
    obtain ⟨hend, hout, hin⟩ := ih hnodup hfirst fun m hm a ha hview =>
      hround m (List.mem_cons_of_mem _ hm) a ha (hview.trans (hlater m hm))
    refine ⟨hend, fun m hm => ?_, fun m hm => ?_⟩
    · obtain ⟨hne, hm⟩ := not_or.1 (mt List.mem_cons.2 hm)
      exact (hout m hm).trans (hother m hne)
    · rcases List.mem_cons.1 hm with rfl | hm
      · exact ⟨s, hs, rfl, hout m hk⟩
      · obtain ⟨a, ha, hview, hfinal⟩ := hin m hm
        exact ⟨a, ha, hview.trans (hlater m hm), hfinal⟩

/-- The four channels. -/
theorem mem_channels {c : Nat} : c ∈ [0, 1, 2, 3] ↔ c < 4 := by
  simp only [List.mem_cons, List.not_mem_nil, or_false]; omega

/-! ### Energy added (R210, R212) -/

/-- Energy is added to quantities of `qs` of channel `c`: their accumulators grow, their wraps are counted. -/
structure Accrues (c : Nat) (qs : List Nat) (s t : State) : Prop where
  regs : RegsOutside (qs.map (R.MTR_IWRAP c)) s t
  rest : t = { s with regs := t.regs, mtr := { s.mtr with acc := t.mtr.acc } }
  grows : ∀ k q, accOf s k q ≤ accOf t k q
  apart : ∀ k q, (∀ p ∈ qs, 8 * k + q ≠ 8 * c + p) → accOf t k q = accOf s k q

namespace Accrues
variable {c q e : Nat} {qs ps : List Nat} {s t u : State}

theorem refl (c : Nat) (s : State) : Accrues c [] s s := ⟨.refl _ s, rfl, fun _ _ => le_rfl, fun _ _ _ => rfl⟩

theorem trans (h : Accrues c qs s t) (k : Accrues c ps t u) : Accrues c (qs ++ ps) s u where
  regs := by
    rw [List.map_append]
    exact (h.regs.mono (List.subset_append_left ..)).trans (k.regs.mono (List.subset_append_right ..))
  rest := k.rest.trans (congrArg (fun x : State => { x with regs := u.regs, mtr := { x.mtr with acc := u.mtr.acc } }) h.rest)
  grows m q := (h.grows m q).trans (k.grows m q)
  apart m q hq := (k.apart m q fun p hp => hq p (List.mem_append_right _ hp)).trans
    (h.apart m q fun p hp => hq p (List.mem_append_left _ hp))

theorem addEnergy (c q e : Nat) (s : State) : Accrues c [q] s (addEnergy c q e s) := by
  let acc := MtrCopy.of (tset (fun _ => 0) s.mtr.acc.vals (8 * c + q) (accOf s c q + e))
  have hself : ∀ k p, 8 * k + p = 8 * c + q → tget (fun _ => 0) acc.vals (8 * k + p) = accOf s k p + e := fun k p h => by
    rw [h, accOf, h]; exact tget_tset_self ..
  have hother : ∀ k p, 8 * k + p ≠ 8 * c + q → tget (fun _ => 0) acc.vals (8 * k + p) = accOf s k p := fun k p h =>
    tget_tset_ne _ _ _ h
  have hacc : ∀ t : State, t.mtr.acc = acc → RegsOutside [R.MTR_IWRAP c q] s t →
      t = { s with regs := t.regs, mtr := { s.mtr with acc := t.mtr.acc } } → Accrues c [q] s t := fun t hacc hregs hrest => by
    refine ⟨hregs, hrest, fun k p => ?_, fun k p hp => ?_⟩
    · rw [accOf, accOf, hacc]
      by_cases h : 8 * k + p = 8 * c + q
      · exact (Nat.le_add_right _ e).trans (hself k p h).ge
      · exact (hother k p h).ge
    · rw [accOf, hacc]
      exact hother k p (hp q (List.mem_singleton_self q))
  unfold Machine.addEnergy
  extract_lets
  split
  · exact hacc _ rfl (.refl _ s) rfl
  · exact hacc _ rfl (((RegsOutside.of_regs (.refl _ s) rfl).flag (R.MTR_IWRAP_WRAP c q) true (List.mem_singleton_self _)).put
      (R.MTR_IWRAP_WCNT c q) _ (List.mem_singleton_self _)) rfl

theorem onlyMtr (h : Accrues c qs s t) : OnlyMtr (qs.map (R.MTR_IWRAP c)) s t :=
  ⟨h.regs, h.rest.trans (by rw [h.rest])⟩

theorem mtr (h : Accrues c qs s t) : t.mtr = { s.mtr with acc := t.mtr.acc } := congrArg State.mtr h.rest

end Accrues

end Sys2Proof.Machine
end

section
/-!
PROOFS of what a closed window adds to the registers of its channel (R207–R210).
-/
namespace Sys2Proof.Machine

section
variable (c : Nat) (x : List Nat) (w : MtrWin) (s : State)

/-! ### What is computed from a window -/

/-- I0 of a window, as MTR_IRMS shows it. -/
def windowI0 (w : MtrWin) : Nat := rootReg 42 (1440000 * w.ii.toNat) (2 ^ 78 * w.n) % 2 ^ 24

/-- The segment of a window with its gain and phase (R208), and what the window measures with them (R210). -/
def windowSegment (x : List Nat) (w : MtrWin) : Nat × Int × Int := segment x (windowI0 w)
def windowEnergy (x : List Nat) (w : MtrWin) : Int × Int × Nat := energyOf (windowSegment x w).2.1 (windowSegment x w).2.2 w

/-- The reactive sum, which a DC channel has none of. -/
def windowReactive (x : List Nat) (w : MtrWin) : Int := if tb (x.getD 0 0) 30 then 0 else (windowEnergy x w).2.1

/-- The quadrant of a window. -/
def windowQuadrant (x : List Nat) (w : MtrWin) : Nat :=
  if 0 ≤ (windowEnergy x w).1 then (if 0 ≤ windowReactive x w then 0 else 3) else (if 0 ≤ windowReactive x w then 1 else 2)

/-- Active energy goes to one of the two directions. -/
def windowActive (x : List Nat) (w : MtrWin) : Nat × Nat :=
  if 0 < (windowEnergy x w).1 then (0, ((windowEnergy x w).1 / (energyDen * trigDen : Nat)).toNat)
  else (1, (-(windowEnergy x w).1 / (energyDen * trigDen : Nat)).toNat)

/-- What a window above the no-load threshold adds, quantity by quantity. -/
def windowAdds (x : List Nat) (w : MtrWin) : List (Nat × Nat) :=
  [windowActive x w, (2 + windowQuadrant x w, (windowReactive x w).natAbs / (energyDen * trigDen)), (6, (windowEnergy x w).2.2)]

/-- RMS values and length of a window. -/
def windowMeasured (c : Nat) (w : MtrWin) (s : State) : State :=
  ((s.put (R.MTR_VRMS_V c) (rootReg 41 (14400 * w.vv.toNat) (2 ^ 78 * w.n))).put (R.MTR_IRMS_I0 c) (windowI0 w)).put
    (R.MTR_WLEN_N c) w.n

/-- Its powers, its segment and its quadrant. -/
def windowPlaced (c : Nat) (x : List Nat) (w : MtrWin) (s : State) : State :=
  let avg : Int := (5 * 2 ^ 97 * w.n * trigDen : Nat)
  ((((windowMeasured c w s).sput (R.MTR_PAVG_P c) (ratioReg 47 (72 * (windowEnergy x w).1) avg)).sput (R.MTR_QAVG_Q c)
    (ratioReg 48 (72 * (windowEnergy x w).2.1) avg)).put (R.MTR_CHSTAT_SEG c) (windowSegment x w).1).put (R.MTR_CHSTAT_QUAD c)
    (windowQuadrant x w)

/-- The window is shown and counted. -/
def windowShown (c : Nat) (x : List Nat) (w : MtrWin) (s : State) : State := (windowPlaced c x w s).inc (R.MTR_CNT_WINDOWS c)

/-- A window below the no-load threshold is shown and counted. -/
def noLoadShown (c : Nat) (s : State) : State := (s.flag (R.MTR_CHSTAT_NOLOAD c) true).inc (R.MTR_CNT_NOLOAD c)

def energiesAdded (c : Nat) (es : List (Nat × Nat)) (s : State) : State := forL es (fun e a => addEnergy c e.1 e.2 a) s

/-- Is a window below the threshold of its working copy? -/
def windowNoLoad (x : List Nat) (w : MtrWin) : Bool := noLoad w (windowSegment x w).2.1 (x.getD 3 0 % 65536)

variable {c x w s}

theorem addWindow_of_empty (h : w.n = 0) : addWindow c x w s = s := if_pos h

theorem addWindow_of_noLoad (hn : w.n ≠ 0) (h : windowNoLoad x w = true) :
    addWindow c x w s = noLoadShown c (windowShown c x w s) := by
  simp only [windowNoLoad, windowSegment, windowI0] at h
  simp only [addWindow, if_neg hn, h, if_true, noLoadShown, windowShown, windowPlaced, windowMeasured, windowQuadrant, windowReactive, windowEnergy,
    windowSegment, windowI0]
  rfl

theorem addWindow_of_load (hn : w.n ≠ 0) (h : windowNoLoad x w = false) :
    addWindow c x w s = energiesAdded c (windowAdds x w) ((windowShown c x w s).flag (R.MTR_CHSTAT_NOLOAD c) false) := by
  simp only [windowNoLoad, windowSegment, windowI0] at h
  by_cases hp : 0 < (windowEnergy x w).1
  all_goals
    simp only [windowEnergy, windowSegment, windowI0] at hp
    simp only [addWindow, if_neg hn, h, hp, Bool.false_eq_true, if_true, if_false, energiesAdded, forL, windowAdds,
      windowActive, List.foldl_cons, List.foldl_nil, windowShown, windowPlaced, windowMeasured, windowQuadrant, windowReactive, windowEnergy, windowSegment,
      windowI0]
    rfl

end

/-! ### What a window shows -/

/-- The registers that show the last window of channel `c`. -/
def windowRegs (c : Nat) : List Nat :=
  [R.MTR_VRMS c, R.MTR_IRMS c, R.MTR_WLEN c, R.MTR_PAVG c, R.MTR_QAVG c, R.MTR_CHSTAT c, R.MTR_CNT c]

section
variable {c : Nat} {x : List Nat} {w : MtrWin} {s : State}

theorem onlyRegs_windowMeasured : OnlyRegs [R.MTR_VRMS c, R.MTR_IRMS c, R.MTR_WLEN c] s (windowMeasured c w s) :=
  (((OnlyRegs.refl _ s).put (R.MTR_VRMS_V c) _ (by simp [R.MTR_VRMS_V])).put (R.MTR_IRMS_I0 c) _ (by simp [R.MTR_IRMS_I0])).put
    (R.MTR_WLEN_N c) _ (by simp [R.MTR_WLEN_N])

theorem onlyRegs_windowPlaced : OnlyRegs [R.MTR_PAVG c, R.MTR_QAVG c, R.MTR_CHSTAT c] (windowMeasured c w s)
    (windowPlaced c x w s) :=
  ((((OnlyRegs.refl _ _).put (R.MTR_PAVG_P c) _ (by simp [R.MTR_PAVG_P])).put (R.MTR_QAVG_Q c) _ (by simp [R.MTR_QAVG_Q])).put
    (R.MTR_CHSTAT_SEG c) _ (by simp [R.MTR_CHSTAT_SEG])).put (R.MTR_CHSTAT_QUAD c) _ (by simp [R.MTR_CHSTAT_QUAD])

theorem onlyRegs_windowShown : OnlyRegs (windowRegs c) s (windowShown c x w s) :=
  ((onlyRegs_windowMeasured.mono (by simp [windowRegs])).trans (onlyRegs_windowPlaced.mono (by simp [windowRegs]))).inc
    (R.MTR_CNT_WINDOWS c) (by simp [windowRegs, R.MTR_CNT_WINDOWS])

/-- What shows the powers, the segment and the quadrant leaves the RMS values and the length. -/
theorem get_windowShown_measured {f : Field} (hf : f.addr ∈ [R.MTR_VRMS c, R.MTR_IRMS c, R.MTR_WLEN c]) :
    (windowShown c x w s).get f = (windowMeasured c w s).get f := by
  have hcnt : f.addr ≠ R.MTR_CNT c := by
    rintro h
    simp [h, R.MTR_CNT, R.MTR_VRMS, R.MTR_IRMS, R.MTR_WLEN] at hf
  refine (get_put_ne _ _ _ _ hcnt).trans (onlyRegs_windowPlaced.2.get fun h => ?_)
  simp only [List.mem_cons, List.not_mem_nil, or_false, R.MTR_VRMS, R.MTR_IRMS, R.MTR_WLEN, R.MTR_PAVG, R.MTR_QAVG, R.MTR_CHSTAT]
    at h hf
  omega

theorem i0_windowShown : (windowShown c x w s).get (R.MTR_IRMS_I0 c) = windowI0 w := by
  have hwlen : R.MTR_IRMS c ≠ R.MTR_WLEN c := by simp [R.MTR_IRMS, R.MTR_WLEN]
  rw [get_windowShown_measured (by simp [R.MTR_IRMS_I0]), windowMeasured, get_put_ne _ _ _ _ hwlen,
    get_put _ _ _ (by decide : (0 : Nat) + 24 ≤ 32)]
  exact Nat.mod_mod ..

theorem length_windowShown : (windowShown c x w s).get (R.MTR_WLEN_N c) = w.n % 2 ^ (R.MTR_WLEN_N c).wd := by
  rw [get_windowShown_measured (by simp [R.MTR_WLEN_N]), windowMeasured, get_put _ _ _ (by decide : (0 : Nat) + 16 ≤ 32)]

theorem get_cnt_windowPlaced {f : Field} (hf : f.addr = R.MTR_CNT c) : (windowPlaced c x w s).get f = s.get f := by
  refine (onlyRegs_windowPlaced.2.get ?_).trans (onlyRegs_windowMeasured.2.get ?_) <;>
    simp [hf, R.MTR_CNT, R.MTR_VRMS, R.MTR_IRMS, R.MTR_WLEN, R.MTR_PAVG, R.MTR_QAVG, R.MTR_CHSTAT]

theorem windows_windowShown : (windowShown c x w s).get (R.MTR_CNT_WINDOWS c) = (s.get (R.MTR_CNT_WINDOWS c) + 1) % 2 ^ 16 := by
  rw [windowShown, get_inc _ _ (by decide : (0 : Nat) + 16 ≤ 32), get_cnt_windowPlaced rfl]
  rfl

theorem noloads_windowShown : (windowShown c x w s).get (R.MTR_CNT_NOLOAD c) = s.get (R.MTR_CNT_NOLOAD c) :=
  (get_put_apart _ _ _ _ (by decide : (16 : Nat) + 8 ≤ 32) (.inr (by decide : (0 : Nat) + 16 ≤ 16))).trans (get_cnt_windowPlaced rfl)

end

/-! ### Energies -/

theorem accrues_energiesAdded (c : Nat) (es : List (Nat × Nat)) (s : State) :
    Accrues c (es.map Prod.fst) s (energiesAdded c es s) := by
  induction es generalizing s with
  | nil => exact .refl c s
  | cons e es ih => exact (Accrues.addEnergy c e.1 e.2 s).trans (ih _)

/-- The quantities of a window: one direction of active energy, one quadrant of reactive energy, and the apparent energy. -/
theorem quantities_windowAdds (x : List Nat) (w : MtrWin) :
    ∃ p q, (windowAdds x w).map Prod.fst = [p, 2 + q, 6] ∧ p < 2 ∧ q < 4 := by
  refine ⟨(windowActive x w).1, windowQuadrant x w, rfl, ?_, ?_⟩
  · unfold windowActive
    split
    · exact Nat.zero_lt_two
    · exact Nat.one_lt_two
  · unfold windowQuadrant
    split <;> split <;> decide

section
variable {c : Nat} {x : List Nat} {w : MtrWin} {s : State}

/-- The wraps of the interval registers lie behind the other registers of their channel. -/
theorem get_energiesAdded {es : List (Nat × Nat)} {f : Field} (hf : f.addr ∈ windowRegs c) :
    (energiesAdded c es s).get f = s.get f := by
  refine (accrues_energiesAdded c es s).regs.get fun h => ?_
  obtain ⟨q, -, hq⟩ := List.mem_map.1 h
  simp only [windowRegs, List.mem_cons, List.not_mem_nil, or_false, R.MTR_VRMS, R.MTR_IRMS, R.MTR_WLEN, R.MTR_PAVG, R.MTR_QAVG,
    R.MTR_CHSTAT, R.MTR_CNT, ← hq, R.MTR_IWRAP] at hf
  omega

theorem mem_windowRegs : R.MTR_IRMS c ∈ windowRegs c ∧ R.MTR_WLEN c ∈ windowRegs c ∧ R.MTR_CHSTAT c ∈ windowRegs c
    ∧ R.MTR_CNT c ∈ windowRegs c := by simp [windowRegs]

/-- NOLOAD and its count are fields of CHSTAT and CNT. -/
theorem get_noLoadShown {f : Field} (hstat : f.addr ≠ R.MTR_CHSTAT c)
    (hcnt : f.addr ≠ R.MTR_CNT c ∨ f.lo + f.wd ≤ 16) : (noLoadShown c s).get f = s.get f := by
  refine Eq.trans ?_ (get_put_ne s (R.MTR_CHSTAT_NOLOAD c) f 1 hstat)
  rcases hcnt with h | h
  · exact get_put_ne _ _ _ _ h
  · exact get_put_apart _ _ _ _ (by omega) (.inl h)

theorem onlyRegs_noLoadShown : OnlyRegs [R.MTR_CHSTAT c, R.MTR_CNT c] s (noLoadShown c s) :=
  ((OnlyRegs.refl _ s).flag (R.MTR_CHSTAT_NOLOAD c) true (by simp [R.MTR_CHSTAT_NOLOAD])).inc (R.MTR_CNT_NOLOAD c)
    (by simp [R.MTR_CNT_NOLOAD])

theorem noLoadShown_shows : (noLoadShown c s).on (R.MTR_CHSTAT_NOLOAD c) = true
    ∧ (noLoadShown c s).get (R.MTR_CNT_NOLOAD c) = (s.get (R.MTR_CNT_NOLOAD c) + 1) % 256 := by
  have hne : R.MTR_CNT c ≠ R.MTR_CHSTAT c := by simp [R.MTR_CNT, R.MTR_CHSTAT]
  refine ⟨(on_put_other _ _ _ _ (by decide : (30 : Nat) + 1 ≤ 32) (.inl hne.symm)).trans (on_bit_self (by decide)), ?_⟩
  rw [noLoadShown, get_inc _ _ (by decide : (16 : Nat) + 8 ≤ 32), State.flag, get_put_ne _ _ _ _ hne]
  rfl

/-! ### A window that is added -/

/-- A no-load window changes the registers that show it alone; NOLOAD is set and counted (R209). -/
theorem addWindow_noLoad_shows (hn : w.n ≠ 0) (h : windowNoLoad x w = true) :
    OnlyRegs (windowRegs c) s (addWindow c x w s) ∧ (addWindow c x w s).on (R.MTR_CHSTAT_NOLOAD c) = true
      ∧ (addWindow c x w s).get (R.MTR_CNT_NOLOAD c) = (s.get (R.MTR_CNT_NOLOAD c) + 1) % 256 := by
  obtain ⟨hnoload, hcount⟩ := noLoadShown_shows (c := c) (s := windowShown c x w s)
  rw [addWindow_of_noLoad hn h]
  exact ⟨onlyRegs_windowShown.trans (onlyRegs_noLoadShown.mono (by simp [windowRegs])), hnoload,
    hcount.trans (by rw [noloads_windowShown])⟩

/-- The window above the threshold: NOLOAD is clear and is not counted, and what the window adds follows. -/
theorem addWindow_load_shows (hn : w.n ≠ 0) (h : windowNoLoad x w = false) :
    (∃ u, OnlyRegs (windowRegs c) s u ∧ Accrues c ((windowAdds x w).map Prod.fst) u (addWindow c x w s))
      ∧ (addWindow c x w s).on (R.MTR_CHSTAT_NOLOAD c) = false
      ∧ (addWindow c x w s).get (R.MTR_CNT_NOLOAD c) = s.get (R.MTR_CNT_NOLOAD c) := by
  obtain ⟨-, -, hstat, hcnt⟩ := mem_windowRegs (c := c)
  rw [addWindow_of_load hn h]
  refine ⟨⟨_, onlyRegs_windowShown.flag (R.MTR_CHSTAT_NOLOAD c) false hstat, accrues_energiesAdded ..⟩,
    (congrArg (· == 1) (get_energiesAdded hstat)).trans (on_bit_self (by decide)), ?_⟩
  rw [get_energiesAdded hcnt, State.flag, get_put_ne _ _ _ _ (by simp [R.MTR_CNT_NOLOAD, R.MTR_CHSTAT_NOLOAD, R.MTR_CNT, R.MTR_CHSTAT]),
    noloads_windowShown]

/-- Every window of samples shows its current and its length, and is counted. -/
theorem get_addWindow (hn : w.n ≠ 0) {f : Field} (hf : f.addr = R.MTR_IRMS c ∨ f.addr = R.MTR_WLEN c ∨ f = R.MTR_CNT_WINDOWS c) :
    (addWindow c x w s).get f = (windowShown c x w s).get f := by
  have haddr : f.addr ≠ R.MTR_CHSTAT c := by
    rcases hf with h | h | rfl <;> simp [*, R.MTR_IRMS, R.MTR_WLEN, R.MTR_CNT_WINDOWS, R.MTR_CNT, R.MTR_CHSTAT]
  cases h : windowNoLoad x w with
  | true =>
    rw [addWindow_of_noLoad hn h]
    refine get_noLoadShown haddr ?_
    rcases hf with h | h | rfl
    · exact .inl (by simp [h, R.MTR_IRMS, R.MTR_CNT])
    · exact .inl (by simp [h, R.MTR_WLEN, R.MTR_CNT])
    · exact .inr (Nat.le_refl 16)
  | false =>
    obtain ⟨hirms, hwlen, -, hcnt⟩ := mem_windowRegs (c := c)
    rw [addWindow_of_load hn h, get_energiesAdded, State.flag, get_put_ne _ _ _ _ haddr]
    rcases hf with h | h | rfl
    · rwa [h]
    · rwa [h]
    · exact hcnt

/-- The test of R209 on the current that the window shows. -/
theorem windowNoLoad_iff (hn : w.n ≠ 0) : windowNoLoad x w = true ↔
    (524288 + (segment x ((addWindow c x w s).get (R.MTR_IRMS_I0 c))).2.1) ^ 2 * (w.vv * w.ii) * 3600 ^ 2
      < (((x.getD 3 0 % 65536 : Nat) : Int) * 25 * 2 ^ 97 * w.n) ^ 2 := by
  rw [get_addWindow hn (.inl rfl), i0_windowShown]
  exact noLoad_iff ..

end

/-! ### The obligation -/

/-- Settles O59: the inequality is `windowNoLoad`, which decides between a window that is only shown and one that adds energy. -/
theorem noLoadWindows : Obligations.NoLoadWindows := by
  refine fun c work w s _ hn => ⟨fun hbelow => ?below, fun habove => ?above⟩
  case below =>
    obtain ⟨⟨hrest, hregs⟩, hnoload, hcount⟩ :=
      addWindow_noLoad_shows (c := c) (s := s) hn ((windowNoLoad_iff hn).2 hbelow)
    have hmtr : (addWindow c work w s).mtr = s.mtr := by rw [hrest]
    have hacc := congrArg MtrSt.acc hmtr
    refine ⟨fun q => ⟨accOf_congr c hacc q, intReg_congr c hacc (mtrCh_congr (congrArg MtrSt.chans hmtr) c) q⟩, hmtr,
      fun q _ => hregs _ ?_, hnoload, hcount⟩
    simp only [windowRegs, List.mem_cons, List.not_mem_nil, or_false, R.MTR_VRMS, R.MTR_IRMS, R.MTR_WLEN, R.MTR_PAVG, R.MTR_QAVG,
      R.MTR_CHSTAT, R.MTR_CNT, R.MTR_IWRAP]
    omega
  case above =>
    obtain ⟨-, hnoload, hcount⟩ := addWindow_load_shows (c := c) (s := s) hn
      (Bool.eq_false_of_not_eq_true fun h => habove ((windowNoLoad_iff hn).1 h))
    exact ⟨hnoload, hcount⟩

end Sys2Proof.Machine
end

section
/-!
PROOFS of what a close of a window does: the channel, and the snapshot that the close meets (R205, R213, R215, R217).
-/
namespace Sys2Proof.Machine

/-- Nothing differs but channels, what a snapshot is asked for by, and the snapshots that are due. -/
structure OnlyCloses (s t : State) : Prop where
  eq : t = { s with mtr := { s.mtr with
    chans := t.mtr.chans, askBound := t.mtr.askBound, askNow := t.mtr.askNow, askClose := t.mtr.askClose, dues := t.mtr.dues } }

namespace OnlyCloses
variable {s t u : State}

theorem refl (s : State) : OnlyCloses s s := ⟨rfl⟩

theorem trans (h : OnlyCloses s t) (k : OnlyCloses t u) : OnlyCloses s u :=
  ⟨k.eq.trans (congrArg (fun x : State => { x with mtr := { x.mtr with
    chans := u.mtr.chans, askBound := u.mtr.askBound, askNow := u.mtr.askNow, askClose := u.mtr.askClose, dues := u.mtr.dues } }) h.eq)⟩

theorem setMtrCh (h : OnlyCloses s t) (c : Nat) (x : MtrCh) : OnlyCloses s (setMtrCh t c x) := h.trans ⟨rfl⟩

theorem regs (h : OnlyCloses s t) : t.regs = s.regs := by rw [h.eq]
theorem acc (h : OnlyCloses s t) : t.mtr.acc = s.mtr.acc := by rw [h.eq]
theorem event (h : OnlyCloses s t) : t.mtr.event = s.mtr.event := by rw [h.eq]
theorem spanZc (h : OnlyCloses s t) : t.mtr.spanZc = s.mtr.spanZc := by rw [h.eq]

theorem onlyMtr (h : OnlyCloses s t) (as : List Nat) : OnlyMtr as s t :=
  ⟨.of_regs (.refl as s) h.regs, h.eq.trans (by rw [h.eq])⟩

end OnlyCloses

/-! ### The snapshot that a close meets -/

/-- The snapshots due once a close has met what is asked: the closes of one event share a snapshot. -/
def duesMet (m : MtrSt) : List MtrDue :=
  let d : MtrDue := ⟨m.event, m.askNow || m.askClose, m.askClose⟩
  match m.dues.getLast? with
  | some e => if e.at_ = m.event then m.dues.dropLast ++ [⟨m.event, e.early || d.early, e.close || d.close⟩] else m.dues ++ [d]
  | none => [d]

theorem duesMet_of_nil {m : MtrSt} (h : m.dues = []) : duesMet m = [⟨m.event, m.askNow || m.askClose, m.askClose⟩] := by
  rw [duesMet, h]
  rfl

/-- The last snapshot due is one of this event, and carries what it was asked for by. -/
theorem last_duesMet (m : MtrSt) : ∃ d, (duesMet m).getLast? = some d ∧ d.at_ = m.event ∧ (m.askClose = true → d.close = true)
    ∧ ((m.askNow || m.askClose) = true → d.early = true) := by
  unfold duesMet
  split
  · next e _ =>
    split
    · exact ⟨_, List.getLast?_concat, rfl, fun h => by simp [h], fun h => by simp [h]⟩
    · exact ⟨_, List.getLast?_concat, rfl, id, id⟩
  · exact ⟨_, rfl, rfl, id, id⟩

section
variable {s : State}

/-- The asks are over, and their snapshot is due. -/
def askMet (s : State) : State :=
  { s with mtr := { s.mtr with askBound := false, askNow := false, askClose := false, dues := duesMet s.mtr } }

theorem meetAsk_of_asked (h : asked s = true) : meetAsk s = askMet s := if_pos h

theorem meetAsk_of_not_asked (h : asked s = false) : meetAsk s = s := if_neg (ne_true_of_eq_false h)

/-- Nothing is asked behind a close. -/
theorem asked_meetAsk (s : State) : asked (meetAsk s) = false := by
  cases h : asked s with
  | true => rw [meetAsk_of_asked h]; rfl
  | false => rw [meetAsk_of_not_asked h, h]

theorem mtrCh_meetAsk (s : State) (m : Nat) : mtrCh (meetAsk s) m = mtrCh s m := keeps_ite (mtrCh · m) rfl rfl

theorem onlyCloses_meetAsk (s : State) : OnlyCloses s (meetAsk s) := by
  cases h : asked s with
  | true => rw [meetAsk_of_asked h]; exact ⟨rfl⟩
  | false => rw [meetAsk_of_not_asked h]; exact .refl s

end

/-! ### The window closes -/

section
variable {c : Nat} {stop : Bool} {s : State}

/-- The words that a channel works from behind a close (R215). -/
def nextWork (c : Nat) (s : State) : List Nat := if s.on R.PAT_STAT_APPLYING then (mtrCh s c).work else sealWords s c

/-- The channel behind the close of its window. -/
def chanClosed (c : Nat) (stop : Bool) (s : State) : MtrCh :=
  { mtrCh s c with
    work := nextWork c s, closed := (mtrCh s c).closed ++ [⟨(mtrCh s c).win, (mtrCh s c).work, s.mtr.event⟩], win := MtrWin.zero,
    run := !stop && tb ((nextWork c s).getD 0 0) 31 }

/-- A channel that meters on, or that is stopped, asks for no snapshot of its own. -/
theorem closeWindow_of_live (h : (tb ((nextWork c s).getD 0 0) 31 || stop) = true) :
    closeWindow c stop s = meetAsk (setMtrCh s c (chanClosed c stop s)) := by
  have hlive : (!stop && tb ((nextWork c s).getD 0 0) 31 || stop) = true := by
    rw [← h]; cases stop <;> simp
  exact congrArg meetAsk (if_pos hlive)

theorem closeWindow_of_dead (h : (tb ((nextWork c s).getD 0 0) 31 || stop) = false) :
    ∃ u, closeWindow c stop s = meetAsk u ∧ OnlyCloses s u ∧ u.mtr.chans = (setMtrCh s c (chanClosed c stop s)).mtr.chans := by
  have hdead : ¬ (!stop && tb ((nextWork c s).getD 0 0) 31 || stop) = true := by
    cases stop <;> simp_all
  exact ⟨_, congrArg meetAsk (if_neg hdead), (OnlyCloses.refl s).setMtrCh c (chanClosed c stop s) |>.trans ⟨rfl⟩, rfl⟩

theorem closeWindow_eq (c : Nat) (stop : Bool) (s : State) :
    ∃ u, closeWindow c stop s = meetAsk u ∧ OnlyCloses s u ∧ u.mtr.chans = (setMtrCh s c (chanClosed c stop s)).mtr.chans := by
  cases h : (tb ((nextWork c s).getD 0 0) 31 || stop) with
  | true => exact ⟨_, closeWindow_of_live h, (OnlyCloses.refl s).setMtrCh c _, rfl⟩
  | false => exact closeWindow_of_dead h

theorem onlyCloses_closeWindow (c : Nat) (stop : Bool) (s : State) : OnlyCloses s (closeWindow c stop s) := by
  obtain ⟨u, heq, hu, -⟩ := closeWindow_eq c stop s
  rw [heq]
  exact hu.trans (onlyCloses_meetAsk u)

theorem mtrCh_closeWindow (c : Nat) (stop : Bool) (s : State) : mtrCh (closeWindow c stop s) c = chanClosed c stop s := by
  obtain ⟨u, heq, -, hchans⟩ := closeWindow_eq c stop s
  rw [heq, mtrCh_meetAsk, mtrCh_congr hchans, mtrCh_setMtrCh]

theorem mtrCh_closeWindow_ne (stop : Bool) (s : State) {m : Nat} (h : m ≠ c) : mtrCh (closeWindow c stop s) m = mtrCh s m := by
  obtain ⟨u, heq, -, hchans⟩ := closeWindow_eq c stop s
  rw [heq, mtrCh_meetAsk, mtrCh_congr hchans, mtrCh_setMtrCh_ne _ _ _ h]

theorem asked_closeWindow (c : Nat) (stop : Bool) (s : State) : asked (closeWindow c stop s) = false := by
  obtain ⟨u, heq, -, -⟩ := closeWindow_eq c stop s
  rw [heq, asked_meetAsk]

/-- The snapshots due behind the close of a channel that meters on, or that is stopped. -/
theorem dues_closeWindow (h : (tb ((nextWork c s).getD 0 0) 31 || stop) = true) :
    (closeWindow c stop s).mtr.dues = if asked s = true then duesMet s.mtr else s.mtr.dues := by
  rw [closeWindow_of_live h]
  split <;> rename_i hasked
  · exact congrArg (·.mtr.dues) (meetAsk_of_asked (s := setMtrCh s c _) hasked)
  · exact congrArg (·.mtr.dues) (meetAsk_of_not_asked (s := setMtrCh s c _) (Bool.eq_false_of_not_eq_true hasked))

end

/-! ### Metering stops (R214, R217) -/

section
variable (s : State)

/-- The closing snapshot is asked for, in a closing event of its own. -/
def closingAsked (s : State) : State := { newEvent s with mtr := { (newEvent s).mtr with askClose := true } }

theorem stopMetering_eq : stopMetering s =
    forL [0, 1, 2, 3] (fun c a => if (mtrCh a c).run then closeWindow c true a else a) (closingAsked s) := rfl

/-- No channel has closed yet, or the closing snapshot is due. -/
def ClosingDue (s a : State) : Prop :=
  (a.mtr.askClose = true ∧ a.mtr.dues = s.mtr.dues ∧ ∀ c, mtrCh a c = mtrCh s c)
    ∨ (asked a = false ∧ (s.mtr.dues = [] → a.mtr.dues = [⟨s.mtr.event + 1, true, true⟩]))

variable {s} {u : State}

theorem mtrCh_closingAsked (h : u.mtr = s.mtr) (c : Nat) : mtrCh (closingAsked u) c = mtrCh s c :=
  mtrCh_congr (show u.mtr.chans = s.mtr.chans by rw [h]) c

theorem closingDue_closingAsked (h : u.mtr = s.mtr) : ClosingDue s (closingAsked u) :=
  .inl ⟨rfl, show u.mtr.dues = s.mtr.dues by rw [h], mtrCh_closingAsked h⟩

theorem event_of_closingAsked {a : State} (h : u.mtr = s.mtr) (honly : OnlyCloses (closingAsked u) a) :
    a.mtr.event = s.mtr.event + 1 := by
  rw [honly.event, ← h]
  rfl

/-- The first close meets the closing snapshot, and the others find nothing asked. -/
theorem ClosingDue.closeWindow {a : State} (h : ClosingDue s a) (hevent : a.mtr.event = s.mtr.event + 1) (c : Nat) :
    ClosingDue s (closeWindow c true a) := by
  refine .inr ⟨asked_closeWindow c true a, fun hnil => ?_⟩
  rw [dues_closeWindow (by simp)]
  rcases h with ⟨hclose, hdues, -⟩ | ⟨hasked, hdues⟩
  · rw [if_pos (by simp [asked, hclose]), duesMet_of_nil (hdues.trans hnil), hclose, Bool.or_true, hevent]
  · rw [if_neg (by simp [hasked]), hdues hnil]

/-- Each channel closes its window where it metered. -/
theorem stopMetering_shows (h : u.mtr = s.mtr) : OnlyCloses (closingAsked u) (stopMetering u) ∧ ClosingDue s (stopMetering u)
    ∧ ∀ c, c < 4 → (mtrCh (stopMetering u) c).run = false ∧ (mtrCh (stopMetering u) c).closed = (mtrCh s c).closed
      ++ (if (mtrCh s c).run then [⟨(mtrCh s c).win, (mtrCh s c).work, s.mtr.event + 1⟩] else []) := by
  rw [stopMetering_eq]
  obtain ⟨⟨honly, hdue⟩, -, hown⟩ := forL_ownRounds (view := mtrCh) (P := fun a => OnlyCloses (closingAsked u) a ∧ ClosingDue s a)
    (f := fun c a => if (mtrCh a c).run then closeWindow c true a else a) (s := closingAsked u) (l := [0, 1, 2, 3]) (by decide)
    ⟨.refl _, closingDue_closingAsked h⟩ fun k _ a ha _ => by
      split
      · exact ⟨⟨ha.1.trans (onlyCloses_closeWindow k true a), ha.2.closeWindow (event_of_closingAsked h ha.1) k⟩,
          fun m hm => mtrCh_closeWindow_ne true a hm⟩
      · exact ⟨ha, fun _ _ => rfl⟩
  refine ⟨honly, hdue, fun c hc => ?_⟩
  obtain ⟨a, ⟨ha, -⟩, hview, hfinal⟩ := hown c (mem_channels.2 hc)
  have hsame : mtrCh a c = mtrCh s c := hview.trans (mtrCh_closingAsked h c)
  rw [hfinal]
  split <;> rename_i hrun
  · rw [mtrCh_closeWindow, if_pos (hsame ▸ hrun), chanClosed, hsame, event_of_closingAsked h ha]
    exact ⟨rfl, rfl⟩
  · rw [hsame] at hrun ⊢
    rw [if_neg hrun, List.append_nil]
    exact ⟨Bool.eq_false_of_not_eq_true hrun, rfl⟩

/-- Where no channel meters, the ask alone stands. -/
theorem stopMetering_of_idle (h : ∀ c, c < 4 → (mtrCh u c).run = false) : stopMetering u = closingAsked u :=
  (stopMetering_eq u).trans <| forL_invariant (P := fun a => a = closingAsked u) rfl fun c hc a ha => by
    subst ha
    exact if_neg (ne_true_of_eq_false (h c (mem_channels.1 hc)))

end

end Sys2Proof.Machine
end

section
/-!
PROOFS of what the host's writes of MTR_CTL and of the SEAL fields do (R210–R217).
-/
namespace Sys2Proof.Machine

/-! ### The interval registers are cleared (R212) -/

/-- The wraps of the interval registers of channel `c`. -/
def wrapRegs (c : Nat) : List Nat := (List.range 7).map (R.MTR_IWRAP c)

theorem wrapReg_mem {c q : Nat} (hq : q < 7) : R.MTR_IWRAP c q ∈ wrapRegs c := List.mem_map_of_mem (List.mem_range.2 hq)

/-- Nothing differs but the wraps of channel `c` and the values at its last clear. -/
structure ClearsInterval (c : Nat) (s t : State) : Prop where
  only : OnlyMtr (wrapRegs c) s t
  acc : t.mtr.acc = s.mtr.acc
  others : ∀ m, m ≠ c → mtrCh t m = mtrCh s m
  own : mtrCh t c = { mtrCh s c with aclr := (mtrCh t c).aclr }

/-- A_clr and the wraps of one interval register. -/
def intervalView (c : Nat) (s : State) (q : Nat) : Nat × Word := (tget (fun _ => 0) (mtrCh s c).aclr q, s.word (R.MTR_IWRAP c q))

/-- One interval register is cleared. -/
def quantityCleared (c q : Nat) (s : State) : State :=
  (setMtrCh s c { mtrCh s c with aclr := tset (fun _ => 0) (mtrCh s c).aclr q (accOf s c q) }).setWord (R.MTR_IWRAP c q) 0

theorem clearInterval_eq (c : Nat) (s : State) : clearInterval c s = forL (List.range 7) (quantityCleared c) s := rfl

section
variable {c q : Nat} {s t u : State}

theorem ClearsInterval.refl (c : Nat) (s : State) : ClearsInterval c s s := ⟨.refl _ s, rfl, fun _ _ => rfl, rfl⟩

theorem mtrCh_quantityCleared : mtrCh (quantityCleared c q s) c =
    { mtrCh s c with aclr := tset (fun _ => 0) (mtrCh s c).aclr q (accOf s c q) } := mtrCh_setMtrCh s c _

theorem ClearsInterval.quantityCleared (h : ClearsInterval c s t) (hq : q < 7) : ClearsInterval c s (quantityCleared c q t) where
  only := (h.only.setMtr _).setWord (R.MTR_IWRAP c q) 0 (wrapReg_mem hq)
  acc := h.acc
  others m hm := (mtrCh_setMtrCh_ne t c _ hm).trans (h.others m hm)
  own := by rw [mtrCh_quantityCleared, h.own]

theorem intervalView_quantityCleared : intervalView c (quantityCleared c q s) q = (accOf s c q, 0) := by
  rw [intervalView, mtrCh_quantityCleared]
  exact Prod.ext (tget_tset_self ..) (word_setWord ..)

theorem intervalView_quantityCleared_ne {m : Nat} (h : m ≠ q) :
    intervalView c (quantityCleared c q s) m = intervalView c s m := by
  rw [intervalView, mtrCh_quantityCleared]
  exact Prod.ext (tget_tset_ne _ _ _ h) (word_setWord_ne _ _ _ _ (by simp only [R.MTR_IWRAP]; omega))

/-- A_clr takes the accumulators, so that the interval registers read 0. -/
theorem clearInterval_clears (c : Nat) (s : State) : ClearsInterval c s (clearInterval c s)
    ∧ ∀ q, q < 7 → intReg (clearInterval c s) c q = 0 ∧ (clearInterval c s).word (R.MTR_IWRAP c q) = 0 := by
  rw [clearInterval_eq]
  obtain ⟨hclears, -, hown⟩ := forL_ownRounds (view := intervalView c) (P := ClearsInterval c s) (f := quantityCleared c)
    List.nodup_range (.refl c s) fun q hq a ha _ =>
      ⟨ha.quantityCleared (List.mem_range.1 hq), fun _ hm => intervalView_quantityCleared_ne hm⟩
  refine ⟨hclears, fun q hq => ?_⟩
  obtain ⟨a, ha, -, hfinal⟩ := hown q (List.mem_range.2 hq)
  rw [intervalView_quantityCleared, accOf_congr c ha.acc q, intervalView, Prod.mk.injEq] at hfinal
  refine ⟨?_, hfinal.2⟩
  rw [intReg, intCount, accOf_congr c hclears.acc q, hfinal.1, Nat.sub_self]
  rfl

end

/-! ### A word of MTR_CTL -/

theorem mtrCtlWord_toNat (chs : BitVec 4) (now en : Bool) :
    (mtrCtlWord chs now en).toNat = 2 ^ 8 * chs.toNat + (bit now * 2 + bit en) := by
  have := chs.isLt
  have := bit_lt now
  have := bit_lt en
  rw [mtrCtlWord, BitVec.toNat_ofNat]
  omega

theorem en_mtrCtlWord (chs : BitVec 4) (now en : Bool) : tb (mtrCtlWord chs now en).toNat 0 = en := by
  rw [mtrCtlWord_toNat, tb, Bool.eq_iff_iff, beq_iff_eq]
  cases en <;> simp only [bit_true, bit_false, reduceCtorEq, iff_false, iff_true] <;> omega

theorem now_mtrCtlWord (chs : BitVec 4) (now en : Bool) : tb (mtrCtlWord chs now en).toNat 1 = now := by
  have := bit_lt en
  rw [mtrCtlWord_toNat, tb, Bool.eq_iff_iff, beq_iff_eq]
  cases now <;> simp only [bit_true, bit_false, reduceCtorEq, iff_false, iff_true] <;> omega

theorem iclr_mtrCtlWord (chs : BitVec 4) (now en : Bool) (c : Nat) :
    tb (mtrCtlWord chs now en).toNat (8 + c) = chs.getLsbD c := by
  have := bit_lt now
  have := bit_lt en
  rw [tb_eq_testBit, mtrCtlWord_toNat, Nat.testBit_two_pow_mul_add _ (by omega), if_neg (by omega), Nat.add_sub_cancel_left]
  rfl

/-- The interval registers of the channels of `chs` are cleared. -/
def intervalsCleared (chs : BitVec 4) (s : State) : State :=
  forL [0, 1, 2, 3] (fun c a => if chs.getLsbD c then clearInterval c a else a) s

section
variable {chs : BitVec 4} {now en : Bool} {s : State} {p : Nat}

theorem intervalsCleared_none (s : State) : intervalsCleared 0 s = s := by
  simp only [intervalsCleared, BitVec.ofNat_eq_ofNat, BitVec.getLsbD_zero, Bool.false_eq_true, if_false]
  rfl

/-- NOW asks for a snapshot. -/
def nowAsked (s : State) : State := { s with mtr := { s.mtr with askNow := true } }

/-- EN raised starts metering at the time of the RTC (R217). -/
def meteringStarted (s : State) : State :=
  { s.flag R.MTR_CTL_EN true with mtr := { s.mtr with started := rtcMs s } }

theorem writeMtrCtl_word (chs : BitVec 4) (now en : Bool) (s : State) : writeMtrCtl (mtrCtlWord chs now en) s =
    let u := if now then nowAsked (intervalsCleared chs s) else intervalsCleared chs s
    if en && !u.on R.MTR_CTL_EN then meteringStarted u
    else if !en && u.on R.MTR_CTL_EN then stopMetering (u.flag R.MTR_CTL_EN false) else u := by
  simp only [writeMtrCtl, en_mtrCtlWord, now_mtrCtlWord, iclr_mtrCtlWord]
  rfl

theorem writeMtrCtl_of_kept (h : (intervalsCleared chs s).on R.MTR_CTL_EN = en) (now : Bool) :
    writeMtrCtl (mtrCtlWord chs now en) s = if now then nowAsked (intervalsCleared chs s) else intervalsCleared chs s := by
  have hen : (if now then nowAsked (intervalsCleared chs s) else intervalsCleared chs s).on R.MTR_CTL_EN = en :=
    keeps_ite (·.on R.MTR_CTL_EN) h h
  rw [writeMtrCtl_word]
  simp only [hen, Bool.and_not_self, Bool.not_and_self, Bool.false_eq_true, if_false]

theorem writeMtrCtl_of_rise (h : s.on R.MTR_CTL_EN = false) : writeMtrCtl (mtrCtlWord 0 false true) s = meteringStarted s := by
  simp only [writeMtrCtl_word, intervalsCleared_none, Bool.false_eq_true, if_false, h, Bool.not_false, Bool.and_self, if_true]

theorem writeMtrCtl_of_fall (h : s.on R.MTR_CTL_EN = true) :
    writeMtrCtl (mtrCtlWord 0 false false) s = stopMetering (s.flag R.MTR_CTL_EN false) := by
  simp only [writeMtrCtl_word, intervalsCleared_none, Bool.false_eq_true, if_false, h, Bool.not_false, Bool.and_self, if_true,
    Bool.false_and]

/-! ### ICLR -/

/-- The channel and the wraps of its seven interval registers. -/
def channelView (s : State) (c : Nat) : MtrCh × (Fin 7 → Word) := (mtrCh s c, fun q => s.word (R.MTR_IWRAP c q))

theorem channelView_eq_iff {c : Nat} {t : State} : channelView t c = channelView s c ↔
    mtrCh t c = mtrCh s c ∧ ∀ q, q < 7 → t.word (R.MTR_IWRAP c q) = s.word (R.MTR_IWRAP c q) := by
  rw [channelView, channelView, Prod.mk.injEq, funext_iff, Fin.forall_iff]

/-- The wraps of another channel lie elsewhere. -/
theorem ClearsInterval.channelView {c m : Nat} {t : State} (h : ClearsInterval c s t) (hm : m ≠ c) :
    channelView t m = channelView s m := by
  refine channelView_eq_iff.2 ⟨h.others m hm, fun q hq => h.only.regs _ fun hmem => ?_⟩
  obtain ⟨k, hk, heq⟩ := List.mem_map.1 hmem
  have := List.mem_range.1 hk
  simp only [R.MTR_IWRAP] at heq
  omega

/-- Nothing differs but wraps and channels. -/
theorem intervalsCleared_shows (chs : BitVec 4) (s : State) :
    (OnlyMtr ([0, 1, 2, 3].flatMap wrapRegs) s (intervalsCleared chs s)
      ∧ (intervalsCleared chs s).mtr.acc = s.mtr.acc)
    ∧ ∀ c, c < 4 →
      (chs.getLsbD c = true → (∀ q, q < 7 → intReg (intervalsCleared chs s) c q = 0
          ∧ (intervalsCleared chs s).word (R.MTR_IWRAP c q) = 0)
        ∧ (mtrCh (intervalsCleared chs s) c).win = (mtrCh s c).win)
      ∧ (chs.getLsbD c = false → mtrCh (intervalsCleared chs s) c = mtrCh s c
        ∧ ∀ q, q < 7 → (intervalsCleared chs s).word (R.MTR_IWRAP c q) = s.word (R.MTR_IWRAP c q)) := by
  unfold intervalsCleared
  obtain ⟨hframe, -, hown⟩ := forL_ownRounds (view := channelView)
    (P := fun a => OnlyMtr ([0, 1, 2, 3].flatMap wrapRegs) s a ∧ a.mtr.acc = s.mtr.acc)
    (f := fun c a => if chs.getLsbD c then clearInterval c a else a) (s := s) (l := [0, 1, 2, 3]) (by decide)
    ⟨.refl _ s, rfl⟩ fun k hk a ha _ => by
      split
      · obtain ⟨hclears, -⟩ := clearInterval_clears k a
        exact ⟨⟨ha.1.trans (hclears.only.mono fun _ hr => List.mem_flatMap.2 ⟨k, hk, hr⟩), hclears.acc.trans ha.2⟩,
          fun m hm => hclears.channelView hm⟩
      · exact ⟨ha, fun _ _ => rfl⟩
  refine ⟨hframe, fun c hc => ?_⟩
  obtain ⟨a, ⟨-, hacc⟩, hview, hfinal⟩ := hown c (mem_channels.2 hc)
  generalize forL [0, 1, 2, 3] (fun c a => if chs.getLsbD c then clearInterval c a else a) s = t at hframe hfinal ⊢
  obtain ⟨hsame, -⟩ := channelView_eq_iff.1 hview
  refine ⟨fun hset => ?_, fun hclear => ?_⟩
  · rw [if_pos hset] at hfinal
    obtain ⟨hclears, hzero⟩ := clearInterval_clears c a
    obtain ⟨hch, hwraps⟩ := channelView_eq_iff.1 hfinal
    have hint : ∀ q, intReg t c q = intReg (clearInterval c a) c q :=
      intReg_congr c (hframe.2.trans (hclears.acc.trans hacc).symm) hch
    exact ⟨fun q hq => ⟨(hint q).trans (hzero q hq).1, (hwraps q hq).trans (hzero q hq).2⟩, by rw [hch, hclears.own, hsame]⟩
  · rw [if_neg (ne_true_of_eq_false hclear)] at hfinal
    exact channelView_eq_iff.1 (hfinal.trans hview)

theorem notMem_wraps {a : Nat} (ha : a < 0x0A10C4) : a ∉ [0, 1, 2, 3].flatMap wrapRegs := fun h => by
  obtain ⟨c, -, hmem⟩ := List.mem_flatMap.1 h
  obtain ⟨q, -, rfl⟩ := List.mem_map.1 hmem
  simp only [R.MTR_IWRAP] at ha
  omega

/-! ### The commands at MTR_CTL -/

theorem exec_mtrIclr_of_accepts (h : Accepts s p R.MTR_CTL) (chs : BitVec 4) :
    exec (.mtrIclr chs p (s.on R.MTR_CTL_EN)) s = .next (intervalsCleared chs (endRun p s)) := by
  refine congrArg Host.Outcome.next ((guarded_accepts s p _ _ _ h).trans (writeMtrCtl_of_kept ?_ false))
  obtain ⟨⟨honly, -⟩, -⟩ := intervalsCleared_shows chs (endRun p s)
  exact honly.regs.on (notMem_wraps (by decide))

theorem exec_mtrNow_of_accepts (h : Accepts s p R.MTR_CTL) :
    exec (.mtrNow p (s.on R.MTR_CTL_EN)) s = .next (nowAsked (endRun p s)) := by
  refine congrArg Host.Outcome.next ((guarded_accepts s p _ _ _ h).trans ((writeMtrCtl_of_kept ?_ true).trans ?_))
  · rw [intervalsCleared_none, endRun_on]
  · rw [intervalsCleared_none, if_pos rfl]

theorem exec_mtrEnWrite_of_rise (h : Accepts s p R.MTR_CTL) (hoff : s.on R.MTR_CTL_EN = false) :
    exec (.mtrEnWrite p true) s = .next (meteringStarted (endRun p s)) :=
  congrArg Host.Outcome.next ((guarded_accepts s p _ _ _ h).trans (writeMtrCtl_of_rise hoff))

theorem exec_mtrEnWrite_of_fall (h : Accepts s p R.MTR_CTL) (hon : s.on R.MTR_CTL_EN = true) :
    exec (.mtrEnWrite p false) s = .next (stopMetering ((endRun p s).flag R.MTR_CTL_EN false)) :=
  congrArg Host.Outcome.next ((guarded_accepts s p _ _ _ h).trans (writeMtrCtl_of_fall hon))

/-- MTR_CTL with EN lowered, before metering stops. -/
theorem meteringOff_shows (p : Nat) (s : State) :
    OnlyMtr [R.MTR_CTL] (endRun p s) ((endRun p s).flag R.MTR_CTL_EN false)
      ∧ ((endRun p s).flag R.MTR_CTL_EN false).on R.MTR_CTL_EN = false
      ∧ ((endRun p s).flag R.MTR_CTL_EN false).mtr = s.mtr :=
  ⟨(OnlyMtr.refl _ _).flag R.MTR_CTL_EN false (List.mem_singleton_self _),
    on_flag (endRun p s) R.MTR_CTL_EN false (by decide) rfl, flag_mtr ..⟩

end

/-! ### The SEAL fields (R216) -/

section
variable {a : BitVec 16} {d : PortWrite} {s : State}

theorem exec_mtrSealFieldWrite_of_accepts (h : Accepts s d.port (0x0A0000 + a.toNat)) :
    exec (.mtrSealFieldWrite a d) s = .next (if sealAddr (0x0A0000 + a.toNat)
      then writeSeal (0x0A0000 + a.toNat) d.data (endRun d.port s) else endRun d.port s) :=
  congrArg Host.Outcome.next (guarded_accepts s d.port _ d.data _ h)

/-- MTR_STAT is no SEAL register. -/
theorem ne_mtrStat_of_sealAddr {ad : Nat} (h : sealAddr ad = true) : ad ≠ R.MTR_STAT := by
  rintro rfl
  exact absurd h (by decide)

end

/-! ### The obligation -/

/-- Settles O40: a word at MTR_CTL comes out as `intervalsCleared`, `nowAsked`, `meteringStarted` or `stopMetering`, one at a SEAL
field as a plain write with CALDIRTY. -/
theorem meterWrites : Obligations.MeterWrites := by
  refine ⟨fun p s hacc => ⟨fun chs => ?iclr, ?now, fun hoff => ?raised, fun hon => ?lowered⟩,
    fun a d s hacc => ⟨fun hseal hsealed => ?sealed, fun hseal hopen r hr => ?written, fun hnone => ?elsewhere⟩⟩
  case iclr =>
    obtain ⟨⟨honly, hkept⟩, hchans⟩ := intervalsCleared_shows chs (endRun p s)
    exact ⟨_, exec_mtrIclr_of_accepts hacc chs, honly.rest, honly.regs.of_endRun, hkept, hchans⟩
  case now => exact exec_mtrNow_of_accepts hacc
  case raised =>
    refine ⟨_, exec_mtrEnWrite_of_rise hacc hoff, ?_, ?_, ?_⟩
    · rfl
    · exact ((RegsOutside.refl _ (endRun p s)).flag R.MTR_CTL_EN true (List.mem_singleton_self _)).of_endRun
    · exact on_flag (endRun p s) R.MTR_CTL_EN true (by decide) rfl
  case lowered =>
    obtain ⟨hu, hoff, hmtr⟩ := meteringOff_shows p s
    have hexec := exec_mtrEnWrite_of_fall hacc hon
    generalize (endRun p s).flag R.MTR_CTL_EN false = u at hu hoff hmtr hexec
    obtain ⟨honly, hdue, hchans⟩ := stopMetering_shows hmtr
    have hframe : OnlyMtr [R.MTR_CTL] (endRun p s) (stopMetering u) := (hu.setMtr _).trans (honly.onlyMtr _)
    refine ⟨_, hexec, hframe.rest, hframe.regs.of_endRun, (on_congr honly.regs _).trans hoff,
      honly.acc.trans (show u.mtr.acc = s.mtr.acc by rw [hmtr]), fun hidle => ?_, fun ⟨c, hc, hrun⟩ hnil => ?_, hchans⟩
    · rw [stopMetering_of_idle fun c hc => by rw [mtrCh_congr (s := s) (by rw [hmtr]), hidle c hc]]
      exact ⟨rfl, show u.mtr.dues = s.mtr.dues by rw [hmtr]⟩
    · rcases hdue with ⟨-, -, hsame⟩ | ⟨hasked, hdues⟩
      · exact absurd ((congrArg MtrCh.run (hsame c)).trans hrun) (ne_true_of_eq_false (hchans c hc).1)
      · exact ⟨hasked, hdues hnil⟩
  case sealed =>
    exact (exec_mtrSealFieldWrite_of_accepts hacc).trans (congrArg _ ((if_pos hseal).trans (if_pos hsealed)))
  case written =>
    have hplain := (PortRegs.refl d.port [0x0A0000 + a.toNat, R.MTR_STAT] s).plainWrite d.data (List.mem_cons_self ..)
    refine ⟨_, (exec_mtrSealFieldWrite_of_accepts hacc).trans (congrArg _ ((if_pos hseal).trans (if_neg hopen))),
      hplain.flag R.MTR_STAT_CALDIRTY true (by simp [R.MTR_STAT_CALDIRTY]), on_bit_self (by decide), ?_⟩
    rw [word_flag_ne _ _ _ _ (ne_mtrStat_of_sealAddr hseal), plainWrite_of_some _ _ _ _ hr, word_setWord]
    rfl
  case elsewhere =>
    rw [exec_mtrSealFieldWrite_of_accepts hacc, if_neg (ne_true_of_eq_false hnone)]

end Sys2Proof.Machine
end

section
/-!
PROOFS of what a sample, an accepted crossing and a crossing timeout do to a channel (R204–R207).
-/
namespace Sys2Proof.Machine

section
variable {c : Nat} {v i : Int} {s : State}

/-- The channel with one more sample in its open window. -/
def sampledCh (v i : Int) (x : MtrCh) : MtrCh :=
  let xv := v * (x.work.getD 1 0 : Int)
  let xi := (if tb x.cfg 29 then -i else i) * (x.work.getD 2 0 : Int)
  let f := Config.realFn 40 [x.filt, xv]
  let vq := if x.isDc then 0 else f
  { x with
    win := ⟨x.win.n + 1, x.win.vv + xv * xv, x.win.ii + xi * xi, x.win.vi + xv * xi, x.win.qi + vq * xi⟩, filt := f,
    since := x.since + 1, armed := x.armed || decide (v * 1200 < -(x.cfg % 256 : Nat) * 8388608) }

theorem addSample_eq (c : Nat) (v i : Int) (s : State) : addSample c v i s = setMtrCh s c (sampledCh v i (mtrCh s c)) := rfl

/-- The spacing from an accepted crossing is counted afresh, and the channel is to be armed again (R205). -/
def MtrCh.afterCrossing (x : MtrCh) : MtrCh := { x with armed := false, crossed := true, since := 0 }

def restartSpacing (c : Nat) (s : State) : State := setMtrCh s c (mtrCh s c).afterCrossing

theorem regs_restartSpacing (c : Nat) (s : State) : (restartSpacing c s).regs = s.regs := rfl
theorem asked_restartSpacing (c : Nat) (s : State) : asked (restartSpacing c s) = asked s := rfl
theorem dues_restartSpacing (c : Nat) (s : State) : (restartSpacing c s).mtr.dues = s.mtr.dues := rfl

theorem OnlyMtr.restartSpacing {as : List Nat} {t : State} (h : OnlyMtr as s t) (c : Nat) : OnlyMtr as s (restartSpacing c t) :=
  h.setMtr _

/-- A crossing ends a fallback and closes the window before it (R205, R206). -/
def crossingTaken (c : Nat) (s : State) : State :=
  restartSpacing c (closeWindow c false (s.flag (R.MTR_CHSTAT_ZCTO c) false))

/-- A sample is taken, and fills a window of 640 of a DC or fallback channel (R205, R206). -/
def sampleTaken (c : Nat) (v i : Int) (s : State) : State :=
  let t := addSample c v i s
  if ((mtrCh t c).isDc || t.on (R.MTR_CHSTAT_ZCTO c)) && decide (640 ≤ (mtrCh t c).win.n) then closeWindow c false t else t

/-- Is a sample an accepted crossing (R205)? -/
def acceptsCrossing (c : Nat) (v : Int) (s : State) : Bool :=
  !(mtrCh s c).isDc && (mtrCh s c).armed && decide (0 ≤ v)
    && (s.on (R.MTR_CHSTAT_ZCTO c) || !(mtrCh s c).crossed || decide (384 ≤ (mtrCh s c).since))

theorem sampleTaken_of_short (h : (mtrCh s c).win.n + 1 < 640) :
    sampleTaken c v i s = setMtrCh s c (sampledCh v i (mtrCh s c)) := by
  have hn : (mtrCh (addSample c v i s) c).win.n = (mtrCh s c).win.n + 1 := by rw [addSample_eq, mtrCh_setMtrCh]; rfl
  exact if_neg (by simp only [hn, Bool.and_eq_true, decide_eq_true_eq]; omega)

/-- A channel that is not enabled takes no sample. -/
theorem sampleChannel_of_off (hrun : (mtrCh s c).run = false) (hoff : s.on (R.MTR_CHCFG_CHEN c) = false) :
    sampleChannel c v i s = s := by
  simp only [sampleChannel, hrun, hoff, Bool.false_and, Bool.false_eq_true, if_false, Bool.not_false, if_true]

theorem sampleChannel_of_inside (hrun : (mtrCh s c).run = true) (h : acceptsCrossing c v s = false) :
    sampleChannel c v i s = sampleTaken c v i s := by
  rw [acceptsCrossing] at h
  simp only [sampleChannel, hrun, if_true, Bool.not_true, Bool.false_eq_true, if_false, h]
  rfl

theorem sampleChannel_of_crossing (hrun : (mtrCh s c).run = true) (h : acceptsCrossing c v s = true)
    (hlive : (mtrCh (crossingTaken c s) c).run = true) : sampleChannel c v i s = sampleTaken c v i (crossingTaken c s) := by
  rw [acceptsCrossing] at h
  rw [crossingTaken, restartSpacing, MtrCh.afterCrossing] at hlive
  simp only [sampleChannel, hrun, if_true, Bool.not_true, Bool.false_eq_true, if_false, h, hlive]
  rfl

end

/-! ### MTR_SAMPLE without a crossing -/

section
variable {xs : List (BitVec 24 × BitVec 24)} {s : State}

/-- The sample of one channel. -/
def sampleRound (xs : List (BitVec 24 × BitVec 24)) (c : Nat) (s : State) : State :=
  sampleChannel c (xs.getD c (0, 0)).1.toInt (xs.getD c (0, 0)).2.toInt s

theorem exec_mtrSample_of_runs (h : mtrRuns s = true) :
    exec (.mtrSample xs) s = .next (forL [0, 1, 2, 3] (sampleRound xs) (newEvent s)) := congrArg Host.Outcome.next (if_pos h)

/-- No sample is an accepted crossing or fills a window. -/
def Inside (xs : List (BitVec 24 × BitVec 24)) (s : State) (c : Nat) : Prop :=
  ((mtrCh s c).isDc = true ∨ (mtrCh s c).armed = false ∨ (xs.getD c (0, 0)).1.toInt < 0) ∧ (mtrCh s c).win.n + 1 < 640

theorem sampleRound_of_inside {c : Nat} (hrun : (mtrCh s c).run = true) (h : Inside xs s c) : sampleRound xs c s =
    setMtrCh s c (sampledCh (xs.getD c (0, 0)).1.toInt (xs.getD c (0, 0)).2.toInt (mtrCh s c)) := by
  obtain ⟨hno, hshort⟩ := h
  refine (sampleChannel_of_inside hrun ?_).trans (sampleTaken_of_short hshort)
  rcases hno with h | h | h
  · simp only [acceptsCrossing, h, Bool.not_true, Bool.false_and]
  · simp only [acceptsCrossing, h, Bool.and_false, Bool.false_and]
  · simp only [acceptsCrossing, not_le.2 h, decide_false, Bool.and_false, Bool.false_and]

/-- Each channel that meters has its sample in the open window, and nothing else differs. -/
theorem samples_inside (hinside : ∀ c, c < 4 → (mtrCh s c).run = true → Inside xs s c)
    (hoff : ∀ c, c < 4 → (mtrCh s c).run = false → s.on (R.MTR_CHCFG_CHEN c) = false) :
    ∃ t, forL [0, 1, 2, 3] (sampleRound xs) s = t ∧ t = { s with mtr := { s.mtr with chans := t.mtr.chans } }
      ∧ ∀ c, c < 4 → mtrCh t c = if (mtrCh s c).run then
          sampledCh (xs.getD c (0, 0)).1.toInt (xs.getD c (0, 0)).2.toInt (mtrCh s c) else mtrCh s c := by
  have hround : ∀ c a, c < 4 → a = { s with mtr := { s.mtr with chans := a.mtr.chans } } → mtrCh a c = mtrCh s c →
      sampleRound xs c a = if (mtrCh s c).run then
        setMtrCh a c (sampledCh (xs.getD c (0, 0)).1.toInt (xs.getD c (0, 0)).2.toInt (mtrCh s c)) else a := fun c a hc ha hsame => by
    split <;> rename_i hrun
    · rw [← hsame] at hrun ⊢
      refine sampleRound_of_inside hrun ?_
      rw [Inside, hsame]
      exact hinside c hc (hsame ▸ hrun)
    · have hidle := Bool.eq_false_of_not_eq_true hrun
      have hregs : a.regs = s.regs := by rw [ha]
      exact sampleChannel_of_off (by rw [hsame, hidle]) ((on_congr hregs _).trans (hoff c hc hidle))
  obtain ⟨hframe, -, hown⟩ := forL_ownRounds (view := mtrCh) (f := sampleRound xs) (s := s) (l := [0, 1, 2, 3])
    (P := fun a => a = { s with mtr := { s.mtr with chans := a.mtr.chans } }) (by decide) rfl fun k hk a ha hsame => by
      rw [hround k a (mem_channels.1 hk) ha hsame]
      split
      · exact ⟨by rw [setMtrCh, ha], fun m hm => mtrCh_setMtrCh_ne a k _ hm⟩
      · exact ⟨ha, fun _ _ => rfl⟩
  refine ⟨_, rfl, hframe, fun c hc => ?_⟩
  obtain ⟨a, ha, hsame, hfinal⟩ := hown c (mem_channels.2 hc)
  rw [hfinal, hround c a hc ha hsame]
  split
  · exact mtrCh_setMtrCh ..
  · exact hsame

end

/-! ### An accepted crossing -/

section
variable {c : Nat} {v i : Int} {s : State}

/-- What ZCTO shows is not among the words of a working copy, which an enabled channel takes anew. -/
theorem nextWork_zctoClear (happly : s.on R.PAT_STAT_APPLYING = false) :
    nextWork c (s.flag (R.MTR_CHSTAT_ZCTO c) false) = sealWords s c := by
  have hframe : RegsOutside [R.MTR_CHSTAT c, R.MTR_CNT c] s (s.flag (R.MTR_CHSTAT_ZCTO c) false) :=
    (RegsOutside.refl _ s).flag _ _ (by simp [R.MTR_CHSTAT_ZCTO])
  have hstat : R.PAT_STAT ∉ [R.MTR_CHSTAT c, R.MTR_CNT c] := by
    simp only [R.PAT_STAT, R.MTR_CHSTAT, R.MTR_CNT, List.mem_cons, List.not_mem_nil, or_false]
    omega
  rw [nextWork, if_neg (by rw [hframe.on hstat, happly]; decide), sealWords_congr c hframe]

theorem mtrCh_crossingTaken (c : Nat) (s : State) : mtrCh (crossingTaken c s) c =
    (chanClosed c false (s.flag (R.MTR_CHSTAT_ZCTO c) false)).afterCrossing := by
  rw [crossingTaken, restartSpacing, mtrCh_setMtrCh, mtrCh_closeWindow]

/-- The close at a crossing of an enabled channel. -/
theorem crossingTaken_shows (happly : s.on R.PAT_STAT_APPLYING = false) (hen : s.on (R.MTR_CHCFG_CHEN c) = true) :
    mtrCh (crossingTaken c s) c = { mtrCh s c with
        run := true, work := sealWords s c, closed := (mtrCh s c).closed ++ [⟨(mtrCh s c).win, (mtrCh s c).work, s.mtr.event⟩],
        win := MtrWin.zero, armed := false, crossed := true, since := 0 }
      ∧ (∀ m, m ≠ c → mtrCh (crossingTaken c s) m = mtrCh s m)
      ∧ OnlyMtr [R.MTR_CHSTAT c] s (crossingTaken c s) ∧ (crossingTaken c s).on (R.MTR_CHSTAT_ZCTO c) = false
      ∧ asked (crossingTaken c s) = false
      ∧ (crossingTaken c s).mtr.dues = if asked s = true then duesMet s.mtr else s.mtr.dues := by
  have hmtr : (s.flag (R.MTR_CHSTAT_ZCTO c) false).mtr = s.mtr := flag_mtr ..
  have hzcto : (s.flag (R.MTR_CHSTAT_ZCTO c) false).on (R.MTR_CHSTAT_ZCTO c) = false := on_bit_self (by decide)
  have hframe : OnlyMtr [R.MTR_CHSTAT c] s (s.flag (R.MTR_CHSTAT_ZCTO c) false) :=
    (OnlyMtr.refl _ s).flag (R.MTR_CHSTAT_ZCTO c) false (List.mem_singleton_self _)
  have hch := mtrCh_crossingTaken c s
  have hlive : tb ((sealWords s c).getD 0 0) 31 = true := (chen_sealWords c).trans hen
  have hwork := nextWork_zctoClear (c := c) happly
  rw [crossingTaken] at hch ⊢
  generalize s.flag (R.MTR_CHSTAT_ZCTO c) false = u at hmtr hzcto hframe hwork hch ⊢
  have hsame : ∀ m, mtrCh u m = mtrCh s m := mtrCh_congr (by rw [hmtr])
  have hcloses := onlyCloses_closeWindow c false u
  refine ⟨?_, fun m hm => ?_, (hframe.trans (hcloses.onlyMtr _)).restartSpacing c,
    (on_congr ((regs_restartSpacing ..).trans hcloses.regs) _).trans hzcto,
    (asked_restartSpacing ..).trans (asked_closeWindow c false u), ?_⟩
  · rw [hch, chanClosed, hwork, hsame, hmtr, hlive]
    rfl
  · rw [restartSpacing, mtrCh_setMtrCh_ne _ _ _ hm, mtrCh_closeWindow_ne _ _ hm, hsame]
  · have hasked : asked u = asked s := by rw [asked, asked, hmtr]
    rw [dues_restartSpacing, dues_closeWindow (by rw [hwork, hlive]; rfl), hasked, hmtr]

/-- A sample at or above 0 does not arm. -/
theorem armed_sampledCh {x : MtrCh} (hv : 0 ≤ v) (hx : x.armed = false) : (sampledCh v i x).armed = false := by
  have : ¬ v * 1200 < -(x.cfg % 256 : Nat) * 8388608 := by omega
  exact (congrArg (· || _) hx).trans (by simpa using this)

end

end Sys2Proof.Machine
end

section
/-!
PROOFS of what a window that is added changes, and of the snapshots (R210, R213, R214, R217–R220, R223).
-/
namespace Sys2Proof.Machine

/-! ### Every window that is added -/

/-- What a window adds: the registers that show it, then energy, never to both directions. -/
structure WindowAdded (c : Nat) (s t : State) : Prop where
  only : OnlyMtr (windowRegs c ++ wrapRegs c) s t
  mtr : t.mtr = { s.mtr with acc := t.mtr.acc }
  grows : ∀ k q, accOf s k q ≤ accOf t k q
  others : ∀ k q, q < 8 → k ≠ c → accOf t k q = accOf s k q
  oneWay : accOf t c 0 = accOf s c 0 ∨ accOf t c 1 = accOf s c 1

section
variable {c : Nat} {x : List Nat} {w : MtrWin} {s t u : State}

theorem WindowAdded.of_onlyRegs (h : OnlyRegs (windowRegs c) s t) : WindowAdded c s t := by
  have hmtr : t.mtr = s.mtr := by rw [h.1]
  have hacc : ∀ k q, accOf t k q = accOf s k q := fun k => accOf_congr k (by rw [hmtr])
  exact ⟨(OnlyMtr.of_onlyRegs h).mono (List.subset_append_left ..), by rw [hmtr], fun k q => (hacc k q).ge, fun k q _ _ => hacc k q,
    .inl (hacc c 0)⟩

/-- Energy of one direction, one quadrant and apparent energy, behind the registers that show the window. -/
theorem WindowAdded.of_accrues {p q : Nat} (hp : p < 2) (hq : q < 4) (h : OnlyRegs (windowRegs c) s u)
    (k : Accrues c [p, 2 + q, 6] u t) : WindowAdded c s t := by
  have hmtr : u.mtr = s.mtr := by rw [h.1]
  have hacc : ∀ k q, accOf u k q = accOf s k q := fun k => accOf_congr k (by rw [hmtr])
  have hwraps : [p, 2 + q, 6].map (R.MTR_IWRAP c) ⊆ wrapRegs c := List.map_subset _ fun m hm => by
    simp only [List.mem_cons, List.not_mem_nil, or_false] at hm
    exact List.mem_range.2 (by omega)
  have happart : ∀ m n, (8 * m + n ≠ 8 * c + p ∧ 8 * m + n ≠ 8 * c + (2 + q) ∧ 8 * m + n ≠ 8 * c + 6) →
      accOf t m n = accOf s m n := fun m n hne => (k.apart m n (by simpa using hne)).trans (hacc m n)
  refine ⟨((OnlyMtr.of_onlyRegs h).mono (List.subset_append_left ..)).trans
    ((k.onlyMtr.mono hwraps).mono (List.subset_append_right ..)), by rw [k.mtr, hmtr], fun m n => hacc m n ▸ k.grows m n,
    fun m n hn hm => happart m n (by omega), ?_⟩
  by_cases hzero : p = 0
  · exact .inr (happart c 1 (by omega))
  · exact .inl (happart c 0 (by omega))

theorem windowAdded_addWindow (c : Nat) (x : List Nat) (w : MtrWin) (s : State) : WindowAdded c s (addWindow c x w s) := by
  by_cases hn : w.n = 0
  · rw [addWindow_of_empty hn]
    exact .of_onlyRegs (.refl _ s)
  cases h : windowNoLoad x w with
  | true => exact .of_onlyRegs (addWindow_noLoad_shows hn h).1
  | false =>
    obtain ⟨u, hu, haccrues⟩ := (addWindow_load_shows (c := c) (s := s) hn h).1
    obtain ⟨p, q, hqs, hp, hq⟩ := quantities_windowAdds x w
    exact .of_accrues hp hq hu (hqs ▸ haccrues)

/-- NOLOAD tells which windows have added nothing. -/
theorem addWindow_of_noLoadShown (hn : w.n ≠ 0) (h : (addWindow c x w s).on (R.MTR_CHSTAT_NOLOAD c) = true) :
    (addWindow c x w s).mtr.acc = s.mtr.acc
      ∧ (addWindow c x w s).get (R.MTR_CNT_NOLOAD c) = (s.get (R.MTR_CNT_NOLOAD c) + 1) % 256 := by
  cases hload : windowNoLoad x w with
  | true =>
    obtain ⟨⟨hrest, -⟩, -, hcount⟩ := addWindow_noLoad_shows (c := c) (s := s) hn hload
    exact ⟨by rw [hrest], hcount⟩
  | false =>
    obtain ⟨-, hnoload, -⟩ := addWindow_load_shows (c := c) (s := s) hn hload
    exact absurd h (ne_true_of_eq_false hnoload)

end

/-! ### MTR_WINDOW_UPDATE (R210, R214) -/

section
variable {c : Nat} {w : MtrShut} {tl : List MtrShut} {s : State}

theorem askMeterSign_of_none (h : ∀ k, k < 16 → (ringSlot s k).st ≠ 1) : askMeterSign s = s := by
  have hnone : (List.range 16).filter (fun k => (ringSlot s k).st == 1) = [] :=
    List.filter_eq_nil_iff.2 fun k hk => by simpa using h k (List.mem_range.1 hk)
  refine if_neg fun hasks => ?_
  rw [hnone] at hasks
  exact absurd hasks.2 (Nat.not_lt_zero _)

/-- The channel's list of closed windows is `tl`. -/
def withClosed (c : Nat) (tl : List MtrShut) (s : State) : State := setMtrCh s c { mtrCh s c with closed := tl }

/-- The first window of a channel's list has been added, and the retained copy has followed. -/
def windowTaken (c : Nat) (w : MtrShut) (tl : List MtrShut) (s : State) : State := takeWindow c w (withClosed c tl s)

theorem regs_withClosed : (withClosed c tl s).regs = s.regs := rfl
theorem acc_withClosed : (withClosed c tl s).mtr.acc = s.mtr.acc := rfl
theorem onlyMtr_withClosed (as : List Nat) : OnlyMtr as s (withClosed c tl s) := (OnlyMtr.refl as s).setMtr _

theorem regs_takeWindow : (takeWindow c w s).regs = (addWindow c w.work w.win s).regs := rfl
theorem acc_takeWindow : (takeWindow c w s).mtr.acc = (addWindow c w.work w.win s).mtr.acc := rfl
theorem kept_takeWindow : (takeWindow c w s).mtr.kept = (takeWindow c w s).mtr.acc := rfl

/-- Behind the window, the retained copy is the running one. -/
def keptFollows (s : State) : State := { s with mtr := { s.mtr with kept := s.mtr.acc } }

theorem OnlyMtr.keptFollows {as : List Nat} {t : State} (h : OnlyMtr as s t) : OnlyMtr as s (keptFollows t) := h.setMtr _

theorem takeWindow_eq : takeWindow c w s = keptFollows (addWindow c w.work w.win s) := rfl

theorem mtr_keptFollows : (keptFollows s).mtr = { s.mtr with kept := s.mtr.acc } := rfl

theorem onlyMtr_windowTaken : OnlyMtr (windowRegs c ++ wrapRegs c) s (windowTaken c w tl s) := by
  rw [windowTaken, takeWindow_eq]
  exact ((onlyMtr_withClosed _).trans (windowAdded_addWindow ..).only).keptFollows

theorem mtr_windowTaken : (windowTaken c w tl s).mtr = { (withClosed c tl s).mtr with
    acc := (addWindow c w.work w.win (withClosed c tl s)).mtr.acc,
    kept := (addWindow c w.work w.win (withClosed c tl s)).mtr.acc } := by
  have hmtr := (windowAdded_addWindow c w.work w.win (withClosed c tl s)).mtr
  rw [windowTaken, takeWindow_eq, mtr_keptFollows]
  generalize (addWindow c w.work w.win (withClosed c tl s)).mtr = m at hmtr ⊢
  rw [hmtr]

theorem mtrCh_windowTaken : mtrCh (windowTaken c w tl s) c = { mtrCh s c with closed := tl } := by
  rw [mtrCh_congr (s := withClosed c tl s) (by rw [mtr_windowTaken]), withClosed, mtrCh_setMtrCh]

theorem mtrCh_windowTaken_ne {m : Nat} (h : m ≠ c) : mtrCh (windowTaken c w tl s) m = mtrCh s m := by
  rw [mtrCh_congr (s := withClosed c tl s) (by rw [mtr_windowTaken]), withClosed, mtrCh_setMtrCh_ne _ _ _ h]

theorem dues_windowTaken : (windowTaken c w tl s).mtr.dues = s.mtr.dues := by
  rw [mtr_windowTaken]
  rfl

theorem ringSlot_windowTaken (k : Nat) : ringSlot (windowTaken c w tl s) k = ringSlot s k := by
  rw [ringSlot, mtr_windowTaken]
  rfl

theorem get_windowTaken (f : Field) : (windowTaken c w tl s).get f = (addWindow c w.work w.win (withClosed c tl s)).get f :=
  get_congr regs_takeWindow f

theorem accOf_windowTaken (k q : Nat) :
    accOf (windowTaken c w tl s) k q = accOf (addWindow c w.work w.win (withClosed c tl s)) k q :=
  accOf_congr k acc_takeWindow q

/-- The energies of the window, against the state before it. -/
theorem windowTaken_adds : (∀ k q, accOf s k q ≤ accOf (windowTaken c w tl s) k q)
    ∧ (∀ k q, q < 8 → k ≠ c → accOf (windowTaken c w tl s) k q = accOf s k q)
    ∧ (accOf (windowTaken c w tl s) c 0 = accOf s c 0 ∨ accOf (windowTaken c w tl s) c 1 = accOf s c 1) := by
  obtain ⟨-, -, hgrows, hothers, honeWay⟩ := windowAdded_addWindow c w.work w.win (withClosed c tl s)
  have hbefore : ∀ k q, accOf (withClosed c tl s) k q = accOf s k q := fun k => accOf_congr k acc_withClosed
  simp only [hbefore] at hgrows hothers honeWay
  simp only [accOf_windowTaken]
  exact ⟨hgrows, hothers, honeWay⟩

/-- A window without a sample adds and shows nothing. -/
theorem windowTaken_of_empty (h : w.win.n = 0) :
    (windowTaken c w tl s).mtr.acc = s.mtr.acc ∧ (windowTaken c w tl s).regs = s.regs := by
  rw [windowTaken, acc_takeWindow, regs_takeWindow, addWindow_of_empty h]
  exact ⟨acc_withClosed, regs_withClosed⟩

/-- A window of samples shows its length and is counted; where NOLOAD shows behind it, it has added nothing and is counted so. -/
theorem windowTaken_of_samples (hn : w.win.n ≠ 0) :
    (windowTaken c w tl s).get (R.MTR_WLEN_N c) = w.win.n % 2 ^ (R.MTR_WLEN_N c).wd
      ∧ (windowTaken c w tl s).get (R.MTR_CNT_WINDOWS c) = (s.get (R.MTR_CNT_WINDOWS c) + 1) % 2 ^ 16
      ∧ ((windowTaken c w tl s).on (R.MTR_CHSTAT_NOLOAD c) = true → (windowTaken c w tl s).mtr.acc = s.mtr.acc
        ∧ (windowTaken c w tl s).get (R.MTR_CNT_NOLOAD c) = (s.get (R.MTR_CNT_NOLOAD c) + 1) % 256) := by
  have hbefore : ∀ f, (withClosed c tl s).get f = s.get f := get_congr regs_withClosed
  refine ⟨?_, ?_, fun hon => ?_⟩
  · rw [get_windowTaken, get_addWindow hn (.inr (.inl rfl)), length_windowShown]
  · rw [get_windowTaken, get_addWindow hn (.inr (.inr rfl)), windows_windowShown, hbefore]
  · obtain ⟨hacc, hcount⟩ := addWindow_of_noLoadShown hn ((on_congr regs_takeWindow _).symm.trans hon)
    exact ⟨acc_takeWindow.trans hacc, by rw [get_windowTaken, hcount, hbefore]⟩

theorem exec_mtrWindowUpdate_of_closed {ch : Fin 4} (h : (mtrCh s ch).closed = w :: tl) (hring : ∀ k, k < 16 → (ringSlot s k).st ≠ 1) :
    exec (.mtrWindowUpdate ch false) s = .next (takeDues (windowTaken ch w tl s)) := by
  have hnone : askMeterSign (windowTaken ch w tl s) = windowTaken ch w tl s := askMeterSign_of_none fun k hk => by
    rw [ringSlot_windowTaken]
    exact hring k hk
  refine congrArg Host.Outcome.next ?_
  simp only [h, Bool.false_eq_true, if_false]
  exact congrArg takeDues hnone

end

/-! ### Snapshots (R213, R217–R220) -/

section
variable {d : MtrDue} {s : State}

theorem takeDues_of_nil (h : s.mtr.dues = []) : takeDues s = s := by
  have hsame : ({ s with mtr := { s.mtr with dues := [] } } : State) = s := by rw [← h]
  simp only [takeDues, h, List.filter_nil]
  exact hsame

/-- A snapshot is ready where no closed window waits. -/
theorem dueReady_of_added (h : ∀ c, c < 4 → (mtrCh s c).closed = []) : dueReady s d = true :=
  List.all_eq_true.2 fun c hc => by rw [h c (mem_channels.1 hc), List.all_nil]

theorem takeDues_of_single (h : s.mtr.dues = [d]) (hready : dueReady s d = true) :
    takeDues s = snapshot d { s with mtr := { s.mtr with dues := [] } } := by
  simp only [takeDues, h, List.filter_cons, hready, if_true, Bool.not_true, Bool.false_eq_true, if_false, List.filter_nil]
  rfl

/-- The slot of the next record is PENDING, or a body waits for it. -/
def slotTaken (s : State) : Bool :=
  decide ((ringSlot s ((s.mtr.rcnt + 1) % 16)).st = 1 ∨ s.mtr.drafts.any (fun e => e.1 % 16 == (s.mtr.rcnt + 1) % 16) = true)

/-- A snapshot that is skipped is counted, and leaves a gap. -/
def snapshotSkipped (s : State) : State := { s.inc R.MTR_RSTAT_SKIPCNT with mtr := { s.mtr with gap := true } }

theorem snapshot_of_taken (h : slotTaken s = true) : snapshot d s = snapshotSkipped s := if_pos (of_decide_eq_true h)

theorem snapshotSkipped_shows (s : State) :
    snapshotSkipped s = { s with regs := (snapshotSkipped s).regs, mtr := { s.mtr with gap := true } }
      ∧ (snapshotSkipped s).get R.MTR_RSTAT_SKIPCNT = (s.get R.MTR_RSTAT_SKIPCNT + 1) % 256
      ∧ RegsOutside [R.MTR_RSTAT] s (snapshotSkipped s) := by
  have hregs : (snapshotSkipped s).regs = (s.inc R.MTR_RSTAT_SKIPCNT).regs := rfl
  have hframe : OnlyMtr [R.MTR_RSTAT] s (snapshotSkipped s) :=
    ((OnlyMtr.refl _ s).inc R.MTR_RSTAT_SKIPCNT (List.mem_singleton_self _)).setMtr { s.mtr with gap := true }
  exact ⟨hframe.eq_of rfl, (get_congr hregs _).trans (get_inc s R.MTR_RSTAT_SKIPCNT (by decide)),
    hframe.regs⟩

/-- The next record is drafted, and its accumulators are kept for the mirror. -/
def recordDrafted (d : MtrDue) (s : State) : State :=
  { s with mtr := { s.mtr with
    rcnt := s.mtr.rcnt + 1, drafts := s.mtr.drafts ++ [(s.mtr.rcnt + 1, recordBody d s (s.mtr.rcnt + 1))], tEnd := some (rtcMs s),
    spanZc := mapBits 4 0 (fun c => s.on (R.MTR_CHSTAT_ZCTO c)), integ := false, restart := false, restored := false, gap := false,
    shot := s.mtr.acc.vals } }

theorem snapshot_of_free (h : slotTaken s = false) :
    snapshot d s = addMirror (addMirror (recordDrafted d s) .recordCount) .meter := if_neg (of_decide_eq_false h)

theorem mem_mirrors_addMirror {l : Mirror} {m : Mirror} (h : l ∈ s.mirrors) : l ∈ (addMirror s m).mirrors := by
  unfold addMirror
  split
  · exact h
  · exact List.mem_append_left _ h

/-- A record is drafted where its slot is free, and its mirror writes are pending. -/
theorem snapshot_of_free_shows (h : slotTaken s = false) : (snapshot d s).mtr = (recordDrafted d s).mtr
    ∧ (snapshot d s).regs = s.regs ∧ Mirror.recordCount ∈ (snapshot d s).mirrors ∧ Mirror.meter ∈ (snapshot d s).mirrors := by
  rw [snapshot_of_free h]
  exact ⟨by rw [addMirror_mtr, addMirror_mtr], by rw [addMirror_regs, addMirror_regs]; rfl,
    mem_mirrors_addMirror (mem_addMirror _ _), mem_addMirror _ _⟩

end

/-! ### The crossing timeout (R206) -/

section
variable {ch : Fin 4} {s : State}

/-- The fallback is shown and counted. -/
def timeoutShown (c : Nat) (s : State) : State := ((newEvent s).flag (R.MTR_CHSTAT_ZCTO c) true).inc (R.MTR_CNT_ZCTOCNT c)

/-- The span of the next record has seen a fallback of channel `c`. -/
def spanMarked (c : Nat) (s : State) : State := { s with mtr := { s.mtr with spanZc := s.mtr.spanZc ||| 2 ^ c } }

/-- The window closes, and the span is marked. -/
def timeoutTaken (c : Nat) (s : State) : State := spanMarked c (closeWindow c false (timeoutShown c s))

/-- Has t_zto passed without a crossing on a channel that waits for one? -/
def crossingLate (c : Nat) (s : State) : Bool :=
  mtrRuns s && (mtrCh s c).run && !(mtrCh s c).isDc && !s.on (R.MTR_CHSTAT_ZCTO c) && decide (1920 ≤ (mtrCh s c).since)

theorem exec_mtrZcTimeout_of_early (h : crossingLate ch s = false) : exec (.mtrZcTimeout ch) s = .next s :=
  congrArg Host.Outcome.next (if_neg (ne_true_of_eq_false h))

theorem exec_mtrZcTimeout_of_late (h : crossingLate ch s = true) : exec (.mtrZcTimeout ch) s = .next (timeoutTaken ch s) :=
  congrArg Host.Outcome.next (if_pos h)

end

section
variable {c : Nat} {s : State}

theorem timeoutShown_shows (c : Nat) (s : State) : OnlyMtr [R.MTR_CHSTAT c, R.MTR_CNT c] s (timeoutShown c s)
    ∧ (timeoutShown c s).mtr = (newEvent s).mtr ∧ (timeoutShown c s).on (R.MTR_CHSTAT_ZCTO c) = true
    ∧ (timeoutShown c s).get (R.MTR_CNT_ZCTOCNT c) = (s.get (R.MTR_CNT_ZCTOCNT c) + 1) % 256 := by
  have hne : R.MTR_CNT c ≠ R.MTR_CHSTAT c := by simp [R.MTR_CNT, R.MTR_CHSTAT]
  refine ⟨(((OnlyMtr.refl _ s).setMtr _).flag (R.MTR_CHSTAT_ZCTO c) true (List.mem_cons_self ..)).inc (R.MTR_CNT_ZCTOCNT c)
    (List.mem_cons_of_mem _ (List.mem_singleton_self _)), rfl, ?_, ?_⟩
  · exact (on_put_other _ _ _ _ (by decide : (31 : Nat) + 1 ≤ 32) (.inl hne.symm)).trans
      (on_flag (newEvent s) (R.MTR_CHSTAT_ZCTO c) true (by decide : (31 : Nat) + 1 ≤ 32) rfl)
  · rw [timeoutShown, get_inc _ _ (by decide : (24 : Nat) + 8 ≤ 32), State.flag, get_put_ne _ _ _ _ hne]
    rfl

theorem regs_spanMarked (c : Nat) (s : State) : (spanMarked c s).regs = s.regs := rfl
theorem OnlyMtr.spanMarked {as : List Nat} {t : State} (h : OnlyMtr as s t) (c : Nat) : OnlyMtr as s (spanMarked c t) :=
  h.setMtr _
theorem mtrCh_spanMarked (c : Nat) (s : State) (m : Nat) : mtrCh (spanMarked c s) m = mtrCh s m := rfl
theorem spanZc_spanMarked (c : Nat) (s : State) : (spanMarked c s).mtr.spanZc = s.mtr.spanZc ||| 2 ^ c := rfl

theorem timeoutTaken_shows (c : Nat) (s : State) : OnlyMtr [R.MTR_CHSTAT c, R.MTR_CNT c] s (timeoutTaken c s)
    ∧ (timeoutTaken c s).on (R.MTR_CHSTAT_ZCTO c) = true
    ∧ (timeoutTaken c s).get (R.MTR_CNT_ZCTOCNT c) = (s.get (R.MTR_CNT_ZCTOCNT c) + 1) % 256
    ∧ (mtrCh (timeoutTaken c s) c).closed
      = (mtrCh s c).closed ++ [⟨(mtrCh s c).win, (mtrCh s c).work, s.mtr.event + 1⟩]
    ∧ (timeoutTaken c s).mtr.spanZc = s.mtr.spanZc ||| 2 ^ c := by
  obtain ⟨hframe, hmtr, hzcto, hcount⟩ := timeoutShown_shows c s
  rw [timeoutTaken]
  generalize timeoutShown c s = u at hframe hmtr hzcto hcount ⊢
  have hcloses := onlyCloses_closeWindow c false u
  have hch := mtrCh_closeWindow c false u
  have hsame : mtrCh u c = mtrCh s c := mtrCh_congr (s := s) (by rw [hmtr]; rfl) c
  have hspan : (closeWindow c false u).mtr.spanZc = s.mtr.spanZc := by rw [hcloses.spanZc, hmtr]; rfl
  have hregs : (spanMarked c (closeWindow c false u)).regs = u.regs := (regs_spanMarked ..).trans hcloses.regs
  refine ⟨(hframe.trans (hcloses.onlyMtr _)).spanMarked c, (on_congr hregs _).trans hzcto, (get_congr hregs _).trans hcount, ?_,
    by rw [spanZc_spanMarked, hspan]⟩
  rw [mtrCh_spanMarked, hch, chanClosed, hsame, hmtr]
  rfl

end

/-! ### Integrity (R223) -/

theorem onlyRegs_intShown (cause : Nat) (s : State) : OnlyRegs [R.MTR_INTC] s (intShown cause s) :=
  ((OnlyRegs.refl _ s).put R.MTR_INTC_CAUSE cause (List.mem_singleton_self _)).inc R.MTR_INTC_COUNT (List.mem_singleton_self _)

theorem intShown_shows (cause : Nat) (s : State) : (intShown cause s).get R.MTR_INTC_CAUSE = cause % 256
    ∧ (intShown cause s).get R.MTR_INTC_COUNT = (s.get R.MTR_INTC_COUNT + 1) % 256 := by
  refine ⟨(get_put_apart _ _ _ _ (by decide) (by decide)).trans (get_put _ _ _ (by decide)), ?_⟩
  rw [intShown, get_inc _ _ (by decide), get_put_apart _ _ _ _ (by decide) (by decide)]
  rfl

/-! ### The obligation -/

/-- Settles O39: a sample is `sampleTaken`, behind `crossingTaken` at a crossing; a timeout is `timeoutTaken`; a window that is
added is `windowTaken`, and then come the snapshots that are ready, each `recordDrafted` or skipped. -/
theorem meterSamples : Obligations.MeterSamples := by
  refine ⟨?inside, ?crossing, ?timeout, ?window, ?snapshot, fun s hpart hdom => ?boundary, ?integrity⟩
  case inside =>
    intro xs s hruns v i hinside hoff
    obtain ⟨t, hloop, hframe, hchans⟩ := samples_inside (xs := xs) (s := newEvent s) hinside hoff
    refine ⟨t, (exec_mtrSample_of_runs hruns).trans (congrArg _ hloop), hframe, fun c hc => ⟨fun hidle => ?_, fun hrun => ?_⟩⟩
    · exact (hchans c hc).trans (if_neg (ne_true_of_eq_false hidle))
    · have hch : mtrCh t c = sampledCh (v c) (i c) (mtrCh s c) := (hchans c hc).trans (if_pos hrun)
      rw [hch]
      exact ⟨rfl, rfl, rfl, rfl⟩
  case crossing =>
    intro c v i s hc hrun hdc harmed hv hspaced happly hen
    obtain ⟨hch, hothers, hframe, hzcto, hasked, hdues⟩ := crossingTaken_shows happly hen
    have haccepts : acceptsCrossing c v s = true := by
      rcases hspaced with h | h | h <;> simp [acceptsCrossing, hdc, harmed, hv, h]
    have hsample := (sampleChannel_of_crossing (i := i) hrun haccepts (by rw [hch])).trans
      (sampleTaken_of_short (by rw [hch]; exact Nat.le_of_ble_eq_true rfl))
    generalize crossingTaken c s = u at hch hothers hframe hzcto hasked hdues hsample
    intro t
    have ht : t = setMtrCh u c (sampledCh v i (mtrCh u c)) := hsample
    clear_value t
    subst ht
    have hown := mtrCh_setMtrCh u c (sampledCh v i (mtrCh u c))
    rw [hch] at hown
    rw [hch, hown]
    refine ⟨rfl, rfl, rfl, armed_sampledCh hv rfl, rfl, (on_congr (setMtrCh_regs ..) _).trans hzcto,
      hframe.regs.of_regs (setMtrCh_regs ..), fun m hm => (mtrCh_setMtrCh_ne u c _ hm).trans (hothers m hm),
      fun hquiet => ?_, fun hasks => ⟨(asked_setMtrCh ..).trans hasked, ?_⟩⟩
    · exact (setMtrCh_dues ..).trans <| hdues.trans (if_neg (ne_true_of_eq_false hquiet))
    · obtain ⟨d, hlast, hat, hclose, hearly⟩ := last_duesMet s.mtr
      exact ⟨d, (congrArg List.getLast? ((setMtrCh_dues ..).trans (hdues.trans (if_pos hasks)))).trans hlast, hat, hclose, hearly⟩
  case timeout =>
    refine fun ch s hruns => ⟨fun hearly => exec_mtrZcTimeout_of_early ?_, fun hrun hdc hzcto hlate => ?_⟩
    · simp [crossingLate, Nat.not_le.2 hearly]
    · obtain ⟨hframe, hon, hcount, hclosed, hspan⟩ := timeoutTaken_shows ch s
      exact ⟨_, exec_mtrZcTimeout_of_late (by simp [crossingLate, hruns, hrun, hdc, hzcto, hlate]), hframe.regs, hframe.rest, hon,
        hcount, hclosed, hspan⟩
  case window =>
    refine fun ch w tl s hclosed hring => ⟨windowTaken ch w tl s, exec_mtrWindowUpdate_of_closed hclosed hring, fun hnil => ?_,
      fun d hdue htl hadded => ?_, congrArg MtrCh.closed mtrCh_windowTaken, kept_takeWindow, dues_windowTaken,
      onlyMtr_windowTaken.rest, onlyMtr_windowTaken.regs, windowTaken_of_empty, windowTaken_of_samples, windowTaken_adds⟩
    · rw [exec_mtrWindowUpdate_of_closed hclosed hring, takeDues_of_nil (dues_windowTaken.trans hnil)]
    · have hready : dueReady (windowTaken ch w tl s) d = true := dueReady_of_added fun c hc => by
        by_cases h : c = ch.val
        · rw [h, mtrCh_windowTaken, htl]
        · rw [mtrCh_windowTaken_ne h, hadded c hc h]
      rw [exec_mtrWindowUpdate_of_closed hclosed hring, takeDues_of_single (dues_windowTaken.trans hdue) hready]
  case snapshot =>
    refine fun d s => ⟨fun hpending => ?_, fun hfree hdrafts => ?_⟩
    · rw [snapshot_of_taken (by simp [slotTaken, hpending])]
      exact snapshotSkipped_shows s
    · obtain ⟨hmtr, hregs, hcount, hmeter⟩ := snapshot_of_free_shows (d := d) (s := s) (by
        simpa [slotTaken, hfree] using hdrafts)
      rw [hmtr]
      exact ⟨rfl, rfl, rfl, rfl, hregs, rfl, rfl, rfl, hcount, hmeter⟩
  case boundary => exact congrArg Host.Outcome.next (if_pos (by rw [hpart, hdom]; rfl))
  case integrity =>
    exact fun cause s => ⟨intShown cause s, rfl, onlyRegs_intShown cause s, intShown_shows cause s⟩

end Sys2Proof.Machine
end

section
/-!
PROOFS of the laws of the identity unit's operations: what the signing engine may touch, windows of words, byte orders, and a
request that is taken, signed or refused (R221, R280, R283, R285).
-/
namespace Sys2Proof.Machine

/-! ### What the signing engine may touch -/

/-- Nothing differs but registers of `as`, the identity unit's own state, and the free values that were drawn. -/
structure OnlySigner (as : List Nat) (s t : State) : Prop where
  regs : RegsOutside as s t
  rest : t = { s with regs := t.regs, idn := t.idn, freeCtr := t.freeCtr }

namespace OnlySigner
variable {as : List Nat} {s t u : State}

theorem refl (as : List Nat) (s : State) : OnlySigner as s s := ⟨.refl _ _, rfl⟩

theorem trans (h : OnlySigner as s t) (k : OnlySigner as t u) : OnlySigner as s u :=
  ⟨h.regs.trans k.regs,
    k.rest.trans (congrArg (fun x : State => { x with regs := u.regs, idn := u.idn, freeCtr := u.freeCtr }) h.rest)⟩

theorem mono {bs : List Nat} (h : OnlySigner as s t) (hsub : as ⊆ bs) : OnlySigner bs s t := ⟨h.regs.mono hsub, h.rest⟩

theorem of_onlyRegs (h : OnlyRegs as s t) : OnlySigner as s t := ⟨h.2, h.1.trans (by rw [h.1])⟩

theorem put (h : OnlySigner as s t) (f : Field) (v : Nat) (ha : f.addr ∈ as) : OnlySigner as s (t.put f v) :=
  h.trans (.of_onlyRegs ((OnlyRegs.refl as t).put f v ha))

theorem flag (h : OnlySigner as s t) (f : Field) (b : Bool) (ha : f.addr ∈ as) : OnlySigner as s (t.flag f b) := h.put _ _ ha

theorem inc (h : OnlySigner as s t) (f : Field) (ha : f.addr ∈ as) : OnlySigner as s (t.inc f) := h.put _ _ ha

theorem setIdn (h : OnlySigner as s t) (x : IdnSt) : OnlySigner as s { t with idn := x } := h.trans ⟨.refl as t, rfl⟩

theorem freeNext (h : OnlySigner as s t) : OnlySigner as s (freeNext t) := h.trans ⟨.refl as t, rfl⟩

theorem idnDone (h : OnlySigner as s t) (ha : R.IDN_STAT ∈ as) : OnlySigner as s (idnDone t) :=
  (h.flag R.IDN_STAT_BUSY false ha).flag R.IDN_STAT_DONE true ha

/-- With the unit's state named and no free value drawn, the frame as the statements write it. -/
theorem eq_of (h : OnlySigner as s t) {x : IdnSt} (hidn : t.idn = x) (hfree : t.freeCtr = s.freeCtr) :
    t = { s with regs := t.regs, idn := x } := by
  conv_lhs => rw [h.rest, hidn, hfree]

end OnlySigner

/-! ### Words of a window -/

/-- Words at addresses apart from one another read what was written to them. -/
theorem wordsWritten {addr : Nat → Nat} (hinj : Function.Injective addr) (val : Nat → Word) (n : Nat) (s : State) :
    OnlyRegs ((List.range n).map addr) s (forL (List.range n) (fun k a => a.setWord (addr k) (val k)) s)
      ∧ ∀ k, k < n → (forL (List.range n) (fun k a => a.setWord (addr k) (val k)) s).word (addr k) = val k := by
  obtain ⟨hframe, -, hown⟩ := forL_ownRounds (view := fun (a : State) k => a.word (addr k))
    (f := fun k a => a.setWord (addr k) (val k)) (P := OnlyRegs ((List.range n).map addr) s) List.nodup_range (.refl _ s)
    fun k hk a ha _ => ⟨ha.setWord _ _ (List.mem_map_of_mem hk), fun m hm => word_setWord_ne _ _ _ _ (hinj.ne hm)⟩
  refine ⟨hframe, fun k hk => ?_⟩
  obtain ⟨a, -, -, hfinal⟩ := hown k (List.mem_range.2 hk)
  exact hfinal.trans (word_setWord ..)

/-! ### Bytes -/

theorem length_leBytes (k n : Nat) : (leBytes k n).length = k := by
  induction k generalizing n with
  | zero => rfl
  | succ k ih => rw [leBytes, List.length_cons, ih]

theorem length_beBytes (k n : Nat) : (beBytes k n).length = k := by rw [beBytes, List.length_reverse, length_leBytes]

/-- The low bytes of a number, then those above. -/
theorem leBytes_add (j k n : Nat) : leBytes (j + k) n = leBytes j n ++ leBytes k (n / 256 ^ j) := by
  induction j generalizing n with
  | zero => rw [Nat.zero_add, pow_zero, Nat.div_one]; rfl
  | succ j ih => rw [Nat.succ_add, leBytes, leBytes, ih, Nat.div_div_eq_div_mul, ← pow_succ', List.cons_append]

theorem leNat_leBytes (k n : Nat) : leNat (leBytes k n) = n % 256 ^ k := by
  induction k generalizing n with
  | zero => rw [pow_zero, Nat.mod_one]; rfl
  | succ k ih =>
    rw [leBytes, leNat, ih, BitVec.toNat_ofNat, pow_succ' 256]
    exact Nat.mod_mul.symm

theorem beNat_reverse (bs : List Byte) : beNat bs.reverse = leNat bs := by
  rw [beNat, List.foldl_reverse]
  induction bs with
  | nil => rfl
  | cons b bs ih => rw [List.foldr_cons, ih, leNat, Nat.add_comm, Nat.mul_comm]

/-- Word `k` of a 256-bit number whose most significant byte stands first. -/
theorem hashWord_beBytes (n : Nat) {k : Nat} (hk : k < 8) :
    BitVec.ofNat 32 (beNat (slice (beBytes 32 n) (4 * k) 4)) = BitVec.ofNat 32 (n / 2 ^ (32 * (7 - k))) := by
  have hsplit : leBytes 32 n = leBytes (4 * (7 - k)) n ++ (leBytes 4 (n / 256 ^ (4 * (7 - k)))
      ++ leBytes (4 * k) (n / 256 ^ (4 * (7 - k)) / 256 ^ 4)) := by
    rw [← leBytes_add, ← leBytes_add]
    congr 1
    omega
  have hword : slice (beBytes 32 n) (4 * k) 4 = (leBytes 4 (n / 256 ^ (4 * (7 - k)))).reverse := by
    rw [slice, beBytes, hsplit, List.reverse_append, List.reverse_append, List.append_assoc,
      List.drop_left' (by rw [List.length_reverse, length_leBytes]), List.take_left' (by rw [List.length_reverse, length_leBytes])]
  have hpow : 256 ^ (4 * (7 - k)) = 2 ^ (32 * (7 - k)) := by
    rw [show (256 : Nat) = 2 ^ 8 from rfl, ← pow_mul, ← Nat.mul_assoc]
  rw [hword, beNat_reverse, leNat_leBytes, hpow]
  exact BitVec.eq_of_toNat_eq (by simp only [BitVec.toNat_ofNat]; exact Nat.mod_mod _ _)

/-- A word of the first of two byte strings, and of the second. -/
theorem leAt_append_left {xs : List Byte} (ys : List Byte) {o : Nat} (h : o + 4 ≤ xs.length) : leAt (xs ++ ys) o = leAt xs o := by
  rw [leAt, leAt, slice, slice, List.drop_append_of_le_length (by omega),
    List.take_append_of_le_length (by rw [List.length_drop]; omega)]

theorem leAt_append_right (xs ys : List Byte) (o : Nat) : leAt (xs ++ ys) (xs.length + o) = leAt ys o := by
  rw [leAt, leAt, slice, slice, List.drop_length_add_append]

/-! ### Signatures -/

theorem length_freeSignature (body : List Byte) (s : State) : (freeSignature body s).length = 64 := by
  rw [freeSignature, List.length_append, length_beBytes, length_beBytes]

/-- A signature is drawn from the free values alone. -/
theorem freeSignature_congr {s t : State} (h : t.freeCtr = s.freeCtr) (body : List Byte) : freeSignature body t = freeSignature body s := by
  simp only [freeSignature, h]

section
variable {s : State}

theorem idnDone_shows (s : State) : (idnDone s).on R.IDN_STAT_BUSY = false ∧ (idnDone s).on R.IDN_STAT_DONE = true
    ∧ (∀ f : Field, f.lo + f.wd ≤ 30 → (idnDone s).get f = s.get f) := by
  refine ⟨?_, on_flag _ _ _ (by decide) rfl, fun f hf => ?_⟩
  · rw [idnDone, on_flag_other _ _ _ _ (by decide) (by decide), on_flag _ _ _ (by decide) rfl]
  · rw [idnDone, get_flag_other _ _ _ _ (by omega) (.inr (.inl hf)),
      get_flag_other _ _ _ _ (by omega) (.inr (.inl (Nat.le_succ_of_le hf)))]

theorem word_idnDone (s : State) {a : Nat} (h : a ≠ R.IDN_STAT) : (idnDone s).word a = s.word a := by
  rw [idnDone, word_flag_ne _ _ _ _ h, word_flag_ne _ _ _ _ h]

theorem idnDone_idn (s : State) : (idnDone s).idn = s.idn := by rw [idnDone, flag_idn, flag_idn]
theorem idnDone_freeCtr (s : State) : (idnDone s).freeCtr = s.freeCtr := by rw [idnDone, flag_freeCtr, flag_freeCtr]

theorem syncSign_idn (s : State) : (syncSign s).idn = s.idn := put_idn ..
theorem syncSign_freeCtr (s : State) : (syncSign s).freeCtr = s.freeCtr := put_freeCtr ..

theorem OnlySigner.syncSign {as : List Nat} {t : State} (h : OnlySigner as s t) (ha : R.IDN_STAT ∈ as) :
    OnlySigner as s (syncSign t) := h.put _ _ ha

/-- QUEUE stands in bits 16 to 19 of IDN_STAT. -/
theorem get_syncSign_apart {f : Field} (hf : f.lo + f.wd ≤ 16 ∨ 20 ≤ f.lo ∧ f.lo + f.wd ≤ 32) : (syncSign s).get f = s.get f :=
  get_put_apart _ _ _ _ (by omega) (hf.imp_right And.left)

/-- The first request has left the queue. -/
def requestTaken (tl : List SignReq) (s : State) : State := syncSign { s with idn := { s.idn with queue := tl } }

theorem requestTaken_shows (tl : List SignReq) (s : State) : OnlySigner [R.IDN_STAT] s (requestTaken tl s)
    ∧ (requestTaken tl s).idn = { s.idn with queue := tl } ∧ (requestTaken tl s).freeCtr = s.freeCtr :=
  ⟨((OnlySigner.refl _ s).setIdn _).syncSign (List.mem_singleton_self _), syncSign_idn _, syncSign_freeCtr _⟩

theorem regs_countSignature (s : State) : (countSignature s).regs = (s.inc R.IDN_SIGCNT_CNT).regs := by
  rw [countSignature, freeNext_regs, freeNext_regs]

theorem freeCtr_freeNext (s : State) : (freeNext s).freeCtr = s.freeCtr + 1 := rfl

theorem countSignature_shows (s : State) : OnlySigner [R.IDN_SIGCNT] s (countSignature s)
    ∧ (countSignature s).idn = s.idn ∧ (countSignature s).freeCtr = s.freeCtr + 2
    ∧ (countSignature s).get R.IDN_SIGCNT_CNT = (s.get R.IDN_SIGCNT_CNT + 1) % 2 ^ 32 :=
  ⟨((OnlySigner.refl _ s).inc R.IDN_SIGCNT_CNT (List.mem_singleton_self _)).freeNext.freeNext,
    by rw [countSignature, freeNext_idn, freeNext_idn, inc_idn],
    by rw [countSignature, freeCtr_freeNext, freeCtr_freeNext, inc_freeCtr],
    (get_congr (regs_countSignature s) _).trans (get_inc s R.IDN_SIGCNT_CNT (by decide))⟩

/-! ### The report window (Table 14.7) -/

/-- The host's report with its signature is in the window, and the command is done. -/
def reportShown (body sig : List Byte) (s : State) : State := idnDone (putWindow (R.IDN_REPORT 0) (body ++ sig) s)

theorem report_inj : Function.Injective R.IDN_REPORT := fun a b h => by simp only [R.IDN_REPORT] at h; omega

theorem putWindow_report {bs : List Byte} (h : bs.length = 192) (s : State) : putWindow (R.IDN_REPORT 0) bs s =
    forL (List.range 48) (fun k a => a.setWord (R.IDN_REPORT k) (BitVec.ofNat 32 (leAt bs (4 * k)))) s := by
  have haddr : ∀ k, R.IDN_REPORT 0 + 4 * k = R.IDN_REPORT k := fun k => by simp only [R.IDN_REPORT]; omega
  simp only [putWindow, h, haddr]

theorem reportShown_shows {body sig : List Byte} (hbody : body.length = 128) (hsig : sig.length = 64) (s : State) :
    OnlySigner (R.IDN_STAT :: (List.range 48).map R.IDN_REPORT) s (reportShown body sig s)
      ∧ (reportShown body sig s).idn = s.idn ∧ (reportShown body sig s).freeCtr = s.freeCtr
      ∧ (reportShown body sig s).on R.IDN_STAT_BUSY = false ∧ (reportShown body sig s).on R.IDN_STAT_DONE = true
      ∧ (∀ k, k < 32 → (reportShown body sig s).word (R.IDN_REPORT k) = BitVec.ofNat 32 (leAt body (4 * k)))
      ∧ ∀ k, k < 16 → (reportShown body sig s).word (R.IDN_REPORT (32 + k)) = BitVec.ofNat 32 (leAt sig (4 * k)) := by
  obtain ⟨hframe, hwords⟩ := wordsWritten report_inj (fun k => BitVec.ofNat 32 (leAt (body ++ sig) (4 * k))) 48 s
  rw [reportShown, putWindow_report (by rw [List.length_append, hbody, hsig])]
  generalize forL (List.range 48) _ s = u at hframe hwords ⊢
  obtain ⟨hbusy, hdone, -⟩ := idnDone_shows u
  have hword : ∀ k, k < 48 → (idnDone u).word (R.IDN_REPORT k) = BitVec.ofNat 32 (leAt (body ++ sig) (4 * k)) := fun k hk => by
    have hne : R.IDN_REPORT k ≠ R.IDN_STAT := by simp only [R.IDN_REPORT, R.IDN_STAT]; omega
    rw [word_idnDone _ hne, hwords k hk]
  refine ⟨((OnlySigner.of_onlyRegs hframe).mono (List.subset_cons_self ..)).idnDone (List.mem_cons_self ..),
    by rw [idnDone_idn, hframe.1], by rw [idnDone_freeCtr, hframe.1], hbusy, hdone, fun k hk => ?_, fun k hk => ?_⟩
  · rw [hword k (by omega), leAt_append_left _ (by omega)]
  · rw [hword _ (by omega), show 4 * (32 + k) = body.length + 4 * k by omega, leAt_append_right]

end

end Sys2Proof.Machine
end

section
/-!
PROOFS of the identity unit's commands: ATTEST and FUSE_KEY, the ends of the key programming and of the checks after power-up, and
completed signatures (R221, R280, R282, R283, R285).
-/
namespace Sys2Proof.Machine

/-! ### IDN_CMD (Tables 14.8 and 14.9) -/

section
variable {c : PortCmd} {s : State} {code e : Nat}

theorem exec_attest_of_accepts (h : Accepts s c.port R.IDN_CMD) :
    exec (.attest c) s = .next (writeIdnCmd (ctlWord c 1) (endRun c.port s)) :=
  congrArg Host.Outcome.next (guarded_accepts s c.port _ _ _ h)

theorem exec_fuseKey_of_accepts (h : Accepts s c.port R.IDN_CMD) :
    exec (.fuseKey c) s = .next (writeIdnCmd (ctlWord c 2) (endRun c.port s)) :=
  congrArg Host.Outcome.next (guarded_accepts s c.port _ _ _ h)

/-- The end of a SNAP run is nothing to the judgement, the hash and the report. -/
theorem idnJudge_endRun (g : Bool) (p : Nat) : idnJudge g code (endRun p s) = idnJudge g code s := rfl
theorem stagedHash_endRun (p : Nat) : stagedHash (endRun p s) = stagedHash s := rfl
theorem reportBody_endRun (nonce : List Byte) (far : Bool) (p : Nat) : reportBody nonce far (endRun p s) = reportBody nonce far s := rfl
theorem hostNonce_endRun (p : Nat) : hostNonce (endRun p s) = hostNonce s := rfl

/-- A refused command shows its reason. -/
def idnRefused (e : Nat) (s : State) : State := (s.put R.IDN_STAT_ERR e).flag R.IDN_STAT_CMDERR true

/-- An accepted command is BUSY without a reason. -/
def idnBusy (s : State) : State := (s.put R.IDN_STAT_ERR 0).flag R.IDN_STAT_BUSY true

/-- The hash that the programming takes. -/
def hashKept (h : Nat) (s : State) : State := { s with idn := { s.idn with fusing := some h } }

theorem hashKept_regs (h : Nat) (s : State) : (hashKept h s).regs = s.regs := rfl
theorem hashKept_idn (h : Nat) (s : State) : (hashKept h s).idn = { s.idn with fusing := some h } := rfl
theorem hashKept_freeCtr (h : Nat) (s : State) : (hashKept h s).freeCtr = s.freeCtr := rfl

/-- A request stands last in the queue. -/
def requestQueued (r : SignReq) (s : State) : State := syncSign { s with idn := { s.idn with queue := s.idn.queue ++ [r] } }

theorem requestQueued_shows (r : SignReq) (s : State) : OnlySigner [R.IDN_STAT] s (requestQueued r s)
    ∧ (requestQueued r s).idn = { s.idn with queue := s.idn.queue ++ [r] } ∧ (requestQueued r s).freeCtr = s.freeCtr
    ∧ (requestQueued r s).get R.IDN_STAT_ERR = s.get R.IDN_STAT_ERR
    ∧ (requestQueued r s).on R.IDN_STAT_BUSY = s.on R.IDN_STAT_BUSY :=
  ⟨((OnlySigner.refl _ s).setIdn _).syncSign (List.mem_singleton_self _), syncSign_idn _, syncSign_freeCtr _,
    (get_syncSign_apart (.inl (by decide))).trans (get_with_idn ..),
    congrArg (· == 1) ((get_syncSign_apart (.inr (by decide))).trans (get_with_idn ..))⟩

theorem writeIdnCmd_of_refused (hcode : code < 16) (hj : idnJudge (c.guard.toNat == guardWord) code s = e) (he : e ≠ 0) :
    writeIdnCmd (ctlWord c code) s = idnRefused e s := by
  simp only [writeIdnCmd, bitsOf_ctlWord_code hcode, guardOk_ctlWord hcode, hj]
  exact if_pos he

theorem writeIdnCmd_of_attest (hj : idnJudge (c.guard.toNat == guardWord) 1 s = 0) :
    writeIdnCmd (ctlWord c 1) s = addSign (.host (reportBody (hostNonce s) false s)) (idnBusy s) := by
  simp only [writeIdnCmd, bitsOf_ctlWord_code (c := c) (by decide : (1 : Nat) < 16), guardOk_ctlWord (c := c) (by decide : (1 : Nat) < 16), hj]
  rfl

theorem writeIdnCmd_of_fuseKey (hj : idnJudge (c.guard.toNat == guardWord) 2 s = 0) :
    writeIdnCmd (ctlWord c 2) s = hashKept (stagedHash s) (idnBusy s) := by
  simp only [writeIdnCmd, bitsOf_ctlWord_code (c := c) (by decide : (2 : Nat) < 16), guardOk_ctlWord (c := c) (by decide : (2 : Nat) < 16), hj]
  rfl

theorem idnRefused_shows (p : Nat) (he : e < 256) : PortRegs p [R.IDN_STAT] s (idnRefused e (endRun p s))
    ∧ (idnRefused e (endRun p s)).get R.IDN_STAT_ERR = e ∧ (idnRefused e (endRun p s)).on R.IDN_STAT_CMDERR = true
    ∧ (idnRefused e (endRun p s)).on R.IDN_STAT_BUSY = s.on R.IDN_STAT_BUSY := by
  refine ⟨((PortRegs.refl p _ s).put R.IDN_STAT_ERR e (List.mem_singleton_self _)).flag R.IDN_STAT_CMDERR true
    (List.mem_singleton_self _), ?_, on_flag _ _ _ (by decide) rfl, ?_⟩
  · rw [idnRefused, get_flag_other _ _ _ _ (by decide) (by decide), get_put _ _ _ (by decide)]
    exact Nat.mod_eq_of_lt he
  · rw [idnRefused, on_flag_other _ _ _ _ (by decide) (by decide), on_put_other _ _ _ _ (by decide) (by decide), endRun_on]

theorem idnBusy_shows (s : State) : OnlySigner [R.IDN_STAT] s (idnBusy s) ∧ (idnBusy s).idn = s.idn
    ∧ (idnBusy s).freeCtr = s.freeCtr ∧ (idnBusy s).get R.IDN_STAT_ERR = 0 ∧ (idnBusy s).on R.IDN_STAT_BUSY = true := by
  refine ⟨((OnlySigner.refl _ s).put R.IDN_STAT_ERR 0 (List.mem_singleton_self _)).flag R.IDN_STAT_BUSY true
    (List.mem_singleton_self _), by rw [idnBusy, flag_idn, put_idn], by rw [idnBusy, flag_freeCtr, put_freeCtr], ?_,
    on_flag _ _ _ (by decide) rfl⟩
  rw [idnBusy, get_flag_other _ _ _ _ (by decide) (by decide), get_put _ _ _ (by decide)]
  rfl

/-- A request that is no Pattern verify goes to the end of the queue. -/
theorem addSign_of_not_verify {r : SignReq} (h : r.isVerify = false) :
    addSign r s = requestQueued r s := by
  simp only [addSign, h, Bool.false_eq_true, if_false, requestQueued]

theorem endRun_freeCtr (p : Nat) (s : State) : (endRun p s).freeCtr = s.freeCtr := rfl

/-- An accepted FUSE_KEY keeps the staged hash (R282). -/
theorem fuseTaken {p : Nat} (hj : idnJudge (c.guard.toNat == guardWord) 2 s = 0) :
    ∃ t, writeIdnCmd (ctlWord c 2) (endRun p s) = t ∧ OnlySigner [R.IDN_STAT] (endRun p s) t
      ∧ t.idn = { s.idn with fusing := some (stagedHash s) } ∧ t.freeCtr = s.freeCtr
      ∧ t.get R.IDN_STAT_ERR = 0 ∧ t.on R.IDN_STAT_BUSY = true := by
  have hwrite := writeIdnCmd_of_fuseKey (c := c) ((idnJudge_endRun _ p).trans hj)
  obtain ⟨hframe, hidn, hfree, herr, hon⟩ := idnBusy_shows (endRun p s)
  rw [stagedHash_endRun] at hwrite
  rw [endRun_idn] at hidn
  rw [endRun_freeCtr] at hfree
  generalize idnBusy (endRun p s) = u at hwrite hframe hidn hfree herr hon
  refine ⟨_, hwrite, hframe.setIdn _, by rw [hashKept_idn, hidn], (hashKept_freeCtr ..).trans hfree,
    (get_congr (hashKept_regs ..) _).trans herr, (on_congr (hashKept_regs ..) _).trans hon⟩

/-- An accepted ATTEST puts its report last in the queue (R283, R285). -/
theorem attestTaken {p : Nat} (hj : idnJudge (c.guard.toNat == guardWord) 1 s = 0) :
    ∃ t, writeIdnCmd (ctlWord c 1) (endRun p s) = t ∧ OnlySigner [R.IDN_STAT] (endRun p s) t
      ∧ t.idn = { s.idn with queue := s.idn.queue ++ [.host (reportBody (hostNonce s) false s)] } ∧ t.freeCtr = s.freeCtr
      ∧ t.get R.IDN_STAT_ERR = 0 ∧ t.on R.IDN_STAT_BUSY = true := by
  have hwrite := writeIdnCmd_of_attest (c := c) ((idnJudge_endRun _ p).trans hj)
  obtain ⟨hframe, hidn, hfree, herr, hon⟩ := idnBusy_shows (endRun p s)
  rw [reportBody_endRun, hostNonce_endRun, addSign_of_not_verify rfl] at hwrite
  rw [endRun_idn] at hidn
  rw [endRun_freeCtr] at hfree
  generalize idnBusy (endRun p s) = u at hwrite hframe hidn hfree herr hon
  generalize SignReq.host (reportBody (hostNonce s) false s) = r at hwrite ⊢
  obtain ⟨hqueued, hidn', hfree', herr', hon'⟩ := requestQueued_shows r u
  exact ⟨_, hwrite, hframe.trans hqueued, by rw [hidn', hidn], hfree'.trans hfree, herr'.trans herr, hon'.trans hon⟩

end

/-! ### What ends -/

section
variable {s : State}

theorem khash_inj : Function.Injective R.IDN_KHASH := fun a b h => by simp only [R.IDN_KHASH] at h; omega

theorem khash_ne_stat (k : Nat) : R.IDN_KHASH k ≠ R.IDN_STAT := by simp only [R.IDN_KHASH, R.IDN_STAT]; omega

/-- The fuses read back are shown (R282). -/
def fusesShown (fused : BitVec 256) (s : State) : State :=
  forL (List.range 8) (fun k a => a.setWord (R.IDN_KHASH k) (BitVec.ofNat 32 (beNat (slice (beBytes 32 fused.toNat) (4 * k) 4)))) s

/-- The flag of the outcome: KEYSET where the fuses are the hash, KFAIL where they are not. -/
def fuseFlag (fused : BitVec 256) (h : Nat) : Field := if fused.toNat = h then R.IDN_STAT_KEYSET else R.IDN_STAT_KFAIL

/-- The fuses and the outcome are shown. -/
def fuseOutcome (fused : BitVec 256) (h : Nat) (s : State) : State := (fusesShown fused s).flag (fuseFlag fused h) true

/-- The staged hash is kept no longer. -/
def fusingOver (s : State) : State := { s with idn := { s.idn with fusing := none } }

theorem fusingOver_regs (s : State) : (fusingOver s).regs = s.regs := rfl
theorem fusingOver_idn (s : State) : (fusingOver s).idn = { s.idn with fusing := none } := rfl
theorem fusingOver_freeCtr (s : State) : (fusingOver s).freeCtr = s.freeCtr := rfl

/-- The programming of the hash `h` ends. -/
def fuseEnded (fused : BitVec 256) (h : Nat) (s : State) : State := idnDone (fusingOver (fuseOutcome fused h s))

theorem exec_fuseKeyDone_of_none {fused : BitVec 256} (h : s.idn.fusing = none) : exec (.fuseKeyDone fused) s = .next s := by
  change execFuseKeyDone fused s = _
  simp only [execFuseKeyDone, h]

theorem exec_fuseKeyDone_of_some {fused : BitVec 256} {h : Nat} (hf : s.idn.fusing = some h) :
    exec (.fuseKeyDone fused) s = .next (fuseEnded fused h s) := by
  change execFuseKeyDone fused s = _
  simp only [execFuseKeyDone, hf, fuseEnded, fuseOutcome, fuseFlag]
  split <;> rfl

/-- The flag of the outcome is a bit of IDN_STAT below BUSY and DONE. -/
theorem fuseFlag_field (fused : BitVec 256) (h : Nat) :
    (fuseFlag fused h).addr = R.IDN_STAT ∧ (fuseFlag fused h).lo + (fuseFlag fused h).wd ≤ 30 ∧ (fuseFlag fused h).wd = 1 := by
  unfold fuseFlag
  split <;> decide

theorem fuseOutcome_shows (fused : BitVec 256) (h : Nat) (s : State) :
    OnlySigner (R.IDN_STAT :: (List.range 8).map R.IDN_KHASH) s (fuseOutcome fused h s)
      ∧ (fuseOutcome fused h s).idn = s.idn ∧ (fuseOutcome fused h s).freeCtr = s.freeCtr
      ∧ (∀ k, k < 8 → (fuseOutcome fused h s).word (R.IDN_KHASH k) = BitVec.ofNat 32 (fused.toNat / 2 ^ (32 * (7 - k))))
      ∧ (fuseOutcome fused h s).on (fuseFlag fused h) = true := by
  obtain ⟨hframe, hwords⟩ := wordsWritten khash_inj
    (fun k => BitVec.ofNat 32 (beNat (slice (beBytes 32 fused.toNat) (4 * k) 4))) 8 s
  obtain ⟨haddr, hlo, hwd⟩ := fuseFlag_field fused h
  rw [fuseOutcome, fusesShown]
  generalize fuseFlag fused h = f at haddr hlo hwd ⊢
  generalize forL (List.range 8) _ s = t at hframe hwords ⊢
  refine ⟨((OnlySigner.of_onlyRegs hframe).mono (List.subset_cons_self ..)).flag _ _ (haddr ▸ List.mem_cons_self ..),
    by rw [flag_idn, hframe.1], by rw [flag_freeCtr, hframe.1], fun k hk => ?_, on_flag _ _ _ (by omega) hwd⟩
  rw [word_flag_ne _ _ _ _ (haddr ▸ khash_ne_stat k), hwords k hk, hashWord_beBytes _ hk]

theorem fuseEnded_shows (fused : BitVec 256) (h : Nat) (s : State) :
    OnlySigner (R.IDN_STAT :: (List.range 8).map R.IDN_KHASH) s (fuseEnded fused h s)
      ∧ (fuseEnded fused h s).idn = { s.idn with fusing := none } ∧ (fuseEnded fused h s).freeCtr = s.freeCtr
      ∧ (∀ k, k < 8 → (fuseEnded fused h s).word (R.IDN_KHASH k) = BitVec.ofNat 32 (fused.toNat / 2 ^ (32 * (7 - k))))
      ∧ (fuseEnded fused h s).on R.IDN_STAT_BUSY = false ∧ (fuseEnded fused h s).on R.IDN_STAT_DONE = true
      ∧ (fuseEnded fused h s).on (fuseFlag fused h) = true := by
  obtain ⟨hframe, hidn, hfree, hwords, hflag⟩ := fuseOutcome_shows fused h s
  obtain ⟨-, hlo, -⟩ := fuseFlag_field fused h
  rw [fuseEnded]
  generalize fuseOutcome fused h s = u at hframe hidn hfree hwords hflag ⊢
  obtain ⟨hbusy, hdone, hbelow⟩ := idnDone_shows (fusingOver u)
  refine ⟨(hframe.setIdn _).idnDone (List.mem_cons_self ..), by rw [idnDone_idn, fusingOver_idn, hidn],
    by rw [idnDone_freeCtr, fusingOver_freeCtr, hfree], fun k hk => ?_, hbusy, hdone,
    (congrArg (· == 1) (hbelow _ hlo)).trans ((on_congr (fusingOver_regs u) _).trans hflag)⟩
  rw [word_idnDone _ (khash_ne_stat k), word_congr (fusingOver_regs u), hwords k hk]

/-! ### The checks after power-up (R280) -/

/-- What the checks found. -/
def checksShown (k r : Bool) (s : State) : State :=
  (s.flag R.IDN_STAT_KEYERR (s.on R.IDN_STAT_KEYERR || !k)).flag R.IDN_STAT_RNGERR (s.on R.IDN_STAT_RNGERR || !r)

/-- The checks end, and the requests that waited go on. -/
def checksEnded (k r : Bool) (s : State) : State :=
  syncSign { checksShown k r s with idn := { (checksShown k r s).idn with checking := false } }

theorem exec_keyCheckDone_of_checking (k r : Bool) (h : s.idn.checking = true) :
    exec (.keyCheckDone k r) s = .next (checksEnded k r s) := congrArg Host.Outcome.next (if_pos h)

theorem checksShown_shows (k r : Bool) (s : State) : OnlySigner [R.IDN_STAT] s (checksShown k r s)
    ∧ (checksShown k r s).idn = s.idn ∧ (checksShown k r s).freeCtr = s.freeCtr
    ∧ (checksShown k r s).on R.IDN_STAT_KEYERR = (s.on R.IDN_STAT_KEYERR || !k)
    ∧ (checksShown k r s).on R.IDN_STAT_RNGERR = (s.on R.IDN_STAT_RNGERR || !r) := by
  refine ⟨((OnlySigner.refl _ s).flag R.IDN_STAT_KEYERR _ (List.mem_singleton_self _)).flag R.IDN_STAT_RNGERR _
    (List.mem_singleton_self _), by rw [checksShown, flag_idn, flag_idn], by rw [checksShown, flag_freeCtr, flag_freeCtr], ?_,
    on_flag _ _ _ (by decide) rfl⟩
  rw [checksShown, on_flag_other _ _ _ _ (by decide) (by decide), on_flag _ _ _ (by decide) rfl]

theorem checksEnded_shows (k r : Bool) (s : State) : OnlySigner [R.IDN_STAT] s (checksEnded k r s)
    ∧ (checksEnded k r s).idn = { s.idn with checking := false } ∧ (checksEnded k r s).freeCtr = s.freeCtr
    ∧ (checksEnded k r s).on R.IDN_STAT_KEYERR = (s.on R.IDN_STAT_KEYERR || !k)
    ∧ (checksEnded k r s).on R.IDN_STAT_RNGERR = (s.on R.IDN_STAT_RNGERR || !r) := by
  obtain ⟨hframe, hidn, hfree, hkey, hrng⟩ := checksShown_shows k r s
  rw [checksEnded]
  generalize checksShown k r s = u at hframe hidn hfree hkey hrng ⊢
  have hapart : ∀ f : Field, 20 ≤ f.lo → f.lo + f.wd ≤ 32 →
      (syncSign { u with idn := { u.idn with checking := false } }).on f = u.on f := fun f hlo hhi =>
    congrArg (· == 1) ((get_syncSign_apart (.inr ⟨hlo, hhi⟩)).trans (get_with_idn ..))
  exact ⟨(hframe.setIdn _).syncSign (List.mem_singleton_self _), by rw [syncSign_idn, hidn], by rw [syncSign_freeCtr, hfree],
    (hapart _ (by decide) (by decide)).trans hkey, (hapart _ (by decide) (by decide)).trans hrng⟩

end

/-! ### SIGN_COMPLETE (R221, R283, R285) -/

section
variable {s : State} {r : SignReq} {tl : List SignReq} {body : List Byte}

/-- The checks after power-up hold the queue, and a Pattern verify ends by its own command. -/
theorem exec_signComplete_of_waits (hq : s.idn.queue = r :: tl) (h : s.idn.checking = true ∨ r = .verify) :
    exec .signComplete s = .next s := by
  have hwaits : (s.idn.checking || r.isVerify || !domOn s 3) = true := by
    rcases h with h | rfl
    · rw [h, Bool.true_or, Bool.true_or]
    · rw [SignReq.isVerify, Bool.or_true, Bool.true_or]
  change execSignComplete s = _
  simp only [execSignComplete, hq, hwaits, if_true]

/-- A request goes on where the engine may work on it. -/
def Works (s : State) (r : SignReq) : Prop := s.idn.checking = false ∧ r.isVerify = false ∧ domOn s 3 = true

theorem exec_signComplete_of_signs (hq : s.idn.queue = r :: tl) (h : Works s r) (hok : signerOk s = true) :
    exec .signComplete s = .next (completeSign r (requestTaken tl s)) := by
  obtain ⟨hchecking, hverify, hdom⟩ := h
  change execSignComplete s = _
  simp only [execSignComplete, hq, hchecking, hverify, hdom, hok, Bool.or_self, Bool.not_true, Bool.false_eq_true, if_false, if_true,
    requestTaken]

theorem exec_signComplete_of_refused_host (hq : s.idn.queue = .host body :: tl) (h : Works s (.host body)) (hok : signerOk s = false) :
    exec .signComplete s = .next (idnDone ((requestTaken tl s).put R.IDN_STAT_ERR (if s.on R.IDN_STAT_KEYERR then 6 else 7))) := by
  obtain ⟨hchecking, hverify, hdom⟩ := h
  change execSignComplete s = _
  simp only [execSignComplete, hq, hchecking, hverify, hdom, hok, Bool.or_self, Bool.not_true, Bool.false_eq_true, if_false,
    requestTaken]

theorem exec_signComplete_of_refused_meter (hq : s.idn.queue = .meter :: tl) (h : Works s .meter) (hok : signerOk s = false) :
    exec .signComplete s = .next (mtrInt 4 (requestTaken tl s)) := by
  obtain ⟨hchecking, hverify, hdom⟩ := h
  change execSignComplete s = _
  simp only [execSignComplete, hq, hchecking, hverify, hdom, hok, Bool.or_self, Bool.not_true, Bool.false_eq_true, if_false,
    requestTaken]

/-! #### The host's report -/

theorem completeSign_host (body : List Byte) (s : State) :
    completeSign (.host body) s = reportShown body (freeSignature body s) (countSignature s) := rfl

/-- The registers of a host report: the status, the count of signatures, and the report window. -/
def signRegs : List Nat := [R.IDN_STAT, R.IDN_SIGCNT] ++ (List.range 48).map R.IDN_REPORT

theorem hostSigned_shows (hbody : body.length = 128) (tl : List SignReq) (s : State) :
    OnlySigner signRegs s (completeSign (.host body) (requestTaken tl s))
      ∧ (completeSign (.host body) (requestTaken tl s)).idn = { s.idn with queue := tl }
      ∧ (completeSign (.host body) (requestTaken tl s)).freeCtr = s.freeCtr + 2
      ∧ (completeSign (.host body) (requestTaken tl s)).on R.IDN_STAT_BUSY = false
      ∧ (completeSign (.host body) (requestTaken tl s)).on R.IDN_STAT_DONE = true
      ∧ (completeSign (.host body) (requestTaken tl s)).get R.IDN_SIGCNT_CNT = (s.get R.IDN_SIGCNT_CNT + 1) % 2 ^ 32
      ∧ (∀ k, k < 32 → (completeSign (.host body) (requestTaken tl s)).word (R.IDN_REPORT k) = BitVec.ofNat 32 (leAt body (4 * k)))
      ∧ ∀ k, k < 16 → (completeSign (.host body) (requestTaken tl s)).word (R.IDN_REPORT (32 + k))
        = BitVec.ofNat 32 (leAt (freeSignature body s) (4 * k)) := by
  obtain ⟨htaken, hidn, hfree⟩ := requestTaken_shows tl s
  rw [completeSign_host, freeSignature_congr hfree]
  generalize requestTaken tl s = u at htaken hidn hfree ⊢
  obtain ⟨hcounted, hidn', hfree', hcnt⟩ := countSignature_shows u
  generalize countSignature u = v at hcounted hidn' hfree' hcnt ⊢
  obtain ⟨hreport, hsame, hctr, hbusy, hdone, hbodyWords, hsigWords⟩ := reportShown_shows hbody (length_freeSignature body s) v
  have hsigcnt : R.IDN_SIGCNT ∉ R.IDN_STAT :: (List.range 48).map R.IDN_REPORT := by
    simp only [List.mem_cons, List.mem_map, R.IDN_SIGCNT, R.IDN_STAT, R.IDN_REPORT]
    omega
  refine ⟨((htaken.mono ?_).trans (hcounted.mono ?_)).trans (hreport.mono ?_), hsame.trans (hidn'.trans hidn),
    hctr.trans (hfree'.trans (by rw [hfree])), hbusy, hdone, ?_, hbodyWords, hsigWords⟩
  · simp [signRegs]
  · simp [signRegs]
  · exact List.cons_subset_cons _ (List.subset_cons_self ..)
  · rw [hreport.regs.get hsigcnt, hcnt, htaken.regs.get (f := R.IDN_SIGCNT_CNT) (by decide)]

/-- A host report that meets KEYERR or RNGERR ends with that reason (R280). -/
theorem hostRefused_shows {e : Nat} (he : e < 256) (tl : List SignReq) (s : State) :
    OnlySigner [R.IDN_STAT] s (idnDone ((requestTaken tl s).put R.IDN_STAT_ERR e))
      ∧ (idnDone ((requestTaken tl s).put R.IDN_STAT_ERR e)).idn = { s.idn with queue := tl }
      ∧ (idnDone ((requestTaken tl s).put R.IDN_STAT_ERR e)).freeCtr = s.freeCtr
      ∧ (idnDone ((requestTaken tl s).put R.IDN_STAT_ERR e)).on R.IDN_STAT_BUSY = false
      ∧ (idnDone ((requestTaken tl s).put R.IDN_STAT_ERR e)).on R.IDN_STAT_DONE = true
      ∧ (idnDone ((requestTaken tl s).put R.IDN_STAT_ERR e)).get R.IDN_STAT_ERR = e := by
  obtain ⟨htaken, hidn, hfree⟩ := requestTaken_shows tl s
  generalize requestTaken tl s = u at htaken hidn hfree ⊢
  obtain ⟨hbusy, hdone, hbelow⟩ := idnDone_shows (u.put R.IDN_STAT_ERR e)
  refine ⟨(htaken.put R.IDN_STAT_ERR e (List.mem_singleton_self _)).idnDone (List.mem_singleton_self _),
    by rw [idnDone_idn, put_idn, hidn], by rw [idnDone_freeCtr, put_freeCtr, hfree], hbusy, hdone, ?_⟩
  rw [hbelow _ (by decide), get_put _ _ _ (by decide)]
  exact Nat.mod_eq_of_lt he

/-! #### A meter record -/

theorem oldestPending_congr {t : State} (h : t.mtr.ring = s.mtr.ring) : oldestPending t = oldestPending s := by
  have hslot : ringSlot t = ringSlot s := funext fun k => congrArg (tget (fun _ => RingSlot.zero) · k) h
  unfold oldestPending
  rw [hslot]

theorem completeSign_meter {k : Nat} (h : oldestPending (countSignature s) = some k)
    (hburst : (signSlot k (freeSignature (ringSlot s k).body s) (countSignature s)).hrv.burst ≠ 2) :
    completeSign .meter s = signSlot k (freeSignature (ringSlot s k).body s) (countSignature s) := by
  simp only [completeSign, h]
  exact if_neg hburst

/-- The slot with its signature. -/
def slotSigned (k : Nat) (sig : List Byte) (s : State) : State := setRingSlot s k { ringSlot s k with st := 2, sig := sig }

/-- The event that the host sees. -/
def recordAnnounced (s : State) : State := s.flag R.HST_EVT_MREC true

theorem signSlot_eq (k : Nat) (sig : List Byte) (s : State) : signSlot k sig s = syncRing (recordAnnounced (slotSigned k sig s)) := rfl

theorem syncRing_regs (s : State) : RegsOutside [R.MTR_RSTAT] s (syncRing s) :=
  (RegsOutside.refl _ s).put R.MTR_RSTAT_PENDING _ (List.mem_singleton_self _)

theorem ringSlot_setRingSlot (s : State) (k : Nat) (x : RingSlot) : ringSlot (setRingSlot s k x) k = x := tget_tset_self ..

theorem slotSigned_regs (k : Nat) (sig : List Byte) (s : State) : (slotSigned k sig s).regs = s.regs := rfl
theorem slotSigned_idn (k : Nat) (sig : List Byte) (s : State) : (slotSigned k sig s).idn = s.idn := rfl
theorem slotSigned_freeCtr (k : Nat) (sig : List Byte) (s : State) : (slotSigned k sig s).freeCtr = s.freeCtr := rfl
theorem slotSigned_hrv (k : Nat) (sig : List Byte) (s : State) : (slotSigned k sig s).hrv = s.hrv := rfl

theorem ringSlot_congr {t : State} (h : t.mtr = s.mtr) (k : Nat) : ringSlot t k = ringSlot s k := by rw [ringSlot, ringSlot, h]

/-- The slot is SIGNED, and the host sees a record. -/
theorem signSlot_shows (k : Nat) (sig : List Byte) (s : State) :
    (signSlot k sig s).idn = s.idn ∧ (signSlot k sig s).freeCtr = s.freeCtr ∧ (signSlot k sig s).hrv = s.hrv
      ∧ RegsOutside [R.MTR_RSTAT, R.HST_EVT] s (signSlot k sig s) ∧ (signSlot k sig s).on R.HST_EVT_MREC = true
      ∧ ringSlot (signSlot k sig s) k = { ringSlot s k with st := 2, sig := sig } := by
  have hslot : ringSlot (slotSigned k sig s) k = { ringSlot s k with st := 2, sig := sig } := ringSlot_setRingSlot ..
  have hregs := slotSigned_regs k sig s
  have hidn := slotSigned_idn k sig s
  have hfree := slotSigned_freeCtr k sig s
  have hhrv := slotSigned_hrv k sig s
  rw [signSlot_eq]
  generalize slotSigned k sig s = u at hslot hregs hidn hfree hhrv ⊢
  refine ⟨by rw [syncRing, put_idn, recordAnnounced, flag_idn, hidn], by rw [syncRing, put_freeCtr, recordAnnounced, flag_freeCtr, hfree],
    by rw [syncRing, put_hrv, recordAnnounced, flag_hrv, hhrv], ?_, ?_, ?_⟩
  · exact ((RegsOutside.of_regs (.refl _ s) hregs).flag R.HST_EVT_MREC true (by simp [R.HST_EVT_MREC])).trans
      ((syncRing_regs _).mono (by simp))
  · rw [(syncRing_regs _).on (f := R.HST_EVT_MREC) (by decide), recordAnnounced]
    exact on_flag _ _ _ (by decide) rfl
  · rw [← hslot]
    exact ringSlot_congr ((put_mtr ..).trans (flag_mtr ..)) k

theorem meterSigned_shows {k : Nat} (hold : oldestPending s = some k) (hburst : s.hrv.burst ≠ 2) (tl : List SignReq) :
    ∃ t, completeSign .meter (requestTaken tl s) = t ∧ t.idn = { s.idn with queue := tl } ∧ t.freeCtr = s.freeCtr + 2
      ∧ RegsOutside [R.IDN_STAT, R.IDN_SIGCNT, R.MTR_RSTAT, R.HST_EVT] s t ∧ t.on R.HST_EVT_MREC = true
      ∧ t.get R.IDN_SIGCNT_CNT = (s.get R.IDN_SIGCNT_CNT + 1) % 2 ^ 32
      ∧ ringSlot t k = { ringSlot s k with st := 2, sig := freeSignature (ringSlot s k).body s } := by
  obtain ⟨htaken, hidn, hfree⟩ := requestTaken_shows tl s
  generalize requestTaken tl s = u at htaken hidn hfree ⊢
  obtain ⟨hcounted, hidn', hfree', hcnt⟩ := countSignature_shows u
  have hmtr : (countSignature u).mtr = s.mtr := by rw [hcounted.rest, htaken.rest]
  have hhrv : (countSignature u).hrv = s.hrv := by rw [hcounted.rest, htaken.rest]
  have hmeter := completeSign_meter (s := u) (k := k) ((oldestPending_congr (congrArg MtrSt.ring hmtr)).trans hold)
  have hslot : ringSlot u k = ringSlot s k := ringSlot_congr (by rw [htaken.rest]) k
  have hslot' : ringSlot (countSignature u) k = ringSlot s k := ringSlot_congr hmtr k
  rw [hslot, freeSignature_congr hfree] at hmeter
  generalize countSignature u = v at hcounted hidn' hfree' hcnt hmtr hhrv hmeter hslot'
  obtain ⟨hsame, hctr, hhrv', hregs, hmrec, hsigned⟩ := signSlot_shows k (freeSignature (ringSlot s k).body s) v
  have hall : RegsOutside [R.IDN_STAT, R.IDN_SIGCNT, R.MTR_RSTAT, R.HST_EVT] s v :=
    (htaken.regs.mono (by simp)).trans (hcounted.regs.mono (by simp))
  refine ⟨_, hmeter (by rw [hhrv', hhrv]; exact hburst), hsame.trans (hidn'.trans hidn), hctr.trans (hfree'.trans (by rw [hfree])),
    hall.trans (hregs.mono (by simp)), hmrec, ?_, by rw [hsigned, hslot']⟩
  rw [hregs.get (f := R.IDN_SIGCNT_CNT) (by decide), hcnt, htaken.regs.get (f := R.IDN_SIGCNT_CNT) (by decide)]

end

/-! ### The obligation -/

/-- Settles O47: each command comes out as `idnRefused`, or as `idnBusy` with its request or its hash; each end shows what its
lemma says. -/
theorem identityCommands : Obligations.IdentityCommands := by
  refine ⟨fun c s hacc => ?commands, fun fused s => ⟨exec_fuseKeyDone_of_none, fun h hf => ?fused⟩,
    fun k r s => ⟨fun hidle => ?unchecked, fun hchecking => ?checked, fun hdom => ?rng⟩,
    fun r tl s hq => ⟨exec_signComplete_of_waits hq, fun hchecking hdom => ⟨fun body hr => ⟨fun hok hbody => ?signed, fun hno => ?unsigned⟩,
      fun hr => ⟨fun k hok hold hburst => ?record, fun hno => ?unrecorded⟩⟩⟩⟩
  case commands =>
    intro refused
    have hattest : ∀ e, e ≠ 0 → e < 256 → idnJudge (c.guard.toNat == guardWord) 1 s = e → refused e (.attest c) :=
      fun e h0 h256 hj => ⟨_, (exec_attest_of_accepts hacc).trans (congrArg _ (writeIdnCmd_of_refused (by decide) ((idnJudge_endRun ..).trans hj) h0)),
        idnRefused_shows c.port h256⟩
    have hfuse : ∀ e, e ≠ 0 → e < 256 → idnJudge (c.guard.toNat == guardWord) 2 s = e → refused e (.fuseKey c) :=
      fun e h0 h256 hj => ⟨_, (exec_fuseKey_of_accepts hacc).trans (congrArg _ (writeIdnCmd_of_refused (by decide) ((idnJudge_endRun ..).trans hj) h0)),
        idnRefused_shows c.port h256⟩
    refine ⟨fun hguard => ?_, fun hguard hbusy => ?_, fun hguard hbusy => ?_⟩
    · have hno : (c.guard.toNat == guardWord) = false := beq_false_of_ne hguard
      exact ⟨hattest 1 (by decide) (by decide) (by rw [hno]; rfl), hfuse 1 (by decide) (by decide) (by rw [hno]; rfl)⟩
    · have hyes : (c.guard.toNat == guardWord) = true := beq_iff_eq.2 hguard
      exact ⟨hattest 2 (by decide) (by decide) (by simp [idnJudge, hyes, hbusy]),
        hfuse 2 (by decide) (by decide) (by simp [idnJudge, hyes, hbusy])⟩
    have hyes : (c.guard.toNat == guardWord) = true := beq_iff_eq.2 hguard
    refine ⟨fun hkey => ?_, fun hkey hrng => ?_, fun hmode => ?_, fun hmode hset => ?_, fun hmode hset hfail => ⟨fun hzero => ?_,
      fun hzero hones => ?fuse⟩, fun hkey hrng => ?attest⟩
    · exact hattest 6 (by decide) (by decide) (by simp [idnJudge, hyes, hbusy, hkey])
    · exact hattest 7 (by decide) (by decide) (by simp [idnJudge, hyes, hbusy, hkey, hrng])
    · exact hfuse 3 (by decide) (by decide) (by simp [idnJudge, hyes, hbusy, hmode])
    · exact hfuse 4 (by decide) (by decide) (by simp [idnJudge, hyes, hbusy, hmode, hset])
    · exact hfuse 5 (by decide) (by decide) (by simp [idnJudge, hyes, hbusy, hmode, hset, hfail, hzero])
    case fuse =>
      have hj : idnJudge (c.guard.toNat == guardWord) 2 s = 0 := by
        simpa [idnJudge, hyes, hbusy, hmode, hset, hfail, hzero] using hones
      obtain ⟨t, hwrite, hframe, hidn, hfree, herr, hon⟩ := fuseTaken (p := c.port) hj
      exact ⟨t, (exec_fuseKey_of_accepts hacc).trans (congrArg _ hwrite), hframe.regs.of_endRun, hframe.eq_of hidn hfree, herr, hon⟩
    case attest =>
      have hj : idnJudge (c.guard.toNat == guardWord) 1 s = 0 := by simp [idnJudge, hyes, hbusy, hkey, hrng]
      obtain ⟨t, hwrite, hframe, hidn, hfree, herr, hon⟩ := attestTaken (p := c.port) hj
      exact ⟨t, (exec_attest_of_accepts hacc).trans (congrArg _ hwrite), hframe.regs.of_endRun, hframe.eq_of hidn hfree, herr, hon⟩
  case fused =>
    obtain ⟨hframe, hidn, hfree, hwords, hbusy, hdone, hflag⟩ := fuseEnded_shows fused h s
    refine ⟨_, exec_fuseKeyDone_of_some hf, hframe.regs, hframe.eq_of hidn hfree, hwords, hbusy, hdone, fun heq => ?_, fun hne => ?_⟩
    · rwa [fuseFlag, if_pos heq] at hflag
    · rwa [fuseFlag, if_neg hne] at hflag
  case unchecked => exact congrArg Host.Outcome.next (if_neg (ne_true_of_eq_false hidle))
  case checked =>
    obtain ⟨hframe, hidn, hfree, hkey, hrng⟩ := checksEnded_shows k r s
    exact ⟨_, exec_keyCheckDone_of_checking k r hchecking, hframe.regs, hframe.eq_of hidn hfree, hkey, hrng⟩
  case rng =>
    exact ⟨_, congrArg Host.Outcome.next (if_pos hdom), (OnlyRegs.refl _ s).flag R.IDN_STAT_RNGERR true (List.mem_singleton_self _),
      on_flag _ _ _ (by decide) rfl⟩
  case signed =>
    subst hr
    obtain ⟨hframe, hidn, hfree, hbusy, hdone, hcnt, hbodyWords, hsigWords⟩ := hostSigned_shows hbody tl s
    exact ⟨_, exec_signComplete_of_signs hq ⟨hchecking, rfl, hdom⟩ hok, hidn, hfree, hframe.regs, hbusy, hdone, hcnt, hbodyWords,
      hsigWords, hframe.rest⟩
  case unsigned =>
    subst hr
    obtain ⟨hframe, hidn, hfree, hbusy, hdone, herr⟩ := hostRefused_shows (e := if s.on R.IDN_STAT_KEYERR then 6 else 7)
      (by split <;> decide) tl s
    exact ⟨_, exec_signComplete_of_refused_host hq ⟨hchecking, rfl, hdom⟩ hno, hframe.regs, hframe.eq_of hidn hfree, hbusy, hdone, herr⟩
  case record =>
    subst hr
    obtain ⟨t, hcomplete, hshows⟩ := meterSigned_shows hold hburst tl
    exact ⟨t, (exec_signComplete_of_signs hq ⟨hchecking, rfl, hdom⟩ hok).trans (congrArg _ hcomplete), hshows⟩
  case unrecorded =>
    subst hr
    obtain ⟨hframe, hidn, hfree⟩ := requestTaken_shows tl s
    exact ⟨_, exec_signComplete_of_refused_meter hq ⟨hchecking, rfl, hdom⟩ hno, hframe.regs, hframe.eq_of hidn hfree⟩

end Sys2Proof.Machine
end
